-- ==== Sys2Proof/Word.lean ====
section
/-!
DEFINITION. The word types of the register window and of memory (00_scope.md, register conventions and R26).
-/
namespace Sys2Proof

/-- A register of the 16 MiB window: 64 bits. -/
abbrev Word := BitVec 64

/-- One byte of an image, a packet or a buffer. -/
abbrev Byte := BitVec 8

end Sys2Proof
end

