-- ==== Sys2Proof/Syntax.lean ====
section
/-!
DEFINITION. The commands of the block: one constructor of `Instr` for each row of spec/opcode_table.json, with its
operands. A command is a register access, an event at a port or a pin, or the completion of work inside the block; what
an event brings with it (a packet, read data, an image, a time stamp) is an operand.
-/
namespace Sys2Proof

/-- The privileges Driver, Fleet and Secure (00_scope.md, register conventions). -/
inductive Priv where
  | D | F | S
  deriving DecidableEq, Repr

/-- Where an access comes from, as the Ledger names it (R613): the Register Port, a Telemetry Global Address request, a
control core, the debug TAP, or the block itself. -/
inductive Port where
  | rgp | tga | core (c : Nat) | tap | internal
  deriving DecidableEq, Repr

/-- A 64-bit access, or a 32-bit access to one half (R13, R116). -/
inductive Half where
  | full | lo | hi
  deriving DecidableEq, Repr

/-- One write access (R115, R613): port, privilege, initiator ID, half, write data (for a 32-bit access in bits 31:0,
R116), the TGA requester as [26:24] level and [23:0] index, the bits of the register that hardware updates at the same
edge with their new values (R22 to R24; mask 0: none), and whether the access falls in the SCLK cycle of the one before
it, from another origin (R612). -/
structure Acc where
  port : Port
  priv : Priv
  init : Nat
  half : Half
  data : Word
  tgaFrom : Nat
  hwMask : Word
  hwVal : Word
  sameCycle : Bool
  /-- RGP_REQ_TAG, which the response echoes (R115, R117). -/
  tag : Nat := 0
  deriving DecidableEq, Repr

/-- One FRP packet as it stands on a lane (R295): header fields, payload and the CRC field. `bytes` is the byte count of
the packet on the lane, header included (R154). -/
structure Pkt where
  version : Nat
  level : Nat
  flags : Nat
  domain : Nat
  type : Nat
  vc : Nat
  source : Nat
  epoch : Nat
  seq : Nat
  announced : Nat
  length : Nat
  childBit : Nat
  payload : List Byte
  crc : Nat
  bytes : Nat
  deriving DecidableEq, Repr

/-- A beat status of the Memory Port (R132). -/
inductive MemStatus where
  | ok | poison | addrErr | accessErr
  deriving DecidableEq, Repr

/-- A time of a base or of a message: whole nanoseconds and a fraction in units of 2^-16 ns (R239). -/
structure Stamp where
  ns : Nat
  frac : Nat
  deriving DecidableEq, Repr

/-- One instruction of a halted core: its length, the pc after it, what it traps with (mcause and mtval), and the registers that it
writes (R711). -/
structure StepEffect where
  len : Nat
  next : Nat
  trap : Option (Word × Word)
  xs : List (Nat × Word)
  deriving DecidableEq, Repr

/-- The commands of the block, one for each row of the table of operations and events. -/
inductive Instr where
  /-- REGISTER_WRITE (R729): A Register Port, TGA, core or TAP write to a register that has no row of its own is checked in R729 order and is then performed or refused. -/
  | registerWrite (addr : Nat) (acc : Acc) (buf : Option (List Byte)) (step : Option StepEffect)
  /-- LEDGER_QUEUE_ADMIT (R612): A configuration write that waited on a full Ledger queue is performed once its record enters the queue. -/
  | ledgerQueueAdmit
  /-- RESULT_CONSUME (R637): A write-back of SEQ to a sequence-and-VALID result register consumes the result, or has no effect and writes record 0x0006 when the SEQ is wrong. -/
  | resultConsume (addr : Nat) (acc : Acc)
  /-- COLD_RESET (R84): The rise of PWRON_RST_N starts ACLK and releases the domains in order. -/
  | coldReset (chipId : BitVec 128)
  /-- WARM_RESET (R82): WARM_RST_N low for at least 4 ACLK cycles resets every domain except AON and then reloads the Itinerary. -/
  | warmReset
  /-- CLK_RST_WARM (R82): A write of CLK_RST_CTL.WARM = 1 starts a warm reset. -/
  | clkRstWarm (acc : Acc)
  /-- DOMAIN_RESET_REQUEST (R85): A write of a CLK_RST_CTL domain bit resets that domain if its fence state reads FENCED. -/
  | domainResetRequest (acc : Acc)
  /-- DOMAIN_RESET_RELEASE (R86): After 16 SCLK cycles in reset, the domain re-applies its configuration and clears its CLK_DOMAIN_STATUS bit. -/
  | domainResetRelease (d : Nat)
  /-- CLK_MON_WINDOW_END (R70): At the end of each window of 2^20 SEP_CLK cycles, the ACLK count loads CLK_MON.COUNT and is checked against LIMIT. -/
  | clkMonWindowEnd (count : Nat)
  /-- CLOCK_BRANCH_GATE (R68): A branch enabled in IDLE_GATE is gated while its unit has no work. -/
  | clockBranchGate (b : Nat)
  /-- CLOCK_BRANCH_RESTART (R69): A gated branch restarts within 8 cycles after work is posted to its unit. -/
  | clockBranchRestart (b : Nat)
  /-- HOST_SIDE_RESET (R87): EOP_RST_N, MMP_RST_N, FBP_RST_N or SEP_RST_N resets the host side of its crossing and starts the handshake. -/
  | hostSideReset (x : Nat)
  /-- XRST_ACK_SEEN (R77): XRST_ACK is seen high by the block, which lowers XRST_REQ. -/
  | xrstAckSeen (x : Nat)
  /-- XRST_HANDSHAKE_DONE (R79): XRST_ACK is seen low, traffic resumes and the crossing's CLK_XING_RESYNC field increments with record 0x0201. -/
  | xrstHandshakeDone (x : Nat)
  /-- EOP_EVENT (R75): Events on an EOP event input are counted into the routed counters, the bins and the heartbeats. -/
  | eopEvent (input count : Nat)
  /-- ATTENTION_PULSE (R76): A pulse on RGP_ATTN crosses as a toggle that merges pulses into one attention to the control cores. -/
  | attentionPulse
  /-- TAG_TRANSFER (R97): A tag transfer sets an engine's current context, layer and operator and splits its event counts at the transfer edge. -/
  | tagTransfer (engine ctx layer op : Nat)
  /-- SNAPSHOT_RECORD (R201): A complete snapshot from an engine replaces that engine's snapshot slot. -/
  | snapshotRecord (engine : Nat) (beats : List (BitVec 256)) (cut : Bool)
  /-- WITNESS_RECORD (R457): A witness record arriving on the EOP is checked, then staged, forwarded or discarded. -/
  | witnessRecord (engine : Nat) (beats : List (BitVec 512)) (cut : Bool)
  /-- PROBE_RESULT_RECORD (R488): A PROBE_RESULT witness record is compared with its probe's reference and the engine passes or fails. -/
  | probeResultRecord (engine : Nat) (beats : List (BitVec 512)) (cut : Bool)
  /-- PROBE_ISSUE (R104): The block sends one probe tile as a PROBE record to the named engine. -/
  | probeIssue (errs : List (Nat × Nat × Nat))
  /-- SEED_BUNDLE_SEND (R106): During epoch e, the block sends the seed bundle for epoch e+1 across EOP_SEED_DATA. -/
  | seedBundleSend
  /-- SEED_ACK (R74): The synchronised EOP_SEED_ACK toggle returns and completes the bundle transfer. -/
  | seedAck
  /-- SEED_ACK_TIMEOUT (R108): With no seed acknowledge 1 µs before the boundary, SEED_TMO is set and the next epoch becomes unaccountable. -/
  | seedAckTimeout
  /-- FENCE_ACK_SEEN (R110): EOP_FENCE_ACK[d] is seen high, and the block waits for drain. -/
  | fenceAckSeen (d : Nat)
  /-- FENCE_DRAIN_DONE (R110): EOP_DRAIN_DONE[d] is seen high, ERR_RESP is sampled 3 SCLK cycles later and the host domain becomes FENCED. -/
  | fenceDrainDone (d : Nat) (errResp : Bool)
  /-- FENCE_LINES_LOW (R110): ACK, DRAIN_DONE and ERR_RESP are all seen low after a release, and the host domain becomes OPEN. -/
  | fenceLinesLow (d : Nat)
  /-- FENCE_ACK_TMO (R112): No EOP fence acknowledge arrives within ACK_TMO; the flag is set, record 0x0303 is written and the host domain enters TIMEOUT. -/
  | fenceAckTmo (d : Nat)
  /-- FENCE_DRAIN_TMO (R112): No DRAIN_DONE arrives within DRAIN_TMO after ACK; the flag is set, record 0x0304 is written and the host domain enters TIMEOUT. -/
  | fenceDrainTmo (d : Nat)
  /-- FENCE_PROTO (R113): A host fence line that rises against the protocol is ignored, and record 0x0305 is written. -/
  | fenceProto (d line : Nat)
  /-- MMP_REQUEST_ISSUE (R134): A unit's Memory Port request is checked against its regions and issued on a channel. -/
  | mmpRequestIssue
  /-- MMP_READ_DATA (R133): The beats of a read return, and the read completes to its unit or fails on an error status. -/
  | mmpReadData (ch id : Nat) (beats : List (MemStatus × BitVec 512))
  /-- MMP_WRITE_RESPONSE (R130): A write response returns and completes the write, or sets WR_ERR. -/
  | mmpWriteResponse (ch id : Nat) (st : MemStatus)
  /-- WRITE_INTENT (R504): A write intent from the host is answered at once, or waits on a granule copy. -/
  | writeIntent (granule tag : Nat)
  /-- INTENT_STALL_TIMEOUT (R506): An intent unanswered within STALL_NS is answered TORN, and its granule joins the torn list. -/
  | intentStallTimeout (tag : Nat)
  /-- TX_CREDIT_RETURN (R149): The NIC returns CNT+1 transmit credits for a VC of a lane. -/
  | txCreditReturn (lane vc cnt : Nat)
  /-- FRP_PACKET_RECEIVE (R154): A received FRP packet is checked for CRC, length, sequence and policing before it goes to its type handler. -/
  | frpPacketReceive (lane : Nat) (p : Pkt)
  /-- RX_CREDIT_RETURN (R150): The block returns receive credit for beats moved out of a lane's receive buffer. -/
  | rxCreditReturn (lane vc beats : Nat)
  /-- LANE_LINK_UP (R150): FBPn_LINK_UP rises, and the block grants each VC its receive partition. -/
  | laneLinkUp (lane : Nat)
  /-- LANE_LINK_DOWN (R158): FBPn_LINK_UP falls; the lane's transmit credits are zeroed, a partial packet is discarded and record 0x0508 is written. -/
  | laneLinkDown (lane : Nat)
  /-- FBP_RX_PART_WRITE (R150): A write of FBP_RX_PART repartitions each lane's receive buffer, or is refused with CFG_ERR. -/
  | fbpRxPartWrite (acc : Acc)
  /-- SEP_FRAME_RECEIVE (R161): A received Ethernet frame that is not PTP is checked and then placed in the firmware ring, forwarded or discarded. -/
  | sepFrameReceive (port : Nat) (frame : List Byte) (phase : Nat)
  /-- SEP_FRAME_TRANSMIT (R166): The MAC sends a frame from the firmware transmit ring between PTP messages. -/
  | sepFrameTransmit (port : Nat) (placed : List (List Byte))
  /-- TC_FORWARD (R265): The tray forwards a stored frame and adds residence time to Sync and Delay_Req correctionFields. -/
  | tcForward (phase : Nat)
  /-- SEP_PCS_DOWN (R168): SEPp_PCS_UP falls; the frames in flight end, PCS_DOWN is set and record 0x0605 is written. -/
  | sepPcsDown (port : Nat) (inRx stampLost : Bool)
  /-- KSP_READ (R177): KSP_CMD with OP read reads bytes from MRAM or NOR into KSP_CMD_DATA. -/
  | kspRead (acc : Acc)
  /-- KSP_PAGE_PROGRAM (R178): KSP_CMD with OP page program writes up to 256 bytes within one page. -/
  | kspPageProgram (acc : Acc)
  /-- KSP_SECTOR_ERASE (R178): KSP_CMD with OP sector erase erases a 64 KiB NOR sector. -/
  | kspSectorErase (acc : Acc)
  /-- KSP_READ_STATUS (R174): KSP_CMD with OP read status returns the device status register. -/
  | kspReadStatus (acc : Acc)
  /-- KSP_CMD_DONE (R177): A Keepsake command's transfer completes, and its result is posted. -/
  | kspCmdDone (present : Bool) (data : List Byte)
  /-- KSP_POLL_DONE (R179): The status poll finds the busy bit clear, and the program or erase ends OK or DEV_ERR. -/
  | kspPollDone (err : Bool)
  /-- KSP_POLL_TIMEOUT (R179): The poll limit of 5 ms or 2 s passes, and the command ends TMO with record 0x1D03. -/
  | kspPollTimeout
  /-- POWER_FAIL_WARNING (R181): PHU_PFW_N low for 4 ACLK cycles stops every domain but AON and the save island and starts the Strongbox save. -/
  | powerFailWarning (slotA slotB : List Byte)
  /-- STRONGBOX_SAVE_DONE (R621): The frame's last page is written and PHU_SAVE_DONE rises. -/
  | strongboxSaveDone
  /-- SAVE_PG_FALL (R183): PHU_SAVE_PG falls before PHU_SAVE_DONE, leaving an incomplete frame. -/
  | savePgFall
  /-- ITINERARY_LOAD_START (R40): 110 µs after cold reset, or at warm reset, the block reads the NOR slot headers and orders the slots. -/
  | itineraryLoadStart (present : Bool) (hdrA hdrB : Option (List Byte))
  /-- SLOT_READ_DONE (R40): A slot has been read in full, and its envelope and contents are verified for acceptance or rejection. -/
  | slotReadDone (img : Option (List Byte))
  /-- ITINERARY_APPLY_DONE (R40): The accepted image's sections have been applied, and ITN_STATUS.STATE becomes RUNNING. -/
  | itineraryApplyDone
  /-- PUSH_START (R44): A write of ITN_PUSH_CTL with START = 1 begins a push of KIND and LENGTH. -/
  | pushStart (acc : Acc)
  /-- PUSH_ABORT (R46): A write of ITN_PUSH_CTL.ABORT = 1 discards the partial image. -/
  | pushAbort (acc : Acc)
  /-- PUSH_DATA (R44): A write to ITN_PUSH_DATA takes the next 8 image bytes, and the last word starts verification. -/
  | pushData (acc : Acc)
  /-- PUSH_VERIFY_DONE (R47): Verification of a pushed image ends in acceptance or rejection. -/
  | pushVerifyDone
  /-- LIVE_OVERLAY_APPLY (R49): A verified live overlay takes effect at the first epoch boundary at least 2 µs later. -/
  | liveOverlayApply
  /-- QUIESCE_OVERLAY_START (R53): At the first epoch boundary, a verified quiesce overlay issues function quiesce to its units. -/
  | quiesceOverlayStart
  /-- QUIESCE_OVERLAY_WRITE (R53): Once every named unit reports quiescent, the new sections are written and the quiesce is released. -/
  | quiesceOverlayWrite (buf : Option (List Byte))
  /-- QUIESCE_OVERLAY_TIMEOUT (R53): A unit not quiescent after QUIESCE_TIMEOUT resumes all units and rejects the overlay with 0x0E. -/
  | quiesceOverlayTimeout
  /-- OVERLAY_HOLD_TIMEOUT (R54): A recovery fence or mode switch that lasts beyond HOLD_TIMEOUT rejects the overlay with 0x0B. -/
  | overlayHoldTimeout
  /-- SCHEDULE_ENABLE (R207): TLY_SCHEDk_CTL.EN = 1 checks the values, arms the schedule and takes a baseline cut. -/
  | scheduleEnable (k : Nat) (acc : Acc)
  /-- SCHEDULE_DISABLE (R208): TLY_SCHEDk_CTL.EN = 0 returns ARMED to IDLE, or moves RUN to FINAL for a last cut. -/
  | scheduleDisable (k : Nat) (acc : Acc)
  /-- SCHEDULE_REGISTER_WRITE (R205): A write of a schedule's START, RANGE or DOMAIN outside IDLE has no effect and writes record 0x0803. -/
  | scheduleRegisterWrite (k reg : Nat) (acc : Acc)
  /-- EPOCH_CUT (R209): TB0 reaches a schedule boundary, and the Tally cuts every counter at the strobe edge. -/
  | epochCut (k : Nat)
  /-- LATE_CUT (R211): A strobe that found both shadow banks busy takes effect when one frees, with flag LATE_CUT and record 0x0801. -/
  | lateCut
  /-- CUT_COMPLETE (R212): The cut's delta blocks are read out, and the sample is handed to the Caravan and the Waybill. -/
  | cutComplete
  /-- BIN_FLUSH (R199): A write of TLY_BIN_CTL.FLUSH = 1 frees the bins at the next cut of the bin schedule. -/
  | binFlush (acc : Acc)
  /-- TALLY_SAMPLE (R222): Command Window OP 0x01 posts a host-coded Tally sample, which is passed on or refused as late. -/
  | tallySample (slot : Nat) (acc : Acc) (buf : Option (List Byte))
  /-- SHADOW_PASS (R223): The Tally copies one unit page's status words into the shadow area with its TB2 time. -/
  | shadowPass (page : Nat) (answered : Bool)
  /-- WAYBILL_RECORD_WRITE (R225): The Waybill stages a record and writes it into the ring in region 0, or drops it. -/
  | waybillRecordWrite
  /-- WAYBILL_WRITE_COMPLETE (R228): The write responses of a record return, and TLY_WB_WRPTR advances past it. -/
  | waybillWriteComplete
  /-- WAYBILL_PROD_TICK (R226): With no schedule in RUN, a PROD record is written at each 1 ms boundary of TB0. -/
  | waybillProdTick
  /-- WAYBILL_TRIGGER (R231): A write of TLY_WB_CTL.TRIG = 1 triggers, writing a MARK and entering POST. -/
  | waybillTrigger (acc : Acc)
  /-- WAYBILL_ARM (R237): A write of TLY_WB_CTL.ARM = 1 takes up the ring settings and returns the state to RUN, or is refused with WB_CFG. -/
  | waybillArm (acc : Acc)
  /-- PTP_SYNC_RECEIVE (R263): A Sync from the selected master is timestamped and yields an offset measurement for TB0. -/
  | ptpSyncReceive (m : List Byte) (phase : Nat)
  /-- PTP_FOLLOW_UP_RECEIVE (R260): A Follow_Up supplies t1 and cSync for its two-step Sync. -/
  | ptpFollowUpReceive (m : List Byte)
  /-- PTP_DELAY_RESP_RECEIVE (R262): A matching Delay_Resp supplies t4 and cDelay and updates the path delay D. -/
  | ptpDelayRespReceive (m : List Byte)
  /-- DELAY_REQ_SEND (R261): A Delay_Req is sent after the first Sync, and then every 2^LOG_DREQ s. -/
  | delayReqSend (phase : Nat)
  /-- JUMP_ACCEPT (R252): TIM_TBn_JUMP with ACCEPT steps the base by −PENDING and enters LOCKING. -/
  | jumpAccept (n : Nat) (acc : Acc)
  /-- JUMP_DISMISS (R252): TIM_TBn_JUMP with DISMISS enters LOCKING without a step if |PENDING| ≤ JUMP_THRESH. -/
  | jumpDismiss (n : Nat) (acc : Acc)
  /-- SERVO_TIMEOUT (R253): A base with no applied measurement for TIMEOUT ms enters HOLDOVER (LOST), or TB0 enters FABRIC. -/
  | servoTimeout (n : Nat)
  /-- TIME_SNAPSHOT (R245): A write of TIM_SNAP_CTL.GO = 1 latches all four bases at one TCLK edge, or is ignored with SNAP_BUSY. -/
  | timeSnapshot (acc : Acc)
  /-- FABRIC_DREQ_SEND (R269): A non-root instance sends a TIME DREQ to its primary parent every INTERVAL µs. -/
  | fabricDreqSend
  /-- FABRIC_DREQ_RECEIVE (R269): A parent receives a DREQ and answers with a DRESP and a DRESP_FUP. -/
  | fabricDreqReceive
  /-- FABRIC_DRESP_RECEIVE (R269): The child stamps t4 on receipt of the DRESP. -/
  | fabricDrespReceive
  /-- FABRIC_DRESP_FUP_RECEIVE (R269): The DRESP_FUP completes the exchange, and o is given to TB1, or the exchange is discarded. -/
  | fabricDrespFupReceive
  /-- PULSE_ENABLE (R277): TPI_PULSEn_CTL.EN changing from 0 to 1 takes the pulse fields, or is refused with CFG. -/
  | pulseEnable (n : Nat) (acc : Acc)
  /-- PULSE_EDGE (R276): The selected base reaches a pulse edge time, and TPI_PULSEn rises. -/
  | pulseEdge (n : Nat)
  /-- PULSE_FALL (R276): WIDTH ns after its rise on TB2, a pulse falls. -/
  | pulseFall (n : Nat)
  /-- PPS_OUT_RISE (R280): TPI_PPS_OUT rises at each whole second of its base. -/
  | ppsOutRise
  /-- PPS_OUT_FALL (R280): TPI_PPS_OUT falls WIDTH µs after its rise. -/
  | ppsOutFall
  /-- CAPTURE_EDGE (R281): A rising edge on an enabled capture input is stamped and queued. -/
  | captureEdge (ch phase : Nat)
  /-- CAPTURE_CONSUME (R282): Writing the shown SEQ back to TPI_CAPn_RESULT removes the oldest stamp. -/
  | captureConsume (ch : Nat) (acc : Acc)
  /-- DELTA_RECEIVE (R302): A reducer adds a child's DELTA packet to its epoch results. -/
  | deltaReceive
  /-- AGG_RECEIVE (R302): A reducer derives a child's AGG payload into its own rule for the class. -/
  | aggReceive
  /-- SKETCH_RECEIVE (R304): A reducer merges a child's SKETCH payload bucket-wise. -/
  | sketchReceive
  /-- VERDICT_RECEIVE (R319): A received VERDICT is forwarded up unchanged, or stands in the provisional result. -/
  | verdictReceive
  /-- CLOSED_RECEIVE (R322): A received CLOSED is held until the child's announced packets have arrived, and is then released. -/
  | closedReceive
  /-- EPOCH_DEADLINE (R309): At D(n), a reducer publishes the provisional result if it has not yet done so. -/
  | epochDeadline (k n : Nat)
  /-- EPOCH_GRACE_END (R310): At G(n), the epoch is confirmed by quorum with MISSING, or lost. -/
  | epochGraceEnd (k n : Nat)
  /-- JOIN_RECEIVE (R335): A received JOIN sets JOINED or ADOPTED and updates the descendant table. -/
  | joinReceive
  /-- DETOUR_RECEIVE (R306): A received DETOUR removes a child from the expected set of the epochs routed away. -/
  | detourReceive
  /-- MISSING_RECEIVE (R297): A received MISSING payload names a child's absent descendants for the epoch. -/
  | missingReceive
  /-- COARSEN_RECEIVE (R326): A child applies a received COARSEN from its start epoch. -/
  | coarsenReceive
  /-- BCAST_RECEIVE (R441): A BCAST reference sketch is forwarded to joined children and assembled for SRC = 1 detectors. -/
  | bcastReceive
  /-- SATURATED_EPOCH_CLOSE (R375): At an epoch's end, saturation is judged, and COARSEN, SPLIT or de-coarsening follows. -/
  | saturatedEpochClose (k full delay : Nat)
  /-- SLOT_OPEN (R329): CRV_SLOT_CMD OPEN takes a FREE slot and reserves its working memory. -/
  | slotOpen (acc : Acc)
  /-- SLOT_DRAIN (R329): CRV_SLOT_CMD DRAIN moves an ACTIVE slot to DRAINING. -/
  | slotDrain (acc : Acc)
  /-- SLOT_RETIRE (R329): CRV_SLOT_CMD RETIRE releases a DRAINED slot. -/
  | slotRetire (acc : Acc)
  /-- ROUTE_MODE_WRITE (R293): A write of CRV_ROUTE.MODE changes the route mode, with JOIN and DETOUR, or is refused with record 0x0A10. -/
  | routeModeWrite (acc : Acc)
  /-- TGA_READ_GO (R342): GO in a TGA window slot with WRITE = 0 issues a read of a Telemetry Global Address. -/
  | tgaReadGo (slot : Nat) (acc : Acc)
  /-- TGA_WRITE_GO (R339): GO in a TGA window slot with WRITE = 1 issues a write to a configuration register at the target. -/
  | tgaWriteGo (slot : Nat) (acc : Acc)
  /-- TGA_REQ_RECEIVE (R336): A received TGA_REQ is performed here, served from cache, forwarded, or answered NOT_FOUND. -/
  | tgaReqReceive
  /-- TGA_ANS_RECEIVE (R336): A TGA_ANS returns along the request path, is cached, and posts the window result. -/
  | tgaAnsReceive
  /-- TGA_TIMEOUT (R340): A pending TGA request unanswered after TIMEOUT µs is answered TIMEOUT with record 0x0A0F. -/
  | tgaTimeout
  /-- INK_SELECT (R355): A port scheduler selects the next eligible queue by smallest finish tag and sends its head. -/
  | inkSelect (kind n : Nat)
  /-- QUEUE_ROOM_RESUME (R353): A producer held by a full wait-class queue enqueues once room appears. -/
  | queueRoomResume (q : Nat)
  /-- SHAPER_REFILL (R360): At each whole µs of TB2, shapers and policers add tokens, and queue sketches are sampled. -/
  | shaperRefill
  /-- LADDER_PAUSE (R374): A queue's head delay exceeds its class LIMIT, and lower-ranked queues on its port are paused. -/
  | ladderPause (q : Nat) (wr : Bool)
  /-- QUEUE_CFG_WRITE (R732): A write of INK_Qq_CFG is performed, or is refused with INK_ERR.CFG and record 0x0B0A. -/
  | queueCfgWrite (q : Nat) (acc : Acc)
  /-- MODEL_BIND (R388): TRE_MODEL_CMD BIND checks the slot and range and starts checking the image. -/
  | modelBind (acc : Acc)
  /-- MODEL_BIND_DONE (R390): The image check completes, and the model is bound or refused with its first failure. -/
  | modelBindDone (ecc : Option Nat)
  /-- MODEL_UNBIND (R388): TRE_MODEL_CMD UNBIND unbinds a slot that no job names. -/
  | modelUnbind (acc : Acc)
  /-- TREE_JOB_GO (R402): GO in a TRE job slot copies the descriptor and queues the job, or refuses it. -/
  | treeJobGo (slot : Nat) (acc : Acc)
  /-- TREE_JOB_START (R403): An engine starts its next queued job. -/
  | treeJobStart (e : Nat)
  /-- TREE_JOB_DONE (R405): A tree job completes, or ends on an ECC error, and posts its result. -/
  | treeJobDone (e cycles : Nat) (ecc : Option (Nat × Bool × Nat))
  /-- ARRAY_JOB_GO (R421): GO in an ARR job slot checks the descriptor and queues its passes, or refuses it. -/
  | arrayJobGo (slot : Nat) (acc : Acc)
  /-- ARRAY_PASS_DONE (R419): A pass ends with its residue check, and the array chooses its next user at the boundary. -/
  | arrayPassDone (a cycles : Nat) (residue : Option Bool) (ecc : Option Nat)
  /-- DETECTOR_EVALUATE (R430): A detector evaluates a published result and may issue verdicts. -/
  | detectorEvaluate
  /-- DETECTOR_REF_WRITE (R440): A write of DET_Dd_REF arms the capture of a reference from CAPTURE_EPOCH or from BCAST. -/
  | detectorRefWrite (d : Nat) (acc : Acc)
  /-- SCORES (R445): Command Window OP 0x04 posts host scores for a detector's evaluation. -/
  | scores (slot : Nat) (acc : Acc)
  /-- VERIFY_REFERENCE_DONE (R469): A staged record's reference passes complete, and its elements are judged pass or fail. -/
  | verifyReferenceDone (errs : List (Nat × Nat × Nat))
  /-- VERIFY_CONFIRM_DONE (R471): The confirming re-run completes, and it confirms the failure or charges the block's own error. -/
  | verifyConfirmDone (probe : Bool) (errs : List (Nat × Nat × Nat)) (arrays : List Nat)
  /-- WITNESS_ACCOUNTING_CLOSE (R463): At B(e+1) + WIT_WINDOW, a die closes an epoch's witness accounting. -/
  | witnessAccountingClose
  /-- WITNESS_RECEIVE (R462): A tray reassembles a child's WITNESS fragments into staging. -/
  | witnessReceive
  /-- SUBJECT_OBSERVE (R477): VER_SUBJs_STATE.OBSERVE moves the subject to OBSERVE with OBS_PASSED 0. -/
  | subjectObserve (slot : Nat) (acc : Acc)
  /-- SUBJECT_CLEAR (R477): VER_SUBJs_STATE.CLEAR moves the subject to CLEAN with OBS_PASSED 0. -/
  | subjectClear (slot : Nat) (acc : Acc)
  /-- VERIFY_OUTCOME (R491): Command Window OP 0x05 posts a host verification outcome by tile key. -/
  | verifyOutcome (slot : Nat) (acc : Acc)
  /-- FIELD_TEST_DONE (R484): A field test between two arrays completes and is compared bit for bit. -/
  | fieldTestDone (a b cycles : Nat) (differ da db : Bool) (residue : Option (Nat × Bool)) (ecc : Option (Nat × Nat))
  /-- FAULT_MARK_EXPIRE (R485): A fault mark expires WINDOW minutes after it was taken. -/
  | faultMarkExpire (a : Nat)
  /-- PROBE_CAMPAIGN_START (R487): FLT_PROBE_CMD START begins a campaign of COUNT probes. -/
  | probeCampaignStart (acc : Acc)
  /-- PROBE_CAMPAIGN_ABORT (R490): FLT_PROBE_CMD ABORT ends the campaign after the probe in flight, with status ABORTED. -/
  | probeCampaignAbort (acc : Acc)
  /-- PROBE_TIMEOUT (R489): A probe unanswered within PRB_TMO counts as unanswered, with record 0x1004. -/
  | probeTimeout
  /-- SNAPSHOT_ARM (R500): CUR_SNAP_CMD ARM checks the regions and destinations, takes a checkpoint ID and raises MMP_WI_ARM. -/
  | snapshotArm (acc : Acc)
  /-- SNAPSHOT_SEAL (R508): CUR_SNAP_CMD SEAL reads the torn granules into the delta section. -/
  | snapshotSeal (acc : Acc)
  /-- SNAPSHOT_ABORT (R502): CUR_SNAP_CMD ABORT stops the snapshot and posts outcome ABORTED. -/
  | snapshotAbort (acc : Acc)
  /-- CKPT_SEND (R523): CUR_SNAP_CMD SEND has a holder send a stored slot to a target as RESTORE traffic. -/
  | ckptSend (acc : Acc)
  /-- CKPT_RESTORE (R525): CUR_SNAP_CMD RESTORE makes the instance accept RESTORE packets of a checkpoint ID. -/
  | ckptRestore (acc : Acc)
  /-- GRANULE_COPIED (R503): The last beat of a granule read arrives, and the frontier advances or an intent is answered. -/
  | granuleCopied
  /-- STRIPE_SEND (R514): A stripe's data and parity shards are sent to their destinations. -/
  | stripeSend
  /-- PARITY_READY (R512): Command Window OP 0x06 tells the Courier that host parity for a stripe is ready. -/
  | parityReady (slot : Nat) (acc : Acc)
  /-- CKPT_DATA_RECEIVE (R516): A holder writes a received CKPT DATA packet into its receive entry's slot. -/
  | ckptDataReceive
  /-- CKPT_COMMIT_RECEIVE (R518): A holder writes a received COMMIT fragment into the commit record body. -/
  | ckptCommitReceive
  /-- COMMIT_RECORD_VALIDATE (R518): Once all writes have returned, the holder writes MAGIC and acknowledges, or answers INCOMPLETE. -/
  | commitRecordValidate
  /-- CKPT_ACK_RECEIVE (R520): A received ACK counts toward the checkpoint's commit. -/
  | ckptAckReceive
  /-- COMMIT_TIMEOUT (R520): After COMMIT_TMO, the outcome is COMMITTED, DEGRADED or FAILED by the acknowledgements counted. -/
  | commitTimeout
  /-- CHECKPOINT_DEADLINE (R522): ARM to outcome exceeds DEADLINE, and record 0x110A is written. -/
  | checkpointDeadline
  /-- RESTORE_TIMEOUT (R525): At RESTORE_TMO, or once every column has arrived, lost shards are rebuilt and the restore ends. -/
  | restoreTimeout
  /-- ENCODE_JOB_GO (R539): GO in a CMP slot with OP encode checks the descriptor and queues the encode. -/
  | encodeJobGo (slot : Nat) (acc : Acc)
  /-- DECODE_JOB_GO (R539): GO in a CMP slot with OP decode checks the descriptor and queues the decode. -/
  | decodeJobGo (slot : Nat) (acc : Acc)
  /-- ENCODE_BLOCK_DONE (R544): An encoded block is verified by decoding and released, or replaced by a Raw block. -/
  | encodeBlockDone (ok : Bool) (ecc : Option Nat)
  /-- DECODE_BLOCK_DONE (R546): A decoded block is written whole, or the job ends OVER_LIMIT or on an error. -/
  | decodeBlockDone (ecc : Option Nat)
  /-- CMP_JOB_COMPLETE (R542): A compression job's write responses return, and its result posts. -/
  | cmpJobComplete (slot : Nat)
  /-- PORTER_HEAD_WRITE (R555): A write of PRT_CHc_HEAD makes new descriptors available on the channel. -/
  | porterHeadWrite (c : Nat) (acc : Acc)
  /-- PORTER_CHANNEL_CONFIG_WRITE (R559): A write of PRT_CHc_BASE or SIZE while the channel is not IDLE is refused with PRT_CFG. -/
  | porterChannelConfigWrite (c : Nat) (size : Bool) (acc : Acc)
  /-- PORTER_DESCRIPTOR_START (R556): The Porter checks and starts the next descriptor of a channel. -/
  | porterDescriptorStart (c : Nat) (ecc : Bool)
  /-- PORTER_DESCRIPTOR_DONE (R558): A descriptor completes; its status is written back, TAIL advances, or the channel halts. -/
  | porterDescriptorDone (c : Nat)
  /-- PORTER_RESUME (R558): PRT_CHc_CTL.RESUME restarts a halted channel. -/
  | porterResume (c : Nat) (acc : Acc)
  /-- HEARTBEAT_PULSE (R562): A core's write to RCV_HB_PULSE increments its heartbeat. -/
  | heartbeatPulse (c : Nat) (acc : Acc)
  /-- FENCE_ORDER (R571): RCV order FENCE starts fencing a block or host domain. -/
  | fenceOrder (slot : Nat) (acc : Acc)
  /-- DUMP_ORDER (R579): RCV order DUMP builds a dump of a FENCED target. -/
  | dumpOrder (slot : Nat) (acc : Acc)
  /-- RESET_ORDER (R570): RCV order RESET resets a FENCED block domain. -/
  | resetOrder (slot : Nat) (acc : Acc)
  /-- RELEASE_ORDER (R574): RCV order RELEASE opens a fenced target and clears its capture. -/
  | releaseOrder (slot : Nat) (acc : Acc)
  /-- FORCE_ORDER (R572): RCV order FORCE makes a host domain in TIMEOUT FENCED with FORCED. -/
  | forceOrder (slot : Nat) (acc : Acc)
  /-- TEARDOWN_ORDER (R589): RCV order TEARDOWN starts the teardown fence of a departing domain. -/
  | teardownOrder (slot : Nat) (acc : Acc)
  /-- TEARDOWN_STEP_COMPLETE (R589): A teardown step completes, and the next step starts or the result posts. -/
  | teardownStepComplete (slot : Nat)
  /-- TEARDOWN_TIMEOUT (R589): TEARDOWN_TMO passes, and the teardown posts TIMEOUT with record 0x130B. -/
  | teardownTimeout (slot : Nat)
  /-- FENCE_DRAINED (R571): Every unit of a fenced block domain is quiescent and drained, and the state becomes FENCED. -/
  | fenceDrained (target : Nat)
  /-- RCV_DRAIN_TMO (R571): DRAIN_TMO passes; the remaining work is error-answered, and the domain is FENCED with FORCED. -/
  | rcvDrainTmo (target stuck : Nat)
  /-- RELEASE_TIMEOUT (R574): A host-domain release whose phase 4 has not completed in ACK_TMO posts TIMEOUT. -/
  | releaseTimeout (d : Nat)
  /-- DUMP_PROBE_TIMEOUT (R582): A unit probe unanswered in 10 µs takes its PAGE section from the shadow. -/
  | dumpProbeTimeout (page : Nat) (shadow : Bool)
  /-- DUMP_BUILD_DONE (R583): The dump is complete in the buffer and is written to region 1, or held. -/
  | dumpBuildDone
  /-- DUMP_WRITE_DONE (R584): The dump's write responses return; the result posts and record 0x1305 is written. -/
  | dumpWriteDone
  /-- HELD_DUMP_WRITE (R584): A held dump is written once NET and the MMP shell are OPEN and region 1 has slots. -/
  | heldDumpWrite
  /-- DUMP_DISCARD (R579): RCV_DUMP_CTL.DISCARD frees a held dump. -/
  | dumpDiscard (acc : Acc)
  /-- FAULT_NOTICE_SEND (R586): A queued fault notice is sent to the fleet manager on VC0 while NET is OPEN. -/
  | faultNoticeSend
  /-- HOLDOVER_ENTER (R591): RCV_HOLD_CTL.ENTER puts a die in holdover, writing upstream traffic to the ring. -/
  | holdoverEnter (acc : Acc)
  /-- HOLDOVER_LINK_TIMEOUT (R591): With AUTO, FBP0_LINK_UP low for LINK_ENTER µs enters holdover. -/
  | holdoverLinkTimeout
  /-- HOLDOVER_EXIT (R594): RCV_HOLD_CTL.EXIT moves the die to DRAINING, optionally re-parenting. -/
  | holdoverExit (acc : Acc)
  /-- HOLDOVER_DRAIN_SEND (R595): A ring record is sent to the parent as a DRAIN payload, and holdover ends when the ring is empty. -/
  | holdoverDrainSend
  /-- DRAIN_RECEIVE (R595): A parent forwards a received DRAIN unchanged to the fleet manager. -/
  | drainReceive
  /-- GUESTBOOK_ACCEPT (R601): The recorder accepts a queued record, stamping it and writing it new or merging it. -/
  | guestbookAccept
  /-- GUESTBOOK_EXPORT (R609): With 4,096 records pending, or on FLUSH, an export chunk is built and written to region 5. -/
  | guestbookExport
  /-- GUESTBOOK_FLUSH (R609): A write of GBK_EXP_CTL.FLUSH requests an export now. -/
  | guestbookFlush (acc : Acc)
  /-- GUESTBOOK_EXPORT_DONE (R610): The chunk's write responses return, and WRPTR and NEXT advance, or EXP_MEM is set. -/
  | guestbookExportDone
  /-- VERDICT_ACK (R618): A write of SBX_VACK removes acknowledged verdicts from the store. -/
  | verdictAck (acc : Acc)
  /-- STRONGBOX_RESTORE (R623): After the loader releases the Keepsake port, the block reads both frame slots. -/
  | strongboxRestore
  /-- STRONGBOX_RESTORE_DONE (R624): The later valid frame is loaded into the AON buffer, with records 0x1601, 0x1602 or 0x1603. -/
  | strongboxRestoreDone (slotA slotB : List Byte)
  /-- CORE_HALT_ECC (R628): An uncorrectable error in a core halts it and writes record 0x1707. -/
  | coreHaltEcc (c : Nat)
  /-- FIRMWARE_LOAD (R631): Once the Itinerary runs, the loader verifies a firmware slot and releases the cores. -/
  | firmwareLoad (slotA slotB : Option (List Byte))
  /-- FIRMWARE_STAGE (R632): CTL_FW_CMD STAGE loads and verifies a NOR slot into the staging area. -/
  | firmwareStage (acc : Acc)
  /-- FIRMWARE_STAGE_DONE (R630): Staging completes, and the image is accepted or rejected with record 0x1701. -/
  | firmwareStageDone (img : Option (List Byte))
  /-- FIRMWARE_SWITCH (R632): CTL_FW_CMD SWITCH waits for an epoch boundary and then requests handover. -/
  | firmwareSwitch (acc : Acc)
  /-- SWITCH_REQ (R632): After the boundary and the sample bound, SWITCH_REQ is set. -/
  | switchReq
  /-- FIRMWARE_READY (R632): A core writes CTL_FW_READY, and after the last one the cores restart on the new image. -/
  | firmwareReady (acc : Acc)
  /-- FIRMWARE_SWITCH_TIMEOUT (R633): A core not ready within 40 µs leaves the old image running and posts TIMEOUT. -/
  | firmwareSwitchTimeout
  /-- CARAVAN_PAYLOAD (R644): Command Window OP 0x02 posts a host-built Caravan payload to be framed and sent. -/
  | caravanPayload (slot : Nat) (acc : Acc) (buf : Option (List Byte))
  /-- PTP_STAMPS (R264): Command Window OP 0x03 posts host timestamps for one PTP exchange. -/
  | ptpStamps (slot : Nat) (acc : Acc)
  /-- CW_FIRMWARE_OP (R644): A Command Window post of OP 0x80 to 0xFF goes to firmware unchanged. -/
  | cwFirmwareOp (slot : Nat) (acc : Option Acc) (ans : Option (Nat × Word × Word × Word))
  /-- CW_BAD_OP (R644): A Command Window post of OP 0x07 to 0x7F posts BAD_OP. -/
  | cwBadOp (slot : Nat) (acc : Acc)
  /-- MODE_SWITCH (R646): CTL_MODE_CMD START quiesces and drains a function for a mode change. -/
  | modeSwitch (acc : Acc)
  /-- MODE_SWITCH_FLIP (R646): At the first epoch boundary after handover, GLB_FUNC_MODE flips and the function resumes. -/
  | modeSwitchFlip (buf : Option (List Byte))
  /-- MODE_SWITCH_TIMEOUT (R647): On a quiesce timeout, the function resumes under the old mode and posts TIMEOUT. -/
  | modeSwitchTimeout
  /-- SYNC_SIGNAL (R651): A core's write of SYN_SIGNAL adds AMOUNT to an object, or overflows. -/
  | syncSignal (acc : Acc)
  /-- SYNC_WAIT (R652): A core's read of SYN_WAIT_GOc joins the waiters of an object. -/
  | syncWait (c : Nat) (port : Port)
  /-- SYNC_WAIT_GRANT (R652): VALUE reaches AMOUNT for the head waiter, and the read completes with 1. -/
  | syncWaitGrant (o : Nat)
  /-- SYNC_WAIT_TIMEOUT (R652): A wait's timeout passes, and the read returns 0 with record 0x1804. -/
  | syncWaitTimeout (c : Nat)
  /-- SYNC_SET (R654): A write of SYN_OBJo_SET sets VALUE and is recorded as SYNC_SET. -/
  | syncSet (o : Nat) (acc : Acc)
  /-- SYNC_VIOLATION (R655): A write of SYN_VIOLATION reports a task-end violation with record 0x1802. -/
  | syncViolation (acc : Acc)
  /-- IRQ_PEND_ACK (R659): Writing 1 to a bit of IRQ_PENDw moves its source to ACTIVE. -/
  | irqPendAck (w : Nat) (acc : Acc)
  /-- IRQ_DONE (R659): A write of a source number to IRQ_DONE ends its service. -/
  | irqDone (acc : Acc)
  /-- IRQ_SW_SET (R657): A write to IRQ_SW_SET raises a software source. -/
  | irqSwSet (acc : Acc)
  /-- IRQ_MASK_WRITE (R662): A write of IRQ_MASKw changes source masks 4 SCLK edges later. -/
  | irqMaskWrite (w : Nat) (acc : Acc)
  /-- IRQ_HOLDOFF_EXPIRE (R660): A group's HOLDOFF passes, and its output may rise again. -/
  | irqHoldoffExpire (g : Nat)
  /-- POWER_STATE_REQUEST (R671): A write of PWR_CMD START requests a power state, beginning ASK or being refused. -/
  | powerStateRequest (acc : Acc)
  /-- POWER_ASK_RETRY (R672): A unit that answered DELAY is asked again after 1 µs. -/
  | powerAskRetry
  /-- POWER_ENTRY_TIMEOUT (R672): A unit still answers DELAY after DELAY_MAX, and the entry posts TIMEOUT. -/
  | powerEntryTimeout
  /-- POWER_HOLD_COMPLETE (R672): Every asked unit reports quiescent, and GATE stops and gates the branches. -/
  | powerHoldComplete
  /-- CORE_ACK (R674): A core's write of PWR_CORE_ACK answers the power controller. -/
  | coreAck (acc : Acc)
  /-- WAKE_EVENT (R679): An enabled wake source aborts an entry at its next abort point, or returns the instance to PS0. -/
  | wakeEvent (src : Nat)
  /-- WAKE_TIMER (R679): TB2 reaches PWR_WAKE_TIMER, and a TIMER wake occurs. -/
  | wakeTimer
  /-- POWER_EXIT_DONE (R679): Exit to PS0 completes, and record 0x1A04 is written. -/
  | powerExitDone
  /-- STEP_ASK (R684): PWR_STEP with ACTION ASK asks one unit for a target in host-assisted mode. -/
  | stepAsk (acc : Acc)
  /-- STEP_HOLD (R684): PWR_STEP with ACTION HOLD holds one unit. -/
  | stepHold (acc : Acc)
  /-- STEP_GATE (R684): PWR_STEP with ACTION GATE gates the target state, or is refused with STATE. -/
  | stepGate (acc : Acc)
  /-- STEP_RELEASE (R684): PWR_STEP with ACTION RELEASE releases a held unit. -/
  | stepRelease (acc : Acc)
  /-- TRACE_INSTRUCTION (R689): A traced core executes an instruction, and the Lantern emits RUN, TARGET or SECURE packets. -/
  | traceInstruction (c pc len next : Nat) (trap : Option (Word × Word))
  /-- TRACE_ARM (R693): LTN_CTL.ARM restarts the state machine in state 0, or is refused with CFG. -/
  | traceArm (acc : Acc)
  /-- TRACE_SOFT (R692): A write of 1 to an LTN_CTL.SOFT bit makes its comparator match. -/
  | traceSoft (acc : Acc)
  /-- TRACE_TIME_COMPARATOR (R692): TB2 reaches a TIME comparator's LO, and it matches once. -/
  | traceTimeComparator (x : Nat)
  /-- AUTH_INSTALL_START (R698): DBG_AUTH_CTL.START begins an authorisation install. -/
  | authInstallStart (acc : Acc)
  /-- AUTH_DATA (R698): A write of DBG_AUTH_DATA takes the next 8 bytes, and the last word starts the check. -/
  | authData (acc : Acc)
  /-- AUTH_VERIFY_DONE (R698): The authorisation is installed or refused with SIG, FORMAT, CHIP or TIME. -/
  | authVerifyDone
  /-- AUTH_REVOKE (R699): DBG_AUTH_CTL.REVOKE lapses the installed authorisation. -/
  | authRevoke (acc : Acc)
  /-- AUTH_LAPSE (R699): TB0 passes NOT_AFTER, and the authorisation lapses with record 0x1C03. -/
  | authLapse
  /-- DBGACC (R710): Update-DR of DBGACC performs a register access through the Register Port path. -/
  | dbgacc (op addr : Nat) (data : Word)
  /-- CORE_HALT (R711): DBG_CORE_CTL.HALT stops a core at its next instruction boundary. -/
  | coreHalt (acc : Acc)
  /-- CORE_STEP (R711): DBG_CORE_CTL.STEP executes one instruction of a halted core. -/
  | coreStep (acc : Acc) (len next : Nat) (trap : Option (Word × Word)) (xs : List (Nat × Word))
  /-- CORE_RESUME (R711): DBG_CORE_CTL.RESUME releases a halted core with a SYNC of reason 5. -/
  | coreResume (acc : Acc)
  /-- PTP_ANNOUNCE_RECEIVE (R258): A received Announce, Signaling or Management message goes to the firmware receive ring, and a received Pdelay message is discarded with record 0x0907. -/
  | ptpAnnounceReceive (f : List Byte)
  /-- RESTORE_PACKET_RECEIVE (R525): During a RESTORE, a received RESTORE-flagged commit record or shard is checked and written to its stream position or the early area. -/
  | restorePacketReceive
  /-- COLD_RESET_ASSERT (R90): PWRON_RST_N falling asserts cold reset, stopping every domain and ending any Strongbox save in progress. -/
  | coldResetAssert
  /-- KSP_RESET_RELEASE (R172): 10 µs after the release of cold reset, the block raises KSP_RESET_N and releases the Keepsake devices from reset. -/
  | kspResetRelease
  /-- SEP_PCS_UP (R160): SEPp_PCS_UP rises, the port's PCS_UP status bit sets and the MAC may send and receive again. -/
  | sepPcsUp (port : Nat)
  deriving DecidableEq, Repr

end Sys2Proof
end

