-- ==== Sys2Proof/Config.lean ====
section
/-!
DEFINITION. The free values: what the spec leaves open and the machine goes on with. Each is a constant without a body, so
that no proof can see what it is.
-/
namespace Sys2Proof.Config

/-- What the encoder makes of a block (R532, R534 fix the format and that the choice is fixed, not the choice): level, window
log, the input, the number of the block, and for the blocks before it whether they passed their verify. Answers the type
(1 RLE, 2 Compressed) and the content of a Compressed block. Log 40. -/
opaque zstdBlock : Nat → Nat → List Byte → Nat → List Bool → Nat × List Byte

/-- The bytes of a frame before a PTP message over UDP: addresses, IP and UDP headers (R261 names the transport; the spec gives
the block no IP address). Arguments: transport, message. Log 21. -/
opaque ptpHeader : Nat → List Byte → List Byte

/-- An output of a link function of the tree engine, where R398 gives no special value: link, margins of the row as FP32 bits,
class. R399 fixes it to within 2 ulp and no closer. Log 41. -/
opaque treeLink : Nat → List Nat → Nat → Nat

/-- An element of a post-operation of the vector unit whose value R420 fixes to within 2 ulp and no closer, or not at all:
operation, the row as FP32 bits, parameters as FP32 bits, column. Log 42. -/
opaque vectorOp : Nat → List Nat → List Nat → Nat → Nat

/-- The Scepejor root public key that the netlist carries (R36 to R38), affine x and y. The spec does not print it. Log 43. -/
opaque rootX : Nat
opaque rootY : Nat

/-- The answers that a TGA cache holds in a personality (R337 gives the rule of eviction and no size). Log 68. -/
opaque tgaCacheEntries : Nat → Nat

/-- What DBG_CORE_PC and DBG_CORE_REGx read of a core that is not halted (R711 gives what they show of a halted one): the count of free
values, the core and the offset. Log 66. -/
opaque runningCore : Nat → Nat → Nat → Word

/-- How a quotient that falls between two values of its register is rounded, where the spec gives the arithmetic and no rounding: whether
numerator over denominator takes the upper of the two. Log 103. -/
opaque roundsUp : Int → Nat → Bool

/-- The value of a time base whose sum falls below 0, which R239 cannot hold, from the sum in 2^-48 ns. Log 104. -/
opaque baseBelow : Int → Nat

/-- The cycles for which a unit is busy with a piece of work whose length the spec does not give: the count of free values and the production
counter. Log 10. -/
opaque busyCycles : Nat → Nat → Nat

/-- A field of a record to which the spec gives no value in the case at hand: the count of free values, and the field. Log 33. -/
opaque openField : Nat → Nat → Nat

end Sys2Proof.Config
end

