-- ==== Sys2Proof/Machine/Bits.lean ====
section
/-!
DEFINITION. Bit fields of a 64-bit word, little-endian byte lists (R26), saturating counts, and the order of the
privileges (00_scope.md).
-/
namespace Sys2Proof.Machine

/-- Bits `lo + w - 1 : lo` of `v`, as a number. -/
def bitsAt (v : Word) (lo w : Nat) : Nat := v.toNat / 2 ^ lo % 2 ^ w

/-- The word with ones in bits `lo + w - 1 : lo`. -/
def maskAt (lo w : Nat) : Word := (BitVec.ofNat 64 (2 ^ w - 1)) <<< lo

/-- `v` with bits `lo + w - 1 : lo` replaced by the low `w` bits of `x`. -/
def putAt (v : Word) (lo w x : Nat) : Word :=
  (v &&& ~~~ maskAt lo w) ||| ((BitVec.ofNat 64 (x % 2 ^ w)) <<< lo)

/-- The 8 bytes of a word, byte 0 first (R26). -/
def wordBytes (v : Word) : List Byte :=
  (List.range 8).map fun i => BitVec.ofNat 8 (v.toNat / 2 ^ (8 * i))

/-- The `n` bytes of a number, least significant first (R26). -/
def leBytes (n x : Nat) : List Byte :=
  match n with
  | 0 => []
  | k + 1 => BitVec.ofNat 8 x :: leBytes k (x / 256)

/-- The number that a little-endian list of bytes spells (R26). -/
def leNat : List Byte → Nat
  | [] => 0
  | b :: bs => b.toNat + 256 * leNat bs

/-- The number that a big-endian list of bytes spells. -/
def beNat (bs : List Byte) : Nat := bs.foldl (fun a b => a * 256 + b.toNat) 0

/-- Byte `i` of a list, 0 past its end. -/
def byteAt (bs : List Byte) (i : Nat) : Byte := bs.getD i 0

/-- The little-endian number in bytes `i` to `i + n - 1` of a list. -/
def leAt (bs : List Byte) (i n : Nat) : Nat := leNat ((bs.drop i).take n)

/-- Bits `lo + w - 1 : lo` of a number. -/
def natBits (x lo w : Nat) : Nat := x / 2 ^ lo % 2 ^ w

/-- A list of bytes cut or padded with zeros to `n` bytes. -/
def padTo (n : Nat) (bs : List Byte) : List Byte := bs.take n ++ List.replicate (n - bs.length) 0

/-- A count of `w` bits that saturates. -/
def satAdd (w a b : Nat) : Nat := min (a + b) (2 ^ w - 1)

/-- The number that a `w`-bit two's-complement field spells. -/
def toSigned (w x : Nat) : Int := if x % 2 ^ w < 2 ^ (w - 1) then (x % 2 ^ w : Nat) else (x % 2 ^ w : Nat) - (2 : Int) ^ w

/-- The `w`-bit two's-complement field of an integer. -/
def ofSigned (w : Nat) (x : Int) : Nat := (x % (2 : Int) ^ w).toNat

/-- An integer held to the range of a signed `w`-bit field. -/
def satSigned (w : Nat) (x : Int) : Int := max (-(2 : Int) ^ (w - 1)) (min x ((2 : Int) ^ (w - 1) - 1))

/-- Driver < Fleet < Secure (00_scope.md, "Privileges are ordered"). -/
def privRank : Priv → Nat
  | .D => 0
  | .F => 1
  | .S => 2

/-- Serial-number order modulo `2 ^ w`: `a` is later than `b` (R156). -/
def laterMod (w a b : Nat) : Bool :=
  let d := (a + 2 ^ w - b % 2 ^ w) % 2 ^ w
  d != 0 && d < 2 ^ (w - 1)

/-- One step of the CRC-32C of R153 over one byte (reflected polynomial 0x82F63B78). -/
def crcByte (c : BitVec 32) (b : Byte) : BitVec 32 :=
  (List.range 8).foldl (fun c _ => if c.getLsbD 0 then (c >>> 1) ^^^ 0x82F63B78#32 else c >>> 1)
    (c ^^^ b.setWidth 32)

/-- CRC-32C over a list of bytes from a given register value, without the final inversion. -/
def crcFrom (c : BitVec 32) (bs : List Byte) : BitVec 32 := bs.foldl crcByte c

/-- CRC-32C (R153): initial value all ones, final inversion. -/
def crc32c (bs : List Byte) : BitVec 32 := ~~~ crcFrom 0xFFFFFFFF#32 bs

/-- A quotient in whole units: exact where it divides, else one of its two neighbours; which of them the spec does not say (log 103). -/
def roundOpen (n : Int) (d : Nat) : Int :=
  if n % (d : Int) = 0 then n / (d : Int) else if Config.roundsUp n d then n / (d : Int) + 1 else n / (d : Int)

/-- The value that a time base takes from a sum; below 0 the spec states none (log 104). -/
def inBase (x : Int) : Nat := if x < 0 then Config.baseBelow x else x.toNat

end Sys2Proof.Machine
end

