-- ==== Sys2Proof/Machine/Fields.lean ====
section
/-!
DEFINITION. The named fields of the registers: offset of the register, lowest bit, width (field tables of the chapters;
offsets of R715 and R716). An indexed register takes its index, which counts
modulo the number of its copies: no index names a register of another name. Also the type of a row of the register map.
-/
namespace Sys2Proof.Machine

/-- The access types of the register conventions (00_scope.md, R11 to R17). -/
inductive Access where
  | ro | roV | rw | rwl | rws | w1c | w1s | wo
  deriving DecidableEq, Repr

/-- One field of a register row: lowest bit, width, access type, reset value. -/
structure RegField where
  lo : Nat
  w : Nat
  acc : Access
  reset : Nat
  deriving DecidableEq, Repr

/-- One row of the register map: offset of copy 0, stride, number of copies in a die, tray and relay, write privilege
(`none`: the register admits no write, R11), read privilege (R12, R717), whether it resides in AON although its page
does not (R715), and its fields. -/
structure RegRow where
  base : Nat
  stride : Nat
  nDie : Nat
  nTray : Nat
  nRelay : Nat
  wpriv : Option Priv
  rpriv : Priv
  aon : Bool
  fields : List RegField
  deriving DecidableEq, Repr

/-- A field of one register: offset of the register in the window, lowest bit, width. -/
structure Field where
  addr : Nat
  lo : Nat
  w : Nat
  deriving DecidableEq, Repr

namespace F

/-! GLB_VERSION (00_scope.md) -/
def GLB_VERSION_BUILD : Field := ⟨0x000000, 32, 32⟩
def GLB_VERSION_MAJOR : Field := ⟨0x000000, 24, 8⟩
def GLB_VERSION_MINOR : Field := ⟨0x000000, 16, 8⟩
def GLB_VERSION_PATCH : Field := ⟨0x000000, 8, 8⟩
/-! GLB_PERSONALITY (00_scope.md) -/
def GLB_PERSONALITY_FAB_LANES : Field := ⟨0x000008, 48, 5⟩
def GLB_PERSONALITY_TREE_LANES : Field := ⟨0x000008, 36, 7⟩
def GLB_PERSONALITY_TREE_ENG : Field := ⟨0x000008, 33, 3⟩
def GLB_PERSONALITY_SPARES : Field := ⟨0x000008, 30, 3⟩
def GLB_PERSONALITY_ARRAYS : Field := ⟨0x000008, 24, 6⟩
def GLB_PERSONALITY_CORES : Field := ⟨0x000008, 20, 4⟩
def GLB_PERSONALITY_LEVEL : Field := ⟨0x000008, 2, 3⟩
def GLB_PERSONALITY_PERS : Field := ⟨0x000008, 0, 2⟩
/-! GLB_CHIP_ID_LO (00_scope.md) -/
def GLB_CHIP_ID_LO_CHIP_ID : Field := ⟨0x000010, 0, 64⟩
/-! GLB_CHIP_ID_HI (00_scope.md) -/
def GLB_CHIP_ID_HI_CHIP_ID : Field := ⟨0x000018, 0, 64⟩
/-! GLB_INSTANCE_POS (00_scope.md) -/
def GLB_INSTANCE_POS_VALID : Field := ⟨0x000020, 31, 1⟩
def GLB_INSTANCE_POS_LEVEL : Field := ⟨0x000020, 24, 3⟩
def GLB_INSTANCE_POS_INDEX : Field := ⟨0x000020, 0, 24⟩
/-! GLB_FUNC_MODE (00_scope.md) -/
def GLB_FUNC_MODE_MODE : Field := ⟨0x000028, 0, 9⟩
/-! GLB_ERR_STATUS (00_scope.md) -/
def GLB_ERR_STATUS_HALF_ERR : Field := ⟨0x000030, 3, 1⟩
def GLB_ERR_STATUS_RWL_ERR : Field := ⟨0x000030, 2, 1⟩
def GLB_ERR_STATUS_PRIV_ERR : Field := ⟨0x000030, 1, 1⟩
def GLB_ERR_STATUS_RSV_WR : Field := ⟨0x000030, 0, 1⟩
/-! GLB_ERR_ADDR (00_scope.md) -/
def GLB_ERR_ADDR_PRIV : Field := ⟨0x000038, 40, 2⟩
def GLB_ERR_ADDR_INITIATOR : Field := ⟨0x000038, 24, 16⟩
def GLB_ERR_ADDR_OFFSET : Field := ⟨0x000038, 0, 24⟩
/-! GLB_EVT_OVERRUN (00_scope.md) -/
def GLB_EVT_OVERRUN_COUNT : Field := ⟨0x00fff8, 0, 32⟩
/-! ITN_STATUS (01_itinerary.md) -/
def ITN_STATUS_ERR_CODE : Field := ⟨0x010000, 32, 8⟩
def ITN_STATUS_BOOT_SLOT : Field := ⟨0x010000, 10, 2⟩
def ITN_STATUS_STATE : Field := ⟨0x010000, 0, 4⟩
/-! ITN_BOOT_CTL (01_itinerary.md) -/
def ITN_BOOT_CTL_FORCE_PUSH : Field := ⟨0x010008, 1, 1⟩
def ITN_BOOT_CTL_PREFER_B : Field := ⟨0x010008, 0, 1⟩
/-! ITN_IMAGE_INFO (01_itinerary.md) -/
def ITN_IMAGE_INFO_SEQUENCE : Field := ⟨0x010010, 32, 32⟩
def ITN_IMAGE_INFO_LENGTH : Field := ⟨0x010010, 8, 24⟩
def ITN_IMAGE_INFO_FORMAT : Field := ⟨0x010010, 0, 8⟩
/-! ITN_DIGEST (01_itinerary.md) -/
def ITN_DIGEST_DIGEST (i : Nat) : Field := ⟨0x010018 + 0x8 * (i % 6), 0, 64⟩
/-! ITN_SIGNER (01_itinerary.md) -/
def ITN_SIGNER_KEY_ID : Field := ⟨0x010048, 0, 64⟩
/-! ITN_PUSH_CTL (01_itinerary.md) -/
def ITN_PUSH_CTL_LENGTH : Field := ⟨0x010050, 32, 24⟩
def ITN_PUSH_CTL_ABORT : Field := ⟨0x010050, 2, 1⟩
def ITN_PUSH_CTL_KIND : Field := ⟨0x010050, 1, 1⟩
def ITN_PUSH_CTL_START : Field := ⟨0x010050, 0, 1⟩
/-! ITN_PUSH_DATA (01_itinerary.md) -/
def ITN_PUSH_DATA_DATA : Field := ⟨0x010058, 0, 64⟩
/-! ITN_OVL_STATUS (01_itinerary.md) -/
def ITN_OVL_STATUS_LAST_SEQ : Field := ⟨0x010060, 32, 32⟩
def ITN_OVL_STATUS_STORE_USED : Field := ⟨0x010060, 16, 16⟩
def ITN_OVL_STATUS_PENDING_WARM : Field := ⟨0x010060, 7, 1⟩
def ITN_OVL_STATUS_STATE : Field := ⟨0x010060, 0, 4⟩
/-! ITN_OVL_CTL (01_itinerary.md) -/
def ITN_OVL_CTL_QUIESCE_TIMEOUT : Field := ⟨0x010068, 16, 16⟩
def ITN_OVL_CTL_HOLD_TIMEOUT : Field := ⟨0x010068, 0, 16⟩
/-! ITN_ERR (01_itinerary.md) -/
def ITN_ERR_OVL_REFUSED : Field := ⟨0x010070, 3, 1⟩
def ITN_ERR_BOOT_B_FAILED : Field := ⟨0x010070, 2, 1⟩
def ITN_ERR_BOOT_A_FAILED : Field := ⟨0x010070, 1, 1⟩
def ITN_ERR_PUSH_REFUSED : Field := ⟨0x010070, 0, 1⟩
/-! ITN_EVT_OVERRUN (01_itinerary.md) -/
def ITN_EVT_OVERRUN_COUNT : Field := ⟨0x01fff8, 0, 32⟩
/-! CLK_STATUS (02_clocks_resets_crossings.md) -/
def CLK_STATUS_LAST_RESET : Field := ⟨0x020000, 8, 4⟩
def CLK_STATUS_MON_EN : Field := ⟨0x020000, 2, 1⟩
def CLK_STATUS_CCLK_DIV : Field := ⟨0x020000, 1, 1⟩
def CLK_STATUS_LOCKED : Field := ⟨0x020000, 0, 1⟩
/-! CLK_RST_CTL (02_clocks_resets_crossings.md) -/
def CLK_RST_CTL_WARM : Field := ⟨0x020008, 7, 1⟩
def CLK_RST_CTL_MMP_SHELL : Field := ⟨0x020008, 6, 1⟩
def CLK_RST_CTL_EOP_SHELL : Field := ⟨0x020008, 5, 1⟩
def CLK_RST_CTL_TIME : Field := ⟨0x020008, 4, 1⟩
def CLK_RST_CTL_NET : Field := ⟨0x020008, 3, 1⟩
def CLK_RST_CTL_MOVE : Field := ⟨0x020008, 2, 1⟩
def CLK_RST_CTL_CALC : Field := ⟨0x020008, 1, 1⟩
def CLK_RST_CTL_CTRL : Field := ⟨0x020008, 0, 1⟩
/-! CLK_DOMAIN_STATUS (02_clocks_resets_crossings.md) -/
def CLK_DOMAIN_STATUS_XRST_BUSY : Field := ⟨0x020010, 8, 4⟩
def CLK_DOMAIN_STATUS_IN_RESET : Field := ⟨0x020010, 0, 7⟩
/-! CLK_GATE_STATUS (02_clocks_resets_crossings.md) -/
def CLK_GATE_STATUS_SCLK : Field := ⟨0x020018, 4, 1⟩
def CLK_GATE_STATUS_FCLK_FAB : Field := ⟨0x020018, 3, 1⟩
def CLK_GATE_STATUS_CMP : Field := ⟨0x020018, 2, 1⟩
def CLK_GATE_STATUS_TREE : Field := ⟨0x020018, 1, 1⟩
def CLK_GATE_STATUS_ARRAYS : Field := ⟨0x020018, 0, 1⟩
/-! CLK_MON (02_clocks_resets_crossings.md) -/
def CLK_MON_LIMIT : Field := ⟨0x020020, 32, 16⟩
def CLK_MON_COUNT : Field := ⟨0x020020, 0, 32⟩
/-! CLK_ERR (02_clocks_resets_crossings.md) -/
def CLK_ERR_DOM_RST_REFUSED : Field := ⟨0x020028, 1, 1⟩
def CLK_ERR_MON_ALARM : Field := ⟨0x020028, 0, 1⟩
/-! CLK_XING_RESYNC (02_clocks_resets_crossings.md) -/
def CLK_XING_RESYNC_SEP : Field := ⟨0x020030, 48, 16⟩
def CLK_XING_RESYNC_FBP : Field := ⟨0x020030, 32, 16⟩
def CLK_XING_RESYNC_MMP : Field := ⟨0x020030, 16, 16⟩
def CLK_XING_RESYNC_EOP : Field := ⟨0x020030, 0, 16⟩
/-! CLK_EVT_OVERRUN (02_clocks_resets_crossings.md) -/
def CLK_EVT_OVERRUN_COUNT : Field := ⟨0x02fff8, 0, 32⟩
/-! EOP_CTL (03_host_side_ports.md) -/
def EOP_CTL_SEED_DOMAIN : Field := ⟨0x030000, 24, 20⟩
def EOP_CTL_SEED_EN : Field := ⟨0x030000, 2, 1⟩
def EOP_CTL_WIT_EN : Field := ⟨0x030000, 1, 1⟩
def EOP_CTL_SNP_EN : Field := ⟨0x030000, 0, 1⟩
/-! EOP_STATUS (03_host_side_ports.md) -/
def EOP_STATUS_WIT_LEVEL : Field := ⟨0x030008, 32, 9⟩
def EOP_STATUS_SNP_LEVEL : Field := ⟨0x030008, 16, 7⟩
def EOP_STATUS_TAG_LEVEL : Field := ⟨0x030008, 8, 5⟩
def EOP_STATUS_LINK_UP : Field := ⟨0x030008, 0, 1⟩
/-! EOP_FENCE_CTL (03_host_side_ports.md) -/
def EOP_FENCE_CTL_DRAIN_TMO : Field := ⟨0x030010, 16, 16⟩
def EOP_FENCE_CTL_ACK_TMO : Field := ⟨0x030010, 0, 16⟩
/-! EOP_FENCE_STATE0 (03_host_side_ports.md) -/
def EOP_FENCE_STATE0_ACK : Field := ⟨0x030018, 32, 32⟩
def EOP_FENCE_STATE0_REQ : Field := ⟨0x030018, 0, 32⟩
/-! EOP_FENCE_STATE1 (03_host_side_ports.md) -/
def EOP_FENCE_STATE1_ERR_RESP : Field := ⟨0x030020, 32, 32⟩
def EOP_FENCE_STATE1_DRAIN_DONE : Field := ⟨0x030020, 0, 32⟩
/-! EOP_SEED (03_host_side_ports.md) -/
def EOP_SEED_SEED : Field := ⟨0x030028, 0, 64⟩
/-! EOP_SEED_INFO (03_host_side_ports.md) -/
def EOP_SEED_INFO_EPOCH_LO : Field := ⟨0x030030, 48, 16⟩
def EOP_SEED_INFO_THRESH : Field := ⟨0x030030, 0, 32⟩
/-! EOP_WIT_DROPPED (03_host_side_ports.md) -/
def EOP_WIT_DROPPED_DISCARDED : Field := ⟨0x030038, 32, 32⟩
def EOP_WIT_DROPPED_MALFORMED : Field := ⟨0x030038, 0, 32⟩
/-! EOP_ERR (03_host_side_ports.md) -/
def EOP_ERR_SEED_TMO : Field := ⟨0x030040, 5, 1⟩
def EOP_ERR_FENCE_PROTO : Field := ⟨0x030040, 4, 1⟩
def EOP_ERR_FENCE_DRAIN_TMO : Field := ⟨0x030040, 3, 1⟩
def EOP_ERR_FENCE_ACK_TMO : Field := ⟨0x030040, 2, 1⟩
def EOP_ERR_WIT_MALFORMED : Field := ⟨0x030040, 1, 1⟩
def EOP_ERR_SNP_LONG : Field := ⟨0x030040, 0, 1⟩
/-! EOP_GRP_ENG (03_host_side_ports.md) -/
def EOP_GRP_ENG_VALID0 (i : Nat) : Field := ⟨0x030100 + 0x8 * (i % 16), 7, 1⟩
def EOP_GRP_ENG_ENGINE0 (i : Nat) : Field := ⟨0x030100 + 0x8 * (i % 16), 0, 6⟩
def EOP_GRP_ENG_VALID1 (i : Nat) : Field := ⟨0x030100 + 0x8 * (i % 16), 15, 1⟩
def EOP_GRP_ENG_ENGINE1 (i : Nat) : Field := ⟨0x030100 + 0x8 * (i % 16), 8, 6⟩
def EOP_GRP_ENG_VALID2 (i : Nat) : Field := ⟨0x030100 + 0x8 * (i % 16), 23, 1⟩
def EOP_GRP_ENG_ENGINE2 (i : Nat) : Field := ⟨0x030100 + 0x8 * (i % 16), 16, 6⟩
def EOP_GRP_ENG_VALID3 (i : Nat) : Field := ⟨0x030100 + 0x8 * (i % 16), 31, 1⟩
def EOP_GRP_ENG_ENGINE3 (i : Nat) : Field := ⟨0x030100 + 0x8 * (i % 16), 24, 6⟩
def EOP_GRP_ENG_VALID4 (i : Nat) : Field := ⟨0x030100 + 0x8 * (i % 16), 39, 1⟩
def EOP_GRP_ENG_ENGINE4 (i : Nat) : Field := ⟨0x030100 + 0x8 * (i % 16), 32, 6⟩
def EOP_GRP_ENG_VALID5 (i : Nat) : Field := ⟨0x030100 + 0x8 * (i % 16), 47, 1⟩
def EOP_GRP_ENG_ENGINE5 (i : Nat) : Field := ⟨0x030100 + 0x8 * (i % 16), 40, 6⟩
def EOP_GRP_ENG_VALID6 (i : Nat) : Field := ⟨0x030100 + 0x8 * (i % 16), 55, 1⟩
def EOP_GRP_ENG_ENGINE6 (i : Nat) : Field := ⟨0x030100 + 0x8 * (i % 16), 48, 6⟩
def EOP_GRP_ENG_VALID7 (i : Nat) : Field := ⟨0x030100 + 0x8 * (i % 16), 63, 1⟩
def EOP_GRP_ENG_ENGINE7 (i : Nat) : Field := ⟨0x030100 + 0x8 * (i % 16), 56, 6⟩
/-! EOP_EVT_OVERRUN (03_host_side_ports.md) -/
def EOP_EVT_OVERRUN_COUNT : Field := ⟨0x03fff8, 0, 32⟩
/-! MMP_CTL (03_host_side_ports.md) -/
def MMP_CTL_WR_MAX : Field := ⟨0x040000, 25, 7⟩
def MMP_CTL_RD_MAX : Field := ⟨0x040000, 16, 9⟩
def MMP_CTL_CHANNELS : Field := ⟨0x040000, 0, 4⟩
/-! MMP_STATUS (03_host_side_ports.md) -/
def MMP_STATUS_WI_ARM : Field := ⟨0x040008, 56, 1⟩
def MMP_STATUS_WI_OUT : Field := ⟨0x040008, 48, 8⟩
def MMP_STATUS_WR_OUT : Field := ⟨0x040008, 32, 16⟩
def MMP_STATUS_RD_OUT : Field := ⟨0x040008, 16, 16⟩
def MMP_STATUS_LINK_UP : Field := ⟨0x040008, 0, 1⟩
/-! MMP_ERR (03_host_side_ports.md) -/
def MMP_ERR_LINK_RESET : Field := ⟨0x040010, 5, 1⟩
def MMP_ERR_WI_PROTO : Field := ⟨0x040010, 4, 1⟩
def MMP_ERR_RGN_VIOL : Field := ⟨0x040010, 3, 1⟩
def MMP_ERR_WR_ERR : Field := ⟨0x040010, 2, 1⟩
def MMP_ERR_POISON : Field := ⟨0x040010, 1, 1⟩
def MMP_ERR_RD_ERR : Field := ⟨0x040010, 0, 1⟩
/-! MMP_ERR_ADDR (03_host_side_ports.md) -/
def MMP_ERR_ADDR_CHANNEL : Field := ⟨0x040018, 60, 4⟩
def MMP_ERR_ADDR_STATUS : Field := ⟨0x040018, 58, 2⟩
def MMP_ERR_ADDR_KIND : Field := ⟨0x040018, 56, 2⟩
def MMP_ERR_ADDR_ADDR : Field := ⟨0x040018, 6, 46⟩
/-! MMP_WI_STATS (03_host_side_ports.md) -/
def MMP_WI_STATS_TORN : Field := ⟨0x040020, 32, 32⟩
def MMP_WI_STATS_MAX_WAIT : Field := ⟨0x040020, 0, 32⟩
/-! MMP_RGN_BASE (03_host_side_ports.md) -/
def MMP_RGN_BASE_BASE (i : Nat) : Field := ⟨0x040100 + 0x8 * (i % 8), 12, 40⟩
def MMP_RGN_BASE_PERM (i : Nat) : Field := ⟨0x040100 + 0x8 * (i % 8), 0, 2⟩
/-! MMP_RGN_LIM (03_host_side_ports.md) -/
def MMP_RGN_LIM_LIMIT (i : Nat) : Field := ⟨0x040140 + 0x8 * (i % 8), 12, 40⟩
/-! MMP_EVT_OVERRUN (03_host_side_ports.md) -/
def MMP_EVT_OVERRUN_COUNT : Field := ⟨0x04fff8, 0, 32⟩
/-! FBP_CTL (04_outward_ports.md) -/
def FBP_CTL_SEQ_CHECK : Field := ⟨0x050000, 33, 1⟩
def FBP_CTL_LANE_EN : Field := ⟨0x050000, 0, 20⟩
/-! FBP_STATUS (04_outward_ports.md) -/
def FBP_STATUS_LINK_UP : Field := ⟨0x050008, 20, 1⟩
def FBP_STATUS_LANE_UP : Field := ⟨0x050008, 0, 20⟩
/-! FBP_RX_PART (04_outward_ports.md) -/
def FBP_RX_PART_VC3 : Field := ⟨0x050010, 48, 16⟩
def FBP_RX_PART_VC2 : Field := ⟨0x050010, 32, 16⟩
def FBP_RX_PART_VC1 : Field := ⟨0x050010, 16, 16⟩
def FBP_RX_PART_VC0 : Field := ⟨0x050010, 0, 16⟩
/-! FBP_ERR (04_outward_ports.md) -/
def FBP_ERR_RX_OVF : Field := ⟨0x050018, 7, 1⟩
def FBP_ERR_CREDIT_OVF : Field := ⟨0x050018, 6, 1⟩
def FBP_ERR_LINK_DOWN : Field := ⟨0x050018, 5, 1⟩
def FBP_ERR_SEQ_DUP : Field := ⟨0x050018, 4, 1⟩
def FBP_ERR_SEQ_GAP : Field := ⟨0x050018, 3, 1⟩
def FBP_ERR_LEN_ERR : Field := ⟨0x050018, 2, 1⟩
def FBP_ERR_CRC_ERR : Field := ⟨0x050018, 1, 1⟩
def FBP_ERR_CFG_ERR : Field := ⟨0x050018, 0, 1⟩
/-! FBP_ERR_INFO (04_outward_ports.md) -/
def FBP_ERR_INFO_SRC : Field := ⟨0x050020, 40, 24⟩
def FBP_ERR_INFO_LEVEL : Field := ⟨0x050020, 37, 3⟩
def FBP_ERR_INFO_LANE : Field := ⟨0x050020, 32, 5⟩
def FBP_ERR_INFO_VC : Field := ⟨0x050020, 30, 2⟩
def FBP_ERR_INFO_CODE : Field := ⟨0x050020, 0, 8⟩
/-! FBP_DROP_CNT (04_outward_ports.md) -/
def FBP_DROP_CNT_CORRUPT : Field := ⟨0x050028, 32, 32⟩
def FBP_DROP_CNT_DUP : Field := ⟨0x050028, 0, 32⟩
/-! FBP_GAP_CNT (04_outward_ports.md) -/
def FBP_GAP_CNT_MISSING : Field := ⟨0x050030, 0, 64⟩
/-! FBP_TX_CREDIT (04_outward_ports.md) -/
def FBP_TX_CREDIT_VC3 (i : Nat) : Field := ⟨0x050100 + 0x8 * (i % 20), 48, 16⟩
def FBP_TX_CREDIT_VC2 (i : Nat) : Field := ⟨0x050100 + 0x8 * (i % 20), 32, 16⟩
def FBP_TX_CREDIT_VC1 (i : Nat) : Field := ⟨0x050100 + 0x8 * (i % 20), 16, 16⟩
def FBP_TX_CREDIT_VC0 (i : Nat) : Field := ⟨0x050100 + 0x8 * (i % 20), 0, 16⟩
/-! FBP_EVT_OVERRUN (04_outward_ports.md) -/
def FBP_EVT_OVERRUN_COUNT : Field := ⟨0x05fff8, 0, 32⟩
/-! SEP_CTL (04_outward_ports.md) -/
def SEP_CTL_TC_EN : Field := ⟨0x060000, 49, 1⟩
def SEP_CTL_VLAN_EN : Field := ⟨0x060000, 48, 1⟩
def SEP_CTL_VLAN_PCP : Field := ⟨0x060000, 45, 3⟩
def SEP_CTL_VLAN_ID : Field := ⟨0x060000, 33, 12⟩
def SEP_CTL_PORT_EN : Field := ⟨0x060000, 0, 17⟩
/-! SEP_MAC_ADDR (04_outward_ports.md) -/
def SEP_MAC_ADDR_ADDR : Field := ⟨0x060008, 0, 48⟩
/-! SEP_STATUS (04_outward_ports.md) -/
def SEP_STATUS_LINK_UP : Field := ⟨0x060010, 17, 1⟩
def SEP_STATUS_PCS_UP : Field := ⟨0x060010, 0, 17⟩
/-! SEP_ERR (04_outward_ports.md) -/
def SEP_ERR_TS_LOST : Field := ⟨0x060018, 5, 1⟩
def SEP_ERR_FW_RX_FULL : Field := ⟨0x060018, 4, 1⟩
def SEP_ERR_MACCTL : Field := ⟨0x060018, 3, 1⟩
def SEP_ERR_OVERSIZE : Field := ⟨0x060018, 2, 1⟩
def SEP_ERR_FCS_ERR : Field := ⟨0x060018, 1, 1⟩
def SEP_ERR_PCS_DOWN : Field := ⟨0x060018, 0, 1⟩
/-! SEP_DROP_CNT (04_outward_ports.md) -/
def SEP_DROP_CNT_ERRORED : Field := ⟨0x060020, 32, 32⟩
def SEP_DROP_CNT_UNSUPPORTED : Field := ⟨0x060020, 0, 32⟩
/-! SEP_LAT (04_outward_ports.md) -/
def SEP_LAT_RX (i : Nat) : Field := ⟨0x060100 + 0x8 * (i % 17), 32, 32⟩
def SEP_LAT_TX (i : Nat) : Field := ⟨0x060100 + 0x8 * (i % 17), 0, 32⟩
/-! SEP_EVT_OVERRUN (04_outward_ports.md) -/
def SEP_EVT_OVERRUN_COUNT : Field := ⟨0x06fff8, 0, 32⟩
/-! TPI_PPS_CTL (06_time_bases.md) -/
def TPI_PPS_CTL_WIDTH : Field := ⟨0x070000, 16, 24⟩
def TPI_PPS_CTL_TB3_SEL : Field := ⟨0x070000, 8, 6⟩
def TPI_PPS_CTL_BASE : Field := ⟨0x070000, 1, 2⟩
def TPI_PPS_CTL_EN : Field := ⟨0x070000, 0, 1⟩
/-! TPI_ERR (06_time_bases.md) -/
def TPI_ERR_CFG : Field := ⟨0x070008, 9, 1⟩
def TPI_ERR_CAP_OVF : Field := ⟨0x070008, 4, 5⟩
def TPI_ERR_PULSE_LATE : Field := ⟨0x070008, 0, 4⟩
/-! TPI_PULSE_CTL (06_time_bases.md) -/
def TPI_PULSE_CTL_START_FRAC (i : Nat) : Field := ⟨0x070100 + 0x20 * (i % 4), 48, 16⟩
def TPI_PULSE_CTL_WIDTH (i : Nat) : Field := ⟨0x070100 + 0x20 * (i % 4), 16, 32⟩
def TPI_PULSE_CTL_TB3_SEL (i : Nat) : Field := ⟨0x070100 + 0x20 * (i % 4), 8, 6⟩
def TPI_PULSE_CTL_BASE (i : Nat) : Field := ⟨0x070100 + 0x20 * (i % 4), 2, 2⟩
def TPI_PULSE_CTL_MODE (i : Nat) : Field := ⟨0x070100 + 0x20 * (i % 4), 1, 1⟩
def TPI_PULSE_CTL_EN (i : Nat) : Field := ⟨0x070100 + 0x20 * (i % 4), 0, 1⟩
/-! TPI_PULSE_START (06_time_bases.md) -/
def TPI_PULSE_START_START (i : Nat) : Field := ⟨0x070108 + 0x20 * (i % 4), 0, 64⟩
/-! TPI_PULSE_PERIOD (06_time_bases.md) -/
def TPI_PULSE_PERIOD_PERIOD (i : Nat) : Field := ⟨0x070110 + 0x20 * (i % 4), 16, 48⟩
def TPI_PULSE_PERIOD_PERIOD_FRAC (i : Nat) : Field := ⟨0x070110 + 0x20 * (i % 4), 0, 16⟩
/-! TPI_CAP_CTL (06_time_bases.md) -/
def TPI_CAP_CTL_OVF (i : Nat) : Field := ⟨0x070200 + 0x20 * (i % 5), 32, 32⟩
def TPI_CAP_CTL_LEVEL (i : Nat) : Field := ⟨0x070200 + 0x20 * (i % 5), 16, 5⟩
def TPI_CAP_CTL_TB3_SEL (i : Nat) : Field := ⟨0x070200 + 0x20 * (i % 5), 8, 6⟩
def TPI_CAP_CTL_BASE (i : Nat) : Field := ⟨0x070200 + 0x20 * (i % 5), 1, 2⟩
def TPI_CAP_CTL_EN (i : Nat) : Field := ⟨0x070200 + 0x20 * (i % 5), 0, 1⟩
/-! TPI_CAP_TIME (06_time_bases.md) -/
def TPI_CAP_TIME_TIME (i : Nat) : Field := ⟨0x070208 + 0x20 * (i % 5), 0, 64⟩
/-! TPI_CAP_RESULT (06_time_bases.md) -/
def TPI_CAP_RESULT_SEQ (i : Nat) : Field := ⟨0x070210 + 0x20 * (i % 5), 48, 16⟩
def TPI_CAP_RESULT_VALID (i : Nat) : Field := ⟨0x070210 + 0x20 * (i % 5), 32, 1⟩
def TPI_CAP_RESULT_FRAC (i : Nat) : Field := ⟨0x070210 + 0x20 * (i % 5), 0, 16⟩
/-! TPI_EVT_OVERRUN (06_time_bases.md) -/
def TPI_EVT_OVERRUN_COUNT : Field := ⟨0x07fff8, 0, 32⟩
/-! TLY_CTL (05_tally_counters_epochs.md) -/
def TLY_CTL_SNP_SCHED : Field := ⟨0x080000, 32, 6⟩
def TLY_CTL_SNP_EN : Field := ⟨0x080000, 2, 1⟩
def TLY_CTL_BIN_EN : Field := ⟨0x080000, 1, 1⟩
def TLY_CTL_ROUTED_EN : Field := ⟨0x080000, 0, 1⟩
/-! TLY_STATUS (05_tally_counters_epochs.md) -/
def TLY_STATUS_RUNNING : Field := ⟨0x080008, 8, 8⟩
def TLY_STATUS_LAST_SCHED : Field := ⟨0x080008, 0, 6⟩
/-! TLY_ERR (05_tally_counters_epochs.md) -/
def TLY_ERR_WB_CFG : Field := ⟨0x080010, 10, 1⟩
def TLY_ERR_WB_MEM : Field := ⟨0x080010, 9, 1⟩
def TLY_ERR_SHADOW_STALE : Field := ⟨0x080010, 8, 1⟩
def TLY_ERR_HA_LATE : Field := ⟨0x080010, 7, 1⟩
def TLY_ERR_NO_SPACE : Field := ⟨0x080010, 6, 1⟩
def TLY_ERR_SCHED_CFG : Field := ⟨0x080010, 5, 1⟩
def TLY_ERR_SCHED_BUSY : Field := ⟨0x080010, 4, 1⟩
def TLY_ERR_XBAR_IGNORED : Field := ⟨0x080010, 3, 1⟩
def TLY_ERR_BIN_FULL : Field := ⟨0x080010, 2, 1⟩
def TLY_ERR_LATE_CUT : Field := ⟨0x080010, 1, 1⟩
/-! TLY_BIN_CTL (05_tally_counters_epochs.md) -/
def TLY_BIN_CTL_SCHED : Field := ⟨0x080018, 32, 6⟩
def TLY_BIN_CTL_FLUSH : Field := ⟨0x080018, 0, 1⟩
/-! TLY_BIN_CTX (05_tally_counters_epochs.md) -/
def TLY_BIN_CTX_VALUE : Field := ⟨0x080020, 32, 32⟩
def TLY_BIN_CTX_MASK : Field := ⟨0x080020, 0, 32⟩
/-! TLY_BIN_SEL0 (05_tally_counters_epochs.md) -/
def TLY_BIN_SEL0_SLOT3 : Field := ⟨0x080028, 48, 16⟩
def TLY_BIN_SEL0_SLOT2 : Field := ⟨0x080028, 32, 16⟩
def TLY_BIN_SEL0_SLOT1 : Field := ⟨0x080028, 16, 16⟩
def TLY_BIN_SEL0_SLOT0 : Field := ⟨0x080028, 0, 16⟩
/-! TLY_BIN_SEL1 (05_tally_counters_epochs.md) -/
def TLY_BIN_SEL1_SLOT7 : Field := ⟨0x080030, 48, 16⟩
def TLY_BIN_SEL1_SLOT6 : Field := ⟨0x080030, 32, 16⟩
def TLY_BIN_SEL1_SLOT5 : Field := ⟨0x080030, 16, 16⟩
def TLY_BIN_SEL1_SLOT4 : Field := ⟨0x080030, 0, 16⟩
/-! TLY_BIN_STATUS (05_tally_counters_epochs.md) -/
def TLY_BIN_STATUS_MISSES : Field := ⟨0x080038, 32, 32⟩
def TLY_BIN_STATUS_USED : Field := ⟨0x080038, 0, 10⟩
/-! TLY_HA_CTL (05_tally_counters_epochs.md) -/
def TLY_HA_CTL_SCHED : Field := ⟨0x080040, 0, 6⟩
/-! TLY_HA_STATUS (05_tally_counters_epochs.md) -/
def TLY_HA_STATUS_VALID : Field := ⟨0x080048, 63, 1⟩
def TLY_HA_STATUS_CUT_EPOCH : Field := ⟨0x080048, 0, 48⟩
/-! TLY_WB_CTL (05_tally_counters_epochs.md) -/
def TLY_WB_CTL_TRIG_SRC : Field := ⟨0x080050, 32, 2⟩
def TLY_WB_CTL_RESERVE : Field := ⟨0x080050, 16, 16⟩
def TLY_WB_CTL_ZLEVEL : Field := ⟨0x080050, 8, 4⟩
def TLY_WB_CTL_ZSTD : Field := ⟨0x080050, 4, 1⟩
def TLY_WB_CTL_TRIG : Field := ⟨0x080050, 3, 1⟩
def TLY_WB_CTL_ARM : Field := ⟨0x080050, 2, 1⟩
def TLY_WB_CTL_MODE : Field := ⟨0x080050, 1, 1⟩
def TLY_WB_CTL_EN : Field := ⟨0x080050, 0, 1⟩
/-! TLY_WB_STATUS (05_tally_counters_epochs.md) -/
def TLY_WB_STATUS_SEQ : Field := ⟨0x080058, 32, 32⟩
def TLY_WB_STATUS_STATE : Field := ⟨0x080058, 0, 3⟩
/-! TLY_WB_WRPTR (05_tally_counters_epochs.md) -/
def TLY_WB_WRPTR_WRPTR : Field := ⟨0x080060, 0, 64⟩
/-! TLY_WB_RDPTR (05_tally_counters_epochs.md) -/
def TLY_WB_RDPTR_RDPTR : Field := ⟨0x080068, 0, 64⟩
/-! TLY_WB_LOST (05_tally_counters_epochs.md) -/
def TLY_WB_LOST_LOST : Field := ⟨0x080070, 0, 64⟩
/-! TLY_WB_MARK (05_tally_counters_epochs.md) -/
def TLY_WB_MARK_MARK : Field := ⟨0x080078, 0, 64⟩
/-! TLY_SCHED_CTL (05_tally_counters_epochs.md) -/
def TLY_SCHED_CTL_DOMAIN (i : Nat) : Field := ⟨0x081000 + 0x20 * (i % 64), 44, 20⟩
def TLY_SCHED_CTL_STATE (i : Nat) : Field := ⟨0x081000 + 0x20 * (i % 64), 32, 2⟩
def TLY_SCHED_CTL_EN (i : Nat) : Field := ⟨0x081000 + 0x20 * (i % 64), 0, 1⟩
/-! TLY_SCHED_START (05_tally_counters_epochs.md) -/
def TLY_SCHED_START_START (i : Nat) : Field := ⟨0x081008 + 0x20 * (i % 64), 0, 64⟩
/-! TLY_SCHED_RANGE (05_tally_counters_epochs.md) -/
def TLY_SCHED_RANGE_LEN (i : Nat) : Field := ⟨0x081010 + 0x20 * (i % 64), 32, 30⟩
def TLY_SCHED_RANGE_LAST (i : Nat) : Field := ⟨0x081010 + 0x20 * (i % 64), 16, 16⟩
def TLY_SCHED_RANGE_FIRST (i : Nat) : Field := ⟨0x081010 + 0x20 * (i % 64), 0, 16⟩
/-! TLY_SCHED_EPOCH (05_tally_counters_epochs.md) -/
def TLY_SCHED_EPOCH_FLAGS (i : Nat) : Field := ⟨0x081018 + 0x20 * (i % 64), 48, 16⟩
def TLY_SCHED_EPOCH_EPOCH (i : Nat) : Field := ⟨0x081018 + 0x20 * (i % 64), 0, 48⟩
/-! TLY_EVT_OVERRUN (05_tally_counters_epochs.md) -/
def TLY_EVT_OVERRUN_COUNT : Field := ⟨0x08fff8, 0, 32⟩
/-! TIM_TB_CTL (06_time_bases.md) -/
def TIM_TB_CTL_DOMAIN (i : Nat) : Field := ⟨0x090000 + 0x40 * (i % 2), 44, 20⟩
def TIM_TB_CTL_INTERVAL (i : Nat) : Field := ⟨0x090000 + 0x40 * (i % 2), 16, 16⟩
def TIM_TB_CTL_ROOT (i : Nat) : Field := ⟨0x090000 + 0x40 * (i % 2), 3, 1⟩
def TIM_TB_CTL_FAB_FALLBACK (i : Nat) : Field := ⟨0x090000 + 0x40 * (i % 2), 2, 1⟩
def TIM_TB_CTL_INIT_STEP (i : Nat) : Field := ⟨0x090000 + 0x40 * (i % 2), 1, 1⟩
def TIM_TB_CTL_EN (i : Nat) : Field := ⟨0x090000 + 0x40 * (i % 2), 0, 1⟩
/-! TIM_TB_STATUS (06_time_bases.md) -/
def TIM_TB_STATUS_MEAS_CNT (i : Nat) : Field := ⟨0x090008 + 0x40 * (i % 2), 32, 32⟩
def TIM_TB_STATUS_DELAY (i : Nat) : Field := ⟨0x090008 + 0x40 * (i % 2), 8, 24⟩
def TIM_TB_STATUS_CLAMPED (i : Nat) : Field := ⟨0x090008 + 0x40 * (i % 2), 6, 1⟩
def TIM_TB_STATUS_CAUSE (i : Nat) : Field := ⟨0x090008 + 0x40 * (i % 2), 4, 2⟩
def TIM_TB_STATUS_STATE (i : Nat) : Field := ⟨0x090008 + 0x40 * (i % 2), 0, 3⟩
/-! TIM_TB_THRESH (06_time_bases.md) -/
def TIM_TB_THRESH_TIMEOUT (i : Nat) : Field := ⟨0x090010 + 0x40 * (i % 2), 48, 16⟩
def TIM_TB_THRESH_LOCK_THRESH (i : Nat) : Field := ⟨0x090010 + 0x40 * (i % 2), 32, 16⟩
def TIM_TB_THRESH_JUMP_THRESH (i : Nat) : Field := ⟨0x090010 + 0x40 * (i % 2), 0, 32⟩
/-! TIM_TB_SERVO (06_time_bases.md) -/
def TIM_TB_SERVO_FREQ_LIMIT (i : Nat) : Field := ⟨0x090018 + 0x40 * (i % 2), 16, 16⟩
def TIM_TB_SERVO_KI_SHIFT (i : Nat) : Field := ⟨0x090018 + 0x40 * (i % 2), 8, 4⟩
def TIM_TB_SERVO_KP_SHIFT (i : Nat) : Field := ⟨0x090018 + 0x40 * (i % 2), 0, 4⟩
/-! TIM_TB_FREQ (06_time_bases.md) -/
def TIM_TB_FREQ_INTEG (i : Nat) : Field := ⟨0x090020 + 0x40 * (i % 2), 32, 32⟩
def TIM_TB_FREQ_APPLIED (i : Nat) : Field := ⟨0x090020 + 0x40 * (i % 2), 0, 32⟩
/-! TIM_TB_OFFSET (06_time_bases.md) -/
def TIM_TB_OFFSET_OFFSET (i : Nat) : Field := ⟨0x090028 + 0x40 * (i % 2), 0, 64⟩
/-! TIM_TB_PENDING (06_time_bases.md) -/
def TIM_TB_PENDING_PENDING (i : Nat) : Field := ⟨0x090030 + 0x40 * (i % 2), 0, 64⟩
/-! TIM_TB_JUMP (06_time_bases.md) -/
def TIM_TB_JUMP_PEND_SEQ (i : Nat) : Field := ⟨0x090038 + 0x40 * (i % 2), 16, 16⟩
def TIM_TB_JUMP_DISMISS (i : Nat) : Field := ⟨0x090038 + 0x40 * (i % 2), 1, 1⟩
def TIM_TB_JUMP_ACCEPT (i : Nat) : Field := ⟨0x090038 + 0x40 * (i % 2), 0, 1⟩
/-! TIM_SNAP_CTL (06_time_bases.md) -/
def TIM_SNAP_CTL_SEQ : Field := ⟨0x090080, 48, 16⟩
def TIM_SNAP_CTL_TB3_SEL : Field := ⟨0x090080, 8, 6⟩
def TIM_SNAP_CTL_GO : Field := ⟨0x090080, 0, 1⟩
/-! TIM_SNAP_RESULT (06_time_bases.md) -/
def TIM_SNAP_RESULT_SEQ : Field := ⟨0x090088, 48, 16⟩
def TIM_SNAP_RESULT_VALID : Field := ⟨0x090088, 32, 1⟩
/-! TIM_SNAP_SEC (06_time_bases.md) -/
def TIM_SNAP_SEC_SEC (i : Nat) : Field := ⟨0x090090 + 0x10 * (i % 4), 0, 48⟩
/-! TIM_SNAP_NS (06_time_bases.md) -/
def TIM_SNAP_NS_NS (i : Nat) : Field := ⟨0x090098 + 0x10 * (i % 4), 16, 32⟩
def TIM_SNAP_NS_FRAC (i : Nat) : Field := ⟨0x090098 + 0x10 * (i % 4), 0, 16⟩
/-! TIM_PTP_CTL (06_time_bases.md) -/
def TIM_PTP_CTL_MASTER_PORT : Field := ⟨0x090100, 32, 16⟩
def TIM_PTP_CTL_LOG_DREQ : Field := ⟨0x090100, 16, 8⟩
def TIM_PTP_CTL_DOMAIN_NUM : Field := ⟨0x090100, 8, 8⟩
def TIM_PTP_CTL_TRANSPORT : Field := ⟨0x090100, 1, 2⟩
def TIM_PTP_CTL_EN : Field := ⟨0x090100, 0, 1⟩
/-! TIM_PTP_ID (06_time_bases.md) -/
def TIM_PTP_ID_CLOCK_ID : Field := ⟨0x090108, 0, 64⟩
/-! TIM_PTP_MASTER (06_time_bases.md) -/
def TIM_PTP_MASTER_MASTER_ID : Field := ⟨0x090110, 0, 64⟩
/-! TIM_PTP_DISCARD (06_time_bases.md) -/
def TIM_PTP_DISCARD_FOREIGN : Field := ⟨0x090118, 32, 32⟩
def TIM_PTP_DISCARD_INVALID : Field := ⟨0x090118, 0, 32⟩
/-! TIM_ERR (06_time_bases.md) -/
def TIM_ERR_SNAP_BUSY : Field := ⟨0x090120, 5, 1⟩
def TIM_ERR_JUMP_STALE : Field := ⟨0x090120, 4, 1⟩
def TIM_ERR_TB1_HOLDOVER : Field := ⟨0x090120, 3, 1⟩
def TIM_ERR_TB0_HOLDOVER : Field := ⟨0x090120, 2, 1⟩
def TIM_ERR_TB1_REFUSED : Field := ⟨0x090120, 1, 1⟩
def TIM_ERR_TB0_REFUSED : Field := ⟨0x090120, 0, 1⟩
/-! TIM_FAB_LAT (06_time_bases.md) -/
def TIM_FAB_LAT_RX (i : Nat) : Field := ⟨0x090200 + 0x8 * (i % 20), 32, 32⟩
def TIM_FAB_LAT_TX (i : Nat) : Field := ⟨0x090200 + 0x8 * (i % 20), 0, 32⟩
/-! TIM_TB3_OFF (06_time_bases.md) -/
def TIM_TB3_OFF_OFFSET (i : Nat) : Field := ⟨0x091000 + 0x8 * (i % 64), 0, 64⟩
/-! TIM_EVT_OVERRUN (06_time_bases.md) -/
def TIM_EVT_OVERRUN_COUNT : Field := ⟨0x09fff8, 0, 32⟩
/-! CRV_CTL (07_caravan_reduction.md) -/
def CRV_CTL_EN : Field := ⟨0x0a0000, 32, 1⟩
def CRV_CTL_FM_INDEX : Field := ⟨0x0a0000, 0, 24⟩
/-! CRV_HOME (07_caravan_reduction.md) -/
def CRV_HOME_VALID : Field := ⟨0x0a0008, 32, 1⟩
def CRV_HOME_DOMAIN : Field := ⟨0x0a0008, 0, 20⟩
/-! CRV_STATUS (07_caravan_reduction.md) -/
def CRV_STATUS_TGA_PENDING : Field := ⟨0x0a0010, 48, 9⟩
def CRV_STATUS_SLOTS_ACTIVE : Field := ⟨0x0a0010, 32, 13⟩
def CRV_STATUS_DESC_USED : Field := ⟨0x0a0010, 0, 32⟩
/-! CRV_ERR (07_caravan_reduction.md) -/
def CRV_ERR_ROUTE : Field := ⟨0x0a0018, 8, 1⟩
def CRV_ERR_TGA_BUSY : Field := ⟨0x0a0018, 7, 1⟩
def CRV_ERR_DESC_FULL : Field := ⟨0x0a0018, 6, 1⟩
def CRV_ERR_RULE_MISMATCH : Field := ⟨0x0a0018, 5, 1⟩
def CRV_ERR_NO_SLOT : Field := ⟨0x0a0018, 4, 1⟩
def CRV_ERR_OVERTAKE_DROP : Field := ⟨0x0a0018, 3, 1⟩
def CRV_ERR_LATE : Field := ⟨0x0a0018, 2, 1⟩
def CRV_ERR_LOST : Field := ⟨0x0a0018, 1, 1⟩
def CRV_ERR_TGA_TMO : Field := ⟨0x0a0018, 0, 1⟩
/-! CRV_SLOT_CMD (07_caravan_reduction.md) -/
def CRV_SLOT_CMD_SEQ : Field := ⟨0x0a0020, 48, 16⟩
def CRV_SLOT_CMD_DOMAIN : Field := ⟨0x0a0020, 24, 20⟩
def CRV_SLOT_CMD_OP : Field := ⟨0x0a0020, 1, 2⟩
def CRV_SLOT_CMD_START : Field := ⟨0x0a0020, 0, 1⟩
/-! CRV_SLOT_RESULT (07_caravan_reduction.md) -/
def CRV_SLOT_RESULT_SEQ : Field := ⟨0x0a0028, 48, 16⟩
def CRV_SLOT_RESULT_VALID : Field := ⟨0x0a0028, 32, 1⟩
def CRV_SLOT_RESULT_SLOT : Field := ⟨0x0a0028, 16, 12⟩
def CRV_SLOT_RESULT_STATUS : Field := ⟨0x0a0028, 0, 8⟩
/-! CRV_SLOT_SEL (07_caravan_reduction.md) -/
def CRV_SLOT_SEL_SLOT : Field := ⟨0x0a0030, 0, 12⟩
/-! CRV_SLOT_INFO (07_caravan_reduction.md) -/
def CRV_SLOT_INFO_DOMAIN : Field := ⟨0x0a0038, 44, 20⟩
def CRV_SLOT_INFO_STATE : Field := ⟨0x0a0038, 40, 3⟩
def CRV_SLOT_INFO_EXPECTED : Field := ⟨0x0a0038, 0, 11⟩
/-! CRV_SLOT_EPOCH (07_caravan_reduction.md) -/
def CRV_SLOT_EPOCH_PRESENT : Field := ⟨0x0a0040, 48, 11⟩
def CRV_SLOT_EPOCH_EPOCH : Field := ⟨0x0a0040, 0, 48⟩
/-! CRV_SLOT_TIMING (07_caravan_reduction.md) -/
def CRV_SLOT_TIMING_DEADLINE : Field := ⟨0x0a0048, 56, 8⟩
def CRV_SLOT_TIMING_GRACE : Field := ⟨0x0a0048, 48, 8⟩
def CRV_SLOT_TIMING_QUORUM : Field := ⟨0x0a0048, 32, 11⟩
def CRV_SLOT_TIMING_PROV_MIN : Field := ⟨0x0a0048, 16, 11⟩
def CRV_SLOT_TIMING_PROV_UP : Field := ⟨0x0a0048, 0, 1⟩
/-! CRV_CHILD_ADDR (07_caravan_reduction.md) -/
def CRV_CHILD_ADDR_BIT : Field := ⟨0x0a0050, 0, 10⟩
/-! CRV_CHILD_DATA (07_caravan_reduction.md) -/
def CRV_CHILD_DATA_ADOPTED : Field := ⟨0x0a0058, 26, 1⟩
def CRV_CHILD_DATA_JOINED : Field := ⟨0x0a0058, 25, 1⟩
def CRV_CHILD_DATA_EXPECTED : Field := ⟨0x0a0058, 24, 1⟩
def CRV_CHILD_DATA_INDEX : Field := ⟨0x0a0058, 0, 24⟩
/-! CRV_ROUTE (07_caravan_reduction.md) -/
def CRV_ROUTE_SHARE_NOW : Field := ⟨0x0a0060, 8, 7⟩
def CRV_ROUTE_MODE : Field := ⟨0x0a0060, 0, 2⟩
/-! CRV_COARSE_STATUS (07_caravan_reduction.md) -/
def CRV_COARSE_STATUS_FROM_EPOCH : Field := ⟨0x0a0068, 16, 48⟩
def CRV_COARSE_STATUS_CLASSES : Field := ⟨0x0a0068, 8, 8⟩
def CRV_COARSE_STATUS_SKETCHES : Field := ⟨0x0a0068, 3, 1⟩
def CRV_COARSE_STATUS_EXP : Field := ⟨0x0a0068, 0, 3⟩
/-! CRV_TGA_CTL (07_caravan_reduction.md) -/
def CRV_TGA_CTL_TIMEOUT : Field := ⟨0x0a0070, 0, 16⟩
/-! CRV_TGA_STATS (07_caravan_reduction.md) -/
def CRV_TGA_STATS_CACHED : Field := ⟨0x0a0078, 32, 32⟩
def CRV_TGA_STATS_FORWARDED : Field := ⟨0x0a0078, 0, 32⟩
/-! CRV_PW_HEAD (07_caravan_reduction.md) -/
def CRV_PW_HEAD_WRAPS : Field := ⟨0x0a0080, 32, 32⟩
def CRV_PW_HEAD_NEXT : Field := ⟨0x0a0080, 0, 12⟩
/-! CRV_PW_SEL (07_caravan_reduction.md) -/
def CRV_PW_SEL_EPOCH : Field := ⟨0x0a0088, 16, 48⟩
def CRV_PW_SEL_SLOT : Field := ⟨0x0a0088, 0, 12⟩
/-! CRV_PW_BANK (07_caravan_reduction.md) -/
def CRV_PW_BANK_BANK : Field := ⟨0x0a0090, 0, 2⟩
/-! CRV_EVT_OVERRUN (07_caravan_reduction.md) -/
def CRV_EVT_OVERRUN_COUNT : Field := ⟨0x0afff8, 0, 32⟩
/-! INK_CTL (08_innkeeper.md) -/
def INK_CTL_SK_SCHED : Field := ⟨0x0b0000, 32, 6⟩
def INK_CTL_SK_EN : Field := ⟨0x0b0000, 0, 1⟩
/-! INK_STATUS (08_innkeeper.md) -/
def INK_STATUS_SAT_SLOTS : Field := ⟨0x0b0008, 32, 12⟩
def INK_STATUS_PAUSED : Field := ⟨0x0b0008, 0, 20⟩
/-! INK_ERR (08_innkeeper.md) -/
def INK_ERR_CFG : Field := ⟨0x0b0010, 5, 1⟩
def INK_ERR_LADDER : Field := ⟨0x0b0010, 4, 1⟩
def INK_ERR_REPLY_FULL : Field := ⟨0x0b0010, 3, 1⟩
def INK_ERR_POLICED : Field := ⟨0x0b0010, 2, 1⟩
def INK_ERR_Q_DROP : Field := ⟨0x0b0010, 1, 1⟩
def INK_ERR_NO_QUEUE : Field := ⟨0x0b0010, 0, 1⟩
/-! INK_SAT_CTL (08_innkeeper.md) -/
def INK_SAT_CTL_SKETCHES : Field := ⟨0x0b0018, 32, 1⟩
def INK_SAT_CTL_SAT_DELAY : Field := ⟨0x0b0018, 16, 16⟩
def INK_SAT_CTL_SAT_FULL : Field := ⟨0x0b0018, 8, 8⟩
def INK_SAT_CTL_SAT_EPOCHS : Field := ⟨0x0b0018, 3, 5⟩
def INK_SAT_CTL_MAX_EXP : Field := ⟨0x0b0018, 0, 3⟩
/-! INK_SAT_CLS (08_innkeeper.md) -/
def INK_SAT_CLS_MASK (i : Nat) : Field := ⟨0x0b0020 + 0x8 * (i % 4), 0, 64⟩
/-! INK_LADDER_CNT0 (08_innkeeper.md) -/
def INK_LADDER_CNT0_RANK5 : Field := ⟨0x0b0040, 48, 16⟩
def INK_LADDER_CNT0_RANK4 : Field := ⟨0x0b0040, 32, 16⟩
def INK_LADDER_CNT0_RANK3 : Field := ⟨0x0b0040, 16, 16⟩
def INK_LADDER_CNT0_RANK2 : Field := ⟨0x0b0040, 0, 16⟩
/-! INK_LADDER_CNT1 (08_innkeeper.md) -/
def INK_LADDER_CNT1_RANK9 : Field := ⟨0x0b0048, 48, 16⟩
def INK_LADDER_CNT1_RANK8 : Field := ⟨0x0b0048, 32, 16⟩
def INK_LADDER_CNT1_RANK7 : Field := ⟨0x0b0048, 16, 16⟩
def INK_LADDER_CNT1_RANK6 : Field := ⟨0x0b0048, 0, 16⟩
/-! INK_CLASS (08_innkeeper.md) -/
def INK_CLASS_RANK (i : Nat) : Field := ⟨0x0b0100 + 0x8 * (i % 32), 40, 4⟩
def INK_CLASS_DROP (i : Nat) : Field := ⟨0x0b0100 + 0x8 * (i % 32), 35, 1⟩
def INK_CLASS_EXPEDITED (i : Nat) : Field := ⟨0x0b0100 + 0x8 * (i % 32), 34, 1⟩
def INK_CLASS_MEM (i : Nat) : Field := ⟨0x0b0100 + 0x8 * (i % 32), 33, 1⟩
def INK_CLASS_VC (i : Nat) : Field := ⟨0x0b0100 + 0x8 * (i % 32), 30, 2⟩
def INK_CLASS_LIMIT (i : Nat) : Field := ⟨0x0b0100 + 0x8 * (i % 32), 0, 20⟩
/-! INK_SK_EXPORT (08_innkeeper.md) -/
def INK_SK_EXPORT_VALID (i : Nat) : Field := ⟨0x0b0200 + 0x8 * (i % 16), 31, 1⟩
def INK_SK_EXPORT_KIND (i : Nat) : Field := ⟨0x0b0200 + 0x8 * (i % 16), 30, 1⟩
def INK_SK_EXPORT_QUEUE (i : Nat) : Field := ⟨0x0b0200 + 0x8 * (i % 16), 16, 9⟩
def INK_SK_EXPORT_SKETCH_ID (i : Nat) : Field := ⟨0x0b0200 + 0x8 * (i % 16), 0, 7⟩
/-! INK_QSK_SEL (08_innkeeper.md) -/
def INK_QSK_SEL_KIND : Field := ⟨0x0b0300, 16, 1⟩
def INK_QSK_SEL_QUEUE : Field := ⟨0x0b0300, 0, 9⟩
/-! INK_QSK_INFO (08_innkeeper.md) -/
def INK_QSK_INFO_EPOCH : Field := ⟨0x0b0308, 0, 48⟩
/-! INK_QSK_DATA (08_innkeeper.md) -/
def INK_QSK_DATA_ODD (i : Nat) : Field := ⟨0x0b1000 + 0x8 * (i % 512), 32, 32⟩
def INK_QSK_DATA_EVEN (i : Nat) : Field := ⟨0x0b1000 + 0x8 * (i % 512), 0, 32⟩
/-! INK_Q_CFG (08_innkeeper.md) -/
def INK_Q_CFG_MAX_DEPTH (i : Nat) : Field := ⟨0x0b4000 + 0x20 * (i % 512), 32, 32⟩
def INK_Q_CFG_WEIGHT (i : Nat) : Field := ⟨0x0b4000 + 0x20 * (i % 512), 16, 16⟩
def INK_Q_CFG_VALID (i : Nat) : Field := ⟨0x0b4000 + 0x20 * (i % 512), 15, 1⟩
def INK_Q_CFG_MEM (i : Nat) : Field := ⟨0x0b4000 + 0x20 * (i % 512), 14, 1⟩
def INK_Q_CFG_PORT (i : Nat) : Field := ⟨0x0b4000 + 0x20 * (i % 512), 9, 5⟩
def INK_Q_CFG_VC (i : Nat) : Field := ⟨0x0b4000 + 0x20 * (i % 512), 7, 2⟩
def INK_Q_CFG_CLASS (i : Nat) : Field := ⟨0x0b4000 + 0x20 * (i % 512), 0, 5⟩
/-! INK_Q_SHAPE (08_innkeeper.md) -/
def INK_Q_SHAPE_RATE (i : Nat) : Field := ⟨0x0b4008 + 0x20 * (i % 512), 32, 24⟩
def INK_Q_SHAPE_BURST (i : Nat) : Field := ⟨0x0b4008 + 0x20 * (i % 512), 0, 16⟩
/-! INK_Q_POLICE (08_innkeeper.md) -/
def INK_Q_POLICE_POL_RATE (i : Nat) : Field := ⟨0x0b4010 + 0x20 * (i % 512), 32, 24⟩
def INK_Q_POLICE_POL_BURST (i : Nat) : Field := ⟨0x0b4010 + 0x20 * (i % 512), 0, 16⟩
/-! INK_Q_STATE (08_innkeeper.md) -/
def INK_Q_STATE_HEAD_DELAY (i : Nat) : Field := ⟨0x0b4018 + 0x20 * (i % 512), 32, 32⟩
def INK_Q_STATE_DEPTH (i : Nat) : Field := ⟨0x0b4018 + 0x20 * (i % 512), 0, 32⟩
/-! INK_EVT_OVERRUN (08_innkeeper.md) -/
def INK_EVT_OVERRUN_COUNT : Field := ⟨0x0bfff8, 0, 32⟩
/-! TRE_CTL (09_tree_engine.md) -/
def TRE_CTL_ENG_EN : Field := ⟨0x0c0000, 0, 4⟩
/-! TRE_STATUS (09_tree_engine.md) -/
def TRE_STATUS_BOUND : Field := ⟨0x0c0008, 16, 7⟩
def TRE_STATUS_QUEUED : Field := ⟨0x0c0008, 8, 5⟩
def TRE_STATUS_BUSY : Field := ⟨0x0c0008, 0, 4⟩
/-! TRE_ERR (09_tree_engine.md) -/
def TRE_ERR_SLOT_BUSY : Field := ⟨0x0c0010, 4, 1⟩
def TRE_ERR_STORE_PROT : Field := ⟨0x0c0010, 3, 1⟩
def TRE_ERR_ECC : Field := ⟨0x0c0010, 2, 1⟩
def TRE_ERR_JOB_ERR : Field := ⟨0x0c0010, 1, 1⟩
def TRE_ERR_BIND_ERR : Field := ⟨0x0c0010, 0, 1⟩
/-! TRE_MODEL_CMD (09_tree_engine.md) -/
def TRE_MODEL_CMD_SEQ : Field := ⟨0x0c0020, 48, 16⟩
def TRE_MODEL_CMD_SLOT : Field := ⟨0x0c0020, 8, 6⟩
def TRE_MODEL_CMD_OP : Field := ⟨0x0c0020, 1, 2⟩
def TRE_MODEL_CMD_START : Field := ⟨0x0c0020, 0, 1⟩
/-! TRE_MODEL_ARG (09_tree_engine.md) -/
def TRE_MODEL_ARG_LENGTH : Field := ⟨0x0c0028, 32, 32⟩
def TRE_MODEL_ARG_OFFSET : Field := ⟨0x0c0028, 0, 32⟩
/-! TRE_MODEL_RESULT (09_tree_engine.md) -/
def TRE_MODEL_RESULT_SEQ : Field := ⟨0x0c0030, 48, 16⟩
def TRE_MODEL_RESULT_VALID : Field := ⟨0x0c0030, 32, 1⟩
def TRE_MODEL_RESULT_POS : Field := ⟨0x0c0030, 8, 24⟩
def TRE_MODEL_RESULT_STATUS : Field := ⟨0x0c0030, 0, 8⟩
/-! TRE_MODEL_INFO (09_tree_engine.md) -/
def TRE_MODEL_INFO_VALID (i : Nat) : Field := ⟨0x0c0100 + 0x8 * (i % 64), 63, 1⟩
def TRE_MODEL_INFO_FAILED (i : Nat) : Field := ⟨0x0c0100 + 0x8 * (i % 64), 62, 1⟩
def TRE_MODEL_INFO_LINK (i : Nat) : Field := ⟨0x0c0100 + 0x8 * (i % 64), 60, 2⟩
def TRE_MODEL_INFO_TYPE (i : Nat) : Field := ⟨0x0c0100 + 0x8 * (i % 64), 59, 1⟩
def TRE_MODEL_INFO_DEPTH (i : Nat) : Field := ⟨0x0c0100 + 0x8 * (i % 64), 55, 4⟩
def TRE_MODEL_INFO_NCLASS (i : Nat) : Field := ⟨0x0c0100 + 0x8 * (i % 64), 48, 6⟩
def TRE_MODEL_INFO_NFEAT (i : Nat) : Field := ⟨0x0c0100 + 0x8 * (i % 64), 32, 13⟩
def TRE_MODEL_INFO_MODEL_ID (i : Nat) : Field := ⟨0x0c0100 + 0x8 * (i % 64), 0, 32⟩
/-! TRE_MODEL_LOC (09_tree_engine.md) -/
def TRE_MODEL_LOC_NTREES (i : Nat) : Field := ⟨0x0c0300 + 0x8 * (i % 64), 40, 24⟩
def TRE_MODEL_LOC_OFFSET (i : Nat) : Field := ⟨0x0c0300 + 0x8 * (i % 64), 0, 32⟩
/-! TRE_JOB_DESC0 (09_tree_engine.md) -/
def TRE_JOB_DESC0_ROWS (i : Nat) : Field := ⟨0x0c1000 + 0x40 * (i % 16), 32, 32⟩
def TRE_JOB_DESC0_ENGINE (i : Nat) : Field := ⟨0x0c1000 + 0x40 * (i % 16), 10, 2⟩
def TRE_JOB_DESC0_PIN (i : Nat) : Field := ⟨0x0c1000 + 0x40 * (i % 16), 9, 1⟩
def TRE_JOB_DESC0_OUT_MARGIN (i : Nat) : Field := ⟨0x0c1000 + 0x40 * (i % 16), 8, 1⟩
def TRE_JOB_DESC0_MODEL (i : Nat) : Field := ⟨0x0c1000 + 0x40 * (i % 16), 0, 6⟩
/-! TRE_JOB_DESC1 (09_tree_engine.md) -/
def TRE_JOB_DESC1_ROW_STRIDE (i : Nat) : Field := ⟨0x0c1008 + 0x40 * (i % 16), 32, 32⟩
def TRE_JOB_DESC1_ROW_ADDR (i : Nat) : Field := ⟨0x0c1008 + 0x40 * (i % 16), 0, 32⟩
/-! TRE_JOB_DESC2 (09_tree_engine.md) -/
def TRE_JOB_DESC2_OUT_ADDR (i : Nat) : Field := ⟨0x0c1010 + 0x40 * (i % 16), 0, 32⟩
/-! TRE_JOB_CTL (09_tree_engine.md) -/
def TRE_JOB_CTL_SEQ (i : Nat) : Field := ⟨0x0c1018 + 0x40 * (i % 16), 48, 16⟩
def TRE_JOB_CTL_GO (i : Nat) : Field := ⟨0x0c1018 + 0x40 * (i % 16), 0, 1⟩
/-! TRE_JOB_RESULT (09_tree_engine.md) -/
def TRE_JOB_RESULT_SEQ (i : Nat) : Field := ⟨0x0c1020 + 0x40 * (i % 16), 48, 16⟩
def TRE_JOB_RESULT_ENG_USED (i : Nat) : Field := ⟨0x0c1020 + 0x40 * (i % 16), 46, 2⟩
def TRE_JOB_RESULT_VALID (i : Nat) : Field := ⟨0x0c1020 + 0x40 * (i % 16), 32, 1⟩
def TRE_JOB_RESULT_ROWS_DONE (i : Nat) : Field := ⟨0x0c1020 + 0x40 * (i % 16), 15, 17⟩
def TRE_JOB_RESULT_STATUS (i : Nat) : Field := ⟨0x0c1020 + 0x40 * (i % 16), 0, 8⟩
/-! TRE_JOB_STATS (09_tree_engine.md) -/
def TRE_JOB_STATS_CYCLES (i : Nat) : Field := ⟨0x0c1028 + 0x40 * (i % 16), 32, 32⟩
def TRE_JOB_STATS_NONFINITE (i : Nat) : Field := ⟨0x0c1028 + 0x40 * (i % 16), 0, 17⟩
/-! TRE_EVT_OVERRUN (09_tree_engine.md) -/
def TRE_EVT_OVERRUN_COUNT : Field := ⟨0x0cfff8, 0, 32⟩
/-! ARR_CTL (10_arrays_and_detectors.md) -/
def ARR_CTL_EN : Field := ⟨0x0d0000, 0, 1⟩
/-! ARR_SHARE (10_arrays_and_detectors.md) -/
def ARR_SHARE_VER_FLOOR : Field := ⟨0x0d0008, 56, 8⟩
def ARR_SHARE_W_VERIFY : Field := ⟨0x0d0008, 32, 16⟩
def ARR_SHARE_W_SCORE : Field := ⟨0x0d0008, 16, 16⟩
def ARR_SHARE_FIELD_OBS : Field := ⟨0x0d0008, 8, 4⟩
def ARR_SHARE_FIELD_SVC : Field := ⟨0x0d0008, 0, 4⟩
/-! ARR_STATUS (10_arrays_and_detectors.md) -/
def ARR_STATUS_BUSY : Field := ⟨0x0d0010, 0, 48⟩
/-! ARR_AVAIL (10_arrays_and_detectors.md) -/
def ARR_AVAIL_AVAIL : Field := ⟨0x0d0018, 0, 48⟩
/-! ARR_SPARE (10_arrays_and_detectors.md) -/
def ARR_SPARE_SPARE : Field := ⟨0x0d0020, 0, 48⟩
/-! ARR_RETIRED (10_arrays_and_detectors.md) -/
def ARR_RETIRED_RETIRED : Field := ⟨0x0d0028, 0, 48⟩
/-! ARR_ERR (10_arrays_and_detectors.md) -/
def ARR_ERR_FLOOR_BREACH : Field := ⟨0x0d0030, 4, 1⟩
def ARR_ERR_JOB_ERR : Field := ⟨0x0d0030, 3, 1⟩
def ARR_ERR_SLOT_BUSY : Field := ⟨0x0d0030, 2, 1⟩
def ARR_ERR_ECC : Field := ⟨0x0d0030, 1, 1⟩
def ARR_ERR_RESIDUE : Field := ⟨0x0d0030, 0, 1⟩
/-! ARR_CYC_SCORE (10_arrays_and_detectors.md) -/
def ARR_CYC_SCORE_CYCLES : Field := ⟨0x0d0038, 0, 64⟩
/-! ARR_CYC_VERIFY (10_arrays_and_detectors.md) -/
def ARR_CYC_VERIFY_CYCLES : Field := ⟨0x0d0040, 0, 64⟩
/-! ARR_CYC_FIELD (10_arrays_and_detectors.md) -/
def ARR_CYC_FIELD_CYCLES : Field := ⟨0x0d0048, 0, 64⟩
/-! ARR_RES (10_arrays_and_detectors.md) -/
def ARR_RES_UNCORR (i : Nat) : Field := ⟨0x0d0100 + 0x8 * (i % 48), 16, 16⟩
def ARR_RES_RESIDUE (i : Nat) : Field := ⟨0x0d0100 + 0x8 * (i % 48), 0, 16⟩
/-! ARR_JOB_DESC0 (10_arrays_and_detectors.md) -/
def ARR_JOB_DESC0_K (i : Nat) : Field := ⟨0x0d1000 + 0x40 * (i % 16), 50, 14⟩
def ARR_JOB_DESC0_N (i : Nat) : Field := ⟨0x0d1000 + 0x40 * (i % 16), 41, 9⟩
def ARR_JOB_DESC0_M (i : Nat) : Field := ⟨0x0d1000 + 0x40 * (i % 16), 32, 9⟩
def ARR_JOB_DESC0_FMT_A (i : Nat) : Field := ⟨0x0d1000 + 0x40 * (i % 16), 28, 4⟩
def ARR_JOB_DESC0_FMT_B (i : Nat) : Field := ⟨0x0d1000 + 0x40 * (i % 16), 24, 4⟩
def ARR_JOB_DESC0_OUT_FMT (i : Nat) : Field := ⟨0x0d1000 + 0x40 * (i % 16), 22, 2⟩
def ARR_JOB_DESC0_ARULE (i : Nat) : Field := ⟨0x0d1000 + 0x40 * (i % 16), 20, 2⟩
def ARR_JOB_DESC0_ORDERED (i : Nat) : Field := ⟨0x0d1000 + 0x40 * (i % 16), 19, 1⟩
def ARR_JOB_DESC0_ACC (i : Nat) : Field := ⟨0x0d1000 + 0x40 * (i % 16), 18, 1⟩
def ARR_JOB_DESC0_ARRAY (i : Nat) : Field := ⟨0x0d1000 + 0x40 * (i % 16), 12, 6⟩
def ARR_JOB_DESC0_PIN (i : Nat) : Field := ⟨0x0d1000 + 0x40 * (i % 16), 11, 1⟩
def ARR_JOB_DESC0_URGENT (i : Nat) : Field := ⟨0x0d1000 + 0x40 * (i % 16), 10, 1⟩
def ARR_JOB_DESC0_POST (i : Nat) : Field := ⟨0x0d1000 + 0x40 * (i % 16), 0, 8⟩
/-! ARR_JOB_DESC1 (10_arrays_and_detectors.md) -/
def ARR_JOB_DESC1_B_ADDR (i : Nat) : Field := ⟨0x0d1008 + 0x40 * (i % 16), 32, 32⟩
def ARR_JOB_DESC1_A_ADDR (i : Nat) : Field := ⟨0x0d1008 + 0x40 * (i % 16), 0, 32⟩
/-! ARR_JOB_DESC2 (10_arrays_and_detectors.md) -/
def ARR_JOB_DESC2_C_ADDR (i : Nat) : Field := ⟨0x0d1010 + 0x40 * (i % 16), 32, 32⟩
def ARR_JOB_DESC2_SCALE_ADDR (i : Nat) : Field := ⟨0x0d1010 + 0x40 * (i % 16), 0, 32⟩
/-! ARR_JOB_DESC3 (10_arrays_and_detectors.md) -/
def ARR_JOB_DESC3_PARAM_ADDR (i : Nat) : Field := ⟨0x0d1018 + 0x40 * (i % 16), 0, 32⟩
/-! ARR_JOB_CTL (10_arrays_and_detectors.md) -/
def ARR_JOB_CTL_SEQ (i : Nat) : Field := ⟨0x0d1020 + 0x40 * (i % 16), 48, 16⟩
def ARR_JOB_CTL_GO (i : Nat) : Field := ⟨0x0d1020 + 0x40 * (i % 16), 0, 1⟩
/-! ARR_JOB_RESULT (10_arrays_and_detectors.md) -/
def ARR_JOB_RESULT_SEQ (i : Nat) : Field := ⟨0x0d1028 + 0x40 * (i % 16), 48, 16⟩
def ARR_JOB_RESULT_VALID (i : Nat) : Field := ⟨0x0d1028 + 0x40 * (i % 16), 32, 1⟩
def ARR_JOB_RESULT_SAT (i : Nat) : Field := ⟨0x0d1028 + 0x40 * (i % 16), 16, 1⟩
def ARR_JOB_RESULT_STATUS (i : Nat) : Field := ⟨0x0d1028 + 0x40 * (i % 16), 0, 8⟩
/-! ARR_JOB_STATS (10_arrays_and_detectors.md) -/
def ARR_JOB_STATS_CYCLES (i : Nat) : Field := ⟨0x0d1030 + 0x40 * (i % 16), 32, 32⟩
def ARR_JOB_STATS_PASSES (i : Nat) : Field := ⟨0x0d1030 + 0x40 * (i % 16), 16, 16⟩
def ARR_JOB_STATS_RERUNS (i : Nat) : Field := ⟨0x0d1030 + 0x40 * (i % 16), 0, 8⟩
/-! ARR_EVT_OVERRUN (10_arrays_and_detectors.md) -/
def ARR_EVT_OVERRUN_COUNT : Field := ⟨0x0dfff8, 0, 32⟩
/-! DET_CTL (10_arrays_and_detectors.md) -/
def DET_CTL_EN : Field := ⟨0x0e0000, 0, 1⟩
/-! DET_STEP_CTL (10_arrays_and_detectors.md) -/
def DET_STEP_CTL_SCHED : Field := ⟨0x0e0008, 32, 6⟩
def DET_STEP_CTL_EVT : Field := ⟨0x0e0008, 16, 13⟩
def DET_STEP_CTL_EN : Field := ⟨0x0e0008, 0, 1⟩
/-! DET_ERR (10_arrays_and_detectors.md) -/
def DET_ERR_CFG : Field := ⟨0x0e0010, 3, 1⟩
def DET_ERR_HA_LATE : Field := ⟨0x0e0010, 2, 1⟩
def DET_ERR_REF_MISSING : Field := ⟨0x0e0010, 1, 1⟩
def DET_ERR_DROPPED : Field := ⟨0x0e0010, 0, 1⟩
/-! DET_VCOUNT (10_arrays_and_detectors.md) -/
def DET_VCOUNT_CONFIRMED : Field := ⟨0x0e0018, 32, 32⟩
def DET_VCOUNT_PROVISIONAL : Field := ⟨0x0e0018, 0, 32⟩
/-! DET_DROPPED (10_arrays_and_detectors.md) -/
def DET_DROPPED_COUNT : Field := ⟨0x0e0020, 0, 64⟩
/-! DET_D_CFG (10_arrays_and_detectors.md) -/
def DET_D_CFG_IRQ (i : Nat) : Field := ⟨0x0e1000 + 0x40 * (i % 64), 61, 1⟩
def DET_D_CFG_ON_PROV (i : Nat) : Field := ⟨0x0e1000 + 0x40 * (i % 64), 60, 1⟩
def DET_D_CFG_MAXV (i : Nat) : Field := ⟨0x0e1000 + 0x40 * (i % 64), 52, 8⟩
def DET_D_CFG_CONSEC (i : Nat) : Field := ⟨0x0e1000 + 0x40 * (i % 64), 48, 4⟩
def DET_D_CFG_INPUT (i : Nat) : Field := ⟨0x0e1000 + 0x40 * (i % 64), 32, 16⟩
def DET_D_CFG_SLOT (i : Nat) : Field := ⟨0x0e1000 + 0x40 * (i % 64), 16, 12⟩
def DET_D_CFG_SEVERITY (i : Nat) : Field := ⟨0x0e1000 + 0x40 * (i % 64), 12, 4⟩
def DET_D_CFG_MODE (i : Nat) : Field := ⟨0x0e1000 + 0x40 * (i % 64), 8, 2⟩
def DET_D_CFG_SRC (i : Nat) : Field := ⟨0x0e1000 + 0x40 * (i % 64), 4, 3⟩
def DET_D_CFG_KIND (i : Nat) : Field := ⟨0x0e1000 + 0x40 * (i % 64), 1, 3⟩
def DET_D_CFG_EN (i : Nat) : Field := ⟨0x0e1000 + 0x40 * (i % 64), 0, 1⟩
/-! DET_D_P0 (10_arrays_and_detectors.md) -/
def DET_D_P0_P (i : Nat) : Field := ⟨0x0e1008 + 0x40 * (i % 64), 0, 64⟩
/-! DET_D_P1 (10_arrays_and_detectors.md) -/
def DET_D_P1_P (i : Nat) : Field := ⟨0x0e1010 + 0x40 * (i % 64), 0, 64⟩
/-! DET_D_P2 (10_arrays_and_detectors.md) -/
def DET_D_P2_P (i : Nat) : Field := ⟨0x0e1018 + 0x40 * (i % 64), 0, 64⟩
/-! DET_D_REF (10_arrays_and_detectors.md) -/
def DET_D_REF_VALID (i : Nat) : Field := ⟨0x0e1020 + 0x40 * (i % 64), 63, 1⟩
def DET_D_REF_SRC (i : Nat) : Field := ⟨0x0e1020 + 0x40 * (i % 64), 56, 1⟩
def DET_D_REF_CAPTURE_EPOCH (i : Nat) : Field := ⟨0x0e1020 + 0x40 * (i % 64), 0, 48⟩
/-! DET_D_STATE (10_arrays_and_detectors.md) -/
def DET_D_STATE_EVALS (i : Nat) : Field := ⟨0x0e1028 + 0x40 * (i % 64), 32, 32⟩
def DET_D_STATE_VERDICTS (i : Nat) : Field := ⟨0x0e1028 + 0x40 * (i % 64), 0, 32⟩
/-! DET_EVT_OVERRUN (10_arrays_and_detectors.md) -/
def DET_EVT_OVERRUN_COUNT : Field := ⟨0x0efff8, 0, 32⟩
/-! VER_CTL (11_tile_verifier_field_test.md) -/
def VER_CTL_TOL_MULT : Field := ⟨0x0f0000, 56, 8⟩
def VER_CTL_SCORE_RSV : Field := ⟨0x0f0000, 48, 8⟩
def VER_CTL_WIT_WINDOW : Field := ⟨0x0f0000, 32, 16⟩
def VER_CTL_LOCAL_SHARE : Field := ⟨0x0f0000, 16, 9⟩
def VER_CTL_TRAY_EN : Field := ⟨0x0f0000, 2, 1⟩
def VER_CTL_CONFIRM : Field := ⟨0x0f0000, 1, 1⟩
def VER_CTL_EN : Field := ⟨0x0f0000, 0, 1⟩
/-! VER_SAMPLE (11_tile_verifier_field_test.md) -/
def VER_SAMPLE_THRESH : Field := ⟨0x0f0008, 0, 32⟩
/-! VER_ENG_MASK (11_tile_verifier_field_test.md) -/
def VER_ENG_MASK_MASK : Field := ⟨0x0f0010, 0, 64⟩
/-! VER_SEED_KEY (11_tile_verifier_field_test.md) -/
def VER_SEED_KEY_KEY : Field := ⟨0x0f0018, 0, 64⟩
/-! VER_HOST_RATE (11_tile_verifier_field_test.md) -/
def VER_HOST_RATE_FMT : Field := ⟨0x0f0020, 32, 4⟩
def VER_HOST_RATE_RATE : Field := ⟨0x0f0020, 0, 32⟩
/-! VER_TRAY_GRANT (11_tile_verifier_field_test.md) -/
def VER_TRAY_GRANT_GRANT : Field := ⟨0x0f0028, 0, 32⟩
/-! VER_CAPACITY (11_tile_verifier_field_test.md) -/
def VER_CAPACITY_THRESH_MAX : Field := ⟨0x0f0030, 32, 32⟩
def VER_CAPACITY_TRAY_PPM : Field := ⟨0x0f0030, 16, 16⟩
def VER_CAPACITY_LOCAL_PPM : Field := ⟨0x0f0030, 0, 16⟩
/-! VER_RATES (11_tile_verifier_field_test.md) -/
def VER_RATES_CHILD_RATE : Field := ⟨0x0f0038, 32, 32⟩
def VER_RATES_LOCAL_RATE : Field := ⟨0x0f0038, 0, 32⟩
/-! VER_POLICY (11_tile_verifier_field_test.md) -/
def VER_POLICY_OBS_COUNT : Field := ⟨0x0f0040, 32, 16⟩
def VER_POLICY_IRQ : Field := ⟨0x0f0040, 1, 1⟩
def VER_POLICY_MODE : Field := ⟨0x0f0040, 0, 1⟩
/-! VER_STATUS (11_tile_verifier_field_test.md) -/
def VER_STATUS_STAGE_KIB : Field := ⟨0x0f0048, 40, 24⟩
def VER_STATUS_QUEUED : Field := ⟨0x0f0048, 16, 16⟩
def VER_STATUS_OBS_ACTIVE : Field := ⟨0x0f0048, 1, 1⟩
def VER_STATUS_OVER_CAP : Field := ⟨0x0f0048, 0, 1⟩
/-! VER_ERR (11_tile_verifier_field_test.md) -/
def VER_ERR_HOST_FAIL : Field := ⟨0x0f0050, 4, 1⟩
def VER_ERR_THRESH_CLAMP : Field := ⟨0x0f0050, 3, 1⟩
def VER_ERR_SELF_ERR : Field := ⟨0x0f0050, 2, 1⟩
def VER_ERR_UNACCOUNTABLE : Field := ⟨0x0f0050, 1, 1⟩
def VER_ERR_DISCARD : Field := ⟨0x0f0050, 0, 1⟩
/-! VER_HA_WRPTR (11_tile_verifier_field_test.md) -/
def VER_HA_WRPTR_WRPTR : Field := ⟨0x0f0058, 0, 64⟩
/-! VER_HA_RDPTR (11_tile_verifier_field_test.md) -/
def VER_HA_RDPTR_RDPTR : Field := ⟨0x0f0060, 0, 64⟩
/-! VER_SUBJ_STATE (11_tile_verifier_field_test.md) -/
def VER_SUBJ_STATE_LEVEL (i : Nat) : Field := ⟨0x0f0100 + 0x8 * (i % 17), 56, 3⟩
def VER_SUBJ_STATE_INDEX (i : Nat) : Field := ⟨0x0f0100 + 0x8 * (i % 17), 32, 24⟩
def VER_SUBJ_STATE_OBS_PASSED (i : Nat) : Field := ⟨0x0f0100 + 0x8 * (i % 17), 16, 16⟩
def VER_SUBJ_STATE_OBSERVE (i : Nat) : Field := ⟨0x0f0100 + 0x8 * (i % 17), 9, 1⟩
def VER_SUBJ_STATE_CLEAR (i : Nat) : Field := ⟨0x0f0100 + 0x8 * (i % 17), 8, 1⟩
def VER_SUBJ_STATE_STATE (i : Nat) : Field := ⟨0x0f0100 + 0x8 * (i % 17), 0, 2⟩
/-! VER_EVT_OVERRUN (11_tile_verifier_field_test.md) -/
def VER_EVT_OVERRUN_COUNT : Field := ⟨0x0ffff8, 0, 32⟩
/-! FLT_CTL (11_tile_verifier_field_test.md) -/
def FLT_CTL_K : Field := ⟨0x100000, 48, 16⟩
def FLT_CTL_FMT_MASK : Field := ⟨0x100000, 32, 16⟩
def FLT_CTL_EN : Field := ⟨0x100000, 0, 1⟩
/-! FLT_SEED0 (11_tile_verifier_field_test.md) -/
def FLT_SEED0_SEED : Field := ⟨0x100008, 0, 64⟩
/-! FLT_SEED1 (11_tile_verifier_field_test.md) -/
def FLT_SEED1_SEED : Field := ⟨0x100010, 0, 64⟩
/-! FLT_RETIRE (11_tile_verifier_field_test.md) -/
def FLT_RETIRE_SPARE_TESTS : Field := ⟨0x100018, 32, 8⟩
def FLT_RETIRE_WINDOW : Field := ⟨0x100018, 16, 16⟩
def FLT_RETIRE_LIMIT : Field := ⟨0x100018, 0, 8⟩
/-! FLT_STATUS (11_tile_verifier_field_test.md) -/
def FLT_STATUS_TESTS : Field := ⟨0x100020, 32, 32⟩
def FLT_STATUS_FAILS : Field := ⟨0x100020, 0, 32⟩
/-! FLT_PROBE_CTL (11_tile_verifier_field_test.md) -/
def FLT_PROBE_CTL_PRB_TMO : Field := ⟨0x100028, 48, 16⟩
def FLT_PROBE_CTL_K : Field := ⟨0x100028, 32, 14⟩
def FLT_PROBE_CTL_N : Field := ⟨0x100028, 18, 9⟩
def FLT_PROBE_CTL_M : Field := ⟨0x100028, 9, 9⟩
def FLT_PROBE_CTL_FMT : Field := ⟨0x100028, 4, 4⟩
def FLT_PROBE_CTL_ARULE : Field := ⟨0x100028, 0, 2⟩
/-! FLT_PROBE_CMD (11_tile_verifier_field_test.md) -/
def FLT_PROBE_CMD_SEQ : Field := ⟨0x100030, 48, 16⟩
def FLT_PROBE_CMD_COUNT : Field := ⟨0x100030, 32, 16⟩
def FLT_PROBE_CMD_ENG_B : Field := ⟨0x100030, 16, 6⟩
def FLT_PROBE_CMD_ENG_A : Field := ⟨0x100030, 8, 6⟩
def FLT_PROBE_CMD_PAIR : Field := ⟨0x100030, 2, 1⟩
def FLT_PROBE_CMD_ABORT : Field := ⟨0x100030, 1, 1⟩
def FLT_PROBE_CMD_START : Field := ⟨0x100030, 0, 1⟩
/-! FLT_PROBE_RESULT (11_tile_verifier_field_test.md) -/
def FLT_PROBE_RESULT_SEQ : Field := ⟨0x100038, 48, 16⟩
def FLT_PROBE_RESULT_VALID : Field := ⟨0x100038, 32, 1⟩
def FLT_PROBE_RESULT_STATUS : Field := ⟨0x100038, 0, 8⟩
/-! FLT_PROBE_STATS (11_tile_verifier_field_test.md) -/
def FLT_PROBE_STATS_NOANSWER : Field := ⟨0x100040, 32, 16⟩
def FLT_PROBE_STATS_FAILED : Field := ⟨0x100040, 16, 16⟩
def FLT_PROBE_STATS_PASSED : Field := ⟨0x100040, 0, 16⟩
/-! FLT_ERR (11_tile_verifier_field_test.md) -/
def FLT_ERR_PROBE_NOANS : Field := ⟨0x100048, 4, 1⟩
def FLT_ERR_PROBE_FAIL : Field := ⟨0x100048, 3, 1⟩
def FLT_ERR_NO_SPARE : Field := ⟨0x100048, 2, 1⟩
def FLT_ERR_RETIRED : Field := ⟨0x100048, 1, 1⟩
def FLT_ERR_FT_FAIL : Field := ⟨0x100048, 0, 1⟩
/-! FLT_ARR (11_tile_verifier_field_test.md) -/
def FLT_ARR_LAST_MARK (i : Nat) : Field := ⟨0x100100 + 0x8 * (i % 48), 32, 32⟩
def FLT_ARR_MARKS (i : Nat) : Field := ⟨0x100100 + 0x8 * (i % 48), 0, 8⟩
/-! FLT_EVT_OVERRUN (11_tile_verifier_field_test.md) -/
def FLT_EVT_OVERRUN_COUNT : Field := ⟨0x10fff8, 0, 32⟩
/-! CUR_CTL (12_courier_checkpoint.md) -/
def CUR_CTL_STALL_NS : Field := ⟨0x110000, 48, 16⟩
def CUR_CTL_TORN_MAX : Field := ⟨0x110000, 35, 13⟩
def CUR_CTL_DOMAIN : Field := ⟨0x110000, 12, 20⟩
def CUR_CTL_EN : Field := ⟨0x110000, 0, 1⟩
/-! CUR_CODE (12_courier_checkpoint.md) -/
def CUR_CODE_SHARD : Field := ⟨0x110008, 16, 15⟩
def CUR_CODE_K : Field := ⟨0x110008, 0, 5⟩
/-! CUR_TIMING (12_courier_checkpoint.md) -/
def CUR_TIMING_RESTORE_TMO : Field := ⟨0x110010, 48, 16⟩
def CUR_TIMING_COMMIT_TMO : Field := ⟨0x110010, 32, 16⟩
def CUR_TIMING_DEADLINE : Field := ⟨0x110010, 0, 32⟩
/-! CUR_STATUS (12_courier_checkpoint.md) -/
def CUR_STATUS_TORN_COUNT : Field := ⟨0x110018, 32, 32⟩
def CUR_STATUS_ACKS : Field := ⟨0x110018, 8, 8⟩
def CUR_STATUS_STATE : Field := ⟨0x110018, 0, 3⟩
/-! CUR_FRONTIER (12_courier_checkpoint.md) -/
def CUR_FRONTIER_OFFSET : Field := ⟨0x110020, 0, 64⟩
/-! CUR_ERR (12_courier_checkpoint.md) -/
def CUR_ERR_UNRECOVERABLE : Field := ⟨0x110028, 5, 1⟩
def CUR_ERR_DEADLINE : Field := ⟨0x110028, 4, 1⟩
def CUR_ERR_RX_DISCARD : Field := ⟨0x110028, 3, 1⟩
def CUR_ERR_DEST_FAIL : Field := ⟨0x110028, 2, 1⟩
def CUR_ERR_TOO_TORN : Field := ⟨0x110028, 1, 1⟩
def CUR_ERR_CFG_WR : Field := ⟨0x110028, 0, 1⟩
/-! CUR_SNAP_CMD (12_courier_checkpoint.md) -/
def CUR_SNAP_CMD_SEQ : Field := ⟨0x110030, 48, 16⟩
def CUR_SNAP_CMD_OP : Field := ⟨0x110030, 1, 3⟩
def CUR_SNAP_CMD_START : Field := ⟨0x110030, 0, 1⟩
/-! CUR_SNAP_ARG (12_courier_checkpoint.md) -/
def CUR_SNAP_ARG_ARG : Field := ⟨0x110038, 0, 64⟩
/-! CUR_SNAP_RESULT (12_courier_checkpoint.md) -/
def CUR_SNAP_RESULT_SEQ : Field := ⟨0x110040, 48, 16⟩
def CUR_SNAP_RESULT_VALID : Field := ⟨0x110040, 32, 1⟩
def CUR_SNAP_RESULT_STATUS : Field := ⟨0x110040, 0, 8⟩
/-! CUR_OUT (12_courier_checkpoint.md) -/
def CUR_OUT_SEQ : Field := ⟨0x110048, 48, 16⟩
def CUR_OUT_VALID : Field := ⟨0x110048, 32, 1⟩
def CUR_OUT_DETAIL : Field := ⟨0x110048, 8, 24⟩
def CUR_OUT_OUTCOME : Field := ⟨0x110048, 0, 8⟩
/-! CUR_LAST_ID (12_courier_checkpoint.md) -/
def CUR_LAST_ID_ID : Field := ⟨0x110050, 0, 64⟩
/-! CUR_LAST_INFO (12_courier_checkpoint.md) -/
def CUR_LAST_INFO_VALID : Field := ⟨0x110058, 63, 1⟩
def CUR_LAST_INFO_SLOT : Field := ⟨0x110058, 62, 1⟩
def CUR_LAST_INFO_TORN : Field := ⟨0x110058, 61, 1⟩
def CUR_LAST_INFO_STEP : Field := ⟨0x110058, 0, 48⟩
/-! CUR_NEXT_ID (12_courier_checkpoint.md) -/
def CUR_NEXT_ID_NEXT_ID : Field := ⟨0x110060, 0, 64⟩
/-! CUR_EARLY (12_courier_checkpoint.md) -/
def CUR_EARLY_BASE : Field := ⟨0x110068, 12, 40⟩
/-! CUR_EARLY_SIZE (12_courier_checkpoint.md) -/
def CUR_EARLY_SIZE_GRANULES : Field := ⟨0x110070, 0, 32⟩
/-! CUR_RGN_BASE (12_courier_checkpoint.md) -/
def CUR_RGN_BASE_VALID (i : Nat) : Field := ⟨0x110100 + 0x10 * (i % 64), 63, 1⟩
def CUR_RGN_BASE_KIND (i : Nat) : Field := ⟨0x110100 + 0x10 * (i % 64), 62, 1⟩
def CUR_RGN_BASE_ADDR (i : Nat) : Field := ⟨0x110100 + 0x10 * (i % 64), 12, 40⟩
def CUR_RGN_BASE_PART (i : Nat) : Field := ⟨0x110100 + 0x10 * (i % 64), 0, 5⟩
/-! CUR_RGN_SIZE (12_courier_checkpoint.md) -/
def CUR_RGN_SIZE_PAGES (i : Nat) : Field := ⟨0x110108 + 0x10 * (i % 64), 0, 32⟩
/-! CUR_DST (12_courier_checkpoint.md) -/
def CUR_DST_VALID (i : Nat) : Field := ⟨0x110500 + 0x8 * (i % 32), 63, 1⟩
def CUR_DST_KIND (i : Nat) : Field := ⟨0x110500 + 0x8 * (i % 32), 62, 1⟩
def CUR_DST_INDEX (i : Nat) : Field := ⟨0x110500 + 0x8 * (i % 32), 0, 24⟩
/-! CUR_RX_SRC (12_courier_checkpoint.md) -/
def CUR_RX_SRC_VALID (i : Nat) : Field := ⟨0x111000 + 0x20 * (i % 32), 63, 1⟩
def CUR_RX_SRC_LOCKED (i : Nat) : Field := ⟨0x111000 + 0x20 * (i % 32), 32, 1⟩
def CUR_RX_SRC_INDEX (i : Nat) : Field := ⟨0x111000 + 0x20 * (i % 32), 0, 24⟩
/-! CUR_RX_BASE (12_courier_checkpoint.md) -/
def CUR_RX_BASE_BASE (i : Nat) : Field := ⟨0x111008 + 0x20 * (i % 32), 12, 40⟩
/-! CUR_RX_SIZE (12_courier_checkpoint.md) -/
def CUR_RX_SIZE_SIZE (i : Nat) : Field := ⟨0x111010 + 0x20 * (i % 32), 0, 32⟩
/-! CUR_EVT_OVERRUN (12_courier_checkpoint.md) -/
def CUR_EVT_OVERRUN_COUNT : Field := ⟨0x11fff8, 0, 32⟩
/-! CMP_CTL (13_compression.md) -/
def CMP_CTL_EN : Field := ⟨0x120000, 0, 1⟩
/-! CMP_STATUS (13_compression.md) -/
def CMP_STATUS_ENC_WLOG_MAX : Field := ⟨0x120008, 40, 5⟩
def CMP_STATUS_QUEUED : Field := ⟨0x120008, 8, 4⟩
def CMP_STATUS_DEC_BUSY : Field := ⟨0x120008, 2, 1⟩
def CMP_STATUS_ENC_B : Field := ⟨0x120008, 1, 1⟩
def CMP_STATUS_ENC_A : Field := ⟨0x120008, 0, 1⟩
/-! CMP_ERR (13_compression.md) -/
def CMP_ERR_PRT_CFG : Field := ⟨0x120010, 6, 1⟩
def CMP_ERR_PRT_DESC : Field := ⟨0x120010, 5, 1⟩
def CMP_ERR_SLOT_BUSY : Field := ⟨0x120010, 4, 1⟩
def CMP_ERR_ECC : Field := ⟨0x120010, 3, 1⟩
def CMP_ERR_OVER_LIMIT : Field := ⟨0x120010, 2, 1⟩
def CMP_ERR_JOB_ERR : Field := ⟨0x120010, 1, 1⟩
def CMP_ERR_VERIFY : Field := ⟨0x120010, 0, 1⟩
/-! CMP_VFY_CNT (13_compression.md) -/
def CMP_VFY_CNT_FALLBACK : Field := ⟨0x120018, 32, 32⟩
def CMP_VFY_CNT_CHECKED : Field := ⟨0x120018, 0, 32⟩
/-! CMP_JOB_DESC0 (13_compression.md) -/
def CMP_JOB_DESC0_CHECKSUM (i : Nat) : Field := ⟨0x121000 + 0x80 * (i % 8), 26, 1⟩
def CMP_JOB_DESC0_DST_SPACE (i : Nat) : Field := ⟨0x121000 + 0x80 * (i % 8), 25, 1⟩
def CMP_JOB_DESC0_SRC_SPACE (i : Nat) : Field := ⟨0x121000 + 0x80 * (i % 8), 24, 1⟩
def CMP_JOB_DESC0_WLOG (i : Nat) : Field := ⟨0x121000 + 0x80 * (i % 8), 16, 5⟩
def CMP_JOB_DESC0_LEVEL (i : Nat) : Field := ⟨0x121000 + 0x80 * (i % 8), 8, 4⟩
def CMP_JOB_DESC0_OP (i : Nat) : Field := ⟨0x121000 + 0x80 * (i % 8), 0, 1⟩
/-! CMP_JOB_SRC (13_compression.md) -/
def CMP_JOB_SRC_ADDR (i : Nat) : Field := ⟨0x121008 + 0x80 * (i % 8), 0, 52⟩
/-! CMP_JOB_SRC_LEN (13_compression.md) -/
def CMP_JOB_SRC_LEN_LEN (i : Nat) : Field := ⟨0x121010 + 0x80 * (i % 8), 0, 48⟩
/-! CMP_JOB_DST (13_compression.md) -/
def CMP_JOB_DST_ADDR (i : Nat) : Field := ⟨0x121018 + 0x80 * (i % 8), 0, 52⟩
/-! CMP_JOB_DST_LEN (13_compression.md) -/
def CMP_JOB_DST_LEN_LEN (i : Nat) : Field := ⟨0x121020 + 0x80 * (i % 8), 0, 48⟩
/-! CMP_JOB_CTL (13_compression.md) -/
def CMP_JOB_CTL_SEQ (i : Nat) : Field := ⟨0x121028 + 0x80 * (i % 8), 48, 16⟩
def CMP_JOB_CTL_GO (i : Nat) : Field := ⟨0x121028 + 0x80 * (i % 8), 0, 1⟩
/-! CMP_JOB_RESULT (13_compression.md) -/
def CMP_JOB_RESULT_SEQ (i : Nat) : Field := ⟨0x121030 + 0x80 * (i % 8), 48, 16⟩
def CMP_JOB_RESULT_VALID (i : Nat) : Field := ⟨0x121030 + 0x80 * (i % 8), 32, 1⟩
def CMP_JOB_RESULT_FALLBACKS (i : Nat) : Field := ⟨0x121030 + 0x80 * (i % 8), 16, 16⟩
def CMP_JOB_RESULT_STATUS (i : Nat) : Field := ⟨0x121030 + 0x80 * (i % 8), 0, 8⟩
/-! CMP_JOB_OUT (13_compression.md) -/
def CMP_JOB_OUT_OUT_LEN (i : Nat) : Field := ⟨0x121038 + 0x80 * (i % 8), 0, 48⟩
/-! CMP_JOB_IN (13_compression.md) -/
def CMP_JOB_IN_IN_USED (i : Nat) : Field := ⟨0x121040 + 0x80 * (i % 8), 0, 48⟩
/-! PRT_CTL (13_compression.md) -/
def PRT_CTL_EN : Field := ⟨0x128000, 0, 1⟩
/-! PRT_STATUS (13_compression.md) -/
def PRT_STATUS_DESCS : Field := ⟨0x128008, 32, 32⟩
def PRT_STATUS_INTERNAL : Field := ⟨0x128008, 16, 1⟩
def PRT_STATUS_HALTED : Field := ⟨0x128008, 8, 4⟩
def PRT_STATUS_BUSY : Field := ⟨0x128008, 0, 4⟩
/-! PRT_CH_BASE (13_compression.md) -/
def PRT_CH_BASE_ADDR (i : Nat) : Field := ⟨0x128100 + 0x40 * (i % 4), 6, 46⟩
/-! PRT_CH_SIZE (13_compression.md) -/
def PRT_CH_SIZE_ENTRIES (i : Nat) : Field := ⟨0x128108 + 0x40 * (i % 4), 0, 16⟩
/-! PRT_CH_HEAD (13_compression.md) -/
def PRT_CH_HEAD_HEAD (i : Nat) : Field := ⟨0x128110 + 0x40 * (i % 4), 0, 16⟩
/-! PRT_CH_TAIL (13_compression.md) -/
def PRT_CH_TAIL_TAIL (i : Nat) : Field := ⟨0x128118 + 0x40 * (i % 4), 0, 16⟩
/-! PRT_CH_CTL (13_compression.md) -/
def PRT_CH_CTL_LAST_STATUS (i : Nat) : Field := ⟨0x128120 + 0x40 * (i % 4), 16, 8⟩
def PRT_CH_CTL_STATE (i : Nat) : Field := ⟨0x128120 + 0x40 * (i % 4), 8, 2⟩
def PRT_CH_CTL_RESUME (i : Nat) : Field := ⟨0x128120 + 0x40 * (i % 4), 0, 1⟩
/-! CMP_EVT_OVERRUN (13_compression.md) -/
def CMP_EVT_OVERRUN_COUNT : Field := ⟨0x12fff8, 0, 32⟩
/-! RCV_CTL (14_recovery.md) -/
def RCV_CTL_TEARDOWN_TMO : Field := ⟨0x130000, 48, 16⟩
def RCV_CTL_DRAIN_TMO : Field := ⟨0x130000, 16, 16⟩
def RCV_CTL_NOTICE_EN : Field := ⟨0x130000, 0, 1⟩
/-! RCV_STATUS (14_recovery.md) -/
def RCV_STATUS_NOTICES : Field := ⟨0x130008, 32, 8⟩
def RCV_STATUS_ORDERS : Field := ⟨0x130008, 8, 4⟩
def RCV_STATUS_DBUF_HELD : Field := ⟨0x130008, 1, 1⟩
def RCV_STATUS_DUMP_BUSY : Field := ⟨0x130008, 0, 1⟩
/-! RCV_ERR (14_recovery.md) -/
def RCV_ERR_HOLD_FULL : Field := ⟨0x130010, 5, 1⟩
def RCV_ERR_NOTICE_DROP : Field := ⟨0x130010, 4, 1⟩
def RCV_ERR_DUMP_ABANDONED : Field := ⟨0x130010, 3, 1⟩
def RCV_ERR_DUMP_TRUNC : Field := ⟨0x130010, 2, 1⟩
def RCV_ERR_UNRESPONSIVE : Field := ⟨0x130010, 1, 1⟩
def RCV_ERR_FORCED : Field := ⟨0x130010, 0, 1⟩
/-! RCV_FENCE_BLK (14_recovery.md) -/
def RCV_FENCE_BLK_STATE : Field := ⟨0x130018, 0, 28⟩
/-! RCV_FENCE_HOST0 (14_recovery.md) -/
def RCV_FENCE_HOST0_STATE : Field := ⟨0x130020, 0, 64⟩
/-! RCV_FENCE_HOST1 (14_recovery.md) -/
def RCV_FENCE_HOST1_STATE : Field := ⟨0x130028, 0, 64⟩
/-! RCV_HB_PULSE (14_recovery.md) -/
def RCV_HB_PULSE_PULSE : Field := ⟨0x130030, 0, 64⟩
/-! RCV_DUMP_CTL (14_recovery.md) -/
def RCV_DUMP_CTL_DISCARD : Field := ⟨0x130038, 0, 1⟩
/-! RCV_DUMP_LAST (14_recovery.md) -/
def RCV_DUMP_LAST_DUMP_ID : Field := ⟨0x130040, 32, 32⟩
def RCV_DUMP_LAST_LENGTH : Field := ⟨0x130040, 0, 32⟩
/-! RCV_DBUF_ADDR (14_recovery.md) -/
def RCV_DBUF_ADDR_WORD : Field := ⟨0x130048, 0, 14⟩
/-! RCV_DBUF_DATA (14_recovery.md) -/
def RCV_DBUF_DATA_DATA : Field := ⟨0x130050, 0, 64⟩
/-! RCV_HOLD_CTL (14_recovery.md) -/
def RCV_HOLD_CTL_LINK_ENTER : Field := ⟨0x130060, 32, 16⟩
def RCV_HOLD_CTL_AUTO : Field := ⟨0x130060, 3, 1⟩
def RCV_HOLD_CTL_REPARENT : Field := ⟨0x130060, 2, 1⟩
def RCV_HOLD_CTL_EXIT : Field := ⟨0x130060, 1, 1⟩
def RCV_HOLD_CTL_ENTER : Field := ⟨0x130060, 0, 1⟩
/-! RCV_HOLD_STATUS (14_recovery.md) -/
def RCV_HOLD_STATUS_CAUSE : Field := ⟨0x130068, 2, 2⟩
def RCV_HOLD_STATUS_STATE : Field := ⟨0x130068, 0, 2⟩
/-! RCV_HOLD_WRPTR (14_recovery.md) -/
def RCV_HOLD_WRPTR_WRPTR : Field := ⟨0x130070, 0, 64⟩
/-! RCV_HOLD_RDPTR (14_recovery.md) -/
def RCV_HOLD_RDPTR_RDPTR : Field := ⟨0x130078, 0, 64⟩
/-! RCV_HOLD_LOST (14_recovery.md) -/
def RCV_HOLD_LOST_LOST : Field := ⟨0x130080, 0, 64⟩
/-! RCV_CAP_SEL (14_recovery.md) -/
def RCV_CAP_SEL_TARGET : Field := ⟨0x130088, 0, 6⟩
/-! RCV_CAP_INFO (14_recovery.md) -/
def RCV_CAP_INFO_VALID : Field := ⟨0x130090, 63, 1⟩
def RCV_CAP_INFO_CODE : Field := ⟨0x130090, 32, 16⟩
def RCV_CAP_INFO_CONTEXT : Field := ⟨0x130090, 0, 32⟩
/-! RCV_CAP_TIME (14_recovery.md) -/
def RCV_CAP_TIME_TIME : Field := ⟨0x130098, 0, 64⟩
/-! RCV_HB_CORE (14_recovery.md) -/
def RCV_HB_CORE_LAST_US (i : Nat) : Field := ⟨0x130100 + 0x8 * (i % 8), 32, 32⟩
def RCV_HB_CORE_COUNT (i : Nat) : Field := ⟨0x130100 + 0x8 * (i % 8), 0, 32⟩
/-! RCV_HB_HOST (14_recovery.md) -/
def RCV_HB_HOST_LAST_US (i : Nat) : Field := ⟨0x130200 + 0x8 * (i % 32), 32, 32⟩
def RCV_HB_HOST_COUNT (i : Nat) : Field := ⟨0x130200 + 0x8 * (i % 32), 0, 32⟩
/-! RCV_HB_HSRC (14_recovery.md) -/
def RCV_HB_HSRC_VALID (i : Nat) : Field := ⟨0x130300 + 0x8 * (i % 32), 15, 1⟩
def RCV_HB_HSRC_EVT (i : Nat) : Field := ⟨0x130300 + 0x8 * (i % 32), 0, 13⟩
/-! RCV_ORD_CMD (14_recovery.md) -/
def RCV_ORD_CMD_SEQ (i : Nat) : Field := ⟨0x131000 + 0x20 * (i % 4), 48, 16⟩
def RCV_ORD_CMD_TARGET (i : Nat) : Field := ⟨0x131000 + 0x20 * (i % 4), 16, 6⟩
def RCV_ORD_CMD_NOTICE (i : Nat) : Field := ⟨0x131000 + 0x20 * (i % 4), 5, 1⟩
def RCV_ORD_CMD_DUMP (i : Nat) : Field := ⟨0x131000 + 0x20 * (i % 4), 4, 1⟩
def RCV_ORD_CMD_OP (i : Nat) : Field := ⟨0x131000 + 0x20 * (i % 4), 1, 3⟩
def RCV_ORD_CMD_START (i : Nat) : Field := ⟨0x131000 + 0x20 * (i % 4), 0, 1⟩
/-! RCV_ORD_ARG (14_recovery.md) -/
def RCV_ORD_ARG_ARG (i : Nat) : Field := ⟨0x131008 + 0x20 * (i % 4), 0, 64⟩
/-! RCV_ORD_RESULT (14_recovery.md) -/
def RCV_ORD_RESULT_SEQ (i : Nat) : Field := ⟨0x131010 + 0x20 * (i % 4), 48, 16⟩
def RCV_ORD_RESULT_VALID (i : Nat) : Field := ⟨0x131010 + 0x20 * (i % 4), 32, 1⟩
def RCV_ORD_RESULT_FLAGS (i : Nat) : Field := ⟨0x131010 + 0x20 * (i % 4), 16, 7⟩
def RCV_ORD_RESULT_STATUS (i : Nat) : Field := ⟨0x131010 + 0x20 * (i % 4), 0, 8⟩
/-! RCV_EVT_OVERRUN (14_recovery.md) -/
def RCV_EVT_OVERRUN_COUNT : Field := ⟨0x13fff8, 0, 32⟩
/-! GBK_CTL (15_guestbook_ledger_strongbox.md) -/
def GBK_CTL_FLOOD_US : Field := ⟨0x140000, 0, 16⟩
/-! GBK_STATUS (15_guestbook_ledger_strongbox.md) -/
def GBK_STATUS_RUNNING : Field := ⟨0x140008, 40, 1⟩
def GBK_STATUS_SIZE_LOG : Field := ⟨0x140008, 32, 5⟩
def GBK_STATUS_QUEUED : Field := ⟨0x140008, 0, 9⟩
/-! GBK_HEAD (15_guestbook_ledger_strongbox.md) -/
def GBK_HEAD_HEAD : Field := ⟨0x140010, 0, 64⟩
/-! GBK_LOST (15_guestbook_ledger_strongbox.md) -/
def GBK_LOST_LOST : Field := ⟨0x140018, 0, 64⟩
/-! GBK_ERR (15_guestbook_ledger_strongbox.md) -/
def GBK_ERR_EXP_MEM : Field := ⟨0x140020, 3, 1⟩
def GBK_ERR_EXP_GAP : Field := ⟨0x140020, 2, 1⟩
def GBK_ERR_REPEAT_SAT : Field := ⟨0x140020, 1, 1⟩
def GBK_ERR_LOST : Field := ⟨0x140020, 0, 1⟩
/-! GBK_CURSOR (15_guestbook_ledger_strongbox.md) -/
def GBK_CURSOR_RECORD (i : Nat) : Field := ⟨0x140100 + 0x8 * (i % 4), 0, 64⟩
/-! GBK_EXP_CTL (15_guestbook_ledger_strongbox.md) -/
def GBK_EXP_CTL_ZLEVEL : Field := ⟨0x140200, 8, 4⟩
def GBK_EXP_CTL_FLUSH : Field := ⟨0x140200, 2, 1⟩
def GBK_EXP_CTL_ZSTD : Field := ⟨0x140200, 1, 1⟩
def GBK_EXP_CTL_EN : Field := ⟨0x140200, 0, 1⟩
/-! GBK_EXP_BASE (15_guestbook_ledger_strongbox.md) -/
def GBK_EXP_BASE_BASE : Field := ⟨0x140208, 12, 40⟩
/-! GBK_EXP_LIM (15_guestbook_ledger_strongbox.md) -/
def GBK_EXP_LIM_LIMIT : Field := ⟨0x140210, 12, 40⟩
/-! GBK_EXP_WRPTR (15_guestbook_ledger_strongbox.md) -/
def GBK_EXP_WRPTR_WRPTR : Field := ⟨0x140218, 0, 64⟩
/-! GBK_EXP_RDPTR (15_guestbook_ledger_strongbox.md) -/
def GBK_EXP_RDPTR_RDPTR : Field := ⟨0x140220, 0, 64⟩
/-! GBK_EXP_NEXT (15_guestbook_ledger_strongbox.md) -/
def GBK_EXP_NEXT_NEXT : Field := ⟨0x140228, 0, 64⟩
/-! GBK_EVT_OVERRUN (15_guestbook_ledger_strongbox.md) -/
def GBK_EVT_OVERRUN_COUNT : Field := ⟨0x14fff8, 0, 32⟩
/-! LDG_STATUS (15_guestbook_ledger_strongbox.md) -/
def LDG_STATUS_RUNNING : Field := ⟨0x150000, 40, 1⟩
def LDG_STATUS_QUEUED : Field := ⟨0x150000, 32, 7⟩
def LDG_STATUS_SIZE : Field := ⟨0x150000, 0, 17⟩
/-! LDG_SEQ (15_guestbook_ledger_strongbox.md) -/
def LDG_SEQ_SEQ : Field := ⟨0x150008, 0, 64⟩
/-! LDG_OVERWRITTEN (15_guestbook_ledger_strongbox.md) -/
def LDG_OVERWRITTEN_COUNT : Field := ⟨0x150010, 0, 64⟩
/-! LDG_CHAIN (15_guestbook_ledger_strongbox.md) -/
def LDG_CHAIN_CHAIN : Field := ⟨0x150018, 0, 32⟩
/-! LDG_RD_SEQ (15_guestbook_ledger_strongbox.md) -/
def LDG_RD_SEQ_SEQ : Field := ⟨0x150020, 0, 64⟩
/-! LDG_RD_DATA (15_guestbook_ledger_strongbox.md) -/
def LDG_RD_DATA_DATA (i : Nat) : Field := ⟨0x150028 + 0x8 * (i % 8), 0, 64⟩
/-! LDG_EVT_OVERRUN (15_guestbook_ledger_strongbox.md) -/
def LDG_EVT_OVERRUN_COUNT : Field := ⟨0x15fff8, 0, 32⟩
/-! SBX_CTL (15_guestbook_ledger_strongbox.md) -/
def SBX_CTL_EN : Field := ⟨0x160000, 0, 1⟩
/-! SBX_STATUS (15_guestbook_ledger_strongbox.md) -/
def SBX_STATUS_LAST_SEQ : Field := ⟨0x160008, 32, 32⟩
def SBX_STATUS_RESTORE : Field := ⟨0x160008, 8, 3⟩
def SBX_STATUS_RESTORED_SLOT : Field := ⟨0x160008, 1, 1⟩
def SBX_STATUS_NEXT_SLOT : Field := ⟨0x160008, 0, 1⟩
/-! SBX_VACK (15_guestbook_ledger_strongbox.md) -/
def SBX_VACK_SEQ : Field := ⟨0x160010, 0, 32⟩
/-! SBX_VSTORE (15_guestbook_ledger_strongbox.md) -/
def SBX_VSTORE_NEXT_SEQ : Field := ⟨0x160018, 32, 32⟩
def SBX_VSTORE_OVERWRITTEN : Field := ⟨0x160018, 16, 16⟩
def SBX_VSTORE_COUNT : Field := ⟨0x160018, 0, 9⟩
/-! SBX_FRAME_ADDR (15_guestbook_ledger_strongbox.md) -/
def SBX_FRAME_ADDR_WORD : Field := ⟨0x160020, 0, 13⟩
/-! SBX_FRAME_DATA (15_guestbook_ledger_strongbox.md) -/
def SBX_FRAME_DATA_DATA : Field := ⟨0x160028, 0, 64⟩
/-! SBX_EVT_OVERRUN (15_guestbook_ledger_strongbox.md) -/
def SBX_EVT_OVERRUN_COUNT : Field := ⟨0x16fff8, 0, 32⟩
/-! CTL_STATUS (16_control_complex.md) -/
def CTL_STATUS_SWITCH_REQ : Field := ⟨0x170000, 24, 1⟩
def CTL_STATUS_FW_STATE : Field := ⟨0x170000, 16, 2⟩
def CTL_STATUS_HALTED : Field := ⟨0x170000, 8, 8⟩
def CTL_STATUS_RUNNING : Field := ⟨0x170000, 0, 8⟩
/-! CTL_FW_CTL (16_control_complex.md) -/
def CTL_FW_CTL_PREFER_B : Field := ⟨0x170008, 0, 1⟩
/-! CTL_FW_CMD (16_control_complex.md) -/
def CTL_FW_CMD_SEQ : Field := ⟨0x170010, 48, 16⟩
def CTL_FW_CMD_SLOT : Field := ⟨0x170010, 3, 1⟩
def CTL_FW_CMD_OP : Field := ⟨0x170010, 1, 2⟩
def CTL_FW_CMD_START : Field := ⟨0x170010, 0, 1⟩
/-! CTL_FW_RESULT (16_control_complex.md) -/
def CTL_FW_RESULT_SEQ : Field := ⟨0x170018, 48, 16⟩
def CTL_FW_RESULT_VALID : Field := ⟨0x170018, 32, 1⟩
def CTL_FW_RESULT_STATUS : Field := ⟨0x170018, 0, 8⟩
/-! CTL_FW_INFO (16_control_complex.md) -/
def CTL_FW_INFO_STAGED : Field := ⟨0x170020, 32, 32⟩
def CTL_FW_INFO_AREA : Field := ⟨0x170020, 1, 1⟩
def CTL_FW_INFO_SLOT : Field := ⟨0x170020, 0, 1⟩
/-! CTL_FW_READY (16_control_complex.md) -/
def CTL_FW_READY_READY : Field := ⟨0x170028, 0, 64⟩
/-! CTL_MODE_CMD (16_control_complex.md) -/
def CTL_MODE_CMD_SEQ : Field := ⟨0x170030, 48, 16⟩
def CTL_MODE_CMD_FUNC : Field := ⟨0x170030, 4, 4⟩
def CTL_MODE_CMD_MODE : Field := ⟨0x170030, 1, 1⟩
def CTL_MODE_CMD_START : Field := ⟨0x170030, 0, 1⟩
/-! CTL_MODE_RESULT (16_control_complex.md) -/
def CTL_MODE_RESULT_SEQ : Field := ⟨0x170038, 48, 16⟩
def CTL_MODE_RESULT_VALID : Field := ⟨0x170038, 32, 1⟩
def CTL_MODE_RESULT_STATUS : Field := ⟨0x170038, 0, 8⟩
/-! CTL_MODE_BUF (16_control_complex.md) -/
def CTL_MODE_BUF_PAGE : Field := ⟨0x170040, 12, 40⟩
/-! CTL_CW_STATUS (16_control_complex.md) -/
def CTL_CW_STATUS_DONE : Field := ⟨0x170048, 16, 16⟩
def CTL_CW_STATUS_POSTED : Field := ⟨0x170048, 0, 16⟩
/-! CTL_ERR (16_control_complex.md) -/
def CTL_ERR_CW_BUSY : Field := ⟨0x170050, 0, 1⟩
/-! CTL_EVT_OVERRUN (16_control_complex.md) -/
def CTL_EVT_OVERRUN_COUNT : Field := ⟨0x17fff8, 0, 32⟩
/-! SYN_ERR (16_control_complex.md) -/
def SYN_ERR_TASK_END : Field := ⟨0x180000, 2, 1⟩
def SYN_ERR_EXT_SIGNAL : Field := ⟨0x180000, 1, 1⟩
def SYN_ERR_OVERFLOW : Field := ⟨0x180000, 0, 1⟩
/-! SYN_SIGNAL (16_control_complex.md) -/
def SYN_SIGNAL_AMOUNT : Field := ⟨0x180008, 8, 32⟩
def SYN_SIGNAL_OBJECT : Field := ⟨0x180008, 0, 8⟩
/-! SYN_VIOLATION (16_control_complex.md) -/
def SYN_VIOLATION_OBJECT : Field := ⟨0x180010, 0, 8⟩
/-! SYN_WAIT_ARG (16_control_complex.md) -/
def SYN_WAIT_ARG_TIMEOUT (i : Nat) : Field := ⟨0x180100 + 0x10 * (i % 8), 48, 16⟩
def SYN_WAIT_ARG_AMOUNT (i : Nat) : Field := ⟨0x180100 + 0x10 * (i % 8), 8, 32⟩
def SYN_WAIT_ARG_OBJECT (i : Nat) : Field := ⟨0x180100 + 0x10 * (i % 8), 0, 8⟩
/-! SYN_WAIT_GO (16_control_complex.md) -/
def SYN_WAIT_GO_GRANTED (i : Nat) : Field := ⟨0x180108 + 0x10 * (i % 8), 0, 1⟩
/-! SYN_MAP (16_control_complex.md) -/
def SYN_MAP_VALID (i : Nat) : Field := ⟨0x180200 + 0x8 * (i % 64), 63, 1⟩
def SYN_MAP_AMOUNT (i : Nat) : Field := ⟨0x180200 + 0x8 * (i % 64), 16, 32⟩
def SYN_MAP_SOURCE (i : Nat) : Field := ⟨0x180200 + 0x8 * (i % 64), 8, 8⟩
def SYN_MAP_OBJECT (i : Nat) : Field := ⟨0x180200 + 0x8 * (i % 64), 0, 8⟩
/-! SYN_OBJ_VIEW0 (16_control_complex.md) -/
def SYN_OBJ_VIEW0_HEAD (i : Nat) : Field := ⟨0x181000 + 0x20 * (i % 256), 40, 3⟩
def SYN_OBJ_VIEW0_WAITERS (i : Nat) : Field := ⟨0x181000 + 0x20 * (i % 256), 32, 8⟩
def SYN_OBJ_VIEW0_VALUE (i : Nat) : Field := ⟨0x181000 + 0x20 * (i % 256), 0, 32⟩
/-! SYN_OBJ_VIEW1 (16_control_complex.md) -/
def SYN_OBJ_VIEW1_LAST_TIME (i : Nat) : Field := ⟨0x181008 + 0x20 * (i % 256), 32, 32⟩
def SYN_OBJ_VIEW1_LAST_AGENT (i : Nat) : Field := ⟨0x181008 + 0x20 * (i % 256), 0, 8⟩
/-! SYN_OBJ_VIEW2 (16_control_complex.md) -/
def SYN_OBJ_VIEW2_SET (i : Nat) : Field := ⟨0x181010 + 0x20 * (i % 256), 0, 32⟩
/-! SYN_EVT_OVERRUN (16_control_complex.md) -/
def SYN_EVT_OVERRUN_COUNT : Field := ⟨0x18fff8, 0, 32⟩
/-! IRQ_SW_SET (16_control_complex.md) -/
def IRQ_SW_SET_SOURCE : Field := ⟨0x190000, 0, 10⟩
/-! IRQ_DONE (16_control_complex.md) -/
def IRQ_DONE_SOURCE : Field := ⟨0x190008, 0, 10⟩
/-! IRQ_GRP_OUT (16_control_complex.md) -/
def IRQ_GRP_OUT_OUT : Field := ⟨0x190010, 0, 64⟩
/-! IRQ_PEND (16_control_complex.md) -/
def IRQ_PEND_PEND (i : Nat) : Field := ⟨0x191000 + 0x8 * (i % 16), 0, 64⟩
/-! IRQ_MASK (16_control_complex.md) -/
def IRQ_MASK_MASK (i : Nat) : Field := ⟨0x191100 + 0x8 * (i % 16), 0, 64⟩
/-! IRQ_ACTIVE (16_control_complex.md) -/
def IRQ_ACTIVE_ACTIVE (i : Nat) : Field := ⟨0x191200 + 0x8 * (i % 16), 0, 64⟩
/-! IRQ_GRP_CTL (16_control_complex.md) -/
def IRQ_GRP_CTL_TGT_KIND (i : Nat) : Field := ⟨0x192000 + 0x8 * (i % 64), 20, 4⟩
def IRQ_GRP_CTL_TARGET (i : Nat) : Field := ⟨0x192000 + 0x8 * (i % 64), 16, 3⟩
def IRQ_GRP_CTL_HOLDOFF (i : Nat) : Field := ⟨0x192000 + 0x8 * (i % 64), 0, 16⟩
/-! IRQ_SRC_CFG (16_control_complex.md) -/
def IRQ_SRC_CFG_CLASS (i : Nat) : Field := ⟨0x194000 + 0x8 * (i % 1024), 8, 1⟩
def IRQ_SRC_CFG_MAPPED (i : Nat) : Field := ⟨0x194000 + 0x8 * (i % 1024), 7, 1⟩
def IRQ_SRC_CFG_GROUP (i : Nat) : Field := ⟨0x194000 + 0x8 * (i % 1024), 0, 6⟩
/-! IRQ_EVT_OVERRUN (16_control_complex.md) -/
def IRQ_EVT_OVERRUN_COUNT : Field := ⟨0x19fff8, 0, 32⟩
/-! PWR_CMD (17_power_states.md) -/
def PWR_CMD_SEQ : Field := ⟨0x1a0000, 48, 16⟩
def PWR_CMD_ALLOW_SPAN : Field := ⟨0x1a0000, 8, 1⟩
def PWR_CMD_TARGET : Field := ⟨0x1a0000, 4, 3⟩
def PWR_CMD_START : Field := ⟨0x1a0000, 0, 1⟩
/-! PWR_RESULT (17_power_states.md) -/
def PWR_RESULT_SEQ : Field := ⟨0x1a0008, 48, 16⟩
def PWR_RESULT_VALID : Field := ⟨0x1a0008, 32, 1⟩
def PWR_RESULT_REASON : Field := ⟨0x1a0008, 24, 8⟩
def PWR_RESULT_UNIT : Field := ⟨0x1a0008, 16, 8⟩
def PWR_RESULT_STATUS : Field := ⟨0x1a0008, 0, 8⟩
/-! PWR_STATUS (17_power_states.md) -/
def PWR_STATUS_ENTRIES : Field := ⟨0x1a0010, 32, 32⟩
def PWR_STATUS_PHASE : Field := ⟨0x1a0010, 4, 2⟩
def PWR_STATUS_STATE : Field := ⟨0x1a0010, 0, 3⟩
/-! PWR_WAKE_EN (17_power_states.md) -/
def PWR_WAKE_EN_EN : Field := ⟨0x1a0018, 0, 8⟩
/-! PWR_WAKE_TIMER (17_power_states.md) -/
def PWR_WAKE_TIMER_TB2_NS : Field := ⟨0x1a0020, 0, 64⟩
/-! PWR_TIMING (17_power_states.md) -/
def PWR_TIMING_DELAY_MAX : Field := ⟨0x1a0028, 0, 16⟩
/-! PWR_LAST_WAKE (17_power_states.md) -/
def PWR_LAST_WAKE_TIME : Field := ⟨0x1a0030, 32, 32⟩
def PWR_LAST_WAKE_SOURCE : Field := ⟨0x1a0030, 8, 8⟩
def PWR_LAST_WAKE_FROM : Field := ⟨0x1a0030, 4, 3⟩
def PWR_LAST_WAKE_PHASE : Field := ⟨0x1a0030, 0, 2⟩
/-! PWR_CORE_ACK (17_power_states.md) -/
def PWR_CORE_ACK_ANSWER : Field := ⟨0x1a0038, 0, 2⟩
/-! PWR_STEP (17_power_states.md) -/
def PWR_STEP_SEQ : Field := ⟨0x1a0040, 48, 16⟩
def PWR_STEP_UNIT : Field := ⟨0x1a0040, 16, 8⟩
def PWR_STEP_TARGET : Field := ⟨0x1a0040, 4, 3⟩
def PWR_STEP_ACTION : Field := ⟨0x1a0040, 1, 3⟩
def PWR_STEP_START : Field := ⟨0x1a0040, 0, 1⟩
/-! PWR_STEP_RESULT (17_power_states.md) -/
def PWR_STEP_RESULT_SEQ : Field := ⟨0x1a0048, 48, 16⟩
def PWR_STEP_RESULT_VALID : Field := ⟨0x1a0048, 32, 1⟩
def PWR_STEP_RESULT_REASON : Field := ⟨0x1a0048, 8, 8⟩
def PWR_STEP_RESULT_ANSWER : Field := ⟨0x1a0048, 0, 2⟩
/-! PWR_ERR (17_power_states.md) -/
def PWR_ERR_ABORTED : Field := ⟨0x1a0050, 2, 1⟩
def PWR_ERR_TIMEOUT : Field := ⟨0x1a0050, 1, 1⟩
def PWR_ERR_REFUSED : Field := ⟨0x1a0050, 0, 1⟩
/-! PHU_STATUS (17_power_states.md) -/
def PHU_STATUS_RET_EN : Field := ⟨0x1a0058, 3, 1⟩
def PHU_STATUS_SAVE_DONE : Field := ⟨0x1a0058, 2, 1⟩
def PHU_STATUS_SAVE_PG : Field := ⟨0x1a0058, 1, 1⟩
def PHU_STATUS_PFW_N : Field := ⟨0x1a0058, 0, 1⟩
/-! PWR_EVT_OVERRUN (17_power_states.md) -/
def PWR_EVT_OVERRUN_COUNT : Field := ⟨0x1afff8, 0, 32⟩
/-! LTN_CTL (18_trace_and_debug.md) -/
def LTN_CTL_SOFT : Field := ⟨0x1b0000, 24, 8⟩
def LTN_CTL_SYNC_KIB : Field := ⟨0x1b0000, 16, 8⟩
def LTN_CTL_CORE_EN : Field := ⟨0x1b0000, 8, 8⟩
def LTN_CTL_ARM : Field := ⟨0x1b0000, 1, 1⟩
def LTN_CTL_EN : Field := ⟨0x1b0000, 0, 1⟩
/-! LTN_STATUS (18_trace_and_debug.md) -/
def LTN_STATUS_FROZEN : Field := ⟨0x1b0008, 5, 1⟩
def LTN_STATUS_TRIGGERED : Field := ⟨0x1b0008, 4, 1⟩
def LTN_STATUS_STATE : Field := ⟨0x1b0008, 0, 2⟩
/-! LTN_SINK (18_trace_and_debug.md) -/
def LTN_SINK_STAGE_RSV : Field := ⟨0x1b0010, 32, 8⟩
def LTN_SINK_RESERVE : Field := ⟨0x1b0010, 16, 16⟩
def LTN_SINK_MODE : Field := ⟨0x1b0010, 2, 1⟩
def LTN_SINK_KIND : Field := ⟨0x1b0010, 0, 2⟩
/-! LTN_RING_BASE (18_trace_and_debug.md) -/
def LTN_RING_BASE_BASE : Field := ⟨0x1b0018, 0, 32⟩
/-! LTN_RING_SIZE (18_trace_and_debug.md) -/
def LTN_RING_SIZE_SIZE : Field := ⟨0x1b0020, 0, 32⟩
/-! LTN_WRPTR (18_trace_and_debug.md) -/
def LTN_WRPTR_WRPTR : Field := ⟨0x1b0028, 0, 64⟩
/-! LTN_RDPTR (18_trace_and_debug.md) -/
def LTN_RDPTR_RDPTR : Field := ⟨0x1b0030, 0, 64⟩
/-! LTN_MARK (18_trace_and_debug.md) -/
def LTN_MARK_MARK : Field := ⟨0x1b0038, 0, 64⟩
/-! LTN_LOST (18_trace_and_debug.md) -/
def LTN_LOST_LOST : Field := ⟨0x1b0040, 0, 64⟩
/-! LTN_ERR (18_trace_and_debug.md) -/
def LTN_ERR_CFG : Field := ⟨0x1b0048, 1, 1⟩
def LTN_ERR_OVERFLOW : Field := ⟨0x1b0048, 0, 1⟩
/-! LTN_COMP_CTL (18_trace_and_debug.md) -/
def LTN_COMP_CTL_CORE_MASK (i : Nat) : Field := ⟨0x1b0100 + 0x20 * (i % 8), 8, 8⟩
def LTN_COMP_CTL_KIND (i : Nat) : Field := ⟨0x1b0100 + 0x20 * (i % 8), 0, 3⟩
/-! LTN_COMP_LO (18_trace_and_debug.md) -/
def LTN_COMP_LO_LO (i : Nat) : Field := ⟨0x1b0108 + 0x20 * (i % 8), 0, 64⟩
/-! LTN_COMP_HI (18_trace_and_debug.md) -/
def LTN_COMP_HI_HI (i : Nat) : Field := ⟨0x1b0110 + 0x20 * (i % 8), 0, 64⟩
/-! LTN_STATE (18_trace_and_debug.md) -/
def LTN_STATE_NEXT_B (i : Nat) : Field := ⟨0x1b0200 + 0x8 * (i % 4), 24, 2⟩
def LTN_STATE_MASK_B (i : Nat) : Field := ⟨0x1b0200 + 0x8 * (i % 4), 16, 8⟩
def LTN_STATE_NEXT_A (i : Nat) : Field := ⟨0x1b0200 + 0x8 * (i % 4), 12, 2⟩
def LTN_STATE_MASK_A (i : Nat) : Field := ⟨0x1b0200 + 0x8 * (i % 4), 4, 8⟩
def LTN_STATE_TRIGGER (i : Nat) : Field := ⟨0x1b0200 + 0x8 * (i % 4), 1, 1⟩
def LTN_STATE_TRACE (i : Nat) : Field := ⟨0x1b0200 + 0x8 * (i % 4), 0, 1⟩
/-! LTN_EVT_OVERRUN (18_trace_and_debug.md) -/
def LTN_EVT_OVERRUN_COUNT : Field := ⟨0x1bfff8, 0, 32⟩
/-! DBG_AUTH_CTL (18_trace_and_debug.md) -/
def DBG_AUTH_CTL_REVOKE : Field := ⟨0x1c0000, 1, 1⟩
def DBG_AUTH_CTL_START : Field := ⟨0x1c0000, 0, 1⟩
/-! DBG_AUTH_DATA (18_trace_and_debug.md) -/
def DBG_AUTH_DATA_DATA : Field := ⟨0x1c0008, 0, 64⟩
/-! DBG_AUTH_INFO (18_trace_and_debug.md) -/
def DBG_AUTH_INFO_VALID : Field := ⟨0x1c0010, 63, 1⟩
def DBG_AUTH_INFO_STATUS : Field := ⟨0x1c0010, 48, 3⟩
def DBG_AUTH_INFO_SCOPE : Field := ⟨0x1c0010, 40, 3⟩
def DBG_AUTH_INFO_NOT_AFTER : Field := ⟨0x1c0010, 0, 40⟩
/-! DBG_CORE_CTL (18_trace_and_debug.md) -/
def DBG_CORE_CTL_CORE : Field := ⟨0x1c0018, 16, 3⟩
def DBG_CORE_CTL_HALTED : Field := ⟨0x1c0018, 8, 8⟩
def DBG_CORE_CTL_RESUME : Field := ⟨0x1c0018, 2, 1⟩
def DBG_CORE_CTL_STEP : Field := ⟨0x1c0018, 1, 1⟩
def DBG_CORE_CTL_HALT : Field := ⟨0x1c0018, 0, 1⟩
/-! DBG_CORE_PC (18_trace_and_debug.md) -/
def DBG_CORE_PC_PC : Field := ⟨0x1c0020, 0, 64⟩
/-! DBG_CORE_REG (18_trace_and_debug.md) -/
def DBG_CORE_REG_REG (i : Nat) : Field := ⟨0x1c0108 + 0x8 * (i % 31), 0, 64⟩
/-! DBG_ERR (18_trace_and_debug.md) -/
def DBG_ERR_TAP_BUSY : Field := ⟨0x1c0028, 0, 1⟩
/-! DBG_EVT_OVERRUN (18_trace_and_debug.md) -/
def DBG_EVT_OVERRUN_COUNT : Field := ⟨0x1cfff8, 0, 32⟩
/-! KSP_CFG (04_outward_ports.md) -/
def KSP_CFG_CS1_DUMMY : Field := ⟨0x1d0000, 8, 8⟩
def KSP_CFG_CS0_DUMMY : Field := ⟨0x1d0000, 0, 8⟩
/-! KSP_STATUS (04_outward_ports.md) -/
def KSP_STATUS_OWNER : Field := ⟨0x1d0008, 4, 3⟩
def KSP_STATUS_CS1_PRESENT : Field := ⟨0x1d0008, 1, 1⟩
def KSP_STATUS_CS0_PRESENT : Field := ⟨0x1d0008, 0, 1⟩
/-! KSP_CMD (04_outward_ports.md) -/
def KSP_CMD_SEQ : Field := ⟨0x1d0010, 48, 16⟩
def KSP_CMD_LEN_M1 : Field := ⟨0x1d0010, 32, 8⟩
def KSP_CMD_CS : Field := ⟨0x1d0010, 3, 1⟩
def KSP_CMD_OP : Field := ⟨0x1d0010, 1, 2⟩
def KSP_CMD_START : Field := ⟨0x1d0010, 0, 1⟩
/-! KSP_CMD_ADDR (04_outward_ports.md) -/
def KSP_CMD_ADDR_ADDR : Field := ⟨0x1d0018, 0, 32⟩
/-! KSP_CMD_RESULT (04_outward_ports.md) -/
def KSP_CMD_RESULT_SEQ : Field := ⟨0x1d0020, 48, 16⟩
def KSP_CMD_RESULT_VALID : Field := ⟨0x1d0020, 32, 1⟩
def KSP_CMD_RESULT_STATUS : Field := ⟨0x1d0020, 0, 8⟩
/-! KSP_ERR (04_outward_ports.md) -/
def KSP_ERR_PREEMPTED : Field := ⟨0x1d0028, 4, 1⟩
def KSP_ERR_TMO : Field := ⟨0x1d0028, 3, 1⟩
def KSP_ERR_DEV_ERR : Field := ⟨0x1d0028, 2, 1⟩
def KSP_ERR_PROT : Field := ⟨0x1d0028, 1, 1⟩
def KSP_ERR_ABSENT : Field := ⟨0x1d0028, 0, 1⟩
/-! KSP_CMD_DATA (04_outward_ports.md) -/
def KSP_CMD_DATA_DATA (i : Nat) : Field := ⟨0x1d0100 + 0x8 * (i % 32), 0, 64⟩
/-! KSP_EVT_OVERRUN (04_outward_ports.md) -/
def KSP_EVT_OVERRUN_COUNT : Field := ⟨0x1dfff8, 0, 32⟩
/-! TGAW_ADDR (07_caravan_reduction.md) -/
def TGAW_ADDR_TGA (i : Nat) : Field := ⟨0x500000 + 0x40 * (i % 16), 0, 64⟩
/-! TGAW_CTL (07_caravan_reduction.md) -/
def TGAW_CTL_SEQ (i : Nat) : Field := ⟨0x500008 + 0x40 * (i % 16), 48, 16⟩
def TGAW_CTL_WRITE (i : Nat) : Field := ⟨0x500008 + 0x40 * (i % 16), 2, 1⟩
def TGAW_CTL_GO (i : Nat) : Field := ⟨0x500008 + 0x40 * (i % 16), 0, 1⟩
/-! TGAW_WDATA (07_caravan_reduction.md) -/
def TGAW_WDATA_DATA (i : Nat) : Field := ⟨0x500010 + 0x40 * (i % 16), 0, 64⟩
/-! TGAW_RESULT (07_caravan_reduction.md) -/
def TGAW_RESULT_SEQ (i : Nat) : Field := ⟨0x500018 + 0x40 * (i % 16), 48, 16⟩
def TGAW_RESULT_VALID (i : Nat) : Field := ⟨0x500018 + 0x40 * (i % 16), 32, 1⟩
def TGAW_RESULT_CACHE (i : Nat) : Field := ⟨0x500018 + 0x40 * (i % 16), 16, 1⟩
def TGAW_RESULT_STATUS (i : Nat) : Field := ⟨0x500018 + 0x40 * (i % 16), 0, 8⟩
/-! TGAW_DATA (07_caravan_reduction.md) -/
def TGAW_DATA_VALUE (i : Nat) : Field := ⟨0x500020 + 0x40 * (i % 16), 0, 64⟩
/-! TGAW_EPOCH (07_caravan_reduction.md) -/
def TGAW_EPOCH_EPOCH (i : Nat) : Field := ⟨0x500028 + 0x40 * (i % 16), 0, 48⟩
/-! TGAW_FROM (07_caravan_reduction.md) -/
def TGAW_FROM_ANSWERER (i : Nat) : Field := ⟨0x500030 + 0x40 * (i % 16), 0, 27⟩
/-! CW_WORD31 (16_control_complex.md) -/
def CW_WORD31_SEQ (i : Nat) : Field := ⟨0x5800f8 + 0x100 * (i % 16), 48, 16⟩
/-! CW_WORD0 (16_control_complex.md) -/
def CW_WORD0_SEQ (i : Nat) : Field := ⟨0x580000 + 0x100 * (i % 16), 48, 16⟩
def CW_WORD0_OP (i : Nat) : Field := ⟨0x580000 + 0x100 * (i % 16), 0, 8⟩
/-! CW_WORD (16_control_complex.md) -/
def CW_WORD_ARG (i : Nat) : Field := ⟨0x580000 + 0x8 * (i % 512), 0, 64⟩
/-! CW_RESULT (16_control_complex.md) -/
def CW_RESULT_SEQ (i : Nat) : Field := ⟨0x581000 + 0x20 * (i % 16), 48, 16⟩
def CW_RESULT_VALID (i : Nat) : Field := ⟨0x581000 + 0x20 * (i % 16), 32, 1⟩
def CW_RESULT_STATUS (i : Nat) : Field := ⟨0x581000 + 0x20 * (i % 16), 0, 8⟩
/-! CW_RDATA0 (16_control_complex.md) -/
def CW_RDATA0_DATA (i : Nat) : Field := ⟨0x581008 + 0x20 * (i % 16), 0, 64⟩
/-! CW_RDATA1 (16_control_complex.md) -/
def CW_RDATA1_DATA (i : Nat) : Field := ⟨0x581010 + 0x20 * (i % 16), 0, 64⟩
/-! CW_RDATA2 (16_control_complex.md) -/
def CW_RDATA2_DATA (i : Nat) : Field := ⟨0x581018 + 0x20 * (i % 16), 0, 64⟩
end F
end Sys2Proof.Machine
end

