-- ==== Sys2Proof/Machine/RegTable.lean ====
section
/-!
DEFINITION. The register map as data (R715 to R718 and the field tables of every chapter): one row for each register
name, with its offset in the 16 MiB window, the stride and the number of its copies, its privileges, and its fields.
The rows were written out from the tables of spec/ page by page.
-/
namespace Sys2Proof.Machine
open Access

/-- Registers at offsets 0x00_0000 to 0x00_FFFF. -/
def regPage00 : List RegRow := [
  -- GLB_VERSION
  ⟨0x000000, 0x0, 1, 1, 1, none, .D, false, [⟨32, 32, .ro, 0xb71⟩, ⟨24, 8, .ro, 3⟩, ⟨16, 8, .ro, 2⟩, ⟨8, 8, .ro, 0⟩]⟩,
  -- GLB_PERSONALITY
  ⟨0x000008, 0x0, 1, 1, 1, none, .D, false, [⟨48, 5, .ro, 0⟩, ⟨36, 7, .ro, 0⟩, ⟨33, 3, .ro, 0⟩, ⟨30, 3, .ro, 0⟩, ⟨24, 6, .ro, 0⟩, ⟨20, 4, .ro, 0⟩, ⟨2, 3, .ro, 0⟩, ⟨0, 2, .ro, 0⟩]⟩,
  -- GLB_CHIP_ID_LO
  ⟨0x000010, 0x0, 1, 1, 1, none, .D, false, [⟨0, 64, .ro, 0⟩]⟩,
  -- GLB_CHIP_ID_HI
  ⟨0x000018, 0x0, 1, 1, 1, none, .D, false, [⟨0, 64, .ro, 0⟩]⟩,
  -- GLB_INSTANCE_POS
  ⟨0x000020, 0x0, 1, 1, 1, none, .D, false, [⟨31, 1, .ro, 0⟩, ⟨24, 3, .ro, 0⟩, ⟨0, 24, .ro, 0⟩]⟩,
  -- GLB_FUNC_MODE
  ⟨0x000028, 0x0, 1, 1, 1, none, .D, false, [⟨0, 9, .roV, 0⟩]⟩,
  -- GLB_ERR_STATUS
  ⟨0x000030, 0x0, 1, 1, 1, (some .D), .D, false, [⟨3, 1, .w1c, 0⟩, ⟨2, 1, .w1c, 0⟩, ⟨1, 1, .w1c, 0⟩, ⟨0, 1, .w1c, 0⟩]⟩,
  -- GLB_ERR_ADDR
  ⟨0x000038, 0x0, 1, 1, 1, none, .D, false, [⟨40, 2, .roV, 0⟩, ⟨24, 16, .roV, 0⟩, ⟨0, 24, .roV, 0⟩]⟩,
  -- GLB_EVT_OVERRUN
  ⟨0x00fff8, 0x0, 1, 1, 1, none, .D, false, [⟨0, 32, .roV, 0⟩]⟩]

/-- Registers at offsets 0x01_0000 to 0x01_FFFF. -/
def regPage01 : List RegRow := [
  -- ITN_STATUS
  ⟨0x010000, 0x0, 1, 1, 1, none, .D, false, [⟨32, 8, .roV, 0⟩, ⟨10, 2, .roV, 0⟩, ⟨0, 4, .roV, 0⟩]⟩,
  -- ITN_BOOT_CTL
  ⟨0x010008, 0x0, 1, 1, 1, (some .F), .D, false, [⟨1, 1, .rws, 0⟩, ⟨0, 1, .rws, 0⟩]⟩,
  -- ITN_IMAGE_INFO
  ⟨0x010010, 0x0, 1, 1, 1, none, .D, false, [⟨32, 32, .roV, 0⟩, ⟨8, 24, .roV, 0⟩, ⟨0, 8, .roV, 0⟩]⟩,
  -- ITN_DIGEST
  ⟨0x010018, 0x8, 6, 6, 6, none, .D, false, [⟨0, 64, .roV, 0⟩]⟩,
  -- ITN_SIGNER
  ⟨0x010048, 0x0, 1, 1, 1, none, .D, false, [⟨0, 64, .roV, 0⟩]⟩,
  -- ITN_PUSH_CTL
  ⟨0x010050, 0x0, 1, 1, 1, (some .D), .D, false, [⟨32, 24, .rw, 0⟩, ⟨2, 1, .w1s, 0⟩, ⟨1, 1, .rw, 0⟩, ⟨0, 1, .w1s, 0⟩]⟩,
  -- ITN_PUSH_DATA
  ⟨0x010058, 0x0, 1, 1, 1, (some .D), .D, false, [⟨0, 64, .wo, 0⟩]⟩,
  -- ITN_OVL_STATUS
  ⟨0x010060, 0x0, 1, 1, 1, none, .D, false, [⟨32, 32, .roV, 0⟩, ⟨16, 16, .roV, 0⟩, ⟨7, 1, .roV, 0⟩, ⟨0, 4, .roV, 0⟩]⟩,
  -- ITN_OVL_CTL
  ⟨0x010068, 0x0, 1, 1, 1, (some .F), .D, false, [⟨16, 16, .rw, 0x64⟩, ⟨0, 16, .rw, 0x2710⟩]⟩,
  -- ITN_ERR
  ⟨0x010070, 0x0, 1, 1, 1, (some .D), .D, false, [⟨3, 1, .w1c, 0⟩, ⟨2, 1, .w1c, 0⟩, ⟨1, 1, .w1c, 0⟩, ⟨0, 1, .w1c, 0⟩]⟩,
  -- ITN_EVT_OVERRUN
  ⟨0x01fff8, 0x0, 1, 1, 1, none, .D, false, [⟨0, 32, .roV, 0⟩]⟩]

/-- Registers at offsets 0x02_0000 to 0x02_FFFF. -/
def regPage02 : List RegRow := [
  -- CLK_STATUS
  ⟨0x020000, 0x0, 1, 1, 1, none, .D, false, [⟨8, 4, .roV, 0⟩, ⟨2, 1, .roV, 0⟩, ⟨1, 1, .roV, 0⟩, ⟨0, 1, .roV, 0⟩]⟩,
  -- CLK_RST_CTL
  ⟨0x020008, 0x0, 1, 1, 1, (some .F), .D, false, [⟨7, 1, .w1s, 0⟩, ⟨6, 1, .w1s, 0⟩, ⟨5, 1, .w1s, 0⟩, ⟨4, 1, .w1s, 0⟩, ⟨3, 1, .w1s, 0⟩, ⟨2, 1, .w1s, 0⟩, ⟨1, 1, .w1s, 0⟩, ⟨0, 1, .w1s, 0⟩]⟩,
  -- CLK_DOMAIN_STATUS
  ⟨0x020010, 0x0, 1, 1, 1, none, .D, false, [⟨8, 4, .roV, 0xf⟩, ⟨0, 7, .roV, 0x7f⟩]⟩,
  -- CLK_GATE_STATUS
  ⟨0x020018, 0x0, 1, 1, 1, none, .D, false, [⟨4, 1, .roV, 0⟩, ⟨3, 1, .roV, 0⟩, ⟨2, 1, .roV, 0⟩, ⟨1, 1, .roV, 0⟩, ⟨0, 1, .roV, 0⟩]⟩,
  -- CLK_MON
  ⟨0x020020, 0x0, 1, 1, 1, (some .F), .D, false, [⟨32, 16, .rw, 0x86⟩, ⟨0, 32, .roV, 0⟩]⟩,
  -- CLK_ERR
  ⟨0x020028, 0x0, 1, 1, 1, (some .D), .D, false, [⟨1, 1, .w1c, 0⟩, ⟨0, 1, .w1c, 0⟩]⟩,
  -- CLK_XING_RESYNC
  ⟨0x020030, 0x0, 1, 1, 1, none, .D, false, [⟨48, 16, .roV, 0⟩, ⟨32, 16, .roV, 0⟩, ⟨16, 16, .roV, 0⟩, ⟨0, 16, .roV, 0⟩]⟩,
  -- CLK_EVT_OVERRUN
  ⟨0x02fff8, 0x0, 1, 1, 1, none, .D, false, [⟨0, 32, .roV, 0⟩]⟩]

/-- Registers at offsets 0x03_0000 to 0x03_FFFF. -/
def regPage03 : List RegRow := [
  -- EOP_CTL
  ⟨0x030000, 0x0, 1, 1, 1, (some .F), .D, false, [⟨24, 20, .rwl, 0⟩, ⟨2, 1, .rwl, 0⟩, ⟨1, 1, .rwl, 0⟩, ⟨0, 1, .rwl, 0⟩]⟩,
  -- EOP_STATUS
  ⟨0x030008, 0x0, 1, 1, 1, none, .D, false, [⟨32, 9, .roV, 0⟩, ⟨16, 7, .roV, 0⟩, ⟨8, 5, .roV, 0⟩, ⟨0, 1, .roV, 0⟩]⟩,
  -- EOP_FENCE_CTL
  ⟨0x030010, 0x0, 1, 1, 1, (some .F), .D, false, [⟨16, 16, .rw, 0x3e8⟩, ⟨0, 16, .rw, 0xa⟩]⟩,
  -- EOP_FENCE_STATE0
  ⟨0x030018, 0x0, 1, 1, 1, none, .D, false, [⟨32, 32, .roV, 0⟩, ⟨0, 32, .roV, 0⟩]⟩,
  -- EOP_FENCE_STATE1
  ⟨0x030020, 0x0, 1, 1, 1, none, .D, false, [⟨32, 32, .roV, 0⟩, ⟨0, 32, .roV, 0⟩]⟩,
  -- EOP_SEED
  ⟨0x030028, 0x0, 1, 1, 1, none, .D, false, [⟨0, 64, .roV, 0⟩]⟩,
  -- EOP_SEED_INFO
  ⟨0x030030, 0x0, 1, 1, 1, none, .D, false, [⟨48, 16, .roV, 0⟩, ⟨0, 32, .roV, 0⟩]⟩,
  -- EOP_WIT_DROPPED
  ⟨0x030038, 0x0, 1, 1, 1, none, .D, false, [⟨32, 32, .roV, 0⟩, ⟨0, 32, .roV, 0⟩]⟩,
  -- EOP_ERR
  ⟨0x030040, 0x0, 1, 1, 1, (some .D), .D, false, [⟨5, 1, .w1c, 0⟩, ⟨4, 1, .w1c, 0⟩, ⟨3, 1, .w1c, 0⟩, ⟨2, 1, .w1c, 0⟩, ⟨1, 1, .w1c, 0⟩, ⟨0, 1, .w1c, 0⟩]⟩,
  -- EOP_GRP_ENG
  ⟨0x030100, 0x8, 16, 2, 0, (some .F), .D, false, [⟨7, 1, .rwl, 0⟩, ⟨0, 6, .rwl, 0⟩, ⟨15, 1, .rwl, 0⟩, ⟨8, 6, .rwl, 0⟩, ⟨23, 1, .rwl, 0⟩, ⟨16, 6, .rwl, 0⟩, ⟨31, 1, .rwl, 0⟩, ⟨24, 6, .rwl, 0⟩, ⟨39, 1, .rwl, 0⟩, ⟨32, 6, .rwl, 0⟩, ⟨47, 1, .rwl, 0⟩, ⟨40, 6, .rwl, 0⟩, ⟨55, 1, .rwl, 0⟩, ⟨48, 6, .rwl, 0⟩, ⟨63, 1, .rwl, 0⟩, ⟨56, 6, .rwl, 0⟩]⟩,
  -- EOP_EVT_OVERRUN
  ⟨0x03fff8, 0x0, 1, 1, 1, none, .D, false, [⟨0, 32, .roV, 0⟩]⟩]

/-- Registers at offsets 0x04_0000 to 0x04_FFFF. -/
def regPage04 : List RegRow := [
  -- MMP_CTL
  ⟨0x040000, 0x0, 1, 1, 1, (some .F), .D, false, [⟨25, 7, .rwl, 0x40⟩, ⟨16, 9, .rwl, 0x100⟩, ⟨0, 4, .rwl, 2⟩]⟩,
  -- MMP_STATUS
  ⟨0x040008, 0x0, 1, 1, 1, none, .D, false, [⟨56, 1, .roV, 0⟩, ⟨48, 8, .roV, 0⟩, ⟨32, 16, .roV, 0⟩, ⟨16, 16, .roV, 0⟩, ⟨0, 1, .roV, 0⟩]⟩,
  -- MMP_ERR
  ⟨0x040010, 0x0, 1, 1, 1, (some .D), .D, false, [⟨5, 1, .w1c, 0⟩, ⟨4, 1, .w1c, 0⟩, ⟨3, 1, .w1c, 0⟩, ⟨2, 1, .w1c, 0⟩, ⟨1, 1, .w1c, 0⟩, ⟨0, 1, .w1c, 0⟩]⟩,
  -- MMP_ERR_ADDR
  ⟨0x040018, 0x0, 1, 1, 1, none, .D, false, [⟨60, 4, .roV, 0⟩, ⟨58, 2, .roV, 0⟩, ⟨56, 2, .roV, 0⟩, ⟨6, 46, .roV, 0⟩]⟩,
  -- MMP_WI_STATS
  ⟨0x040020, 0x0, 1, 1, 1, none, .D, false, [⟨32, 32, .roV, 0⟩, ⟨0, 32, .roV, 0⟩]⟩,
  -- MMP_RGN_BASE
  ⟨0x040100, 0x8, 8, 8, 8, (some .F), .D, false, [⟨12, 40, .rwl, 0⟩, ⟨0, 2, .rwl, 0⟩]⟩,
  -- MMP_RGN_LIM
  ⟨0x040140, 0x8, 8, 8, 8, (some .F), .D, false, [⟨12, 40, .rwl, 0⟩]⟩,
  -- MMP_EVT_OVERRUN
  ⟨0x04fff8, 0x0, 1, 1, 1, none, .D, false, [⟨0, 32, .roV, 0⟩]⟩]

/-- Registers at offsets 0x05_0000 to 0x05_FFFF. -/
def regPage05 : List RegRow := [
  -- FBP_CTL
  ⟨0x050000, 0x0, 1, 1, 1, (some .F), .D, false, [⟨33, 1, .rwl, 1⟩, ⟨0, 20, .rwl, 0⟩]⟩,
  -- FBP_STATUS
  ⟨0x050008, 0x0, 1, 1, 1, none, .D, false, [⟨20, 1, .roV, 0⟩, ⟨0, 20, .roV, 0⟩]⟩,
  -- FBP_RX_PART
  ⟨0x050010, 0x0, 1, 1, 1, (some .F), .D, false, [⟨48, 16, .rwl, 0x300⟩, ⟨32, 16, .rwl, 0x180⟩, ⟨16, 16, .rwl, 0x300⟩, ⟨0, 16, .rwl, 0x80⟩]⟩,
  -- FBP_ERR
  ⟨0x050018, 0x0, 1, 1, 1, (some .D), .D, false, [⟨7, 1, .w1c, 0⟩, ⟨6, 1, .w1c, 0⟩, ⟨5, 1, .w1c, 0⟩, ⟨4, 1, .w1c, 0⟩, ⟨3, 1, .w1c, 0⟩, ⟨2, 1, .w1c, 0⟩, ⟨1, 1, .w1c, 0⟩, ⟨0, 1, .w1c, 0⟩]⟩,
  -- FBP_ERR_INFO
  ⟨0x050020, 0x0, 1, 1, 1, none, .D, false, [⟨40, 24, .roV, 0⟩, ⟨37, 3, .roV, 0⟩, ⟨32, 5, .roV, 0⟩, ⟨30, 2, .roV, 0⟩, ⟨0, 8, .roV, 0⟩]⟩,
  -- FBP_DROP_CNT
  ⟨0x050028, 0x0, 1, 1, 1, none, .D, false, [⟨32, 32, .roV, 0⟩, ⟨0, 32, .roV, 0⟩]⟩,
  -- FBP_GAP_CNT
  ⟨0x050030, 0x0, 1, 1, 1, none, .D, false, [⟨0, 64, .roV, 0⟩]⟩,
  -- FBP_TX_CREDIT
  ⟨0x050100, 0x8, 20, 20, 20, none, .D, false, [⟨48, 16, .roV, 0⟩, ⟨32, 16, .roV, 0⟩, ⟨16, 16, .roV, 0⟩, ⟨0, 16, .roV, 0⟩]⟩,
  -- FBP_EVT_OVERRUN
  ⟨0x05fff8, 0x0, 1, 1, 1, none, .D, false, [⟨0, 32, .roV, 0⟩]⟩]

/-- Registers at offsets 0x06_0000 to 0x06_FFFF. -/
def regPage06 : List RegRow := [
  -- SEP_CTL
  ⟨0x060000, 0x0, 1, 1, 1, (some .F), .D, false, [⟨49, 1, .rwl, 0⟩, ⟨48, 1, .rwl, 0⟩, ⟨45, 3, .rwl, 7⟩, ⟨33, 12, .rwl, 0⟩, ⟨0, 17, .rwl, 0⟩]⟩,
  -- SEP_MAC_ADDR
  ⟨0x060008, 0x0, 1, 1, 1, (some .F), .D, false, [⟨0, 48, .rwl, 0⟩]⟩,
  -- SEP_STATUS
  ⟨0x060010, 0x0, 1, 1, 1, none, .D, false, [⟨17, 1, .roV, 0⟩, ⟨0, 17, .roV, 0⟩]⟩,
  -- SEP_ERR
  ⟨0x060018, 0x0, 1, 1, 1, (some .D), .D, false, [⟨5, 1, .w1c, 0⟩, ⟨4, 1, .w1c, 0⟩, ⟨3, 1, .w1c, 0⟩, ⟨2, 1, .w1c, 0⟩, ⟨1, 1, .w1c, 0⟩, ⟨0, 1, .w1c, 0⟩]⟩,
  -- SEP_DROP_CNT
  ⟨0x060020, 0x0, 1, 1, 1, none, .D, false, [⟨32, 32, .roV, 0⟩, ⟨0, 32, .roV, 0⟩]⟩,
  -- SEP_LAT
  ⟨0x060100, 0x8, 17, 17, 17, (some .F), .D, false, [⟨32, 32, .rwl, 0⟩, ⟨0, 32, .rwl, 0⟩]⟩,
  -- SEP_EVT_OVERRUN
  ⟨0x06fff8, 0x0, 1, 1, 1, none, .D, false, [⟨0, 32, .roV, 0⟩]⟩]

/-- Registers at offsets 0x07_0000 to 0x07_FFFF. -/
def regPage07 : List RegRow := [
  -- TPI_PPS_CTL
  ⟨0x070000, 0x0, 1, 1, 1, (some .F), .D, false, [⟨16, 24, .rw, 0x186a0⟩, ⟨8, 6, .rw, 0⟩, ⟨1, 2, .rw, 0⟩, ⟨0, 1, .rw, 0⟩]⟩,
  -- TPI_ERR
  ⟨0x070008, 0x0, 1, 1, 1, (some .D), .D, false, [⟨9, 1, .w1c, 0⟩, ⟨4, 5, .w1c, 0⟩, ⟨0, 4, .w1c, 0⟩]⟩,
  -- TPI_PULSE_CTL
  ⟨0x070100, 0x20, 4, 4, 4, (some .D), .D, false, [⟨48, 16, .rw, 0⟩, ⟨16, 32, .rw, 0x64⟩, ⟨8, 6, .rw, 0⟩, ⟨2, 2, .rw, 0⟩, ⟨1, 1, .rw, 0⟩, ⟨0, 1, .rw, 0⟩]⟩,
  -- TPI_PULSE_START
  ⟨0x070108, 0x20, 4, 4, 4, (some .D), .D, false, [⟨0, 64, .rw, 0⟩]⟩,
  -- TPI_PULSE_PERIOD
  ⟨0x070110, 0x20, 4, 4, 4, (some .D), .D, false, [⟨16, 48, .rw, 0⟩, ⟨0, 16, .rw, 0⟩]⟩,
  -- TPI_CAP_CTL
  ⟨0x070200, 0x20, 5, 5, 5, (some .D), .D, false, [⟨32, 32, .roV, 0⟩, ⟨16, 5, .roV, 0⟩, ⟨8, 6, .rw, 0⟩, ⟨1, 2, .rw, 0⟩, ⟨0, 1, .rw, 0⟩]⟩,
  -- TPI_CAP_TIME
  ⟨0x070208, 0x20, 5, 5, 5, none, .D, false, [⟨0, 64, .roV, 0⟩]⟩,
  -- TPI_CAP_RESULT
  ⟨0x070210, 0x20, 5, 5, 5, (some .D), .D, false, [⟨48, 16, .rw, 0⟩, ⟨32, 1, .roV, 0⟩, ⟨0, 16, .roV, 0⟩]⟩,
  -- TPI_EVT_OVERRUN
  ⟨0x07fff8, 0x0, 1, 1, 1, none, .D, false, [⟨0, 32, .roV, 0⟩]⟩]

/-- Registers at offsets 0x08_0000 to 0x08_FFFF. -/
def regPage08 : List RegRow := [
  -- TLY_CTL
  ⟨0x080000, 0x0, 1, 1, 1, (some .F), .D, false, [⟨32, 6, .rw, 0⟩, ⟨2, 1, .rw, 0⟩, ⟨1, 1, .rw, 0⟩, ⟨0, 1, .rw, 1⟩]⟩,
  -- TLY_STATUS
  ⟨0x080008, 0x0, 1, 1, 1, none, .D, false, [⟨8, 8, .roV, 0⟩, ⟨0, 6, .roV, 0⟩]⟩,
  -- TLY_ERR
  ⟨0x080010, 0x0, 1, 1, 1, (some .D), .D, false, [⟨10, 1, .w1c, 0⟩, ⟨9, 1, .w1c, 0⟩, ⟨8, 1, .w1c, 0⟩, ⟨7, 1, .w1c, 0⟩, ⟨6, 1, .w1c, 0⟩, ⟨5, 1, .w1c, 0⟩, ⟨4, 1, .w1c, 0⟩, ⟨3, 1, .w1c, 0⟩, ⟨2, 1, .w1c, 0⟩, ⟨1, 1, .w1c, 0⟩]⟩,
  -- TLY_BIN_CTL
  ⟨0x080018, 0x0, 1, 1, 1, (some .F), .D, false, [⟨32, 6, .rw, 0⟩, ⟨0, 1, .w1s, 0⟩]⟩,
  -- TLY_BIN_CTX
  ⟨0x080020, 0x0, 1, 1, 1, (some .F), .D, false, [⟨32, 32, .rw, 0⟩, ⟨0, 32, .rw, 0⟩]⟩,
  -- TLY_BIN_SEL0
  ⟨0x080028, 0x0, 1, 1, 1, (some .F), .D, false, [⟨48, 16, .rw, 0xffff⟩, ⟨32, 16, .rw, 0xffff⟩, ⟨16, 16, .rw, 0xffff⟩, ⟨0, 16, .rw, 0xffff⟩]⟩,
  -- TLY_BIN_SEL1
  ⟨0x080030, 0x0, 1, 1, 1, (some .F), .D, false, [⟨48, 16, .rw, 0xffff⟩, ⟨32, 16, .rw, 0xffff⟩, ⟨16, 16, .rw, 0xffff⟩, ⟨0, 16, .rw, 0xffff⟩]⟩,
  -- TLY_BIN_STATUS
  ⟨0x080038, 0x0, 1, 1, 1, none, .D, false, [⟨32, 32, .roV, 0⟩, ⟨0, 10, .roV, 0⟩]⟩,
  -- TLY_HA_CTL
  ⟨0x080040, 0x0, 1, 1, 1, (some .F), .D, false, [⟨0, 6, .rw, 0⟩]⟩,
  -- TLY_HA_STATUS
  ⟨0x080048, 0x0, 1, 1, 1, none, .D, false, [⟨63, 1, .roV, 0⟩, ⟨0, 48, .roV, 0⟩]⟩,
  -- TLY_WB_CTL
  ⟨0x080050, 0x0, 1, 1, 1, (some .D), .D, false, [⟨32, 2, .rw, 1⟩, ⟨16, 16, .rw, 0x100⟩, ⟨8, 4, .rw, 3⟩, ⟨4, 1, .rw, 0⟩, ⟨3, 1, .w1s, 0⟩, ⟨2, 1, .w1s, 0⟩, ⟨1, 1, .rw, 0⟩, ⟨0, 1, .rw, 0⟩]⟩,
  -- TLY_WB_STATUS
  ⟨0x080058, 0x0, 1, 1, 1, none, .D, false, [⟨32, 32, .roV, 0⟩, ⟨0, 3, .roV, 0⟩]⟩,
  -- TLY_WB_WRPTR
  ⟨0x080060, 0x0, 1, 1, 1, none, .D, false, [⟨0, 64, .roV, 0⟩]⟩,
  -- TLY_WB_RDPTR
  ⟨0x080068, 0x0, 1, 1, 1, (some .D), .D, false, [⟨0, 64, .rw, 0⟩]⟩,
  -- TLY_WB_LOST
  ⟨0x080070, 0x0, 1, 1, 1, none, .D, false, [⟨0, 64, .roV, 0⟩]⟩,
  -- TLY_WB_MARK
  ⟨0x080078, 0x0, 1, 1, 1, none, .D, false, [⟨0, 64, .roV, 0⟩]⟩,
  -- TLY_SCHED_CTL
  ⟨0x081000, 0x20, 16, 64, 64, (some .F), .D, false, [⟨44, 20, .rw, 0⟩, ⟨32, 2, .roV, 0⟩, ⟨0, 1, .rw, 0⟩]⟩,
  -- TLY_SCHED_START
  ⟨0x081008, 0x20, 16, 64, 64, (some .F), .D, false, [⟨0, 64, .rw, 0⟩]⟩,
  -- TLY_SCHED_RANGE
  ⟨0x081010, 0x20, 16, 64, 64, (some .F), .D, false, [⟨32, 30, .rw, 0xf4240⟩, ⟨16, 16, .rw, 0x10f⟩, ⟨0, 16, .rw, 0x100⟩]⟩,
  -- TLY_SCHED_EPOCH
  ⟨0x081018, 0x20, 16, 64, 64, none, .D, false, [⟨48, 16, .roV, 0⟩, ⟨0, 48, .roV, 0⟩]⟩,
  -- TLY_EVT_OVERRUN
  ⟨0x08fff8, 0x0, 1, 1, 1, none, .D, false, [⟨0, 32, .roV, 0⟩]⟩]

/-- Registers at offsets 0x09_0000 to 0x09_FFFF. -/
def regPage09 : List RegRow := [
  -- TIM_TB_CTL
  ⟨0x090000, 0x40, 2, 2, 2, (some .F), .D, false, [⟨44, 20, .rwl, 0⟩, ⟨16, 16, .rwl, 0x3e8⟩, ⟨3, 1, .rwl, 0⟩, ⟨2, 1, .rwl, 0⟩, ⟨1, 1, .rw, 1⟩, ⟨0, 1, .rw, 1⟩]⟩,
  -- TIM_TB_STATUS
  ⟨0x090008, 0x40, 2, 2, 2, none, .D, false, [⟨32, 32, .roV, 0⟩, ⟨8, 24, .roV, 0⟩, ⟨6, 1, .roV, 0⟩, ⟨4, 2, .roV, 0⟩, ⟨0, 3, .roV, 0⟩]⟩,
  -- TIM_TB_THRESH
  ⟨0x090010, 0x40, 2, 2, 2, (some .F), .D, false, [⟨48, 16, .rw, 0xbb8⟩, ⟨32, 16, .rw, 0x14⟩, ⟨0, 32, .rw, 0x3e8⟩]⟩,
  -- TIM_TB_SERVO
  ⟨0x090018, 0x40, 2, 2, 2, (some .F), .D, false, [⟨16, 16, .rw, 0xc8⟩, ⟨8, 4, .rw, 3⟩, ⟨0, 4, .rw, 1⟩]⟩,
  -- TIM_TB_FREQ
  ⟨0x090020, 0x40, 2, 2, 2, none, .D, false, [⟨32, 32, .roV, 0⟩, ⟨0, 32, .roV, 0⟩]⟩,
  -- TIM_TB_OFFSET
  ⟨0x090028, 0x40, 2, 2, 2, none, .D, false, [⟨0, 64, .roV, 0⟩]⟩,
  -- TIM_TB_PENDING
  ⟨0x090030, 0x40, 2, 2, 2, none, .D, false, [⟨0, 64, .roV, 0⟩]⟩,
  -- TIM_TB_JUMP
  ⟨0x090038, 0x40, 2, 2, 2, (some .F), .D, false, [⟨16, 16, .rw, 0⟩, ⟨1, 1, .w1s, 0⟩, ⟨0, 1, .w1s, 0⟩]⟩,
  -- TIM_SNAP_CTL
  ⟨0x090080, 0x0, 1, 1, 1, (some .D), .D, false, [⟨48, 16, .rw, 0⟩, ⟨8, 6, .rw, 0⟩, ⟨0, 1, .w1s, 0⟩]⟩,
  -- TIM_SNAP_RESULT
  ⟨0x090088, 0x0, 1, 1, 1, (some .D), .D, false, [⟨48, 16, .rw, 0⟩, ⟨32, 1, .roV, 0⟩]⟩,
  -- TIM_SNAP_SEC
  ⟨0x090090, 0x10, 4, 4, 4, none, .D, false, [⟨0, 48, .roV, 0⟩]⟩,
  -- TIM_SNAP_NS
  ⟨0x090098, 0x10, 4, 4, 4, none, .D, false, [⟨16, 32, .roV, 0⟩, ⟨0, 16, .roV, 0⟩]⟩,
  -- TIM_PTP_CTL
  ⟨0x090100, 0x0, 1, 1, 1, (some .F), .D, false, [⟨32, 16, .rw, 0⟩, ⟨16, 8, .rwl, 0⟩, ⟨8, 8, .rwl, 0⟩, ⟨1, 2, .rwl, 0⟩, ⟨0, 1, .rwl, 0⟩]⟩,
  -- TIM_PTP_ID
  ⟨0x090108, 0x0, 1, 1, 1, (some .F), .D, false, [⟨0, 64, .rwl, 0⟩]⟩,
  -- TIM_PTP_MASTER
  ⟨0x090110, 0x0, 1, 1, 1, (some .F), .D, false, [⟨0, 64, .rw, 0⟩]⟩,
  -- TIM_PTP_DISCARD
  ⟨0x090118, 0x0, 1, 1, 1, none, .D, false, [⟨32, 32, .roV, 0⟩, ⟨0, 32, .roV, 0⟩]⟩,
  -- TIM_ERR
  ⟨0x090120, 0x0, 1, 1, 1, (some .D), .D, false, [⟨5, 1, .w1c, 0⟩, ⟨4, 1, .w1c, 0⟩, ⟨3, 1, .w1c, 0⟩, ⟨2, 1, .w1c, 0⟩, ⟨1, 1, .w1c, 0⟩, ⟨0, 1, .w1c, 0⟩]⟩,
  -- TIM_FAB_LAT
  ⟨0x090200, 0x8, 20, 20, 20, (some .F), .D, false, [⟨32, 32, .rwl, 0⟩, ⟨0, 32, .rwl, 0⟩]⟩,
  -- TIM_TB3_OFF
  ⟨0x091000, 0x8, 16, 64, 64, (some .D), .D, true, [⟨0, 64, .rws, 0⟩]⟩,
  -- TIM_EVT_OVERRUN
  ⟨0x09fff8, 0x0, 1, 1, 1, none, .D, false, [⟨0, 32, .roV, 0⟩]⟩]

/-- Registers at offsets 0x0a_0000 to 0x0a_FFFF. -/
def regPage0A : List RegRow := [
  -- CRV_CTL
  ⟨0x0a0000, 0x0, 1, 1, 1, (some .F), .D, false, [⟨32, 1, .rwl, 0⟩, ⟨0, 24, .rwl, 0⟩]⟩,
  -- CRV_HOME
  ⟨0x0a0008, 0x0, 1, 1, 1, (some .F), .D, false, [⟨32, 1, .rwl, 0⟩, ⟨0, 20, .rwl, 0⟩]⟩,
  -- CRV_STATUS
  ⟨0x0a0010, 0x0, 1, 1, 1, none, .D, false, [⟨48, 9, .roV, 0⟩, ⟨32, 13, .roV, 0⟩, ⟨0, 32, .roV, 0⟩]⟩,
  -- CRV_ERR
  ⟨0x0a0018, 0x0, 1, 1, 1, (some .D), .D, false, [⟨8, 1, .w1c, 0⟩, ⟨7, 1, .w1c, 0⟩, ⟨6, 1, .w1c, 0⟩, ⟨5, 1, .w1c, 0⟩, ⟨4, 1, .w1c, 0⟩, ⟨3, 1, .w1c, 0⟩, ⟨2, 1, .w1c, 0⟩, ⟨1, 1, .w1c, 0⟩, ⟨0, 1, .w1c, 0⟩]⟩,
  -- CRV_SLOT_CMD
  ⟨0x0a0020, 0x0, 1, 1, 1, (some .F), .D, false, [⟨48, 16, .rw, 0⟩, ⟨24, 20, .rw, 0⟩, ⟨1, 2, .rw, 0⟩, ⟨0, 1, .w1s, 0⟩]⟩,
  -- CRV_SLOT_RESULT
  ⟨0x0a0028, 0x0, 1, 1, 1, (some .F), .D, false, [⟨48, 16, .rw, 0⟩, ⟨32, 1, .roV, 0⟩, ⟨16, 12, .roV, 0⟩, ⟨0, 8, .roV, 0⟩]⟩,
  -- CRV_SLOT_SEL
  ⟨0x0a0030, 0x0, 1, 1, 1, (some .D), .D, false, [⟨0, 12, .rw, 0⟩]⟩,
  -- CRV_SLOT_INFO
  ⟨0x0a0038, 0x0, 1, 1, 1, none, .D, false, [⟨44, 20, .roV, 0⟩, ⟨40, 3, .roV, 0⟩, ⟨0, 11, .roV, 0⟩]⟩,
  -- CRV_SLOT_EPOCH
  ⟨0x0a0040, 0x0, 1, 1, 1, none, .D, false, [⟨48, 11, .roV, 0⟩, ⟨0, 48, .roV, 0⟩]⟩,
  -- CRV_SLOT_TIMING
  ⟨0x0a0048, 0x0, 1, 1, 1, (some .F), .D, false, [⟨56, 8, .rw, 0x20⟩, ⟨48, 8, .rw, 0x10⟩, ⟨32, 11, .rw, 0xe⟩, ⟨16, 11, .rw, 0xc⟩, ⟨0, 1, .rw, 0⟩]⟩,
  -- CRV_CHILD_ADDR
  ⟨0x0a0050, 0x0, 1, 1, 1, (some .F), .D, false, [⟨0, 10, .rw, 0⟩]⟩,
  -- CRV_CHILD_DATA
  ⟨0x0a0058, 0x0, 1, 1, 1, (some .F), .D, false, [⟨26, 1, .roV, 0⟩, ⟨25, 1, .roV, 0⟩, ⟨24, 1, .rw, 0⟩, ⟨0, 24, .rw, 0⟩]⟩,
  -- CRV_ROUTE
  ⟨0x0a0060, 0x0, 1, 1, 1, (some .F), .D, false, [⟨8, 7, .roV, 0⟩, ⟨0, 2, .rw, 0⟩]⟩,
  -- CRV_COARSE_STATUS
  ⟨0x0a0068, 0x0, 1, 1, 1, none, .D, false, [⟨16, 48, .roV, 0⟩, ⟨8, 8, .roV, 0⟩, ⟨3, 1, .roV, 0⟩, ⟨0, 3, .roV, 0⟩]⟩,
  -- CRV_TGA_CTL
  ⟨0x0a0070, 0x0, 1, 1, 1, (some .F), .D, false, [⟨0, 16, .rw, 0x3e8⟩]⟩,
  -- CRV_TGA_STATS
  ⟨0x0a0078, 0x0, 1, 1, 1, none, .D, false, [⟨32, 32, .roV, 0⟩, ⟨0, 32, .roV, 0⟩]⟩,
  -- CRV_PW_HEAD
  ⟨0x0a0080, 0x0, 1, 1, 1, none, .D, false, [⟨32, 32, .roV, 0⟩, ⟨0, 12, .roV, 0⟩]⟩,
  -- CRV_PW_SEL
  ⟨0x0a0088, 0x0, 1, 1, 1, (some .D), .D, false, [⟨16, 48, .roV, 0⟩, ⟨0, 12, .rw, 0⟩]⟩,
  -- CRV_PW_BANK
  ⟨0x0a0090, 0x0, 1, 1, 1, (some .D), .D, false, [⟨0, 2, .rw, 0⟩]⟩,
  -- CRV_EVT_OVERRUN
  ⟨0x0afff8, 0x0, 1, 1, 1, none, .D, false, [⟨0, 32, .roV, 0⟩]⟩]

/-- Registers at offsets 0x0b_0000 to 0x0b_FFFF. -/
def regPage0B : List RegRow := [
  -- INK_CTL
  ⟨0x0b0000, 0x0, 1, 1, 1, (some .F), .D, false, [⟨32, 6, .rw, 0⟩, ⟨0, 1, .rw, 1⟩]⟩,
  -- INK_STATUS
  ⟨0x0b0008, 0x0, 1, 1, 1, none, .D, false, [⟨32, 12, .roV, 0⟩, ⟨0, 20, .roV, 0⟩]⟩,
  -- INK_ERR
  ⟨0x0b0010, 0x0, 1, 1, 1, (some .D), .D, false, [⟨5, 1, .w1c, 0⟩, ⟨4, 1, .w1c, 0⟩, ⟨3, 1, .w1c, 0⟩, ⟨2, 1, .w1c, 0⟩, ⟨1, 1, .w1c, 0⟩, ⟨0, 1, .w1c, 0⟩]⟩,
  -- INK_SAT_CTL
  ⟨0x0b0018, 0x0, 1, 1, 1, (some .F), .D, false, [⟨32, 1, .rw, 1⟩, ⟨16, 16, .rw, 0x64⟩, ⟨8, 8, .rw, 0x40⟩, ⟨3, 5, .rw, 8⟩, ⟨0, 3, .rw, 5⟩]⟩,
  -- INK_SAT_CLS
  ⟨0x0b0020, 0x8, 4, 4, 4, (some .F), .D, false, [⟨0, 64, .rw, 0xffffffffffffffff⟩]⟩,
  -- INK_LADDER_CNT0
  ⟨0x0b0040, 0x0, 1, 1, 1, none, .D, false, [⟨48, 16, .roV, 0⟩, ⟨32, 16, .roV, 0⟩, ⟨16, 16, .roV, 0⟩, ⟨0, 16, .roV, 0⟩]⟩,
  -- INK_LADDER_CNT1
  ⟨0x0b0048, 0x0, 1, 1, 1, none, .D, false, [⟨48, 16, .roV, 0⟩, ⟨32, 16, .roV, 0⟩, ⟨16, 16, .roV, 0⟩, ⟨0, 16, .roV, 0⟩]⟩,
  -- INK_CLASS
  ⟨0x0b0100, 0x8, 14, 14, 14, (some .F), .D, false, [⟨40, 4, .ro, 0⟩, ⟨35, 1, .ro, 0⟩, ⟨34, 1, .ro, 0⟩, ⟨33, 1, .ro, 0⟩, ⟨30, 2, .ro, 0⟩, ⟨0, 20, .rw, 0⟩]⟩,
  -- INK_CLASSM
  ⟨0x0b0180, 0x8, 9, 9, 9, (some .F), .D, false, [⟨40, 4, .ro, 0⟩, ⟨35, 1, .ro, 0⟩, ⟨34, 1, .ro, 0⟩, ⟨33, 1, .ro, 0⟩, ⟨30, 2, .ro, 0⟩, ⟨0, 20, .rw, 0⟩]⟩,
  -- INK_SK_EXPORT
  ⟨0x0b0200, 0x8, 16, 16, 16, (some .F), .D, false, [⟨31, 1, .rw, 0⟩, ⟨30, 1, .rw, 0⟩, ⟨16, 9, .rw, 0⟩, ⟨0, 7, .rw, 0⟩]⟩,
  -- INK_QSK_SEL
  ⟨0x0b0300, 0x0, 1, 1, 1, (some .D), .D, false, [⟨16, 1, .rw, 0⟩, ⟨0, 9, .rw, 0⟩]⟩,
  -- INK_QSK_INFO
  ⟨0x0b0308, 0x0, 1, 1, 1, none, .D, false, [⟨0, 48, .roV, 0⟩]⟩,
  -- INK_QSK_DATA
  ⟨0x0b1000, 0x8, 512, 512, 512, none, .D, false, [⟨32, 32, .roV, 0⟩, ⟨0, 32, .roV, 0⟩]⟩,
  -- INK_Q_CFG
  ⟨0x0b4000, 0x20, 64, 512, 512, (some .F), .D, false, [⟨32, 32, .rwl, 0⟩, ⟨16, 16, .rwl, 0⟩, ⟨15, 1, .rwl, 0⟩, ⟨14, 1, .rwl, 0⟩, ⟨9, 5, .rwl, 0⟩, ⟨7, 2, .rwl, 0⟩, ⟨0, 5, .rwl, 0⟩]⟩,
  -- INK_Q_SHAPE
  ⟨0x0b4008, 0x20, 64, 512, 512, (some .F), .D, false, [⟨32, 24, .rw, 0⟩, ⟨0, 16, .rw, 0⟩]⟩,
  -- INK_Q_POLICE
  ⟨0x0b4010, 0x20, 64, 512, 512, (some .F), .D, false, [⟨32, 24, .rw, 0⟩, ⟨0, 16, .rw, 0⟩]⟩,
  -- INK_Q_STATE
  ⟨0x0b4018, 0x20, 64, 512, 512, none, .D, false, [⟨32, 32, .roV, 0⟩, ⟨0, 32, .roV, 0⟩]⟩,
  -- INK_EVT_OVERRUN
  ⟨0x0bfff8, 0x0, 1, 1, 1, none, .D, false, [⟨0, 32, .roV, 0⟩]⟩]

/-- Registers at offsets 0x0c_0000 to 0x0c_FFFF. -/
def regPage0C : List RegRow := [
  -- TRE_CTL
  ⟨0x0c0000, 0x0, 1, 1, 1, (some .F), .D, false, [⟨0, 4, .rw, 0⟩]⟩,
  -- TRE_STATUS
  ⟨0x0c0008, 0x0, 1, 1, 1, none, .D, false, [⟨16, 7, .roV, 0⟩, ⟨8, 5, .roV, 0⟩, ⟨0, 4, .roV, 0⟩]⟩,
  -- TRE_ERR
  ⟨0x0c0010, 0x0, 1, 1, 1, (some .D), .D, false, [⟨4, 1, .w1c, 0⟩, ⟨3, 1, .w1c, 0⟩, ⟨2, 1, .w1c, 0⟩, ⟨1, 1, .w1c, 0⟩, ⟨0, 1, .w1c, 0⟩]⟩,
  -- TRE_MODEL_CMD
  ⟨0x0c0020, 0x0, 1, 1, 1, (some .F), .D, false, [⟨48, 16, .rw, 0⟩, ⟨8, 6, .rw, 0⟩, ⟨1, 2, .rw, 0⟩, ⟨0, 1, .w1s, 0⟩]⟩,
  -- TRE_MODEL_ARG
  ⟨0x0c0028, 0x0, 1, 1, 1, (some .F), .D, false, [⟨32, 32, .rw, 0⟩, ⟨0, 32, .rw, 0⟩]⟩,
  -- TRE_MODEL_RESULT
  ⟨0x0c0030, 0x0, 1, 1, 1, (some .F), .D, false, [⟨48, 16, .rw, 0⟩, ⟨32, 1, .roV, 0⟩, ⟨8, 24, .roV, 0⟩, ⟨0, 8, .roV, 0⟩]⟩,
  -- TRE_MODEL_INFO
  ⟨0x0c0100, 0x8, 64, 64, 64, none, .D, false, [⟨63, 1, .roV, 0⟩, ⟨62, 1, .roV, 0⟩, ⟨60, 2, .roV, 0⟩, ⟨59, 1, .roV, 0⟩, ⟨55, 4, .roV, 0⟩, ⟨48, 6, .roV, 0⟩, ⟨32, 13, .roV, 0⟩, ⟨0, 32, .roV, 0⟩]⟩,
  -- TRE_MODEL_LOC
  ⟨0x0c0300, 0x8, 64, 64, 64, none, .D, false, [⟨40, 24, .roV, 0⟩, ⟨0, 32, .roV, 0⟩]⟩,
  -- TRE_JOB_DESC0
  ⟨0x0c1000, 0x40, 16, 16, 16, (some .D), .D, false, [⟨32, 32, .rw, 0⟩, ⟨10, 2, .rw, 0⟩, ⟨9, 1, .rw, 0⟩, ⟨8, 1, .rw, 0⟩, ⟨0, 6, .rw, 0⟩]⟩,
  -- TRE_JOB_DESC1
  ⟨0x0c1008, 0x40, 16, 16, 16, (some .D), .D, false, [⟨32, 32, .rw, 0⟩, ⟨0, 32, .rw, 0⟩]⟩,
  -- TRE_JOB_DESC2
  ⟨0x0c1010, 0x40, 16, 16, 16, (some .D), .D, false, [⟨0, 32, .rw, 0⟩]⟩,
  -- TRE_JOB_CTL
  ⟨0x0c1018, 0x40, 16, 16, 16, (some .D), .D, false, [⟨48, 16, .rw, 0⟩, ⟨0, 1, .w1s, 0⟩]⟩,
  -- TRE_JOB_RESULT
  ⟨0x0c1020, 0x40, 16, 16, 16, (some .D), .D, false, [⟨48, 16, .rw, 0⟩, ⟨46, 2, .roV, 0⟩, ⟨32, 1, .roV, 0⟩, ⟨15, 17, .roV, 0⟩, ⟨0, 8, .roV, 0⟩]⟩,
  -- TRE_JOB_STATS
  ⟨0x0c1028, 0x40, 16, 16, 16, none, .D, false, [⟨32, 32, .roV, 0⟩, ⟨0, 17, .roV, 0⟩]⟩,
  -- TRE_EVT_OVERRUN
  ⟨0x0cfff8, 0x0, 1, 1, 1, none, .D, false, [⟨0, 32, .roV, 0⟩]⟩]

/-- Registers at offsets 0x0d_0000 to 0x0d_FFFF. -/
def regPage0D : List RegRow := [
  -- ARR_CTL
  ⟨0x0d0000, 0x0, 1, 1, 1, (some .F), .D, false, [⟨0, 1, .rw, 1⟩]⟩,
  -- ARR_SHARE
  ⟨0x0d0008, 0x0, 1, 1, 1, (some .F), .D, false, [⟨56, 8, .rw, 0x40⟩, ⟨32, 16, .rw, 1⟩, ⟨16, 16, .rw, 1⟩, ⟨8, 4, .rw, 4⟩, ⟨0, 4, .rw, 8⟩]⟩,
  -- ARR_STATUS
  ⟨0x0d0010, 0x0, 1, 1, 1, none, .D, false, [⟨0, 48, .roV, 0⟩]⟩,
  -- ARR_AVAIL
  ⟨0x0d0018, 0x0, 1, 1, 1, none, .D, false, [⟨0, 48, .roV, 0⟩]⟩,
  -- ARR_SPARE
  ⟨0x0d0020, 0x0, 1, 1, 1, none, .D, false, [⟨0, 48, .roV, 0⟩]⟩,
  -- ARR_RETIRED
  ⟨0x0d0028, 0x0, 1, 1, 1, none, .D, true, [⟨0, 48, .roV, 0⟩]⟩,
  -- ARR_ERR
  ⟨0x0d0030, 0x0, 1, 1, 1, (some .D), .D, false, [⟨4, 1, .w1c, 0⟩, ⟨3, 1, .w1c, 0⟩, ⟨2, 1, .w1c, 0⟩, ⟨1, 1, .w1c, 0⟩, ⟨0, 1, .w1c, 0⟩]⟩,
  -- ARR_CYC_SCORE
  ⟨0x0d0038, 0x0, 1, 1, 1, none, .D, false, [⟨0, 64, .roV, 0⟩]⟩,
  -- ARR_CYC_VERIFY
  ⟨0x0d0040, 0x0, 1, 1, 1, none, .D, false, [⟨0, 64, .roV, 0⟩]⟩,
  -- ARR_CYC_FIELD
  ⟨0x0d0048, 0x0, 1, 1, 1, none, .D, false, [⟨0, 64, .roV, 0⟩]⟩,
  -- ARR_RES
  ⟨0x0d0100, 0x8, 48, 48, 48, none, .D, false, [⟨16, 16, .roV, 0⟩, ⟨0, 16, .roV, 0⟩]⟩,
  -- ARR_JOB_DESC0
  ⟨0x0d1000, 0x40, 16, 16, 16, (some .D), .D, false, [⟨50, 14, .rw, 0⟩, ⟨41, 9, .rw, 0⟩, ⟨32, 9, .rw, 0⟩, ⟨28, 4, .rw, 0⟩, ⟨24, 4, .rw, 0⟩, ⟨22, 2, .rw, 0⟩, ⟨20, 2, .rw, 0⟩, ⟨19, 1, .rw, 0⟩, ⟨18, 1, .rw, 0⟩, ⟨12, 6, .rw, 0⟩, ⟨11, 1, .rw, 0⟩, ⟨10, 1, .rw, 0⟩, ⟨0, 8, .rw, 0⟩]⟩,
  -- ARR_JOB_DESC1
  ⟨0x0d1008, 0x40, 16, 16, 16, (some .D), .D, false, [⟨32, 32, .rw, 0⟩, ⟨0, 32, .rw, 0⟩]⟩,
  -- ARR_JOB_DESC2
  ⟨0x0d1010, 0x40, 16, 16, 16, (some .D), .D, false, [⟨32, 32, .rw, 0⟩, ⟨0, 32, .rw, 0⟩]⟩,
  -- ARR_JOB_DESC3
  ⟨0x0d1018, 0x40, 16, 16, 16, (some .D), .D, false, [⟨0, 32, .rw, 0⟩]⟩,
  -- ARR_JOB_CTL
  ⟨0x0d1020, 0x40, 16, 16, 16, (some .D), .D, false, [⟨48, 16, .rw, 0⟩, ⟨0, 1, .w1s, 0⟩]⟩,
  -- ARR_JOB_RESULT
  ⟨0x0d1028, 0x40, 16, 16, 16, (some .D), .D, false, [⟨48, 16, .rw, 0⟩, ⟨32, 1, .roV, 0⟩, ⟨16, 1, .roV, 0⟩, ⟨0, 8, .roV, 0⟩]⟩,
  -- ARR_JOB_STATS
  ⟨0x0d1030, 0x40, 16, 16, 16, none, .D, false, [⟨32, 32, .roV, 0⟩, ⟨16, 16, .roV, 0⟩, ⟨0, 8, .roV, 0⟩]⟩,
  -- ARR_EVT_OVERRUN
  ⟨0x0dfff8, 0x0, 1, 1, 1, none, .D, false, [⟨0, 32, .roV, 0⟩]⟩]

/-- Registers at offsets 0x0e_0000 to 0x0e_FFFF. -/
def regPage0E : List RegRow := [
  -- DET_CTL
  ⟨0x0e0000, 0x0, 1, 1, 1, (some .F), .D, false, [⟨0, 1, .rw, 0⟩]⟩,
  -- DET_STEP_CTL
  ⟨0x0e0008, 0x0, 1, 1, 1, (some .F), .D, false, [⟨32, 6, .rw, 0⟩, ⟨16, 13, .rw, 0⟩, ⟨0, 1, .rw, 0⟩]⟩,
  -- DET_ERR
  ⟨0x0e0010, 0x0, 1, 1, 1, (some .D), .D, false, [⟨3, 1, .w1c, 0⟩, ⟨2, 1, .w1c, 0⟩, ⟨1, 1, .w1c, 0⟩, ⟨0, 1, .w1c, 0⟩]⟩,
  -- DET_VCOUNT
  ⟨0x0e0018, 0x0, 1, 1, 1, none, .D, false, [⟨32, 32, .roV, 0⟩, ⟨0, 32, .roV, 0⟩]⟩,
  -- DET_DROPPED
  ⟨0x0e0020, 0x0, 1, 1, 1, none, .D, false, [⟨0, 64, .roV, 0⟩]⟩,
  -- DET_D_CFG
  ⟨0x0e1000, 0x40, 64, 64, 64, (some .F), .D, false, [⟨61, 1, .rw, 0⟩, ⟨60, 1, .rw, 1⟩, ⟨52, 8, .rw, 0x10⟩, ⟨48, 4, .rw, 1⟩, ⟨32, 16, .rw, 0⟩, ⟨16, 12, .rw, 0⟩, ⟨12, 4, .rw, 0⟩, ⟨8, 2, .rw, 0⟩, ⟨4, 3, .rw, 0⟩, ⟨1, 3, .rw, 0⟩, ⟨0, 1, .rw, 0⟩]⟩,
  -- DET_D_P0
  ⟨0x0e1008, 0x40, 64, 64, 64, (some .F), .D, false, [⟨0, 64, .rw, 0⟩]⟩,
  -- DET_D_P1
  ⟨0x0e1010, 0x40, 64, 64, 64, (some .F), .D, false, [⟨0, 64, .rw, 0⟩]⟩,
  -- DET_D_P2
  ⟨0x0e1018, 0x40, 64, 64, 64, (some .F), .D, false, [⟨0, 64, .rw, 0⟩]⟩,
  -- DET_D_REF
  ⟨0x0e1020, 0x40, 64, 64, 64, (some .F), .D, false, [⟨63, 1, .roV, 0⟩, ⟨56, 1, .rw, 0⟩, ⟨0, 48, .rw, 0⟩]⟩,
  -- DET_D_STATE
  ⟨0x0e1028, 0x40, 64, 64, 64, none, .D, false, [⟨32, 32, .roV, 0⟩, ⟨0, 32, .roV, 0⟩]⟩,
  -- DET_EVT_OVERRUN
  ⟨0x0efff8, 0x0, 1, 1, 1, none, .D, false, [⟨0, 32, .roV, 0⟩]⟩]

/-- Registers at offsets 0x0f_0000 to 0x0f_FFFF. -/
def regPage0F : List RegRow := [
  -- VER_CTL
  ⟨0x0f0000, 0x0, 1, 1, 1, (some .F), .D, false, [⟨56, 8, .rw, 0x10⟩, ⟨48, 8, .rw, 8⟩, ⟨32, 16, .rw, 0x7d0⟩, ⟨16, 9, .rw, 0x80⟩, ⟨2, 1, .rw, 1⟩, ⟨1, 1, .rw, 1⟩, ⟨0, 1, .rw, 0⟩]⟩,
  -- VER_SAMPLE
  ⟨0x0f0008, 0x0, 1, 1, 1, (some .F), .D, false, [⟨0, 32, .rw, 0x80000⟩]⟩,
  -- VER_ENG_MASK
  ⟨0x0f0010, 0x0, 1, 1, 1, (some .F), .D, false, [⟨0, 64, .rw, 0⟩]⟩,
  -- VER_SEED_KEY
  ⟨0x0f0018, 0x0, 1, 1, 1, (some .S), .S, false, [⟨0, 64, .rw, 0⟩]⟩,
  -- VER_HOST_RATE
  ⟨0x0f0020, 0x0, 1, 1, 1, (some .F), .D, false, [⟨32, 4, .rw, 3⟩, ⟨0, 32, .rw, 0⟩]⟩,
  -- VER_TRAY_GRANT
  ⟨0x0f0028, 0x0, 1, 1, 1, (some .F), .D, false, [⟨0, 32, .rw, 0⟩]⟩,
  -- VER_CAPACITY
  ⟨0x0f0030, 0x0, 1, 1, 1, none, .D, false, [⟨32, 32, .roV, 0⟩, ⟨16, 16, .roV, 0⟩, ⟨0, 16, .roV, 0⟩]⟩,
  -- VER_RATES
  ⟨0x0f0038, 0x0, 1, 1, 1, none, .D, false, [⟨32, 32, .roV, 0⟩, ⟨0, 32, .roV, 0⟩]⟩,
  -- VER_POLICY
  ⟨0x0f0040, 0x0, 1, 1, 1, (some .F), .D, false, [⟨32, 16, .rw, 0x100⟩, ⟨1, 1, .rw, 0⟩, ⟨0, 1, .rw, 1⟩]⟩,
  -- VER_STATUS
  ⟨0x0f0048, 0x0, 1, 1, 1, none, .D, false, [⟨40, 24, .roV, 0⟩, ⟨16, 16, .roV, 0⟩, ⟨1, 1, .roV, 0⟩, ⟨0, 1, .roV, 0⟩]⟩,
  -- VER_ERR
  ⟨0x0f0050, 0x0, 1, 1, 1, (some .D), .D, false, [⟨4, 1, .w1c, 0⟩, ⟨3, 1, .w1c, 0⟩, ⟨2, 1, .w1c, 0⟩, ⟨1, 1, .w1c, 0⟩, ⟨0, 1, .w1c, 0⟩]⟩,
  -- VER_HA_WRPTR
  ⟨0x0f0058, 0x0, 1, 1, 1, none, .D, false, [⟨0, 64, .roV, 0⟩]⟩,
  -- VER_HA_RDPTR
  ⟨0x0f0060, 0x0, 1, 1, 1, (some .D), .D, false, [⟨0, 64, .rw, 0⟩]⟩,
  -- VER_SUBJ_STATE
  ⟨0x0f0100, 0x8, 1, 17, 0, (some .F), .D, true, [⟨56, 3, .roV, 0⟩, ⟨32, 24, .roV, 0⟩, ⟨16, 16, .roV, 0⟩, ⟨9, 1, .w1s, 0⟩, ⟨8, 1, .w1s, 0⟩, ⟨0, 2, .roV, 0⟩]⟩,
  -- VER_EVT_OVERRUN
  ⟨0x0ffff8, 0x0, 1, 1, 1, none, .D, false, [⟨0, 32, .roV, 0⟩]⟩]

/-- Registers at offsets 0x10_0000 to 0x10_FFFF. -/
def regPage10 : List RegRow := [
  -- FLT_CTL
  ⟨0x100000, 0x0, 1, 1, 1, (some .F), .D, false, [⟨48, 16, .rw, 0x200⟩, ⟨32, 16, .rw, 0x7fff⟩, ⟨0, 1, .rw, 1⟩]⟩,
  -- FLT_SEED0
  ⟨0x100008, 0x0, 1, 1, 1, (some .F), .D, false, [⟨0, 64, .rw, 0⟩]⟩,
  -- FLT_SEED1
  ⟨0x100010, 0x0, 1, 1, 1, (some .F), .D, false, [⟨0, 64, .rw, 0⟩]⟩,
  -- FLT_RETIRE
  ⟨0x100018, 0x0, 1, 1, 1, (some .F), .D, false, [⟨32, 8, .rw, 0x10⟩, ⟨16, 16, .rw, 0x5a0⟩, ⟨0, 8, .rw, 3⟩]⟩,
  -- FLT_STATUS
  ⟨0x100020, 0x0, 1, 1, 1, none, .D, false, [⟨32, 32, .roV, 0⟩, ⟨0, 32, .roV, 0⟩]⟩,
  -- FLT_PROBE_CTL
  ⟨0x100028, 0x0, 1, 1, 1, (some .D), .D, false, [⟨48, 16, .rw, 0x3e8⟩, ⟨32, 14, .rw, 0x400⟩, ⟨18, 9, .rw, 0x40⟩, ⟨9, 9, .rw, 0x40⟩, ⟨4, 4, .rw, 1⟩, ⟨0, 2, .rw, 0⟩]⟩,
  -- FLT_PROBE_CMD
  ⟨0x100030, 0x0, 1, 1, 1, (some .D), .D, false, [⟨48, 16, .rw, 0⟩, ⟨32, 16, .rw, 0⟩, ⟨16, 6, .rw, 0⟩, ⟨8, 6, .rw, 0⟩, ⟨2, 1, .rw, 0⟩, ⟨1, 1, .w1s, 0⟩, ⟨0, 1, .w1s, 0⟩]⟩,
  -- FLT_PROBE_RESULT
  ⟨0x100038, 0x0, 1, 1, 1, (some .D), .D, false, [⟨48, 16, .rw, 0⟩, ⟨32, 1, .roV, 0⟩, ⟨0, 8, .roV, 0⟩]⟩,
  -- FLT_PROBE_STATS
  ⟨0x100040, 0x0, 1, 1, 1, none, .D, false, [⟨32, 16, .roV, 0⟩, ⟨16, 16, .roV, 0⟩, ⟨0, 16, .roV, 0⟩]⟩,
  -- FLT_ERR
  ⟨0x100048, 0x0, 1, 1, 1, (some .D), .D, false, [⟨4, 1, .w1c, 0⟩, ⟨3, 1, .w1c, 0⟩, ⟨2, 1, .w1c, 0⟩, ⟨1, 1, .w1c, 0⟩, ⟨0, 1, .w1c, 0⟩]⟩,
  -- FLT_ARR
  ⟨0x100100, 0x8, 48, 48, 48, none, .D, true, [⟨32, 32, .roV, 0⟩, ⟨0, 8, .roV, 0⟩]⟩,
  -- FLT_EVT_OVERRUN
  ⟨0x10fff8, 0x0, 1, 1, 1, none, .D, false, [⟨0, 32, .roV, 0⟩]⟩]

/-- Registers at offsets 0x11_0000 to 0x11_FFFF. -/
def regPage11 : List RegRow := [
  -- CUR_CTL
  ⟨0x110000, 0x0, 1, 1, 1, (some .F), .D, false, [⟨48, 16, .rw, 0x7d0⟩, ⟨35, 13, .rw, 0x400⟩, ⟨12, 20, .rw, 0⟩, ⟨0, 1, .rw, 0⟩]⟩,
  -- CUR_CODE
  ⟨0x110008, 0x0, 1, 1, 1, (some .F), .D, false, [⟨16, 15, .rw, 0x100⟩, ⟨0, 5, .rw, 0xe⟩]⟩,
  -- CUR_TIMING
  ⟨0x110010, 0x0, 1, 1, 1, (some .F), .D, false, [⟨48, 16, .rw, 0x2710⟩, ⟨32, 16, .rw, 0x64⟩, ⟨0, 32, .rw, 0x7530⟩]⟩,
  -- CUR_STATUS
  ⟨0x110018, 0x0, 1, 1, 1, none, .D, false, [⟨32, 32, .roV, 0⟩, ⟨8, 8, .roV, 0⟩, ⟨0, 3, .roV, 0⟩]⟩,
  -- CUR_FRONTIER
  ⟨0x110020, 0x0, 1, 1, 1, none, .D, false, [⟨0, 64, .roV, 0⟩]⟩,
  -- CUR_ERR
  ⟨0x110028, 0x0, 1, 1, 1, (some .D), .D, false, [⟨5, 1, .w1c, 0⟩, ⟨4, 1, .w1c, 0⟩, ⟨3, 1, .w1c, 0⟩, ⟨2, 1, .w1c, 0⟩, ⟨1, 1, .w1c, 0⟩, ⟨0, 1, .w1c, 0⟩]⟩,
  -- CUR_SNAP_CMD
  ⟨0x110030, 0x0, 1, 1, 1, (some .D), .D, false, [⟨48, 16, .rw, 0⟩, ⟨1, 3, .rw, 0⟩, ⟨0, 1, .w1s, 0⟩]⟩,
  -- CUR_SNAP_ARG
  ⟨0x110038, 0x0, 1, 1, 1, (some .D), .D, false, [⟨0, 64, .rw, 0⟩]⟩,
  -- CUR_SNAP_RESULT
  ⟨0x110040, 0x0, 1, 1, 1, (some .D), .D, false, [⟨48, 16, .rw, 0⟩, ⟨32, 1, .roV, 0⟩, ⟨0, 8, .roV, 0⟩]⟩,
  -- CUR_OUT
  ⟨0x110048, 0x0, 1, 1, 1, (some .D), .D, false, [⟨48, 16, .rw, 0⟩, ⟨32, 1, .roV, 0⟩, ⟨8, 24, .roV, 0⟩, ⟨0, 8, .roV, 0⟩]⟩,
  -- CUR_LAST_ID
  ⟨0x110050, 0x0, 1, 1, 1, none, .D, true, [⟨0, 64, .roV, 0⟩]⟩,
  -- CUR_LAST_INFO
  ⟨0x110058, 0x0, 1, 1, 1, none, .D, true, [⟨63, 1, .roV, 0⟩, ⟨62, 1, .roV, 0⟩, ⟨61, 1, .roV, 0⟩, ⟨0, 48, .roV, 0⟩]⟩,
  -- CUR_NEXT_ID
  ⟨0x110060, 0x0, 1, 1, 1, (some .F), .D, true, [⟨0, 64, .rws, 0⟩]⟩,
  -- CUR_EARLY
  ⟨0x110068, 0x0, 1, 1, 1, (some .F), .D, false, [⟨12, 40, .rw, 0⟩]⟩,
  -- CUR_EARLY_SIZE
  ⟨0x110070, 0x0, 1, 1, 1, (some .F), .D, false, [⟨0, 32, .rw, 0⟩]⟩,
  -- CUR_RGN_BASE
  ⟨0x110100, 0x10, 64, 64, 64, (some .F), .D, false, [⟨63, 1, .rw, 0⟩, ⟨62, 1, .rw, 0⟩, ⟨12, 40, .rw, 0⟩, ⟨0, 5, .rw, 0⟩]⟩,
  -- CUR_RGN_SIZE
  ⟨0x110108, 0x10, 64, 64, 64, (some .F), .D, false, [⟨0, 32, .rw, 0⟩]⟩,
  -- CUR_DST
  ⟨0x110500, 0x8, 32, 32, 32, (some .F), .D, false, [⟨63, 1, .rw, 0⟩, ⟨62, 1, .rw, 0⟩, ⟨0, 24, .rw, 0⟩]⟩,
  -- CUR_RX_SRC
  ⟨0x111000, 0x20, 32, 32, 32, (some .F), .D, false, [⟨63, 1, .rw, 0⟩, ⟨32, 1, .roV, 0⟩, ⟨0, 24, .rw, 0⟩]⟩,
  -- CUR_RX_BASE
  ⟨0x111008, 0x20, 32, 32, 32, (some .F), .D, false, [⟨12, 40, .rw, 0⟩]⟩,
  -- CUR_RX_SIZE
  ⟨0x111010, 0x20, 32, 32, 32, (some .F), .D, false, [⟨0, 32, .rw, 0⟩]⟩,
  -- CUR_EVT_OVERRUN
  ⟨0x11fff8, 0x0, 1, 1, 1, none, .D, false, [⟨0, 32, .roV, 0⟩]⟩]

/-- Registers at offsets 0x12_0000 to 0x12_FFFF. -/
def regPage12 : List RegRow := [
  -- CMP_CTL
  ⟨0x120000, 0x0, 1, 1, 1, (some .F), .D, false, [⟨0, 1, .rw, 1⟩]⟩,
  -- CMP_STATUS
  ⟨0x120008, 0x0, 1, 1, 1, none, .D, false, [⟨40, 5, .roV, 0⟩, ⟨8, 4, .roV, 0⟩, ⟨2, 1, .roV, 0⟩, ⟨1, 1, .roV, 0⟩, ⟨0, 1, .roV, 0⟩]⟩,
  -- CMP_ERR
  ⟨0x120010, 0x0, 1, 1, 1, (some .D), .D, false, [⟨6, 1, .w1c, 0⟩, ⟨5, 1, .w1c, 0⟩, ⟨4, 1, .w1c, 0⟩, ⟨3, 1, .w1c, 0⟩, ⟨2, 1, .w1c, 0⟩, ⟨1, 1, .w1c, 0⟩, ⟨0, 1, .w1c, 0⟩]⟩,
  -- CMP_VFY_CNT
  ⟨0x120018, 0x0, 1, 1, 1, none, .D, false, [⟨32, 32, .roV, 0⟩, ⟨0, 32, .roV, 0⟩]⟩,
  -- CMP_JOB_DESC0
  ⟨0x121000, 0x80, 8, 8, 8, (some .D), .D, false, [⟨26, 1, .rw, 1⟩, ⟨25, 1, .rw, 0⟩, ⟨24, 1, .rw, 0⟩, ⟨16, 5, .rw, 0x12⟩, ⟨8, 4, .rw, 3⟩, ⟨0, 1, .rw, 0⟩]⟩,
  -- CMP_JOB_SRC
  ⟨0x121008, 0x80, 8, 8, 8, (some .D), .D, false, [⟨0, 52, .rw, 0⟩]⟩,
  -- CMP_JOB_SRC_LEN
  ⟨0x121010, 0x80, 8, 8, 8, (some .D), .D, false, [⟨0, 48, .rw, 0⟩]⟩,
  -- CMP_JOB_DST
  ⟨0x121018, 0x80, 8, 8, 8, (some .D), .D, false, [⟨0, 52, .rw, 0⟩]⟩,
  -- CMP_JOB_DST_LEN
  ⟨0x121020, 0x80, 8, 8, 8, (some .D), .D, false, [⟨0, 48, .rw, 0⟩]⟩,
  -- CMP_JOB_CTL
  ⟨0x121028, 0x80, 8, 8, 8, (some .D), .D, false, [⟨48, 16, .rw, 0⟩, ⟨0, 1, .w1s, 0⟩]⟩,
  -- CMP_JOB_RESULT
  ⟨0x121030, 0x80, 8, 8, 8, (some .D), .D, false, [⟨48, 16, .rw, 0⟩, ⟨32, 1, .roV, 0⟩, ⟨16, 16, .roV, 0⟩, ⟨0, 8, .roV, 0⟩]⟩,
  -- CMP_JOB_OUT
  ⟨0x121038, 0x80, 8, 8, 8, none, .D, false, [⟨0, 48, .roV, 0⟩]⟩,
  -- CMP_JOB_IN
  ⟨0x121040, 0x80, 8, 8, 8, none, .D, false, [⟨0, 48, .roV, 0⟩]⟩,
  -- PRT_CTL
  ⟨0x128000, 0x0, 1, 1, 1, (some .F), .D, false, [⟨0, 1, .rw, 1⟩]⟩,
  -- PRT_STATUS
  ⟨0x128008, 0x0, 1, 1, 1, none, .D, false, [⟨32, 32, .roV, 0⟩, ⟨16, 1, .roV, 0⟩, ⟨8, 4, .roV, 0⟩, ⟨0, 4, .roV, 0⟩]⟩,
  -- PRT_CH_BASE
  ⟨0x128100, 0x40, 4, 4, 4, (some .D), .D, false, [⟨6, 46, .rw, 0⟩]⟩,
  -- PRT_CH_SIZE
  ⟨0x128108, 0x40, 4, 4, 4, (some .D), .D, false, [⟨0, 16, .rw, 0⟩]⟩,
  -- PRT_CH_HEAD
  ⟨0x128110, 0x40, 4, 4, 4, (some .D), .D, false, [⟨0, 16, .rw, 0⟩]⟩,
  -- PRT_CH_TAIL
  ⟨0x128118, 0x40, 4, 4, 4, none, .D, false, [⟨0, 16, .roV, 0⟩]⟩,
  -- PRT_CH_CTL
  ⟨0x128120, 0x40, 4, 4, 4, (some .D), .D, false, [⟨16, 8, .roV, 0⟩, ⟨8, 2, .roV, 0⟩, ⟨0, 1, .w1s, 0⟩]⟩,
  -- CMP_EVT_OVERRUN
  ⟨0x12fff8, 0x0, 1, 1, 1, none, .D, false, [⟨0, 32, .roV, 0⟩]⟩]

/-- Registers at offsets 0x13_0000 to 0x13_FFFF. -/
def regPage13 : List RegRow := [
  -- RCV_CTL
  ⟨0x130000, 0x0, 1, 1, 1, (some .F), .D, false, [⟨48, 16, .rw, 0x7d0⟩, ⟨16, 16, .rw, 0x64⟩, ⟨0, 1, .rw, 1⟩]⟩,
  -- RCV_STATUS
  ⟨0x130008, 0x0, 1, 1, 1, none, .D, false, [⟨32, 8, .roV, 0⟩, ⟨8, 4, .roV, 0⟩, ⟨1, 1, .roV, 0⟩, ⟨0, 1, .roV, 0⟩]⟩,
  -- RCV_ERR
  ⟨0x130010, 0x0, 1, 1, 1, (some .D), .D, false, [⟨5, 1, .w1c, 0⟩, ⟨4, 1, .w1c, 0⟩, ⟨3, 1, .w1c, 0⟩, ⟨2, 1, .w1c, 0⟩, ⟨1, 1, .w1c, 0⟩, ⟨0, 1, .w1c, 0⟩]⟩,
  -- RCV_FENCE_BLK
  ⟨0x130018, 0x0, 1, 1, 1, none, .D, false, [⟨0, 28, .roV, 0⟩]⟩,
  -- RCV_FENCE_HOST0
  ⟨0x130020, 0x0, 1, 1, 1, none, .D, false, [⟨0, 64, .roV, 0⟩]⟩,
  -- RCV_FENCE_HOST1
  ⟨0x130028, 0x0, 1, 1, 1, none, .D, false, [⟨0, 64, .roV, 0⟩]⟩,
  -- RCV_HB_PULSE
  ⟨0x130030, 0x0, 1, 1, 1, (some .D), .D, false, [⟨0, 64, .wo, 0⟩]⟩,
  -- RCV_DUMP_CTL
  ⟨0x130038, 0x0, 1, 1, 1, (some .D), .D, false, [⟨0, 1, .w1s, 0⟩]⟩,
  -- RCV_DUMP_LAST
  ⟨0x130040, 0x0, 1, 1, 1, none, .D, false, [⟨32, 32, .roV, 0⟩, ⟨0, 32, .roV, 0⟩]⟩,
  -- RCV_DBUF_ADDR
  ⟨0x130048, 0x0, 1, 1, 1, (some .D), .D, false, [⟨0, 14, .rw, 0⟩]⟩,
  -- RCV_DBUF_DATA
  ⟨0x130050, 0x0, 1, 1, 1, none, .D, false, [⟨0, 64, .roV, 0⟩]⟩,
  -- RCV_HOLD_CTL
  ⟨0x130060, 0x0, 1, 0, 0, (some .F), .D, false, [⟨32, 16, .rw, 0x3e8⟩, ⟨3, 1, .rw, 1⟩, ⟨2, 1, .rw, 0⟩, ⟨1, 1, .w1s, 0⟩, ⟨0, 1, .w1s, 0⟩]⟩,
  -- RCV_HOLD_STATUS
  ⟨0x130068, 0x0, 1, 0, 0, none, .D, false, [⟨2, 2, .roV, 0⟩, ⟨0, 2, .roV, 0⟩]⟩,
  -- RCV_HOLD_WRPTR
  ⟨0x130070, 0x0, 1, 0, 0, none, .D, false, [⟨0, 64, .roV, 0⟩]⟩,
  -- RCV_HOLD_RDPTR
  ⟨0x130078, 0x0, 1, 0, 0, none, .D, false, [⟨0, 64, .roV, 0⟩]⟩,
  -- RCV_HOLD_LOST
  ⟨0x130080, 0x0, 1, 0, 0, none, .D, false, [⟨0, 64, .roV, 0⟩]⟩,
  -- RCV_CAP_SEL
  ⟨0x130088, 0x0, 1, 1, 1, (some .D), .D, false, [⟨0, 6, .rw, 0⟩]⟩,
  -- RCV_CAP_INFO
  ⟨0x130090, 0x0, 1, 1, 1, none, .D, false, [⟨63, 1, .roV, 0⟩, ⟨32, 16, .roV, 0⟩, ⟨0, 32, .roV, 0⟩]⟩,
  -- RCV_CAP_TIME
  ⟨0x130098, 0x0, 1, 1, 1, none, .D, false, [⟨0, 64, .roV, 0⟩]⟩,
  -- RCV_HB_CORE
  ⟨0x130100, 0x8, 4, 8, 8, none, .D, false, [⟨32, 32, .roV, 0⟩, ⟨0, 32, .roV, 0⟩]⟩,
  -- RCV_HB_HOST
  ⟨0x130200, 0x8, 32, 32, 32, none, .D, false, [⟨32, 32, .roV, 0⟩, ⟨0, 32, .roV, 0⟩]⟩,
  -- RCV_HB_HSRC
  ⟨0x130300, 0x8, 32, 32, 32, (some .F), .D, false, [⟨15, 1, .rw, 0⟩, ⟨0, 13, .rw, 0⟩]⟩,
  -- RCV_ORD_CMD
  ⟨0x131000, 0x20, 4, 4, 4, (some .D), .D, false, [⟨48, 16, .rw, 0⟩, ⟨16, 6, .rw, 0⟩, ⟨5, 1, .rw, 0⟩, ⟨4, 1, .rw, 0⟩, ⟨1, 3, .rw, 0⟩, ⟨0, 1, .w1s, 0⟩]⟩,
  -- RCV_ORD_ARG
  ⟨0x131008, 0x20, 4, 4, 4, (some .D), .D, false, [⟨0, 64, .rw, 0⟩]⟩,
  -- RCV_ORD_RESULT
  ⟨0x131010, 0x20, 4, 4, 4, (some .D), .D, false, [⟨48, 16, .rw, 0⟩, ⟨32, 1, .roV, 0⟩, ⟨16, 7, .roV, 0⟩, ⟨0, 8, .roV, 0⟩]⟩,
  -- RCV_EVT_OVERRUN
  ⟨0x13fff8, 0x0, 1, 1, 1, none, .D, false, [⟨0, 32, .roV, 0⟩]⟩]

/-- Registers at offsets 0x14_0000 to 0x14_FFFF. -/
def regPage14 : List RegRow := [
  -- GBK_CTL
  ⟨0x140000, 0x0, 1, 1, 1, (some .F), .D, false, [⟨0, 16, .rw, 0x3e8⟩]⟩,
  -- GBK_STATUS
  ⟨0x140008, 0x0, 1, 1, 1, none, .D, false, [⟨40, 1, .roV, 0⟩, ⟨32, 5, .roV, 0⟩, ⟨0, 9, .roV, 0⟩]⟩,
  -- GBK_HEAD
  ⟨0x140010, 0x0, 1, 1, 1, none, .D, false, [⟨0, 64, .roV, 0⟩]⟩,
  -- GBK_LOST
  ⟨0x140018, 0x0, 1, 1, 1, none, .D, false, [⟨0, 64, .roV, 0⟩]⟩,
  -- GBK_ERR
  ⟨0x140020, 0x0, 1, 1, 1, (some .D), .D, false, [⟨3, 1, .w1c, 0⟩, ⟨2, 1, .w1c, 0⟩, ⟨1, 1, .w1c, 0⟩, ⟨0, 1, .w1c, 0⟩]⟩,
  -- GBK_CURSOR
  ⟨0x140100, 0x8, 4, 4, 4, (some .D), .D, false, [⟨0, 64, .rw, 0⟩]⟩,
  -- GBK_EXP_CTL
  ⟨0x140200, 0x0, 1, 1, 1, (some .F), .D, false, [⟨8, 4, .rw, 3⟩, ⟨2, 1, .w1s, 0⟩, ⟨1, 1, .rw, 1⟩, ⟨0, 1, .rw, 0⟩]⟩,
  -- GBK_EXP_BASE
  ⟨0x140208, 0x0, 1, 1, 1, (some .F), .D, false, [⟨12, 40, .rw, 0⟩]⟩,
  -- GBK_EXP_LIM
  ⟨0x140210, 0x0, 1, 1, 1, (some .F), .D, false, [⟨12, 40, .rw, 0⟩]⟩,
  -- GBK_EXP_WRPTR
  ⟨0x140218, 0x0, 1, 1, 1, none, .D, false, [⟨0, 64, .roV, 0⟩]⟩,
  -- GBK_EXP_RDPTR
  ⟨0x140220, 0x0, 1, 1, 1, (some .D), .D, false, [⟨0, 64, .rw, 0⟩]⟩,
  -- GBK_EXP_NEXT
  ⟨0x140228, 0x0, 1, 1, 1, none, .D, false, [⟨0, 64, .roV, 0⟩]⟩,
  -- GBK_EVT_OVERRUN
  ⟨0x14fff8, 0x0, 1, 1, 1, none, .D, false, [⟨0, 32, .roV, 0⟩]⟩]

/-- Registers at offsets 0x15_0000 to 0x15_FFFF. -/
def regPage15 : List RegRow := [
  -- LDG_STATUS
  ⟨0x150000, 0x0, 1, 1, 1, none, .D, false, [⟨40, 1, .roV, 0⟩, ⟨32, 7, .roV, 0⟩, ⟨0, 17, .roV, 0⟩]⟩,
  -- LDG_SEQ
  ⟨0x150008, 0x0, 1, 1, 1, none, .D, false, [⟨0, 64, .roV, 0⟩]⟩,
  -- LDG_OVERWRITTEN
  ⟨0x150010, 0x0, 1, 1, 1, none, .D, false, [⟨0, 64, .roV, 0⟩]⟩,
  -- LDG_CHAIN
  ⟨0x150018, 0x0, 1, 1, 1, none, .D, false, [⟨0, 32, .roV, 0xffffffff⟩]⟩,
  -- LDG_RD_SEQ
  ⟨0x150020, 0x0, 1, 1, 1, (some .D), .D, false, [⟨0, 64, .rw, 0⟩]⟩,
  -- LDG_RD_DATA
  ⟨0x150028, 0x8, 8, 8, 8, none, .D, false, [⟨0, 64, .roV, 0⟩]⟩,
  -- LDG_EVT_OVERRUN
  ⟨0x15fff8, 0x0, 1, 1, 1, none, .D, false, [⟨0, 32, .roV, 0⟩]⟩]

/-- Registers at offsets 0x16_0000 to 0x16_FFFF. -/
def regPage16 : List RegRow := [
  -- SBX_CTL
  ⟨0x160000, 0x0, 1, 1, 1, (some .F), .D, false, [⟨0, 1, .rws, 1⟩]⟩,
  -- SBX_STATUS
  ⟨0x160008, 0x0, 1, 1, 1, none, .D, false, [⟨32, 32, .roV, 0⟩, ⟨8, 3, .roV, 0⟩, ⟨1, 1, .roV, 0⟩, ⟨0, 1, .roV, 0⟩]⟩,
  -- SBX_VACK
  ⟨0x160010, 0x0, 1, 1, 1, (some .D), .D, false, [⟨0, 32, .wo, 0⟩]⟩,
  -- SBX_VSTORE
  ⟨0x160018, 0x0, 1, 1, 1, none, .D, false, [⟨32, 32, .roV, 0⟩, ⟨16, 16, .roV, 0⟩, ⟨0, 9, .roV, 0⟩]⟩,
  -- SBX_FRAME_ADDR
  ⟨0x160020, 0x0, 1, 1, 1, (some .D), .D, false, [⟨0, 13, .rw, 0⟩]⟩,
  -- SBX_FRAME_DATA
  ⟨0x160028, 0x0, 1, 1, 1, none, .D, false, [⟨0, 64, .roV, 0⟩]⟩,
  -- SBX_EVT_OVERRUN
  ⟨0x16fff8, 0x0, 1, 1, 1, none, .D, false, [⟨0, 32, .roV, 0⟩]⟩]

/-- Registers at offsets 0x17_0000 to 0x17_FFFF. -/
def regPage17 : List RegRow := [
  -- CTL_STATUS
  ⟨0x170000, 0x0, 1, 1, 1, none, .D, false, [⟨24, 1, .roV, 0⟩, ⟨16, 2, .roV, 0⟩, ⟨8, 8, .roV, 0⟩, ⟨0, 8, .roV, 0⟩]⟩,
  -- CTL_FW_CTL
  ⟨0x170008, 0x0, 1, 1, 1, (some .F), .D, true, [⟨0, 1, .rws, 0⟩]⟩,
  -- CTL_FW_CMD
  ⟨0x170010, 0x0, 1, 1, 1, (some .F), .D, false, [⟨48, 16, .rw, 0⟩, ⟨3, 1, .rw, 0⟩, ⟨1, 2, .rw, 0⟩, ⟨0, 1, .w1s, 0⟩]⟩,
  -- CTL_FW_RESULT
  ⟨0x170018, 0x0, 1, 1, 1, (some .F), .D, false, [⟨48, 16, .rw, 0⟩, ⟨32, 1, .roV, 0⟩, ⟨0, 8, .roV, 0⟩]⟩,
  -- CTL_FW_INFO
  ⟨0x170020, 0x0, 1, 1, 1, none, .D, false, [⟨32, 32, .roV, 0⟩, ⟨1, 1, .roV, 0⟩, ⟨0, 1, .roV, 0⟩]⟩,
  -- CTL_FW_READY
  ⟨0x170028, 0x0, 1, 1, 1, (some .D), .D, false, [⟨0, 64, .wo, 0⟩]⟩,
  -- CTL_MODE_CMD
  ⟨0x170030, 0x0, 1, 1, 1, (some .F), .D, false, [⟨48, 16, .rw, 0⟩, ⟨4, 4, .rw, 0⟩, ⟨1, 1, .rw, 0⟩, ⟨0, 1, .w1s, 0⟩]⟩,
  -- CTL_MODE_RESULT
  ⟨0x170038, 0x0, 1, 1, 1, (some .F), .D, false, [⟨48, 16, .rw, 0⟩, ⟨32, 1, .roV, 0⟩, ⟨0, 8, .roV, 0⟩]⟩,
  -- CTL_MODE_BUF
  ⟨0x170040, 0x0, 1, 1, 1, (some .F), .D, false, [⟨12, 40, .rw, 0⟩]⟩,
  -- CTL_CW_STATUS
  ⟨0x170048, 0x0, 1, 1, 1, none, .D, false, [⟨16, 16, .roV, 0⟩, ⟨0, 16, .roV, 0⟩]⟩,
  -- CTL_ERR
  ⟨0x170050, 0x0, 1, 1, 1, (some .D), .D, false, [⟨0, 1, .w1c, 0⟩]⟩,
  -- CTL_EVT_OVERRUN
  ⟨0x17fff8, 0x0, 1, 1, 1, none, .D, false, [⟨0, 32, .roV, 0⟩]⟩]

/-- Registers at offsets 0x18_0000 to 0x18_FFFF. -/
def regPage18 : List RegRow := [
  -- SYN_ERR
  ⟨0x180000, 0x0, 1, 1, 1, (some .D), .D, false, [⟨2, 1, .w1c, 0⟩, ⟨1, 1, .w1c, 0⟩, ⟨0, 1, .w1c, 0⟩]⟩,
  -- SYN_SIGNAL
  ⟨0x180008, 0x0, 1, 1, 1, (some .D), .D, false, [⟨8, 32, .wo, 0⟩, ⟨0, 8, .wo, 0⟩]⟩,
  -- SYN_VIOLATION
  ⟨0x180010, 0x0, 1, 1, 1, (some .D), .D, false, [⟨0, 8, .wo, 0⟩]⟩,
  -- SYN_WAIT_ARG
  ⟨0x180100, 0x10, 4, 8, 8, (some .D), .D, false, [⟨48, 16, .rw, 0x3e8⟩, ⟨8, 32, .rw, 0⟩, ⟨0, 8, .rw, 0⟩]⟩,
  -- SYN_WAIT_GO
  ⟨0x180108, 0x10, 4, 8, 8, none, .D, false, [⟨0, 1, .roV, 0⟩]⟩,
  -- SYN_MAP
  ⟨0x180200, 0x8, 64, 64, 64, (some .F), .D, false, [⟨63, 1, .rw, 0⟩, ⟨16, 32, .rw, 0⟩, ⟨8, 8, .rw, 0⟩, ⟨0, 8, .rw, 0⟩]⟩,
  -- SYN_OBJ_VIEW0
  ⟨0x181000, 0x20, 256, 256, 256, none, .D, false, [⟨40, 3, .roV, 0⟩, ⟨32, 8, .roV, 0⟩, ⟨0, 32, .roV, 0⟩]⟩,
  -- SYN_OBJ_VIEW1
  ⟨0x181008, 0x20, 256, 256, 256, none, .D, false, [⟨32, 32, .roV, 0⟩, ⟨0, 8, .roV, 0xff⟩]⟩,
  -- SYN_OBJ_VIEW2
  ⟨0x181010, 0x20, 256, 256, 256, (some .F), .D, false, [⟨0, 32, .rw, 0⟩]⟩,
  -- SYN_OBJ_VIEW3
  ⟨0x181018, 0x20, 256, 256, 256, none, .D, false, []⟩,
  -- SYN_EVT_OVERRUN
  ⟨0x18fff8, 0x0, 1, 1, 1, none, .D, false, [⟨0, 32, .roV, 0⟩]⟩]

/-- Registers at offsets 0x19_0000 to 0x19_FFFF. -/
def regPage19 : List RegRow := [
  -- IRQ_SW_SET
  ⟨0x190000, 0x0, 1, 1, 1, (some .D), .D, false, [⟨0, 10, .wo, 0⟩]⟩,
  -- IRQ_DONE
  ⟨0x190008, 0x0, 1, 1, 1, (some .D), .D, false, [⟨0, 10, .wo, 0⟩]⟩,
  -- IRQ_GRP_OUT
  ⟨0x190010, 0x0, 1, 1, 1, none, .D, false, [⟨0, 64, .roV, 0⟩]⟩,
  -- IRQ_PEND
  ⟨0x191000, 0x8, 4, 16, 16, (some .D), .D, false, [⟨0, 64, .w1c, 0⟩]⟩,
  -- IRQ_MASK
  ⟨0x191100, 0x8, 4, 16, 16, (some .D), .D, false, [⟨0, 64, .rw, 0xffffffffffffffff⟩]⟩,
  -- IRQ_ACTIVE
  ⟨0x191200, 0x8, 4, 16, 16, none, .D, false, [⟨0, 64, .roV, 0⟩]⟩,
  -- IRQ_GRP_CTL
  ⟨0x192000, 0x8, 16, 64, 64, (some .F), .D, false, [⟨20, 4, .ro, 0⟩, ⟨16, 3, .ro, 0⟩, ⟨0, 16, .rw, 0⟩]⟩,
  -- IRQ_SRC_CFG
  ⟨0x194000, 0x8, 256, 1024, 1024, none, .D, false, [⟨8, 1, .ro, 0⟩, ⟨7, 1, .ro, 0⟩, ⟨0, 6, .ro, 0⟩]⟩,
  -- IRQ_EVT_OVERRUN
  ⟨0x19fff8, 0x0, 1, 1, 1, none, .D, false, [⟨0, 32, .roV, 0⟩]⟩]

/-- Registers at offsets 0x1a_0000 to 0x1a_FFFF. -/
def regPage1A : List RegRow := [
  -- PWR_CMD
  ⟨0x1a0000, 0x0, 1, 1, 1, (some .D), .D, false, [⟨48, 16, .rw, 0⟩, ⟨8, 1, .rw, 0⟩, ⟨4, 3, .rw, 0⟩, ⟨0, 1, .w1s, 0⟩]⟩,
  -- PWR_RESULT
  ⟨0x1a0008, 0x0, 1, 1, 1, (some .D), .D, false, [⟨48, 16, .rw, 0⟩, ⟨32, 1, .roV, 0⟩, ⟨24, 8, .roV, 0⟩, ⟨16, 8, .roV, 0⟩, ⟨0, 8, .roV, 0⟩]⟩,
  -- PWR_STATUS
  ⟨0x1a0010, 0x0, 1, 1, 1, none, .D, false, [⟨32, 32, .roV, 0⟩, ⟨4, 2, .roV, 0⟩, ⟨0, 3, .roV, 0⟩]⟩,
  -- PWR_WAKE_EN
  ⟨0x1a0018, 0x0, 1, 1, 1, (some .D), .D, false, [⟨0, 8, .rw, 0xff⟩]⟩,
  -- PWR_WAKE_TIMER
  ⟨0x1a0020, 0x0, 1, 1, 1, (some .D), .D, false, [⟨0, 64, .rw, 0⟩]⟩,
  -- PWR_TIMING
  ⟨0x1a0028, 0x0, 1, 1, 1, (some .D), .D, false, [⟨0, 16, .rw, 0x64⟩]⟩,
  -- PWR_LAST_WAKE
  ⟨0x1a0030, 0x0, 1, 1, 1, none, .D, false, [⟨32, 32, .roV, 0⟩, ⟨8, 8, .roV, 0⟩, ⟨4, 3, .roV, 0⟩, ⟨0, 2, .roV, 0⟩]⟩,
  -- PWR_CORE_ACK
  ⟨0x1a0038, 0x0, 1, 1, 1, (some .D), .D, false, [⟨0, 2, .wo, 0⟩]⟩,
  -- PWR_STEP
  ⟨0x1a0040, 0x0, 1, 1, 1, (some .D), .D, false, [⟨48, 16, .rw, 0⟩, ⟨16, 8, .rw, 0⟩, ⟨4, 3, .rw, 0⟩, ⟨1, 3, .rw, 0⟩, ⟨0, 1, .w1s, 0⟩]⟩,
  -- PWR_STEP_RESULT
  ⟨0x1a0048, 0x0, 1, 1, 1, (some .D), .D, false, [⟨48, 16, .rw, 0⟩, ⟨32, 1, .roV, 0⟩, ⟨8, 8, .roV, 0⟩, ⟨0, 2, .roV, 0⟩]⟩,
  -- PWR_ERR
  ⟨0x1a0050, 0x0, 1, 1, 1, (some .D), .D, false, [⟨2, 1, .w1c, 0⟩, ⟨1, 1, .w1c, 0⟩, ⟨0, 1, .w1c, 0⟩]⟩,
  -- PHU_STATUS
  ⟨0x1a0058, 0x0, 1, 1, 1, none, .D, false, [⟨3, 1, .roV, 0⟩, ⟨2, 1, .roV, 0⟩, ⟨1, 1, .roV, 0⟩, ⟨0, 1, .roV, 1⟩]⟩,
  -- PWR_EVT_OVERRUN
  ⟨0x1afff8, 0x0, 1, 1, 1, none, .D, false, [⟨0, 32, .roV, 0⟩]⟩]

/-- Registers at offsets 0x1b_0000 to 0x1b_FFFF. -/
def regPage1B : List RegRow := [
  -- LTN_CTL
  ⟨0x1b0000, 0x0, 1, 1, 1, (some .D), .D, false, [⟨24, 8, .w1s, 0⟩, ⟨16, 8, .rw, 0x10⟩, ⟨8, 8, .rw, 0xff⟩, ⟨1, 1, .w1s, 0⟩, ⟨0, 1, .rw, 0⟩]⟩,
  -- LTN_STATUS
  ⟨0x1b0008, 0x0, 1, 1, 1, none, .D, false, [⟨5, 1, .roV, 0⟩, ⟨4, 1, .roV, 0⟩, ⟨0, 2, .roV, 0⟩]⟩,
  -- LTN_SINK
  ⟨0x1b0010, 0x0, 1, 1, 1, (some .D), .D, false, [⟨32, 8, .rwl, 0x40⟩, ⟨16, 16, .rwl, 0x10⟩, ⟨2, 1, .rwl, 0⟩, ⟨0, 2, .rwl, 0⟩]⟩,
  -- LTN_RING_BASE
  ⟨0x1b0018, 0x0, 1, 1, 1, (some .D), .D, false, [⟨0, 32, .rwl, 0⟩]⟩,
  -- LTN_RING_SIZE
  ⟨0x1b0020, 0x0, 1, 1, 1, (some .D), .D, false, [⟨0, 32, .rwl, 0⟩]⟩,
  -- LTN_WRPTR
  ⟨0x1b0028, 0x0, 1, 1, 1, none, .D, false, [⟨0, 64, .roV, 0⟩]⟩,
  -- LTN_RDPTR
  ⟨0x1b0030, 0x0, 1, 1, 1, (some .D), .D, false, [⟨0, 64, .rw, 0⟩]⟩,
  -- LTN_MARK
  ⟨0x1b0038, 0x0, 1, 1, 1, none, .D, false, [⟨0, 64, .roV, 0⟩]⟩,
  -- LTN_LOST
  ⟨0x1b0040, 0x0, 1, 1, 1, none, .D, false, [⟨0, 64, .roV, 0⟩]⟩,
  -- LTN_ERR
  ⟨0x1b0048, 0x0, 1, 1, 1, (some .D), .D, false, [⟨1, 1, .w1c, 0⟩, ⟨0, 1, .w1c, 0⟩]⟩,
  -- LTN_COMP_CTL
  ⟨0x1b0100, 0x20, 8, 8, 8, (some .D), .D, false, [⟨8, 8, .rw, 0xff⟩, ⟨0, 3, .rw, 0⟩]⟩,
  -- LTN_COMP_LO
  ⟨0x1b0108, 0x20, 8, 8, 8, (some .D), .D, false, [⟨0, 64, .rw, 0⟩]⟩,
  -- LTN_COMP_HI
  ⟨0x1b0110, 0x20, 8, 8, 8, (some .D), .D, false, [⟨0, 64, .rw, 0⟩]⟩,
  -- LTN_STATE
  ⟨0x1b0200, 0x8, 4, 4, 4, (some .D), .D, false, [⟨24, 2, .rw, 0⟩, ⟨16, 8, .rw, 0⟩, ⟨12, 2, .rw, 0⟩, ⟨4, 8, .rw, 0⟩, ⟨1, 1, .rw, 0⟩, ⟨0, 1, .rw, 0⟩]⟩,
  -- LTN_EVT_OVERRUN
  ⟨0x1bfff8, 0x0, 1, 1, 1, none, .D, false, [⟨0, 32, .roV, 0⟩]⟩]

/-- Registers at offsets 0x1c_0000 to 0x1c_FFFF. -/
def regPage1C : List RegRow := [
  -- DBG_AUTH_CTL
  ⟨0x1c0000, 0x0, 1, 1, 1, (some .F), .D, false, [⟨1, 1, .w1s, 0⟩, ⟨0, 1, .w1s, 0⟩]⟩,
  -- DBG_AUTH_DATA
  ⟨0x1c0008, 0x0, 1, 1, 1, (some .D), .D, false, [⟨0, 64, .wo, 0⟩]⟩,
  -- DBG_AUTH_INFO
  ⟨0x1c0010, 0x0, 1, 1, 1, none, .D, false, [⟨63, 1, .roV, 0⟩, ⟨48, 3, .roV, 0⟩, ⟨40, 3, .roV, 0⟩, ⟨0, 40, .roV, 0⟩]⟩,
  -- DBG_CORE_CTL
  ⟨0x1c0018, 0x0, 1, 1, 1, (some .D), .D, false, [⟨16, 3, .rw, 0⟩, ⟨8, 8, .roV, 0⟩, ⟨2, 1, .w1s, 0⟩, ⟨1, 1, .w1s, 0⟩, ⟨0, 1, .w1s, 0⟩]⟩,
  -- DBG_CORE_PC
  ⟨0x1c0020, 0x0, 1, 1, 1, (some .S), .D, false, [⟨0, 64, .rw, 0⟩]⟩,
  -- DBG_CORE_REG
  ⟨0x1c0108, 0x8, 31, 31, 31, (some .S), .D, false, [⟨0, 64, .rw, 0⟩]⟩,
  -- DBG_ERR
  ⟨0x1c0028, 0x0, 1, 1, 1, (some .D), .D, false, [⟨0, 1, .w1c, 0⟩]⟩,
  -- DBG_EVT_OVERRUN
  ⟨0x1cfff8, 0x0, 1, 1, 1, none, .D, false, [⟨0, 32, .roV, 0⟩]⟩]

/-- Registers at offsets 0x1d_0000 to 0x1d_FFFF. -/
def regPage1D : List RegRow := [
  -- KSP_CFG
  ⟨0x1d0000, 0x0, 1, 1, 1, (some .F), .D, false, [⟨8, 8, .rws, 0x14⟩, ⟨0, 8, .rws, 0x14⟩]⟩,
  -- KSP_STATUS
  ⟨0x1d0008, 0x0, 1, 1, 1, none, .D, false, [⟨4, 3, .roV, 0⟩, ⟨1, 1, .roV, 0⟩, ⟨0, 1, .roV, 0⟩]⟩,
  -- KSP_CMD
  ⟨0x1d0010, 0x0, 1, 1, 1, (some .F), .D, false, [⟨48, 16, .rw, 0⟩, ⟨32, 8, .rw, 0⟩, ⟨3, 1, .rw, 0⟩, ⟨1, 2, .rw, 0⟩, ⟨0, 1, .w1s, 0⟩]⟩,
  -- KSP_CMD_ADDR
  ⟨0x1d0018, 0x0, 1, 1, 1, (some .F), .D, false, [⟨0, 32, .rw, 0⟩]⟩,
  -- KSP_CMD_RESULT
  ⟨0x1d0020, 0x0, 1, 1, 1, (some .F), .D, false, [⟨48, 16, .rw, 0⟩, ⟨32, 1, .roV, 0⟩, ⟨0, 8, .roV, 0⟩]⟩,
  -- KSP_ERR
  ⟨0x1d0028, 0x0, 1, 1, 1, (some .D), .D, false, [⟨4, 1, .w1c, 0⟩, ⟨3, 1, .w1c, 0⟩, ⟨2, 1, .w1c, 0⟩, ⟨1, 1, .w1c, 0⟩, ⟨0, 1, .w1c, 0⟩]⟩,
  -- KSP_CMD_DATA
  ⟨0x1d0100, 0x8, 32, 32, 32, (some .F), .D, false, [⟨0, 64, .rw, 0⟩]⟩,
  -- KSP_EVT_OVERRUN
  ⟨0x1dfff8, 0x0, 1, 1, 1, none, .D, false, [⟨0, 32, .roV, 0⟩]⟩]

/-- Registers at offsets 0x50_0000 to 0x50_FFFF. -/
def regPage50 : List RegRow := [
  -- TGAW_ADDR
  ⟨0x500000, 0x40, 16, 16, 16, (some .F), .D, false, [⟨0, 64, .rw, 0⟩]⟩,
  -- TGAW_CTL
  ⟨0x500008, 0x40, 16, 16, 16, (some .F), .D, false, [⟨48, 16, .rw, 0⟩, ⟨2, 1, .rw, 0⟩, ⟨0, 1, .w1s, 0⟩]⟩,
  -- TGAW_WDATA
  ⟨0x500010, 0x40, 16, 16, 16, (some .F), .D, false, [⟨0, 64, .rw, 0⟩]⟩,
  -- TGAW_RESULT
  ⟨0x500018, 0x40, 16, 16, 16, (some .F), .F, false, [⟨48, 16, .rw, 0⟩, ⟨32, 1, .roV, 0⟩, ⟨16, 1, .roV, 0⟩, ⟨0, 8, .roV, 0⟩]⟩,
  -- TGAW_DATA
  ⟨0x500020, 0x40, 16, 16, 16, none, .F, false, [⟨0, 64, .roV, 0⟩]⟩,
  -- TGAW_EPOCH
  ⟨0x500028, 0x40, 16, 16, 16, none, .F, false, [⟨0, 48, .roV, 0⟩]⟩,
  -- TGAW_FROM
  ⟨0x500030, 0x40, 16, 16, 16, none, .F, false, [⟨0, 27, .roV, 0⟩]⟩]

/-- Registers at offsets 0x58_0000 to 0x58_FFFF. -/
def regPage58 : List RegRow := [
  -- CW_WORD31
  ⟨0x5800f8, 0x100, 16, 16, 16, (some .D), .D, false, [⟨48, 16, .wo, 0⟩]⟩,
  -- CW_WORD0
  ⟨0x580000, 0x100, 16, 16, 16, (some .D), .D, false, [⟨48, 16, .rw, 0⟩, ⟨0, 8, .rw, 0⟩]⟩,
  -- CW_WORD
  ⟨0x580000, 0x8, 512, 512, 512, (some .D), .D, false, [⟨0, 64, .rw, 0⟩]⟩,
  -- CW_RESULT
  ⟨0x581000, 0x20, 16, 16, 16, (some .D), .D, false, [⟨48, 16, .rw, 0⟩, ⟨32, 1, .roV, 0⟩, ⟨0, 8, .roV, 0⟩]⟩,
  -- CW_RDATA0
  ⟨0x581008, 0x20, 16, 16, 16, none, .D, false, [⟨0, 64, .roV, 0⟩]⟩,
  -- CW_RDATA1
  ⟨0x581010, 0x20, 16, 16, 16, none, .D, false, [⟨0, 64, .roV, 0⟩]⟩,
  -- CW_RDATA2
  ⟨0x581018, 0x20, 16, 16, 16, none, .D, false, [⟨0, 64, .roV, 0⟩]⟩]

/-- The rows of the 64 KiB block `k` of the window. -/
def regPage (k : Nat) : List RegRow :=
  match k with
  | 0x00 => regPage00
  | 0x01 => regPage01
  | 0x02 => regPage02
  | 0x03 => regPage03
  | 0x04 => regPage04
  | 0x05 => regPage05
  | 0x06 => regPage06
  | 0x07 => regPage07
  | 0x08 => regPage08
  | 0x09 => regPage09
  | 0x0a => regPage0A
  | 0x0b => regPage0B
  | 0x0c => regPage0C
  | 0x0d => regPage0D
  | 0x0e => regPage0E
  | 0x0f => regPage0F
  | 0x10 => regPage10
  | 0x11 => regPage11
  | 0x12 => regPage12
  | 0x13 => regPage13
  | 0x14 => regPage14
  | 0x15 => regPage15
  | 0x16 => regPage16
  | 0x17 => regPage17
  | 0x18 => regPage18
  | 0x19 => regPage19
  | 0x1a => regPage1A
  | 0x1b => regPage1B
  | 0x1c => regPage1C
  | 0x1d => regPage1D
  | 0x50 => regPage50
  | 0x58 => regPage58
  | _ => []

end Sys2Proof.Machine
end

