-- ==== Sys2Proof/Machine/Zstd.lean ====
section
/-!
DEFINITION. Zstandard frames (R532, R533): the decoder of every block, literals and sequence mode, the content checksum
XXH64, and the frame of the encoder. The format itself is RFC 8878, which the spec names and does not repeat (PRESUMED,
log 40).
-/
namespace Sys2Proof.Machine

/-! Bit streams. -/

/-- Position of the highest set bit; 0 for 0. -/
def topBit (n : Nat) : Nat := Nat.log2 n

/-- A backward bit stream: the number its bytes spell and the bits still to read; reads past the start give zeros. -/
structure ZBits where
  n : Nat
  pos : Int
  deriving DecidableEq, Repr

/-- A backward stream from its last set bit down; `none` if the last byte is 0. -/
def zBits (b : List Byte) : Option ZBits :=
  match b.getLast? with
  | none => none
  | some l => if l = 0 then none else some { n := leNat b, pos := (topBit l.toNat + 8 * (b.length - 1) : Nat) }

def ZBits.take (k : Nat) (z : ZBits) : Nat × ZBits :=
  let p : Int := z.pos - k
  ((if 0 ≤ p then z.n / 2 ^ p.toNat else z.n * 2 ^ (-p).toNat) % 2 ^ k, { z with pos := p })

/-! FSE tables. -/

/-- A table: one symbol, or an accuracy log with the normalised counts (-1: less than one). -/
inductive ZTab where
  | rle (sym : Nat)
  | dist (al : Nat) (f : List Int)
  deriving DecidableEq, Repr

/-- A built table: accuracy log, and per state its symbol, the bits to read and the base of the next state. -/
structure ZFse where
  al : Nat
  rows : Array (Nat × Nat × Nat)
  deriving Repr

/-- Spreads a symbol over `k` cells from `pos`; cells from `hi` up are taken. -/
def zSpread (size hi sym : Nat) : Nat → Nat → Array Nat → Nat × Array Nat
  | 0, pos, t => (pos, t)
  | k + 1, pos, t =>
    let step := size / 2 + size / 8 + 3
    let rec skip : Nat → Nat → Nat
      | 0, p => p
      | f + 1, p => if hi ≤ p then skip f ((p + step) % size) else p
    zSpread size hi sym k (skip size ((pos + step) % size)) (t.set! pos sym)

/-- Builds a table; `none` if its counts do not fill it. -/
def zBuild : ZTab → Option ZFse
  | .rle s => some { al := 0, rows := #[(s, 0, 0)] }
  | .dist al f =>
    let size := 2 ^ al
    let syms := (List.range f.length).zip f
    let low := syms.filter fun e => e.2 == -1
    let t0 := ((List.range low.length).zip low).foldl (fun t e => t.set! (size - 1 - e.1) e.2.1) (Array.replicate size 0)
    let hi := size - low.length
    let (pos, t) := syms.foldl (fun a e => if 0 < e.2 then zSpread size hi e.1 e.2.toNat a.1 a.2 else a) (0, t0)
    if pos ≠ 0 then none
    else
      let d0 := (f.map fun x => if x = -1 then 1 else x.toNat).toArray
      let (rows, _) := t.foldl (fun (a : Array (Nat × Nat × Nat) × Array Nat) sym =>
        let d := a.2.getD sym 1
        let nb := al - topBit d
        (a.1.push (sym, nb, d * 2 ^ nb - size), a.2.set! sym (d + 1))) (#[], d0)
      some { al, rows }

def ZFse.sym (t : ZFse) (st : Nat) : Nat := (t.rows.getD st (0, 0, 0)).1
def ZFse.init (t : ZFse) (z : ZBits) : Nat × ZBits := z.take t.al
def ZFse.next (t : ZFse) (st : Nat) (z : ZBits) : Nat × ZBits :=
  let r := t.rows.getD st (0, 0, 0)
  let (v, z1) := z.take r.2.1
  (r.2.2 + v, z1)

/-- Runs of zero counts: two bits at a time from bit `p` of a forward stream; the zeros and the position after. -/
def zZeros (n : Nat) : Nat → Nat → Nat × Nat
  | 0, p => (0, p)
  | fuel + 1, p =>
    let r := n / 2 ^ p % 4
    if r = 3 then let (k, q) := zZeros n fuel (p + 2); (3 + k, q) else (r, p + 2)

/-- Counts of a table description from bit `p` of a forward stream, until `left` is used up; the counts and the position
after, or `none` on a malformed description. -/
def zCounts (n : Nat) : Nat → Nat → Int → List Int → Option (List Int × Nat)
  | 0, _, _, _ => none
  | fuel + 1, p, left, acc =>
    if left = 0 then some (acc, p)
    else if left < 0 ∨ 256 ≤ acc.length then none
    else
      let bits := topBit (left.toNat + 1) + 1
      let v := n / 2 ^ p % 2 ^ bits
      let half := 2 ^ (bits - 1)
      let thr := 2 ^ bits - 1 - (left.toNat + 1)
      let (v1, p1) := if v % half < thr then (v % half, p + bits - 1) else if half ≤ v then (v - thr, p + bits) else (v, p + bits)
      let pr : Int := (v1 : Int) - 1
      let left1 := left - (if pr < 0 then 1 else pr)
      if pr = 0 then
        let (z, p2) := zZeros n 200 p1
        zCounts n fuel p2 left1 (acc ++ List.replicate (z + 1) 0)
      else zCounts n fuel p1 left1 (acc ++ [pr])

/-- A table description at the head of some bytes: the table and the bytes used. -/
def zTable (b : List Byte) (maxAl : Nat) : Option (ZTab × Nat) :=
  let n := leNat (b.take 600)
  let al := n % 16 + 5
  if maxAl < al then none
  else match zCounts n 300 4 (2 ^ al : Nat) [] with
    | none => none
    | some (f, p) =>
      let used := (p + 7) / 8
      if b.length < used ∨ 256 < f.length then none else some (.dist al f, used)

/-! Huffman coding of literals. -/

/-- Weights by two interleaved states; `fuel` bounds the symbols. -/
def zWeights (t : ZFse) : Nat → Nat → Nat → ZBits → List Nat → List Nat
  | 0, _, _, _, acc => acc
  | fuel + 1, a, b, z, acc =>
    let acc1 := acc ++ [t.sym a]
    let (a1, z1) := t.next a z
    if z1.pos < 0 then acc1 ++ [t.sym b] else zWeights t fuel b a1 z1 acc1

/-- The code lengths of a tree description and the bytes it takes. -/
def zTree (b : List Byte) : Option (List Nat × Nat) :=
  match b with
  | [] => none
  | h :: rest =>
    let ws : Option (List Nat × Nat) :=
      if 128 ≤ h.toNat then
        let n := h.toNat - 127
        let k := (n + 1) / 2
        if rest.length < k then none
        else some (((rest.take k).flatMap fun x => [x.toNat / 16, x.toNat % 16]).take n, 1 + k)
      else
        let body := rest.take h.toNat
        if body.length < h.toNat ∨ h = 0 then none
        else match zTable body 6 with
          | none => none
          | some (t, used) => match zBuild t, zBits (body.drop used) with
            | some f, some z =>
              let (s1, z1) := f.init z
              let (s2, z2) := f.init z1
              some (zWeights f 256 s1 s2 z2 [], 1 + h.toNat)
            | _, _ => none
    match ws with
    | none => none
    | some (w, used) =>
      let sum := w.foldl (fun s x => s + (if x = 0 then 0 else 2 ^ (x - 1))) 0
      let mb := topBit sum + 1
      let left := 2 ^ mb - sum
      if sum = 0 ∨ 11 < mb ∨ 255 < w.length ∨ 2 ^ topBit left ≠ left ∨ w.any (12 < ·) then none
      else some ((w ++ [topBit left + 1]).map fun x => if x = 0 then 0 else mb + 1 - x, used)

/-- The decoding table of code lengths: the greatest length, and per state the symbol and its length. -/
def zHuf (lens : List Nat) : Option (Nat × Array (Nat × Nat)) :=
  let mb := lens.foldl max 0
  let syms := (List.range lens.length).zip lens
  let t := (List.range mb).foldl (fun t i =>
    let l := mb - i
    (syms.filter fun e => e.2 == l).foldl (fun t e => t ++ Array.replicate (2 ^ (mb - l)) (e.1, l)) t) #[]
  if t.size = 2 ^ mb then some (mb, t) else none

/-- The literals of one stream; `fuel` bounds them. -/
def zHufRun (mb : Nat) (t : Array (Nat × Nat)) : Nat → Nat → ZBits → Array Byte → Option (Array Byte)
  | 0, _, z, acc => if z.pos = -(mb : Int) then some acc else none
  | fuel + 1, st, z, acc =>
    if z.pos ≤ -(mb : Int) then (if z.pos = -(mb : Int) then some acc else none)
    else
      let e := t.getD st (0, 0)
      let (v, z1) := z.take e.2
      zHufRun mb t fuel ((st * 2 ^ e.2 + v) % 2 ^ mb) z1 (acc.push (BitVec.ofNat 8 e.1))

def zStream (lens : List Nat) (b : List Byte) (n : Nat) : Option (List Byte) :=
  match zHuf lens, zBits b with
  | some (mb, t), some z =>
    let (st, z1) := z.take mb
    match zHufRun mb t n st z1 #[] with
    | some o => if o.size = n then some o.toList else none
    | none => none
  | _, _ => none

/-! Blocks. -/

/-- What a frame carries from block to block: output so far, repeat offsets, Huffman code lengths, and the three sequence
tables. -/
structure ZSt where
  out : Array Byte := #[]
  reps : Nat × Nat × Nat := (1, 4, 8)
  huf : Option (List Nat) := none
  ll : Option ZTab := none
  off : Option ZTab := none
  ml : Option ZTab := none
  deriving Repr

/-- The literals section: literals, bytes used, code lengths after. -/
def zLiterals (z : ZSt) (b : List Byte) : Option (List Byte × Nat × Option (List Nat)) :=
  let h := leNat (b.take 5)
  let ty := h % 4
  let sf := h / 4 % 4
  if b.isEmpty then none
  else if ty < 2 then
    let (n, k) := if sf % 2 = 0 then (h / 8 % 32, 1) else if sf = 1 then (h / 16 % 2 ^ 12, 2) else (h / 16 % 2 ^ 20, 3)
    if ty = 0 then (if b.length < k + n then none else some ((b.drop k).take n, k + n, z.huf))
    else if b.length < k + 1 then none
    else some (List.replicate n (byteAt b k), k + 1, z.huf)
  else
    let w := if sf < 2 then 10 else if sf = 2 then 14 else 18
    let k := if sf < 2 then 3 else if sf = 2 then 4 else 5
    let n := h / 16 % 2 ^ w
    let c := h / 2 ^ (4 + w) % 2 ^ w
    if b.length < k + c ∨ 131072 < n then none
    else
      let body := (b.drop k).take c
      let tree : Option (List Nat × Nat) := if ty = 3 then z.huf.map fun l => (l, 0) else zTree body
      match tree with
      | none => none
      | some (lens, used) =>
        let d := body.drop used
        let lits : Option (List Byte) :=
          if sf = 0 then zStream lens d n
          else if d.length < 6 then none
          else
            let s1 := leAt d 0 2
            let s2 := leAt d 2 2
            let s3 := leAt d 4 2
            let e := d.drop 6
            let q := (n + 3) / 4
            if e.length < s1 + s2 + s3 ∨ n < 3 * q then none
            else match zStream lens (e.take s1) q, zStream lens ((e.drop s1).take s2) q, zStream lens ((e.drop (s1 + s2)).take s3) q,
                zStream lens (e.drop (s1 + s2 + s3)) (n - 3 * q) with
              | some a, some b, some c, some d => some (a ++ b ++ c ++ d)
              | _, _, _, _ => none
        lits.map fun l => (l, k + c, some lens)

/-- The literal length and match length codes: baseline and extra bits. -/
def llCode (c : Nat) : Nat × Nat :=
  if c < 16 then (c, 0)
  else ([(16, 1), (18, 1), (20, 1), (22, 1), (24, 2), (28, 2), (32, 3), (40, 3), (48, 4), (64, 6), (128, 7), (256, 8), (512, 9),
    (1024, 10), (2048, 11), (4096, 12), (8192, 13), (16384, 14), (32768, 15), (65536, 16)] : List (Nat × Nat)).getD (c - 16) (0, 0)
def mlCode (c : Nat) : Nat × Nat :=
  if c < 32 then (c + 3, 0)
  else ([(35, 1), (37, 1), (39, 1), (41, 1), (43, 2), (47, 2), (51, 3), (59, 3), (67, 4), (83, 4), (99, 5), (131, 7), (259, 8),
    (515, 9), (1027, 10), (2051, 11), (4099, 12), (8195, 13), (16387, 14), (32771, 15), (65539, 16)] : List (Nat × Nat)).getD (c - 32) (0, 0)

/-- The predefined tables. -/
def zDefLL : ZTab := .dist 6 ([4, 3] ++ List.replicate 11 2 ++ [1, 1, 1] ++ List.replicate 9 2 ++ [3, 2, 1, 1, 1, 1, 1, -1, -1, -1, -1])
def zDefOF : ZTab := .dist 5 (List.replicate 6 1 ++ [2, 2, 2] ++ List.replicate 15 1 ++ List.replicate 5 (-1))
def zDefML : ZTab := .dist 6 ([1, 4, 3] ++ List.replicate 6 2 ++ List.replicate 37 1 ++ List.replicate 7 (-1))

/-- The table of one sequence field: mode, the table before, default, greatest accuracy log and symbol; with the bytes used. -/
def zMode (mode : Nat) (old : Option ZTab) (dflt : ZTab) (maxAl maxSym : Nat) (b : List Byte) : Option (ZTab × Nat) :=
  match mode with
  | 0 => some (dflt, 0)
  | 1 => match b with
    | x :: _ => if maxSym < x.toNat then none else some (.rle x.toNat, 1)
    | [] => none
  | 2 => match zTable b maxAl with
    | some (.dist al f, n) => if maxSym + 1 < f.length then none else some (.dist al f, n)
    | _ => none
  | _ => old.map fun t => (t, 0)

/-- A match is copied byte by byte. -/
def zCopy (off : Nat) : Nat → Array Byte → Array Byte
  | 0, o => o
  | n + 1, o => zCopy off n (o.push (o.getD (o.size - off) 0))

/-- The offset of a sequence and the repeat offsets after it; `none` for an offset of 0. -/
def zOffset (v ll : Nat) (r : Nat × Nat × Nat) : Option (Nat × Nat × Nat × Nat) :=
  if 3 < v then some (v - 3, v - 3, r.1, r.2.1)
  else match v - 1 + (if ll = 0 then 1 else 0) with
    | 0 => some (r.1, r)
    | 1 => some (r.2.1, r.2.1, r.1, r.2.2)
    | 2 => some (r.2.2, r.2.2, r.1, r.2.1)
    | _ => if r.1 ≤ 1 then none else some (r.1 - 1, r.1 - 1, r.1, r.2.1)

/-- The sequences of a block: `n` left, states, literals left. -/
def zSeqs (tl tf tm : ZFse) : Nat → Nat → Nat → Nat → ZBits → List Byte → ZSt → Option (List Byte × ZSt)
  | 0, _, _, _, z, lits, st => if z.pos = 0 then some (lits, st) else none
  | n + 1, sl, so, sm, z, lits, st =>
    let oc := tf.sym so
    let m := mlCode (tm.sym sm)
    let l := llCode (tl.sym sl)
    let (vo, z1) := z.take oc
    let (vm, z2) := z1.take m.2
    let (vl, z3) := z2.take l.2
    let ll := l.1 + vl
    match zOffset (2 ^ oc + vo) ll st.reps with
    | none => none
    | some (off, reps) =>
      let o := st.out ++ (lits.take ll).toArray
      if lits.length < ll ∨ o.size < off ∨ z3.pos < 0 then none
      else
        let st1 := { st with out := zCopy off (m.1 + vm) o, reps }
        if n = 0 then (if z3.pos = 0 then some (lits.drop ll, st1) else none)
        else
          let (sl1, z4) := tl.next sl z3
          let (sm1, z5) := tm.next sm z4
          let (so1, z6) := tf.next so z5
          zSeqs tl tf tm n sl1 so1 sm1 z6 (lits.drop ll) st1

/-- A Compressed block. -/
def zCompressed (z : ZSt) (b : List Byte) : Option ZSt :=
  match zLiterals z b with
  | none => none
  | some (lits, used, huf) =>
    let z1 := { z with huf }
    let c := b.drop used
    let b0 := leAt c 0 1
    let (n, k) := if b0 < 128 then (b0, 1) else if b0 < 255 then ((b0 - 128) * 256 + leAt c 1 1, 2) else (leAt c 1 2 + 0x7F00, 3)
    if c.length < k then none
    else if n = 0 then (if c.length = k then some { z1 with out := z1.out ++ lits.toArray } else none)
    else
      let m := leAt c k 1
      let d := c.drop (k + 1)
      if c.length < k + 1 ∨ m % 4 ≠ 0 then none
      else match zMode (m / 64) z.ll zDefLL 9 35 d with
        | none => none
        | some (ll, u1) => match zMode (m / 16 % 4) z.off zDefOF 8 31 (d.drop u1) with
          | none => none
          | some (off, u2) => match zMode (m / 4 % 4) z.ml zDefML 9 52 (d.drop (u1 + u2)) with
            | none => none
            | some (ml, u3) =>
              match zBuild ll, zBuild off, zBuild ml, zBits (d.drop (u1 + u2 + u3)) with
              | some tl, some tf, some tm, some bs =>
                let (sl, x1) := tl.init bs
                let (so, x2) := tf.init x1
                let (sm, x3) := tm.init x2
                match zSeqs tl tf tm n sl so sm x3 lits { z1 with ll := some ll, off := some off, ml := some ml } with
                | none => none
                | some (rest, z2) => some { z2 with out := z2.out ++ rest.toArray }
              | _, _, _, _ => none

/-! XXH64, seed 0. -/

def xP1 : Word := 0x9E3779B185EBCA87#64
def xP2 : Word := 0xC2B2AE3D27D4EB4F#64
def xP3 : Word := 0x165667B19E3779F9#64
def xP4 : Word := 0x85EBCA77C2B2AE63#64
def xP5 : Word := 0x27D4EB2F165667C5#64
def xRound (acc v : Word) : Word := (acc + v * xP2).rotateLeft 31 * xP1
def xMerge (h v : Word) : Word := (h ^^^ xRound 0 v) * xP1 + xP4
def xWord (b : List Byte) (i : Nat) : Word := BitVec.ofNat 64 (leAt b i 8)

/-- The 32-byte stripes. -/
def xStripes : Nat → List Byte → Word × Word × Word × Word → (Word × Word × Word × Word) × List Byte
  | 0, b, v => (v, b)
  | n + 1, b, v => xStripes n (b.drop 32) (xRound v.1 (xWord b 0), xRound v.2.1 (xWord b 8), xRound v.2.2.1 (xWord b 16), xRound v.2.2.2 (xWord b 24))

/-- The bytes past the last stripe. -/
def xTail : Nat → List Byte → Word → Word
  | 0, _, h => h
  | fuel + 1, b, h =>
    if 8 ≤ b.length then xTail fuel (b.drop 8) ((h ^^^ xRound 0 (xWord b 0)).rotateLeft 27 * xP1 + xP4)
    else if 4 ≤ b.length then xTail fuel (b.drop 4) ((h ^^^ (BitVec.ofNat 64 (leAt b 0 4) * xP1)).rotateLeft 23 * xP2 + xP3)
    else match b with
      | [] => h
      | x :: t => xTail fuel t ((h ^^^ (x.setWidth 64 * xP5)).rotateLeft 11 * xP1)

def xxh64 (b : List Byte) : Word :=
  let (v, rest) := xStripes (b.length / 32) b (xP1 + xP2, xP2, 0, 0 - xP1)
  let h := if b.length < 32 then xP5
    else xMerge (xMerge (xMerge (xMerge (v.1.rotateLeft 1 + v.2.1.rotateLeft 7 + v.2.2.1.rotateLeft 12 + v.2.2.2.rotateLeft 18) v.1) v.2.1) v.2.2.1) v.2.2.2
  let h1 := xTail 40 rest (h + BitVec.ofNat 64 b.length)
  let h2 := (h1 ^^^ (h1 >>> 33)) * xP2
  let h3 := (h2 ^^^ (h2 >>> 29)) * xP3
  h3 ^^^ (h3 >>> 32)

/-! Frames (R533, R545). -/

/-- What a decode job meets in its input, in order: a frame header with its Frame_Content_Size, a block with the input used up
to its end, or the end with a status of CMP_JOBs_RESULT. -/
inductive ZEv where
  | frame (fcs : Option Nat)
  | block (out : List Byte) (used : Nat)
  | stop (status : Nat)
  deriving DecidableEq, Repr

/-- The header of a frame after its magic number: the window size, the content size, the checksum flag and the bytes used; or a
status. -/
def zHeader (b : List Byte) : Except Nat (Nat × Option Nat × Bool × Nat) :=
  match b with
  | [] => .error 7
  | d :: t =>
    let x := d.toNat
    let single := x.testBit 5
    let wd := if single then 0 else 1
    let dl := [0, 1, 2, 4].getD (x % 4) 0
    let fl := match x / 64 with
      | 0 => if single then 1 else 0
      | 1 => 2
      | 2 => 4
      | _ => 8
    if x.testBit 3 then .error 8
    else if t.length < wd + dl + fl then .error 7
    else if leAt t wd dl ≠ 0 then .error 8
    else
      let w := (t.headD 0).toNat
      let fcs := if fl = 0 then none else some (leAt t (wd + dl) fl + (if fl = 2 then 256 else 0))
      let base := 2 ^ (10 + w / 8)
      let win := if single then fcs.getD 0 else base + base / 8 * (w % 8)
      if 134217728 < win then .error 9 else .ok (win, fcs, x.testBit 2, 1 + wd + dl + fl)

/-- The blocks of a frame from offset `p` of the input: the events, and the bytes after the frame with their offset, or nothing
when it ends the job. -/
def zBlocks (win : Nat) (fcs : Option Nat) (chk : Bool) : Nat → Nat → List Byte → ZSt → List ZEv × Option (Nat × List Byte)
  | 0, _, _, _ => ([.stop 7], none)
  | fuel + 1, p, b, z =>
    if b.length < 3 then ([.stop 7], none)
    else
      let h := leAt b 0 3
      let ty := h / 2 % 4
      let n := h / 8
      let maxB := min 131072 win
      let k := if ty = 1 then 1 else n
      let body := (b.drop 3).take k
      if ty = 3 ∨ maxB < n ∨ body.length < k then ([.stop 7], none)
      else
        let z1 : Option ZSt := match ty with
          | 0 => some { z with out := z.out ++ body.toArray }
          | 1 => some { z with out := z.out ++ Array.replicate n (body.headD 0) }
          | _ => zCompressed z body
        match z1 with
        | none => ([.stop 7], none)
        | some z2 =>
          let out := z2.out.toList.drop z.out.size
          let past : Bool := match fcs with | some f => decide (f < z2.out.size) | none => false
          if maxB < out.length ∨ past then ([.stop 7], none)
          else
            let p1 := p + 3 + k
            let rest := b.drop (3 + k)
            let ev := ZEv.block out p1
            if h % 2 = 0 then
              let (es, r) := zBlocks win fcs chk fuel p1 rest z2
              (ev :: es, r)
            else
              let short : Bool := match fcs with | some f => f != z2.out.size | none => false
              if short then ([ev, .stop 7], none)
              else if !chk then ([ev], some (p1, rest))
              else if rest.length < 4 then ([ev, .stop 7], none)
              else if leAt rest 0 4 ≠ (xxh64 z2.out.toList).toNat % 2 ^ 32 then ([ev, .stop 10], none)
              else ([ev], some (p1 + 4, rest.drop 4))

/-- Concatenated frames from offset `p` (R533). -/
def zFrames : Nat → Nat → List Byte → List ZEv
  | 0, _, _ => [.stop 7]
  | fuel + 1, p, b =>
    if b.isEmpty then [.stop 0]
    else if b.length < 4 then [.stop 7]
    else
      let m := leAt b 0 4
      if 0x184D2A50 ≤ m ∧ m ≤ 0x184D2A5F then
        if b.length < 8 + leAt b 4 4 then [.stop 7] else zFrames fuel (p + 8 + leAt b 4 4) (b.drop (8 + leAt b 4 4))
      else if m ≠ 0xFD2FB528 then [.stop 7]
      else match zHeader (b.drop 4) with
        | .error st => [.stop st]
        | .ok (win, fcs, chk, n) =>
          let (es, r) := zBlocks win fcs chk (b.length + 1) (p + 4 + n) (b.drop (4 + n)) {}
          .frame fcs :: es ++ (match r with
            | none => []
            | some (q, rest) => zFrames fuel q rest)

/-- The course of a decode of some bytes. -/
def zPlan (b : List Byte) : List ZEv := zFrames (b.length + 1) 0 b

/-! The encoder (R532). -/

/-- Frame header for `n` input bytes. -/
def encHeader (wlog n : Nat) (chk : Bool) : List Byte :=
  let single : Bool := n ≤ 2 ^ wlog
  let (code, len, v) := if n < 256 ∧ single then (0, 1, n) else if 256 ≤ n ∧ n < 65792 then (1, 2, n - 256)
    else if n < 2 ^ 32 then (2, 4, n) else (3, 8, n)
  leBytes 4 0xFD2FB528 ++ leBytes 1 (code * 64 + (if single then 32 else 0) + (if chk then 4 else 0))
    ++ (if single then [] else leBytes 1 ((wlog - 10) * 8)) ++ leBytes len v

/-- A block with its header. -/
def encBlock (ty n : Nat) (last : Bool) (content : List Byte) : List Byte :=
  leBytes 3 ((if last then 1 else 0) + 2 * ty + 8 * n) ++ content

/-- Block `i` of the input: RLE or Compressed as the encoder chooses, if it decodes to its input (R543) without Treeless literals
and Repeat tables, and is smaller than Raw (R532); otherwise, and when it is replaced under R544 (`ok` false), Raw. With the decoder's state after it. -/
def encStep (level wlog : Nat) (src : List Byte) (oks : List Bool) (z : ZSt) (i : Nat) (ok : Bool) : List Byte × ZSt :=
  let chunk := (src.drop (i * 131072)).take 131072
  let last : Bool := src.length ≤ (i + 1) * 131072
  let raw := (encBlock 0 chunk.length last chunk, { z with out := z.out ++ chunk.toArray })
  let (ty, c) := Config.zstdBlock level wlog src i oks
  let want := z.out ++ chunk.toArray
  if !ok then raw
  else if ty = 1 ∧ !chunk.isEmpty ∧ chunk = List.replicate chunk.length (chunk.headD 0) then
    (encBlock 1 chunk.length last (chunk.take 1), { z with out := want })
  else if ty = 2 ∧ c.length < chunk.length then
    match zCompressed { z with huf := none, ll := none, off := none, ml := none } c with
    | some z1 => if z1.out = want then (encBlock 2 c.length last c, z1) else raw
    | none => raw
  else raw

/-- Blocks of an input: at least one (R539). -/
def encBlocks (n : Nat) : Nat := max 1 ((n + 131071) / 131072)

/-- The blocks for a list of verify results, in order, with the state after them. -/
def encRun (level wlog : Nat) (src : List Byte) (oks : List Bool) : List (List Byte) × ZSt :=
  ((List.range oks.length).zip oks).foldl (fun a e =>
    let (b, z) := encStep level wlog src (oks.take e.1) a.2 e.1 e.2
    (a.1 ++ [b], z)) ([], {})

/-- The content checksum of a frame. -/
def encCheck (src : List Byte) (chk : Bool) : List Byte := if chk then leBytes 4 ((xxh64 src).toNat % 2 ^ 32) else []

/-- A whole frame without a replaced block. -/
def zstdFrame (level wlog : Nat) (chk : Bool) (src : List Byte) : List Byte :=
  encHeader wlog src.length chk ++ (encRun level wlog src (List.replicate (encBlocks src.length) true)).1.flatten ++ encCheck src chk

end Sys2Proof.Machine
end

