-- ==== Sys2Proof/Machine/State.lean ====
section
/-!
DEFINITION. The state of the block. The registers of the register map have one home, `regs`: a list of (offset, value)
pairs with strictly rising offsets, in which an offset that is not listed holds its reset value (register tables of the
chapters). What the spec gives the block beyond its registers stands in one structure per unit. Field defaults are the
values at cold reset; `State.reset` is the state while PWRON_RST_N is low (R82, R84).
-/
namespace Sys2Proof.Machine

/-- The reasons a step can stop with a fault. No command of this block has one: every meaning answers a next state
(safe: nothing is stopped that the block would go on with). The one constructor is raised by no one. -/
inductive Fault where
  /-- Raised by no meaning; safe. -/
  | unused
  deriving DecidableEq, Repr

/-- The reasons a step has no meaning. -/
inductive Refusal where
  /-- Raised by the arm of a command whose meaning is not written; safe (the model stops where the block goes on). -/
  | notModelled (mnemonic : String)
  deriving DecidableEq, Repr

/-- What leaves the block at a port: the model's own record of it, newest last. -/
inductive Out where
  /-- An FRP packet sent on a lane towards a destination level and index (R145 to R155). -/
  | frp (lane dstLevel dstIndex : Nat) (p : Pkt)
  /-- An Ethernet frame sent on a SEP port (R161, R166, R167). -/
  | frame (port : Nat) (bytes : List Byte)
  /-- A probe tile sent to a host engine on the EOP (R104). -/
  | probe (engine : Nat) (bytes : List Byte)
  /-- An answer to a write intent: tag and code (R137). -/
  | intent (tag code : Nat)
  /-- A Memory Port read request: channel, ID, address, beats (R127). -/
  | memRead (ch id addr beats : Nat)
  /-- A Memory Port write request with its data: channel, ID, address, bytes (R127, R129). -/
  | memWrite (ch id addr : Nat) (bytes : List Byte)
  /-- Receive credits returned for a lane and VC (R150, R151). -/
  | rxCredit (lane vc beats : Nat)
  /-- A command to a Keepsake device: chip select, operation, address, data (R174). -/
  | ksp (cs op addr : Nat) (bytes : List Byte)
  /-- Bytes of the trace stream to a trace port (R701). -/
  | trace (kind : Nat) (bytes : List Byte)
  deriving DecidableEq, Repr

/-- A record raised by a unit and not yet accepted by the recorder (R598, R600, R601): code, class, source, context,
payload bytes 24 to 31 as a little-endian number, run mark (0 none, 1 RUN_START, 2 RUN) and the part of the payload that
belongs to the key of the run. -/
structure Raised where
  code : Nat
  cls : Nat
  source : Nat
  context : Nat
  payload : Nat
  run : Nat
  key : Nat
  /-- Drops since the record before this one, and the code of the first of them (R600). -/
  drops : Nat := 0
  dropCode : Nat := 0
  deriving DecidableEq, Repr

/-- A record of the Guestbook ring (R598) with its number (R605), the run mark under which it was written, the TB2 time
at which it was written or last merged into (R601) and the TB2 microsecond of the last update and the merges that wait
for the next one (R604). -/
structure GRec where
  n : Nat
  time : Nat
  code : Nat
  cls : Nat
  gen : Nat
  rep : Nat
  source : Nat
  context : Nat
  payload : Nat
  touched : Nat
  updUs : Nat
  waiting : Nat
  deriving DecidableEq, Repr

/-- An export chunk that waits for its write responses (R609, R610): first record, count, ring offset after it, transfer
number. -/
structure ExpChunk where
  first : Nat
  count : Nat
  next : Nat
  xfer : Nat
  deriving DecidableEq, Repr

/-- The Guestbook recorder (R597 to R610). -/
structure GbkSt where
  queue : List Raised := []
  /-- Records dropped since the last acceptance and the code of the first of them (R600). -/
  dropRun : Nat := 0
  dropCode : Nat := 0
  /-- Records held by the ring, oldest first. -/
  ring : List GRec := []
  /-- The newest 1,024 records of classes other than PROV, oldest first (R597, R620). -/
  tail : List GRec := []
  /-- The merge table: code, class, source, key and record number of a run, newest first (R603). -/
  runs : List (Nat × Nat × Nat × Nat × Nat) := []
  /-- The base and size of the partition under which the ring last started (R605). -/
  part : Nat × Nat := (0, 0)
  exp : Option ExpChunk := none
  /-- Records below this number are exported (R610). -/
  exported : Nat := 0
  deriving DecidableEq, Repr

/-- A Ledger record (R613). -/
structure LRec where
  seq : Nat
  time : Nat
  kind : Nat
  port : Nat
  priv : Nat
  flags : Nat
  init : Nat
  target : Nat
  detail : Nat
  old : Word
  new : Word
  tb2 : Nat
  chain : BitVec 32
  deriving DecidableEq, Repr

/-- The Ledger (R611 to R616): its queue, its AON tail of 256 records and its ring, oldest first; the configuration
writes that wait on a full queue (R612); and the partition under which the ring started (R615). -/
structure LdgSt where
  queue : List LRec := []
  tail : List LRec := []
  ring : List LRec := []
  waiting : List (Nat × Acc) := []
  part : Nat × Nat := (0, 0)
  overwrote : Bool := false
  deriving DecidableEq, Repr

/-- The Strongbox (R617 to R624): verdict store (sequence and 48 record bytes, oldest first), the restored frame in the
AON buffer, the frame being saved, the sequence of the newest valid frame, and whether a save has ended incomplete. -/
structure SbxSt where
  verdicts : List (Nat × List Byte) := []
  frame : List Byte := []
  saving : Option (List Byte) := none
  restoring : Bool := false
  coldRestore : Bool := false
  deriving DecidableEq, Repr

/-- The interrupt controller beyond its registers: the masks in effect (listed words only; unlisted: all ones), mask writes not yet in effect
(due TB2 time, word, value; R662), and per group the TB2 time of the last rise of its output (R660). -/
structure IrqSt where
  effMask : List (Nat × Word) := []
  maskDue : List (Nat × Nat × Word) := []
  lastRise : List (Nat × Nat) := []
  deriving DecidableEq, Repr

/-- Clocks and resets (R64 to R91): the level of PWRON_RST_N, whether the dividers run, the phase of each crossing's
handshake (0 idle and up, 1 request raised, 2 acknowledge seen), the host-side resets low, whether a power-fail stop
holds the domains (R184), and the CLOCK_OPTIONS gate enables (R68). -/
structure ClkSt where
  pwron : Bool := false
  xphase : List Nat := [1, 1, 1, 1]
  stopped : Bool := false
  idleGate : Nat := 0
  kspReset : Bool := false
  /-- PHU_SAVE_DONE (R182). -/
  saveDone : Bool := false
  /-- A warm reset is in progress until the Itinerary runs again: 1 cold, 2 warm (R605, R678). -/
  cause : Nat := 1
  deriving DecidableEq, Repr

/-- The Engine Observation Port (R95 to R114): current tags (engine, context, layer, operator), the bundle in effect and the
bundle sent but not yet taken (seed, threshold, epoch), the request and acknowledge toggles, the epoch toggle, the epochs
unaccountable for witness completeness, the fence lines that are ignored (domain, line) under R113, and the attention
toggle with the end of its crossing window (R76). -/
structure EopSt where
  tags : List (Nat × Nat × Nat × Nat) := []
  bundle : Nat × Nat × Nat := (0, 0, 0)
  sent : Option (Nat × Nat × Nat) := none
  seedData : Nat × Nat × Nat := (0, 0, 0)
  seedReq : Bool := false
  seedAckSeen : Bool := false
  epochTgl : Bool := false
  unaccountable : List Nat := []
  ignored : List (Nat × Nat) := []
  attn : Bool := false
  attnUntil : Nat := 0
  /-- The bundle of the epoch in progress is owed to the host engines (R109). -/
  resend : Bool := false
  /-- TEARDOWN of the seed domain: threshold 0 until SEED_DOMAIN is rewritten (R589). -/
  silenced : Bool := false
  deriving DecidableEq, Repr

/-- Who asked for a memory transfer (R134, R351). -/
inductive MemUser where
  | waybill | dump | holdover | courierRead | courierStage | courierRx | courierSend | compress | gbkExport
  | porter | haRing | porterInt
  deriving DecidableEq, Repr

/-- One Memory Port request (R127 to R134): the unit, its transfer number, region, direction, address, bytes (the data of
a write; the length of a read), and once issued its channel and ID. -/
structure MemReq where
  user : MemUser
  xfer : Nat
  region : Nat
  write : Bool
  addr : Nat
  len : Nat
  data : List Byte
  ch : Nat
  id : Nat
  /-- The class code of its Innkeeper queue (R350, R351). -/
  cls : Nat
  /-- Read data arrived late is discarded (R506). -/
  stale : Bool
  deriving DecidableEq, Repr

/-- The end of one request: the request, its success, and the data read (R131, R133, R141). -/
structure MemEnd where
  req : MemReq
  ok : Bool
  data : List Byte
  /-- The error handed to the unit: a status other than OK, a region violation, or a link reset. -/
  cause : Nat
  deriving DecidableEq, Repr

/-- The Memory Port (R126 to R144): requests of the units not yet issued, requests outstanding, requests ended but not yet
used by their unit, the next transfer number, and the write intents outstanding (tag, granule address, TB2 arrival). -/
structure MmpSt where
  wait : List MemReq := []
  out : List MemReq := []
  ended : List MemEnd := []
  nextXfer : Nat := 1
  intents : List (Nat × Nat × Nat) := []
  deriving DecidableEq, Repr

/-- One lane and VC of the receive side: credits held by the NIC and beats in the buffer (R150). -/
structure RxVc where
  nic : Nat := 0
  buf : Nat := 0
  deriving DecidableEq, Repr

/-- The Fabric Port (R145 to R159): receive accounts under key 4 × lane + VC, transmit stream sequences (level, index, VC, next),
the receive stream table, most recently used first (level, index, VC, expected), and packets accepted but not yet handled
by the unit of their type. -/
structure FbpSt where
  rx : List (Nat × RxVc) := []
  txSeq : List ((Nat × Nat × Nat) × Nat) := []
  rxSeq : List ((Nat × Nat × Nat) × Nat) := []
  rxPkts : List (Nat × Pkt) := []
  deriving DecidableEq, Repr

/-- A frame held for forwarding: ingress port, bytes, ingress time in 2^-48 ns of TB2, whether its stamp was lost, and the
ports it has still to leave by (R167, R265, R266). -/
structure TcFrame where
  port : Nat
  bytes : List Byte
  ingress : Nat
  lost : Bool
  outs : List Nat
  deriving DecidableEq, Repr

/-- The Sideband Ethernet Port (R160 to R168): firmware receive and transmit rings (port and frame without FCS), frames held
for forwarding, the last source address received per downstream port. -/
structure SepSt where
  fwRx : List (List Byte) := []
  fwTx : List (Nat × List Byte) := []
  fwd : List TcFrame := []
  learned : List (Nat × Nat) := []
  deriving DecidableEq, Repr

/-- A Keepsake register command in progress (R177 to R179): operation, chip select, address, length, data, sequence, and
whether it waits for the device's status poll. -/
structure KspCmd where
  op : Nat
  cs : Nat
  addr : Nat
  len : Nat
  data : List Byte
  seq : Nat
  polling : Bool
  deriving DecidableEq, Repr

/-- The Keepsake Port and the power-fail inputs (R172 to R184): the register command in progress, and whether a save is in
progress. -/
structure KspSt where
  cmd : Option KspCmd := none
  saveBusy : Bool := false
  deriving DecidableEq, Repr

/-- The servo of a disciplined base beyond its registers (R246 to R253): the TB2 time of the last applied measurement while
one is there to reckon T from, the TB2 time from which TIMEOUT counts, and the runs of offsets within and beyond LOCK_THRESH. -/
structure Servo where
  lastT : Option Nat := none
  since : Option Nat := none
  inRun : Nat := 0
  outRun : Nat := 0
  deriving DecidableEq, Repr

/-- The last Delay_Req (R261 to R263): sequence, t3, TB2 time of sending, the sequence of the Sync before it with its
t2 − t1 − cSync once known, and whether it was answered. Times in 2^-16 ns. -/
structure Dreq where
  seq : Nat
  t3 : Int
  sent : Nat
  sync : Option (Nat × Option Int)
  answered : Bool
  deriving DecidableEq, Repr

/-- The PTP slave (R257 to R263): a two-step Sync that waits for its Follow_Up (sequence, t2, cSync), the last Sync (sequence
and t2 − t1 − cSync once known), whether the next Sync brings a first Delay_Req and whether one is due, the last Delay_Req, the next
sequence, and D. -/
structure PtpSt where
  pend : Option (Nat × Int × Int) := none
  last : Option (Nat × Option Int) := none
  fresh : Bool := false
  due : Bool := false
  dreq : Option Dreq := none
  seq : Nat := 0
  d : Option Int := none
  deriving DecidableEq, Repr

/-- Fabric time (R267 to R273): the next exchange number, the exchange in progress (number, t1, t4, TB2 time of its start,
parent STATE), the DRESPs owed (destination level and index, exchange, t2), the distance from the root, and the TB2 time
of the last DREQ. Times in 2^-16 ns. -/
structure FabSt where
  next : Nat := 0
  cur : Option (Nat × Option Int × Option Int × Nat) := none
  owed : List (Nat × Nat × Nat × Int) := []
  hops : Nat := 0
  lastDreq : Option Nat := none
  deriving DecidableEq, Repr

/-- The time bases (R239 to R243) in units of 2^-48 ns: FRAC and the 32 fraction bits below it are the low 48 bits; the
servos of TB0 and TB1, the PTP slave and fabric time. -/
structure TimSt where
  tb0 : Nat := 0
  tb1 : Nat := 0
  tb2 : Nat := 0
  servo0 : Servo := {}
  servo1 : Servo := {}
  ptp : PtpSt := {}
  fab : FabSt := {}
  deriving DecidableEq, Repr

/-- A Waymark pulse under way (R276 to R279): the fields taken at its enable (times in 2^-16 ns), the next edge's number, and
whether a one-shot has fired. -/
structure Pulse where
  periodic : Bool
  base : Nat
  tb3 : Nat
  start : Nat
  period : Nat
  width : Nat
  next : Nat
  fired : Bool
  deriving DecidableEq, Repr

/-- A capture channel (R281, R282): queued stamps (sequence and time in 2^-16 ns), the next sequence, the TB2 time of the last
captured edge in 2^-16 ns, and whether a run of losses is under way. -/
structure Capture where
  fifo : List (Nat × Nat) := []
  seq : Nat := 0
  last : Option Nat := none
  lossRun : Bool := false
  deriving DecidableEq, Repr

/-- The Waymark (R169 to R171, R276 to R283): pulses under way, the levels of TPI_PULSE with the TB2 time of the rise and the
width in 2^-48 ns while high, the same of TPI_PPS_OUT, the last whole second it rose at, and the capture channels. -/
structure TpiSt where
  pulses : List (Nat × Pulse) := []
  high : List (Nat × Nat × Nat) := []
  pps : Option (Nat × Nat) := none
  ppsLast : Option Nat := none
  caps : List (Nat × Capture) := []
  deriving DecidableEq, Repr

/-- A tag bin (R195, R200): its key with the most recent context, and its accumulators that are not 0, by slot. -/
structure Bin where
  ctx : Nat := 0
  layer : Nat := 0
  op : Nat := 0
  acc : List (Nat × Word) := []
  deriving DecidableEq, Repr

/-- A snapshot slot (R201): the bytes, the beats they came in, and whether it was replaced since the last capture (R202). -/
structure Snap where
  bytes : List Byte
  beats : Nat
  fresh : Bool
  deriving DecidableEq, Repr

/-- A sample schedule outside IDLE (R203 to R217): the next boundary to cut, the values at its last cut (counters and
bins; what is not listed is 0), and the marks its next sample takes. -/
structure Sched where
  next : Nat := 1
  base : List (Nat × Word) := []
  binBase : List (Nat × Bin) := []
  first : Bool := true
  reset : Bool := false
  stretch : Bool := false
  deriving DecidableEq, Repr

/-- A cut in progress in a shadow bank (R210 to R213): schedule, domain, epoch, flags, span, range, the values at the cut before
and at this one, the bins at both if it samples them, the snapshots it captures, and whether the host reads it out
(R221). -/
structure Cut where
  sched : Nat
  domain : Nat
  epoch : Nat
  flags : Nat
  span : Nat
  first : Nat
  last : Nat
  prev : List (Nat × Word)
  cur : List (Nat × Word)
  bins : Option (List (Nat × Bin) × List (Nat × Bin))
  snaps : List (Nat × Snap)
  host : Bool
  deriving DecidableEq, Repr

/-- A strobe that waits for a shadow bank (R211): schedule, the boundary it cuts, whether TB0 was in holdover, and whether
it is the last. -/
structure LateStrobe where
  sched : Nat
  n : Nat
  flags : Nat
  deriving DecidableEq, Repr

/-- A Waybill record in the staging buffer (R225, R235): type, epoch, schedule, body, whether the body is a Zstandard frame,
and whether it was staged after the trigger. -/
structure WbRec where
  type : Nat
  epoch : Nat
  sched : Nat
  body : List Byte
  zst : Bool
  post : Bool
  deriving DecidableEq, Repr

/-- The Waybill record being written (R228): transfer number, bytes, and type. -/
structure WbFly where
  xfer : Nat
  len : Nat
  type : Nat
  bytes : List Byte
  deriving DecidableEq, Repr

/-- The Waybill (R225 to R237): the settings taken up at the last ARM, the staged records, the record in flight, the bytes
written so far in the current beat, records dropped since the last LOSS with the TB0 time of the first, the bytes
written since the end of the first MARK after ARM, and the baseline of PROD records. -/
structure WbSt where
  mode : Bool := false
  reserve : Nat := 0
  zstd : Bool := false
  zlevel : Nat := 0
  staged : List WbRec := []
  fly : Option WbFly := none
  tail : List Byte := []
  dropped : Nat := 0
  dropTime : Nat := 0
  sinceMark : Option Nat := none
  prodBase : List (Nat × Word) := []
  deriving DecidableEq, Repr

/-- A shadow copy of a unit page (R223, R224): its 33 words, the TB2 ns of its pass, and whether it is STALE. -/
structure Shadow where
  words : List Word
  tb2 : Nat
  stale : Bool
  deriving DecidableEq, Repr

/-- The Tally (R187 to R238): counters that are not 0, the source of each routed counter (EVENT_XBAR), the bins in use,
whether the bin epoch has had a miss (R198), the snapshot slots, the schedules outside IDLE, the cuts in the shadow banks, the
late strobes, the last cut of each schedule (R221), the shadow copies, and the schedules to re-arm after a CTRL reset
(R217: number, CTL, START and RANGE). -/
structure TlySt where
  counters : List (Nat × Word) := []
  xbar : List (Nat × Nat) := []
  bins : List (Nat × Bin) := []
  binMissed : Bool := false
  snaps : List (Nat × Snap) := []
  scheds : List (Nat × Sched) := []
  cuts : List Cut := []
  late : List LateStrobe := []
  lastCut : List (Nat × List (Nat × Word)) := []
  wb : WbSt := {}
  shadow : List (Nat × Shadow) := []
  rearm : List (Nat × Word × Word × Word) := []
  deriving DecidableEq, Repr

/-- An SRAM partition (SRAM_PARTITION section, R31): ID, owning unit page, base and size in bytes. -/
structure Partition where
  id : Nat
  owner : Nat
  base : Nat
  size : Nat
  deriving DecidableEq, Repr

/-- A push in progress (R44 to R46): kind, length, the words taken so far in order, port, privilege and initiator of its start,
and whether it is being verified. -/
structure Push where
  kind : Nat
  len : Nat
  data : List Byte := []
  port : Nat
  priv : Nat
  init : Nat
  verify : Bool := false
  deriving DecidableEq, Repr

/-- An accepted base image that is being applied (R40): its source as BOOT_SLOT counts, its bytes, and the port, privilege and
initiator of its push. -/
structure BaseImg where
  slot : Nat
  bytes : List Byte
  port : Nat
  priv : Nat
  init : Nat
  deriving DecidableEq, Repr

/-- A verified overlay that waits to take effect (R49 to R54): SEQUENCE, class, digest bytes 0 to 7, sections, TB2 time of its
verification, the domains for which its domain-scoped sections have taken effect, whether its instance-scoped sections have,
whether its boundary has come, the TB2 times from which it waits for a hold and from which it quiesces, and the origin. -/
structure Ovl where
  seq : Nat
  cls : Nat
  digest : Nat
  secs : List (Nat × List Byte)
  ready : Nat
  domains : List Nat := []
  inst : Bool := false
  started : Bool := false
  waits : Option Nat := none
  quiesce : Option Nat := none
  port : Nat
  priv : Nat
  init : Nat
  deriving DecidableEq, Repr

/-- The Itinerary (R27 to R62): partitions, downstream lanes built, NOR slots still to be tried, records to write once the Guestbook
runs (code, class, payload), the push in progress, the base image being applied, the running sections by type (the
retained copy), the overlay store by type in order of acceptance with the last SEQUENCE and the digest of its base image, the
overlay that waits, digest bytes 0 to 7 of the overlay before it, and the
domains whose epoch boundary was the latest event with its TB2 time. -/
structure ItnSt where
  parts : List Partition := []
  down : Nat := 0
  order : List Nat := []
  owed : List (Nat × Nat × Nat) := []
  push : Option Push := none
  image : Option BaseImg := none
  cfg : List (Nat × List Byte) := []
  store : List (Nat × List Byte) := []
  storeSeq : Nat := 0
  storeDigest : List Byte := []
  ovl : Option Ovl := none
  ovlDigest : Nat := 0
  bound : Option (Nat × List Nat) := none
  deriving DecidableEq, Repr

/-- A Command Window post that waits for its result (R643): slot, and what its region 7 buffer held. -/
structure CwPost where
  slot : Nat
  buf : Option (List Byte)
  deriving DecidableEq, Repr

/-- A firmware switch (R632): SEQ, the TB2 time from which it may be requested once the boundary it waits for has come, the TB2
time of SWITCH_REQ, and the cores that are ready. -/
structure FwSwitch where
  seq : Nat
  since : Nat
  req : Option Nat := none
  ready : List Nat := []
  deriving DecidableEq, Repr

/-- A mode switch (R646): SEQ, function, mode, the TB2 time of its start, the TB2 time at which its handover
ended, and its origin. -/
structure ModeSwitch where
  seq : Nat
  func : Nat
  mode : Nat
  start : Nat
  handed : Option Nat := none
  port : Nat
  priv : Nat
  init : Nat
  deriving DecidableEq, Repr

/-- The control complex (R626 to R647): the unit pages held by a function quiesce, each with what holds it (1 overlay, 2 mode switch, 3
entry into a power state, 4 the power state), posted Command Window slots in posting order, the stage in progress (SEQ,
NOR slot), the slot staged, the switch and mode switch in progress, results that wait until the one shown is consumed (register, SEQ,
status), and each core's privilege (0 Driver, 1 Fleet, 2 Secure). -/
structure CtlSt where
  held : List (Nat × Nat) := []
  posts : List CwPost := []
  stage : Option (Nat × Nat) := none
  staged : Option Nat := none
  sw : Option FwSwitch := none
  mode : Option ModeSwitch := none
  owed : List (Nat × Nat × Nat) := []
  privs : List Nat := []
  deriving DecidableEq, Repr

/-- A control core (R626, R627, R580): program counter, registers x1 to x31 that are not 0, mcause, mepc and mtval, and the bytes of its data
scratchpad that are not 0. -/
structure Core where
  pc : Word := 0
  x : List (Nat × Word) := []
  mcause : Word := 0
  mepc : Word := 0
  mtval : Word := 0
  scratch : List Host.Cell := []
  deriving DecidableEq, Repr

/-- A core that waits on a sync object (R652): core, object, amount, TB2 time of its read, timeout in µs. -/
structure SynWait where
  core : Nat
  obj : Nat
  amount : Nat
  start : Nat
  tmo : Nat
  deriving DecidableEq, Repr

/-- The sync objects beyond their registers: the waiters in order of arrival. -/
structure SynSt where
  waits : List SynWait := []
  deriving DecidableEq, Repr

/-- A sketch (R303): bucket counts that are not 0, the NaN count, whether a bucket saturated, and the L0 instances merged. -/
structure Sketch where
  buckets : List (Nat × Nat) := []
  nan : Nat := 0
  sat : Bool := false
  dies : Nat := 0
  deriving DecidableEq, Repr

/-- A packet with its destination level and index, or a memory request, in an Innkeeper queue: class, beats, the child it
is sent to (R351), TB2 time of its enqueue. -/
structure InkItem where
  pkt : Option (Pkt × Nat × Nat)
  req : Option MemReq
  cls : Nat
  beats : Nat
  child : Option Nat
  enq : Nat
  deriving DecidableEq, Repr

/-- One Innkeeper queue (R348 to R361): packets or read requests, write requests, the tags of the two heads and the last
finish tags (R356), shaper tokens and policer tokens in 1/256 beat, whether the shaper and the policer have taken
values. -/
structure InkQ where
  items : List InkItem := []
  writes : List InkItem := []
  fHead : Nat := 0
  fLast : Nat := 0
  fHeadW : Nat := 0
  fLastW : Nat := 0
  tokens : Nat := 0
  shaped : Bool := false
  polTokens : Nat := 0
  policed : Bool := false
  /-- Current and closed sketches of depth and delay (R364). -/
  depth : Sketch := {}
  delay : Sketch := {}
  depthClosed : Sketch := {}
  delayClosed : Sketch := {}
  closedEpoch : Nat := 0
  deriving DecidableEq, Repr

/-- A queue at risk on a port (R373, R374): port key, queue, TB2 microsecond at which the pause took hold, and whether a
record was written for it. -/
structure InkRisk where
  port : Nat
  q : Nat
  since : Nat
  noted : Bool
  deriving DecidableEq, Repr

/-- What a sender has selected of one epoch for one parent (R321): count and last sequence on VC0 and VC1. -/
structure Announce where
  domain : Nat
  epoch : Nat
  dst : Nat
  n0 : Nat := 0
  last0 : Nat := 0
  n1 : Nat := 0
  last1 : Nat := 0
  deriving DecidableEq, Repr

/-- The Innkeeper (R347 to R381): its queues by number, the producers held for room, virtual times VE and VN per port key
(0 to 31 lane, 32 + c memory reads and 64 + c memory writes of channel c), queues at risk, announced packets, queues held
by an overlay (R380), packets and requests lost in a NET reset with the lowest class among them (R379), and the entries
of the reply store in use for time exchanges (R367). -/
structure InkSt where
  queues : List (Nat × InkQ) := []
  hold : List InkItem := []
  ve : List (Nat × Nat) := []
  vn : List (Nat × Nat) := []
  risks : List InkRisk := []
  announce : List Announce := []
  holdQ : List Nat := []
  lost : Nat := 0
  lostClass : Nat := 255
  lostReq : Nat := 0
  replyTime : Nat := 0
  deriving DecidableEq, Repr

/-- One payload of a child (R300 to R305): a delta block with its non-zero deltas, an AGG with its entries (counter, then
value and die index pairs), a SKETCH with its buckets, or a verdict record. -/
inductive Part where
  | delta (first groups flags span : Nat) (vals : List (Nat × Nat))
  | agg (cls op k flags first count span present dies : Nat) (ents : List (Nat × List (Nat × Nat)))
  | sketch (id first groups flags span : Nat) (k : Sketch)
  | verdict (bytes : List Byte)
  deriving DecidableEq, Repr

/-- A reduced result of one class or one sketch (R300 to R305): FLAGS, SPAN, the entries, and for each contributor its child
bit, the L0 instances it covers and a range it covers; or the merged sketch. -/
inductive Result where
  | agg (cls op k flags span : Nat) (ents : List (Nat × List (Nat × Nat))) (cover : List (Nat × Nat × Nat × Nat))
  | sketch (id flags span : Nat) (k : Sketch)
  deriving DecidableEq, Repr

/-- A held or released CLOSED (R321, R322): counts and last sequences of VC0 and VC1, FLAGS, SPAN. -/
structure ClosedSig where
  n0 : Nat
  last0 : Nat
  n1 : Nat
  last1 : Nat
  flags : Nat
  span : Nat
  deriving DecidableEq, Repr

/-- What a child has contributed to an epoch: child bit, source index and level, packets received on VC0 and VC1,
confirmed and provisional parts, its CLOSED, and whether that is released (R306, R322, R324). -/
structure KidEp where
  bit : Nat
  source : Nat
  level : Nat
  got0 : Nat := 0
  got1 : Nat := 0
  conf : List Part := []
  prov : List Part := []
  closed : Option ClosedSig := none
  released : Bool := false
  deriving DecidableEq, Repr

/-- A provisional entry of an epoch in the Provisional Window (R319, R344): its absolute number and ring position, and the
result or verdict it holds. -/
structure PwRef where
  n : Nat
  result : Option Result
  verdict : List Byte
  present : Nat
  deriving DecidableEq, Repr

/-- An epoch in flight at a reducer (R306 to R313): its timing, its children, whether it has been published provisionally,
its provisional entries, the classes dropped (R290; sketch groups from 256 up), and the descendants named missing. -/
structure EpSt where
  n : Nat
  timing : Word
  kids : List KidEp := []
  published : Bool := false
  pw : List PwRef := []
  dropped : List Nat := []
  missing : List (Nat × Nat) := []
  deriving DecidableEq, Repr

/-- An entry of a slot's child table (R305 ff, R306): bit, index, the three marks, the level heard in its JOIN, the DETOURs in
effect (start epoch, share) and its FINAL epoch (R330). -/
structure Child where
  bit : Nat
  index : Nat := 0
  expected : Bool := false
  joined : Bool := false
  adopted : Bool := false
  detours : List (Nat × Nat) := []
  final : Option Nat := none
  deriving DecidableEq, Repr

/-- A COARSEN (R325, R326): exponent, start epoch, sketches, class mask. -/
structure Coarse where
  c : Nat
  n0 : Nat
  sketches : Bool
  mask : Nat
  deriving DecidableEq, Repr

/-- A domain slot (R329 to R331): state (0 FREE, 1 ACTIVE, 2 DRAINING, 3 DRAINED), domain, CRV_SLOT_TIMING, child table, epochs in
flight, epochs confirmed or lost, the latest confirmed epoch with its children present and its results, the
provisional view (R345: epoch, and value and argument by counter), parts of coarsened classes held for their group (epoch,
child bit, source, part; R327), the COARSENs sent, newest first, and the runs of saturated and calm epochs (R375 to R377). -/
structure CrvSlot where
  state : Nat := 0
  domain : Nat := 0
  timing : Word := 0x2010000E000C0000#64
  kids : List Child := []
  epochs : List EpSt := []
  done : List Nat := []
  latest : Option (Nat × Nat) := none
  results : List Result := []
  view : Nat × List (Nat × Nat × Nat) := (0, [])
  group : List (Nat × Nat × Nat × Part) := []
  sent : List Coarse := []
  satRun : Nat := 0
  calmRun : Nat := 0
  saturated : Bool := false
  slowRun : Nat := 0
  fastRun : Nat := 0
  split : Bool := false
  deriving DecidableEq, Repr

/-- A SIGNPOST entry (R291). -/
structure Sign where
  domain : Nat
  share : Nat
  prim : Nat
  sec : Nat
  bitP : Nat
  bitS : Nat
  deriving DecidableEq, Repr

/-- The route of a domain from an epoch on (R292, R294): the entry, the mode, and whether JOIN and DETOUR have told it. -/
structure Route where
  start : Nat
  entry : Sign
  mode : Nat
  told : Bool
  deriving DecidableEq, Repr

/-- A rule of LEVEL_RULES at this level (R288): domain, class or sketch group, operation, k, half resolution. -/
structure Rule where
  domain : Nat
  cls : Nat
  op : Nat
  k : Nat
  half : Bool
  deriving DecidableEq, Repr

/-- A CLOSED that waits for the detectors of its epoch (R321, R430): domain, epoch, the epoch that routes it, FLAGS, SPAN; the
slot, its provisional verdicts and its confirmed ones (R319). -/
structure Closing where
  domain : Nat
  epoch : Nat
  route : Nat
  flags : Nat
  span : Nat
  slot : Nat := 0
  prov : List PwRef := []
  verdicts : List (List Byte) := []
  deriving DecidableEq, Repr

/-- A result that a detector has still to evaluate (R430, R434): detector, slot or schedule, domain, epoch, whether it is
provisional, the parts of each present child (child bit, index, level, parts), the results, the size of the expected
set, and the boundaries B(n) and B(n+1). -/
structure Due where
  det : Nat
  slot : Nat
  domain : Nat
  epoch : Nat
  prov : Bool
  kids : List (Nat × Nat × Nat × List Part)
  results : List Result
  expected : Nat
  b0 : Nat
  b1 : Nat
  deriving DecidableEq, Repr

/-- Where an answer to a TGA request goes (R336): a window slot, or the hop it came from (level, index, tag, child bit). -/
inductive TgaFrom where
  | window (slot : Nat)
  | hop (level index tag : Nat) (child : Option Nat)
  deriving DecidableEq, Repr

/-- A pending TGA request (R340): own tag, origin, address, write data if it is a write, hops, initiator, and its TB2 time. -/
structure TgaReq where
  tag : Nat
  origin : TgaFrom
  addr : Nat
  write : Bool
  data : Word
  hops : Nat
  init : Nat
  born : Nat
  deriving DecidableEq, Repr

/-- A cached CTR answer (R337): target level and index, counter, value, epoch. -/
structure TgaCache where
  level : Nat
  index : Nat
  ctr : Nat
  value : Word
  epoch : Nat
  deriving DecidableEq, Repr

/-- The Caravan (R286 to R346): slots, SIGNPOST routes by domain, newest first, rules of this level, CLOSEDs that wait, the
entries of the Provisional Window by position with the number written so far, the COARSENs applied by domain, newest first,
own deltas held back by them (domain, counter, sum) and own sketches (domain, ID, sketch), pending TGA requests, the next
tag, the cache, most recent first, and the descendant table (level, index, child bit). -/
structure CrvSt where
  slots : List (Nat × CrvSlot) := []
  routes : List (Nat × List Route) := []
  rules : List Rule := []
  closing : List Closing := []
  pw : List (Nat × List Byte) := []
  pwTotal : Nat := 0
  coarse : List (Nat × List Coarse) := []
  held : List (Nat × List (Nat × Nat)) := []
  sketches : List (Nat × Nat × Sketch) := []
  tga : List TgaReq := []
  tgaTag : Nat := 0
  cache : List TgaCache := []
  desc : List (Nat × Nat × Nat) := []
  deriving DecidableEq, Repr

/-- The holdover ring (R591 to R595): the next ring sequence, whether a run of drops is under way, records lost since the last
DRAIN, the first epoch sent live again, the records not yet drained (offset, bytes, sequence, TB0 ns, transfer) and
the transfer that reads the oldest back, the records drained, and the TB2 count at which FBP0_LINK_UP last fell. -/
structure HoldSt where
  seq : Nat := 0
  dropRun : Bool := false
  lost : Nat := 0
  liveFrom : Nat := 0
  entries : List (Nat × Nat × Nat × Nat × Nat) := []
  reading : Option Nat := none
  drained : Nat := 0
  down : Nat := 0
  deriving DecidableEq, Repr

/-- A job of the tree engine (R401 to R405): its slot, SEQ, model slot, rows, margins, stride, row and output address, engine, and
whether it runs. -/
structure TreJob where
  slot : Nat
  seq : Nat
  model : Nat
  rows : Nat
  margin : Bool
  stride : Nat
  rowAddr : Nat
  outAddr : Nat
  engine : Nat
  running : Bool
  deriving DecidableEq, Repr

/-- The tree engine (R382 to R410): bound models (slot, offset, length), the bind in progress (SEQ, slot, offset, length), the
jobs queued and running in order of GO, and the model slots whose discarded writes form a run (R389). -/
structure TreSt where
  models : List (Nat × Nat × Nat) := []
  bind : Option (Nat × Nat × Nat × Nat) := none
  jobs : List TreJob := []
  protRun : List Nat := []
  deriving DecidableEq, Repr

/-- A job of the arrays (R418 to R422): its slot, SEQ, the descriptor words, passes completed, passes re-run, cycles, and
whether an INT32 result saturated. -/
structure ArrJob where
  slot : Nat
  seq : Nat
  d0 : Word
  d1 : Word
  d2 : Word
  d3 : Word
  passes : Nat := 0
  reruns : Nat := 0
  cycles : Nat := 0
  sat : Bool := false
  deriving DecidableEq, Repr

/-- The arrays (R411 to R428): jobs in order of GO, and the cycles served on each array (array, user, TB2 time of the end,
cycles), users 0 SCORING, 1 VERIFY, 2 FIELD (R426). -/
structure ArrSt where
  jobs : List ArrJob := []
  served : List (Nat × Nat × Nat × Nat) := []
  floorRun : Bool := false
  deriving DecidableEq, Repr

/-- A witness record staged for its check (R459, R462, R468 to R471): the child it came from (none: the own host), its domain and
epoch, the record, the array of each reference pass done in order, whether a pass failed twice (R472), the elements that
fail with their reference bits once judged, whether the reference is to be confirmed, and the arrays of the passes re-run
(pass, array). -/
structure VRec where
  kid : Option Nat
  domain : Nat
  epoch : Nat
  bytes : List Byte
  runs : List Nat := []
  bad : Bool := false
  fails : List (Nat × Nat × Nat) := []
  confirming : Bool := false
  again : List (Nat × Nat) := []
  deriving DecidableEq, Repr

/-- A record in reassembly (R462): child bit, domain, epoch, LENGTH in beats, and the bytes so far. -/
structure VAsm where
  kid : Nat
  domain : Nat
  epoch : Nat
  need : Nat
  bytes : List Byte
  deriving DecidableEq, Repr

/-- A seed epoch (R105, R450, R463): its number, seed, threshold, LOCAL_SHARE, tile counts of engines, tiles that arrived
and were checked locally or forwarded whole (engine, number), and whether it is marked unaccountable. -/
structure VEpoch where
  n : Nat
  seed : Word
  thresh : Nat
  share : Nat
  counts : List (Nat × Nat) := []
  tiles : List (Nat × Nat) := []
  marked : Bool := false
  deriving DecidableEq, Repr

/-- The Tile Verifier (R448 to R480): records staged and in reassembly in order of arrival, the seed epochs whose accounting is
open, newest first, the subjects with a failure verdict of an epoch (subject, domain, epoch), the cause of the run of discards
(R462), the last clamped value and the last value over capacity (R453), and the records on their way to or in the
host-assisted ring (transfer, ring offset after it, whether written, record; R491). -/
structure VerSt where
  staged : List VRec := []
  asm : List VAsm := []
  epochs : List VEpoch := []
  judged : List (Nat × Nat × Nat) := []
  discards : Option Nat := none
  clamps : List (Nat × Nat) := []
  ha : List (Nat × Nat × Bool × VRec) := []
  haTail : Nat := 0
  deriving DecidableEq, Repr

/-- A probe in flight (R487, R488): PROBE_ID, the test number of its generator, its shape, format and rule, engines, results by
engine, TB2 time sent, whether it belongs to the campaign, and whether a differing result waits for its confirmation. -/
structure Probe where
  id : Nat
  t : Nat
  m : Nat
  n : Nat
  k : Nat
  fmt : Nat
  rule : Nat
  engines : List Nat
  results : List (Nat × List Byte) := []
  sent : Nat := 0
  campaign : Bool
  waits : Bool := false
  /-- Elements of the reference that the arrays computed wrongly without notice (row, column, bits). -/
  errs : List (Nat × Nat × Nat) := []
  deriving DecidableEq, Repr

/-- The field test (R481 to R490): unexpired fault marks (array, TB2 time), the spare under test with the tests it has still to
pass, the campaign (SEQ, probes left, engine A, engine B if paired, whether aborted), the probe in flight, the next PROBE_ID
and the next engine of the rotation (R479). -/
structure FltSt where
  marks : List (Nat × Nat) := []
  spare : Option (Nat × Nat) := none
  campaign : Option (Nat × Nat × Nat × Option Nat × Bool) := none
  probe : Option Probe := none
  nextId : Nat := 0
  rotate : Nat := 0
  deriving DecidableEq, Repr

/-- A step of a STRAGGLER's table (R437): its number, its reference in ns once fixed, and the arrivals known by child bit. -/
structure Step where
  n : Nat
  fixed : Option Int
  arrivals : List (Nat × Int)
  deriving DecidableEq, Repr

/-- The running state of a detector (R434, R438, R440, R441, R443, R445): steps received per child, the step table, the steps counted
late per child, confirmed results and mean of SPIKE, the reference, the epoch of an armed capture, a reference that waits for
the next boundary (the epoch it waits for, its label), the assembly of one REF_SEQ (groups seen), whether a run of missing
references is under way, posted scores (epoch, confirmed, subject index and level, score), and the last epochs evaluated. -/
structure DetSt where
  totals : List (Nat × Nat) := []
  steps : List Step := []
  late : List (Nat × Nat) := []
  seen : Nat := 0
  mean : Option Nat := none
  ref : Option (Bool × Sketch) := none
  arm : Option Nat := none
  next : Option (Nat × Nat × Bool × Sketch) := none
  asm : Option (Nat × List Nat × Sketch) := none
  missing : Bool := false
  scores : List (Nat × Bool × Nat × Nat × Int) := []
  lastProv : Option Nat := none
  lastConf : Option Nat := none
  deriving DecidableEq, Repr

/-- A snapshot in progress (R499 to R512, R520, R522): SEQ of its ARM, checkpoint ID, the steps of ARM and SEAL, slot, TB0 ns
and TB2 time of ARM, the granule being read with its transfer (granules of the delta section follow the base stream), the
entries of the early area (granule, entry, transfer while it is under way, whether that is the write), torn granules, the
stream granules copied and not yet sent, the host parity posted (stripe, transfers of P and Q), the CRCs of the stripes sent,
TB2 time and TB0 ns of the commit record, the columns acknowledged with their status, whether the deadline has passed. -/
structure CurSnap where
  seq : Nat
  id : Nat
  step : Nat
  sealStep : Nat
  slot : Nat
  armTb0 : Nat
  armTb2 : Nat
  sealSeq : Option Nat := none
  reading : Option (Nat × Nat) := none
  early : List (Nat × Nat × Option Nat × Bool) := []
  torn : List Nat := []
  data : List (Nat × List Byte) := []
  parity : List (Nat × Nat × Nat) := []
  crcs : List (List Nat) := []
  sent : Option Nat := none
  sentTb0 : Nat := 0
  acks : List (Nat × Nat) := []
  late : Bool := false
  deriving DecidableEq, Repr

/-- What a receive entry holds of a checkpoint (R516 to R518): entry, slot, CKPT_ID, column, source index and level, the zero write
under way, shard writes that wait for it (address, bytes), writes under way, whether one failed, DATA bytes received, the
record by offset, its length once LAST has arrived, the MAGIC write under way, and whether the checkpoint has been answered. -/
structure CurRx where
  entry : Nat
  slot : Nat
  id : Nat
  col : Nat
  src : Nat
  lvl : Nat
  gate : Option Nat
  wait : List (Nat × List Byte) := []
  xfers : List Nat := []
  failed : Bool := false
  bytes : Nat := 0
  body : List (Nat × List Byte) := []
  len : Option Nat := none
  magic : Option Nat := none
  done : Bool := false
  deriving DecidableEq, Repr

/-- A SEND in progress (R523): SEQ, target index, receive entry, slot, the record once read, the next stripe, the transfer
under way, and whether it has been accepted. -/
structure CurSend where
  seq : Nat
  target : Nat
  entry : Nat
  slot : Nat
  record : List Byte := []
  stripe : Nat := 0
  xfer : Nat
  accepted : Bool := false
  deriving DecidableEq, Repr

/-- A RESTORE in progress (R525): SEQ, checkpoint ID, TB2 time of acceptance, the record taken, fragments of records by column
(column, offset, bytes) with the lengths known, and the shard bytes by stripe and column (offset, bytes). -/
structure CurRest where
  seq : Nat
  id : Nat
  start : Nat
  record : Option (List Byte) := none
  frags : List (Nat × Nat × List Byte) := []
  lens : List (Nat × Nat) := []
  shards : List (Nat × Nat × Nat × List Byte) := []
  deriving DecidableEq, Repr

/-- The Courier (R494 to R530): the snapshot, SEND or RESTORE in progress, what its receive entries hold, the columns held (entry,
slot, column), the checkpoints of which DATA was discarded (origin, slot and ID as one key; ACK status), and the results that wait until the one shown is consumed (SEQ, status). -/
structure CurSt where
  snap : Option CurSnap := none
  send : Option CurSend := none
  rest : Option CurRest := none
  rx : List CurRx := []
  cols : List (Nat × Nat × Nat) := []
  refused : List (Nat × Nat) := []
  owed : List (Nat × Nat) := []
  deriving DecidableEq, Repr

/-- A register job of the compression engine (R538 to R547): slot, SEQ, the descriptor taken at GO, the transfer that reads its
source, the source once it is there, the verify results of the encoded blocks, what a decode has still to meet (R533), output
bytes short of a whole beat, bytes written, the blocks written (output bytes, input used to their end, transfer), blocks
replaced, and the status once it has ended. -/
structure CmpJob where
  slot : Nat
  seq : Nat
  decode : Bool
  level : Nat
  wlog : Nat
  chk : Bool
  srcPart : Bool
  src : Nat
  srcLen : Nat
  dstPart : Bool
  dst : Nat
  dstLen : Nat
  reading : Option Nat := none
  input : Option (List Byte) := none
  oks : List Bool := []
  plan : Option (List ZEv) := none
  buf : List Byte := []
  put : Nat := 0
  blocks : List (Nat × Nat × Option Nat) := []
  fallbacks : Nat := 0
  ended : Option Nat := none
  deriving DecidableEq, Repr

/-- The compression engine (R531 to R553): register jobs in order of GO. -/
structure CmpSt where
  jobs : List CmpJob := []
  deriving DecidableEq, Repr

/-- A Porter descriptor in progress (R555 to R558): the descriptor, the beat it was read in (channel 3), the stage (0 read of the
descriptor, 1 read of the source, 2 writes, 3 write-back of the status, 4 ready to complete), the transfer of the stage, and the
status. -/
structure PrtJob where
  desc : List Byte := []
  beat : List Byte := []
  stage : Nat
  xfer : Nat
  status : Nat := 0
  deriving DecidableEq, Repr

/-- The Porter (R554 to R559): the descriptor in progress of each channel. -/
structure PrtSt where
  jobs : List (Nat × PrtJob) := []
  deriving DecidableEq, Repr

/-- An order in progress in a slot of the recovery unit (R570 to R589): SEQ, OP, target, NOTICE and DUMP, ARG, TB2 time of its
acceptance, its step (of a fence or dump: 0 before FENCED, 1 dump to build, 2 dump being written; of a teardown: the step; of a release: TB2
time apart), and the flags of its result. -/
structure RcvOrd where
  seq : Nat
  op : Nat
  target : Nat
  notice : Bool
  dump : Bool
  arg : Nat
  start : Nat
  step : Nat := 0
  flags : Nat := 0
  deriving DecidableEq, Repr

/-- What is known of a target's fence (R565 to R580): TB0 ns of the order and of FENCED, TB2 times of the rise of the request and of
the acknowledge seen (host domains), whether it was forced, ERR_RESP, NO_FAULT, the named context, code and fault time, the
reason, the heartbeat at the order. -/
structure FenceRec where
  reqTb0 : Nat
  fencedTb0 : Nat := 0
  reqTb2 : Nat
  ackTb2 : Option Nat := none
  errResp : Bool := false
  noFault : Bool := false
  context : Nat := 0
  code : Nat := 0
  faultTime : Nat := 0
  reason : Nat := 0
  heartbeat : Nat := 0
  deriving DecidableEq, Repr

/-- A dump that has been assembled (R579 to R585): the order's slot while its result is owed, target, DUMP_ID, flags, bytes, the
units taken from shadow or absent, and the transfer that writes it with its host address once that is under way. -/
structure Dump where
  slot : Option Nat
  target : Nat
  id : Nat
  flags : Nat
  bytes : List Byte
  unresp : Nat
  xfer : Option (Nat × Nat) := none
  deriving DecidableEq, Repr

/-- The recovery unit (R561 to R590): orders by slot in order of acceptance, results that wait until the one shown is consumed
(slot, SEQ, status), fences by target, captures by target (code, context, TB0 ns), the context of the latest tag transfer of each
host domain, the slot whose dump is being built with the pages found unresponsive and whether their shadows answer,
the dump in the buffer, the bytes of the buffer, the notices queued (target, payload), and the cores that a fence of CTRL holds (one bit each). -/
structure RcvSt where
  orders : List (Nat × RcvOrd) := []
  owed : List (Nat × Nat × Nat) := []
  fences : List (Nat × FenceRec) := []
  caps : List (Nat × Nat × Nat × Nat) := []
  lastCtx : List (Nat × Nat) := []
  build : Option (Nat × List (Nat × Bool)) := none
  dump : Option Dump := none
  dbuf : List Byte := []
  notices : List (Nat × List Byte) := []
  cores : Nat := 0
  deriving DecidableEq, Repr

/-- An entry into a power state (R672): SEQ, target, whether spans are allowed, the TB2 times of its start and of the last ASK, the units that
have accepted, and whether the driver steps it (R684). -/
structure PwrEntry where
  seq : Nat
  target : Nat
  start : Nat
  asked : Nat
  accepted : List Nat := []
  host : Bool := false
  deriving DecidableEq, Repr

/-- A register write that waits for SCLK in PS3 (R668): address and access, the contents of the buffer that a Command Window post names, and
what a stepped instruction does. -/
structure Waited where
  addr : Nat
  acc : Acc
  buf : Option (List Byte) := none
  step : Option StepEffect := none
  deriving DecidableEq, Repr

/-- The power controller (R665 to R684): the entry in progress, the wake event recognised during it (source, TB2 µs, phase), the exit in
progress (source, state left), the SEQ of a command that wakes, the answers of the cores, the cores it has stopped (one bit each),
register requests that wait for SCLK (address, access, region 7 buffer), and results that wait until the one shown is consumed. -/
structure PwrSt where
  entry : Option PwrEntry := none
  wake : Option (Nat × Nat × Nat) := none
  exit : Option (Nat × Nat) := none
  cmd : Option Nat := none
  acks : List (Nat × Nat) := []
  cores : Nat := 0
  waiting : List Waited := []
  owed : List (Nat × Nat) := []
  deriving DecidableEq, Repr

/-- A traced core (R689, R690, R696): the reason of the SYNC it owes before its next packet, whether it executes dark code, instructions counted and
not yet emitted, the address of the last instruction counted, and of the next one. -/
structure LtnCore where
  owes : Option Nat := some 1
  dark : Bool := false
  run : Nat := 0
  last : Nat := 0
  next : Nat := 0
  deriving DecidableEq, Repr

/-- A serial lane (R707): the 58 scrambler bits. -/
structure LtnLane where
  scr : Nat := 0
  deriving DecidableEq, Repr

/-- The Lantern (R686 to R708): the cores, MODE, RESERVE and STAGE_RSV as ARM took them up, comparators whose match has still to take
effect, TIME comparators that have matched, staged packets (bytes; 0 before the trigger, 1 after it, 2 the TRIGGER packet, 3 partly
sent), whether packets are being dropped and the bytes lost since the last OVERFLOW, bytes emitted since the last periodic SYNC, bytes sent
from the start of the TRIGGER packet on, and the serial port's frame number, word number and lanes. -/
structure LtnSt where
  cores : List (Nat × LtnCore) := []
  mode : Bool := false
  reserve : Nat := 16
  stageRsv : Nat := 64
  hits : Nat := 0
  timed : Nat := 0
  stage : List (List Byte × Nat) := []
  dropping : Bool := false
  lost : Nat := 0
  since : Nat := 0
  sent : Nat := 0
  frame : Nat := 0
  word : Nat := 0
  lane0 : LtnLane := {}
  lane1 : LtnLane := {}
  deriving DecidableEq, Repr

/-- Debug access (R697 to R711): the words of an install, whether they wait for their check, NOT_AFTER of the installed authorisation, halt
requests not yet performed (core, port), and status and data of the TAP's last access. -/
structure DbgSt where
  words : List Byte := []
  verify : Bool := false
  notAfter : Nat := 0
  halts : List (Nat × Nat) := []
  tap : Nat × Word := (0, 0)
  deriving DecidableEq, Repr

/-- The state of the block. -/
structure State where
  /-- The registers that have been written, by rising offset in the window; any other holds its reset value of the register tables. -/
  regs : List (Nat × Word) := []
  /-- The commands that wait, first in, first out (the model's own field). -/
  pending : List Instr := []
  /-- What has left the block (the model's own field). -/
  outbox : List Out := []
  /-- A counter that every use of a free value reads and advances (the model's own field). -/
  freeCtr : Nat := 0
  /-- The response to the last Register Port access: status and read data (R115, R119). -/
  rsp : Nat × Word := (0, 0)
  /-- The tag that this response echoes (R115). -/
  rspTag : Nat := 0
  clk : ClkSt := {}
  gbk : GbkSt := {}
  ldg : LdgSt := {}
  sbx : SbxSt := {}
  irq : IrqSt := {}
  eop : EopSt := {}
  mmp : MmpSt := {}
  fbp : FbpSt := {}
  sep : SepSt := {}
  ksp : KspSt := {}
  tim : TimSt := {}
  tly : TlySt := {}
  ctl : CtlSt := {}
  ink : InkSt := {}
  crv : CrvSt := {}
  /-- The bytes of the on-block SRAM that are not 0, by offset in the built SRAM; a byte that is not listed is 0. -/
  sram : List Host.Cell := []
  /-- The bytes of the firmware SRAM that are not 0. -/
  fwSram : List Host.Cell := []
  itn : ItnSt := {}
  tpi : TpiSt := {}
  hld : HoldSt := {}
  /-- Results that detectors have still to evaluate (R430). -/
  due : List Due := []
  tre : TreSt := {}
  arr : ArrSt := {}
  ver : VerSt := {}
  flt : FltSt := {}
  /-- The running state of each detector (R434). -/
  det : List (Nat × DetSt) := []
  cur : CurSt := {}
  cmp : CmpSt := {}
  prt : PrtSt := {}
  rcv : RcvSt := {}
  syn : SynSt := {}
  /-- The control cores by number. -/
  cores : List (Nat × Core) := []
  pwr : PwrSt := {}
  ltn : LtnSt := {}
  dbg : DbgSt := {}
  deriving DecidableEq, Repr

/-- The block while PWRON_RST_N is low: every register at its reset value, every unit empty. -/
def State.reset : State := {}

end Sys2Proof.Machine
end

