-- ==== Sys2Proof/Machine/Ops.lean ====
section
/-!
DEFINITION. The operations that every unit shares: sorted tables, reading and writing a register and a field of one,
time, error flags, interrupts (R657 to R661), Guestbook records (R598 to R600), Ledger records (R611 to R615), results
(R635 to R637), production counters (R194) and the reset and fence conditions of a page.
-/
namespace Sys2Proof.Machine

/-! Sorted tables. -/

/-- The value under key `k` of a table. -/
def look {α : Type} (k : Nat) : List (Nat × α) → Option α
  | [] => none
  | (j, v) :: t => if j = k then some v else look k t

/-- The table with `v` under key `k`: keys stay rising. -/
def store {α : Type} (k : Nat) (v : α) : List (Nat × α) → List (Nat × α)
  | [] => [(k, v)]
  | (j, w) :: t => if k < j then (k, v) :: (j, w) :: t else if j = k then (k, v) :: t else (j, w) :: store k v t

/-- The table without the keys that satisfy `p`. -/
def dropKeys {α : Type} (p : Nat → Bool) (t : List (Nat × α)) : List (Nat × α) := t.filter fun e => !p e.1

/-- A list in rising order of a key; equal keys keep their order. -/
def insertBy {α : Type} (k : α → Nat) (x : α) : List α → List α
  | [] => [x]
  | y :: t => if k x ≤ k y then x :: y :: t else y :: insertBy k x t
def sortBy {α : Type} (k : α → Nat) (l : List α) : List α := l.foldr (insertBy k) []

/-! Registers. -/

/-- Whether offset `a` is copy `i` of a row, for some `i` below `n`; and that copy's number. -/
def rowIndex (r : RegRow) (n a : Nat) : Option Nat :=
  if a < r.base then none
  else if r.stride = 0 then (if a = r.base ∧ 0 < n then some 0 else none)
  else if (a - r.base) % r.stride = 0 ∧ (a - r.base) / r.stride < n then some ((a - r.base) / r.stride) else none

/-- The largest number of copies of a row in any personality. -/
def rowMax (r : RegRow) : Nat := max r.nDie (max r.nTray r.nRelay)

/-- The row of the register map that offset `a` belongs to in some personality. -/
def findRow (a : Nat) : Option RegRow := (regPage (a / 65536)).find? fun r => (rowIndex r (rowMax r) a).isSome

/-- The reset value that a row gives every copy. -/
def rowReset (r : RegRow) : Word := r.fields.foldl (fun v f => putAt v f.lo f.w f.reset) 0

/-- The reset value of INK_CLASSc (R350): rank, overflow by discard, expedited, memory, VC and risk limit of a class. -/
def classReset (c : Nat) : Word :=
  let row (rank drop exp mem vc lim : Nat) : Word :=
    BitVec.ofNat 64 (lim + 2 ^ 30 * vc + 2 ^ 33 * mem + 2 ^ 34 * exp + 2 ^ 35 * drop + 2 ^ 40 * rank)
  match c with
  | 0 => row 2 0 1 0 0 20
  | 1 => row 3 0 1 0 0 50
  | 2 => row 3 0 1 0 0 50
  | 3 => row 4 0 1 0 0 20
  | 4 => row 8 1 1 0 0 1000
  | 5 => row 3 0 0 0 1 500
  | 6 => row 8 1 0 0 1 1000
  | 7 => row 3 0 0 0 2 500
  | 8 => row 3 0 0 0 2 500
  | 9 => row 9 1 0 0 2 0
  | 10 => row 2 0 0 0 3 100
  | 11 => row 5 0 0 0 3 200
  | 12 => row 6 1 0 0 3 1000
  | 13 => row 7 0 0 0 3 5000
  | 16 => row 5 0 1 1 0 1
  | 17 => row 2 0 1 1 0 50
  | 18 => row 2 0 0 1 0 100
  | 19 => row 5 0 0 1 0 200
  | 20 => row 7 0 0 1 0 2000
  | 21 => row 7 0 0 1 0 2000
  | 22 => row 7 0 0 1 0 2000
  | 23 => row 9 0 0 1 0 0
  | 24 => row 6 0 0 1 0 1000
  | _ => 0

/-- The reset value of the register at an offset (register tables; some have values of their own for
some copies: the TB1 timeout, the class of each ACT source (R657), the coarsened classes of mask 0, state 0 of the Lantern, and the traffic classes). -/
def regDefault (a : Nat) : Word :=
  if a = 0x090050 then 0x000A0014000003E8#64
  else if a = 0x0B0020 then 0xFFFFFFFFFFFFFFFE#64
  else if a = 0x1B0200 then 1#64
  else if 0x0B0100 ≤ a ∧ a < 0x0B0200 ∧ a % 8 = 0 then classReset ((a - 0x0B0100) / 8)
  else if 0x194000 ≤ a ∧ a < 0x194780 ∧ a % 64 = 8 then 0x100#64
  else match findRow a with
    | some r => rowReset r
    | none => 0

/-- The stored value of the register at an offset. -/
def rd (s : State) (a : Nat) : Word := (look a s.regs).getD (regDefault a)

/-- The register at an offset takes a value. -/
def wr (s : State) (a : Nat) (v : Word) : State := { s with regs := store a v s.regs }

/-- A field of a register as a number. -/
def get (s : State) (f : Field) : Nat := bitsAt (rd s f.addr) f.lo f.w

/-- A field of a register takes the low bits of a number. -/
def set (s : State) (f : Field) (x : Nat) : State := wr s f.addr (putAt (rd s f.addr) f.lo f.w x)

/-- Whether a field is not 0. -/
def on (s : State) (f : Field) : Bool := get s f != 0

/-- A saturating count in a field takes `n` more. -/
def bump (s : State) (f : Field) (n : Nat) : State := set s f (satAdd f.w (get s f) n)

/-- A bit of a field, and that bit set or cleared. -/
def bitOn (s : State) (f : Field) (i : Nat) : Bool := (get s f).testBit i
def setBit (s : State) (f : Field) (i : Nat) (b : Bool) : State :=
  set s f (if b then get s f ||| 2 ^ i else if (get s f).testBit i then get s f - 2 ^ i else get s f)

/-- The unit page of an offset; a window counts to the page of its unit (R718). -/
def pageOf (a : Nat) : Nat :=
  let k := a / 65536
  if k < 0x1E then k
  else if 0x40 ≤ k ∧ k ≤ 0x43 then 0x14
  else if 0x48 ≤ k ∧ k ≤ 0x50 then 0x0A
  else if k = 0x58 then 0x17
  else if 0x60 ≤ k ∧ k ≤ 0x7F then 0x08
  else 0

/-! Personality and build. -/

/-- 0 none, 1 die, 2 tray, 3 relay. -/
def pers (s : State) : Nat := get s F.GLB_PERSONALITY_PERS
/-- The number of control cores connected; before an Itinerary is accepted, the most that any has. -/
def nCores (s : State) : Nat := if pers s = 0 then 8 else get s F.GLB_PERSONALITY_CORES
/-- Schedules (R203): 16 in a die, 64 otherwise. -/
def nScheds (s : State) : Nat := if pers s = 1 then 16 else 64
/-- Counters built (R188). -/
def nCounters (s : State) : Nat := if pers s = 1 then 16384 else 65536
/-- Innkeeper queues (R348). -/
def nQueues (s : State) : Nat := if pers s = 1 then 64 else 512
/-- Interrupt sources (R657) and groups (R658). -/
def nSources (s : State) : Nat := if pers s = 1 then 256 else 1024
def nGroups (s : State) : Nat := if pers s = 1 then 16 else 64
/-- The level served and the source index of this instance. -/
def level (s : State) : Nat := get s F.GLB_INSTANCE_POS_LEVEL
def index (s : State) : Nat := get s F.GLB_INSTANCE_POS_INDEX

/-- Copies of a row in this personality; before an Itinerary is accepted, the most that any personality has (DESIGN
CHOICE, log 3). -/
def rowCount (s : State) (r : RegRow) : Nat :=
  match pers s with
  | 1 => r.nDie
  | 2 => r.nTray
  | 3 => r.nRelay
  | _ => rowMax r

/-! Domains (R80, R715). -/

/-- Domain numbers in the bit order of CLK_RST_CTL: 0 CTRL, 1 CALC, 2 MOVE, 3 NET, 4 TIME, 5 EOP shell, 6 MMP shell. -/
def domainOf (page : Nat) : Option Nat :=
  match page with
  | 0x01 => some 0 | 0x08 => some 0 | 0x17 => some 0 | 0x18 => some 0 | 0x19 => some 0 | 0x1B => some 0
  | 0x0C => some 1 | 0x0D => some 1 | 0x0E => some 1 | 0x0F => some 1 | 0x10 => some 1
  | 0x11 => some 2 | 0x12 => some 2
  | 0x05 => some 3 | 0x06 => some 3 | 0x0A => some 3 | 0x0B => some 3
  | 0x07 => some 4 | 0x09 => some 4
  | 0x03 => some 5
  | 0x04 => some 6
  | _ => none

/-- Whether a domain does not run: it is in reset (CLK_DOMAIN_STATUS), or stopped after a power-fail warning (R182, R184). -/
def inReset (s : State) (d : Nat) : Bool := bitOn s F.CLK_DOMAIN_STATUS_IN_RESET d || s.clk.stopped
def pageInReset (s : State) (page : Nat) : Bool :=
  match domainOf page with
  | some d => inReset s d
  | none => false

/-- The 4-bit fence state of a target (R565): block domain 0 to 6, or 32 + d for host domain d. -/
def fenceBits (s : State) (t : Nat) : Nat :=
  if t < 7 then natBits (get s F.RCV_FENCE_BLK_STATE) (4 * t) 4
  else if t < 48 then natBits (get s F.RCV_FENCE_HOST0_STATE) (4 * (t - 32)) 4
  else natBits (get s F.RCV_FENCE_HOST1_STATE) (4 * (t - 48)) 4
def fenceState (s : State) (t : Nat) : Nat := fenceBits s t % 8
def fenced (s : State) (t : Nat) : Bool := fenceState s t != 0

/-- The domain of a page is fenced, in any state other than OPEN. -/
def pageFenced (s : State) (page : Nat) : Bool :=
  match domainOf page with
  | some d => fenced s d
  | none => false

/-- A function quiesce holds the unit of a page (R82, R566). -/
def held (s : State) (page : Nat) : Bool := s.ctl.held.any fun h => h.1 == page

/-- The unit of a page counts as quiesced for a write of RWL fields (R15, R569, R704). -/
def quiesced (s : State) (page : Nat) : Bool :=
  held s page || (match domainOf page with | some d => fenceState s d == 3 | none => false)
    || (page == 0x1B && !on s F.LTN_CTL_EN)

/-! Time (R239 to R243). -/

/-- The 64-bit nanosecond counts of the bases. -/
def ns0 (s : State) : Nat := s.tim.tb0 / 2 ^ 48 % 2 ^ 64
def ns1 (s : State) : Nat := s.tim.tb1 / 2 ^ 48 % 2 ^ 64
def ns2 (s : State) : Nat := s.tim.tb2 / 2 ^ 48 % 2 ^ 64
/-- TB2 in whole microseconds. -/
def us2 (s : State) : Nat := s.tim.tb2 / 2 ^ 48 / 1000

/-! Interrupts (R657 to R662). -/

def irqPend (s : State) (n : Nat) : Bool := (get s (F.IRQ_PEND_PEND (n / 64))).testBit (n % 64)
def irqActive (s : State) (n : Nat) : Bool := (get s (F.IRQ_ACTIVE_ACTIVE (n / 64))).testBit (n % 64)
/-- The mask word in effect (R662): the latest write that is due, or the one before it. -/
def effMask (s : State) (w : Nat) : Word :=
  match (s.irq.maskDue.filter fun d => d.2.1 == w && decide (d.1 ≤ s.tim.tb2)).getLast? with
  | some d => d.2.2
  | none => (look w s.irq.effMask).getD (BitVec.allOnes 64)
def irqMasked (s : State) (n : Nat) : Bool := (effMask s (n / 64)).getLsbD (n % 64)
def irqMapped (s : State) (n : Nat) : Bool := on s (F.IRQ_SRC_CFG_MAPPED n)
def irqGroup (s : State) (n : Nat) : Nat := get s (F.IRQ_SRC_CFG_GROUP n)

/-- A source that is PENDING and unmasked drives its group (R660, R661). -/
def irqDrives (s : State) (n : Nat) : Bool := irqMapped s n && irqPend s n && !irqActive s n && !irqMasked s n

/-- Some source of group `g` drives it. -/
def groupDriven (s : State) (g : Nat) : Bool :=
  (List.range (nSources s / 64)).any fun w => get s (F.IRQ_PEND_PEND w) != 0 &&
    (List.range 64).any fun i => irqPend s (64 * w + i) && irqGroup s (64 * w + i) == g && irqDrives s (64 * w + i)

/-- The hold-off of group `g` has passed since its output last rose (R660). -/
def holdoffPassed (s : State) (g : Nat) : Bool :=
  match look g s.irq.lastRise with
  | none => true
  | some t => decide (t + get s (F.IRQ_GRP_CTL_HOLDOFF g) * 1000 * 2 ^ 48 ≤ s.tim.tb2)

/-! Power states (R665 to R680). -/

/-- The power state: 0 PS0 to 3 PS3. -/
def pwState (s : State) : Nat := get s F.PWR_STATUS_STATE
/-- The power controller holds or has stopped the unit of a page (R672, R675). -/
def pwHeld (s : State) (page : Nat) : Bool := s.ctl.held.any fun h => h.1 == page && decide (3 ≤ h.2)

/-- A wake source is enabled, and is one that the present state recognises (R679). -/
def wakeOn (s : State) (src : Nat) : Bool :=
  (src == 1 || src == 8 || (src == 0 && pwState s == 3) || (decide (src < 8) && bitOn s F.PWR_WAKE_EN_EN src))
    && (decide (src < 4) || decide (7 ≤ src) || pwState s == 2)

/-- PWR_LAST_WAKE (R680). -/
def lastWake (src src_us phase : Nat) (s : State) : State :=
  wr s F.PWR_LAST_WAKE_SOURCE.addr
    (BitVec.ofNat 64 (src_us % 2 ^ 32 * 2 ^ 32 + src * 2 ^ 8 + pwState s * 2 ^ 4 + phase))

/-- A wake event is recognised (R676, R679): during an entry it waits for the next abort point; in a state other than PS0 the exit begins. -/
def wake (src : Nat) (s : State) : State :=
  if !wakeOn s src || s.clk.stopped then s
  else if s.pwr.entry.isSome then
    if s.pwr.wake.isSome then s else { s with pwr := { s.pwr with wake := some (src, us2 s, get s F.PWR_STATUS_PHASE) } }
  else if pwState s = 0 ∨ s.pwr.exit.isSome then s
  else lastWake src (us2 s) 0 { s with pwr := { s.pwr with exit := some (src, pwState s) } }

/-- Work is posted to a unit (R675). -/
def workWake (page : Nat) (s : State) : State := if pwHeld s page then wake 1 s else s

/-- The output of group `g` rises, unless it is up already. -/
def groupRise (s : State) (g : Nat) : State :=
  if bitOn s F.IRQ_GRP_OUT_OUT g then s
  else
    let s1 : State := { setBit s F.IRQ_GRP_OUT_OUT g true with
         irq := { s.irq with lastRise := store g s.tim.tb2 s.irq.lastRise } }
    if get s (F.IRQ_GRP_CTL_TGT_KIND g) = 0 then wake 6 s1 else s1

/-- The output of group `g` follows its sources: it falls when none drives it, and rises when one does and the hold-off
has passed or does not apply (`free`). -/
def groupUpdate (free : Bool) (g : Nat) (s : State) : State :=
  if groupDriven s g then (if free || holdoffPassed s g then groupRise s g else s)
  else setBit s F.IRQ_GRP_OUT_OUT g false

/-- A source is raised: IDLE to PENDING, ACTIVE to ACTIVE_PENDING (R659); its group may rise. Nothing while CTRL, to which
the controller belongs, is in reset. -/
def raiseIrq (n : Nat) (s : State) : State :=
  if inReset s 0 || decide (nSources s ≤ n) then s
  else
    let s1 := setBit s (F.IRQ_PEND_PEND (n / 64)) (n % 64) true
    if irqDrives s1 n && holdoffPassed s1 (irqGroup s1 n) then groupRise s1 (irqGroup s1 n) else s1

/-- The sources of a page: ERR, ACT and RESULT (R657). -/
def irqErr (page : Nat) : Nat := 8 * page
def irqAct (page : Nat) : Nat := 8 * page + 1
def irqResult (page : Nat) : Nat := 8 * page + 2

/-- An error flag is set; its rise raises source ERR of its page (R657). -/
def flag (f : Field) (s : State) : State :=
  if get s f = 2 ^ f.w - 1 then s else raiseIrq (irqErr (pageOf f.addr)) (set s f (2 ^ f.w - 1))

/-- Bit `i` of a W1C field of several bits is set. -/
def flagBit (f : Field) (i : Nat) (s : State) : State :=
  if bitOn s f i then s else raiseIrq (irqErr (pageOf f.addr)) (setBit s f i true)

/-! Guestbook records. -/

/-- The classes of R598. -/
def INFO : Nat := 1
def ADVISE : Nat := 2
def ACT : Nat := 3
def PROV : Nat := 4
def WITHDRAWN : Nat := 5
def FAULT : Nat := 6

/-- A raised record whose SOURCE names the page of its code, with context 0 and no run mark (R598, R599). -/
def recOf (code cls payload : Nat) : Raised :=
  { code, cls, source := code / 256, context := 0, payload := payload % 2 ^ 64, run := 0, key := 0 }

/-- A record enters the acceptance queue, or is dropped and counted (R600). Before the ring starts records are not kept
(R605). -/
def record (r : Raised) (s : State) : State :=
  if !on s F.GBK_STATUS_RUNNING then s
  else
    let q := s.gbk.queue.length
    if decide (256 ≤ q) || (decide (192 < q) && (r.cls == INFO || r.cls == PROV)) then
      let s1 : State := { s with gbk := { s.gbk with
        dropRun := s.gbk.dropRun + 1,
        dropCode := if s.gbk.dropRun = 0 then r.code else s.gbk.dropCode } }
      flag F.GBK_ERR_LOST (bump s1 F.GBK_LOST_LOST 1)
    else
      let r' := { r with drops := s.gbk.dropRun, dropCode := s.gbk.dropCode }
      let s1 : State := { s with gbk := { s.gbk with queue := s.gbk.queue ++ [r'], dropRun := 0, dropCode := 0 } }
      set s1 F.GBK_STATUS_QUEUED (q + 1)

/-- A record of code, class and payload. -/
def note (code cls payload : Nat) (s : State) : State := record (recOf code cls payload) s

/-- A flag and its record. -/
def report (f : Field) (code cls payload : Nat) (s : State) : State := note code cls payload (flag f s)

/-! Production counters (R189, R194). -/

def counter (s : State) (i : Nat) : Word := (look i s.tly.counters).getD 0

/-- A counter takes `n` more, modulo 2^64 (R188); a count of 0 is not listed. -/
def countUp (i n : Nat) (s : State) : State :=
  let v := counter s i + BitVec.ofNat 64 n
  { s with tly := { s.tly with
      counters := if v = 0 then dropKeys (· == i) s.tly.counters else store i v s.tly.counters } }

/-- A production counter counts unless the Tally is held in reset or has no clock, which it has not in PS3 (R189). -/
def prod (i n : Nat) (s : State) : State := if inReset s 0 || pwState s == 3 then s else countUp i n s

/-! Ledger records. -/

/-- Bytes 0 to 59 of a Ledger record (R613). -/
def lrecBytes (r : LRec) : List Byte :=
  leBytes 8 r.seq ++ leBytes 8 r.time ++ [BitVec.ofNat 8 r.kind, BitVec.ofNat 8 r.port, BitVec.ofNat 8 r.priv,
    BitVec.ofNat 8 r.flags] ++ leBytes 2 r.init ++ leBytes 2 0 ++ leBytes 4 r.target ++ leBytes 4 r.detail
    ++ wordBytes r.old ++ wordBytes r.new ++ leBytes 8 r.tb2 ++ leBytes 4 0

/-- CHAIN of a record, from the CHAIN of the record before it (R614). -/
def lrecChain (prev : BitVec 32) (r : LRec) : BitVec 32 := ~~~ crcFrom prev (lrecBytes r)

/-- A change enters the Ledger queue as its next record (R611 to R614). -/
def ledger (kind port priv flags init target detail : Nat) (old new : Word) (s : State) : State :=
  let r : LRec := { seq := get s F.LDG_SEQ_SEQ, time := ns0 s, kind, port, priv, flags, init, target, detail, old, new,
                    tb2 := ns2 s, chain := 0 }
  let c := lrecChain (BitVec.ofNat 32 (get s F.LDG_CHAIN_CHAIN)) r
  let s1 : State := { s with ldg := { s.ldg with queue := s.ldg.queue ++ [{ r with chain := c }] } }
  let s2 := set s1 F.LDG_SEQ_SEQ (get s F.LDG_SEQ_SEQ + 1)
  let s3 := set s2 F.LDG_CHAIN_CHAIN c.toNat
  set s3 F.LDG_STATUS_QUEUED s1.ldg.queue.length

/-- The queue passes its oldest record into the tail and, once it has started, the ring (R612, R615). -/
def ledgerPass (s : State) : State :=
  match s.ldg.queue with
  | [] => s
  | r :: q =>
    let running := on s F.LDG_STATUS_RUNNING
    let n := if running then get s F.LDG_STATUS_SIZE else 256
    let kept := if running then s.ldg.ring else s.ldg.tail
    let full := decide (n ≤ kept.length)
    let lost := (kept.head?.map LRec.seq).getD 0
    let tail := s.ldg.tail ++ [r]
    let tail' := tail.drop (tail.length - 256)
    let ring := s.ldg.ring ++ [r]
    let ring' := if running then ring.drop (ring.length - n) else s.ldg.ring
    let s1 : State := { s with ldg := { s.ldg with
      queue := q, tail := tail', ring := ring', overwrote := s.ldg.overwrote || full } }
    let s2 := set s1 F.LDG_STATUS_QUEUED q.length
    if full then
      let s3 := bump s2 F.LDG_OVERWRITTEN_COUNT 1
      if s.ldg.overwrote then s3 else note 0x1501 INFO lost s3
    else s2

/-- How the Ledger numbers a port and a privilege (R613). -/
def portCode : Port → Nat
  | .rgp => 0
  | .tga => 1
  | .core _ => 2
  | .tap => 3
  | .internal => 4

/-- The initiator ID of an access (R613, R627). -/
def accInit (acc : Acc) : Nat :=
  match acc.port with
  | .rgp => acc.init % 2 ^ 16
  | .tga => acc.init % 2 ^ 16
  | .core c => 0xFF00 + c
  | .tap => 0xFE00
  | .internal => 0

/-- FLAGS of an access (R613): bit 0 a 32-bit access, bit 1 the upper half. -/
def accFlags (acc : Acc) : Nat :=
  match acc.half with
  | .full => 0
  | .lo => 1
  | .hi => 3

/-! Results (R635 to R637). -/

/-- A result posts: SEQ, VALID and every other field of the result register at `a` change together; source RESULT of its page
is raised (R635, R657). -/
def post (a seq : Nat) (rest : Word) (s : State) : State :=
  raiseIrq (irqResult (pageOf a)) (wr s a (putAt (putAt rest 48 16 seq) 32 1 1))

/-- A result is posted and unconsumed. -/
def valid (s : State) (a : Nat) : Bool := bitsAt (rd s a) 32 1 == 1

/-- Record 0x0006: a wrong SEQ written back to the result register at `a` (R637, R664). -/
def wrongSeq (a : Nat) (s : State) : State :=
  record { recOf 0x0006 ADVISE a with source := pageOf a } s

/-- Record 0x0007: a command field at register `a` holds an undefined value (R21). -/
def undefinedField (a v : Nat) (s : State) : State :=
  record { recOf 0x0007 ADVISE (a + 2 ^ 32 * (v % 256)) with source := pageOf a } s

/-! Sync objects (R648 to R651). -/

/-- An agent adds an amount to an object, or the signal overflows (R651). -/
def syncSignal (o amount agent : Nat) (s : State) : State :=
  let v := get s (F.SYN_OBJ_VIEW0_VALUE o)
  if 2 ^ 32 ≤ v + amount then report F.SYN_ERR_OVERFLOW 0x1801 FAULT (o + 256 * agent) s
  else
    let s1 := set s (F.SYN_OBJ_VIEW0_VALUE o) (v + amount)
    let s2 := set s1 (F.SYN_OBJ_VIEW1_LAST_AGENT o) agent
    set s2 (F.SYN_OBJ_VIEW1_LAST_TIME o) (ns2 s)

/-- Source event `e` of an engine signals the objects of every valid SYN_MAP entry that names it (R649, R650). -/
def syncEvent (e agent : Nat) (s : State) : State :=
  if inReset s 0 then s
  else (List.range 64).foldl (fun s m =>
    if on s (F.SYN_MAP_VALID m) && get s (F.SYN_MAP_SOURCE m) == e then
      syncSignal (get s (F.SYN_MAP_OBJECT m)) (get s (F.SYN_MAP_AMOUNT m)) agent s
    else s) s

/-- A free value is used: the counter that every use reads advances. -/
def tickFree (s : State) : State := { s with freeCtr := s.freeCtr + 1 }

/-- Field `k` of a record, `w` bits wide, to which the spec gives no value in the case at hand (log 33); `tickFree` follows its use. -/
def openField (k w : Nat) (s : State) : Nat := Config.openField s.freeCtr k % 2 ^ w

/-- A unit has done a piece of work whose length in cycles is a free value: its production counter of busy cycles (R194, log 10). -/
def busyFor (i : Nat) (s : State) : State := prod i (Config.busyCycles s.freeCtr i) (tickFree s)

/-- Something leaves the block. -/
def emit (o : Out) (s : State) : State := { s with outbox := s.outbox ++ [o] }

end Sys2Proof.Machine
end

