-- ==== Sys2Proof/Machine/Operands.lean ====
section
/-!
DEFINITION. The operands of a register access (R13, R116): the bits it writes, the value it leaves in a field, and the
register row it meets in this personality (R715 to R718).
-/
namespace Sys2Proof.Machine

/-- The bits of the register that an access writes. -/
def wmask (acc : Acc) : Word :=
  match acc.half with
  | .full => BitVec.allOnes 64
  | .lo => 0x00000000FFFFFFFF#64
  | .hi => 0xFFFFFFFF00000000#64

/-- The data of an access in its place in the register, 0 in the half it does not write (R116). -/
def wdata (acc : Acc) : Word :=
  match acc.half with
  | .full => acc.data
  | .lo => acc.data &&& 0x00000000FFFFFFFF#64
  | .hi => acc.data <<< 32

/-- What an access carries in a field: the written bits, and for the half it does not write the bits `old`. -/
def wfull (old : Word) (acc : Acc) : Word := (old &&& ~~~ wmask acc) ||| wdata acc

/-- A bit that an access writes as 1. -/
def wrote1 (acc : Acc) (f : Field) : Bool := (wdata acc).getLsbD f.lo

/-- The value an access carries in a field of the register at its address, the unwritten half as it stands. -/
def wfield (s : State) (acc : Acc) (f : Field) : Nat := bitsAt (wfull (rd s f.addr) acc) f.lo f.w

/-- An access with a field of its data forced to a value. -/
def force (f : Field) (x : Nat) (acc : Acc) : Acc := { acc with half := .full, data := putAt acc.data f.lo f.w x }

/-- The offset of an access in the 16 MiB window: 8-byte aligned (R116). -/
def offset (a : Nat) : Nat := a % 2 ^ 24 / 8 * 8

/-- Offsets of the read-only windows (R718). -/
def roWindow (a : Nat) : Bool :=
  (decide (0x400000 ≤ a) && decide (a < 0x440000)) || (decide (0x480000 ≤ a) && decide (a < 0x500000))
    || (decide (0x600000 ≤ a) && decide (a < 0x800000))

/-- Offsets of the windows that admit writes (R718). -/
def rwWindow (a : Nat) : Bool :=
  (decide (0x500000 ≤ a) && decide (a < 0x500400)) || (decide (0x580000 ≤ a) && decide (a < 0x581200))

/-- A unit page that the personality builds (R715): all but VER in a relay. -/
def pageBuilt (s : State) (k : Nat) : Bool := decide (k < 0x1E) && !(k == 0x0F && pers s == 3)

/-- An offset of a read-only window that the personality builds (R238, R343, R606); the rest of these windows is reserved space. -/
def windowBuilt (s : State) (a : Nat) : Bool :=
  if a < 0x600000 then true
  else if a < 0x680000 then decide ((a - 0x600000) / 8 < nCounters s)
  else if a < 0x700000 then decide ((a - 0x680000) / 8 < nCounters s)
  else if a < 0x710000 then true
  else if a < 0x720000 then decide (a < 0x712000)
  else if a < 0x730000 then decide (a < 0x728000) && pers s != 3
  else pageBuilt s ((a - 0x730000) / 512) && decide ((a - 0x730000) % 512 / 8 < 35)

/-- The row of the register at an offset, if the personality builds it (R716). -/
def regRow (s : State) (a : Nat) : Option RegRow :=
  if decide (a / 65536 < 0x1E) && !pageBuilt s (a / 65536) then none
  else (regPage (a / 65536)).find? fun r => (rowIndex r (rowCount s r) a).isSome

/-- The register at an offset resides in AON although its page does not (R715). -/
def aonReg (a : Nat) : Bool :=
  match findRow a with
  | some r => r.aon
  | none => false

/-- Writable field types. -/
def writable : Access → Bool
  | .ro => false
  | .roV => false
  | _ => true

/-- Configuration class (R16). -/
def isConfig (r : RegRow) : Bool :=
  r.fields.any (fun f => f.acc == .rwl) || (r.fields.any (fun f => writable f.acc) && (r.wpriv == some .F || r.wpriv == some .S))

/-- A register with a W1C or WO field refuses 32-bit writes (R13). -/
def fullOnly (r : RegRow) : Bool := r.fields.any fun f => f.acc == .w1c || f.acc == .wo

/-- An access would change an RWL field of the register at `a` (R15). -/
def changesRwl (s : State) (a : Nat) (r : RegRow) (acc : Acc) : Bool :=
  r.fields.any fun f => f.acc == .rwl && bitsAt (wfull (rd s a) acc) f.lo f.w != bitsAt (rd s a) f.lo f.w

/-- The answer to a write by the conditions of R729, first that applies: 0 performed or passed to its unit, 1 domain in
reset, 2 reserved, 3 privilege, 4 half width, 5 RWL. -/
def writeCheck (s : State) (a : Nat) (acc : Acc) : Nat :=
  if (pageBuilt s (a / 65536) || roWindow a || rwWindow a) && pageInReset s (pageOf a) && !aonReg a then 1
  else if roWindow a then (if windowBuilt s a then 3 else 2)
  else match regRow s a with
    | none => 2
    | some r =>
      match r.wpriv with
      | none => 3
      | some p =>
        if privRank acc.priv < privRank p then 3
        else if acc.half != .full && fullOnly r then 4
        else if changesRwl s a r acc && !quiesced s (pageOf a) then 5
        else 0

end Sys2Proof.Machine
end

