-- ==== Sys2Proof/Machine/Flags.lean ====
section
/-!
DEFINITION. What a write leaves in each kind of field (register conventions of 00_scope.md, R22 to R24, R728), the
overruns it counts, and the error flags of a refused write (R18, R19, R120, R729).
-/
namespace Sys2Proof.Machine

/-- One field after a write, without the hardware update of the same edge. W1S bits are left to the unit; WO fields read
0; RO and RO/V fields keep their value (R728). -/
def fieldWritten (old : Word) (acc : Acc) (f : RegField) : Nat :=
  match f.acc with
  | .rw => bitsAt (wfull old acc) f.lo f.w
  | .rwl => bitsAt (wfull old acc) f.lo f.w
  | .rws => bitsAt (wfull old acc) f.lo f.w
  | .w1c => bitsAt (old &&& ~~~ wdata acc) f.lo f.w
  | .wo => 0
  | .w1s => bitsAt old f.lo f.w
  | .ro => bitsAt old f.lo f.w
  | .roV => bitsAt old f.lo f.w

/-- The bits of a field that hardware updates at the edge of a write although software writes them (R24). -/
def swKept (f : RegField) : Bool := f.acc == .rw || f.acc == .rwl || f.acc == .rws

/-- One field after a write and the hardware update of the same edge: a hardware set of a W1C bit wins (R22), a software
set of a W1S bit wins (R23), a software value of an RW field is kept (R24). -/
def fieldAfter (old : Word) (acc : Acc) (f : RegField) : Nat :=
  let v := BitVec.ofNat 64 (fieldWritten old acc f * 2 ^ f.lo)
  let hw := if swKept f then acc.hwMask &&& ~~~ wmask acc else acc.hwMask
  let hv := if f.acc == .w1s then acc.hwVal ||| wdata acc else acc.hwVal
  bitsAt ((v &&& ~~~ hw) ||| (hv &&& hw)) f.lo f.w

/-- How often a write and a hardware update of the same edge meet in a field so that an overrun is counted: once for each W1C bit that is
cleared and set (R22), once for a field that software keeps (R24). -/
def fieldOverruns (acc : Acc) (f : RegField) : Nat :=
  match f.acc with
  | .w1c => ((List.range f.w).filter fun i => (acc.hwMask &&& acc.hwVal &&& wdata acc).getLsbD (f.lo + i)).length
  | .w1s => 0
  | .wo => 0
  | .ro => 0
  | .roV => 0
  | _ => if bitsAt (acc.hwMask &&& wmask acc) f.lo f.w = 0 then 0 else 1

/-- The register after a write, field by field; reserved bits read 0 (R17). -/
def regAfter (old : Word) (acc : Acc) (r : RegRow) : Word :=
  r.fields.foldl (fun v f => putAt v f.lo f.w (fieldAfter old acc f)) 0

/-- The event-overrun counter of a page (R25, R716). -/
def overrunField (page : Nat) : Field := ⟨65536 * page + 0xFFF8, 0, 32⟩

/-- The unit of a page counts `n` overruns (R22, R24, R25). -/
def overrun (page n : Nat) (s : State) : State := if n = 0 then s else bump s (overrunField page) n

/-- The payload of records 0x0001 to 0x0005 (R19). -/
def accessPayload (a : Nat) (acc : Acc) : Nat :=
  a + 2 ^ 24 * privRank acc.priv + 2 ^ 32 * accInit acc + 2 ^ 48 * accFlags acc

/-- A record of a refused write: SOURCE names the GLB page and bits 23:16 of the offset (R19). -/
def accessRecord (code a : Nat) (acc : Acc) (s : State) : State :=
  record { recOf code ADVISE (accessPayload a acc) with source := 256 * (a / 65536) } s

/-- The status flag of a condition of R729. -/
def refusalFlag : Nat → Option Field
  | 2 => some F.GLB_ERR_STATUS_RSV_WR
  | 3 => some F.GLB_ERR_STATUS_PRIV_ERR
  | 4 => some F.GLB_ERR_STATUS_HALF_ERR
  | 5 => some F.GLB_ERR_STATUS_RWL_ERR
  | _ => none

/-- The record code of a condition of R729. -/
def refusalCode : Nat → Nat
  | 1 => 0x0005
  | 2 => 0x0001
  | 3 => 0x0002
  | 4 => 0x0004
  | _ => 0x0003

/-- The port status of a condition of R729 (R119). -/
def refusalStatus : Nat → Nat
  | 0 => 0
  | 1 => 3
  | 2 => 3
  | 3 => 1
  | _ => 2

/-- GLB_ERR_ADDR takes the offending access (R19). -/
def loadErrAddr (a : Nat) (acc : Acc) (s : State) : State :=
  wr s F.GLB_ERR_ADDR_OFFSET.addr
    (BitVec.ofNat 64 (a + 2 ^ 24 * accInit acc + 2 ^ 40 * privRank acc.priv))

/-- The response to an access: its status, with read data 0, and its tag (R115, R119). -/
def answer (st : Nat) (acc : Acc) (s : State) : State := { s with rsp := (st, 0), rspTag := acc.tag }

/-- A write refused under condition `c` of R729: its status, flag and record, and no other effect. -/
def refuseWrite (c a : Nat) (acc : Acc) (s : State) : State :=
  let s0 := answer (refusalStatus c) acc s
  let s1 := match refusalFlag c with
    | some f => loadErrAddr a acc (flag f s0)
    | none => s0
  accessRecord (refusalCode c) a acc s1

end Sys2Proof.Machine
end

