-- ==== Sys2Proof/Machine/Access.lean ====
section
/-!
DEFINITION. A write at a port: the checks of R729, the register after it, its Ledger record (R611, R612), and the
write-back that consumes a result (R637).
-/
namespace Sys2Proof.Machine

/-- Whether a performed write of the register at `a` enters the Ledger as KIND REG (R16, R611, R654). -/
def ledgered (a : Nat) : Bool :=
  match findRow a with
  | some r => isConfig r && !(decide (0x181000 ≤ a) && decide (a < 0x183000))
  | none => false

/-- A write of the register at `a` makes a Ledger record, of KIND REG or SYNC_SET, and waits while the Ledger queue is full (R612). -/
def recorded (a : Nat) : Bool := match findRow a with | some r => isConfig r | none => false

/-- The Ledger record of a performed write: KIND REG (R613). -/
def ledgerReg (a : Nat) (acc : Acc) (old : Word) (s : State) : State :=
  ledger 1 (portCode acc.port) (privRank acc.priv) (accFlags acc) (accInit acc) a
    (match acc.port with | .tga => acc.tgaFrom | _ => 0) old (wfull old acc) s

/-- A W1C flag of a page's error register rises with the hardware update of a write's own edge (R22, R657). The pending bits of the
interrupt controller are W1C too and are its own. -/
def flagRises (old : Word) (acc : Acc) (r : RegRow) : Bool :=
  r.fields.any fun f => f.acc == .w1c && bitsAt (acc.hwMask &&& acc.hwVal &&& ~~~ old) f.lo f.w != 0

/-- A write is performed on the fields of its register (R728), counts the overruns of its edge (R22, R24), raises the ERR source of its
page if a flag rises (R657) and enters the Ledger if the register is of configuration class (R611). W1S bits are left to the unit. -/
def perform (a : Nat) (acc : Acc) (s : State) : State :=
  match findRow a with
  | none => s
  | some r =>
    let old := rd s a
    let s1 := wr s a (regAfter old acc r)
    let s1a := if pageOf a != 0x19 && flagRises old acc r then raiseIrq (irqErr (pageOf a)) s1 else s1
    let s2 := overrun (pageOf a) ((r.fields.map (fieldOverruns acc)).sum) s1a
    if ledgered a then ledgerReg a acc old s2 else s2

/-- The privilege that the running firmware image gives a core (R627, R629); a byte that names none gives Driver. -/
def corePriv (s : State) (c : Nat) : Priv :=
  match s.ctl.privs.getD c 0 with
  | 1 => .F
  | 2 => .S
  | _ => .D

/-- An authorisation with a scope is installed: 0 TRACE, 1 SECURE_TAP, 2 HALT_SECURE (R697). -/
def authScope (s : State) (i : Nat) : Bool := on s F.DBG_AUTH_INFO_VALID && bitOn s F.DBG_AUTH_INFO_SCOPE i

/-- An access as its port presents it: a core's with the core's privilege (R627), the TAP's with that of the authorisation (R710). None
comes from a core that does not run; and the Register Port takes none while the EOP shell is in reset or its crossing not up (R92, R124). -/
def presented (s : State) (acc : Acc) : Option Acc :=
  match acc.port with
  | .rgp => if on s F.EOP_STATUS_LINK_UP && !inReset s 5 then some acc else none
  | .core c => if c < 8 ∧ bitOn s F.CTL_STATUS_RUNNING c then some { acc with priv := corePriv s c } else none
  | .tap => some { acc with priv := if authScope s 1 then .S else .D }
  | _ => some acc

/-- A write that posts work to a unit (R675): a GO of a job slot, a ring's HEAD, a Courier command, or a Command Window post. -/
def postsWork (a : Nat) (acc : Acc) : Bool :=
  (decide (0x0C1000 ≤ a) && decide (a < 0x0C2000) && a % 0x40 == 0x18 && (wdata acc).getLsbD 0)
    || (decide (0x0D1000 ≤ a) && decide (a < 0x0D2000) && a % 0x40 == 0x20 && (wdata acc).getLsbD 0)
    || (decide (0x121000 ≤ a) && decide (a < 0x128000) && a % 0x80 == 0x28 && (wdata acc).getLsbD 0)
    || (decide (0x128100 ≤ a) && decide (a < 0x128400) && a % 0x40 == (F.PRT_CH_HEAD_HEAD 0).addr % 0x40)
    || (a == F.CUR_SNAP_CMD_START.addr && (wdata acc).getLsbD 0)
    || (decide (0x580000 ≤ a) && decide (a < 0x581000) && a % 0x100 == 0xF8)

/-- A write at a port (R729). A refused write has only the effects of its refusal. A configuration-class write that finds the
Ledger queue full waits (R612). Any other write goes to its unit, `unit`. An access in an SCLK cycle of its own lets the
Ledger queue pass a record first (R612). Under cold reset and after a power-fail warning no port takes an access (R82, R182, R184). In PS3 the access wakes the instance and waits for
SCLK (R668). -/
def portWrite (unit : Nat → Acc → State → State) (a0 : Nat) (acc0 : Acc) (s : State) : State :=
  if s.clk.stopped || !s.clk.pwron then s else
  match presented s acc0 with
  | none => s
  | some acc =>
  if pwState s = 3 then wake 0 { s with pwr := { s.pwr with waiting := s.pwr.waiting ++ [{ addr := a0, acc }] } } else
  let a := offset a0
  let s0 := if acc.sameCycle then s else ledgerPass s
  match writeCheck s0 a acc with
  | 0 =>
    if recorded a && decide (64 ≤ s0.ldg.queue.length) then
      { s0 with ldg := { s0.ldg with waiting := s0.ldg.waiting ++ [(a, acc)] } }
    else
      let s1 := unit a acc (answer 0 acc s0)
      if postsWork a acc then workWake (pageOf a) s1 else s1
  | c => refuseWrite c a acc s0

/-- A write that waits for SCLK keeps what it brings with it: a buffer, or what a stepped instruction does. -/
def bringing (buf : Option (List Byte)) (step : Option StepEffect) (f : State → State) (s : State) : State :=
  let s1 := f s
  let n := s.pwr.waiting.length
  if s1.pwr.waiting.length = n then s1
  else { s1 with pwr := { s1.pwr with waiting := s.pwr.waiting ++ (s1.pwr.waiting.drop n).map fun w => { w with buf, step } } }

/-- A write-back to the result register at `a` (R637): the shown SEQ consumes the result, any other value while VALID = 1
writes record 0x0006, and a write of the lower half or while VALID = 0 has no effect. -/
def consume (a : Nat) (acc : Acc) (s : State) : State :=
  if acc.half == .lo || !valid s a then s
  else
    let old := rd s a
    if bitsAt (wdata acc) 48 16 = bitsAt old 48 16 then
      let s1 := wr s a (putAt old 32 1 0)
      if ledgered a then ledgerReg a acc old s1 else s1
    else wrongSeq a s

/-- Clears the START bit of a command register. -/
def startDone (f : Field) (s : State) : State := set s f 0

end Sys2Proof.Machine
end

