-- ==== Sys2Proof/Machine/Sketch.lean ====
section
/-!
DEFINITION. Sketches: the bucket of a value and the merge of two sketches (R303, R304).
-/
namespace Sys2Proof.Machine

/-- A whole number as FP32 bits, rounded to nearest even. -/
def natToFp32 (x : Nat) : Nat :=
  if x = 0 then 0
  else
    let e := Nat.log2 x
    if e ≤ 23 then (e + 127) * 2 ^ 23 + (x * 2 ^ (23 - e) - 2 ^ 23)
    else
      let q := x / 2 ^ (e - 23)
      let r := x % 2 ^ (e - 23)
      let h := 2 ^ (e - 24)
      let q' := if r > h ∨ (r = h ∧ q % 2 = 1) then q + 1 else q
      (e + 127) * 2 ^ 23 + (q' - 2 ^ 23)

/-- The bucket of an FP32 value, by its bits; `none` for NaN (R303). -/
def bucketOf (v : Nat) : Option Nat :=
  let sign := v / 2 ^ 31 % 2
  let ex := v / 2 ^ 23 % 256
  let fr := v % 2 ^ 23
  if ex = 255 ∧ fr ≠ 0 then none
  else if sign = 1 then some 0
  else if 127 + 40 ≤ ex then some 1023
  else if ex < 127 - 24 then some 0
  else some (16 * (ex - (127 - 24)) + fr / 2 ^ 19)

/-- Adds a value, by its FP32 bits, to a sketch. -/
def sketchAdd (v : Nat) (k : Sketch) : Sketch :=
  match bucketOf v with
  | none => { k with nan := satAdd 32 k.nan 1 }
  | some b => { k with buckets := store b (satAdd 32 ((look b k.buckets).getD 0) 1) k.buckets }

/-- Adds `n` to bucket `b`, saturating and marking SAT (R304). -/
def sketchPut (b n : Nat) (k : Sketch) : Sketch :=
  if n = 0 then k
  else
    let o := (look b k.buckets).getD 0
    { k with buckets := store b (satAdd 32 o n) k.buckets, sat := k.sat || decide (2 ^ 32 ≤ o + n) }

/-- The bucket-wise sum of two sketches (R304). -/
def sketchMerge (a k : Sketch) : Sketch :=
  let m := a.buckets.foldl (fun k e => sketchPut e.1 e.2 k) k
  { m with nan := satAdd 32 a.nan k.nan, sat := a.sat || m.sat, dies := a.dies + k.dies }

/-- A sketch at half resolution: bucket j is the sum of full buckets 2j and 2j + 1 (R304). -/
def sketchHalf (k : Sketch) : Sketch :=
  k.buckets.foldl (fun h e => sketchPut (e.1 / 2) e.2 h) { k with buckets := [] }

/-- The count in a bucket, and the total count. -/
def sketchAt (k : Sketch) (b : Nat) : Nat := (look b k.buckets).getD 0
def sketchTotal (k : Sketch) : Nat := k.buckets.foldl (fun t e => t + e.2) 0

end Sys2Proof.Machine
end

