-- ==== Sys2Proof/Machine/Innkeeper.lean ====
section
/-!
DEFINITION. The Innkeeper (08_innkeeper.md): enqueue and overflow (R351 to R353), selection on virtual time (R354 to
R358), shapers and policers (R359 to R363), queue sketches (R364), the guarantee ladder (R371 to R374), and the sequence
a packet takes when it is selected (R155, R321).
-/
namespace Sys2Proof.Machine

/-! Packets. -/

/-- Bytes 0 to 27 of the FRP header (R295). -/
def pktHeader (p : Pkt) : List Byte :=
  leBytes 1 p.version ++ leBytes 1 p.level ++ leBytes 2 p.flags
    ++ leBytes 4 (p.domain % 2 ^ 20 + 2 ^ 20 * (p.type % 256) + 2 ^ 28 * (p.vc % 4))
    ++ leBytes 4 (p.source % 2 ^ 24) ++ leBytes 6 p.epoch ++ leBytes 4 p.seq ++ leBytes 2 p.announced
    ++ leBytes 2 p.length ++ leBytes 2 p.childBit

/-- The CRC-32C of a packet: header bytes 0 to 27 and the payload (R153). -/
def pktCrc (p : Pkt) : Nat := (crc32c (pktHeader p ++ p.payload)).toNat

/-- Beats of a packet of `n` bytes on a lane (R147). -/
def beatsOf (n : Nat) : Nat := (n + 127) / 128

/-- The FLAGS bits (R295). -/
def fPROV : Nat := 1
def fCONF : Nat := 2
def fWDRN : Nat := 4
def fCOARSE : Nat := 8
def fCLOSED : Nat := 16

/-- A packet that this instance builds (R295); sequence and CRC are filled at selection. -/
def mkPkt (s : State) (type vc flags domain epoch childBit : Nat) (payload : List Byte) : Pkt :=
  { version := 1, level := level s, flags, domain, type, vc, source := index s, epoch, seq := 0, announced := 0,
    length := payload.length, childBit, payload, crc := 0, bytes := 32 + payload.length }

/-- The traffic class of a packet type and its flags (R350). -/
def classOf (type flags : Nat) (restore : Bool) : Nat :=
  match type with
  | 0x20 => 0
  | 0x04 => if flags % 2 = 1 then 4 else 1
  | 0x06 => 2
  | 0x07 => 2
  | 0xF0 => 3
  | 0x01 => 5
  | 0x02 => if flags % 2 = 1 then 6 else 5
  | 0x03 => if flags % 2 = 1 then 6 else 5
  | 0x08 => 5
  | 0x05 => 7
  | 0x10 => 8
  | 0x11 => 8
  | 0x12 => 9
  | 0x13 => 9
  | 0x31 => if restore then 10 else 11
  | 0x30 => 12
  | _ => 13

/-- The VC of a class (R350). -/
def classVc (s : State) (c : Nat) : Nat := get s (F.INK_CLASS_VC c)
def classRank (s : State) (c : Nat) : Nat := get s (F.INK_CLASS_RANK c)
def classMem (s : State) (c : Nat) : Bool := on s (F.INK_CLASS_MEM c)
/-- The codes of the class table (R350). -/
def classKnown (c : Nat) : Bool := decide (c ≤ 13) || (decide (16 ≤ c) && decide (c ≤ 24))

/-! Queues. -/

def inkQ (s : State) (q : Nat) : InkQ := (look q s.ink.queues).getD {}
def setInkQ (q : Nat) (v : InkQ) (s : State) : State :=
  { s with ink := { s.ink with queues := store q v s.ink.queues } }

def sumBeats (l : List InkItem) : Nat := l.foldl (fun n i => n + i.beats) 0

/-- Beats queued in a queue, kept in INK_Qq_STATE.DEPTH. -/
def depthOf (v : InkQ) : Nat := sumBeats v.items + sumBeats v.writes
def showDepth (q : Nat) (s : State) : State := set s (F.INK_Q_STATE_DEPTH q) (depthOf (inkQ s q))

/-- Upstream lanes built: those beyond the downstream ones (R351). -/
def upLanes (s : State) : Nat := get s F.GLB_PERSONALITY_FAB_LANES - s.itn.down

/-- The lane of a packet (R351); `none` when no upstream lane is built. -/
def laneFor (s : State) (dst : Nat) (child : Option Nat) : Option Nat :=
  if pers s = 1 then some 0
  else match child with
    | some b => some (b % 16)
    | none => if upLanes s = 0 then none else some (16 + dst % upLanes s)

/-- The channel of a memory request (R351). -/
def channelFor (s : State) (addr : Nat) : Nat := addr / 4096 % max 1 (get s F.MMP_CTL_CHANNELS)

/-- A queue that serves a class on a lane, or on a memory channel. -/
def queueFor (s : State) (mem : Bool) (port cls : Nat) : Option Nat :=
  (List.range (nQueues s)).find? fun q =>
    on s (F.INK_Q_CFG_VALID q) && (on s (F.INK_Q_CFG_MEM q) == mem) && get s (F.INK_Q_CFG_PORT q) == port
      && get s (F.INK_Q_CFG_CLASS q) == cls

/-- The port key of a queue, for its reads and packets or for its writes. -/
def portKey (s : State) (q : Nat) (wr : Bool) : Nat :=
  if on s (F.INK_Q_CFG_MEM q) then (if wr then 64 else 32) + get s (F.INK_Q_CFG_PORT q) else get s (F.INK_Q_CFG_PORT q)

/-- Serial order of tags (R357): `a` is not smaller than `b`. -/
def tagGe (a b : Nat) : Bool := decide ((a % 2 ^ 48 + 2 ^ 48 - b % 2 ^ 48) % 2 ^ 48 < 2 ^ 47)
def tagMax (a b : Nat) : Nat := if tagGe a b then a else b

def expedited (s : State) (q : Nat) : Bool := on s (F.INK_CLASS_EXPEDITED (get s (F.INK_Q_CFG_CLASS q)))

/-- The virtual time of a queue's group at a port (R356). -/
def vtime (s : State) (q : Nat) (wr : Bool) : Nat :=
  (look (portKey s q wr) (if expedited s q then s.ink.ve else s.ink.vn)).getD 0

/-- The finish tag of a head of `beats` beats that starts at `st` (R356). -/
def finish (s : State) (q st beats : Nat) : Nat :=
  (st + beats * 65536 / max 1 (get s (F.INK_Q_CFG_WEIGHT q))) % 2 ^ 48

/-- An item joins a queue; if it becomes the head, the head takes its tags (R356). -/
def pushItem (q : Nat) (it : InkItem) (s : State) : State :=
  let v := inkQ s q
  let wr := match it.req with | some r => r.write | none => false
  let v' := if wr then
      let f := if v.writes.isEmpty then finish s q (tagMax (vtime s q true) v.fLastW) it.beats else v.fHeadW
      { v with writes := v.writes ++ [it], fHeadW := f }
    else
      let f := if v.items.isEmpty then finish s q (tagMax (vtime s q false) v.fLast) it.beats else v.fHead
      { v with items := v.items ++ [it], fHead := f }
  showDepth q (setInkQ q v' s)

/-- An enqueue would take a queue past MAX_DEPTH (R353), or an overlay holds its producers (R380). -/
def noRoom (s : State) (q beats : Nat) : Bool :=
  decide (get s (F.INK_Q_CFG_MAX_DEPTH q) < depthOf (inkQ s q) + beats)

/-- The queue an item belongs to. -/
def itemQueue (s : State) (it : InkItem) : Option Nat :=
  match it.pkt, it.req with
  | some (_, _, dst), _ => (laneFor s dst it.child).bind fun l => queueFor s false l it.cls
  | none, some r => queueFor s true (channelFor s r.addr) r.cls
  | none, none => none

/-- An item is held for queue `q` already; what comes later waits behind it, so that its stream keeps its order (R152, R351, R353). -/
def heldFor (s : State) (q : Nat) : Bool := s.ink.hold.any fun it => itemQueue s it == some q

/-- The lowest class code among the packets lost in a reset (R381). -/
def lose (cls : Nat) (s : State) : State :=
  { s with ink := { s.ink with lost := s.ink.lost + 1, lostClass := min s.ink.lostClass cls } }

/-- A packet is offered to the Innkeeper (R351 to R353, R379): enqueued, held, or discarded and counted. `child` names the
child bit of a packet sent to a child. -/
def sendPkt (p : Pkt) (dstLevel dst : Nat) (child : Option Nat) (restore : Bool) (s : State) : State :=
  let cls := classOf p.type p.flags restore
  let vc := classVc s cls
  let it : InkItem := { pkt := some ({ p with vc := vc }, dstLevel, dst), req := none, cls, beats := beatsOf p.bytes, child,
                        enq := s.tim.tb2 }
  if inReset s 3 then lose cls (prod (140 + vc) 1 s)
  else workWake 0x0B <| match (laneFor s dst child).bind fun l => (queueFor s false l cls) with
    | none => report F.INK_ERR_NO_QUEUE 0x0B05 ADVISE (cls + 256 * (laneFor s dst child).getD 0) (prod (140 + vc) 1 s)
    | some q =>
      if s.ink.holdQ.contains q || heldFor s q then { s with ink := { s.ink with hold := s.ink.hold ++ [it] } }
      else if noRoom s q it.beats then
        if on s (F.INK_CLASS_DROP cls) then report F.INK_ERR_Q_DROP 0x0B04 ADVISE (q + 2 ^ 16 * cls) (prod (140 + vc) 1 s)
        else { s with ink := { s.ink with hold := s.ink.hold ++ [it] } }
      else pushItem q it s

/-- The first held item that has room in its queue `q` enters it (R353). -/
def roomResume (q : Nat) (s : State) : State :=
  match s.ink.hold.find? fun it => itemQueue s it == some q with
  | none => s
  | some it =>
    if noRoom s q it.beats || s.ink.holdQ.contains q then s
    else pushItem q it { s with ink := { s.ink with hold := s.ink.hold.erase it } }

/-- QUEUE_ROOM_RESUME (R353). -/
def execQueueRoomResume (q : Nat) (s : State) : Host.Outcome State Fault Refusal := .next (roomResume q s)

/-! The ladder (R373, R374). -/

def qRank (s : State) (q : Nat) : Nat := classRank s (get s (F.INK_Q_CFG_CLASS q))

/-- A queue is paused: another queue of its port with a lower rank number is at risk. -/
def qPaused (s : State) (q : Nat) (wr : Bool) : Bool :=
  s.ink.risks.any fun r => r.port == portKey s q wr && decide (qRank s r.q < qRank s q)

/-- Queues of a port that are not empty. -/
def portQueues (s : State) (key : Nat) : List Nat :=
  (List.range (nQueues s)).filter fun q => on s (F.INK_Q_CFG_VALID q) &&
    (portKey s q (decide (64 ≤ key))) == key && !(if 64 ≤ key then (inkQ s q).writes else (inkQ s q).items).isEmpty

/-- The port kind and number of a port key (R374). -/
def keyKind (key : Nat) : Nat := if key < 32 then 0 else if key < 64 then 1 else 2
def keyNum (key : Nat) : Nat := key % 32

/-- The highest-ranked queue among `qs`: the one of the smallest rank number. -/
def topRanked (s : State) (qs : List Nat) : Option Nat :=
  qs.foldl (fun b q => match b with
    | none => some q
    | some p => if qRank s q < qRank s p then some q else some p) none

/-- The breach counter of a rank (INK_LADDER_CNT0 and 1). -/
def ladderField (r : Nat) : Field :=
  if r < 6 then ⟨0x0B0040, 16 * (r - 2), 16⟩ else ⟨0x0B0048, 16 * (r - 6), 16⟩

/-- The PAUSED bit of a lane follows its risks. -/
def showPause (key : Nat) (s : State) : State :=
  if key < 20 then setBit s F.INK_STATUS_PAUSED key (s.ink.risks.any fun r => r.port == key) else s

/-- A queue comes at risk and pauses the lower ranks of its port (R373, R374). -/
def ladderPause (q : Nat) (wr : Bool) (s : State) : State :=
  let key := portKey s q wr
  let cls := get s (F.INK_Q_CFG_CLASS q)
  let head := if wr then (inkQ s q).writes else (inkQ s q).items
  if !on s (F.INK_Q_CFG_VALID q) || head.isEmpty || qRank s q == 9 || !on s (F.INK_CLASS_LIMIT cls) then s
  else
    let low := (portQueues s key).filter fun p => decide (qRank s q < qRank s p)
    match topRanked s low with
    | none =>
      if s.ink.risks.any (fun r => r.port == key && r.q == q) then s
      else showPause key { s with ink := { s.ink with risks := s.ink.risks ++ [{ port := key, q, since := us2 s, noted := false }] } }
    | some p =>
      let again := s.ink.risks.any fun r => r.port == key && r.q == q && r.noted
      let body := keyKind key + 256 * keyNum key + 2 ^ 16 * qRank s q + 2 ^ 24 * cls + 2 ^ 32 * qRank s p
        + 2 ^ 40 * get s (F.INK_Q_CFG_CLASS p)
      let r : Raised := { recOf 0x0B01 ADVISE (body + 2 ^ 48 * q) with run := if again then 2 else 1, key := body }
      if again then record r s
      else
        let risks := (s.ink.risks.filter fun r => !(r.port == key && r.q == q)) ++
          [{ port := key, q, since := us2 s, noted := true }]
        let s1 := showPause key { s with ink := { s.ink with risks := risks } }
        record r (flag F.INK_ERR_LADDER (bump s1 (ladderField (qRank s p)) 1))

/-- LADDER_PAUSE (R373, R374). -/
def execLadderPause (q : Nat) (wr : Bool) (s : State) : Host.Outcome State Fault Refusal := .next (ladderPause q wr s)

/-- A risk ends when its queue's head delay falls below LIMIT/2 or the queue empties; a noted pause writes record 0x0B02
with its duration (R373, R374). -/
def riskOver (s : State) (r : InkRisk) : Bool :=
  let l := if 64 ≤ r.port then (inkQ s r.q).writes else (inkQ s r.q).items
  match l.head? with
  | none => true
  | some it => decide ((s.tim.tb2 - it.enq) / 2 ^ 48 * 2 < get s (F.INK_CLASS_LIMIT (get s (F.INK_Q_CFG_CLASS r.q))) * 1000)

def endRisk (s : State) (r : InkRisk) : State :=
  let s1 := showPause r.port { s with ink := { s.ink with risks := s.ink.risks.erase r } }
  if r.noted then
    note 0x0B02 INFO (keyKind r.port + 256 * keyNum r.port + 2 ^ 16 * qRank s r.q
      + 2 ^ 24 * get s (F.INK_Q_CFG_CLASS r.q) + 2 ^ 32 * min (us2 s - r.since) (2 ^ 32 - 1)) s1
  else s1

def endRisks (key : Nat) (s : State) : State :=
  (s.ink.risks.filter fun r => r.port == key && riskOver s r).foldl endRisk s

/-! Selection (R354 to R358). -/

/-- Packets of an epoch for a parent that still wait: the types a CLOSED announces (R321). -/
def announcedWaits (s : State) (p : Pkt) (dst : Nat) : Bool :=
  let mine (it : InkItem) : Bool := match it.pkt with
    | some (o, _, d) => o.domain == p.domain && o.epoch == p.epoch && d == dst && decide (o.vc < 2) && [0x01, 0x02, 0x03, 0x04, 0x08].contains o.type
    | none => false
  s.ink.hold.any mine || s.ink.queues.any fun e => e.2.items.any mine

/-- Transmit credits of a lane and VC (FBP_TX_CREDITn). -/
def txCredit (lane vc : Nat) : Field := ⟨(F.FBP_TX_CREDIT_VC0 lane).addr, 16 * vc, 16⟩

/-- The head of a queue is eligible on its port (R354). -/
def eligible (s : State) (q : Nat) (wr : Bool) : Bool :=
  let v := inkQ s q
  match (if wr then v.writes else v.items).head? with
  | none => false
  | some it =>
    !qPaused s q wr && (!v.shaped || decide (it.beats * 256 ≤ v.tokens)) &&
    (match it.pkt, it.req with
      | some (p, _, dst), _ =>
        let lane := get s (F.INK_Q_CFG_PORT q)
        (get s F.FBP_STATUS_LANE_UP).testBit lane && (get s F.FBP_CTL_LANE_EN).testBit lane && decide (it.beats ≤ get s (txCredit lane p.vc))
          && (p.type != 0x05 || !announcedWaits s p dst)
      | none, some r =>
        let ch := get s (F.INK_Q_CFG_PORT q)
        decide ((s.mmp.out.filter fun o => o.ch == ch && o.write == r.write).length
          < (if r.write then min 64 (get s F.MMP_CTL_WR_MAX) else min 256 (get s F.MMP_CTL_RD_MAX)))
          && on s F.MMP_STATUS_LINK_UP && !(s.mmp.out.any fun o => (o.write || r.write) && decide (o.addr < r.addr + r.len) && decide (r.addr < o.addr + o.len))
      | none, none => false)

/-- The queue a port selects: expedited first, then the smallest finish tag, then the lower number (R355). -/
def pick (s : State) (key : Nat) : Option Nat :=
  let wr := decide (64 ≤ key)
  let tag (q : Nat) : Nat := if wr then (inkQ s q).fHeadW else (inkQ s q).fHead
  ((portQueues s key).filter fun q => eligible s q wr).foldl (fun b q => match b with
    | none => some q
    | some p =>
      if expedited s p != expedited s q then (if expedited s q then some q else some p)
      else if tagGe (tag q) (tag p) then some p else some q) none

/-- The head leaves its queue: the virtual time of its group, the tags of the next head and the shaper's tokens follow (R356,
R360). -/
def popHead (key q : Nat) (s : State) : State :=
  let v := inkQ s q
  let wr := decide (64 ≤ key)
  let b := ((if wr then v.writes else v.items).head?.map InkItem.beats).getD 0
  let f := if wr then v.fHeadW else v.fHead
  let nextBeats (l : List InkItem) : Nat := (l.tail.head?.map InkItem.beats).getD 0
  let v' := if wr then { v with writes := v.writes.tail, fLastW := f, fHeadW := finish s q f (nextBeats v.writes) }
    else { v with items := v.items.tail, fLast := f, fHead := finish s q f (nextBeats v.items) }
  let v'' := if v.shaped then { v' with tokens := v.tokens - b * 256 } else v'
  let s1 := setInkQ q v'' s
  showDepth q (if expedited s q then { s1 with ink := { s1.ink with ve := store key f s1.ink.ve } }
    else { s1 with ink := { s1.ink with vn := store key f s1.ink.vn } })

/-- The next sequence of a transmit stream and its successor (R155). -/
def nextSeq (s : State) (k : Nat × Nat × Nat) : Nat :=
  match s.fbp.txSeq.find? fun e => e.1 == k with
  | some e => e.2
  | none => 0
def seqSucc (n : Nat) : Nat := if n % 2 ^ 32 = 2 ^ 32 - 1 then 1 else n + 1
def advanceSeq (k : Nat × Nat × Nat) (n : Nat) (s : State) : State :=
  { s with fbp := { s.fbp with txSeq := (k, seqSucc n) :: s.fbp.txSeq.filter fun e => e.1 != k } }

/-- What has been selected of an epoch for a parent (R321). -/
def announceOf (s : State) (domain epoch dst : Nat) : Announce :=
  (s.ink.announce.find? fun a => a.domain == domain && a.epoch == epoch && a.dst == dst).getD { domain, epoch, dst }
def setAnnounce (a : Announce) (s : State) : State :=
  { s with ink := { s.ink with announce := a :: s.ink.announce.filter fun b =>
      !(b.domain == a.domain && b.epoch == a.epoch && b.dst == a.dst) } }

/-- A packet is counted toward the CLOSED of its epoch when it is selected (R321). -/
def countAnnounce (p : Pkt) (dst seq : Nat) (s : State) : State :=
  if [0x01, 0x02, 0x03, 0x04, 0x08].contains p.type then
    let a := announceOf s p.domain p.epoch dst
    setAnnounce (if p.vc = 0 then { a with n0 := a.n0 + 1, last0 := seq } else { a with n1 := a.n1 + 1, last1 := seq }) s
  else s

/-- A CLOSED takes ANNOUNCED, the counts and the last sequences when it is selected (R321); its FLAGS and SPAN stand in its
payload already. -/
def fillClosed (s : State) (p : Pkt) (dst : Nat) : Pkt :=
  if p.type = 0x05 then
    let a := announceOf s p.domain p.epoch dst
    { p with announced := a.n0 + a.n1,
             payload := leBytes 2 a.n0 ++ leBytes 4 a.last0 ++ leBytes 2 a.n1 ++ leBytes 4 a.last1 ++ p.payload.drop 12 }
  else p

/-- TB1 at the edge that transfers the SOP beat on a lane, with the egress latency, in 2^-16 ns (R268). -/
def fabTx (s : State) (lane : Nat) : Int := (s.tim.tb1 / 2 ^ 32 : Nat) + get s (F.TIM_FAB_LAT_TX lane)

/-- A time in 2^-16 ns as SEC, NS and FRAC of a TIME payload (R267). -/
def timeBytes (x : Int) : List Byte :=
  let n := x.toNat
  leBytes 6 (n / 65536 / 1000000000) ++ leBytes 4 (n / 65536 % 1000000000) ++ leBytes 2 n

/-- A TIME payload (R267) with the sender's STATE and HOPS. -/
def timePayload (s : State) (msg exch : Nat) (t2 t3 : Int) : List Byte :=
  leBytes 1 msg ++ leBytes 1 (get s (F.TIM_TB_STATUS_STATE 1)) ++ leBytes 2 exch ++ timeBytes t2 ++ timeBytes t3
    ++ leBytes 1 s.tim.fab.hops ++ leBytes 3 0

/-- A TIME packet leaves (R268, R269): a DREQ takes t1; a DRESP takes t3 and its DRESP_FUP follows; a DRESP_FUP frees its
entry of the reply store (R367). -/
def timeSent (lane : Nat) (p : Pkt) (dstLevel dst : Nat) (s : State) : State :=
  let f := s.tim.fab
  let x := leAt p.payload 2 2
  let t := fabTx s lane
  let s1 := prod 176 1 s
  match leAt p.payload 0 1 with
  | 0 =>
    { s1 with tim := { s1.tim with fab := { f with cur := f.cur.map fun c => if c.1 = x then (x, some t, c.2.2) else c } } }
  | 1 =>
    match f.owed.find? fun o => o.1 == dstLevel && o.2.1 == dst && o.2.2.1 == x with
    | none => s1
    | some o =>
      let s2 : State := { s1 with tim := { s1.tim with fab := { f with owed := f.owed.erase o } } }
      sendPkt (mkPkt s2 0xF0 0 0 p.domain 0 0xFFFF (timePayload s2 2 x o.2.2.2 t)) dstLevel dst (some lane) false s2
  | _ => { s1 with ink := { s1.ink with replyTime := s1.ink.replyTime - 1 } }

/-- A packet is selected on a lane: it takes its sequence and CRC, leaves on the lane against credit, and is counted
(R148, R155, R194). -/
def sendSelected (lane q : Nat) (it : InkItem) (p : Pkt) (dstLevel dst : Nat) (s : State) : State :=
  let key := (dstLevel, dst, p.vc)
  let n := nextSeq s key
  let p1 := fillClosed s { p with seq := n } dst
  let p2 := { p1 with crc := pktCrc p1 }
  let s1 := popHead lane q s
  let s2 := countAnnounce p dst n (advanceSeq key n s1)
  let s3 := set s2 (txCredit lane p.vc) (get s2 (txCredit lane p.vc) - it.beats)
  let s4 := emit (.frp lane dstLevel dst p2) (prod (152 + p.vc) 1 s3)
  if p.type = 0xF0 then timeSent lane p dstLevel dst s4 else s4

/-- The smallest free ID of a channel and direction (R128). -/
def freeId (s : State) (ch : Nat) (wr : Bool) : Nat :=
  ((List.range 256).find? fun i => !(s.mmp.out.any fun o => o.ch == ch && o.write == wr && o.id == i)).getD 0

/-- The outstanding counts of MMP_STATUS. -/
def showMmp (s : State) : State :=
  let s1 := set s F.MMP_STATUS_RD_OUT (s.mmp.out.filter fun o => !o.write).length
  set s1 F.MMP_STATUS_WR_OUT (s.mmp.out.filter fun o => o.write).length

/-- A request is selected on a channel and issued whole (R127 to R129, R358). -/
def issueSelected (key q : Nat) (r : MemReq) (s : State) : State :=
  let ch := get s (F.INK_Q_CFG_PORT q)
  let id := freeId s ch r.write
  let s1 := popHead key q s
  let s2 : State := { s1 with mmp := { s1.mmp with out := s1.mmp.out ++ [{ r with ch, id }] } }
  emit (if r.write then .memWrite ch id r.addr r.data else .memRead ch id r.addr (r.len / 64)) (showMmp s2)

/-- A request that R131 holds back: it overlaps a write whose response is out, or reads bytes of a write that still waits. -/
def mmpOrder (s : State) (r : MemReq) : Bool :=
  let over1 (w : MemReq) : Bool := w.write && decide (r.addr < w.addr + w.len) && decide (w.addr < r.addr + r.len)
  let item (i : InkItem) : Bool := match i.req with | some w => over1 w | none => false
  s.mmp.out.any over1 || (!r.write && (s.mmp.wait.any over1 || s.ink.hold.any item || s.ink.queues.any fun e => e.2.writes.any item))

/-- A port scheduler selects its next head (R347, R355, R372, R380): nothing after a power-fail warning, under a fence of
NET or in its reset, and no memory request under a fence of the Memory Port (R567). -/
def inkSelect (key : Nat) (s : State) : State :=
  if s.clk.stopped || fenced s 3 || inReset s 3 || (decide (32 ≤ key) && fenced s 6)
      || (decide (key < 32) && pwHeld s 0x0B) || pwState s == 3 then s
  else match pick s key with
    | none => s
    | some q =>
      match (if 64 ≤ key then (inkQ s q).writes else (inkQ s q).items).head? with
      | none => s
      | some it =>
        match it.pkt, it.req with
        | some (p, l, d), _ => endRisks key (sendSelected key q it p l d s)
        | none, some r => if mmpOrder s r then s else endRisks key (issueSelected key q r s)
        | none, none => endRisks key s

/-! Shapers, policers and queue sketches (R359 to R364). -/

/-- The floor of a burst: the largest packet of the port (R360). -/
def burstFloor (s : State) (q b : Nat) : Nat := max b (if on s (F.INK_Q_CFG_MEM q) then 64 else 33)

/-- RATE of a shaped queue; an expedited queue with RATE 0 is shaped at 64 beats per µs (R360). -/
def shapeRate (s : State) (q : Nat) : Nat :=
  if get s (F.INK_Q_SHAPE_RATE q) = 0 then (if expedited s q then 64 * 256 else 0) else get s (F.INK_Q_SHAPE_RATE q)

/-- The delay of a queue's head in ns (R364). -/
def headDelay (s : State) (v : InkQ) : Nat :=
  match v.items.head?, v.writes.head? with
  | some a, some b => (s.tim.tb2 - min a.enq b.enq) / 2 ^ 48
  | some a, none => (s.tim.tb2 - a.enq) / 2 ^ 48
  | none, some b => (s.tim.tb2 - b.enq) / 2 ^ 48
  | none, none => 0

/-- One queue at a refill instant: shaper and policer tokens (R360 to R362) and the two sketch samples (R364). -/
def refillQ (s : State) (q : Nat) (v : InkQ) : InkQ :=
  let cap := burstFloor s q (get s (F.INK_Q_SHAPE_BURST q)) * 256
  let rate := shapeRate s q
  let pcap := max 33 (get s (F.INK_Q_POLICE_POL_BURST q)) * 256
  let prate := get s (F.INK_Q_POLICE_POL_RATE q)
  { v with
    shaped := rate != 0
    tokens := if rate = 0 then 0 else if v.shaped then min cap (v.tokens + rate) else cap
    policed := prate != 0
    polTokens := if prate = 0 then 0 else if v.policed then min pcap (v.polTokens + prate) else pcap
    depth := if on s F.INK_CTL_SK_EN then sketchAdd (natToFp32 (depthOf v)) v.depth else v.depth
    delay := if on s F.INK_CTL_SK_EN then sketchAdd (natToFp32 (headDelay s v)) v.delay else v.delay }

/-- Every defined queue at a refill instant. -/
def refill (s : State) : State :=
  if inReset s 3 then s
  else (List.range (nQueues s)).foldl (fun s q =>
    if on s (F.INK_Q_CFG_VALID q) then setInkQ q (refillQ s q (inkQ s q)) s else s) s

/-- SHAPER_REFILL (R360, R364). -/
def execShaperRefill (s : State) : Host.Outcome State Fault Refusal := .next (refill s)

/-- Every shaper and policer takes its first values with its bucket full (R361, R379). -/
def fillBuckets (s : State) : State :=
  (List.range (nQueues s)).foldl (fun s q =>
    if on s (F.INK_Q_CFG_VALID q) then
      let rate := shapeRate s q
      let prate := get s (F.INK_Q_POLICE_POL_RATE q)
      setInkQ q { inkQ s q with
        shaped := rate != 0, tokens := if rate = 0 then 0 else burstFloor s q (get s (F.INK_Q_SHAPE_BURST q)) * 256,
        policed := prate != 0, polTokens := if prate = 0 then 0 else max 33 (get s (F.INK_Q_POLICE_POL_BURST q)) * 256 } s
    else s) s

/-- The sketches of every queue close at a boundary of SK_SCHED (R364). -/
def closeSketches (epoch : Nat) (s : State) : State :=
  { s with ink := { s.ink with queues := s.ink.queues.map fun e => (e.1,
    { e.2 with depthClosed := e.2.depth, delayClosed := e.2.delay, depth := {}, delay := {}, closedEpoch := epoch }) } }

/-- The policer of a lane and VC: the lowest-numbered queue that serves both with POL_RATE ≠ 0, as of the last refill (R361, R362). -/
def policerFor (s : State) (lane vc : Nat) : Option Nat :=
  if pers s = 1 ∨ 16 ≤ lane then none
  else (List.range (nQueues s)).find? fun q => on s (F.INK_Q_CFG_VALID q) && !on s (F.INK_Q_CFG_MEM q)
    && get s (F.INK_Q_CFG_PORT q) == lane && get s (F.INK_Q_CFG_VC q) == vc && (inkQ s q).policed

/-- The policer accepts a packet of `beats` beats, or discards it (R363): the state after, and whether it is accepted. -/
def police (lane vc beats : Nat) (s : State) : State × Bool :=
  match policerFor s lane vc with
  | none => (s, true)
  | some q =>
    let v := inkQ s q
    if beats * 256 ≤ v.polTokens then (setInkQ q { v with polTokens := v.polTokens - beats * 256 } s, true)
    else
      let r : Raised := { recOf 0x0B03 ADVISE (lane + 256 * vc) with run := 2, key := lane + 256 * vc }
      (record r (flag F.INK_ERR_POLICED (prod (136 + vc) 1 s)), false)

/-! INK_Qq_CFG (R732). -/

/-- A port is built: a lane of LANE_EN's built lanes, or a memory channel of the personality. -/
def portBuilt (s : State) (mem : Bool) (port : Nat) : Bool :=
  if mem then decide (port < (if pers s = 1 then 2 else 8))
  else if pers s = 1 then port == 0
  else decide (port < min 16 s.itn.down) || (decide (16 ≤ port) && decide (port < 16 + upLanes s))

/-- The value a CFG write leaves is refused (R732). -/
def cfgBad (s : State) (v : Word) : Bool :=
  let cls := bitsAt v 0 5
  bitsAt v 15 1 == 1 && (bitsAt v 16 16 == 0 || !classKnown cls || bitsAt v 7 2 != classVc s cls
    || (bitsAt v 14 1 == 1) != classMem s cls || !portBuilt s (bitsAt v 14 1 == 1) (bitsAt v 9 5) || decide (bitsAt v 32 32 < 64))

/-- The unit's treatment of a write to the INK page: a CFG write is refused whole under R732, and the LIMIT of a class with no rank reads
0. -/
def inkWrite (a : Nat) (acc : Acc) (s : State) : State :=
  if 0x0B4000 ≤ a ∧ (a - 0x0B4000) % 0x20 = 0 ∧ cfgBad s (wfull (rd s a) acc) then
    report F.INK_ERR_CFG 0x0B0A ADVISE ((a - 0x0B4000) / 0x20) s
  else
    let s1 := perform a acc s
    let c := (a - 0x0B0100) / 8
    if 0x0B0100 ≤ a ∧ a < 0x0B0200 ∧ classRank s c = 9 then set s1 (F.INK_CLASS_LIMIT c) 0 else s1

/-- QUEUE_CFG_WRITE (R732). -/
def execQueueCfgWrite (q : Nat) (acc : Acc) (s : State) : Host.Outcome State Fault Refusal :=
  .next (portWrite inkWrite (F.INK_Q_CFG_PORT q).addr acc s)

/-- INK_SELECT (R355), on a lane (kind 0), or the read (kind 1) or write (kind 2) channel of the Memory Port. -/
def execInkSelect (kind n : Nat) (s : State) : Host.Outcome State Fault Refusal :=
  .next (inkSelect ((if kind = 0 then 0 else if kind = 1 then 32 else 64) + n) s)

end Sys2Proof.Machine
end

