-- ==== Sys2Proof/Machine/Fabric.lean ====
section
/-!
DEFINITION. The Fabric Port (R145 to R159): credits, lanes, the checks of a received packet, receive streams and policing.
-/
namespace Sys2Proof.Machine

def rxAcct (s : State) (lane vc : Nat) : RxVc := (look (4 * lane + vc) s.fbp.rx).getD {}
def setRx (lane vc : Nat) (v : RxVc) (s : State) : State :=
  { s with fbp := { s.fbp with rx := store (4 * lane + vc) v s.fbp.rx } }

/-- The receive partition of a VC (FBP_RX_PART). -/
def rxPart (s : State) (vc : Nat) : Nat := get s ⟨0x050010, 16 * vc, 16⟩

/-- A lane is up and enabled. -/
def laneUp (s : State) (lane : Nat) : Bool := (get s F.FBP_STATUS_LANE_UP).testBit lane
def laneEn (s : State) (lane : Nat) : Bool := (get s F.FBP_CTL_LANE_EN).testBit lane

/-- Credits and beats of every VC of a lane: at most 2,048 (R150). -/
def laneUse (s : State) (lane : Nat) : Nat :=
  (List.range 4).foldl (fun n v => n + (rxAcct s lane v).nic + (rxAcct s lane v).buf) 0

/-- The block returns credits to the NIC (R150). -/
def giveCredit (lane vc n : Nat) (s : State) : State :=
  if n = 0 then s
  else emit (.rxCredit lane vc n) (setRx lane vc { rxAcct s lane vc with nic := (rxAcct s lane vc).nic + n } s)

/-- A VC whose partition exceeds its credits and beats is granted the difference as far as the lane's buffer has room (R150). -/
def grantVc (lane : Nat) (s : State) (vc : Nat) : State :=
  let a := rxAcct s lane vc
  giveCredit lane vc (min (rxPart s vc - (a.nic + a.buf)) (2048 - laneUse s lane)) s

def grantLane (lane : Nat) (s : State) : State := (List.range 4).foldl (grantVc lane) s

/-- Every lane that is up and enabled, once the crossing is up. -/
def grantAll (s : State) : State :=
  if !on s F.FBP_STATUS_LINK_UP then s
  else (List.range 20).foldl (fun s l => if laneUp s l && laneEn s l then grantLane l s else s) s

/-- FBP_ERR_INFO takes an error. -/
def loadFbpErr (src lvl lane vc code : Nat) (s : State) : State :=
  wr s 0x050020 (putAt (putAt (putAt (putAt (putAt 0 40 24 src) 37 3 lvl) 32 5 lane) 30 2 vc) 0 8 code)

/-- The payload of records 0x0501 to 0x0508 (R186). -/
def fbpPayload (src lvl vc tail : Nat) : Nat :=
  src % 2 ^ 24 + 2 ^ 24 * (lvl % 8 + 16 * (vc % 4)) + 2 ^ 32 * tail

/-- The NIC returns `cnt + 1` transmit credits (R149, R158). -/
def txCreditReturn (lane vc cnt : Nat) (s : State) : State :=
  if inReset s 3 || !laneUp s lane then s
  else
    let n := get s (txCredit lane vc) + cnt + 1
    if n ≤ 4095 then set s (txCredit lane vc) n
    else report F.FBP_ERR_CREDIT_OVF 0x0506 FAULT (fbpPayload 0 0 vc lane)
      (loadFbpErr 0 0 lane vc 0x06 (set s (txCredit lane vc) 4095))

/-- TX_CREDIT_RETURN (R149). -/
def execTxCreditReturn (lane vc cnt : Nat) (s : State) : Host.Outcome State Fault Refusal := .next (txCreditReturn lane vc cnt s)

/-- One beat leaves the receive buffer: its credit is returned while the VC's credits and beats are below its partition
(R150). -/
def moveOut (lane vc : Nat) (s : State) : State :=
  let a := rxAcct s lane vc
  if a.buf = 0 then s
  else
    let s1 := setRx lane vc { a with buf := a.buf - 1 } s
    if a.nic + (a.buf - 1) < rxPart s vc then giveCredit lane vc 1 s1 else s1

def moveOutN (lane vc : Nat) : Nat → State → State
  | 0, s => s
  | n + 1, s => moveOutN lane vc n (moveOut lane vc s)

/-- RX_CREDIT_RETURN (R150): beats leave the buffer, and space that this frees is granted to VCs whose partition grew. -/
def rxCreditReturn (lane vc beats : Nat) (s : State) : State :=
  if inReset s 3 || !laneUp s lane || decide (2 ≤ pwState s) then s
  else
    let s1 := moveOutN lane vc (min beats (rxAcct s lane vc).buf) s
    if laneEn s1 lane then grantLane lane s1 else s1

def execRxCreditReturn (lane vc beats : Nat) (s : State) : Host.Outcome State Fault Refusal := .next (rxCreditReturn lane vc beats s)

/-- The receive account of a lane is emptied. -/
def clearRx (lane : Nat) (s : State) : State :=
  { s with fbp := { s.fbp with rx := dropKeys (fun k => k / 4 == lane) s.fbp.rx } }

/-- FBPn_LINK_UP rises: each VC is granted its whole partition (R150). While NET is in reset only the level is taken. -/
def laneLinkUp (lane : Nat) (s : State) : State :=
  if decide (20 ≤ lane) || laneUp s lane || !s.clk.pwron then s
  else if inReset s 3 then setBit s F.FBP_STATUS_LANE_UP lane true
  else
    let s1 := wake 7 (clearRx lane (setBit s F.FBP_STATUS_LANE_UP lane true))
    if on s1 F.FBP_STATUS_LINK_UP && laneEn s1 lane then grantLane lane s1 else s1

/-- LANE_LINK_UP (R150). -/
def execLaneLinkUp (lane : Nat) (s : State) : Host.Outcome State Fault Refusal := .next (laneLinkUp lane s)

/-- FBPn_LINK_UP falls (R158); that of lane 0 is timed for the holdover (R591). While NET is in reset only the level is taken. -/
def laneLinkDown (lane : Nat) (s0 : State) : State :=
  let s : State := if lane = 0 then { s0 with hld := { s0.hld with down := s0.tim.tb2 } } else s0
  if !laneUp s lane || !s.clk.pwron then s0
  else if inReset s 3 then setBit s F.FBP_STATUS_LANE_UP lane false
  else
    let s1 := wr (setBit s F.FBP_STATUS_LANE_UP lane false) (F.FBP_TX_CREDIT_VC0 lane).addr 0
    wake 7 <| report F.FBP_ERR_LINK_DOWN 0x0508 ADVISE (fbpPayload 0 0 0 lane) (loadFbpErr 0 0 lane 0 0x08 (clearRx lane s1))

/-- LANE_LINK_DOWN (R158). -/
def execLaneLinkDown (lane : Nat) (s : State) : Host.Outcome State Fault Refusal := .next (laneLinkDown lane s)

/-- The unit's treatment of a write to the FBP page: FBP_RX_PART is refused when its fields sum to more than 2,048 or one is
0, and takes effect on every lane that is up (R150). -/
def fbpWrite (a : Nat) (acc : Acc) (s : State) : State :=
  if a = 0x050010 then
    let v := wfull (rd s a) acc
    let p (i : Nat) : Nat := bitsAt v (16 * i) 16
    if 2048 < p 0 + p 1 + p 2 + p 3 ∨ p 0 = 0 ∨ p 1 = 0 ∨ p 2 = 0 ∨ p 3 = 0 then flag F.FBP_ERR_CFG_ERR s
    else grantAll (perform a acc s)
  else if a = 0x050000 then grantAll (perform a acc s)
  else perform a acc s

/-- FBP_RX_PART_WRITE (R150). -/
def execFbpRxPartWrite (acc : Acc) (s : State) : Host.Outcome State Fault Refusal :=
  .next (portWrite fbpWrite F.FBP_RX_PART_VC0.addr acc s)

/-! Reception (R151 to R157, R296, R363, R332). -/

/-- Bytes of a packet on the lane. -/
def wireBytes (p : Pkt) : Nat := if p.bytes < 32 then p.bytes else 32 + p.payload.length

/-- The header rules of R296: version, type, and exactly one of PROV and CONF where the type carries one; an L0 sender only
CONF. -/
def headerOk (p : Pkt) : Bool :=
  let pc := natBits p.flags 0 1 + natBits p.flags 1 1
  p.version == 1
    && [0x01, 0x02, 0x03, 0x04, 0x05, 0x06, 0x07, 0x08, 0x10, 0x11, 0x12, 0x13, 0x20, 0x30, 0x31, 0x32, 0xF0].contains p.type
    && (if [0x01, 0x02, 0x03, 0x04].contains p.type then pc == 1 && !(p.level == 0 && p.flags % 2 == 1) else pc == 0)

/-- A packet is discarded with a code, a flag, a count and its record (R154, R186). -/
def discardPkt (f : Field) (cnt : Field) (prodN code cls src lvl vc lane : Nat) (s : State) : State :=
  report f code cls (fbpPayload src lvl vc lane) (loadFbpErr src lvl lane vc (code % 256) (prod prodN 1 (bump s cnt 1)))

/-- The receive stream table: 16 streams in a die, 1,024 otherwise (R157), most recently used first. -/
def streamCap (s : State) : Nat := if pers s = 1 then 16 else 1024
def useStream (k : Nat × Nat × Nat) (e : Nat) (s : State) : State :=
  { s with fbp := { s.fbp with rxSeq := ((k, e) :: s.fbp.rxSeq.filter fun x => x.1 != k).take (streamCap s) } }

/-- The sequence check of R156 and R157: the state after, and whether the packet is accepted. -/
def seqCheck (p : Pkt) (lane : Nat) (s : State) : State × Bool :=
  let k := (p.source, p.level, p.vc)
  if !on s F.FBP_CTL_SEQ_CHECK then (s, true)
  else match s.fbp.rxSeq.find? fun x => x.1 == k with
    | none => (useStream k (seqSucc p.seq) s, true)
    | some (_, e) =>
      if p.seq = e then (useStream k (seqSucc e) s, true)
      else if p.seq = 0 then (note 0x0504 INFO (fbpPayload p.source p.level p.vc lane) (useStream k 1 s), true)
      else if laterMod 32 p.seq e then
        let gap := (p.seq + 2 ^ 32 - e) % 2 ^ 32
        (report F.FBP_ERR_SEQ_GAP 0x0503 ADVISE (fbpPayload p.source p.level p.vc (min gap (2 ^ 32 - 1)))
          (loadFbpErr p.source p.level lane p.vc 0x03 (prod 163 gap (bump (useStream k (seqSucc p.seq) s) F.FBP_GAP_CNT_MISSING gap))), true)
      else
        (discardPkt F.FBP_ERR_SEQ_DUP F.FBP_DROP_CNT_DUP 162 0x0505 ADVISE p.source p.level p.vc lane (useStream k e s), false)

/-- The domain has an ACTIVE or DRAINING slot (R332). -/
def liveSlot (s : State) (domain : Nat) : Option Nat :=
  (s.crv.slots.find? fun e => e.2.domain == domain && (e.2.state == 1 || e.2.state == 2)).map Prod.fst

/-- Up-tree types that a reducer takes into a slot. -/
def slotType (t : Nat) : Bool := [0x01, 0x02, 0x03, 0x04, 0x05, 0x06, 0x07, 0x08].contains t

/-- A packet has passed CRC, length and header: sequence, policing, and the slot of its domain decide whether it goes to the
handler of its type. -/
def acceptPkt (lane : Nat) (p : Pkt) (s : State) : State :=
  let b := beatsOf (wireBytes p)
  let (s1, ok) := seqCheck p lane s
  if !ok then s1
  else
    let (s2, okP) := police lane p.vc b s1
    if !okP then moveOutN lane p.vc b s2
    else
      let s3 := prod (156 + p.vc) 1 s2
      if slotType p.type && (liveSlot s3 p.domain).isNone then report F.CRV_ERR_NO_SLOT 0x0A09 ADVISE p.domain s3
      else 
        let s4 : State := { s3 with fbp := { s3.fbp with rxPkts := s3.fbp.rxPkts ++ [(lane, p)] } }
        if p.vc = 0 then wake 4 s4 else if p.vc = 2 then wake 5 s4 else s4

/-- A packet arrives on a lane (R151, R154, R156, R296). -/
def receivePkt (lane : Nat) (p : Pkt) (s : State) : State :=
  let b := max 1 (beatsOf (wireBytes p))
  let a := rxAcct s lane p.vc
  if inReset s 3 || !laneUp s lane || !on s F.FBP_STATUS_LINK_UP || pwState s == 3 then s
  else if a.nic < b then
    emit (.rxCredit lane p.vc a.nic) (report F.FBP_ERR_RX_OVF 0x0507 FAULT (fbpPayload p.source p.level p.vc lane)
      (loadFbpErr p.source p.level lane p.vc 0x07 (bump s F.FBP_DROP_CNT_CORRUPT 1)))
  else
    let s1 := setRx lane p.vc { nic := a.nic - b, buf := a.buf + b } s
    if wireBytes p < 32 then
      moveOutN lane p.vc b (discardPkt F.FBP_ERR_LEN_ERR F.FBP_DROP_CNT_CORRUPT 161 0x0502 ADVISE 0 0 p.vc lane s1)
    else if p.crc ≠ pktCrc p then
      moveOutN lane p.vc b (discardPkt F.FBP_ERR_CRC_ERR F.FBP_DROP_CNT_CORRUPT 160 0x0501 ADVISE 0 0 p.vc lane s1)
    else if wireBytes p ≠ 32 + p.length ∨ 4096 < p.length ∨ !headerOk p then
      moveOutN lane p.vc b (discardPkt F.FBP_ERR_LEN_ERR F.FBP_DROP_CNT_CORRUPT 161 0x0502 ADVISE p.source p.level p.vc lane s1)
    else acceptPkt lane p s1

/-- FRP_PACKET_RECEIVE (R154). -/
def execFrpPacketReceive (lane : Nat) (p : Pkt) (s : State) : Host.Outcome State Fault Refusal := .next (receivePkt lane p s)

/-- The oldest accepted packet of a type, taken from those that wait for their handler; none while a fence of NET holds its work
back (R567), or PS2 its receive buffers (R667). -/
def takePkt (types : List Nat) (s : State) : Option (Nat × Pkt × State) :=
  if fenced s 3 || decide (2 ≤ pwState s) then none
  else match s.fbp.rxPkts.find? fun e => types.contains e.2.type with
  | none => none
  | some e => some (e.1, e.2, { s with fbp := { s.fbp with rxPkts := s.fbp.rxPkts.erase e } })

end Sys2Proof.Machine
end

