-- ==== Sys2Proof/Machine/Advance.lean ====
section
/-!
DEFINITION. The advance of the time bases by TCLK cycles (R241, R242, R256, R271), and the cycles for which units are busy meanwhile (R194).
-/
namespace Sys2Proof.Machine

/-- The frequency correction at which base `n` runs, in 2^-8 ppb: the applied F, or I while its servo is off (R256). -/
def baseF (s : State) (n : Nat) : Int :=
  toSigned 32 (if on s (F.TIM_TB_CTL_EN n) then get s (F.TIM_TB_FREQ_APPLIED n) else get s (F.TIM_TB_FREQ_INTEG n))

/-- One TCLK cycle, 1.25 ns, in 2^-48 ns. -/
def cycle : Nat := 5 * 2 ^ 46

/-- The advance of a disciplined base in one cycle (R241). -/
def cycleAt (f : Int) : Nat := (roundOpen (5 * 2 ^ 46 * (256000000000 + f)) 256000000000).toNat

/-- TB1 is a copy of TB0 at a fabric-time root (R271). -/
def rooted (s : State) : Bool := on s (F.TIM_TB_CTL_ROOT 1)

/-- The production counters of units that are busy as time passes, and the cycles of CCLK or FCLK that each counts in one TCLK cycle: cores that
run, and the Tile Verifier, the Courier's copy engine, the Porter and the compression engine with work in progress (R194, log 10). Array
and tree cycles come with the command that ends a pass or a job. -/
def busyUnits (s : State) : List (Nat × Nat) :=
  if s.clk.stopped || decide (2 ≤ pwState s) then []
  else
    let k := if on s F.CLK_STATUS_CCLK_DIV then 1 else 2
    let some' (b : Bool) (e : Nat × Nat) : List (Nat × Nat) := if b then [e] else []
    ((List.range 8).filter (bitOn s F.CTL_STATUS_RUNNING)).map (fun c => (c, k))
      ++ some' (!s.ver.staged.isEmpty) (11, k)
      ++ some' (get s F.CUR_STATUS_STATE == 1 || get s F.CUR_STATUS_STATE == 3) (12, 1)
      ++ some' (!s.prt.jobs.isEmpty) (13, 1) ++ some' (!s.cmp.jobs.isEmpty) (14, 1)

/-- `c` TCLK cycles pass. -/
def elapse (c : Nat) (s : State) : State :=
  let t0 := s.tim.tb0 + c * cycleAt (baseF s 0)
  let s1 : State := { s with tim := { s.tim with tb0 := t0, tb1 := if rooted s then t0 else s.tim.tb1 + c * cycleAt (baseF s 1),
                                                 tb2 := s.tim.tb2 + c * cycle } }
  (busyUnits s).foldl (fun s e => prod e.1 (c * e.2) s) s1

/-- Time passes until TB0 has reached `t` (in 2^-48 ns); nothing if it has. -/
def reachTb0 (t : Nat) (s : State) : State :=
  let a := cycleAt (baseF s 0)
  elapse ((t - s.tim.tb0 + (a - 1)) / max 1 a) s

/-- Time passes until base `n` has reached `t`. -/
def reachBase (n t : Nat) (s : State) : State :=
  match n with
  | 0 => reachTb0 t s
  | 1 => if rooted s then reachTb0 t s
    else let a := cycleAt (baseF s 1); elapse ((t - s.tim.tb1 + (a - 1)) / max 1 a) s
  | _ => elapse ((t - s.tim.tb2 + (cycle - 1)) / cycle) s

end Sys2Proof.Machine
end

