-- ==== Sys2Proof/Machine/Encode.lean ====
section
/-!
DEFINITION. Internal requests to the compression engine (R548, R549): the Waybill and the Guestbook export have a body encoded
from their own buffers.
-/
namespace Sys2Proof.Machine

/-- The engine starts work: enabled, in no reset, not fenced (R567), not under a quiesce (R550). -/
def cmpRuns (s : State) : Bool := on s F.CMP_CTL_EN && !inReset s 2 && !fenced s 2 && !held s 0x12

/-- The frame of an internal request at a level, WLOG 18 and CHECKSUM 1; `none` where the request fails or compression is
host-assisted, and the client writes its body as it is. -/
def cmpInternal (s : State) (level : Nat) (body : List Byte) : Option (List Byte) :=
  if cmpRuns s && !(get s F.GLB_FUNC_MODE_MODE).testBit 5 then some (zstdFrame level 18 true body) else none

/-- The blocks of an encode are counted as verified (R543). -/
def cmpChecked (n : Nat) (s : State) : State := bump s F.CMP_VFY_CNT_CHECKED (encBlocks n)

end Sys2Proof.Machine
end

