-- ==== Sys2Proof/Machine/Mmp.lean ====
section
/-!
DEFINITION. The Memory Port (R127 to R134, R141): requests of the units, their check against the regions, and the ends of
reads and writes.
-/
namespace Sys2Proof.Machine

/-- A transfer of `len` bytes cut into requests of at most 64 beats that cross no 4 KiB boundary (R127); `fuel` bounds the
number of pieces. -/
def cut (addr len : Nat) : Nat → List (Nat × Nat)
  | 0 => []
  | fuel + 1 =>
    if len = 0 then []
    else
      let n := min len (4096 - addr % 4096)
      (addr, n) :: cut (addr + n) (len - n) fuel

/-- A unit asks for a transfer in whole beats (R127): its requests wait to be issued. -/
def memRequest (user : MemUser) (cls region : Nat) (write : Bool) (addr len : Nat) (data : List Byte) (s : State) : State :=
  let n := (len + 63) / 64 * 64
  let x := s.mmp.nextXfer
  let d := padTo n data
  let rs := (cut addr n (n / 4096 + 2)).map fun e =>
    ({ user, xfer := x, region, write, addr := e.1, len := e.2,
       data := if write then (d.drop (e.1 - addr)).take e.2 else [], ch := 0, id := 0, cls, stale := false } : MemReq)
  { s with mmp := { s.mmp with wait := s.mmp.wait ++ rs, nextXfer := x + 1 } }

/-- A request lies wholly within its region and the region permits its direction (R134). -/
def inRegion (s : State) (r : MemReq) : Bool :=
  let perm := get s (F.MMP_RGN_BASE_PERM r.region)
  decide (get s (F.MMP_RGN_BASE_BASE r.region) * 4096 ≤ r.addr)
    && decide (r.addr + r.len ≤ (get s (F.MMP_RGN_LIM_LIMIT r.region) + 1) * 4096)
    && (if r.write then 2 ≤ perm else perm % 2 == 1) && on s (F.MMP_RGN_BASE_PERM r.region)

/-- A request ends for its unit. -/
def endReq (r : MemReq) (ok : Bool) (data : List Byte) (cause : Nat) (s : State) : State :=
  { s with mmp := { s.mmp with ended := s.mmp.ended ++ [{ req := r, ok, data, cause }] } }

/-- MMP_ERR_ADDR takes an error: channel, status, kind and address. -/
def loadMmpErr (ch status kind addr : Nat) (s : State) : State :=
  wr s 0x040018 (putAt (putAt (putAt (putAt 0 60 4 ch) 58 2 status) 56 2 kind) 6 46 (addr / 64))

/-- A request outside its regions is never issued (R134, R352). -/
def regionViolation (r : MemReq) (s : State) : State :=
  endReq r false [] 2 (report F.MMP_ERR_RGN_VIOL 0x0404 FAULT 0 (loadMmpErr (channelFor s r.addr) 0 2 r.addr s))

/-- The oldest request that waits is checked against its regions and enters the Innkeeper queue of its class and channel
(R134, R351 to R353), from which its channel issues it (R358). -/
def requestIssue (s : State) : State :=
  match s.mmp.wait with
  | [] => s
  | r :: rest =>
    let s0 : State := { s with mmp := { s.mmp with wait := rest } }
    if inReset s 3 then endReq r false [] 3 { s0 with ink := { s0.ink with lostReq := s.ink.lostReq + 1 } }
    else if !inRegion s r then regionViolation r s0
    else
      let ch := channelFor s r.addr
      match queueFor s true ch r.cls with
      | none => regionViolation r s0
      | some q =>
        let it : InkItem := { pkt := none, req := some { r with ch }, cls := r.cls, beats := r.len / 64, child := none, enq := s.tim.tb2 }
        if noRoom s0 q it.beats || s.ink.holdQ.contains q || heldFor s0 q then
          prod (144 + ch) 1 { s0 with ink := { s0.ink with hold := s0.ink.hold ++ [it] } }
        else pushItem q it s0

def statusCode : MemStatus → Nat
  | .ok => 0
  | .poison => 1
  | .addrErr => 2
  | .accessErr => 3

/-- The outstanding request with an ID on a channel, by direction (R128). -/
def findOut (s : State) (ch id : Nat) (wr : Bool) : Option MemReq :=
  s.mmp.out.find? fun o => o.ch == ch && o.id == id && o.write == wr

def dropOut (r : MemReq) (s : State) : State :=
  showMmp { s with mmp := { s.mmp with out := s.mmp.out.erase r } }

/-- The 64 bytes of a beat, byte 0 in bits 7:0. -/
def beatBytes (b : BitVec 512) : List Byte := leBytes 64 b.toNat

/-- The beats of a read return (R128, R132, R133): data to its unit, or an error. -/
def readData (ch id : Nat) (beats : List (MemStatus × BitVec 512)) (s : State) : State :=
  match findOut s ch id false with
  | none => s
  | some r =>
    let s1 := dropOut r s
    if r.stale then s1
    else match beats.find? fun b => b.1 != .ok with
      | some (st, _) =>
        let s2 := loadMmpErr ch (statusCode st) 0 r.addr s1
        endReq r false [] (statusCode st) (if st = .poison then report F.MMP_ERR_POISON 0x0403 FAULT 0 s2
          else report F.MMP_ERR_RD_ERR 0x0401 FAULT 0 s2)
      | none => endReq r true (padTo r.len (beats.flatMap fun b => beatBytes b.2)) 0 s1

/-- A write response returns (R130, R133). -/
def writeResponse (ch id : Nat) (st : MemStatus) (s : State) : State :=
  match findOut s ch id true with
  | none => s
  | some r =>
    let s1 := dropOut r s
    if st = .ok then endReq r true [] 0 s1
    else endReq r false [] (statusCode st) (report F.MMP_ERR_WR_ERR 0x0402 FAULT 0 (loadMmpErr ch (statusCode st) 1 r.addr s1))

/-! Ends of a unit's transfers. -/

/-- A request of transfer `x` is still to end. -/
def memPending (s : State) (u : MemUser) (x : Nat) : Bool :=
  let mine (r : MemReq) : Bool := r.user == u && r.xfer == x
  let item (i : InkItem) : Bool := match i.req with | some r => mine r | none => false
  s.mmp.wait.any mine || s.mmp.out.any mine || s.ink.hold.any item
    || s.ink.queues.any fun e => e.2.items.any item || e.2.writes.any item

def memEnds (s : State) (u : MemUser) (x : Nat) : List MemEnd :=
  s.mmp.ended.filter fun e => e.req.user == u && e.req.xfer == x

/-- Every request of a transfer has ended. -/
def memDone (s : State) (u : MemUser) (x : Nat) : Bool := !(memEnds s u x).isEmpty && !memPending s u x

/-- All of them succeeded. -/
def memOk (s : State) (u : MemUser) (x : Nat) : Bool := (memEnds s u x).all MemEnd.ok

/-- The data of a read transfer, in address order. -/
def memData (s : State) (u : MemUser) (x : Nat) : List Byte :=
  (sortBy (fun e => e.req.addr) (memEnds s u x)).flatMap MemEnd.data

/-- The unit has used the ends of a transfer. -/
def memForget (u : MemUser) (x : Nat) (s : State) : State :=
  { s with mmp := { s.mmp with ended := s.mmp.ended.filter fun e => !(e.req.user == u && e.req.xfer == x) } }

/-- The requests of a transfer are given up: those not issued go, those outstanding become stale. -/
def memCancel (u : MemUser) (x : Nat) (s : State) : State :=
  let mine (r : MemReq) : Bool := r.user == u && r.xfer == x
  let item (i : InkItem) : Bool := match i.req with | some r => mine r | none => false
  memForget u x { s with
    mmp := { s.mmp with wait := s.mmp.wait.filter (fun r => !mine r),
                        out := s.mmp.out.map fun r => if mine r then { r with stale := true } else r }
    ink := { s.ink with hold := s.ink.hold.filter fun i => !item i } }

/-- VER_HA_WRPTR advances past each record of the host-assisted ring, in order, once its write responses have returned (R491). -/
def haAdvance : Nat → State → State
  | 0, s => s
  | fuel + 1, s =>
    match s.ver.ha.find? fun h => !h.2.2.1 with
    | none => s
    | some h =>
      if !memDone s .haRing h.1 then s
      else
        let s1 := memForget .haRing h.1 s
        let s2 : State := { s1 with ver := { s1.ver with
          ha := s1.ver.ha.map fun x => if x.1 = h.1 then (x.1, x.2.1, true, x.2.2.2) else x } }
        haAdvance fuel (wr s2 F.VER_HA_WRPTR_WRPTR.addr (BitVec.ofNat 64 h.2.1))

/-- MMP_WRITE_RESPONSE (R130, R491). -/
def execMmpWriteResponse (ch id : Nat) (st : MemStatus) (s : State) : Host.Outcome State Fault Refusal :=
  let s1 := writeResponse ch id st s
  .next (haAdvance s1.ver.ha.length s1)

/-- A reset across the port: every request outstanding or queued fails to its unit (R141, R379). -/
def linkReset (s : State) : State :=
  let rds := (s.mmp.out.filter fun o => !o.write).length
  let wrs := (s.mmp.out.filter fun o => o.write).length
  if rds + wrs = 0 then s
  else
    let s1 := showMmp (s.mmp.out.foldl (fun s r => if r.stale then s else endReq r false [] 3 s)
      { s with mmp := { s.mmp with out := [] } })
    report F.MMP_ERR_LINK_RESET 0x0406 FAULT (rds + 2 ^ 32 * wrs) s1

/-- The unit's treatment of a write to the MMP page. -/
def mmpWrite (a : Nat) (acc : Acc) (s : State) : State := perform a acc s

end Sys2Proof.Machine
end

