-- ==== Sys2Proof/Machine/Waybill.lean ====
section
/-!
DEFINITION. The Waybill (R225 to R237): staging, triggers, the ring in MMP region 0, and its modes.
-/
namespace Sys2Proof.Machine

/-- TLY_WB_STATUS.STATE: 0 OFF, 1 RUN, 2 POST, 3 FROZEN, 4 FULL. -/
def wbState (s : State) : Nat := get s F.TLY_WB_STATUS_STATE

/-- A region's size and start in bytes (MMP_RGNn_BASE and _LIM). -/
def regionSize (s : State) (r : Nat) : Nat :=
  if on s (F.MMP_RGN_BASE_PERM r) then (get s (F.MMP_RGN_LIM_LIMIT r) + 1 - get s (F.MMP_RGN_BASE_BASE r)) * 4096 else 0
def regionStart (s : State) (r : Nat) : Nat := get s (F.MMP_RGN_BASE_BASE r) * 4096

/-- The length of a record of `n` body bytes: a 16-byte header and whole 16-byte units (R225). -/
def wbLen (n : Nat) : Nat := 16 + (n + 15) / 16 * 16

def setWb (w : WbSt) (s : State) : State := { s with tly := { s.tly with wb := w } }

/-- A record is dropped (R234): counted, and only the first of a run writes a record of its own. -/
def wbDrop (s : State) : State :=
  let w := s.tly.wb
  let s1 := setWb { w with dropped := w.dropped + 1, dropTime := if w.dropped = 0 then ns0 s else w.dropTime } s
  record { recOf 0x0804 ADVISE 0 with run := if w.dropped = 0 then 1 else 2 } (prod 181 1 (bump s1 F.TLY_WB_LOST_LOST 1))

/-- Bytes staged (R235). -/
def wbStaged (s : State) : Nat := s.tly.wb.staged.foldl (fun n r => n + wbLen r.body.length) 0

/-- The oldest pre-trigger record that is still staged leaves the buffer (R235). -/
def wbDisplace (s : State) : Nat → Nat → State
  | 0, _ => s
  | fuel + 1, n =>
    if wbStaged s + n ≤ 262144 then s
    else match s.tly.wb.staged.find? fun r => !r.post with
      | none => s
      | some r => wbDisplace (wbDrop (setWb { s.tly.wb with staged := s.tly.wb.staged.erase r } s)) fuel n

/-- A record is handed to the Waybill (R235): staged, or dropped by FROZEN or a full buffer; nothing while it is OFF. -/
def wbStage (type epoch sched : Nat) (body : List Byte) (s : State) : State :=
  match wbState s with
  | 0 => s
  | 3 => wbDrop s
  | st =>
    let zst := s.tly.wb.zstd && (type == 1 || type == 2 || type == 7)
    let frame := if zst then cmpInternal s s.tly.wb.zlevel body else none
    let b := frame.getD body
    let n := wbLen b.length
    let r : WbRec := { type, epoch, sched, body := b, zst := frame.isSome, post := st == 2 }
    if 65536 < n then wbDrop s
    else
      let s0 := if frame.isSome then cmpChecked body.length s else s
      let s1 := if st = 2 then wbDisplace s0 s.tly.wb.staged.length n else s0
      if wbStaged s1 + n ≤ 262144 then setWb { s1.tly.wb with staged := s1.tly.wb.staged ++ [r] } s1 else wbDrop s1

/-- The body of a LOSS record, and of a MARK record of a source (R225). -/
def lossBody (s : State) : List Byte := leBytes 8 s.tly.wb.dropped ++ leBytes 8 s.tly.wb.dropTime
def markBody (s : State) (source : Nat) : List Byte := leBytes 8 (ns0 s) ++ leBytes 2 source ++ leBytes 6 0

/-- A trigger (R230, R231, R233): the first after ARM writes LOSS if records were dropped, then MARK, and enters POST; one
in POST writes a further MARK; one in FROZEN writes nothing; each gives record 0x0806. -/
def wbTrigger (source : Nat) (s : State) : State :=
  if wbState s = 0 then s
  else
    let s0 := note 0x0806 INFO 0 (prod 182 1 s)
    if wbState s = 3 then s0
    else
      let s1 := set s0 F.TLY_WB_STATUS_STATE 2
      let s2 := if s1.tly.wb.dropped = 0 then s1
        else
          let s2 := wbStage 5 0 0xFF (lossBody s1) s1
          setWb { s2.tly.wb with dropped := 0 } s2
      wbStage 4 0 0xFF (markBody s source) s2

/-- The used space of the ring (R229). -/
def wbUsed (s : State) (size : Nat) : Nat :=
  (get s F.TLY_WB_WRPTR_WRPTR + size - get s F.TLY_WB_RDPTR_RDPTR % max 1 size) % max 1 size

/-- Bytes that a record of `n` bytes takes at offset `h`, the PAD before it included (R225). -/
def wbSpace (size h n : Nat) : Nat := if size < h + n then size - h + n else n

/-- The header and body of a record (R225). -/
def wbBytes (s : State) (r : WbRec) : List Byte :=
  let n := wbLen r.body.length
  [BitVec.ofNat 8 r.type, BitVec.ofNat 8 ((if r.zst then 1 else 0) + (if wbState s = 2 then 2 else 0))] ++ leBytes 2 (n / 16)
    ++ leBytes 4 (get s F.TLY_WB_STATUS_SEQ) ++ leBytes 6 r.epoch ++ [BitVec.ofNat 8 r.sched, 0] ++ padTo (n - 16) r.body

/-- Bytes are written at the ring's write offset, from the start of the beat they begin in (R127). -/
def wbIssue (type : Nat) (bs : List Byte) (s : State) : State :=
  let h := get s F.TLY_WB_WRPTR_WRPTR
  let x := s.mmp.nextXfer
  let s1 := setWb { s.tly.wb with fly := some { xfer := x, len := bs.length, type, bytes := s.tly.wb.tail ++ bs } } s
  memRequest .waybill 20 0 true (regionStart s 0 + h / 64 * 64) (h % 64 + bs.length) (s.tly.wb.tail ++ bs) s1

/-- A record is formed with the next SEQ and written; a PAD goes before it if it does not fit before the end (R225). -/
def wbWrite (r : WbRec) (s : State) : State :=
  let size := regionSize s 0
  let h := get s F.TLY_WB_WRPTR_WRPTR
  let n := wbLen r.body.length
  if size < h + n ∧ h < size then
    wbIssue 6 (padTo (size - h) ([6, 0] ++ leBytes 2 ((size - h) / 16) ++ leBytes 4 (get s F.TLY_WB_STATUS_SEQ) ++ leBytes 6 0 ++ [0xFF, 0])) s
  else
    wbIssue r.type (wbBytes s r) (set (setWb { s.tly.wb with staged := s.tly.wb.staged.erase r } s) F.TLY_WB_STATUS_SEQ
      (get s F.TLY_WB_STATUS_SEQ + 1))

/-- The Waybill enters FROZEN (R231). -/
def wbFreeze (s : State) : State := note 0x0807 INFO 0 (prod 183 1 (set s F.TLY_WB_STATUS_STATE 3))

/-- The next record, in its mode and state (R229, R231, R232): written, dropped, or the ring freezes. -/
def wbNext (r : WbRec) (s : State) : State :=
  let size := regionSize s 0
  let w := s.tly.wb
  let h := get s F.TLY_WB_WRPTR_WRPTR
  let n := wbSpace size h (wbLen r.body.length)
  let dropHead (s : State) : State := wbDrop (setWb { s.tly.wb with staged := s.tly.wb.staged.erase r } s)
  if wbState s = 2 then
    let tooFar := match w.sinceMark with
      | none => false
      | some m => decide (w.reserve * 4096 < m + n)
    if tooFar || (w.mode && decide (size ≤ wbUsed s size + n)) then dropHead (wbFreeze s) else wbWrite r s
  else
    let loss := if w.dropped = 0 then 0 else 32
    if w.mode ∧ size < wbUsed s size + n + loss + w.reserve * 4096 then dropHead (set s F.TLY_WB_STATUS_STATE 4)
    else
      let s1 := set s F.TLY_WB_STATUS_STATE 1
      if w.dropped = 0 then wbWrite r s1
      else
        let l : WbRec := { type := 5, epoch := 0, sched := 0xFF, body := lossBody s, zst := false, post := false }
        wbWrite l (setWb { w with staged := l :: w.staged, dropped := 0 } s1)

/-- The Waybill takes its oldest staged record (R225, R234). -/
def waybillRecordWrite (s : State) : State :=
  match s.tly.wb.fly, s.tly.wb.staged with
  | none, r :: _ =>
    if wbState s = 0 then s
    else if wbState s = 3 then wbDrop (setWb { s.tly.wb with staged := s.tly.wb.staged.tail } s)
    else wbNext r s
  | _, _ => s

/-- WAYBILL_RECORD_WRITE (R225). -/
def execWaybillRecordWrite (s : State) : Host.Outcome State Fault Refusal := .next (waybillRecordWrite s)

/-- The write responses of the record in flight have returned (R228): TLY_WB_WRPTR advances past it, or the record is lost
(R236). -/
def waybillWriteComplete (s : State) : State :=
  match s.tly.wb.fly with
  | none => s
  | some f =>
    if !memDone s .waybill f.xfer then s
    else
      let ok := memOk s .waybill f.xfer
      let h := get s F.TLY_WB_WRPTR_WRPTR
      let h' := (h + f.len) % max 1 (regionSize s 0)
      let s1 := memForget .waybill f.xfer s
      let w := s1.tly.wb
      let mark := if f.type = 4 ∧ w.sinceMark.isNone then some 0 else w.sinceMark.map (· + f.len)
      if ok then
        let s2 := setWb { w with fly := none, sinceMark := mark, tail := f.bytes.drop (f.bytes.length - h' % 64) } s1
        let s3 := set s2 F.TLY_WB_WRPTR_WRPTR h'
        let s4 := if f.type = 4 then set s3 F.TLY_WB_MARK_MARK h else s3
        if f.type = 6 then s4 else prod 180 1 s4
      else
        let s2 := setWb { w with fly := none, sinceMark := if f.type = 4 ∧ w.sinceMark.isNone then some 0 else w.sinceMark } s1
        report F.TLY_ERR_WB_MEM 0x0805 FAULT 0 (if f.type = 6 then s2 else prod 181 1 s2)

/-- WAYBILL_WRITE_COMPLETE (R228). -/
def execWaybillWriteComplete (s : State) : Host.Outcome State Fault Refusal := .next (waybillWriteComplete s)

/-- An ARM takes up the settings and returns the state to RUN, or is refused (R237). -/
def wbArm (s : State) : State :=
  let reserve := get s F.TLY_WB_CTL_RESERVE
  if reserve = 0 ∨ regionSize s 0 < 2 * (reserve * 4096) then flag F.TLY_ERR_WB_CFG s
  else
    let mode := on s F.TLY_WB_CTL_MODE
    let s1 := setWb { s.tly.wb with mode, reserve, zstd := on s F.TLY_WB_CTL_ZSTD, zlevel := get s F.TLY_WB_CTL_ZLEVEL, sinceMark := none } s
    let s2 := set s1 F.TLY_WB_STATUS_STATE (if on s F.TLY_WB_CTL_EN then 1 else 0)
    if mode then set s2 F.TLY_WB_RDPTR_RDPTR (get s F.TLY_WB_WRPTR_WRPTR) else s2

/-- A write of TLY_WB_CTL: EN, then ARM, then TRIG (R231, R237). -/
def wbCtlWrite (acc : Acc) (s : State) : State :=
  let s1 := perform F.TLY_WB_CTL_EN.addr acc s
  let s2 := if !on s1 F.TLY_WB_CTL_EN then set s1 F.TLY_WB_STATUS_STATE 0
    else if wbState s1 = 0 then set s1 F.TLY_WB_STATUS_STATE 1 else s1
  let s3 := if wrote1 acc F.TLY_WB_CTL_ARM then wbArm s2 else s2
  if wrote1 acc F.TLY_WB_CTL_TRIG then wbTrigger 0 s3 else s3

end Sys2Proof.Machine
end

