-- ==== Sys2Proof/Machine/Tally.lean ====
section
/-!
DEFINITION. The Tally (R187 to R224, R731): counting of events into counters and bins, sample schedules, the cut, delta
blocks, steps of TB0, and shadow copies.
-/
namespace Sys2Proof.Machine

def setTly (t : TlySt) (s : State) : State := { s with tly := t }

/-- A value of a sparse table of words; what is not listed is 0. -/
def wordAt (t : List (Nat × Word)) (i : Nat) : Word := (look i t).getD 0
/-- The table with a value under a key; 0 is not listed. -/
def putWord (i : Nat) (v : Word) (t : List (Nat × Word)) : List (Nat × Word) :=
  if v = 0 then dropKeys (· == i) t else store i v t

/-! Engines, tags and bins (R96 to R99, R195 to R200). -/

/-- The host engine of an event group, if EOP_GRP_ENG names one (R96). -/
def groupEngine (s : State) (g : Nat) : Option Nat :=
  if g < 128 ∧ on s ⟨0x030100 + 8 * (g / 8), 8 * (g % 8) + 7, 1⟩ then some (get s ⟨0x030100 + 8 * (g / 8), 8 * (g % 8), 6⟩) else none

/-- The tag of an engine: context, layer, operator; `none` while unset (R99). -/
def tagOf (s : State) (e : Nat) : Option (Nat × Nat × Nat) :=
  (s.eop.tags.find? fun t => t.1 == e).map fun t => t.2

/-- The counter that bin slot `i` follows, if any (R196). -/
def binSel (s : State) (i : Nat) : Option Nat :=
  let v := if i < 4 then get s ⟨0x080028, 16 * i, 16⟩ else get s ⟨0x080030, 16 * (i - 4), 16⟩
  if v < 256 ∨ v = 0xFFFF then none else some v

/-- Bin `b` takes `n` in a slot. -/
def binPut (b slot n : Nat) (key : Option (Nat × Nat × Nat)) (s : State) : State :=
  let old := (look b s.tly.bins).getD {}
  let acc := store slot (wordAt old.acc slot + BitVec.ofNat 64 n) old.acc
  let new : Bin := match key with
    | some (c, l, o) => { ctx := c, layer := l, op := o, acc }
    | none => { old with acc }
  setTly { s.tly with bins := store b new s.tly.bins } s

/-- A miss: the first of an epoch of the bin schedule sets BIN_FULL (R197, R198). -/
def binMiss (s : State) : State :=
  let s1 := bump s F.TLY_BIN_STATUS_MISSES 1
  if s.tly.binMissed then record { recOf 0x0802 INFO 0 with run := 2 } s1
  else record { recOf 0x0802 INFO 0 with run := 1 } (flag F.TLY_ERR_BIN_FULL (setTly { s1.tly with binMissed := true } s1))

/-- The OTHER bin (R195). -/
def otherBin : Nat := 1023

/-- An increment of `n` from an engine's input goes to slot `slot` of one bin (R197). -/
def binAdd (e slot n : Nat) (s : State) : State :=
  match tagOf s e with
  | none => binPut otherBin slot n none s
  | some (c, l, o) =>
    let m := get s F.TLY_BIN_CTX_MASK
    if c &&& m ≠ get s F.TLY_BIN_CTX_VALUE &&& m then binPut otherBin slot n none s
    else match s.tly.bins.find? fun b => b.1 != otherBin && b.2.layer == l && b.2.op == o with
      | some b => binPut b.1 slot n (some (c, l, o)) s
      | none =>
        let used := get s F.TLY_BIN_STATUS_USED
        if used < otherBin then binPut used slot n (some (c, l, o)) (set s F.TLY_BIN_STATUS_USED (used + 1))
        else binPut otherBin slot n none (binMiss s)

/-- The counters that an input feeds (R190, R192), while routed counting is on. -/
def fedBy (s : State) (input : Nat) : List Nat :=
  if on s F.TLY_CTL_ROUTED_EN then (s.tly.xbar.filter fun e => e.2 == input).map Prod.fst else []

/-- `n` events of an input are counted into the routed counters, and into bins if the input belongs to an engine (R192,
R197). -/
def countInput (input n : Nat) (s : State) : State :=
  if inReset s 0 || pwState s == 3 then s
  else (fedBy s input).foldl (fun s c =>
    let s1 := countUp c n s
    match (if input < 0x2000 then groupEngine s (input / 64) else none) with
    | none => s1
    | some e =>
      if !on s F.TLY_CTL_BIN_EN then s1
      else (List.range 8).foldl (fun s i => if binSel s i = some c then binAdd e i n s else s) s1) s

/-- A block-internal event, numbered 0x2000 and up (R190). -/
def internalEvent (code : Nat) (s : State) : State := countInput code 1 s

/-- The heartbeat of a host reset domain takes `n` more (R563, R564). -/
def hostBeat (d n : Nat) (s : State) : State :=
  if n = 0 ∨ 32 ≤ d ∨ pers s = 3 then s
  else set (set s (F.RCV_HB_HOST_COUNT d) (get s (F.RCV_HB_HOST_COUNT d) + n)) (F.RCV_HB_HOST_LAST_US d) (us2 s)

/-- A tag transfer from an engine (R97): events counted from here on are attributed to the new tag; a heartbeat of the host domain of its
context (R563), of which it is the most recent (R578). -/
def tagTransfer (engine ctx layer op : Nat) (s : State) : State :=
  if inReset s 5 || !on s F.EOP_STATUS_LINK_UP || pwState s == 3 then s
  else
    let d := ctx / 2 ^ 24 % 256
    let s1 : State := { s with
      eop := { s.eop with
        tags := (engine % 64, ctx % 2 ^ 32, layer % 2 ^ 20, op % 2 ^ 12) :: s.eop.tags.filter fun t => t.1 != engine % 64 },
      rcv := { s.rcv with lastCtx := if d < 32 then store d (ctx % 2 ^ 32) s.rcv.lastCtx else s.rcv.lastCtx } }
    hostBeat d 1 s1

/-- TAG_TRANSFER (R97). -/
def execTagTransfer (engine ctx layer op : Nat) (s : State) : Host.Outcome State Fault Refusal :=
  .next (tagTransfer engine ctx layer op s)

/-- A snapshot record completes (R100, R103, R201): its first 16 beats replace the engine's slot, unless the shell discards
it; `cut` says that the discard condition held at some instant of the transfer. -/
def snapshotRecord (engine : Nat) (beats : List (BitVec 256)) (cut : Bool) (s : State) : State :=
  if inReset s 5 || !on s F.EOP_STATUS_LINK_UP then s
  else
    let n := beats.length
    let e := engine % 64
    if cut || fenced s 1 || fenced s 5 || pwState s == 3 || !on s F.EOP_CTL_SNP_EN || n == 0 then s
    else
      let s1 := if 16 < n then report F.EOP_ERR_SNP_LONG 0x0302 ADVISE (e + 256 * min (n - 16) 0xFFFF) s else s
      if inReset s1 0 then s1
      else setTly { s1.tly with snaps := store e { bytes := (beats.take 16).flatMap (fun b => leBytes 32 b.toNat), beats := min n 16, fresh := true } s1.tly.snaps } s1

/-- SNAPSHOT_RECORD (R201). -/
def execSnapshotRecord (engine : Nat) (beats : List (BitVec 256)) (cut : Bool) (s : State) : Host.Outcome State Fault Refusal :=
  .next (snapshotRecord engine beats cut s)

/-! Schedules (R203 to R208). -/

def schedOf (s : State) (k : Nat) : Option Sched := look k s.tly.scheds
def schedState (s : State) (k : Nat) : Nat := get s (F.TLY_SCHED_CTL_STATE k)
def schedStart (s : State) (k : Nat) : Nat := get s (F.TLY_SCHED_START_START k)
def schedLen (s : State) (k : Nat) : Nat := get s (F.TLY_SCHED_RANGE_LEN k)
def schedFirst (s : State) (k : Nat) : Nat := get s (F.TLY_SCHED_RANGE_FIRST k)
def schedLast (s : State) (k : Nat) : Nat := get s (F.TLY_SCHED_RANGE_LAST k)
def setSched (k : Nat) (v : Sched) (s : State) : State := setTly { s.tly with scheds := store k v s.tly.scheds } s

/-- Boundary `n` of schedule `k` in ns of TB0 (R203). -/
def boundary (s : State) (k n : Nat) : Nat := schedStart s k + n * schedLen s k

/-- TLY_STATUS.RUNNING counts the schedules in RUN. -/
def showRunning (s : State) : State :=
  set s F.TLY_STATUS_RUNNING ((List.range (nScheds s)).filter fun k => schedState s k == 2).length

def setSchedState (k st : Nat) (s : State) : State := showRunning (set s (F.TLY_SCHED_CTL_STATE k) st)

/-- The values of a schedule's configuration are within R204. -/
def schedOk (s : State) (k : Nat) : Bool :=
  let len := schedLen s k
  let f := schedFirst s k
  let l := schedLast s k
  decide (10000 ≤ len) && decide (len ≤ 1000000000) && f % 16 == 0 && decide (256 ≤ f) && l % 16 == 15 && decide (f ≤ l)
    && decide (l < nCounters s)

/-- Baseline bytes of a schedule (R206). -/
def baseBytes (s : State) (k : Nat) : Nat :=
  8 * (schedLast s k - schedFirst s k + 1 + 256) + (if get s F.TLY_BIN_CTL_SCHED = k then 8 * 8192 else 0)

/-- The bytes of the partitions that a unit page owns. -/
def partBytes (s : State) (page : Nat) : Nat :=
  (s.itn.parts.filter fun p => p.owner == page).foldl (fun n p => n + p.size) 0

/-- Baseline bytes of schedule `k` and of the schedules outside IDLE. -/
def baseNeed (s : State) (k : Nat) : Nat :=
  (List.range (nScheds s)).foldl (fun n j => if j = k ∨ schedState s j ≠ 0 then n + baseBytes s j else n) 0

/-- Counters of a schedule: the production set and FIRST to LAST. -/
def inSched (f l i : Nat) : Bool := decide (i < 256) || (decide (f ≤ i) && decide (i ≤ l))

/-- A baseline cut: the values now (R207). -/
def takeBase (s : State) (k : Nat) (v : Sched) : Sched :=
  { v with base := s.tly.counters.filter fun e => inSched (schedFirst s k) (schedLast s k) e.1,
           binBase := if get s F.TLY_BIN_CTL_SCHED = k then s.tly.bins else [] }

/-- The first boundary n ≥ 1 after TB0 (R207). -/
def firstBoundary (s : State) (k : Nat) : Nat :=
  if ns0 s < schedStart s k then 1 else max 1 ((ns0 s - schedStart s k) / max 1 (schedLen s k) + 1)

/-- EN = 1 in IDLE (R204, R206, R207). -/
def schedArm (k : Nat) (reset : Bool) (s : State) : State :=
  if !schedOk s k then flag F.TLY_ERR_SCHED_CFG (set s (F.TLY_SCHED_CTL_EN k) 0)
  else if partBytes s 0x08 < baseNeed s k then
    report F.TLY_ERR_NO_SPACE 0x080D ADVISE (k + 2 ^ 32 * ((baseNeed s k + 1023) / 1024)) (set s (F.TLY_SCHED_CTL_EN k) 0)
  else setSchedState k 1 (setSched k (takeBase s k { next := firstBoundary s k, reset }) s)

/-- Back to IDLE: EN reads 0 and the schedule's working state is gone. -/
def schedIdle (k : Nat) (s : State) : State :=
  setSchedState k 0 (set (setTly { s.tly with scheds := dropKeys (· == k) s.tly.scheds } s) (F.TLY_SCHED_CTL_EN k) 0)

/-- A write outside IDLE has no effect (R205, R208, R731). -/
def schedBusy (k a : Nat) (s : State) : State := report F.TLY_ERR_SCHED_BUSY 0x0803 ADVISE (k + 2 ^ 32 * (a % 65536)) s

/-- A write of a register of schedule `k` (R205, R207, R208). -/
def schedWrite (k a : Nat) (acc : Acc) (s : State) : State :=
  let st := schedState s k
  if (a - 0x081000) % 0x20 ≠ 0 then (if st = 0 then perform a acc s else schedBusy k a s)
  else if st = 0 then
    let s1 := perform a acc s
    if on s1 (F.TLY_SCHED_CTL_EN k) then schedArm k false s1 else s1
  else
    let en := wfield s acc (F.TLY_SCHED_CTL_EN k)
    if wfield s acc (F.TLY_SCHED_CTL_DOMAIN k) ≠ get s (F.TLY_SCHED_CTL_DOMAIN k) then schedBusy k a s
    else if st = 3 ∧ en = 1 then schedBusy k a s
    else
      let s1 := perform a acc s
      if en = 1 then s1
      else if st = 1 then schedIdle k s1
      else if st = 2 then setSchedState k 3 s1
      else s1

/-- The unit's treatment of a write to the TLY page. -/
def tlyWrite (a : Nat) (acc : Acc) (s : State) : State :=
  if 0x081000 ≤ a ∧ a < 0x081000 + 0x20 * 64 then schedWrite ((a - 0x081000) / 0x20) a acc s
  else if a = F.TLY_WB_CTL_EN.addr then wbCtlWrite acc s
  else
    let s1 := perform a acc s
    if a = F.TLY_BIN_CTL_FLUSH.addr ∧ wrote1 acc F.TLY_BIN_CTL_FLUSH then set s1 F.TLY_BIN_CTL_FLUSH 1
    else if a = F.TLY_HA_CTL_SCHED.addr then set s1 F.TLY_HA_STATUS_VALID 0
    else s1

/-- SCHEDULE_ENABLE (R207). -/
def execScheduleEnable (k : Nat) (acc : Acc) (s : State) : Host.Outcome State Fault Refusal :=
  .next (portWrite tlyWrite (F.TLY_SCHED_CTL_EN k).addr (force (F.TLY_SCHED_CTL_EN k) 1 acc) s)
/-- SCHEDULE_DISABLE (R208). -/
def execScheduleDisable (k : Nat) (acc : Acc) (s : State) : Host.Outcome State Fault Refusal :=
  .next (portWrite tlyWrite (F.TLY_SCHED_CTL_EN k).addr (force (F.TLY_SCHED_CTL_EN k) 0 acc) s)
/-- SCHEDULE_REGISTER_WRITE (R205): CTL, START or RANGE. -/
def execScheduleRegisterWrite (k reg : Nat) (acc : Acc) (s : State) : Host.Outcome State Fault Refusal :=
  .next (portWrite tlyWrite ((F.TLY_SCHED_CTL_EN k).addr + 8 * (reg % 3)) acc s)
/-- BIN_FLUSH (R199). -/
def execBinFlush (acc : Acc) (s : State) : Host.Outcome State Fault Refusal :=
  .next (portWrite tlyWrite F.TLY_BIN_CTL_FLUSH.addr (force F.TLY_BIN_CTL_FLUSH 1 acc) s)
/-- WAYBILL_TRIGGER (R231). -/
def execWaybillTrigger (acc : Acc) (s : State) : Host.Outcome State Fault Refusal :=
  .next (portWrite tlyWrite F.TLY_WB_CTL_TRIG.addr (force F.TLY_WB_CTL_TRIG 1 acc) s)
/-- WAYBILL_ARM (R237). -/
def execWaybillArm (acc : Acc) (s : State) : Host.Outcome State Fault Refusal :=
  .next (portWrite tlyWrite F.TLY_WB_CTL_ARM.addr (force F.TLY_WB_CTL_ARM 1 acc) s)

/-! Delta blocks (R218 to R220). -/

/-- The FLAGS of a sample (R218). -/
def sPARTIAL : Nat := 1
def sFINAL : Nat := 2
def sRESET : Nat := 4
def sLATE : Nat := 8
def sHOLDOVER : Nat := 16
def sSPAN : Nat := 32
def sSTRETCH : Nat := 64
def sHOST : Nat := 128

/-- Unsigned LEB128 (R219), at most `fuel` bytes. -/
def leb128 : Nat → Nat → List Byte
  | 0, _ => []
  | fuel + 1, x => if x < 128 then [BitVec.ofNat 8 x] else BitVec.ofNat 8 (x % 128 + 128) :: leb128 fuel (x / 128)

/-- A delta (R220). -/
def delta (prev cur : List (Nat × Word)) (i : Nat) : Nat := (wordAt cur i - wordAt prev i).toNat

/-- A bitmap of 16 flags, least significant byte first. -/
def bitmap (p : Nat → Bool) : List Byte := leBytes 2 ((List.range 16).foldl (fun m j => if p j then m + 2 ^ j else m) 0)

/-- A group of 16 counters from `i` on (R219). -/
def deltaGroup (prev cur : List (Nat × Word)) (i : Nat) : List Byte :=
  let d (j : Nat) : Nat := delta prev cur (i + j)
  bitmap (fun j => d j != 0) ++ (List.range 16).flatMap fun j => if d j = 0 then [] else leb128 10 (d j)

/-- The header of a delta block (R218). -/
def blockHeader (first groups flags span : Nat) : List Byte := leBytes 2 first ++ leBytes 2 groups ++ leBytes 2 flags ++ leBytes 2 span

/-- A delta block from FIRST, of `groups` groups (R218). -/
def deltaBlock (prev cur : List (Nat × Word)) (first groups flags span : Nat) : List Byte :=
  blockHeader first groups flags span ++ (List.range groups).flatMap fun g => deltaGroup prev cur (first + 16 * g)

/-- The production block and the range block of a cut. -/
def prodBlock (c : Cut) : List Byte := deltaBlock c.prev c.cur 0 16 c.flags c.span
def rangeBlock (c : Cut) : List Byte := deltaBlock c.prev c.cur c.first ((c.last - c.first + 1) / 16) c.flags c.span
def sampleBody (c : Cut) : List Byte := prodBlock c ++ rangeBlock c

/-- The key word of a bin (R200). -/
def binKey (b : Nat) (v : Bin) : Word :=
  if b = otherBin then BitVec.allOnes 64 else BitVec.ofNat 64 (v.ctx * 2 ^ 32 + v.layer * 2 ^ 12 + v.op)

/-- A bin's part of a BINS record: key word, slot mask and slot deltas; nothing if no delta (R220). -/
def binPart (prev cur : List (Nat × Bin)) (b : Nat) : List Byte :=
  let p := (look b prev).getD {}
  let c := (look b cur).getD {}
  let d (i : Nat) : Nat := delta p.acc c.acc i
  if (List.range 8).any fun i => d i != 0 then
    wordBytes (binKey b c) ++ leBytes 1 ((List.range 8).foldl (fun m i => if d i = 0 then m else m + 2 ^ i) 0)
      ++ (List.range 8).flatMap fun i => if d i = 0 then [] else leb128 10 (d i)
  else []

/-- The body of a BINS record (R220). -/
def binsBody (prev cur : List (Nat × Bin)) (flags span : Nat) : List Byte :=
  blockHeader 0 64 flags span ++ (List.range 64).flatMap fun g =>
    bitmap (fun j => !(binPart prev cur (16 * g + j)).isEmpty) ++ (List.range 16).flatMap fun j => binPart prev cur (16 * g + j)

/-! The cut (R209 to R216). -/

/-- Bins 0 to 1,022 are freed (R199). -/
def freeBins (s : State) : State :=
  set (set (setTly { s.tly with bins := s.tly.bins.filter fun b => b.1 == otherBin } s) F.TLY_BIN_STATUS_USED 0) F.TLY_BIN_CTL_FLUSH 0

/-- A cut of schedule `k` at boundary `n` takes effect with flags `fl` beside its own marks (R207 to R215). -/
def takeCut (k n fl span : Nat) (s : State) : State :=
  match schedOf s k with
  | none => s
  | some v =>
    let flags := fl + (if v.first then sPARTIAL + (if v.reset then sRESET else 0) else 0) + (if span ≠ 1 then sSPAN else 0) + (if v.stretch then sSTRETCH else 0)
    let binned := get s F.TLY_BIN_CTL_SCHED = k ∧ on s F.TLY_CTL_BIN_EN
    let snapped := get s F.TLY_CTL_SNP_SCHED = k ∧ on s F.TLY_CTL_SNP_EN
    let v' := takeBase s k { v with next := max v.next (n + 1), first := false, stretch := false }
    let c : Cut := { sched := k, domain := get s (F.TLY_SCHED_CTL_DOMAIN k), epoch := n - 1, flags, span, first := schedFirst s k,
                     last := schedLast s k, prev := v.base, cur := v'.base,
                     bins := if binned then some (v.binBase, s.tly.bins) else none,
                     snaps := if snapped then s.tly.snaps.filter fun e => e.2.fresh else [],
                     host := (get s F.GLB_FUNC_MODE_MODE).testBit 0 && get s F.TLY_HA_CTL_SCHED == k }
    let s1 := setTly { s.tly with
      cuts := s.tly.cuts ++ [c], scheds := store k v' s.tly.scheds, lastCut := store k v'.base s.tly.lastCut,
      binMissed := if get s F.TLY_BIN_CTL_SCHED = k then false else s.tly.binMissed,
      snaps := if snapped then s.tly.snaps.map fun e => (e.1, { e.2 with fresh := false }) else s.tly.snaps } s
    let s2 := set (set (set s1 (F.TLY_SCHED_EPOCH_EPOCH k) (n - 1)) (F.TLY_SCHED_EPOCH_FLAGS k) flags) F.TLY_STATUS_LAST_SCHED k
    let s3 := if get s F.TLY_HA_CTL_SCHED = k then set (set s2 F.TLY_HA_STATUS_CUT_EPOCH (n - 1)) F.TLY_HA_STATUS_VALID 1 else s2
    if get s F.TLY_BIN_CTL_SCHED = k ∧ on s F.TLY_BIN_CTL_FLUSH then freeBins s3 else s3

/-- A FINAL cut of schedule `k` is still to be handed over. -/
def finalTaken (s : State) (k : Nat) : Bool :=
  s.tly.cuts.any (fun c => c.sched == k && c.flags.testBit 1) || s.tly.late.any fun l => l.sched == k && l.flags.testBit 1

/-- The boundary that schedule `k` cuts next: the latest one that TB0 has passed, or the next one (R207, R215). -/
def dueBoundary (s : State) (v : Sched) (k : Nat) : Nat := max v.next ((ns0 s - schedStart s k) / max 1 (schedLen s k))

/-- TB0 reaches a boundary of schedule `k`: the state at that instant and the boundary, if the schedule cuts. -/
def boundaryReached (k : Nat) (s : State) : Option (State × Nat × Nat) :=
  match schedOf s k with
  | none => none
  | some v =>
    if decide (nScheds s ≤ k) || inReset s 0 || schedState s k == 0 || finalTaken s k then none
    else
      let n := dueBoundary s v k
      some (reachTb0 (boundary s k n * 2 ^ 48) s, n, n + 1 - v.next)

/-- The strobe of boundary `n`: an ARMED schedule runs; a cut, or a late strobe if both shadow banks are busy (R207 to R209, R211, R214). -/
def strobe (k n span : Nat) (s : State) : State :=
  let fl := (if get s (F.TIM_TB_STATUS_STATE 0) = 3 then sHOLDOVER else 0) + (if schedState s k = 3 then sFINAL else 0)
  let s1 := if schedState s k = 1 then setSchedState k 2 s else s
  if s.tly.cuts.length < 2 then takeCut k n fl span s1
  else
    let v := (schedOf s k).getD {}
    setSched k { v with next := n + 1 } (setTly { s1.tly with late := s.tly.late ++ [{ sched := k, n, flags := fl + 65536 * span }] } s1)

/-- A late strobe takes effect once a bank is free (R211). -/
def lateCut (s : State) : State :=
  match s.tly.late with
  | [] => s
  | l :: rest =>
    if 2 ≤ s.tly.cuts.length then s
    else
      let s1 := takeCut l.sched l.n (l.flags % 65536 + sLATE) (l.flags / 65536) (setTly { s.tly with late := rest } s)
      report F.TLY_ERR_LATE_CUT 0x0801 ADVISE l.sched s1

/-- LATE_CUT (R211). -/
def execLateCut (s : State) : Host.Outcome State Fault Refusal := .next (lateCut s)

/-- The records that a cut leaves in the Waybill: SAMPLE, BINS, SNAPSHOT (R202, R220, R225). -/
def wbCut (c : Cut) (s : State) : State :=
  let s1 := if c.host then s else wbStage 1 c.epoch c.sched (sampleBody c) s
  let s2 := match c.bins with
    | none => s1
    | some (p, q) => wbStage 2 c.epoch c.sched (binsBody p q c.flags c.span) s1
  c.snaps.foldl (fun s e => wbStage 3 c.epoch c.sched
    ([BitVec.ofNat 8 e.1, BitVec.ofNat 8 e.2.beats] ++ leBytes 14 0 ++ e.2.bytes) s) s2

/-- TB0 takes a step: every schedule in RUN records a forward step past a boundary and every backward step (R215, R216,
R731). -/
def tallyStep (old new : Nat) (s : State) : State :=
  let d := ofSigned 48 (satSigned 48 (roundOpen ((new : Int) - old) (2 ^ 48)))
  (List.range (nScheds s)).foldl (fun s k =>
    match schedOf s k with
    | none => s
    | some v =>
      if schedState s k ≠ 2 then s
      else if new < old then
        note 0x080B INFO (k + 256 * 2 + 2 ^ 16 * d) (setSched k { v with stretch := true } s)
      else if old < boundary s k v.next * 2 ^ 48 ∧ boundary s k v.next * 2 ^ 48 ≤ new then note 0x080B INFO (k + 256 * 1 + 2 ^ 16 * d) s
      else s) s

/-- At a 1 ms boundary of TB0, with no schedule in RUN, a PROD record is written (R226). -/
def waybillProdTick (s : State) : State :=
  if inReset s 0 then s
  else
    let s1 := reachTb0 ((ns0 s / 1000000 + 1) * 1000000 * 2 ^ 48) s
    if wbState s1 = 0 ∨ (List.range (nScheds s1)).any (fun k => schedState s1 k == 2) then s1
    else
      let cur := s1.tly.counters.filter fun e => decide (e.1 < 256)
      let s2 := wbStage 7 0 0xFF (deltaBlock s1.tly.wb.prodBase cur 0 16 0 1) s1
      setWb { s2.tly.wb with prodBase := cur } s2

/-- WAYBILL_PROD_TICK (R226). -/
def execWaybillProdTick (s : State) : Host.Outcome State Fault Refusal := .next (waybillProdTick s)

end Sys2Proof.Machine
end

