-- ==== Sys2Proof/Machine/Reduce.lean ====
section
/-!
DEFINITION. Reduction (R218, R219, R288 to R305): reading the payloads of children, the derivation of one class or sketch
under a level rule, and the payloads of a result.
-/
namespace Sys2Proof.Machine

/-! Reading payloads. -/

/-- One unsigned LEB128 value at the head of a list, of at most `fuel` bytes (R219). -/
def lebRead : Nat → List Byte → Option (Nat × List Byte)
  | 0, _ => none
  | _ + 1, [] => none
  | fuel + 1, b :: t =>
    if b.toNat < 128 then some (b.toNat, t) else (lebRead fuel t).map fun r => (b.toNat - 128 + 128 * r.1, r.2)

/-- The values that the last `k` bits of a bitmap name, from index `i` on. -/
def groupVals (m i : Nat) : Nat → List Byte → Option (List (Nat × Nat) × List Byte)
  | 0, bs => some ([], bs)
  | k + 1, bs =>
    if m.testBit (15 - k) then
      match lebRead 10 bs with
      | none => none
      | some (v, t) => (groupVals m i k t).map fun r => ((i + (15 - k), v) :: r.1, r.2)
    else groupVals m i k bs

/-- `g` groups from index `i` on (R219). -/
def readGroups (i : Nat) : Nat → List Byte → Option (List (Nat × Nat) × List Byte)
  | 0, bs => some ([], bs)
  | g + 1, bs =>
    if bs.length < 2 then none
    else match groupVals (leAt bs 0 2) i 16 (bs.drop 2) with
      | none => none
      | some (v, t) => (readGroups (i + 16) g t).map fun r => (v ++ r.1, r.2)

/-- The blocks of a DELTA payload (R218). -/
def readDelta : Nat → List Byte → Option (List Part)
  | 0, _ => none
  | _, [] => some []
  | fuel + 1, bs =>
    if bs.length < 8 then none
    else match readGroups (leAt bs 0 2) (leAt bs 2 2) (bs.drop 8) with
      | none => none
      | some (v, t) => (readDelta fuel t).map fun r => .delta (leAt bs 0 2) (leAt bs 2 2) (leAt bs 4 2) (leAt bs 6 2) v :: r

/-- Bytes of one entry of an AGG payload (R300). -/
def entBytes (op k : Nat) : Nat :=
  if op = 3 ∨ op = 5 then 12 else if op = 8 ∨ op = 9 then 12 * k else 8

/-- The value and index pairs of an entry. -/
def readPairs : Nat → List Byte → List (Nat × Nat)
  | 0, _ => []
  | k + 1, bs => (leAt bs 0 8, leAt bs 8 4) :: readPairs k (bs.drop 12)

def readEnts (op k i : Nat) (sat : Nat) : Nat → List Byte → List (Nat × List (Nat × Nat))
  | 0, _ => []
  | n + 1, bs =>
    (i, if op = 3 ∨ op = 5 then readPairs 1 bs else if op = 8 ∨ op = 9 then readPairs k bs else [(leAt bs 0 8, sat)])
      :: readEnts op k (i + 1) sat n (bs.drop (entBytes op k))

/-- An AGG payload (R300). In an entry without an argument the second number of its pair holds the SAT flag of the payload. -/
def readAgg (bs : List Byte) : Option (List Part) :=
  let op := leAt bs 1 1
  let k := leAt bs 2 1
  let n := leAt bs 6 2
  if bs.length < 16 ∨ bs.length < 16 + n * entBytes op k then none
  else some [.agg (leAt bs 0 1) op k (leAt bs 3 1) (leAt bs 4 2) n (leAt bs 8 2) (leAt bs 10 2) (leAt bs 12 4)
    (readEnts op k (leAt bs 4 2) (leAt bs 3 1 % 2) n (bs.drop 16))]

/-- A SKETCH payload (R305). -/
def readSketch (bs : List Byte) : Option (List Part) :=
  if bs.length < 16 then none
  else (readGroups (16 * leAt bs 2 1) (leAt bs 3 1) (bs.drop 16)).map fun r =>
    [.sketch (leAt bs 0 2) (leAt bs 2 1) (leAt bs 3 1) (leAt bs 4 2) (leAt bs 6 2)
      { buckets := r.1, nan := leAt bs 8 4, sat := (leAt bs 4 2).testBit 1, dies := leAt bs 12 4 }]

/-- The 48-byte records of a VERDICT payload (R297). -/
def readVerdicts (bs : List Byte) : List (List Byte) :=
  (List.range (bs.length / 48)).map fun i => (bs.drop (48 * i)).take 48

/-- The parts of a payload by its type; a payload that does not parse adds nothing. -/
def readParts (type : Nat) (bs : List Byte) : List Part :=
  match type with
  | 0x01 => (readDelta (bs.length + 1) bs).getD []
  | 0x02 => (readAgg bs).getD []
  | 0x03 => (readSketch bs).getD []
  | 0x04 => (readVerdicts bs).map .verdict
  | _ => []

/-! One class or sketch of one epoch (R289, R290, R301, R302). -/

/-- What one child contributes: its bit, its source index, and its parts with the epoch of each. -/
structure Contrib where
  bit : Nat
  source : Nat
  parts : List (Nat × Part)
  deriving DecidableEq, Repr

/-- A part covers counter `i` of class `c` (R302). -/
def covers (c i : Nat) : Part → Bool
  | .delta f g _ _ _ => decide (f ≤ i) && decide (i < f + 16 * g) && i / 256 == c
  | .agg d _ _ _ f n _ _ _ _ => d == c && decide (f ≤ i) && decide (i < f + n)
  | _ => false

/-- A part touches class `c`. -/
def touches (c : Nat) : Part → Bool
  | .delta f g _ _ _ => decide (f / 256 ≤ c) && decide (c * 256 < f + 16 * g)
  | .agg d _ _ _ _ _ _ _ _ _ => d == c
  | _ => false

/-- The value under a key of a list of pairs, 0 if absent. -/
def valAt (t : List (Nat × Nat)) (i : Nat) : Nat := (t.find? fun e => e.1 == i).elim 0 Prod.snd

/-- The sum of a child's deltas of a counter, modulo 2^64; `none` if no delta block of it covers the counter. -/
def deltaOf (k : Contrib) (c i : Nat) : Option Nat :=
  k.parts.foldl (fun a p => match p.2 with
    | .delta f g fl sp vals => if covers c i (.delta f g fl sp vals) then some ((a.getD 0 + valAt vals i) % 2 ^ 64) else a
    | _ => a) none

/-- The entries of a child's AGG payloads of a counter. -/
def aggOf (k : Contrib) (c i : Nat) : List (Nat × Nat) :=
  k.parts.flatMap fun p => match p.2 with
    | .agg d op _ _ _ _ _ _ _ ents =>
      if d = c then (ents.filter fun e => e.1 == i).flatMap fun e =>
        e.2.filter fun x => !((op == 8 || op == 9) && x.2 == 0xFFFFFFFF) else []
    | _ => []

/-- The entries of one counter over every child that covers it; a delta stands with the index of its die. -/
def entriesOf (ks : List Contrib) (c i : Nat) : List (Nat × Nat) :=
  ks.flatMap fun k => ((deltaOf k c i).map fun v => (v, k.source)).toList ++ aggOf k c i

/-- Largest first and smallest first, equal values by lower index (R301). -/
def descending (l : List (Nat × Nat)) : List (Nat × Nat) := sortBy (fun e => (2 ^ 64 - e.1) * 2 ^ 32 + e.2) l
def ascending (l : List (Nat × Nat)) : List (Nat × Nat) := sortBy (fun e => e.1 * 2 ^ 32 + e.2) l

/-- The first `k` entries, the unused ones 0 and 0xFFFF_FFFF (R300). -/
def firstK (k : Nat) (l : List (Nat × Nat)) : List (Nat × Nat) :=
  l.take k ++ List.replicate (k - l.length) (0, 0xFFFFFFFF)

/-- An operation over the entries of one counter (R301). The second number of an entry of SUM is its SAT flag. `agg` tells
that the entries come from AGG payloads. -/
def combine (op k : Nat) (agg : Bool) (l : List (Nat × Nat)) : List (Nat × Nat) :=
  match op with
  | 1 =>
    let t := l.foldl (fun n e => n + e.1) 0
    [(min t (2 ^ 64 - 1), if decide (2 ^ 64 ≤ t) || (agg && l.any fun e => e.2 == 1) then 1 else 0)]
  | 2 => [(((ascending l).headD (0, 0)).1, 0)]
  | 3 => [(ascending l).headD (0, 0xFFFFFFFF)]
  | 4 => [(((descending l).headD (0, 0)).1, 0)]
  | 5 => [(descending l).headD (0, 0xFFFFFFFF)]
  | 6 => [(l.foldl (fun n e => n ||| e.1) 0, 0)]
  | 7 => [((l.filter fun e => e.1 != 0).length, 0)]
  | 8 => firstK k (descending l)
  | 9 => firstK k (ascending l)
  | _ => []

/-- A part can be derived into a rule (R289). -/
def derives (r : Rule) : Part → Bool
  | .delta _ _ _ _ _ => decide (1 ≤ r.op) && decide (r.op ≤ 9)
  | .agg _ op k _ _ _ _ _ _ _ =>
    match r.op with
    | 1 => op == 1
    | 3 => op == 3 || op == 9
    | 5 => op == 5 || op == 8
    | 8 => op == 8 && decide (r.k ≤ k)
    | 9 => op == 9 && decide (r.k ≤ k)
    | _ => false
  | .sketch _ _ _ fl _ _ => r.op == 10 && (r.half || fl % 2 == 0)
  | .verdict _ => true

/-- The operation that a part was made with. -/
def partOp : Part → Nat
  | .agg _ op _ _ _ _ _ _ _ _ => op
  | .sketch _ _ _ _ _ _ => 10
  | _ => 0

/-- The class that a part belongs to as a result, and as a sketch group (with 256 added). -/
def partKeys : Part → List Nat
  | .agg d _ _ _ _ _ _ _ _ _ => [d]
  | .sketch id _ _ _ _ _ => [256 + id / 16]
  | _ => []

def partFlags : Part → Nat
  | .delta _ _ fl _ _ => fl
  | .agg _ _ _ fl _ _ _ _ _ _ => fl
  | .sketch _ _ _ fl _ _ => fl
  | .verdict _ => 0
def partSpan : Part → Nat
  | .delta _ _ _ sp _ => sp
  | .agg _ _ _ _ _ _ sp _ _ _ => sp
  | .sketch _ _ _ _ sp _ => sp
  | .verdict _ => 1

/-- A part carries RESET, or FINAL. -/
def partReset : Part → Bool
  | .delta _ _ fl _ _ => fl.testBit 2
  | .agg _ _ _ fl _ _ _ _ _ _ => fl.testBit 3
  | _ => false
def partFinal : Part → Bool
  | .delta _ _ fl _ _ => fl.testBit 1
  | .agg _ _ _ fl _ _ _ _ _ _ => fl.testBit 1
  | _ => false

/-- What a child's parts of class `c` cover: bit, L0 instances, first counter, count. -/
def coverOf (c : Nat) (k : Contrib) : List (Nat × Nat × Nat × Nat) :=
  k.parts.flatMap fun p => if !touches c p.2 then [] else match p.2 with
    | .delta f g _ _ _ =>
      let lo := max f (256 * c)
      [(k.bit, 1, lo, min (f + 16 * g) (256 * c + 256) - lo)]
    | .agg _ _ _ _ f n _ _ dies _ => [(k.bit, dies, f, n)]
    | _ => []

/-- The result of a class under its rule (R301, R302): every counter that a present child covers. `span` and `fl` are those
of a coarsened or last result. -/
def reduceClass (r : Rule) (ks : List Contrib) (span fl : Nat) : Result :=
  let c := r.cls
  let mine := ks.map fun k => { k with parts := k.parts.filter fun p => touches c p.2 }
  let isAgg := mine.any fun k => k.parts.any fun p => match p.2 with | .agg _ _ _ _ _ _ _ _ _ _ => true | _ => false
  let ents := ((List.range 256).map (256 * c + ·)).filterMap fun i =>
    let on := mine.any fun k => k.parts.any fun p => covers c i p.2
    if on then some (i, combine r.op r.k isAgg (entriesOf mine c i)) else none
  let sp := mine.foldl (fun m k => k.parts.foldl (fun m p => max m (partSpan p.2)) m) span
  let rs := if mine.any fun k => k.parts.any fun p => partReset p.2 then 8 else 0
  .agg c r.op r.k (fl ||| rs) sp ents (mine.flatMap (coverOf c))

/-- The sketch of one ID that a child's parts of one epoch hold: the payloads of one sketch join (R305). -/
def kidSketch (k : Contrib) (id n : Nat) : Option Sketch :=
  k.parts.foldl (fun a p => match p.2 with
    | .sketch j _ _ _ _ v => if j = id ∧ p.1 = n then
        some (match a with
          | none => v
          | some w => { (sketchMerge v { w with nan := 0, dies := 0 }) with nan := max v.nan w.nan, dies := max v.dies w.dies })
      else a
    | _ => a) none

/-- The sketch of one child over its epochs: counts add, the L0 instances do not (R326). -/
def kidSketchAll (k : Contrib) (id : Nat) : Option Sketch :=
  ((k.parts.map Prod.fst).dedup.filterMap (kidSketch k id)).foldl (fun a v => match a with
    | none => some v
    | some w => some { sketchMerge v w with dies := max v.dies w.dies }) none

/-- A child's parts of a sketch are at half resolution. -/
def kidHalf (k : Contrib) (id : Nat) : Bool :=
  k.parts.any fun p => match p.2 with
    | .sketch j _ _ fl _ _ => j == id && fl % 2 == 1
    | _ => false

/-- The merge of a sketch under its rule (R304); `none` if no child has it. -/
def reduceSketch (r : Rule) (id : Nat) (ks : List Contrib) (span fl : Nat) : Option Result :=
  let vs := ks.filterMap fun k => (kidSketchAll k id).map fun v => if r.half && !kidHalf k id then sketchHalf v else v
  match vs with
  | [] => none
  | v :: t =>
    let m := t.foldl sketchMerge v
    let sp := ks.foldl (fun m k => k.parts.foldl (fun m p => match p.2 with
      | .sketch j _ _ _ s _ => if j = id then max m s else m
      | _ => m) m) span
    some (.sketch id (fl + (if r.half then 1 else 0) + (if m.sat then 2 else 0)) sp m)

/-- The sketch IDs that children send. -/
def sketchIds (ks : List Contrib) : List Nat :=
  sortBy id (ks.flatMap fun k => k.parts.filterMap fun p => match p.2 with
    | .sketch id _ _ _ _ _ => some id
    | _ => none).dedup

/-- Two results agree in every value, argument, top-k entry and bucket (R319). -/
def sameResult : Result → Result → Bool
  | .agg c op _ _ _ e _, .agg d oq _ _ _ f _ => c == d && op == oq && e == f
  | .sketch i _ _ k, .sketch j _ _ l => i == j && k.buckets == l.buckets && k.nan == l.nan
  | _, _ => false

/-- The rule key of a result: its class, or 256 more than its sketch ID. -/
def resultKey : Result → Nat
  | .agg c _ _ _ _ _ _ => c
  | .sketch id _ _ _ => 256 + id

/-! Payloads of results (R299, R300, R305). -/

def pairBytes (e : Nat × Nat) : List Byte := leBytes 8 e.1 ++ leBytes 4 e.2
def entryBytes (op : Nat) (e : List (Nat × Nat)) : List Byte :=
  if op = 3 ∨ op = 5 ∨ op = 8 ∨ op = 9 then e.flatMap pairBytes else leBytes 8 (e.headD (0, 0)).1

/-- Contiguous runs of entries of at most `n`. -/
def runsOf (n : Nat) : List (Nat × List (Nat × Nat)) → List (List (Nat × List (Nat × Nat)))
  | [] => []
  | e :: t =>
    match runsOf n t with
    | [] => [[e]]
    | r :: rs => if (r.head?.map Prod.fst) == some (e.1 + 1) && decide (r.length < n) then (e :: r) :: rs else [e] :: r :: rs

/-- One AGG payload for a run (R300, R302). -/
def aggPayload (cls op k fl span : Nat) (cover : List (Nat × Nat × Nat × Nat)) (run : List (Nat × List (Nat × Nat))) : List Byte :=
  let f := (run.head?.map Prod.fst).getD 0
  let n := run.length
  let hit := cover.filter fun e => decide (e.2.2.1 < f + n) && decide (f < e.2.2.1 + e.2.2.2)
  let bits := (hit.map Prod.fst).dedup
  let dies := bits.foldl (fun t b => t + hit.foldl (fun m e => if e.1 = b then max m e.2.1 else m) 0) 0
  let sat := if op = 1 ∧ run.any (fun e => e.2.any fun x => x.2 == 1) then 1 else 0
  leBytes 1 cls ++ leBytes 1 op ++ leBytes 1 k ++ leBytes 1 (fl ||| sat) ++ leBytes 2 f ++ leBytes 2 n ++ leBytes 2 span
    ++ leBytes 2 bits.length ++ leBytes 4 dies ++ run.flatMap fun e => entryBytes op e.2

/-- Groups of buckets from group `g` on, coded by R219. -/
def bucketGroup (k : Sketch) (g : Nat) : List Byte :=
  let v (j : Nat) : Nat := sketchAt k (16 * g + j)
  bitmap (fun j => v j != 0) ++ (List.range 16).flatMap fun j => if v j = 0 then [] else leb128 10 (v j)

/-- Coded groups packed into payloads of at most `cap` bytes: each is the number of the first group, the count and the
bytes. -/
def packRuns (cap : Nat) : List (Nat × List Byte) → List (Nat × Nat × List Byte)
  | [] => []
  | (g, b) :: t =>
    match packRuns cap t with
    | [] => [(g, 1, b)]
    | (h, n, c) :: rs => if h = g + 1 ∧ b.length + c.length ≤ cap then (g, n + 1, b ++ c) :: rs else (g, 1, b) :: (h, n, c) :: rs

/-- SKETCH payloads of a sketch, each of at most `cap` bytes. -/
def sketchPayloads (cap id fl span : Nat) (k : Sketch) : List (List Byte) :=
  let n := if fl % 2 = 1 then 32 else 64
  (packRuns (cap - 16) ((List.range n).map fun g => (g, bucketGroup k g))).map fun e =>
    leBytes 2 id ++ leBytes 1 e.1 ++ leBytes 1 e.2.1 ++ leBytes 2 fl ++ leBytes 2 span ++ leBytes 4 k.nan ++ leBytes 4 k.dies
      ++ e.2.2

/-- The packet type and the payloads of a result. -/
def resultPayloads (cap : Nat) : Result → Nat × List (List Byte)
  | .agg c op k fl span ents cover =>
    (0x02, (runsOf ((cap - 16) / max 1 (entBytes op k)) ents).map (aggPayload c op k fl span cover))
  | .sketch id fl span k => (0x03, sketchPayloads cap id fl span k)

/-- A result is coarsened. -/
def resultCoarse : Result → Bool
  | .agg _ _ _ fl _ _ _ => fl.testBit 2
  | .sketch _ fl _ _ => fl.testBit 2

/-! DELTA payloads of an own sample (R218, R299). -/

/-- The payload of DELTA blocks: runs of groups, each with its header. -/
def deltaPacket (blocks : List (Nat × Nat × List Byte)) (flags span : Nat) : List Byte :=
  blocks.flatMap fun b => blockHeader b.1 b.2.1 flags span ++ b.2.2
def packetSize (blocks : List (Nat × Nat × List Byte)) : Nat := blocks.foldl (fun n b => n + 8 + b.2.2.length) 0

/-- Coded groups (first counter, bytes) packed into packets of blocks of at most `cap` bytes. -/
def packDelta (cap : Nat) : List (Nat × List Byte) → List (List (Nat × Nat × List Byte))
  | [] => []
  | (i, b) :: t =>
    match packDelta cap t with
    | [] => [[(i, 1, b)]]
    | [] :: ps => [(i, 1, b)] :: ps
    | ((j, n, c) :: bl) :: ps =>
      let size := packetSize ((j, n, c) :: bl)
      if j = i + 16 ∧ b.length + size ≤ cap then ((i, n + 1, b ++ c) :: bl) :: ps
      else if j ≠ i + 16 ∧ b.length + 8 + size ≤ cap then ((i, 1, b) :: (j, n, c) :: bl) :: ps
      else [(i, 1, b)] :: ((j, n, c) :: bl) :: ps

end Sys2Proof.Machine
end

