-- ==== Sys2Proof/Machine/Route.lean ====
section
/-!
DEFINITION. Signpost routing (R286, R291 to R294, R297, R298), packets to the parent and to the fleet manager, the holdover
ring that takes a die's packets (R592, R593), and the verdict store (R618).
-/
namespace Sys2Proof.Machine

def setCrv (c : CrvSt) (s : State) : State := { s with crv := c }

/-! Epochs in progress. -/

/-- The lowest-numbered schedule of a domain outside IDLE; it gives B(n) and LEN. -/
def domSched (s : State) (d : Nat) : Option Nat :=
  (List.range (nScheds s)).find? fun k => schedState s k != 0 && get s (F.TLY_SCHED_CTL_DOMAIN k) == d

/-- The slot of a domain outside FREE. -/
def slotOf (s : State) (d : Nat) : Option Nat :=
  (s.crv.slots.find? fun e => e.2.state != 0 && e.2.domain == d).map Prod.fst
def slotAt (s : State) (k : Nat) : CrvSlot := (look k s.crv.slots).getD {}

/-- The next epoch of a domain to begin: by its schedule's boundaries, else after every epoch seen in its slot. -/
def nextEpoch (s : State) (d : Nat) : Nat :=
  match domSched s d with
  | some k => if ns0 s < schedStart s k then 0 else (ns0 s - schedStart s k) / max 1 (schedLen s k) + 1
  | none =>
    match slotOf s d with
    | none => 0
    | some k =>
      let v := slotAt s k
      (v.epochs.map EpSt.n ++ v.done ++ (v.latest.map Prod.fst).toList).foldl (fun m n => max m (n + 1)) 0

/-! Routes. -/

def noParent : Nat := 0xFFFFFF
def routesOf (s : State) (d : Nat) : List Route := (look d s.crv.routes).getD []

/-- The route in effect when epoch `n` of a domain began (R51, R292). -/
def routeAt (s : State) (d n : Nat) : Option Route := (routesOf s d).find? fun r => decide (r.start ≤ n)

/-- The mode that a route acts in: PRIMARY without a secondary parent (R293). -/
def routeMode (r : Route) : Nat := if r.entry.sec = noParent then 0 else r.mode

/-- SPLIT sends epoch `n` to the secondary parent (R292). -/
def splitTo (n share : Nat) : Bool := decide (37 * n % 100 < share)

/-- The share of epochs out of 100 that a route gives the secondary parent. -/
def shareNow (r : Route) : Nat :=
  match routeMode r with
  | 1 => min r.entry.share 100
  | 2 => 100
  | _ => 0

/-- The parent of epoch `n`: index and child bit (R292). -/
def parentOf (r : Route) (n : Nat) : Nat × Nat :=
  if routeMode r = 2 ∨ (routeMode r = 1 ∧ splitTo n r.entry.share) then (r.entry.sec, r.entry.bitS) else (r.entry.prim, r.entry.bitP)

/-- The destination level, index and child bit of a domain's packets of epoch `n`: the parent, or the fleet manager for a top
reducer (R286, R297); `none` where the instance has no Signpost entry, or is a die without a parent. -/
def parentFor (s : State) (d n : Nat) : Option (Nat × Nat × Nat) :=
  match routeAt s d n with
  | none => none
  | some r =>
    let (i, b) := parentOf r n
    if i = noParent then (if level s = 0 then none else some (7, get s F.CRV_CTL_FM_INDEX, 0xFFFF))
    else some (level s + 1, i, b)

/-- The home domain (CRV_HOME). -/
def homeDomain (s : State) : Option Nat := if on s F.CRV_HOME_VALID then some (get s F.CRV_HOME_DOMAIN) else none

/-! The verdict store. -/

/-- A confirmed verdict enters the store (R618). -/
def storeVerdict (v : List Byte) (s : State) : State :=
  let q := get s F.SBX_VSTORE_NEXT_SEQ
  let l := s.sbx.verdicts ++ [(q, v)]
  let full := decide (320 < l.length)
  let s1 : State := { s with sbx := { s.sbx with verdicts := l.drop (l.length - 320) } }
  let s2 := set (set s1 F.SBX_VSTORE_NEXT_SEQ (q + 1)) F.SBX_VSTORE_COUNT (min l.length 320)
  if full then note 0x1604 ADVISE ((l.head?.map Prod.fst).getD 0) (bump s2 F.SBX_VSTORE_OVERWRITTEN 1) else s2

/-! Holdover ring (R592, R593). -/

def holdState (s : State) : Nat := get s F.RCV_HOLD_STATUS_STATE

/-- Packets of an epoch of the home domain go to the ring: in holdover, and while draining those of epochs not yet sent live
(R592, R594). -/
def holdsUp (s : State) (d : Nat) (n : Option Nat) : Bool :=
  pers s == 1 && homeDomain s == some d && (holdState s == 1 || (holdState s == 2 && (match n with
    | some n => decide (n < s.hld.liveFrom)
    | none => false)))

/-- The bytes of a packet on the lane: header, CRC, payload (R295). -/
def pktBytes (p : Pkt) : List Byte := pktHeader p ++ leBytes 4 p.crc ++ p.payload

/-- A ring record (R593), of `n` bytes. -/
def holdRecord (s : State) (p : Pkt) (n : Nat) : List Byte :=
  padTo n (leBytes 2 (n / 64) ++ leBytes 2 0 ++ leBytes 4 s.hld.seq ++ leBytes 8 (ns0 s) ++ pktBytes p)

/-- A record dropped because it would overtake RDPTR (R593). -/
def holdDrop (s : State) : State :=
  let s1 := bump { s with hld := { s.hld with lost := s.hld.lost + 1, dropRun := true } } F.RCV_HOLD_LOST_LOST 1
  if s.hld.dropRun then s1 else report F.RCV_ERR_HOLD_FULL 0x130E ADVISE 0 s1

/-- A packet is written to the ring in region 2 (R592, R593). -/
def holdWrite (p : Pkt) (s : State) : State :=
  let p1 := { p with crc := pktCrc p }
  let size := regionSize s 2
  let n := (48 + p.payload.length + 63) / 64 * 64
  let w := get s F.RCV_HOLD_WRPTR_WRPTR
  let at' := if size < w + n then 0 else w
  let used := (w + size - get s F.RCV_HOLD_RDPTR_RDPTR) % max 1 size
  let need := if size < w + n then size - w + n else n
  if size ≤ used + need then holdDrop s
  else
    let e := (at', n, s.hld.seq, ns0 s, s.mmp.nextXfer)
    let s1 := memRequest .holdover 21 2 true (regionStart s 2 + at') n (holdRecord s p1 n)
      { s with hld := { s.hld with seq := (s.hld.seq + 1) % 2 ^ 32, dropRun := false, entries := s.hld.entries ++ [e] } }
    set s1 F.RCV_HOLD_WRPTR_WRPTR (at' + n)

/-! Sending. -/

/-- A packet to the fleet manager (R297). -/
def sendFm (type flags d n : Nat) (bs : List Byte) (s : State) : State :=
  sendPkt (mkPkt s type 0 flags d n 0xFFFF bs) 7 (get s F.CRV_CTL_FM_INDEX) none false s

/-- A packet to a parent: on the fabric, or in holdover to the ring with a confirmed verdict to the fleet manager while lane
0 is up (R592). `n` is the epoch whose traffic it belongs to, if it belongs to one. -/
def sendParent (dst : Nat × Nat × Nat) (type flags d epoch : Nat) (n : Option Nat) (bs : List Byte) (s : State) : State :=
  let p := mkPkt s type (classVc s (classOf type flags false)) flags d epoch dst.2.2 bs
  if dst.1 ≠ 7 ∧ holdsUp s d n then
    let s1 := holdWrite p s
    if type = 0x04 ∧ flags / 2 % 2 = 1 ∧ (get s F.FBP_STATUS_LANE_UP).testBit 0 then sendFm type flags d epoch bs s1 else s1
  else sendPkt p dst.1 dst.2.1 none false s

/-- A packet of epoch `n` to the parent of that epoch, routed as epoch `via` (R215, R292). -/
def sendUp (type flags d n via : Nat) (bs : List Byte) (s : State) : State :=
  match parentFor s d via with
  | none => s
  | some dst => sendParent dst type flags d n (some n) bs s

/-- The largest payload towards the parent: 4,096 bytes, 4,048 in holdover (R299, R592). -/
def upCap (s : State) (d n : Nat) : Nat := if holdsUp s d (some n) then 4048 else 4096

/-! JOIN and DETOUR (R294, R298). -/

/-- The share of epochs that a route sends to a parent. -/
def shareOf (r : Option Route) (i : Nat) : Nat :=
  match r with
  | none => 0
  | some r => (if r.entry.prim = i then 100 - shareNow r else 0) + (if r.entry.sec = i then shareNow r else 0)

/-- This instance's child bit at a parent. -/
def bitAt (r : Route) (i : Nat) : Nat := if r.entry.prim = i then r.entry.bitP else r.entry.bitS

/-- A JOIN payload: subject index and level, DESCEND. -/
def joinBytes (idx lvl : Nat) (descend : Bool) : List Byte :=
  leBytes 4 (idx % 2 ^ 24 + 2 ^ 24 * (lvl % 8) + (if descend then 2 ^ 27 else 0)) ++ leBytes 4 0

/-- A DETOUR payload: start epoch, share routed away, this child's index. -/
def detourBytes (s : State) (start share : Nat) : List Byte :=
  leBytes 6 start ++ leBytes 1 share ++ leBytes 1 0 ++ leBytes 4 (index s) ++ leBytes 4 0

/-- JOIN to a parent that gains epochs, DETOUR to one that loses some (R294). -/
def tellParent (d : Nat) (old : Option Route) (new : Route) (s : State) (i : Nat) : State :=
  let a := shareOf old i
  let b := shareOf (some new) i
  if i = noParent then s
  else if a < b then sendParent (level s + 1, i, bitAt new i) 0x06 0 d 0 (some new.start) (joinBytes (index s) (level s) false) s
  else if b < a then
    let bit := match old with | some r => bitAt r i | none => 0
    sendParent (level s + 1, i, bit) 0x07 0 d 0 (some new.start) (detourBytes s new.start (100 - b)) s
  else s

/-- The parents that two routes name. -/
def parentsOf (old : Option Route) (new : Route) : List Nat :=
  ([new.entry.prim, new.entry.sec] ++ (match old with | some r => [r.entry.prim, r.entry.sec] | none => [])).dedup

/-- The instance takes part in a domain: a die by a schedule of its own, a reducer by a slot. -/
def takesPart (s : State) (d : Nat) : Bool :=
  if level s = 0 then (domSched s d).isSome else (liveSlot s d).isSome

/-- Tells one route of a domain that is not told yet, oldest first. -/
def tellOldest (d : Nat) (s : State) : Nat → State
  | 0 => s
  | fuel + 1 =>
    match (routesOf s d).reverse.find? fun r => !r.told with
    | none => s
    | some r =>
      let old := (routesOf s d).find? fun o => o.told && decide (o.start ≤ r.start) && o != r
      let s1 := (parentsOf old r).foldl (tellParent d old r) s
      let rs := (routesOf s d).map fun o => if o = r then { o with told := true } else o
      tellOldest d (setCrv { s1.crv with routes := store d rs s1.crv.routes } s1) fuel

/-- Every change of route that is not told yet is told (R294, R727), while the Caravan sends. -/
def tellRoutes (s : State) : State :=
  if !on s F.CRV_CTL_EN || inReset s 3 then s
  else (s.crv.routes.map Prod.fst).foldl (fun s d =>
    if takesPart s d then tellOldest d s (routesOf s d).length else s) s

/-- A route takes effect with the next epoch of its domain to begin (R51, R294). -/
def pushRoute (d : Nat) (entry : Sign) (mode : Nat) (s : State) : State :=
  let r : Route := { start := nextEpoch s d, entry, mode, told := false }
  let rs := (routesOf s d).filter fun o => decide (o.start < r.start) || o.told
  tellRoutes (setCrv { s.crv with routes := store d (r :: rs) s.crv.routes } s)

/-- The entry and mode of a domain that were last set. -/
def lastRoute (s : State) (d : Nat) : Option Route := (routesOf s d).head?

/-- A change of the route mode of a domain, counted and recorded (R328). -/
def setMode (d mode : Nat) (s : State) : State :=
  match lastRoute s d with
  | none => s
  | some r =>
    if r.mode = mode then s
    else note 0x0A0C INFO (mode + 256 * shareNow { r with mode := mode }) (prod 170 1 (pushRoute d r.entry mode s))

/-- A SIGNPOST entry of a domain takes effect (R51, R291, R293): one that takes the secondary parent away returns the
domain to PRIMARY. -/
def setSign (e : Sign) (s : State) : State :=
  match lastRoute s e.domain with
  | none => pushRoute e.domain e 0 s
  | some r =>
    if r.entry = e then s
    else if e.sec = noParent ∧ r.mode ≠ 0 then
      note 0x0A0C INFO 0 (prod 170 1 (pushRoute e.domain e 0 s))
    else pushRoute e.domain e r.mode s

end Sys2Proof.Machine
end

