-- ==== Sys2Proof/Machine/Caravan.lean ====
section
/-!
DEFINITION. The Caravan (R286 to R333, R343 to R346, R375 to R377): domain slots and their child tables, epochs at a reducer,
provisional and confirmed results, the Provisional Window, coarsening, and the sample of a die.
-/
namespace Sys2Proof.Machine

/-! Slots and the registers of the selected slot. -/

def putSlot (k : Nat) (v : CrvSlot) (s : State) : State := setCrv { s.crv with slots := store k v s.crv.slots } s

/-- The mode a domain's route was last set to, and its share (CRV_ROUTE). -/
def routeWord (s : State) (v : CrvSlot) : Nat :=
  if v.state = 0 then 0
  else match lastRoute s v.domain with
    | none => 0
    | some r => shareNow r * 256 + r.mode

/-- The COARSENs that a slot has sent, or those its domain has applied, newest first (CRV_COARSE_STATUS). -/
def coarsens (s : State) (v : CrvSlot) : List Coarse :=
  if v.sent.isEmpty then (look v.domain s.crv.coarse).getD [] else v.sent

def coarseWord (s : State) (v : CrvSlot) : Nat :=
  match (if v.state = 0 then [] else coarsens s v) with
  | [] => 0
  | c :: _ => c.n0 * 2 ^ 16 + min 255 ((List.range 256).filter fun i => c.mask.testBit i).length * 2 ^ 8
      + (if c.sketches then 8 else 0) + c.c

/-- The child table entry of a bit. -/
def kidAt (v : CrvSlot) (b : Nat) : Option Child := v.kids.find? fun k => k.bit == b
def putKid (k : Child) (v : CrvSlot) : CrvSlot :=
  { v with kids := sortBy Child.bit (k :: v.kids.filter fun j => j.bit != k.bit) }
def childWord (c : Child) : Nat :=
  c.index + (if c.expected then 2 ^ 24 else 0) + (if c.joined then 2 ^ 25 else 0) + (if c.adopted then 2 ^ 26 else 0)

/-- The registers of the slot in CRV_SLOT_SEL, the count of slots, and the epoch of CRV_PW_SEL show the slots as they are. -/
def showSlot (s : State) : State :=
  let v := slotAt s (get s F.CRV_SLOT_SEL_SLOT)
  let kid := (kidAt v (get s F.CRV_CHILD_ADDR_BIT)).getD { bit := 0 }
  let w (f : Field) (n : Nat) (s : State) : State := wr s f.addr (BitVec.ofNat 64 n)
  let info := if v.state = 0 then 0
    else v.domain * 2 ^ 44 + v.state * 2 ^ 40 + (v.kids.filter Child.expected).length
  let ep := match v.latest with | some (n, p) => n + p * 2 ^ 48 | none => 0
  let s1 := w F.CRV_COARSE_STATUS_EXP (coarseWord s v) (w F.CRV_ROUTE_MODE (routeWord s v)
    (w F.CRV_CHILD_DATA_INDEX (if v.state = 0 then 0 else childWord kid)
      (w F.CRV_SLOT_TIMING_DEADLINE v.timing.toNat (w F.CRV_SLOT_EPOCH_EPOCH ep (w F.CRV_SLOT_INFO_STATE info s)))))
  let s2 := set s1 F.CRV_STATUS_SLOTS_ACTIVE (s.crv.slots.filter fun e => e.2.state != 0).length
  let s3 := set s2 F.CRV_STATUS_DESC_USED s.crv.desc.length
  set s3 F.CRV_PW_SEL_EPOCH (slotAt s (get s F.CRV_PW_SEL_SLOT)).view.1

/-- A slot changes state: record 0x0A0D (R346). -/
def slotState (k st : Nat) (s : State) : State :=
  note 0x0A0D INFO (k + 2 ^ 16 * st) (putSlot k { slotAt s k with state := st } s)

/-! The Provisional Window (R343 to R345). -/

/-- Bytes 16 to 63 of an entry, its kind and the entry written at its end. -/
def pwBody (res : Option Result) (v : List Byte) : List Byte :=
  match res with
  | some (.agg c op _ _ _ _ _) => padTo 48 (leBytes 1 c ++ leBytes 1 op ++ leBytes 2 (256 * c) ++ leBytes 2 256)
  | some (.sketch id _ _ k) => padTo 48 (leBytes 2 id ++ leBytes 8 (sketchTotal k))
  | none => padTo 48 v
def pwKind (res : Option Result) : Nat :=
  match res with
  | some (.agg _ _ _ _ _ _ _) => 1
  | none => 2
  | some (.sketch _ _ _ _) => 3

/-- An entry of state `st` is written at a ring position: its generation grows by 2 (R345). -/
def pwPut (pos st slot epoch present : Nat) (res : Option Result) (v : List Byte) (s : State) : State :=
  let gen := ((look pos s.crv.pw).map fun e => leAt e 7 1).getD 0
  let e := leBytes 6 epoch ++ leBytes 1 st ++ leBytes 1 (gen + 2) ++ leBytes 4 ((slotAt s slot).domain + 2 ^ 20 * slot)
    ++ leBytes 1 (pwKind res) ++ leBytes 1 (level s) ++ leBytes 2 present ++ pwBody res v
  setCrv { s.crv with pw := store pos e s.crv.pw } s

/-- An entry is appended at CRV_PW_HEAD (R344). -/
def pwAppend (st slot epoch present : Nat) (res : Option Result) (v : List Byte) (s : State) : State :=
  let n := s.crv.pwTotal
  let s1 := pwPut (n % 4096) st slot epoch present res v s
  let s2 := set (setCrv { s1.crv with pwTotal := n + 1 } s1) F.CRV_PW_HEAD_NEXT (n + 1)
  if (n + 1) % 4096 = 0 then bump s2 F.CRV_PW_HEAD_WRAPS 1 else s2

/-- The state of a provisional entry changes (R319, R344): in place, or as a new entry if the ring has overwritten it. -/
def pwMark (st slot epoch : Nat) (r : PwRef) (s : State) : State :=
  if s.crv.pwTotal ≤ r.n + 4096 then pwPut (r.n % 4096) st slot epoch r.present r.result r.verdict s
  else pwAppend st slot epoch r.present r.result r.verdict s

/-- A provisional entry becomes CONFIRMED, or WITHDRAWN with record 0x0A03 (R317, R319). -/
def pwSettle (slot epoch : Nat) (same : Bool) (r : PwRef) (s : State) : State :=
  if same then pwMark 2 slot epoch r s
  else note 0x0A03 WITHDRAWN (epoch % 2 ^ 48 + 2 ^ 48 * (r.n % 4096)) (prod 167 1 (pwMark 3 slot epoch r s))

/-- The views take the values of a published class (R345). -/
def viewAdd (slot epoch : Nat) (res : Result) (s : State) : State :=
  let v := slotAt s slot
  let old := if v.view.1 = epoch then v.view.2 else []
  let vals := match res with
    | .agg _ op _ _ _ ents _ => ents.map fun e =>
        (e.1, (e.2.headD (0, 0)).1, if op = 3 ∨ op = 5 ∨ op = 8 ∨ op = 9 then (e.2.headD (0, 0)).2 else 0)
    | .sketch _ _ _ _ => []
  putSlot slot { v with view := (epoch, old ++ vals) } s

/-! Coarsening (R325 to R327). -/

/-- The COARSEN in effect for epoch `n`. -/
def coarseAt (l : List Coarse) (n : Nat) : Coarse :=
  (l.find? fun c => decide (c.n0 ≤ n)).getD { c := 0, n0 := 0, sketches := false, mask := 0 }

/-- A COARSEN joins a list, given the next epoch to begin (R326). -/
def addCoarse (next : Nat) (c : Coarse) (l : List Coarse) : List Coarse :=
  let up (e : Nat) : Nat := (next + 2 ^ e - 1) / 2 ^ e * 2 ^ e
  let prev := (l.head?.map Coarse.c).getD 0
  let start := if c.c = 0 then (if prev = 0 then max c.n0 next else up prev) else if c.n0 < next then up c.c else c.n0
  { c with n0 := start } :: l.filter fun o => decide (o.n0 < start)

/-- What coarsens a slot's results of epoch `n`: the larger exponent of what it sent and what it applied, the classes of
either. -/
def slotCoarse (s : State) (v : CrvSlot) (n : Nat) : Coarse :=
  let a := coarseAt v.sent n
  let b := coarseAt ((look v.domain s.crv.coarse).getD []) n
  { c := max a.c b.c, n0 := 0, sketches := (a.c != 0 && a.sketches) || (b.c != 0 && b.sketches),
    mask := (if a.c = 0 then 0 else a.mask) ||| (if b.c = 0 then 0 else b.mask) }

/-- Epoch `n` ends a group of 2^c epochs (R326). -/
def groupEnds (c n : Nat) : Bool := (n + 1) % 2 ^ c == 0

/-! Epochs of a slot. -/

/-- The parts of a payload with the epoch, the child bit and the source. -/
abbrev Tagged := Nat × Nat × Nat × Part

/-- The contributions of tagged parts, by child. -/
def contribsOf (l : List Tagged) : List Contrib :=
  (sortBy id (l.map fun e => e.2.1).dedup).map fun b =>
    { bit := b, source := ((l.find? fun e => e.2.1 == b).map fun e => e.2.2.1).getD 0,
      parts := (l.filter fun e => e.2.1 == b).map fun e => (e.1, e.2.2.2) }

/-- A delta part cut to one class; other parts as they are. -/
def cutPart (c : Nat) : Part → Part
  | .delta f g fl sp vals =>
    let lo := max f (256 * c)
    .delta lo ((min (f + 16 * g) (256 * c + 256) - lo) / 16) fl sp (vals.filter fun e => e.1 / 256 == c)
  | p => p

/-- What of a part is held for its group: its coarsened classes, and sketches. -/
def heldParts (k : Coarse) (p : Part) : List Part :=
  match p with
  | .sketch _ _ _ _ _ _ => if k.sketches then [p] else []
  | .verdict _ => []
  | _ => ((List.range 256).filter fun c => k.mask.testBit c && touches c p).map fun c => cutPart c p

def epochAt (v : CrvSlot) (n : Nat) : Option EpSt := v.epochs.find? fun e => e.n == n
def putEpoch (e : EpSt) (v : CrvSlot) : CrvSlot :=
  { v with epochs := sortBy EpSt.n (e :: v.epochs.filter fun o => o.n != e.n) }

/-- Epoch `n` of a slot, opened under the timing in effect (R307). -/
def openEpoch (v : CrvSlot) (n : Nat) : EpSt := (epochAt v n).getD { n, timing := v.timing }

/-- An epoch that begins is opened in its domain's slot, so that it keeps the timing in effect then (CRV_SLOT_TIMING). -/
def beginEpoch (d n : Nat) (s : State) : State :=
  if level s = 0 then s
  else match liveSlot s d with
    | none => s
    | some k =>
      let v := slotAt s k
      if v.done.contains n then s else putSlot k (putEpoch (openEpoch v n) v) s

def kidEpOf (e : EpSt) (b : Nat) : Option KidEp := e.kids.find? fun k => k.bit == b
def putKidEp (k : KidEp) (e : EpSt) : EpSt := { e with kids := sortBy KidEp.bit (k :: e.kids.filter fun o => o.bit != k.bit) }

/-- A DETOUR takes epoch `n` away (R294, R298). -/
def detoured (c : Child) (n : Nat) : Bool := c.detours.any fun d => decide (d.1 ≤ n) && (decide (100 ≤ d.2) || splitTo n d.2)

/-- The expected set of epoch `n` (R306, R330). -/
def expectedKids (v : CrvSlot) (n : Nat) : List Child :=
  v.kids.filter fun c => c.expected && !detoured c n && (match c.final with | some f => decide (n ≤ f) | none => true)

/-- The children present in an epoch. -/
def presentBits (e : EpSt) : List Nat := (e.kids.filter KidEp.released).map KidEp.bit

/-- Confirmed parts of the present children; in a provisional result also the provisional ones of children that are not
(R320). -/
def epochParts (prov : Bool) (e : EpSt) : List Tagged :=
  e.kids.flatMap fun k =>
    (if k.released then k.conf else if prov then k.prov else []).map fun p => (e.n, k.bit, k.source, p)

/-- Own sketches of a domain join a reducer's result as a contribution beside its children (R365). -/
def ownSketchParts (s : State) (d n : Nat) : List Tagged :=
  (s.crv.sketches.filter fun e => e.1 == d).map fun e => (n, 1024, index s, .sketch e.2.1 0 64 0 1 e.2.2)

/-- The last epoch of a draining slot: the largest FINAL epoch, once every expected child has one (R330). -/
def lastEpoch (v : CrvSlot) : Option Nat :=
  let fs := (v.kids.filter Child.expected).map Child.final
  if v.state ≠ 2 ∨ fs.isEmpty ∨ fs.any Option.isNone then none
  else some ((fs.filterMap id).foldl max 0)

/-- Epoch `n` is the slot's last (R330). -/
def isLast (v : CrvSlot) (n : Nat) : Bool :=
  match lastEpoch v with
  | some f => decide (f ≤ n)
  | none => false

/-- The results of an epoch under the level rules, coarsened classes at the end of their group only (R301 to R305, R327). -/
def epochResults (s : State) (v : CrvSlot) (e : EpSt) (prov : Bool) : List Result :=
  let k := slotCoarse s v e.n
  let ends := groupEnds k.c e.n
  let now := epochParts prov e ++ ownSketchParts s v.domain e.n
  let all := v.group ++ now
  let fin := if isLast v e.n then 2 else 0
  let rules := s.crv.rules.filter fun r => r.domain == v.domain
  let ok (r : Rule) : Bool := !e.dropped.contains (if r.op = 10 then 256 + r.cls else r.cls)
  let aggs := (rules.filter fun r => r.op != 10 && r.op != 0 && ok r).filterMap fun r =>
    let coarse := k.c != 0 && k.mask.testBit r.cls
    if coarse && !ends then none
    else
      let res := reduceClass r (contribsOf (if coarse || k.c == 0 then all else now)) (if coarse then 2 ^ k.c else 1)
        (fin + if coarse then 4 else 0)
      match res with
      | .agg _ _ _ _ _ [] _ => none
      | _ => some res
  let sks := (rules.filter fun r => r.op == 10 && ok r).flatMap fun r =>
    let coarse := k.c != 0 && k.sketches
    if coarse && !ends then []
    else
      let ks := contribsOf (if coarse || k.c == 0 then all else now)
      ((sketchIds ks).filter fun i => i / 16 == r.cls).filterMap fun i =>
        reduceSketch r i ks (if coarse then 2 ^ k.c else 1) (if coarse then 4 else 0)
  aggs ++ sks

/-! Detectors that wait for a result (R430). -/

def nDets (s : State) : Nat := if pers s = 1 then 16 else 64

/-- The detectors in force on a slot, or at L0 on a schedule: none while CALC is fenced (R567). -/
def detsOn (s : State) (k : Nat) (prov : Bool) : List Nat :=
  if inReset s 1 || fenced s 1 || !on s F.DET_CTL_EN then []
  else (List.range (nDets s)).filter fun d =>
    on s (F.DET_D_CFG_EN d) && get s (F.DET_D_CFG_SLOT d) == k && (!prov || on s (F.DET_D_CFG_ON_PROV d))

def detAt (s : State) (d : Nat) : DetSt := (look d s.det).getD {}
def putDet (d : Nat) (v : DetSt) (s : State) : State := { s with det := store d v s.det }

/-- A confirmed sketch of the epoch that a detector's capture is armed for waits for the next boundary (R440). `res` gives
the sketches of the slot or schedule `k`: ID, half resolution, sketch. -/
def captureRefs (k dom n : Nat) (res : List (Nat × Bool × Sketch)) (s : State) : State :=
  if inReset s 1 then s
  else (List.range (nDets s)).foldl (fun s d =>
    let v := detAt s d
    if v.arm ≠ some n ∨ get s (F.DET_D_CFG_SLOT d) ≠ k then s
    else match res.find? fun r => r.1 == get s (F.DET_D_CFG_INPUT d) with
      | none => s
      | some r => putDet d { v with arm := none, next := some (nextEpoch s dom, n, r.2.1, r.2.2) } s) s

/-- The sketches among results. -/
def resultSketches (res : List Result) : List (Nat × Bool × Sketch) :=
  res.filterMap fun r => match r with
    | .sketch id fl _ k => some (id, fl % 2 == 1, k)
    | _ => none

/-- B(n) of a domain on TB0, 0 without a schedule. -/
def boundaryOf (s : State) (d n : Nat) : Nat :=
  match domSched s d with
  | some k => boundary s k n
  | none => 0

/-- A result waits for the detectors of its slot. -/
def queueDue (k : Nat) (v : CrvSlot) (e : EpSt) (prov : Bool) (res : List Result) (s : State) : State :=
  let kids := (e.kids.filter fun c => c.released || (prov && !c.prov.isEmpty)).map fun c =>
    (c.bit, c.source, c.level, if c.released then c.conf else c.prov)
  let mk (d : Nat) : Due :=
    { det := d, slot := k, domain := v.domain, epoch := e.n, prov, kids, results := res,
      expected := (expectedKids v e.n).length, b0 := boundaryOf s v.domain e.n, b1 := boundaryOf s v.domain (e.n + 1) }
  { s with due := s.due ++ (detsOn s k prov).map mk }

/-! Verdicts. -/

/-- Record 0x0A04 of a confirmed verdict, with its Provisional Window entry; of one that has none the field is a free value (R319, R346, log 33). -/
def confirmNote (n : Nat) (pw : Option Nat) (s : State) : State :=
  match pw with
  | some p => note 0x0A04 ACT (n % 2 ^ 48 + 2 ^ 48 * (p % 4096)) s
  | none => note 0x0A04 ACT (n % 2 ^ 48 + 2 ^ 48 * openField 0 16 s) (tickFree s)

/-- The provisional entry of an epoch that holds a verdict. -/
def pwVerdict (refs : List PwRef) (v : List Byte) : Option Nat :=
  (refs.find? fun r => r.result.isNone && r.verdict == v).map PwRef.n

/-- The CLOSED payload that its selection completes (R321). -/
def closedBytes (flags span : Nat) : List Byte := leBytes 12 0 ++ leBytes 2 flags ++ leBytes 2 span

/-- A CLOSED leaves once no detector has still to evaluate its epoch; its provisional verdicts are then settled (R319,
R321). A top reducer sends none. -/
def closeOne (c : Closing) (s : State) : State :=
  let s1 := c.prov.foldl (fun s r => pwSettle c.slot c.epoch (c.verdicts.contains r.verdict) r s)
    (setCrv { s.crv with closing := s.crv.closing.erase c } s)
  match parentFor s1 c.domain c.route with
  | none => s1
  | some dst => if dst.1 = 7 then s1 else sendUp 0x05 fCLOSED c.domain c.epoch c.route (closedBytes c.flags c.span) s1

def closeReady (s : State) : State :=
  (s.crv.closing.filter fun c => !(s.due.any fun d => d.domain == c.domain && d.epoch == c.epoch && !d.prov)).foldl
    (fun s c => closeOne c s) s

/-! Publication, confirmation, loss (R309 to R320, R330). -/

def tPROV_MIN (e : EpSt) : Nat := bitsAt e.timing 16 11
def tQUORUM (e : EpSt) : Nat := bitsAt e.timing 32 11
def tPROV_UP (e : EpSt) : Bool := e.timing.getLsbD 0

/-- One provisional result is published: views, ring entry, record 0x0A01, counter 164 (R309, R345). -/
def publishOne (k n present : Nat) (r : State × List PwRef) (res : Result) : State × List PwRef :=
  let s1 := viewAdd k n res r.1
  let ref : PwRef := { n := s1.crv.pwTotal, result := some res, verdict := [], present }
  let s2 := pwAppend 1 k n present (some res) [] s1
  (note 0x0A01 PROV (n % 2 ^ 48 + 2 ^ 48 * k) (prod 164 1 s2), r.2 ++ [ref])

/-- One provisional verdict is published: ring entry, record 0x0A02, counter 164. -/
def publishVerdict (k n present : Nat) (r : State × List PwRef) (v : List Byte) : State × List PwRef :=
  let ref : PwRef := { n := r.1.crv.pwTotal, result := none, verdict := v, present }
  let s2 := pwAppend 1 k n present none v r.1
  (note 0x0A02 PROV (n % 2 ^ 48 + 2 ^ 48 * (ref.n % 4096)) (prod 164 1 s2), r.2 ++ [ref])

/-- The payloads of a result go up with flags (R296, R320, R326). -/
def sendResult (d n flags : Nat) (res : Result) (s : State) : State :=
  let (t, ps) := resultPayloads (upCap s d n) res
  let fl := flags ||| (if resultCoarse res then fCOARSE else 0)
  ps.foldl (fun s b => sendUp t fl d n n b s) s

def provVerdicts (e : EpSt) : List (List Byte) :=
  e.kids.flatMap fun k => k.prov.filterMap fun p => match p with | .verdict b => some b | _ => none
def confVerdicts (e : EpSt) : List (List Byte) :=
  e.kids.flatMap fun k => k.conf.filterMap fun p => match p with | .verdict b => some b | _ => none

/-- Epoch `n` of slot `k` is published provisionally, once (R309, R320). -/
def publish (k n : Nat) (s : State) : State :=
  let v := slotAt s k
  match epochAt v n with
  | none => s
  | some e =>
    if e.published || tPROV_MIN e == 0 then s
    else
      let res := epochResults s v e true
      let pr := (presentBits e).length
      let (s1, refs) := res.foldl (publishOne k n pr) (s, [])
      let (s2, refs2) := (provVerdicts e).foldl (publishVerdict k n pr) (s1, refs)
      let v2 := slotAt s2 k
      let s3 := putSlot k (putEpoch { e with published := true, pw := e.pw ++ refs2 } v2) s2
      let s4 := if tPROV_UP e then
          (provVerdicts e).foldl (fun s b => sendUp 0x04 fPROV v.domain n n b s)
            (res.foldl (fun s r => sendResult v.domain n fPROV r s) s3)
        else s3
      queueDue k v2 e true res s4

/-- MISSING entries (R297): level and index. -/
def missingPayloads : Nat → List (Nat × Nat) → List (List Byte)
  | 0, _ => []
  | fuel + 1, l =>
    if l.isEmpty then []
    else (l.take 1012).flatMap (fun e => leBytes 4 (e.2 % 2 ^ 24 + 2 ^ 24 * e.1)) :: missingPayloads fuel (l.drop 1012)

/-- The flags of a reducer's CLOSED: PARTIAL, RESET, LATE_CUT, HOLDOVER and STRETCH of its present children, and FINAL for its
last epoch. -/
def closedFlags (v : CrvSlot) (e : EpSt) : Nat :=
  (e.kids.foldl (fun m k => if k.released then m ||| ((k.closed.map ClosedSig.flags).getD 0 &&& 0x5D) else m) 0)
    ||| (if isLast v e.n then sFINAL else 0)

/-- A confirmed or lost epoch leaves the slot; its provisional evaluations end. -/
def dropEpoch (k n : Nat) (s : State) : State :=
  let v := slotAt s k
  putSlot k { v with epochs := v.epochs.filter (fun e => e.n != n), done := n :: v.done }
    { s with due := s.due.filter fun d => !(d.slot == k && d.epoch == n && d.prov && d.domain == v.domain) }

/-- A slot whose last epoch is over is DRAINED (R330). -/
def drainIfLast (k : Nat) (last : Bool) (s : State) : State := if last && (slotAt s k).state == 2 then slotState k 3 s else s

/-- The result differs from the one sent up with PROV (R320). -/
def wdrn (e : EpSt) (r : Result) : Nat :=
  if tPROV_UP e && e.pw.any (fun p => match p.result with
    | some q => resultKey q == resultKey r && !sameResult q r
    | none => false) then fWDRN else 0

/-- The parts held for coarsened classes after epoch `n` (R327). -/
def nextGroup (s : State) (v : CrvSlot) (e : EpSt) : List Tagged :=
  let k := slotCoarse s v e.n
  if groupEnds k.c e.n then []
  else v.group ++ (epochParts false e ++ ownSketchParts s v.domain e.n).flatMap fun t =>
    (heldParts k t.2.2.2).map fun p => (t.1, t.2.1, t.2.2.1, p)

/-- Epoch `n` of slot `k` is confirmed (R310, R316, R319, R320, R330): results and MISSING go up, provisional entries are
settled, the detectors run. -/
def confirm (k n : Nat) (full : Bool) (s : State) : State :=
  let v := slotAt s k
  match epochAt v n with
  | none => s
  | some e =>
    let d := v.domain
    let res := epochResults s v e false
    let last := isLast v n
    let present := presentBits e
    let absent := (expectedKids v n).filter fun c => !present.contains c.bit
    let s1 := res.foldl (fun s r => sendResult d n (fCONF ||| wdrn e r) r s) s
    let miss := absent.map (fun c => (level s - 1, c.index)) ++ e.missing
    let s2 := (missingPayloads (miss.length + 1) miss).foldl (fun s b => sendUp 0x08 0 d n n b s) s1
    let s3 := if absent.isEmpty then s2
      else note 0x0A05 ADVISE (absent.length % 2 ^ 16 + 2 ^ 16 * (absent.head?.map Child.index).getD 0) s2
    let s4 := prod (if full then 165 else 166) 1 s3
    let s5 := e.pw.foldl (fun s r => match r.result with
      | some q => pwSettle k n (res.any (sameResult q)) r s
      | none => s) s4
    let v5 := slotAt s5 k
    let s6 := putSlot k { v5 with latest := some (n, present.length), results := res, group := nextGroup s v e } s5
    let c : Closing :=
      { domain := d, epoch := n, route := n, flags := closedFlags v e, span := 1, slot := k,
        prov := e.pw.filter fun r => r.result.isNone, verdicts := confVerdicts e }
    let s7 := setCrv { s6.crv with sketches := s6.crv.sketches.filter (fun x => x.1 != d), closing := s6.crv.closing ++ [c] } s6
    let s8 := captureRefs k d n (resultSketches res) s7
    closeReady (drainIfLast k last (queueDue k v e false res (dropEpoch k n s8)))

/-- Epoch `n` of slot `k` is lost (R311). -/
def loseEpoch (k n : Nat) (s : State) : State :=
  let v := slotAt s k
  match epochAt v n with
  | none => s
  | some e =>
    let s1 := e.pw.foldl (fun s r => pwSettle k n false r s) s
    let s2 := report F.CRV_ERR_LOST 0x0A06 FAULT (n % 2 ^ 48 + 2 ^ 48 * ((presentBits e).length % 2 ^ 16)) s1
    let v2 := slotAt s2 k
    let s3 := if groupEnds (slotCoarse s v n).c n then putSlot k { v2 with group := [] } s2 else s2
    drainIfLast k (isLast v n) (dropEpoch k n s3)

/-- An epoch with its full set is confirmed; one with PROV_MIN children present is published (R309, R310). -/
def progress (k : Nat) (s : State) (n : Nat) : State :=
  let v := slotAt s k
  match epochAt v n with
  | none => s
  | some e =>
    let ex := (expectedKids v n).map Child.bit
    let pr := presentBits e
    if (!ex.isEmpty || !pr.isEmpty) && ex.all pr.contains then confirm k n true s
    else if tPROV_MIN e ≠ 0 ∧ tPROV_MIN e ≤ pr.length then publish k n s
    else s

/-- Every open epoch of a slot, after its expected set has changed (R306, R310). -/
def recheck (k : Nat) (s : State) : State := ((slotAt s k).epochs.map EpSt.n).foldl (progress k) s

/-! Release of CLOSED signals (R321 to R324). -/

/-- The stream of a source is accepted through `last` (R322). -/
def acceptedThrough (s : State) (src lvl vc last : Nat) : Bool :=
  if !on s F.FBP_CTL_SEQ_CHECK then true
  else match s.fbp.rxSeq.find? fun x => x.1 == (src, lvl, vc) with
    | some (_, e) => laterMod 32 e last || (last == 2 ^ 32 - 1 && e == 1)
    | none => false

def releasable (s : State) (k : KidEp) (c : ClosedSig) : Bool :=
  decide (c.n0 ≤ k.got0) && decide (c.n1 ≤ k.got1) && (c.n0 == 0 || acceptedThrough s k.source k.level 0 c.last0)
    && (c.n1 == 0 || acceptedThrough s k.source k.level 1 c.last1)

/-- A child is present, with no values, in an earlier epoch that its sample spans (R324). -/
def markSpanned (k bit src lvl : Nat) (s : State) (m : Nat) : State :=
  let v := slotAt s k
  if v.done.contains m then s
  else
    let e := openEpoch v m
    let c := (kidEpOf e bit).getD { bit, source := src, level := lvl }
    if c.released then s
    else progress k (putSlot k (putEpoch (putKidEp { c with conf := [], released := true } e) v) s) m

/-- A held CLOSED is released: the child is present (R322, R324). -/
def releaseOne (k n : Nat) (c : KidEp) (g : ClosedSig) (s : State) : State :=
  let v := slotAt s k
  let e := openEpoch v n
  let s1 := putSlot k (putEpoch (putKidEp { c with released := true } e) v) s
  let s2 := if g.flags.testBit 2 then
      setCrv { s1.crv with cache := s1.crv.cache.filter fun t => !(t.level == c.level && t.index == c.source) } s1
    else s1
  let s3 := ((List.range (max 1 g.span)).filterMap fun i => if 0 < i ∧ i ≤ n then some (n - i) else none).reverse.foldl
    (markSpanned k c.bit c.source c.level) s2
  progress k s3 n

/-- Every CLOSED that can be released, in every slot. -/
def releaseAll (s : State) : State :=
  (s.crv.slots.flatMap fun x => x.2.epochs.flatMap fun e => e.kids.filterMap fun c =>
    match c.closed with
    | some g => if !c.released && releasable s c g then some (x.1, e.n, c, g) else none
    | none => none).foldl (fun s x =>
      if (epochAt (slotAt s x.1) x.2.1).isSome then releaseOne x.1 x.2.1 x.2.2.1 x.2.2.2 s else s) s

/-! Reception from children. -/

/-- A child's FINAL epoch: the slot moves to DRAINING at the first one (R330). -/
def childFinal (k bit n : Nat) (s : State) : State :=
  let v := slotAt s k
  match kidAt v bit with
  | none => s
  | some c =>
    let s1 := putSlot k (putKid { c with final := some (c.final.getD n) } v) s
    if v.state = 1 then slotState k 2 s1 else s1

/-- The handling of an up-tree packet of a child of a live slot: the slot, the packet and the child. Nothing while the Caravan is
off, or for a child that is neither EXPECTED nor ADOPTED (R306, R332). -/
def fromChild (types : List Nat) (f : Nat → Pkt → Child → State → State) (s : State) : State :=
  match takePkt types s with
  | none => s
  | some (_, p, s1) =>
    if !on s1 F.CRV_CTL_EN then s1
    else match liveSlot s1 p.domain with
      | none => report F.CRV_ERR_NO_SLOT 0x0A09 ADVISE p.domain s1
      | some k =>
        match kidAt (slotAt s1 k) p.childBit with
        | none => s1
        | some c => if c.expected || c.adopted then showSlot (releaseAll (f k p c s1)) else s1

/-- The level rule for a part in a domain (R288, R290). -/
def ruleFor (s : State) (d key : Nat) : Option Rule :=
  s.crv.rules.find? fun r => r.domain == d && r.op != 0 && (if r.op = 10 then key == 256 + r.cls else key == r.cls)

/-- A part that cannot be derived into its rule drops its class or group for the epoch (R290). -/
def checkPart (k n : Nat) (p : Part) (s : State) : State :=
  let v := slotAt s k
  (partKeys p).foldl (fun s key =>
    match ruleFor s v.domain key with
    | none => s
    | some r =>
      let e := openEpoch (slotAt s k) n
      if derives r p || e.dropped.contains key then s
      else report F.CRV_ERR_RULE_MISMATCH 0x0A0A ADVISE (key % 256 + 256 * partOp p)
        (putSlot k (putEpoch { e with dropped := key :: e.dropped } (slotAt s k)) s)) s

/-- A contribution to an epoch that is over (R312). -/
def lateNote (c : Child) (n : Nat) (s : State) : State :=
  report F.CRV_ERR_LATE 0x0A08 ADVISE (c.index + 2 ^ 24 * (n % 2 ^ 40)) s

/-- A cached value of a die advances by a confirmed delta of the home domain (R337). -/
def cacheAdvance (p : Pkt) (parts : List Part) (s : State) : State :=
  if homeDomain s ≠ some p.domain then s
  else
    let add (t : TgaCache) : TgaCache :=
      if t.level = p.level ∧ t.index = p.source ∧ t.epoch < p.epoch then
        parts.foldl (fun t q => match q with
          | .delta f g _ _ vals => if f ≤ t.ctr ∧ t.ctr < f + 16 * g then
              { t with value := t.value + BitVec.ofNat 64 (valAt vals t.ctr), epoch := p.epoch } else t
          | _ => t) t
      else t
    setCrv { s.crv with cache := s.crv.cache.map add } s

/-- A DELTA, AGG, SKETCH, VERDICT or MISSING packet of a child (R302, R306, R310, R312, R320). -/
def dataPkt (k : Nat) (p : Pkt) (c : Child) (s : State) : State :=
  let v := slotAt s k
  let n := p.epoch
  let past := match c.final with | some f => decide (f < n) | none => false
  if past then s
  else if v.done.contains n then lateNote c n s
  else
    let parts := readParts p.type p.payload
    let e := openEpoch v n
    let q := (kidEpOf e c.bit).getD { bit := c.bit, source := p.source, level := p.level }
    if q.released then s
    else
      let q1 := if p.vc = 0 then { q with got0 := q.got0 + 1 } else { q with got1 := q.got1 + 1 }
      let isProv := p.flags % 2 == 1
      let q2 := if isProv then { q1 with prov := q1.prov ++ parts } else { q1 with conf := q1.conf ++ parts }
      let e1 := putKidEp q2 e
      let e2 := if p.type = 0x08 then { e1 with missing := e1.missing ++
          (List.range (p.payload.length / 4)).map fun i => (leAt p.payload (4 * i + 3) 1 % 8, leAt p.payload (4 * i) 3) } else e1
      let s1 := putSlot k (putEpoch e2 v) s
      let s2 := parts.foldl (fun s x => checkPart k n x s) s1
      let s3 := if parts.any partFinal && !isProv then childFinal k c.bit n s2 else s2
      if p.type = 0x01 then cacheAdvance p parts s3
      else if p.type = 0x04 && !isProv then
        parts.foldl (fun s x => match x with
          | .verdict b => sendUp 0x04 fCONF v.domain n n b (storeVerdict b (confirmNote n (pwVerdict e.pw b) s))
          | _ => s) s3
      else s3

/-- DELTA_RECEIVE (R302). -/
def execDeltaReceive (s : State) : Host.Outcome State Fault Refusal := .next (fromChild [0x01] dataPkt s)
/-- AGG_RECEIVE (R302). -/
def execAggReceive (s : State) : Host.Outcome State Fault Refusal := .next (fromChild [0x02] dataPkt s)
/-- SKETCH_RECEIVE (R304). -/
def execSketchReceive (s : State) : Host.Outcome State Fault Refusal := .next (fromChild [0x03] dataPkt s)
/-- VERDICT_RECEIVE (R319). -/
def execVerdictReceive (s : State) : Host.Outcome State Fault Refusal := .next (fromChild [0x04] dataPkt s)
/-- MISSING_RECEIVE (R310). -/
def execMissingReceive (s : State) : Host.Outcome State Fault Refusal := .next (fromChild [0x08] dataPkt s)

/-- A CLOSED of a child: held until its data is accepted; counter 168 when it came first (R312, R322, R330). -/
def closedPkt (k : Nat) (p : Pkt) (c : Child) (s : State) : State :=
  let v := slotAt s k
  let n := p.epoch
  let past := match c.final with | some f => decide (f < n) | none => false
  if past then s
  else if v.done.contains n then lateNote c n s
  else
    let b := p.payload
    let g : ClosedSig := { n0 := leAt b 0 2, last0 := leAt b 2 4, n1 := leAt b 6 2, last1 := leAt b 8 4, flags := leAt b 12 2,
                           span := leAt b 14 2 }
    let e := openEpoch v n
    let q := (kidEpOf e c.bit).getD { bit := c.bit, source := p.source, level := p.level }
    if q.released then s
    else
      let s1 := putSlot k (putEpoch (putKidEp { q with closed := some g } e) v) s
      let s2 := if g.flags.testBit 1 then childFinal k c.bit n s1 else s1
      if releasable s q g then s2 else prod 168 1 s2

/-- CLOSED_RECEIVE (R322). -/
def execClosedReceive (s : State) : Host.Outcome State Fault Refusal := .next (fromChild [0x05] closedPkt s)

/-- A DETOUR of a child (R294, R306). -/
def detourPkt (k : Nat) (p : Pkt) (c : Child) (s : State) : State :=
  let v := slotAt s k
  recheck k (putSlot k (putKid { c with detours := (leAt p.payload 0 6, leAt p.payload 6 1) :: c.detours } v) s)

/-- DETOUR_RECEIVE (R294). -/
def execDetourReceive (s : State) : Host.Outcome State Fault Refusal := .next (fromChild [0x07] detourPkt s)

/-! JOIN and the descendant table (R305 ff, R335). -/

/-- Entries of the descendant table. -/
def descCap (s : State) : Nat := if pers s = 1 then 0 else if pers s = 2 then 16 else 262144

/-- The home primary parent: index and child bit. -/
def homeParent (s : State) : Option (Nat × Nat) :=
  match homeDomain s with
  | none => none
  | some d => match routeAt s d (nextEpoch s d) with
    | none => none
    | some r => if r.entry.prim = noParent then none else some (r.entry.prim, r.entry.bitP)

/-- A subject joins or leaves beneath child bit `b` of the home domain (R335). -/
def recordDesc (lvl idx b : Nat) (leave : Bool) (s : State) : State :=
  let t := s.crv.desc.filter fun e => !(e.1 == lvl && e.2.1 == idx)
  if leave then setCrv { s.crv with desc := t } s
  else if descCap s ≤ t.length then report F.CRV_ERR_DESC_FULL 0x0A0E ADVISE idx s
  else setCrv { s.crv with desc := t ++ [(lvl, idx, b)] } s

/-- A JOIN (R298, R305, R335): JOINED, ADOPTED where the child is not EXPECTED; for the home domain the subject enters the
descendant table and the JOIN goes on with DESCEND. -/
def joinReceive (s : State) : State :=
  match takePkt [0x06] s with
  | none => s
  | some (_, p, s1) =>
    if !on s1 F.CRV_CTL_EN then s1
    else match liveSlot s1 p.domain with
      | none => report F.CRV_ERR_NO_SLOT 0x0A09 ADVISE p.domain s1
      | some k =>
        if 1023 < p.childBit then s1
        else
          let w := leAt p.payload 0 4
          let idx := w % 2 ^ 24
          let lvl := natBits w 24 3
          let descend := w.testBit 27
          let leave := w.testBit 28
          let v := slotAt s1 k
          let c := (kidAt v p.childBit).getD { bit := p.childBit }
          let c1 : Child := if leave then { c with joined := false, adopted := false }
            else { c with joined := true, adopted := c.adopted || !c.expected, index := if c.expected then c.index else idx,
                          detours := [] }
          let s2 := if descend then s1 else putSlot k (putKid c1 v) s1
          let s3 := if homeDomain s ≠ some p.domain then s2
            else
              let s3 := recordDesc lvl idx p.childBit leave s2
              match homeParent s3 with
              | none => s3
              | some (i, b) => sendParent (level s + 1, i, b) 0x06 0 p.domain 0 none
                  (leBytes 4 (w ||| 2 ^ 27) ++ leBytes 4 0) s3
          showSlot (recheck k s3)

/-- JOIN_RECEIVE (R305, R335). -/
def execJoinReceive (s : State) : Host.Outcome State Fault Refusal := .next (joinReceive s)

/-! Deadlines (R307, R309 to R311, R323). -/

/-- D(n) and G(n) of an epoch in ns of TB0 (R307); `none` without a schedule of the domain. -/
def deadlineOf (s : State) (v : CrvSlot) (e : EpSt) : Option (Nat × Nat) :=
  match domSched s v.domain with
  | none => none
  | some k =>
    let dn := boundary s k (e.n + 1) + bitsAt e.timing 56 8 * schedLen s k / 64
    some (dn, dn + bitsAt e.timing 48 8 * schedLen s k / 64)

/-- D(n) passes: an unpublished epoch is published (R309). -/
def epochDeadline (k n : Nat) (s : State) : State :=
  let v := slotAt s k
  if inReset s 3 then s
  else match epochAt v n with
    | none => s
    | some e => match deadlineOf s v e with
      | none => s
      | some (d, _) => showSlot (publish k n (reachTb0 (d * 2 ^ 48) s))

/-- EPOCH_DEADLINE (R309). -/
def execEpochDeadline (k n : Nat) (s : State) : Host.Outcome State Fault Refusal := .next (epochDeadline k n s)

/-- A CLOSED not released by G(n) is discarded (R323). -/
def overtake (v : CrvSlot) (s : State) (q : KidEp) : State :=
  match q.closed with
  | none => s
  | some g =>
    if q.released then s
    else report F.CRV_ERR_OVERTAKE_DROP 0x0A07 ADVISE
      (((kidAt v q.bit).map Child.index).getD 0 + 2 ^ 32 * (g.n0 + g.n1 - min (g.n0 + g.n1) (min q.got0 g.n0 + min q.got1 g.n1))) s

/-- G(n) passes: confirmed by quorum, or lost (R310, R311). -/
def epochGrace (k n : Nat) (s : State) : State :=
  let v := slotAt s k
  if inReset s 3 then s
  else match epochAt v n with
    | none => s
    | some e => match deadlineOf s v e with
      | none => s
      | some (_, g) =>
        let s1 := e.kids.foldl (overtake v) (reachTb0 (g * 2 ^ 48) s)
        showSlot (if tQUORUM e ≤ (presentBits e).length then confirm k n false s1 else loseEpoch k n s1)

/-- EPOCH_GRACE_END (R310). -/
def execEpochGraceEnd (k n : Nat) (s : State) : Host.Outcome State Fault Refusal := .next (epochGrace k n s)

/-! COARSEN (R325 to R328, R375 to R377). -/

/-- A COARSEN that arrives takes effect for the domain's own sending (R326, R327). -/
def coarsenReceive (s : State) : State :=
  match takePkt [0x10] s with
  | none => s
  | some (_, p, s1) =>
    let b := p.payload
    let c := leAt b 0 1
    if !on s1 F.CRV_CTL_EN || decide (7 < c) then s1
    else
      let k : Coarse := { c, n0 := leAt b 2 6, sketches := leAt b 1 1 % 2 == 1, mask := leAt b 8 32 }
      let l := addCoarse (nextEpoch s1 p.domain) k ((look p.domain s1.crv.coarse).getD [])
      let n0 := (l.head?.map Coarse.n0).getD 0
      showSlot (note 0x0A0B INFO (c + 256 * n0) (prod 169 1 (setCrv { s1.crv with coarse := store p.domain l s1.crv.coarse } s1)))

/-- COARSEN_RECEIVE (R326). -/
def execCoarsenReceive (s : State) : Host.Outcome State Fault Refusal := .next (coarsenReceive s)

/-- The class mask of INK_SAT_CLS0 to 3 (R375). -/
def satMask (s : State) : Nat := (List.range 4).foldl (fun m i => m + get s (F.INK_SAT_CLS_MASK i) * 2 ^ (64 * i)) 0

/-- A packet goes down to a child. -/
def sendChild (c : Child) (type d n : Nat) (bs : List Byte) (s : State) : State :=
  sendPkt (mkPkt s type 0 0 d n 0xFFFF bs) (level s - 1) c.index (some c.bit) false s

/-- A reducer sends its children a COARSEN of exponent `c` (R325, R327, R375). -/
def sendCoarsen (k c : Nat) (s : State) : State :=
  let v := slotAt s k
  let next := nextEpoch s v.domain
  let n0 := (next + 1 + 2 ^ c - 1) / 2 ^ c * 2 ^ c
  let m := satMask s
  let sk := on s F.INK_SAT_CTL_SKETCHES
  let bs := leBytes 1 c ++ leBytes 1 (if sk then 1 else 0) ++ leBytes 6 n0 ++ leBytes 32 m
  let s1 := (v.kids.filter fun x => x.expected || x.joined).foldl (fun s x => sendChild x 0x10 v.domain 0 bs s) s
  let s2 := putSlot k { slotAt s1 k with sent := addCoarse next { c, n0, sketches := sk, mask := m } v.sent, satRun := 0, calmRun := 0 } s1
  note 0x0A0B INFO (c + 256 * n0) (prod 169 1 s2)

/-- The exponent of the newest COARSEN of a slot. -/
def sentExp (v : CrvSlot) : Nat := (v.sent.head?.map Coarse.c).getD 0

/-- An epoch of a reducer's slot closes, saturated or not (R375, R377). -/
def saturation (k : Nat) (sat : Bool) (s : State) : State :=
  let v := slotAt s k
  let n := max 1 (get s F.INK_SAT_CTL_SAT_EPOCHS)
  let c := sentExp v
  let fresh := match v.sent.head? with
    | some o => decide (o.n0 < nextEpoch s v.domain)
    | none => true
  if sat then
    let run := if fresh then v.satRun + 1 else 0
    let s1 := putSlot k { v with satRun := run, calmRun := 0, saturated := v.saturated || decide (n ≤ run) } s
    if run < n then s1
    else
      let s2 := if v.saturated then s1 else note 0x0B06 INFO k s1
      if c < get s F.INK_SAT_CTL_MAX_EXP then sendCoarsen k (c + 1) s2 else s2
  else
    let run := v.calmRun + 1
    let s1 := putSlot k { v with satRun := 0, calmRun := run, saturated := v.saturated && decide (run < 4 * n) } s
    if run < 4 * n then s1
    else
      let s2 := if v.saturated then note 0x0B07 INFO k s1 else s1
      if 0 < c then sendCoarsen k (c - 1) s2 else s2

/-- A child at MAX_EXP with a slow CONF queue moves its slot to SPLIT, and back (R328, R376). -/
def splitMove (k delay : Nat) (s : State) : State :=
  let v := slotAt s k
  let n := max 1 (get s F.INK_SAT_CTL_SAT_EPOCHS)
  let lim := get s F.INK_SAT_CTL_SAT_DELAY * 1000
  let e := (coarseAt ((look v.domain s.crv.coarse).getD []) (nextEpoch s v.domain - 1)).c
  match lastRoute s v.domain with
  | none => s
  | some r =>
    if r.entry.sec = noParent then s
    else if r.mode = 0 then
      let run := if e = get s F.INK_SAT_CTL_MAX_EXP ∧ lim < delay then v.slowRun + 1 else 0
      if n ≤ run then setMode v.domain 1 (putSlot k { v with slowRun := 0, fastRun := 0, split := true } s)
      else putSlot k { v with slowRun := run } s
    else if r.mode = 1 && v.split then
      let run := if delay * 2 < lim then v.fastRun + 1 else 0
      if 4 * n ≤ run then setMode v.domain 0 (putSlot k { v with slowRun := 0, fastRun := 0, split := false } s)
      else putSlot k { v with fastRun := run } s
    else s

/-- An epoch of a slot closes: `full` is the largest share of it, in 1/65,536, for which a VC1 receive partition of a
downstream lane was full, `delay` the head delay of the CONF queue to the primary parent in ns. -/
def saturatedEpoch (k full delay : Nat) (s : State) : State :=
  let v := slotAt s k
  if inReset s 3 || !(v.state == 1 || v.state == 2) then s
  else
    let s1 := if level s = 0 then s else saturation k (decide (get s F.INK_SAT_CTL_SAT_FULL * 256 < full)) s
    showSlot (splitMove k delay s1)

/-- SATURATED_EPOCH_CLOSE (R375 to R377). -/
def execSaturatedEpochClose (k full delay : Nat) (s : State) : Host.Outcome State Fault Refusal :=
  .next (saturatedEpoch k full delay s)

/-! The sample of a die (R297, R299, R321, R326). -/

/-- A group of 16 values coded by R219. -/
def codeGroup (v : Nat → Nat) : List Byte :=
  bitmap (fun j => v j != 0) ++ (List.range 16).flatMap fun j => if v j = 0 then [] else leb128 10 (v j)

/-- The first counters of the groups of a cut. -/
def cutGroups (c : Cut) : List Nat :=
  (List.range 16).map (16 * ·) ++ (List.range ((c.last - c.first + 1) / 16)).map fun g => c.first + 16 * g

def heldOf (s : State) (d : Nat) : List (Nat × Nat) := (look d s.crv.held).getD []

/-- A cut's deltas of one group as part values. -/
def cutVals (c : Cut) (i : Nat) : List (Nat × Nat) :=
  (List.range 16).filterMap fun j => let x := delta c.prev c.cur (i + j); if x = 0 then none else some (i + j, x)

/-- The parts of an own sample, for the detectors of a die (R430). -/
def samplePart (f g : Nat) (c : Cut) : Part :=
  .delta f g c.flags c.span ((List.range g).flatMap fun j => cutVals c (f + 16 * j))

/-- A die hands its sample to the Innkeeper (R295 to R299, R326): DELTA packets of the classes not coarsened, those of coarsened
classes at the end of their group, sketches likewise. -/
def sendSample (c : Cut) (s : State) : State :=
  let d := c.domain
  let n := c.epoch
  let via := n + 1 - c.span
  let k := coarseAt ((look d s.crv.coarse).getD []) n
  let cap := upCap s d n
  let masked (i : Nat) : Bool := k.c != 0 && k.mask.testBit (i / 256)
  let ends := groupEnds k.c n
  let held := heldOf s d
  let hold := (cutGroups c).foldl (fun h i => if masked i then
      (cutVals c i).foldl (fun h e => store e.1 ((valAt h e.1 + e.2) % 2 ^ 64) h) h else h) held
  let late (i : Nat) : Bool := (masked i && ends) || (!masked i && (List.range 16).any fun j => valAt held (i + j) != 0)
  let live := ((cutGroups c).filter fun i => !masked i && !late i).map fun i => (i, deltaGroup c.prev c.cur i)
  let group := ((cutGroups c).filter late).map fun i =>
    (i, codeGroup fun j => if masked i then valAt hold (i + j) else (valAt held (i + j) + delta c.prev c.cur (i + j)) % 2 ^ 64)
  let s1 := (packDelta cap live).foldl (fun s b => sendUp 0x01 fCONF d n via (deltaPacket b c.flags c.span) s) s
  let sp := if k.c = 0 then c.span else 2 ^ k.c
  let s2 := (packDelta cap group).foldl (fun s b =>
    sendUp 0x01 (fCONF ||| fCOARSE) d n via (deltaPacket b (c.flags ||| sSPAN) sp) s) s1
  let left := hold.filter fun e => masked e.1 && !ends
  let s3 := setCrv { s2.crv with held := store d left s2.crv.held } s2
  let skHeld := k.c != 0 && k.sketches
  if skHeld && !ends then s3
  else
    let mine := s3.crv.sketches.filter fun e => e.1 == d
    let fl := if skHeld then 4 else 0
    let s4 := mine.foldl (fun s e => (sketchPayloads cap e.2.1 fl (if skHeld then 2 ^ k.c else c.span) e.2.2).foldl (fun s b =>
      sendUp 0x03 (fCONF ||| (if skHeld then fCOARSE else 0)) d n via b s) s) s3
    setCrv { s4.crv with sketches := s4.crv.sketches.filter fun e => e.1 != d } s4

/-- The detectors of a die evaluate each sample of their schedule (R430). -/
def sampleDue (c : Cut) (s : State) : State :=
  let parts := samplePart 0 16 c :: samplePart c.first ((c.last - c.first + 1) / 16) c ::
    (s.crv.sketches.filter fun e => e.1 == c.domain).map fun e => .sketch e.2.1 0 64 0 c.span e.2.2
  let mk (d : Nat) : Due :=
    { det := d, slot := c.sched, domain := c.domain, epoch := c.epoch, prov := false,
      kids := [(0, index s, 0, parts)], results := [], expected := 1,
      b0 := boundary s c.sched c.epoch, b1 := boundary s c.sched (c.epoch + 1) }
  { s with due := s.due ++ (detsOn s c.sched false).map mk }

/-- A finished cut is handed to the Caravan (R212, R297): only a die sends its sample, with CRV_CTL.EN and without
host-assisted sending. -/
def handSample (c : Cut) (s : State) : State :=
  if level s ≠ 0 ∨ inReset s 3 then s
  else
    let s1 := sampleDue c s
    if !on s F.CRV_CTL_EN || (get s F.GLB_FUNC_MODE_MODE).testBit 1 then s1
    else
      let s2 := sendSample c s1
      closeReady (setCrv { s2.crv with closing := s2.crv.closing ++
        [{ domain := c.domain, epoch := c.epoch, route := c.epoch + 1 - c.span, flags := c.flags, span := c.span }] } s2)

/-! Slot commands and the registers (R329, R331, R293). -/

/-- Bytes reserved for one rule over two epochs in flight (R331). -/
def ruleBytes (r : Rule) : Nat := if r.op = 10 then 2 * 16 * (if r.half then 2048 else 4096) else 2 * 256 * entBytes r.op r.k
def slotBytes (s : State) (d : Nat) : Nat :=
  (s.crv.rules.filter fun r => r.domain == d && r.op != 0).foldl (fun n r => n + ruleBytes r) 0
def slotsUsed (s : State) : Nat :=
  s.crv.slots.foldl (fun n e => if e.2.state = 0 then n else n + slotBytes s e.2.domain) 0

/-- The lowest FREE slot. -/
def freeSlot (s : State) : Option Nat := (List.range 4096).find? fun k => (slotAt s k).state == 0

/-- A slot command posts its result (R329, R637). -/
def slotPost (seq slot status : Nat) (s : State) : State :=
  showSlot (post F.CRV_SLOT_RESULT_SEQ.addr seq (BitVec.ofNat 64 (slot % 4096 * 2 ^ 16 + status)) (set s F.CRV_SLOT_CMD_START 0))

/-- A slot of a domain moves from ACTIVE to DRAINING (R329). -/
def drainDomain (d : Nat) (s : State) : State :=
  match slotOf s d with
  | some k => if (slotAt s k).state = 1 then slotState k 2 s else s
  | none => s

/-- The detectors of a slot that opens number steps from its opening (R436). -/
def clearSteps (k : Nat) (s : State) : State :=
  { s with det := s.det.map fun e =>
      if get s (F.DET_D_CFG_SLOT e.1) = k then (e.1, { e.2 with totals := [], steps := [], late := [] }) else e }

/-- START of CRV_SLOT_CMD (R329, R331). -/
def slotCmd (s : State) : State :=
  if valid s F.CRV_SLOT_RESULT_SEQ.addr then set s F.CRV_SLOT_CMD_START 0
  else
    let d := get s F.CRV_SLOT_CMD_DOMAIN
    let q := get s F.CRV_SLOT_CMD_SEQ
    match get s F.CRV_SLOT_CMD_OP, slotOf s d with
    | 0, some k => slotPost q k 3 s
    | 0, none =>
      (match freeSlot s with
        | none => slotPost q 0 1 s
        | some k =>
          if partBytes s 0x0A < slotsUsed s + slotBytes s d then slotPost q 0 2 s
          else tellRoutes (slotPost q k 0 (slotState k 1 (clearSteps k (putSlot k { domain := d, timing := (slotAt s k).timing } s)))))
    | 1, some k => if (slotAt s k).state = 1 then slotPost q k 0 (slotState k 2 s) else slotPost q k 4 s
    | 2, some k =>
      if (slotAt s k).state = 3 then
        let s1 := slotState k 0 s
        slotPost q k 0 (putSlot k { timing := (slotAt s1 k).timing } s1)
      else slotPost q k 4 s
    | 3, _ => slotPost q 0 4 (undefinedField F.CRV_SLOT_CMD_OP.addr 3 s)
    | _, none => slotPost q 0 4 s
    | _, _ => s

/-- A write of CRV_ROUTE (R292 to R294): refused without effect under R293. -/
def routeWrite (acc : Acc) (s : State) : State :=
  let k := get s F.CRV_SLOT_SEL_SLOT
  let v := slotAt s k
  let m := wfield s acc F.CRV_ROUTE_MODE
  let sec := match lastRoute s v.domain with | some r => r.entry.sec != noParent | none => false
  if m = 3 ∨ (m ≠ 0 ∧ (v.state = 0 ∨ !sec)) then
    report F.CRV_ERR_ROUTE 0x0A10 ADVISE (k + 2 ^ 16 * m) (if m = 3 then undefinedField F.CRV_ROUTE_MODE.addr 3 s else s)
  else
    let s1 := perform F.CRV_ROUTE_MODE.addr acc s
    showSlot (if v.state = 0 then s1 else setMode v.domain m (putSlot k { v with split := false } s1))

/-- A write of CRV_CHILD_DATA: EXPECTED and INDEX of the child of CRV_CHILD_ADDR; none in a FREE slot. -/
def childWrite (acc : Acc) (s : State) : State :=
  let k := get s F.CRV_SLOT_SEL_SLOT
  let v := slotAt s k
  if v.state = 0 then s
  else
    let s1 := perform F.CRV_CHILD_DATA_INDEX.addr acc s
    let c := (kidAt v (get s F.CRV_CHILD_ADDR_BIT)).getD { bit := get s F.CRV_CHILD_ADDR_BIT }
    let c1 := { c with expected := on s1 F.CRV_CHILD_DATA_EXPECTED, index := get s1 F.CRV_CHILD_DATA_INDEX }
    showSlot (recheck k (putSlot k (putKid c1 v) s1))

/-- The unit's treatment of a write to the CRV page. -/
def crvWrite (a : Nat) (acc : Acc) (s : State) : State :=
  if a = F.CRV_SLOT_RESULT_SEQ.addr then consume a acc s
  else if a = F.CRV_ROUTE_MODE.addr then routeWrite acc s
  else if a = F.CRV_CHILD_DATA_INDEX.addr then childWrite acc s
  else if a = F.CRV_PW_BANK_BANK.addr ∧ pers s = 1 ∧ wfield s acc F.CRV_PW_BANK_BANK ≠ 0 then s
  else
    let s1 := perform a acc s
    if a = F.CRV_SLOT_CMD_START.addr then (if wrote1 acc F.CRV_SLOT_CMD_START then slotCmd (set s1 F.CRV_SLOT_CMD_START 1) else s1)
    else if a = F.CRV_SLOT_TIMING_DEADLINE.addr then
      let k := get s1 F.CRV_SLOT_SEL_SLOT
      putSlot k { slotAt s1 k with timing := rd s1 a } s1
    else if a = F.CRV_CTL_EN.addr then showSlot (tellRoutes s1)
    else showSlot s1

/-- A slot command row: CRV_SLOT_CMD with START and an operation. -/
def slotRow (op : Nat) (acc : Acc) (s : State) : State :=
  portWrite crvWrite F.CRV_SLOT_CMD_START.addr (force F.CRV_SLOT_CMD_START 1 (force F.CRV_SLOT_CMD_OP op acc)) s

/-- SLOT_OPEN (R329). -/
def execSlotOpen (acc : Acc) (s : State) : Host.Outcome State Fault Refusal := .next (slotRow 0 acc s)
/-- SLOT_DRAIN (R329). -/
def execSlotDrain (acc : Acc) (s : State) : Host.Outcome State Fault Refusal := .next (slotRow 1 acc s)
/-- SLOT_RETIRE (R329). -/
def execSlotRetire (acc : Acc) (s : State) : Host.Outcome State Fault Refusal := .next (slotRow 2 acc s)
/-- ROUTE_MODE_WRITE (R292, R293). -/
def execRouteModeWrite (acc : Acc) (s : State) : Host.Outcome State Fault Refusal :=
  .next (portWrite crvWrite F.CRV_ROUTE_MODE.addr acc s)

end Sys2Proof.Machine
end

