-- ==== Sys2Proof/Machine/Float.lean ====
section
/-!
DEFINITION. Exact dyadic values of the number formats (R395, R397, R412 to R417) and their rounding, to nearest with ties to even.
-/
namespace Sys2Proof.Machine

/-- NaN, an infinity, or (−1)^neg × m × 2^e. -/
inductive Fl where
  | nan
  | inf (neg : Bool)
  | fin (neg : Bool) (m : Nat) (e : Int)
  deriving DecidableEq, Repr

/-- How a format treats its largest exponent: IEEE 754, the one NaN of FP8 E4M3, or as any other. -/
inductive FlKind where
  | ieee | e4m3 | plain
  deriving DecidableEq, Repr

/-- The value of a word with `eb` exponent bits and `mb` fraction bits. -/
def flDecode (eb mb : Nat) (k : FlKind) (v : Nat) : Fl :=
  let neg := v.testBit (eb + mb)
  let x := v / 2 ^ mb % 2 ^ eb
  let f := v % 2 ^ mb
  let bias := 2 ^ (eb - 1) - 1
  if k = .ieee ∧ x = 2 ^ eb - 1 then (if f = 0 then .inf neg else .nan)
  else if k = .e4m3 ∧ x = 2 ^ eb - 1 ∧ f = 2 ^ mb - 1 then .nan
  else if x = 0 then .fin neg f (1 - (bias : Int) - mb)
  else .fin neg (2 ^ mb + f) ((x : Int) - bias - mb)

/-- The encoding of the magnitude m × 2^e, rounded to nearest even, as if the exponent had no upper bound. -/
def flEncode (eb mb m : Nat) (e : Int) : Nat :=
  if m = 0 then 0
  else
    let emin : Int := 1 - (2 ^ (eb - 1) - 1 : Nat)
    let top : Int := (Nat.log2 m : Int) + e
    let q : Int := max top emin - mb
    let base := (q - (emin - mb)).toNat * 2 ^ mb
    if q ≤ e then base + m * 2 ^ (e - q).toNat
    else
      let d := (q - e).toNat
      let h := m / 2 ^ d
      let r := m % 2 ^ d * 2
      base + (if 2 ^ d < r ∨ (r = 2 ^ d ∧ h % 2 = 1) then h + 1 else h)

/-- The bits of a value in an IEEE format: overflow gives infinity, every NaN the quiet one (R414, R417). -/
def flBits (eb mb : Nat) (x : Fl) : Nat :=
  let sign (neg : Bool) : Nat := if neg then 2 ^ (eb + mb) else 0
  let infinity := (2 ^ eb - 1) * 2 ^ mb
  match x with
  | .nan => infinity + 2 ^ (mb - 1)
  | .inf neg => sign neg + infinity
  | .fin neg m e => sign neg + min (flEncode eb mb m e) infinity

/-- The bits of a value in FP8 E4M3, saturating at ±448 (R417). -/
def e4m3Bits (x : Fl) : Nat :=
  match x with
  | .nan => 0x7F
  | .inf neg => (if neg then 0x80 else 0) + 0x7E
  | .fin neg m e => (if neg then 0x80 else 0) + min (flEncode 4 3 m e) 0x7E

/-- FP32 bits of a value, and the value of FP32 bits. -/
def fl32 (x : Fl) : Nat := flBits 8 23 x
def of32 (v : Nat) : Fl := flDecode 8 23 .ieee v
/-- A value rounded to FP32. -/
def round32 (x : Fl) : Fl := of32 (fl32 x)

/-- The signed numerator of m × 2^e over 2^q. -/
def flNum (neg : Bool) (m : Nat) (e q : Int) : Int :=
  let n : Int := (m * 2 ^ (e - q).toNat : Nat)
  if neg then -n else n

/-- The exact sum (R397, R414): +∞ + (−∞) is NaN, an exact zero is +0 unless both are −0. -/
def flAdd (a b : Fl) : Fl :=
  match a, b with
  | .nan, _ => .nan
  | _, .nan => .nan
  | .inf x, .inf y => if x = y then .inf x else .nan
  | .inf x, _ => .inf x
  | _, .inf y => .inf y
  | .fin x m e, .fin y n f =>
    let q := min e f
    let t := flNum x m e q + flNum y n f q
    if t = 0 then .fin (x && y) 0 0 else .fin (decide (t < 0)) t.natAbs q

/-- The exact product (R414). -/
def flMul (a b : Fl) : Fl :=
  match a, b with
  | .nan, _ => .nan
  | _, .nan => .nan
  | .inf x, .inf y => .inf (x != y)
  | .inf x, .fin y n _ => if n = 0 then .nan else .inf (x != y)
  | .fin x m _, .inf y => if m = 0 then .nan else .inf (x != y)
  | .fin x m e, .fin y n f => .fin (x != y) (m * n) (e + f)

def flNeg : Fl → Fl
  | .nan => .nan
  | .inf x => .inf (!x)
  | .fin x m e => .fin (!x) m e

def flAbs : Fl → Fl
  | .nan => .nan
  | .inf _ => .inf false
  | .fin _ m e => .fin false m e

/-- One addition with one rounding. -/
def add32 (a b : Fl) : Fl := round32 (flAdd a b)

/-- IEEE 754 ordering (R395): false if either is NaN. -/
def flLt (a b : Fl) : Bool :=
  match a, b with
  | .nan, _ => false
  | _, .nan => false
  | .inf x, .inf y => x && !y
  | .inf x, _ => x
  | _, .inf y => !y
  | .fin x m e, .fin y n f =>
    let q := min e f
    decide (flNum x m e q < flNum y n f q)

def isNan : Fl → Bool
  | .nan => true
  | _ => false
def isFinite : Fl → Bool
  | .fin _ _ _ => true
  | _ => false
def isZero : Fl → Bool
  | .fin _ m _ => m == 0
  | _ => false

/-- The integer that a value is, if it is one. -/
def flInt : Fl → Option Int
  | .fin x m e =>
    if 0 ≤ e then some (flNum x m e 0)
    else if m % 2 ^ (-e).toNat = 0 then some (if x then -((m / 2 ^ (-e).toNat : Nat) : Int) else (m / 2 ^ (-e).toNat : Nat)) else none
  | _ => none

/-- An integer as a value. -/
def ofInt (x : Int) : Fl := .fin (decide (x < 0)) x.natAbs 0

end Sys2Proof.Machine
end

