-- ==== Sys2Proof/Machine/Matrix.lean ====
section
/-!
DEFINITION. The arithmetic of an array (R412 to R418, R465 to R467, R470): operand formats, packed rows, the order NATIVE and the
accumulation rules, the conversion of results, the tolerance bound, and the generator of field tests (R481, R482).
-/
namespace Sys2Proof.Machine

/-! Formats (R412). Codes 0 to 14. -/

def fmtWidth (f : Nat) : Nat := [32, 16, 16, 8, 8, 8, 8, 8, 8, 6, 6, 4, 6, 6, 4].getD f 8
/-- Products per cell in four cycles. -/
def fmtRate4 (f : Nat) : Nat := [1, 4, 4, 8, 8, 8, 8, 8, 8, 16, 16, 16, 16, 16, 16].getD f 1
/-- The formats with block scales. -/
def fmtMx (f : Nat) : Bool := [6, 7, 8, 12, 13, 14].contains f
def fmtInt (f : Nat) : Bool := f == 5

/-- Two operand formats can meet in one job. -/
def fmtPair (a b : Nat) : Bool := decide (a ≤ 14) && decide (b ≤ 14) && fmtInt a == fmtInt b && fmtRate4 a == fmtRate4 b

/-- The value of an element. -/
def fmtValue (f v : Nat) : Fl :=
  match f with
  | 0 => flDecode 8 23 .ieee v
  | 1 => flDecode 8 7 .ieee v
  | 2 => flDecode 5 10 .ieee v
  | 3 => flDecode 4 3 .e4m3 v
  | 4 => flDecode 5 2 .ieee v
  | 5 => ofInt (toSigned 8 v)
  | 6 => flDecode 4 3 .e4m3 v
  | 7 => flDecode 5 2 .ieee v
  | 8 => (match ofInt (toSigned 8 v) with | .fin n m e => .fin n m (e - 6) | x => x)
  | 9 => flDecode 2 3 .plain v
  | 10 => flDecode 3 2 .plain v
  | 11 => flDecode 2 1 .plain v
  | 12 => flDecode 2 3 .plain v
  | 13 => flDecode 3 2 .plain v
  | _ => flDecode 2 1 .plain v

/-! Packed rows (R418). -/

def pad64 (n : Nat) : Nat := (n + 63) / 64 * 64
/-- Bytes of an operand row, of a scale row, and of a result row of elements of `w` bytes. -/
def rowBytes (f k : Nat) : Nat := pad64 ((k * fmtWidth f + 7) / 8)
def scaleBytes (k : Nat) : Nat := pad64 ((k + 31) / 32)
def outBytes (w n : Nat) : Nat := pad64 (w * n)

/-- The operands of one tile: A, B, scale and C bytes. -/
structure Tile where
  m : Nat
  n : Nat
  k : Nat
  fa : Nat
  fb : Nat
  a : List Byte
  b : List Byte
  scales : List Byte
  c : Option (List Byte)
  deriving DecidableEq, Repr

/-- The elements of row `i` of a packed operand, as a function of k. -/
def rowElems (f k : Nat) (bs : List Byte) (i : Nat) : List Fl :=
  let v := leAt bs (i * rowBytes f k) (rowBytes f k)
  (List.range k).map fun j => fmtValue f (natBits v (j * fmtWidth f) (fmtWidth f))

/-- The block scales of row `i` (R413): the exponent, or none for NaN; 0 for a format without scales. -/
def rowScales (f k : Nat) (bs : List Byte) (i : Nat) : List (Option Int) :=
  (List.range ((k + 31) / 32)).map fun j =>
    if fmtMx f then
      let x := (byteAt bs (i * scaleBytes k + j)).toNat
      if x = 255 then none else some ((x : Int) - 127)
    else some 0

/-- A value times 2^s, NaN for a NaN scale. -/
def flScale (x : Fl) (s : Option Int) : Fl :=
  match s, x with
  | none, _ => .nan
  | some e, .fin n m q => .fin n m (q + e)
  | some _, y => y

def addScale (a b : Option Int) : Option Int :=
  match a, b with
  | some x, some y => some (x + y)
  | _, _ => none

/-- One cell's data: products in order of k, the scale of each block, and C0 as its 32 bits. -/
structure Cell where
  prods : List Fl
  scales : List (Option Int)
  c0 : Nat
  deriving DecidableEq, Repr

/-- The cell (i, j) of a tile. -/
def cellOf (t : Tile) (i j : Nat) : Cell :=
  { prods := List.zipWith flMul (rowElems t.fa t.k t.a i) (rowElems t.fb t.k t.b j),
    scales := List.zipWith addScale (rowScales t.fa t.k t.scales i) (rowScales t.fb t.k t.scales (t.m + j)),
    c0 := match t.c with | some c => leAt c (i * outBytes 4 t.n + 4 * j) 4 | none => 0 }

/-- The exact sum of a list. -/
def flSum (l : List Fl) : Fl :=
  match l with
  | [] => .fin false 0 0
  | x :: t => t.foldl flAdd x

/-- A list cut into chunks of `n`. -/
def chunks {α : Type} (n : Nat) : Nat → List α → List (List α)
  | 0, _ => []
  | fuel + 1, l => if l.isEmpty then [] else l.take n :: chunks n fuel (l.drop n)
def chunksOf {α : Type} (n : Nat) (l : List α) : List (List α) := chunks n (l.length + 1) l

/-- Blocks of 32 products with their scales applied. -/
def scaledBlocks (c : Cell) : List (List Fl) :=
  List.zipWith (fun l s => l.map fun x => flScale x s) (chunksOf 32 c.prods) c.scales

/-- The products a_k × b_k × s_k, exact. -/
def terms (c : Cell) : List Fl := (scaledBlocks c).flatten

/-- NATIVE (R414). -/
def native (rate4 : Nat) (mx : Bool) (c : Cell) : Fl :=
  let groups := if mx then scaledBlocks c else chunksOf (max 1 (rate4 / 4)) (terms c)
  groups.foldl (fun acc g => add32 acc (flSum g)) (of32 c.c0)

/-- One level of a binary tree. -/
def pairUp : List Fl → List Fl
  | x :: y :: t => add32 x y :: pairUp t
  | l => l

/-- A chunk of 64 terms summed in 6 levels (R466). -/
def treeSum (l : List Fl) : Fl :=
  let p := l ++ List.replicate (64 - l.length) (.fin false 0 0)
  (pairUp (pairUp (pairUp (pairUp (pairUp (pairUp p)))))).headD (.fin false 0 0)

/-- ARULE 0 from a starting value over rounded terms. -/
def rule0 (c0 : Fl) (ts : List Fl) : Fl := (chunksOf 64 ts).foldl (fun acc g => add32 acc (treeSum g)) c0

/-- The accumulation rules (R465, R466). -/
def arule (r : Nat) (c : Cell) : Fl :=
  let c0 := of32 c.c0
  let ts := (terms c).map round32
  match r with
  | 0 => rule0 c0 ts
  | 1 => ts.foldl add32 c0
  | 2 => (chunksOf 32 (terms c)).foldl (fun acc g => add32 acc (flSum g)) c0
  | _ =>
    let q := 64 * ((ts.length + 255) / 256)
    let part (i : Nat) : Fl := rule0 (.fin false 0 0) ((ts.drop (i * q)).take q)
    add32 c0 (add32 (add32 (part 0) (part 1)) (add32 (part 2) (part 3)))

/-- The exact integer sum of an INT8 cell, saturated once (R416, R467): bits and whether it saturated. -/
def intCell (c : Cell) : Nat × Bool :=
  let t := c.prods.foldl (fun n x => n + (flInt x).getD 0) (toSigned 32 c.c0)
  (ofSigned 32 (satSigned 32 t), decide (satSigned 32 t ≠ t))

/-- The 32-bit result of a cell, and whether it saturated. `order` is an ARULE, or none for NATIVE. -/
def cellResult (t : Tile) (order : Option Nat) (i j : Nat) : Nat × Bool :=
  let c := cellOf t i j
  if fmtInt t.fa then intCell c
  else match order with
    | none => (fl32 (native (fmtRate4 t.fa) (fmtMx t.fa || fmtMx t.fb) c), false)
    | some r => (fl32 (arule r c), false)

/-! Conversion (R417). -/

/-- Bytes of an element of OUT_FMT. -/
def outWidth (o : Nat) : Nat := [4, 2, 2, 1].getD o 4

def convert (o : Nat) (x : Fl) : Nat :=
  match o with
  | 1 => flBits 8 7 x
  | 2 => flBits 5 10 x
  | 3 => e4m3Bits x
  | _ => fl32 x

/-! The tolerance bound (R470). -/

/-- A finite magnitude rounded up to 53 significant bits. -/
def up64 (x : Fl) : Fl :=
  match x with
  | .fin false m e =>
    let d := Nat.log2 m + 1 - 53
    if d = 0 then x else .fin false ((m + 2 ^ d - 1) / 2 ^ d) (e + d)
  | y => y

/-- A host value passes in tolerance mode. -/
def tolPass (t : Tile) (mult i j host ref : Nat) : Bool :=
  let h := of32 host
  let r := of32 ref
  if isNan h || isNan r then isNan h && isNan r
  else if !(isFinite h && isFinite r) then h == r
  else
    let c := cellOf t i j
    let a := (terms c).foldl (fun a x => up64 (flAdd a (flAbs x))) (flAbs (of32 c.c0))
    let p := if t.fa = 0 then 2 else 1
    let x := up64 (flAdd (flScale a (some (-24))) (.fin false 1 (-149)))
    let bound := up64 (flMul (.fin false (mult * (t.k + p)) (-4)) x)
    !flLt bound (up64 (flAbs (flAdd h (flNeg r))))

/-- A host value passes against the reference (R467, R469, R470). -/
def elemPass (t : Tile) (rule mult i j host ref : Nat) : Bool :=
  if fmtInt t.fa then host == ref
  else if rule = 4 then tolPass t mult i j host ref
  else host == ref || (isNan (of32 host) && isNan (of32 ref))

/-! The generator (R481, R482). -/

/-- One step: the output and the next state. -/
def genNext (g : Word × Word) : Word × (Word × Word) :=
  let x := g.1 ^^^ (g.1 <<< 23)
  let y := g.2
  let s1 := x ^^^ y ^^^ (x >>> 17) ^^^ (y >>> 26)
  (s1 + y, (y, s1))

/-- The state at the start of test `t`. -/
def genSeed (seed0 seed1 : Word) (t : Nat) : Word × Word :=
  let s0 := seed0 ^^^ BitVec.ofNat 64 t
  (s0, if s0 = 0 ∧ seed1 = 0 then 1 else seed1)

/-- `n` elements of width `w`, ⌊64 / w⌋ from each output, with the state after. -/
def genElems (w : Nat) : Nat → Nat → (Word × Word) → List Nat × (Word × Word)
  | 0, _, g => ([], g)
  | fuel + 1, n, g =>
    if n = 0 then ([], g)
    else
      let (v, g1) := genNext g
      let q := min n (64 / w)
      let (l, g2) := genElems w fuel (n - q) g1
      ((List.range q).map (fun i => bitsAt v (w * i) w) ++ l, g2)

/-- An element without an exponent field of all ones (R482). -/
def tame (f v : Nat) : Nat :=
  let cut (eb mb : Nat) : Nat := if v / 2 ^ mb % 2 ^ eb = 2 ^ eb - 1 then v - 2 ^ (mb + eb - 1) else v
  match f with
  | 0 => cut 8 23
  | 1 => cut 8 7
  | 2 => cut 5 10
  | 3 => if v % 128 = 127 then v - 1 else v
  | 4 => cut 5 2
  | 5 => v
  | 6 => if v % 128 = 127 then v - 1 else v
  | 7 => cut 5 2
  | 8 => v
  | 9 => cut 2 3
  | 10 => cut 3 2
  | 11 => cut 2 1
  | 12 => cut 2 3
  | 13 => cut 3 2
  | _ => cut 2 1

/-- Elements packed as one row (R418). -/
def packRow (f : Nat) (l : List Nat) : List Byte :=
  leBytes (rowBytes f l.length) (l.foldr (fun v n => v + n * 2 ^ fmtWidth f) 0)

/-- A generated operand of `rows` rows of `k` elements. -/
def genOperand (f rows k : Nat) (g : Word × Word) : List Byte × (Word × Word) :=
  let (l, g1) := genElems (fmtWidth f) (rows * k + 1) (rows * k) g
  ((chunksOf k (l.map (tame f))).flatMap (packRow f), g1)

/-- The generated tile of test `t`: A, B, then scales; C0 is +0. -/
def genTile (seed0 seed1 : Word) (t m n k fa fb : Nat) : Tile :=
  let (a, g1) := genOperand fa m k (genSeed seed0 seed1 t)
  let (b, g2) := genOperand fb n k g1
  let q := (k + 31) / 32
  let scales := if fmtMx fa || fmtMx fb then
      (chunksOf q ((genElems 8 ((m + n) * q + 1) ((m + n) * q) g2).1.map fun x => BitVec.ofNat 8 (0x77 + x % 16))).flatMap
        fun r => padTo (scaleBytes k) r
    else []
  { m, n, k, fa, fb, a, b, scales, c := none }

end Sys2Proof.Machine
end

