-- ==== Sys2Proof/Machine/Sram.lean ====
section
/-!
DEFINITION. The on-block SRAM (R626 ff, R724) as a list of cells in canonical form: rising addresses, no entry of value 0. A
byte that is not listed reads 0 (DESIGN CHOICE, log 5). Partitions divide it (R31).
-/
namespace Sys2Proof.Machine

/-- The byte at an address. -/
def cellAt (m : List Host.Cell) (a : Nat) : Byte := (look a m).getD 0

/-- The memory with a byte at an address. -/
def putCell (a : Nat) (b : Byte) (m : List Host.Cell) : List Host.Cell :=
  match m with
  | [] => if b = 0 then [] else [(a, b)]
  | (j, w) :: t =>
    if a < j then (if b = 0 then (j, w) :: t else (a, b) :: (j, w) :: t)
    else if a = j then (if b = 0 then t else (a, b) :: t)
    else (j, w) :: putCell a b t

/-- Bytes written from an address on. -/
def putCells (a : Nat) : List Byte → List Host.Cell → List Host.Cell
  | [], m => m
  | b :: bs, m => putCells (a + 1) bs (putCell a b m)

/-- Every key of a memory is above `lo`, keys rise, and no value is 0. -/
def cellsFrom : Option Nat → List Host.Cell → Bool
  | _, [] => true
  | lo, (a, b) :: t => (match lo with | some l => decide (l < a) | none => true) && b != 0 && cellsFrom (some a) t

/-- The canonical form of a memory. -/
def Memory.wf (m : List Host.Cell) : Bool := cellsFrom none m

/-- The bytes of a range. -/
def cellsAt (m : List Host.Cell) (a n : Nat) : List Byte := (List.range n).map fun i => cellAt m (a + i)

/-- A partition by its ID (R724). -/
def partition (s : State) (id : Nat) : Option Partition := s.itn.parts.find? fun p => p.id == id
def partBase (s : State) (id : Nat) : Nat := ((partition s id).map Partition.base).getD 0
def partSize (s : State) (id : Nat) : Nat := ((partition s id).map Partition.size).getD 0

/-- Bytes at an offset in a partition. -/
def partRead (s : State) (id off n : Nat) : List Byte := cellsAt s.sram (partBase s id + off) n
def partWord (s : State) (id off n : Nat) : Nat := leNat (partRead s id off n)

/-- Bytes written at an offset in a partition, without a check. -/
def partPut (id off : Nat) (bs : List Byte) (s : State) : State :=
  { s with sram := putCells (partBase s id + off) bs s.sram }

/-- Registers x1 to x31 of a core: a value of 0 is not listed. -/
def putX (c : Core) (r : Nat) (v : Word) : Core :=
  if r = 0 then c else if v = 0 then { c with x := dropKeys (· == r) c.x } else { c with x := store r v c.x }

/-- The firmware SRAM (R626), and the size of an image area in it (R629, R630). -/
def fwSize (s : State) : Nat := if pers s = 1 then 4194304 else 16777216
def fwArea (s : State) : Nat := if pers s = 1 then 1048576 else 4194304
def fwPut (a : Nat) (b : List Byte) (s : State) : State := { s with fwSram := putCells a b s.fwSram }

/-- The ranges [first, last + 1) of two spans meet. -/
def meets (a n b m : Nat) : Bool := decide (a < b + m) && decide (b < a + n) && decide (0 < n) && decide (0 < m)

end Sys2Proof.Machine
end

