-- ==== Sys2Proof/Machine/Tree.lean ====
section
/-!
DEFINITION. The tree engine (R382 to R410): the model store, bind and unbind, jobs, and the evaluation of an ensemble.
-/
namespace Sys2Proof.Machine

def setTre (t : TreSt) (s : State) : State := { s with tre := t }

/-- The partition of the tree engine (R724). -/
def treePart : Nat := 3
/-- The model store and the model slots of the personality (R383). -/
def storeSize (s : State) : Nat := min (partSize s treePart) (if pers s = 1 then 4194304 else 67108864)
def nModels (s : State) : Nat := if pers s = 1 then 16 else 64

/-- TRE_STATUS shows bound slots, jobs and busy engines. -/
def showTre (s : State) : State :=
  let busy := (s.tre.jobs.filter TreJob.running).foldl (fun m j => m ||| 2 ^ j.engine) 0
  set (set (set s F.TRE_STATUS_BOUND s.tre.models.length) F.TRE_STATUS_QUEUED s.tre.jobs.length) F.TRE_STATUS_BUSY busy

/-- The bound model whose range a span of the partition touches. -/
def boundAt (s : State) (off n : Nat) : Option (Nat × Nat × Nat) :=
  s.tre.models.find? fun m => meets off n m.2.1 m.2.2

/-- A write into the range of a bound model is discarded (R389). -/
def protWrite (slot : Nat) (s : State) : State :=
  let again := s.tre.protRun.contains slot
  let s1 := record { recOf 0x0C05 ADVISE slot with run := if again then 2 else 1, key := slot } (flag F.TRE_ERR_STORE_PROT s)
  if again then s1 else setTre { s1.tre with protRun := slot :: s1.tre.protRun } s1

/-- A write to the partitioned SRAM at an absolute address: what falls in the range of a bound model is discarded (R389). -/
def sramWrite (a : Nat) (bs : List Byte) (s : State) : State :=
  let base := partBase s treePart
  let hits := s.tre.models.filter fun m => meets a bs.length (base + m.2.1) m.2.2
  let ok (x : Nat) : Bool := !hits.any fun m => decide (base + m.2.1 ≤ x) && decide (x < base + m.2.1 + m.2.2)
  let s1 := hits.foldl (fun s m => protWrite m.1 s) s
  if hits.isEmpty then { s1 with sram := putCells a bs s1.sram }
  else { s1 with sram := ((List.range bs.length).zip bs).foldl (fun m e => if ok (a + e.1) then putCell (a + e.1) e.2 m else m) s1.sram }

/-- A write at an offset in a partition. -/
def partWrite (id off : Nat) (bs : List Byte) (s : State) : State := sramWrite (partBase s id + off) bs s

/-! Model images (R384 to R387). -/

/-- A model header. -/
structure Model where
  off : Nat
  depth : Nat
  int : Bool
  link : Nat
  ncls : Nat
  nfeat : Nat
  ntrees : Nat
  nsets : Nat
  id : Nat
  len : Nat
  deriving DecidableEq, Repr

def round64 (n : Nat) : Nat := (n + 63) / 64 * 64

/-- The header of the image at an offset. -/
def modelAt (s : State) (off : Nat) : Model :=
  let g (i n : Nat) : Nat := partWord s treePart (off + i) n
  { off, depth := g 5 1, int := g 6 1 == 1, link := g 7 1, ncls := g 8 2, nfeat := g 10 2, ntrees := g 12 4, nsets := g 16 4,
    id := g 20 4, len := g 28 4 }

def Model.treeSize (m : Model) : Nat := round64 (12 * 2 ^ m.depth - 8)
def Model.treeOff (m : Model) (t : Nat) : Nat := 64 + round64 (4 * m.ncls) + t * m.treeSize
def Model.setOff (m : Model) (k : Nat) : Nat := m.treeOff m.ntrees + 128 * k
def Model.leafOff (m : Model) (t j : Nat) : Nat := m.treeOff t + 8 * (2 ^ m.depth - 1) + 4 * j

/-- A word of an image. -/
def modelWord (s : State) (m : Model) (i n : Nat) : Nat := partWord s treePart (m.off + i) n

/-- The header fields are within R384. -/
def headerGood (s : State) (m : Model) (len : Nat) : Bool :=
  modelWord s m 4 1 == 1 && decide (1 ≤ m.depth) && decide (m.depth ≤ 12) && decide (modelWord s m 6 1 ≤ 1) && decide (m.link ≤ 3)
    && decide (1 ≤ m.ncls) && decide (m.ncls ≤ 32) && (m.link != 2 || decide (2 ≤ m.ncls))
    && decide (1 ≤ m.nfeat) && decide (m.nfeat ≤ 4096) && decide (1 ≤ m.ntrees) && m.ntrees % m.ncls == 0
    && decide (m.nsets ≤ 65536) && (partRead s treePart (m.off + 32) 32).all (· == 0)
    && m.len == m.setOff m.nsets && m.len == len

/-- A leaf value or base margin is finite. -/
def leafGood (v : Nat) : Bool := isFinite (of32 v)

/-- The fields of a node word (R386). -/
def nThresh (w : Nat) : Nat := natBits w 32 32
def nFeature (w : Nat) : Nat := natBits w 20 12
def nDefault (w : Nat) : Bool := w.testBit 19
def nCat (w : Nat) : Bool := w.testBit 18
def nCmp (w : Nat) : Nat := natBits w 16 2
def nSet (w : Nat) : Nat := natBits w 0 16

/-- A node word is within R386 and R387. -/
def nodeGood (m : Model) (w : Nat) : Bool :=
  nCmp w != 3 && !(nCmp w == 2 && nCat w) && decide (nFeature w < m.nfeat)
    && (nCmp w != 2 || (nFeature w == 0 && nThresh w == 0)) && (!nCat w || nThresh w == 0)
    && (if nCat w then decide (nSet w < m.nsets) else nSet w == 0)
    && (m.int || nCat w || !isNan (of32 (nThresh w)))

/-- The first failure of a tree: NODE (8) or LEAF (9) with its position in 64-byte units. -/
def treeFault (s : State) (m : Model) (t : Nat) : Option (Nat × Nat) :=
  ((List.range (2 ^ m.depth - 1)).findSome? fun i =>
    if nodeGood m (modelWord s m (m.treeOff t + 8 * i) 8) then none else some (8, (m.treeOff t + 8 * i) / 64)) <|>
  (List.range (2 ^ m.depth)).findSome? fun j =>
    if leafGood (modelWord s m (m.leafOff t j) 4) then none else some (9, m.leafOff t j / 64)

/-- The CRC of an image with its CRC bytes taken as 0 (R384). -/
def imageCrc (s : State) (m : Model) (len : Nat) : Nat :=
  (crc32c (partRead s treePart m.off 24 ++ List.replicate 4 0 ++ partRead s treePart (m.off + 28) (len - 28))).toNat

/-- The first failure of an image in image order (R387): status and position. -/
def imageFault (s : State) (off len : Nat) : Option (Nat × Nat) :=
  let m := modelAt s off
  if modelWord s m 0 4 ≠ 0x4D455254 then some (5, 0)
  else if !headerGood s m len then some (6, 0)
  else if modelWord s m 24 4 ≠ imageCrc s m len then some (7, 0)
  else ((List.range m.ncls).findSome? fun c => if leafGood (modelWord s m (64 + 4 * c) 4) then none else some (9, (64 + 4 * c) / 64)) <|>
    (List.range m.ntrees).findSome? (treeFault s m)

/-! Bind and unbind (R387 to R390). -/

/-- A bind or unbind ends: TRE_MODEL_RESULT posts; a refusal writes 0x0C01, a bind 0x0C02. -/
def modelPost (seq slot status pos : Nat) (s : State) : State :=
  let s1 := if status = 0 ∨ status = 12 then s
    else report F.TRE_ERR_BIND_ERR 0x0C01 ADVISE (slot + 256 * status + 2 ^ 16 * pos) s
  showTre (post F.TRE_MODEL_RESULT_SEQ.addr seq (BitVec.ofNat 64 (pos % 2 ^ 24 * 2 ^ 8 + status)) (set s1 F.TRE_MODEL_CMD_START 0))

/-- A model slot's INFO and LOC. -/
def showModel (slot : Nat) (m : Option Model) (failed : Bool) (s : State) : State :=
  let (i, l) := match m with
    | none => (if failed then 2 ^ 62 else 0, 0)
    | some m => (2 ^ 63 + m.link * 2 ^ 60 + (if m.int then 2 ^ 59 else 0) + m.depth * 2 ^ 55 + m.ncls * 2 ^ 48 + m.nfeat * 2 ^ 32 + m.id,
        m.ntrees * 2 ^ 40 + m.off)
  wr (wr s (F.TRE_MODEL_INFO_VALID slot).addr (BitVec.ofNat 64 i)) (F.TRE_MODEL_LOC_OFFSET slot).addr (BitVec.ofNat 64 l)

/-- The slot of a model is released. -/
def unbind (slot : Nat) (failed : Bool) (s : State) : State :=
  showTre (showModel slot none failed (setTre { s.tre with
    models := s.tre.models.filter (fun m => m.1 != slot), protRun := s.tre.protRun.filter (· != slot) } s))

/-- START of TRE_MODEL_CMD (R388, R639): a refusal posts at once; a bind goes on to the check of its image. -/
def modelCmd (s : State) : State :=
  let seq := get s F.TRE_MODEL_CMD_SEQ
  let slot := get s F.TRE_MODEL_CMD_SLOT
  let off := get s F.TRE_MODEL_ARG_OFFSET
  let len := get s F.TRE_MODEL_ARG_LENGTH
  let bound := s.tre.models.any fun m => m.1 == slot
  if valid s F.TRE_MODEL_RESULT_SEQ.addr then set s F.TRE_MODEL_CMD_START 0
  else if s.tre.bind.isSome then s
  else match get s F.TRE_MODEL_CMD_OP with
    | 0 =>
      if bound then modelPost seq slot 1 0 s
      else if (boundAt s off len).isSome then modelPost seq slot 3 0 s
      else if off % 64 ≠ 0 ∨ len % 64 ≠ 0 ∨ storeSize s < off + len ∨ nModels s ≤ slot then modelPost seq slot 4 0 s
      else setTre { s.tre with bind := some (seq, slot, off, len) } (set s F.TRE_MODEL_CMD_START 1)
    | 1 =>
      if !bound then modelPost seq slot 11 0 s
      else if s.tre.jobs.any fun j => j.model == slot then modelPost seq slot 2 0 s
      else modelPost seq slot 0 0 (unbind slot false s)
    | v => modelPost seq slot 12 0 (undefinedField F.TRE_MODEL_CMD_OP.addr v s)

/-- The check of an image ends (R387, R390); `ecc` is the position of an uncorrectable error met in it. -/
def bindDone (ecc : Option Nat) (s : State) : State :=
  match s.tre.bind with
  | none => s
  | some (seq, slot, off, len) =>
    let s1 := setTre { s.tre with bind := none } s
    match ecc, imageFault s off len with
    | some p, _ => modelPost seq slot 10 p s1
    | none, some (st, p) => modelPost seq slot st p s1
    | none, none =>
      let m := modelAt s off
      let s2 := showModel slot (some m) false (setTre { s1.tre with models := s1.tre.models ++ [(slot, off, len)] } s1)
      modelPost seq slot 0 0 (note 0x0C02 INFO (slot + 256 * m.id) s2)

/-- MODEL_BIND_DONE (R390). -/
def execModelBindDone (ecc : Option Nat) (s : State) : Host.Outcome State Fault Refusal := .next (bindDone ecc s)

/-! Evaluation (R391 to R400). -/

/-- A feature value is missing at a node (R393). -/
def missing (int : Bool) (w x : Nat) : Bool :=
  if int then
    x == 0x80000000 || (nCmp w == 1 && x == 0) || (nCat w && (decide (toSigned 32 x < 0) || decide (1023 < toSigned 32 x)))
  else
    isNan (of32 x) || (nCmp w == 1 && isZero (of32 x)) ||
      (nCat w && (match flInt (of32 x) with | some k => decide (k < 0) || decide (1023 < k) | none => true))

/-- The category of a value. -/
def category (int : Bool) (x : Nat) : Nat := if int then x else ((flInt (of32 x)).getD 0).toNat

/-- x < THRESH (R395). -/
def below (int : Bool) (w x : Nat) : Bool :=
  if int then decide (toSigned 32 x < toSigned 32 (nThresh w)) else flLt (of32 x) (of32 (nThresh w))

/-- The direction taken at a node for a row at offset `row` (R392 to R396): true is right. -/
def direction (s : State) (m : Model) (row w : Nat) : Bool :=
  let x := partWord s treePart (row + 4 * nFeature w) 4
  if nCmp w = 2 then nDefault w
  else if missing m.int w x then nDefault w
  else if nCat w then
    let k := category m.int x
    (modelWord s m (m.setOff (nSet w) + k / 8) 1).testBit (k % 8)
  else !below m.int w x

/-- The node reached from `i` in `d` levels (R392). -/
def walk (s : State) (m : Model) (row t : Nat) : Nat → Nat → Nat
  | 0, i => i
  | d + 1, i =>
    let w := modelWord s m (m.treeOff t + 8 * i) 8
    walk s m row t d (2 * i + 1 + if direction s m row w then 1 else 0)

/-- The leaf value of a tree for a row. -/
def leafOf (s : State) (m : Model) (row t : Nat) : Fl :=
  of32 (modelWord s m (m.leafOff t (walk s m row t m.depth 0 - (2 ^ m.depth - 1))) 4)

/-- The margin of a class (R397). -/
def marginOf (s : State) (m : Model) (row c : Nat) : Nat :=
  let base := of32 (modelWord s m (64 + 4 * c) 4)
  match ((List.range (m.ntrees / m.ncls)).map fun i => leafOf s m row (c + i * m.ncls)) with
  | [] => fl32 base
  | l :: ls => fl32 (add32 (ls.foldl add32 l) base)

/-- The output of a class (R398, R399): its special values, and the free value of the link elsewhere. 0x42B1_7217 and 0xC2AE_AC4F are the
last FP32 values whose exponentials lie below 2^128 and not below 2^-126. -/
def linkOut (link : Nat) (ms : List Nat) (c : Nat) : Nat :=
  let x := ms.getD c 0
  let fs := ms.map of32
  let nan := 0x7FC00000
  match link with
  | 0 => x
  | 1 =>
    (match of32 x with
      | .nan => nan
      | .inf false => 0x3F800000
      | .inf true => 0
      | .fin _ _ _ => Config.treeLink 1 [x] 0)
  | 3 =>
    (match of32 x with
      | .nan => nan
      | .inf false => 0x7F800000
      | .inf true => 0
      | .fin b m e => if flLt (of32 0x42B17217) (.fin b m e) then 0x7F800000
          else if flLt (.fin b m e) (of32 0xC2AEAC4F) then 0 else Config.treeLink 3 [x] 0)
  | _ =>
    if fs.any (fun f => isNan f || f == .inf false) || fs.all (· == .inf true) then nan
    else if of32 x = .inf true then 0 else Config.treeLink 2 ms c

/-- The outputs of one row, and the margins behind them. -/
def rowOut (s : State) (m : Model) (row : Nat) : List Nat × List Nat :=
  let ms := (List.range m.ncls).map (marginOf s m row)
  ((List.range m.ncls).map (linkOut m.link ms), ms)

/-- OSTRIDE (R400). -/
def outStride (m : Model) (margin : Bool) : Nat := (4 * m.ncls * (if margin then 2 else 1) + 15) / 16 * 16

/-- One row is evaluated and written; a row with a non-finite output is counted (R400). -/
def evalRow (m : Model) (j : TreJob) (a : State × Nat) (r : Nat) : State × Nat :=
  let (o, ms) := rowOut a.1 m (j.rowAddr + r * j.stride)
  let bs := (o ++ if j.margin then ms else []).flatMap (leBytes 4)
  (partWrite treePart (j.outAddr + r * outStride m j.margin) bs a.1,
   a.2 + if o.all (fun v => isFinite (of32 v)) then 0 else 1)

/-! Jobs (R401 to R409). -/

/-- A job's result posts (R405, R409), with its sync event (R650). -/
def jobPost (j : TreJob) (status rows nonfin cycles : Nat) (s : State) : State :=
  let s1 := wr s (F.TRE_JOB_STATS_CYCLES j.slot).addr (BitVec.ofNat 64 (min cycles (2 ^ 32 - 1) * 2 ^ 32 + nonfin))
  let s2 := if status = 0 ∨ status = 4 then s1 else report F.TRE_ERR_JOB_ERR 0x0C03 ADVISE (j.slot + 256 * status) s1
  let s3 := post (F.TRE_JOB_RESULT_SEQ j.slot).addr j.seq (BitVec.ofNat 64 (j.engine * 2 ^ 46 + rows * 2 ^ 15 + status)) s2
  syncEvent j.slot (0x50 + j.engine) (showTre s3)

/-- The engines that take jobs. -/
def engOn (s : State) (e : Nat) : Bool :=
  decide (e < get s F.GLB_PERSONALITY_TREE_ENG) && (get s F.TRE_CTL_ENG_EN).testBit e

/-- The engine of a job (R403). -/
def engineFor (s : State) : Option Nat :=
  ((List.range 4).filter (engOn s)).foldl (fun b e =>
    let n (x : Nat) : Nat := (s.tre.jobs.filter fun j => j.engine == x).length
    match b with
    | none => some e
    | some x => if n e < n x then some e else some x) none

/-- Why a job is refused at GO (R402): NO_MODEL, RANGE, BAD_DESC. -/
def jobBad (s : State) (j : TreJob) (pin : Bool) : Option Nat :=
  match s.tre.models.find? fun m => m.1 == j.model with
  | none => some 1
  | some b =>
    let m := modelAt s b.2.1
    let size := partSize s treePart
    let rowLen := (j.rows - 1) * j.stride + 4 * m.nfeat
    let outLen := (j.rows - 1) * outStride m j.margin + 4 * m.ncls * (if j.margin then 2 else 1)
    if j.rowAddr % 64 ≠ 0 ∨ j.stride % 64 ≠ 0 ∨ size < j.rowAddr + rowLen ∨ size < j.outAddr + outLen
        ∨ (boundAt s j.rowAddr rowLen).isSome ∨ (boundAt s j.outAddr outLen).isSome then some 2
    else if j.rows = 0 ∨ 65536 < j.rows ∨ j.stride < 4 * m.nfeat ∨ meets j.rowAddr rowLen j.outAddr outLen
        ∨ (pin && !engOn s j.engine) ∨ (!pin && (engineFor s).isNone) then some 3
    else none

/-- GO of a job slot (R401, R402, R403). -/
def treeGo (i : Nat) (s : State) : State :=
  if valid s (F.TRE_JOB_RESULT_SEQ i).addr || s.tre.jobs.any (fun j => j.slot == i) then flag F.TRE_ERR_SLOT_BUSY s
  else
    let pin := on s (F.TRE_JOB_DESC0_PIN i)
    let j : TreJob :=
      { slot := i, seq := get s (F.TRE_JOB_CTL_SEQ i), model := get s (F.TRE_JOB_DESC0_MODEL i), rows := get s (F.TRE_JOB_DESC0_ROWS i),
        margin := on s (F.TRE_JOB_DESC0_OUT_MARGIN i), stride := get s (F.TRE_JOB_DESC1_ROW_STRIDE i),
        rowAddr := get s (F.TRE_JOB_DESC1_ROW_ADDR i), outAddr := get s (F.TRE_JOB_DESC2_OUT_ADDR i),
        engine := if pin then get s (F.TRE_JOB_DESC0_ENGINE i) else (engineFor s).getD 0, running := false }
    match jobBad s j pin with
    | some st => jobPost { j with engine := 0 } st 0 0 0 s
    | none => showTre (setTre { s.tre with jobs := s.tre.jobs ++ [j] } s)

/-- An idle engine starts its oldest job (R403); none under a quiesce (R407) or a fence. -/
def treeStart (e : Nat) (s : State) : State :=
  if held s 0x0C || pageFenced s 0x0C || inReset s 1 || s.clk.stopped || s.tre.jobs.any (fun j => j.engine == e && j.running) then s
  else match s.tre.jobs.find? fun j => j.engine == e with
    | none => s
    | some j => showTre (setTre { s.tre with jobs := s.tre.jobs.map fun x => if x.slot = j.slot then { x with running := true } else x } s)

/-- TREE_JOB_START (R403). -/
def execTreeJobStart (e : Nat) (s : State) : Host.Outcome State Fault Refusal := .next (treeStart e s)

/-- The job of an engine ends (R400, R405, R406): `cycles` CCLK cycles run, and an uncorrectable error, if any, with the row in
progress, whether it was met in the model, and its SRAM word. -/
def treeDone (e cycles : Nat) (ecc : Option (Nat × Bool × Nat)) (s : State) : State :=
  match s.tre.jobs.find? fun j => j.engine == e && j.running with
  | none => s
  | some j =>
    match s.tre.models.find? fun m => m.1 == j.model with
    | none => s
    | some b =>
      let n := match ecc with | some x => min x.1 j.rows | none => j.rows
      let (s1, nf) := (List.range n).foldl (evalRow (modelAt s b.2.1) j) (s, 0)
      let s2 := prod 9 cycles (setTre { s1.tre with jobs := s1.tre.jobs.filter fun x => x.slot != j.slot } s1)
      match ecc with
      | none => jobPost j 0 n nf cycles s2
      | some (_, inModel, word) =>
        let s3 := note 0x0C04 FAULT (j.model + 2 ^ 32 * word) (flag F.TRE_ERR_ECC s2)
        let s4 := if inModel then unbind j.model true s3 else s3
        jobPost j 5 n nf cycles s4

/-- TREE_JOB_DONE (R405). -/
def execTreeJobDone (e cycles : Nat) (ecc : Option (Nat × Bool × Nat)) (s : State) : Host.Outcome State Fault Refusal :=
  .next (treeDone e cycles ecc s)

/-- Every job ends ABORTED (R407, R571): the state after and the number ended. -/
def treeAbort (s : State) : State :=
  s.tre.jobs.foldl (fun s j => jobPost j 4 0 0 0 s) (setTre { s.tre with jobs := [] } s)

/-! Registers. -/

/-- The unit's treatment of a write to the TRE page. -/
def treWrite (a : Nat) (acc : Acc) (s : State) : State :=
  let i := (a - 0x0C1000) / 0x40
  if a = F.TRE_MODEL_RESULT_SEQ.addr ∨ (0x0C1000 ≤ a ∧ a < 0x0C1400 ∧ (a - 0x0C1000) % 0x40 = 0x20) then consume a acc s
  else
    let s1 := perform a acc s
    if a = F.TRE_MODEL_CMD_START.addr then (if wrote1 acc F.TRE_MODEL_CMD_START then modelCmd s1 else s1)
    else if 0x0C1000 ≤ a ∧ a < 0x0C1400 ∧ (a - 0x0C1000) % 0x40 = 0x18 ∧ wrote1 acc (F.TRE_JOB_CTL_GO i) then treeGo i s1
    else s1

/-- MODEL_BIND (R388). -/
def execModelBind (acc : Acc) (s : State) : Host.Outcome State Fault Refusal :=
  .next (portWrite treWrite F.TRE_MODEL_CMD_START.addr (force F.TRE_MODEL_CMD_START 1 (force F.TRE_MODEL_CMD_OP 0 acc)) s)
/-- MODEL_UNBIND (R388). -/
def execModelUnbind (acc : Acc) (s : State) : Host.Outcome State Fault Refusal :=
  .next (portWrite treWrite F.TRE_MODEL_CMD_START.addr (force F.TRE_MODEL_CMD_START 1 (force F.TRE_MODEL_CMD_OP 1 acc)) s)
/-- TREE_JOB_GO (R401). -/
def execTreeJobGo (i : Nat) (acc : Acc) (s : State) : Host.Outcome State Fault Refusal :=
  .next (portWrite treWrite (F.TRE_JOB_CTL_GO i).addr (force (F.TRE_JOB_CTL_GO i) 1 acc) s)

end Sys2Proof.Machine
end

