-- ==== Sys2Proof/Machine/Health.lean ====
section
/-!
DEFINITION. Verdict records (R429, R433, R474, R475), fault marks and the retirement of arrays (R425, R485, R486), residue and SECDED
errors of a pass (R422, R424), and the capacity of verification (R480).
-/
namespace Sys2Proof.Machine

def setArr (a : ArrSt) (s : State) : State := { s with arr := a }
def setVer (v : VerSt) (s : State) : State := { s with ver := v }
def setFlt (f : FltSt) (s : State) : State := { s with flt := f }

/-! Verdict records (R429). -/

/-- The first 20 bytes and the 28 bytes of a kind. -/
def verdictBytes (s : State) (epoch kind sev domain det subjIdx subjLvl : Nat) (rest : List Byte) : List Byte :=
  leBytes 6 epoch ++ leBytes 1 kind ++ leBytes 1 sev ++ leBytes 4 (domain % 2 ^ 20 + 2 ^ 20 * det)
    ++ leBytes 4 (subjIdx % 2 ^ 24 + 2 ^ 24 * subjLvl) ++ leBytes 4 (index s + 2 ^ 24 * level s) ++ padTo 28 rest

/-- A confirmed verdict goes up and into the verdict store, with record 0x0A04 (R319, R433, R475, R618). -/
def issueVerdict (d n via : Nat) (pw : Option Nat) (b : List Byte) (s : State) : State :=
  let s1 := storeVerdict b (confirmNote n pw s)
  if on s1 F.CRV_CTL_EN && !inReset s1 3 then sendUp 0x04 fCONF d n via b s1 else s1

/-- The epoch of a domain in progress. -/
def epochNow (s : State) (d : Nat) : Nat := nextEpoch s d - 1
def seedDomain (s : State) : Nat := get s F.EOP_CTL_SEED_DOMAIN

/-- A verdict of the verifier (R474, R475): detector field 0x3F, source VER_ACT. -/
def verVerdict (d n kind sev subjIdx subjLvl : Nat) (rest : List Byte) (s : State) : State :=
  let s1 := issueVerdict d n n none (verdictBytes s n kind sev d 0x3F subjIdx subjLvl rest) s
  if on s F.VER_POLICY_IRQ then raiseIrq (irqAct 0x0F) s1 else s1

/-! Capacity (R480). -/

/-- Bits set among the first `n`. -/
def popBits (n v : Nat) : Nat := ((List.range n).filter fun i => v.testBit i).length
def avail (s : State) (a : Nat) : Bool := decide (a < 48) && (get s F.ARR_AVAIL_AVAIL).testBit a
def inService (s : State) : List Nat := (List.range 48).filter (avail s)

/-- ⌊n × 1,024 × r × f × (1 − 2^-FIELD_SVC) × (256 − SCORE_RSV) / 256⌋, f in tenths of GHz and r in quarters. -/
def capacityOf (s : State) : Nat :=
  let f := if on s F.CLK_STATUS_CCLK_DIV then 8 else 16
  let fmt := get s F.VER_HOST_RATE_FMT
  let r := if fmt ≤ 14 then fmtRate4 fmt else 0
  let svc := get s F.ARR_SHARE_FIELD_SVC
  (inService s).length * 1024 * r * f * (2 ^ svc - 1) * (256 - get s F.VER_CTL_SCORE_RSV) / (40 * 2 ^ svc * 256)

/-- VER_RATES and VER_CAPACITY are computed anew. -/
def showCapacity (s : State) : State :=
  let v := capacityOf s
  let own := get s F.VER_ENG_MASK_MASK ≠ 0
  let share := v / (if own then 17 else 16)
  let (loc, kid) := match pers s with
    | 1 => (v, 0)
    | 2 => (if own then share else 0, share)
    | _ => (0, 0)
  let host := get s F.VER_HOST_RATE_RATE
  let ppm (x : Nat) : Nat := if host = 0 then 0 else min 65535 (x * 1000000 / host)
  let l := ppm loc
  let t := if pers s = 1 ∧ on s F.VER_CTL_TRAY_EN then ppm (get s F.VER_TRAY_GRANT_GRANT) else 0
  let w (f : Field) (n : Nat) (s : State) : State := wr s f.addr (BitVec.ofNat 64 n)
  if pers s = 3 then s
  else w F.VER_CAPACITY_LOCAL_PPM (min (2 ^ 26) ((l + t) * 2 ^ 32 / 1000000) * 2 ^ 32 + t * 2 ^ 16 + l)
    (w F.VER_RATES_LOCAL_RATE (min (2 ^ 32 - 1) kid * 2 ^ 32 + min (2 ^ 32 - 1) loc) s)

/-! Observation mode (R479). -/

/-- A subject's STATE. -/
def subjState (s : State) (i : Nat) : Nat := get s (F.VER_SUBJ_STATE_STATE i)
def observing (s : State) : Bool := on s F.VER_POLICY_MODE || (List.range 17).any fun i => subjState s i == 1

/-- VER_STATUS shows what is staged and whether observation mode holds. -/
def showVer (s : State) : State :=
  if pers s = 3 then s
  else
    set (set s F.VER_STATUS_QUEUED (s.ver.staged.length + (s.ver.asm.filter fun a => a.need != 0).length)) F.VER_STATUS_OBS_ACTIVE (if observing s then 1 else 0)

/-! Fault marks (R485). -/

def marksOf (s : State) (a : Nat) : List (Nat × Nat) := s.flt.marks.filter fun m => m.1 == a

/-- FLT_ARRa shows the marks of an array. -/
def showMarks (a : Nat) (s : State) : State := set s (F.FLT_ARR_MARKS a) (min 255 (marksOf s a).length)

/-- An array takes a fault mark. -/
def mark (a : Nat) (s : State) : State :=
  showMarks a (set (setFlt { s.flt with marks := s.flt.marks ++ [(a, s.tim.tb2)] } s) (F.FLT_ARR_LAST_MARK a) (ns2 s / 1000000000))

/-- The lowest-numbered spare leaves ARR_SPARE for its tests (R486). -/
def nextSpare (s : State) : Option Nat := (List.range 48).find? fun a => (get s F.ARR_SPARE_SPARE).testBit a

def startSpare (s : State) : State :=
  if pers s ≠ 2 then s
  else match s.flt.spare, nextSpare s with
    | some _, _ => s
    | none, none => flag F.FLT_ERR_NO_SPARE s
    | none, some a => setFlt { s.flt with spare := some (a, max 1 (get s F.FLT_RETIRE_SPARE_TESTS)) } (setBit s F.ARR_SPARE_SPARE a false)

/-- An array is retired (R425, R485, R486). -/
def retire (a : Nat) (s : State) : State :=
  let m := (marksOf s a).length
  let s1 := setBit (setBit s F.ARR_AVAIL_AVAIL a false) F.ARR_RETIRED_RETIRED a true
  let s2 := startSpare s1
  let sp := match s1.flt.spare, s2.flt.spare with
    | none, some (x, _) => x
    | _, _ => 0xFF
  let d := seedDomain s
  let s3 := verVerdict d (epochNow s d) 0x16 6 (index s) (level s) (leBytes 1 a ++ leBytes 1 sp ++ leBytes 2 m) s2
  showCapacity (report F.FLT_ERR_RETIRED 0x1002 FAULT (a + 256 * sp + 2 ^ 16 * m) (prod 133 1 s3))

/-- Arrays in service whose marks have reached LIMIT are retired at their pass boundary. -/
def retireCheck (s : State) : State :=
  ((inService s).filter fun a => decide (max 1 (get s F.FLT_RETIRE_LIMIT) ≤ (marksOf s a).length)).foldl (fun s a => retire a s) s

/-- The earliest mark of an array expires at its time (R485). -/
def markExpire (a : Nat) (s : State) : State :=
  match marksOf s a with
  | [] => s
  | m :: _ =>
    let s1 := reachBase 2 (m.2 + get s F.FLT_RETIRE_WINDOW * 60000000000 * 2 ^ 48) s
    retireCheck (showMarks a (setFlt { s1.flt with marks := s1.flt.marks.erase m } s1))

/-- FAULT_MARK_EXPIRE (R485). -/
def execFaultMarkExpire (a : Nat) (s : State) : Host.Outcome State Fault Refusal := .next (markExpire a s)

/-! Errors of a pass (R422 to R424). -/

/-- The array that re-runs a pass of array `a`: another in service if there is one. -/
def otherArray (s : State) (a : Nat) : Nat := ((inService s).find? (· != a)).getD a

/-- One residue mismatch on an array. -/
def residueHit (a : Nat) (s : State) : State := mark a (bump (prod 125 1 s) (F.ARR_RES_RESIDUE a) 1)

/-- A residue mismatch of a pass of a user, with the outcome of its re-run (R422). -/
def residueError (a user : Nat) (rerunOk : Bool) (s : State) : State :=
  let s1 := residueHit a s
  let s2 := if rerunOk then s1 else residueHit (otherArray s a) s1
  report F.ARR_ERR_RESIDUE 0x0D01 FAULT (a + 256 * user + 2 ^ 16 * (if rerunOk then 0 else 1)) s2

/-- An uncorrectable error on an array (R424). -/
def eccError (a word : Nat) (s : State) : State :=
  report F.ARR_ERR_ECC 0x0D02 FAULT (a + 2 ^ 32 * word) (mark a (bump s (F.ARR_RES_UNCORR a) 1))

end Sys2Proof.Machine
end

