-- ==== Sys2Proof/Machine/Arrays.lean ====
section
/-!
DEFINITION. The arrays (R411 to R428): job slots, passes and the choice of their user, the vector unit, and the layout of witness
records (R454, R455), whose reference passes run on the arrays.
-/
namespace Sys2Proof.Machine

/-! Witness records (R454, R455). -/

def wKind (b : List Byte) : Nat := leAt b 0 1
def wRule (b : List Byte) : Nat := leAt b 1 1 % 8
def wAcc (b : List Byte) : Bool := (leAt b 1 1).testBit 3
def wFa (b : List Byte) : Nat := leAt b 2 1 % 16
def wFb (b : List Byte) : Nat := leAt b 2 1 / 16
def wM (b : List Byte) : Nat := leAt b 4 2
def wN (b : List Byte) : Nat := leAt b 6 2
def wK (b : List Byte) : Nat := leAt b 8 2
def wLength (b : List Byte) : Nat := leAt b 12 4
def wKey (b : List Byte) : Nat := leAt b 16 8
def wEngine (b : List Byte) : Nat := wKey b / 2 ^ 58
def wTile (b : List Byte) : Nat := wKey b % 2 ^ 42
def wEpochLo (b : List Byte) : Nat := natBits (wKey b) 42 16

/-- A scale section is present. -/
def wMx (b : List Byte) : Bool := fmtMx (wFa b) || fmtMx (wFb b)

/-- LENGTH by kind (R455). -/
def wLengthOf (b : List Byte) : Nat :=
  let m := wM b
  let rc := outBytes 4 (wN b) / 64
  let body := 1 + m * (rowBytes (wFa b) (wK b) / 64) + wN b * (rowBytes (wFb b) (wK b) / 64)
    + (if wMx b then (m + wN b) * (scaleBytes (wK b) / 64) else 0)
  match wKind b with
  | 1 => body + ((if wAcc b then 1 else 0) + 1) * m * rc
  | 3 => 1 + m * rc
  | 4 => body + (if wAcc b then m * rc else 0)
  | _ => 1

/-- The operands of a TILE record and the host's C_out. -/
def wTileOf (b : List Byte) : Tile × List Byte :=
  let m := wM b
  let o1 := 64 + m * rowBytes (wFa b) (wK b)
  let o2 := o1 + wN b * rowBytes (wFb b) (wK b)
  let o3 := o2 + if wMx b then (m + wN b) * scaleBytes (wK b) else 0
  let c := m * outBytes 4 (wN b)
  ({ m, n := wN b, k := wK b, fa := wFa b, fb := wFb b, a := (b.drop 64).take (o1 - 64), b := (b.drop o1).take (o2 - o1),
     scales := (b.drop o2).take (o3 - o2), c := if wAcc b then some ((b.drop o3).take c) else none },
   b.drop (o3 + if wAcc b then c else 0))

/-- Passes of a result of m × n elements (R419), and the pass of an element. -/
def passesOf (m n : Nat) : Nat := (m + 15) / 16 * ((n + 63) / 64)
def passOf (n i j : Nat) : Nat := i / 16 * ((n + 63) / 64) + j / 64

/-- The verifier re-executes nothing in host-assisted mode (R491). -/
def hostVerify (s : State) : Bool := (get s F.GLB_FUNC_MODE_MODE).testBit 3

/-- The passes of a record that hold a failing element (R471). -/
def failPasses (r : VRec) : List Nat := (r.fails.map fun f => passOf (wN r.bytes) f.1 f.2.1).dedup

/-- The next VERIFY pass that array `a` can take: an update of its record (R459, R468, R471). -/
def verifyPass (s : State) (a : Nat) : Option (VRec × Option Nat) :=
  if hostVerify s then none
  else match s.ver.staged with
    | [] => none
    | r :: _ =>
      if !r.confirming then
        if r.runs.length < passesOf (wM r.bytes) (wN r.bytes) then some (r, none) else none
      else
        let first := (failPasses r).filterMap fun p => r.runs[p]?
        let fresh := (inService s).any fun x => !first.contains x
        match (failPasses r).find? fun p => !r.again.any fun x => x.1 == p with
        | some p => if fresh && first.contains a then none else some (r, some p)
        | none => none

/-! Jobs. -/

/-- Fields of a job's DESC0. -/
def ArrJob.k (j : ArrJob) : Nat := bitsAt j.d0 50 14
def ArrJob.n (j : ArrJob) : Nat := bitsAt j.d0 41 9
def ArrJob.m (j : ArrJob) : Nat := bitsAt j.d0 32 9
def ArrJob.fa (j : ArrJob) : Nat := bitsAt j.d0 28 4
def ArrJob.fb (j : ArrJob) : Nat := bitsAt j.d0 24 4
def ArrJob.out (j : ArrJob) : Nat := bitsAt j.d0 22 2
def ArrJob.order (j : ArrJob) : Option Nat := if j.d0.getLsbD 19 then some (bitsAt j.d0 20 2) else none
def ArrJob.acc (j : ArrJob) : Bool := j.d0.getLsbD 18
def ArrJob.pin (j : ArrJob) : Option Nat := if j.d0.getLsbD 11 then some (bitsAt j.d0 12 6) else none
def ArrJob.urgent (j : ArrJob) : Bool := j.d0.getLsbD 10
def ArrJob.post (j : ArrJob) : Nat := bitsAt j.d0 0 8
def ArrJob.bAddr (j : ArrJob) : Nat := bitsAt j.d1 32 32
def ArrJob.aAddr (j : ArrJob) : Nat := bitsAt j.d1 0 32
def ArrJob.cAddr (j : ArrJob) : Nat := bitsAt j.d2 32 32
def ArrJob.scaleAddr (j : ArrJob) : Nat := bitsAt j.d2 0 32
def ArrJob.paramAddr (j : ArrJob) : Nat := bitsAt j.d3 0 32
def ArrJob.mx (j : ArrJob) : Bool := fmtMx j.fa || fmtMx j.fb
/-- Bytes of an element of C: INT32 bucket indices are 4 wide. -/
def ArrJob.width (j : ArrJob) : Nat := if j.post = 11 then 4 else outWidth j.out
def ArrJob.total (j : ArrJob) : Nat := passesOf j.m j.n

/-- Bytes of the parameters of a post-operation (R420). -/
def paramBytes (j : ArrJob) : Nat :=
  match j.post with
  | 8 => 8 * j.n
  | 9 => 4 * j.n
  | 10 => 4 * j.n
  | 12 => 4096
  | _ => 0

/-- The ranges that a job uses: address and bytes. -/
def jobRanges (j : ArrJob) : List (Nat × Nat) :=
  ([(j.aAddr, j.m * rowBytes j.fa j.k), (j.bAddr, j.n * rowBytes j.fb j.k),
    (j.scaleAddr, if j.mx then (j.m + j.n) * scaleBytes j.k else 0),
    (j.cAddr, if j.post = 12 ∧ !j.acc then 0 else j.m * outBytes j.width j.n),
    (j.paramAddr, paramBytes j)] : List (Nat × Nat)).filter fun e => e.2 != 0

/-- The partition of the arrays (R724). -/
def arrPart : Nat := 4

/-- PIN names an array that is not in service. -/
def pinBad (s : State) (j : ArrJob) : Bool :=
  match j.pin with
  | some a => !avail s a
  | none => false

/-- Why a job is refused at GO (R421): 1 BAD_DESC, 2 RANGE. -/
def arrBad (s : State) (j : ArrJob) : Option Nat :=
  if j.m = 0 ∨ 256 < j.m ∨ j.n = 0 ∨ 256 < j.n ∨ j.k = 0 ∨ 8192 < j.k ∨ !fmtPair j.fa j.fb ∨ (j.acc && j.out != 0) ∨ 12 < j.post
      ∨ pinBad s j then some 1
  else if (jobRanges j).any fun e => e.1 % 64 != 0 || decide (partSize s arrPart < e.1 + e.2) then some 2
  else none

/-- The tile of a job, from the partition. -/
def jobTile (s : State) (j : ArrJob) : Tile :=
  { m := j.m, n := j.n, k := j.k, fa := j.fa, fb := j.fb, a := partRead s arrPart j.aAddr (j.m * rowBytes j.fa j.k),
    b := partRead s arrPart j.bAddr (j.n * rowBytes j.fb j.k),
    scales := if j.mx then partRead s arrPart j.scaleAddr ((j.m + j.n) * scaleBytes j.k) else [],
    c := if j.acc then some (partRead s arrPart j.cAddr (j.m * outBytes 4 j.n)) else none }

/-! The vector unit (R417, R420). -/

/-- Row operations. -/
def rowOp (post : Nat) : Bool := post == 7 || post == 8 || post == 9

/-- An INT8 job's result enters the vector unit as its value, others as FP32. -/
def asValue (j : ArrJob) (v : Nat) : Fl := if fmtInt j.fa then ofInt (toSigned 32 v) else of32 v

/-- An element after a post-operation: `row` are the results of its row as FP32 bits, `ps` the parameters, `c` its column. -/
def postElem (j : ArrJob) (ps row : List Nat) (c v : Nat) : Nat :=
  let x := asValue j v
  match j.post with
  | 0 => if fmtInt j.fa && j.out == 0 then v else convert j.out x
  | 1 =>
    (match x with
      | .fin true m _ => if m = 0 then convert j.out (of32 (Config.vectorOp 1 [fl32 x] [] 0)) else convert j.out (.fin false 0 0)
      | .inf true => convert j.out (.fin false 0 0)
      | .nan => convert j.out (of32 (Config.vectorOp 1 [fl32 x] [] 0))
      | y => convert j.out y)
  | 10 => convert j.out (add32 (round32 x) (of32 (ps.getD c 0)))
  | 11 => (match bucketOf (fl32 x) with | some b => b | none => 2 ^ 32 - 1)
  | p => if rowOp p then convert j.out (of32 (Config.vectorOp p row ps c)) else convert j.out (of32 (Config.vectorOp p [fl32 x] [] 0))

/-- The block of C of a pass: its rows and columns. -/
def passBlock (j : ArrJob) (p : Nat) : List Nat × List Nat :=
  let nc := (j.n + 63) / 64
  let r := p / nc
  let c := p % nc
  ((List.range 16).map (16 * r + ·) |>.filter (· < j.m), (List.range 64).map (64 * c + ·) |>.filter (· < j.n))

/-- A sketch takes a value (POST 12): NaN adds to no bucket, counts saturate. -/
def sketchCell (j : ArrJob) (v : Nat) (s : State) : State :=
  match bucketOf (fl32 (asValue j v)) with
  | none => s
  | some b =>
    let at' := j.paramAddr + 4 * b
    partWrite arrPart at' (leBytes 4 (satAdd 32 (partWord s arrPart at' 4) 1)) s

/-- A pass's results are written: element by element, and for a row operation with the last pass of its rows. The second
component tells a saturation of INT32. -/
def writePass (j : ArrJob) (p : Nat) (s : State) : State × Bool :=
  let t := jobTile s j
  let (rows, cols) := passBlock j p
  let ps := (List.range (paramBytes j / 4)).map fun i => partWord s arrPart (j.paramAddr + 4 * i) 4
  let sat := rows.any fun r => cols.any fun c => (cellResult t j.order r c).2
  let w := j.width
  let put (s : State) (r : Nat) (cs vs : List Nat) : State :=
    partWrite arrPart (j.cAddr + r * outBytes w j.n + w * cs.headD 0) (vs.flatMap (leBytes w)) s
  let s1 :=
    if j.post = 12 then
      rows.foldl (fun s r => cols.foldl (fun s c => sketchCell j (cellResult t j.order r c).1 s) s) s
    else if rowOp j.post then
      if (p + 1) % ((j.n + 63) / 64) ≠ 0 then s
      else rows.foldl (fun s r =>
        let vs := (List.range j.n).map fun c => (cellResult t j.order r c).1
        let row := vs.map fun v => fl32 (asValue j v)
        put s r [0] ((List.range j.n).map fun c => postElem j ps row c (vs.getD c 0))) s
    else rows.foldl (fun s r => put s r cols (cols.map fun c => postElem j ps [] c (cellResult t j.order r c).1)) s
  (s1, sat)

/-! Sharing (R426, R427). -/

/-- The window of 65,536 CCLK cycles in 2^-48 ns of TB2. -/
def arrWindow (s : State) : Nat := (if on s F.CLK_STATUS_CCLK_DIV then 81920 else 40960) * 2 ^ 48

/-- Cycles served to a user on an array in the window. -/
def cyclesIn (s : State) (a u : Nat) : Nat :=
  s.arr.served.foldl (fun n e => if e.1 = a ∧ e.2.1 = u ∧ s.tim.tb2 < e.2.2.1 + arrWindow s then n + e.2.2.2 else n) 0

/-- Cycles are served: the count of the user, the window, and the busy cycles of the arrays (R194). -/
def serve (a u cycles : Nat) (s : State) : State :=
  let f := if u = 0 then F.ARR_CYC_SCORE_CYCLES else if u = 1 then F.ARR_CYC_VERIFY_CYCLES else F.ARR_CYC_FIELD_CYCLES
  let kept := s.arr.served.filter fun e => decide (s.tim.tb2 < e.2.2.1 + arrWindow s)
  setArr { s.arr with served := kept ++ [(a, u, s.tim.tb2, cycles)] } (prod 8 cycles (bump s f cycles))

/-- VERIFY has work for an array and is below its floor. -/
def belowFloor (s : State) (a : Nat) : Bool :=
  (verifyPass s a).isSome && decide (cyclesIn s a 1 < get s F.ARR_SHARE_VER_FLOOR * 256)

/-- The job of SCORING for an array: urgent first, then the oldest. -/
def scoringJob (s : State) (a : Nat) (urgent : Bool) : Option ArrJob :=
  s.arr.jobs.find? fun j => decide (j.passes < j.total) && (match j.pin with | some x => x == a | none => true) && (!urgent || j.urgent)

/-- An array takes passes (R426, R428). Under a fence of CALC the passes in progress run to their end before it reads FENCED (R567). -/
def arrRuns (s : State) (a : Nat) : Bool :=
  avail s a && on s F.ARR_CTL_EN && !held s 0x0D && !decide (3 ≤ fenceState s 1) && !inReset s 1 && !s.clk.stopped

/-- What an array runs by R426: none for FIELD or idle, else the job, or none for a VERIFY pass. -/
def arrChoice (s : State) (a : Nat) : Option (Option ArrJob) :=
  if !arrRuns s a then none
  else match scoringJob s a true with
    | some j => some (some j)
    | none =>
      if belowFloor s a then some none
      else match scoringJob s a false, verifyPass s a with
        | some j, none => some (some j)
        | none, some _ => some none
        | none, none => none
        | some j, some _ =>
          if cyclesIn s a 1 * max 1 (get s F.ARR_SHARE_W_SCORE) ≤ cyclesIn s a 0 * max 1 (get s F.ARR_SHARE_W_VERIFY) then some none
          else some (some j)

/-- ARR_STATUS: arrays that have a pass to run, no more of them than there are passes, from the lowest. -/
def showArr (s : State) : State :=
  let left := s.arr.jobs.foldl (fun n j => n + (j.total - j.passes)) 0
    + (match s.ver.staged with
      | r :: _ => if hostVerify s then 0 else if r.confirming then (failPasses r).length - r.again.length
          else passesOf (wM r.bytes) (wN r.bytes) - r.runs.length
      | [] => 0)
  let busy := ((List.range 48).filter fun a => (arrChoice s a).isSome).take left
  set s F.ARR_STATUS_BUSY (busy.foldl (fun m a => m ||| 2 ^ a) 0)

/-- An urgent pass taken while VERIFY is below its floor (R427). -/
def floorBreach (a : Nat) (s : State) : State :=
  if !belowFloor s a then setArr { s.arr with floorRun := false } s
  else
    let r : Raised := { recOf 0x0D04 ADVISE (3 + 256 * a + 2 ^ 16 * 3 + 2 ^ 32 * 6) with run := if s.arr.floorRun then 2 else 1, key := 3 }
    if s.arr.floorRun then record r s
    else record r (setArr { s.arr with floorRun := true } (flag F.ARR_ERR_FLOOR_BREACH (bump s F.INK_LADDER_CNT1_RANK6 1)))

/-! Slots. -/

/-- A job's result posts (R419, R421), with its sync event (R650). -/
def arrPost (j : ArrJob) (status a : Nat) (s : State) : State :=
  let stats := min j.cycles (2 ^ 32 - 1) * 2 ^ 32 + min j.passes 65535 * 2 ^ 16 + min j.reruns 255
  let s1 := wr s (F.ARR_JOB_STATS_CYCLES j.slot).addr (BitVec.ofNat 64 stats)
  let s2 := if status = 0 ∨ status = 5 then s1 else report F.ARR_ERR_JOB_ERR 0x0D03 ADVISE (j.slot + 256 * status) s1
  let s3 := post (F.ARR_JOB_RESULT_SEQ j.slot).addr j.seq (BitVec.ofNat 64 ((if j.sat then 2 ^ 16 else 0) + status)) s2
  showArr (syncEvent (0x10 + j.slot) (0x20 + a) (setArr { s3.arr with jobs := s3.arr.jobs.filter fun x => x.slot != j.slot } s3))

/-- GO of a job slot (R401, R402, R421). -/
def arrayGo (i : Nat) (s : State) : State :=
  if valid s (F.ARR_JOB_RESULT_SEQ i).addr || s.arr.jobs.any (fun j => j.slot == i) then flag F.ARR_ERR_SLOT_BUSY s
  else
    let j : ArrJob :=
      { slot := i, seq := get s (F.ARR_JOB_CTL_SEQ i), d0 := rd s (F.ARR_JOB_DESC0_K i).addr, d1 := rd s (F.ARR_JOB_DESC1_A_ADDR i).addr,
        d2 := rd s (F.ARR_JOB_DESC2_C_ADDR i).addr, d3 := rd s (F.ARR_JOB_DESC3_PARAM_ADDR i).addr }
    match arrBad s j with
    | some st => arrPost j st 0 s
    | none => showArr (setArr { s.arr with jobs := s.arr.jobs ++ [j] } s)

def putJob (j : ArrJob) (s : State) : State :=
  setArr { s.arr with jobs := s.arr.jobs.map fun x => if x.slot = j.slot then j else x } s

/-- A scoring pass ends on an array. -/
def scoringPass (j : ArrJob) (a cycles : Nat) (residue : Option Bool) (ecc : Option Nat) (s : State) : State :=
  let s1 := serve a 0 cycles (if j.urgent then floorBreach a s else s)
  let j1 := { j with cycles := j.cycles + cycles }
  match ecc, residue with
  | some w, _ => arrPost j1 4 a (eccError a w s1)
  | none, some false => arrPost { j1 with reruns := j.reruns + 1 } 3 a (residueError a 0 false s1)
  | none, res =>
    let s2 := if res.isSome then residueError a 0 true s1 else s1
    let (s3, sat) := writePass j j.passes (if j.post = 0 then s2 else busyFor 10 s2)
    let j2 := { j1 with passes := j.passes + 1, reruns := j.reruns + (if res.isSome then 1 else 0), sat := j.sat || sat }
    if j2.passes < j2.total then showArr (putJob j2 s3) else arrPost j2 0 a s3

/-- A VERIFY pass ends on an array (R468, R471, R472). -/
def verifyPassDone (r : VRec) (p : Option Nat) (a cycles : Nat) (residue : Option Bool) (ecc : Option Nat) (s : State) : State :=
  let s1 := serve a 1 cycles s
  let s2 := match ecc, residue with
    | some w, _ => eccError a w s1
    | none, some ok => residueError a 1 ok s1
    | none, none => s1
  let r1 : VRec := match p with
    | none => { r with runs := r.runs ++ [a] }
    | some q => { r with again := r.again ++ [(q, a)] }
  let r2 := { r1 with bad := r.bad || ecc.isSome || residue == some false }
  showArr (setVer { s2.ver with staged := r2 :: s2.ver.staged.tail } s2)

/-- A pass ends on an array: `cycles` it took, the outcome of a re-run after a residue mismatch, and the SRAM word of an
uncorrectable error. -/
def passDone (a cycles : Nat) (residue : Option Bool) (ecc : Option Nat) (s : State) : State :=
  match arrChoice s a with
  | none => s
  | some (some j) => showArr (retireCheck (scoringPass j a cycles residue ecc s))
  | some none =>
    match verifyPass s a with
    | none => s
    | some (r, p) => showArr (retireCheck (verifyPassDone r p a cycles residue ecc s))

/-- ARRAY_PASS_DONE (R419, R422 to R427). -/
def execArrayPassDone (a cycles : Nat) (residue : Option Bool) (ecc : Option Nat) (s : State) : Host.Outcome State Fault Refusal :=
  .next (passDone a cycles residue ecc s)

/-- Every job ends ABORTED (R428, R571). -/
def arrayAbort (s : State) : State := s.arr.jobs.foldl (fun s j => arrPost j 5 0 s) s

/-- The unit's treatment of a write to the ARR page. -/
def arrWrite (a : Nat) (acc : Acc) (s : State) : State :=
  let i := (a - 0x0D1000) / 0x40
  let slot := decide (0x0D1000 ≤ a) && decide (a < 0x0D1200)
  if slot && (a - 0x0D1000) % 0x40 == 0x28 then consume a acc s
  else
    let s1 := perform a acc s
    if slot && (a - 0x0D1000) % 0x40 == 0x20 then (if wrote1 acc (F.ARR_JOB_CTL_GO i) then arrayGo i s1 else s1)
    else showArr (showCapacity s1)

/-- ARRAY_JOB_GO (R421). -/
def execArrayJobGo (i : Nat) (acc : Acc) (s : State) : Host.Outcome State Fault Refusal :=
  .next (portWrite arrWrite (F.ARR_JOB_CTL_GO i).addr (force (F.ARR_JOB_CTL_GO i) 1 acc) s)

end Sys2Proof.Machine
end

