-- ==== Sys2Proof/Machine/Sep.lean ====
section
/-!
DEFINITION. The Sideband Ethernet Port (R160 to R168): frame checks, the firmware rings, recognition of PTP messages, the
tray's forwarding and its transparent clock (R265, R266).
-/
namespace Sys2Proof.Machine

/-! Frames: destination 6 bytes, source 6 bytes, an optional VLAN tag, EtherType, payload, FCS 4 bytes. -/

/-- One step of the FCS of IEEE 802.3 over one byte (reflected polynomial 0xEDB88320; PRESUMED, log 11). -/
def fcsByte (c : BitVec 32) (b : Byte) : BitVec 32 :=
  (List.range 8).foldl (fun c _ => if c.getLsbD 0 then (c >>> 1) ^^^ 0xEDB88320#32 else c >>> 1) (c ^^^ b.setWidth 32)
def fcs (bs : List Byte) : Nat := (~~~ bs.foldl fcsByte 0xFFFFFFFF#32).toNat

/-- A frame without its FCS, and a frame with a fresh one (R165). -/
def frameBody (f : List Byte) : List Byte := f.take (f.length - 4)
def withFcs (b : List Byte) : List Byte := b ++ leBytes 4 (fcs b)
/-- The FCS of a frame is right (R161). -/
def fcsOk (f : List Byte) : Bool := decide (4 ≤ f.length) && leAt f (f.length - 4) 4 == fcs (frameBody f)

/-- A big-endian number of `n` bytes at `i`. -/
def beAt (f : List Byte) (i n : Nat) : Nat := beNat ((f.drop i).take n)

/-- Destination and source address, and whether a tag of TPID 0x8100 stands behind them (R161). -/
def dstAddr (f : List Byte) : Nat := beAt f 0 6
def srcAddr (f : List Byte) : Nat := beAt f 6 6
def tagged (f : List Byte) : Bool := beAt f 12 2 == 0x8100
/-- Where the EtherType stands, and the EtherType. -/
def typeAt (f : List Byte) : Nat := if tagged f then 16 else 12
def etherType (f : List Byte) : Nat := beAt f (typeAt f) 2

/-- The station address, first transmitted byte in bits 7:0 of the register (SEP_MAC_ADDR). -/
def stationAddr (s : State) : Nat := beNat (leBytes 6 (get s F.SEP_MAC_ADDR_ADDR))

/-- A group address: bit 0 of the first byte. -/
def multicast (a : Nat) : Bool := a / 2 ^ 40 % 2 == 1

/-- Where a PTP message begins in a frame, if R162 recognises one. -/
def ptpAt (s : State) (f : List Byte) : Option Nat :=
  let e := typeAt f + 2
  match etherType f with
  | 0x88F7 =>
    if dstAddr f = 0x011B19000000 ∨ dstAddr f = 0x0180C200000E ∨ dstAddr f = stationAddr s then some e else none
  | 0x0800 =>
    let ip := beAt f (e + 16) 4
    let port := beAt f (e + 22) 2
    if beAt f e 1 = 0x45 ∧ beAt f (e + 9) 1 = 17 ∧ (port = 319 ∨ port = 320)
        ∧ (ip = 0xE0000181 ∨ ip = 0xE000006B ∨ ip / 2 ^ 28 ≠ 14) then some (e + 28) else none
  | 0x86DD =>
    let ip := beAt f (e + 24) 16
    let port := beAt f (e + 42) 2
    if beAt f e 1 / 16 = 6 ∧ beAt f (e + 6) 1 = 17 ∧ (port = 319 ∨ port = 320)
        ∧ (ip = 0xFF0E0000000000000000000000000181 ∨ ip = 0xFF020000000000000000000000000181
          ∨ ip = 0xFF02000000000000000000000000006B ∨ ip / 2 ^ 120 ≠ 0xFF) then some (e + 48) else none
  | _ => none

/-- messageType of the PTP message of a frame: 0 Sync, 1 Delay_Req, 2 and 3 the Pdelay events. -/
def ptpType (s : State) (f : List Byte) : Option Nat := (ptpAt s f).map fun p => beAt f p 1 % 16
/-- An event message: Sync, Delay_Req, Pdelay_Req or Pdelay_Resp. -/
def ptpEvent (s : State) (f : List Byte) : Bool :=
  match ptpType s f with
  | some t => decide (t < 4)
  | none => false

/-! Stamps (R163, R244). -/

/-- The 8-phase sampler: a base at a TCLK edge plus `phase` eighths of a cycle, as a multiple of 0.15625 ns (R244). -/
def sampled (base phase : Nat) : Nat := (base + phase % 8 * (5 * 2 ^ 43)) / (5 * 2 ^ 43) * (5 * 2 ^ 43)
/-- 2.560 ns: one 25GMII word (R163). -/
def wordTime : Nat := 2560 * 2 ^ 48 / 1000
/-- Ingress and egress time at port `p` of an edge sampled at `t` (R163). -/
def ingressTime (s : State) (p t : Nat) : Nat := t + wordTime - get s (F.SEP_LAT_RX p) * 2 ^ 32
def egressTime (s : State) (p t : Nat) : Nat := t + wordTime + get s (F.SEP_LAT_TX p) * 2 ^ 32

/-- A function of the function-mode table runs in host-assisted mode (R6). -/
def hostMode (s : State) (fn : Nat) : Bool := (get s F.GLB_FUNC_MODE_MODE).testBit fn

/-! The MAC. -/

/-- A port may receive: built and enabled, its PCS up, its crossing up, NET out of reset, and not in PS3. It sends only in PS0 and
PS1 (R667). -/
def portUp (s : State) (p : Nat) : Bool :=
  decide (p < 17) && bitOn s F.SEP_CTL_PORT_EN p && bitOn s F.SEP_STATUS_PCS_UP p && on s F.SEP_STATUS_LINK_UP && !inReset s 3
    && pwState s != 3
def maySend (s : State) (p : Nat) : Bool := portUp s p && decide (pwState s < 2)

/-- The tray forwards (R167). -/
def forwards (s : State) : Bool := pers s == 2 && on s F.SEP_CTL_TC_EN

/-- The ports a frame is forwarded to (R167). -/
def forwardTo (s : State) (port : Nat) (f : List Byte) : List Nat :=
  if dstAddr f = stationAddr s then []
  else if port ≠ 0 then [0]
  else
    let down := (List.range 17).filter fun p => p != 0 && bitOn s F.SEP_CTL_PORT_EN p
    if multicast (dstAddr f) then down
    else match s.sep.learned.find? fun e => e.2 == dstAddr f with
      | some e => [e.1]
      | none => down

/-- A frame is discarded with its flag, record and count (R161, R166). -/
def dropFrame (f cnt : Field) (code cls : Nat) (s : State) : State := report f code cls 0 (bump s cnt 1)

/-- A frame that is not PTP enters the firmware receive ring of 64 frames (R166). -/
def toFirmware (f : List Byte) (s : State) : State :=
  if 64 ≤ s.sep.fwRx.length then dropFrame F.SEP_ERR_FW_RX_FULL F.SEP_DROP_CNT_UNSUPPORTED 0x0604 ADVISE s
  else { s with sep := { s.sep with fwRx := s.sep.fwRx ++ [frameBody f] } }

/-- A whole frame arrives on a port (R161, R162, R166, R167). -/
def receiveFrame (port : Nat) (f : List Byte) (phase : Nat) (s : State) : State :=
  if !portUp s port then s
  else if 1522 < f.length then dropFrame F.SEP_ERR_OVERSIZE F.SEP_DROP_CNT_ERRORED 0x0602 ADVISE s
  else if !fcsOk f then dropFrame F.SEP_ERR_FCS_ERR F.SEP_DROP_CNT_ERRORED 0x0601 ADVISE s
  else if f.length < 64 then s
  else if etherType f = 0x8808 then dropFrame F.SEP_ERR_MACCTL F.SEP_DROP_CNT_UNSUPPORTED 0x0603 INFO s
  else
    let s1 : State := if port = 0 then s
      else { s with sep := { s.sep with learned := store port (srcAddr f) s.sep.learned } }
    let s2 := if ptpEvent s f && !hostMode s 6 then prod 172 1 s1 else s1
    let s3 := if (ptpAt s f).isSome then s2 else toFirmware f s2
    let outs := if forwards s then forwardTo s1 port f else []
    if outs.isEmpty then s3
    else { s3 with sep := { s3.sep with fwd := s3.sep.fwd ++
      [{ port, bytes := frameBody f, ingress := ingressTime s port (sampled s.tim.tb2 phase), lost := false, outs }] } }

/-- SEP_FRAME_RECEIVE (R161). -/
def execSepFrameReceive (port : Nat) (frame : List Byte) (phase : Nat) (s : State) : Host.Outcome State Fault Refusal :=
  .next (receiveFrame port frame phase s)

/-- A frame of the block or of firmware takes the VLAN tag of SEP_CTL, unless it carries one (R161). -/
def vlanTag (s : State) (b : List Byte) : List Byte :=
  if on s F.SEP_CTL_VLAN_EN && !tagged b then
    let tci := get s F.SEP_CTL_VLAN_PCP * 2 ^ 13 + get s F.SEP_CTL_VLAN_ID
    b.take 12 ++ [0x81, 0x00, BitVec.ofNat 8 (tci / 256), BitVec.ofNat 8 tci] ++ b.drop 12
  else b

/-- The MAC sends a frame with its FCS, padded to 64 bytes (R161). -/
def sendFrame (port : Nat) (b : List Byte) (s : State) : State := emit (.frame port (withFcs (b ++ List.replicate (60 - b.length) 0))) s

/-- Firmware has placed frames in the transmit ring of 64, and the MAC sends the oldest frame of a port (R166). -/
def transmitFrame (port : Nat) (placed : List (List Byte)) (s : State) : State :=
  let s1 : State := { s with sep := { s.sep with fwTx := (s.sep.fwTx ++ placed.map fun b => (port, b)).take 64 } }
  if !maySend s1 port then s1
  else match s1.sep.fwTx.find? fun e => e.1 == port with
    | none => s1
    | some e => sendFrame port (vlanTag s1 e.2) { s1 with sep := { s1.sep with fwTx := s1.sep.fwTx.erase e } }

/-- SEP_FRAME_TRANSMIT (R166). -/
def execSepFrameTransmit (port : Nat) (placed : List (List Byte)) (s : State) : Host.Outcome State Fault Refusal :=
  .next (transmitFrame port placed s)

/-! The transparent clock (R265, R266). -/

/-- Bytes of a frame replaced from `i` on. -/
def patch (f : List Byte) (i : Nat) (bs : List Byte) : List Byte := f.take i ++ bs ++ f.drop (i + bs.length)

/-- A big-endian number in `n` bytes. -/
def beBytes (n x : Nat) : List Byte := (leBytes n x).reverse

/-- The one's-complement sum of 16-bit words of a list. -/
def onesSum (bs : List Byte) : Nat → Nat
  | 0 => 0
  | n + 1 => beAt bs (2 * n) 2 + onesSum bs n
def fold16 (x : Nat) : Nat := let y := x % 65536 + x / 65536; y % 65536 + y / 65536

/-- The UDP checksum of a PTP message at `p` in a frame after a change of `n` bytes, from `old` to `new`, an even number of
bytes into the message: 0 over IPv4, updated by RFC 1624 over IPv6 (R165). -/
def udpFix (f : List Byte) (p : Nat) (old new : List Byte) : List Byte :=
  match etherType f with
  | 0x0800 => patch f (p - 2) [0, 0]
  | 0x86DD =>
    let k := old.length / 2
    let hc := beAt f (p - 2) 2
    let sum := (65535 - hc) + (65535 * k - onesSum old k) + onesSum new k
    patch f (p - 2) (beBytes 2 (65535 - fold16 (fold16 sum)))
  | _ => f

/-- R of R265 in 2^-16 ns, rounded to nearest: TB2 residence × (1 + F0 × 10^-9), F0 in 2^-8 ppb. -/
def residence (s : State) (inT outT : Nat) : Int :=
  let d : Int := (outT : Int) - inT
  let f0 := toSigned 32 (get s (F.TIM_TB_FREQ_APPLIED 0))
  let den : Int := 256000000000 * 2 ^ 32
  (2 * d * (256000000000 + f0) + den) / (2 * den)

/-- The correctionField of a message takes an addend (R165, R265). -/
def addCorrection (f : List Byte) (p : Nat) (r : Int) : List Byte :=
  let old := (f.drop (p + 8)).take 8
  let new := beBytes 8 (ofSigned 64 (toSigned 64 (beNat old) + r))
  udpFix (patch f (p + 8) new) p old new

/-- The frame as it leaves: Sync and Delay_Req with their residence added, unless timestamping is host-assisted (R264). -/
def forwarded (s : State) (out phase : Nat) (t : TcFrame) : List Byte :=
  match ptpAt s t.bytes, ptpType s t.bytes with
  | some p, some ty =>
    if ty < 2 ∧ !hostMode s 6 then
      addCorrection t.bytes p (residence s t.ingress (egressTime s out (sampled s.tim.tb2 phase)))
    else t.bytes
  | _, _ => t.bytes

/-- The next frame to forward: PTP frames first (R266). -/
def nextForward (s : State) : Option TcFrame :=
  match s.sep.fwd.find? fun t => (ptpAt s t.bytes).isSome with
  | some t => some t
  | none => s.sep.fwd.head?

/-- A copy of the next frame leaves by the first port that it has still to leave by; an event message whose stamp was
lost is discarded, and a port that is down sends nothing (R265 to R268). -/
def tcForward (phase : Nat) (s : State) : State :=
  if 2 ≤ pwState s then s else
  match nextForward s with
  | none => s
  | some t =>
    let rest (l : List Nat) : State :=
      if l.isEmpty then { s with sep := { s.sep with fwd := s.sep.fwd.erase t } }
      else { s with sep := { s.sep with fwd := s.sep.fwd.map fun u => if u = t then { t with outs := l } else u } }
    if t.lost && ptpEvent s t.bytes then rest []
    else match t.outs with
      | [] => rest []
      | o :: l =>
        if !portUp s o then rest l
        else
          let s1 := sendFrame o (forwarded s o phase t) (rest l)
          if ptpEvent s t.bytes && !hostMode s 6 then prod 172 1 s1 else s1

/-- TC_FORWARD (R265). -/
def execTcForward (phase : Nat) (s : State) : Host.Outcome State Fault Refusal := .next (tcForward phase s)

/-! PCS (R160, R168). -/

/-- SEPp_PCS_UP falls: a frame in flight ends, PCS_DOWN and record 0x0605; a stamp lost with it gives TS_LOST and record 0x0606. -/
def pcsDown (port : Nat) (inRx stampLost : Bool) (s : State) : State :=
  if decide (17 ≤ port) || !bitOn s F.SEP_STATUS_PCS_UP port then s
  else if inReset s 3 then setBit s F.SEP_STATUS_PCS_UP port false
  else
    let s1 := wake 7 (setBit s F.SEP_STATUS_PCS_UP port false)
    let s2 := if inRx then bump s1 F.SEP_DROP_CNT_ERRORED 1 else s1
    let s3 := report F.SEP_ERR_PCS_DOWN 0x0605 ADVISE 0 s2
    if stampLost then
      prod 179 1 (report F.SEP_ERR_TS_LOST 0x0606 ADVISE 0 { s3 with sep := { s3.sep with
        fwd := s3.sep.fwd.map fun t => if t.port = port ∧ ptpEvent s t.bytes then { t with lost := true } else t } })
    else s3

/-- SEP_PCS_DOWN (R168). -/
def execSepPcsDown (port : Nat) (inRx stampLost : Bool) (s : State) : Host.Outcome State Fault Refusal :=
  .next (pcsDown port inRx stampLost s)

/-- SEPp_PCS_UP rises (R160). -/
def pcsUp (port : Nat) (s : State) : State :=
  if decide (17 ≤ port) || !s.clk.pwron then s
  else if inReset s 3 then setBit s F.SEP_STATUS_PCS_UP port true
  else wake 7 (setBit s F.SEP_STATUS_PCS_UP port true)

/-- SEP_PCS_UP (R160). -/
def execSepPcsUp (port : Nat) (s : State) : Host.Outcome State Fault Refusal := .next (pcsUp port s)

/-- The unit's treatment of a write to the SEP page. -/
def sepWrite (a : Nat) (acc : Acc) (s : State) : State := perform a acc s

end Sys2Proof.Machine
end

