-- ==== Sys2Proof/Machine/Courier.lean ====
section
/-!
DEFINITION. The Courier (12_courier_checkpoint.md): snapshots and write intents (R494 to R508), erasure coding (R509 to
R513), transport and commit (R514 to R522), SEND and RESTORE (R523 to R527).
-/
namespace Sys2Proof.Machine

def setCur (c : CurSt) (s : State) : State := { s with cur := c }
def setSnap (p : CurSnap) (s : State) : State := setCur { s.cur with snap := some p } s
def curState (s : State) : Nat := get s F.CUR_STATUS_STATE
def curEnter (n : Nat) (s : State) : State := set s F.CUR_STATUS_STATE n

/-- Two 32-bit halves of a payload (R530). -/
def pair32 (a b : Nat) : Nat := a % 2 ^ 32 + 2 ^ 32 * (b % 2 ^ 32)

/-! Regions and the stream (R495, R496). -/

/-- A valid region entry: KIND, first page (of host memory or of the partition), partition, pages. -/
structure Rgn where
  kind : Nat
  page : Nat
  part : Nat
  pages : Nat
  deriving DecidableEq, Repr

def curRegions (s : State) : List Rgn :=
  ((List.range 64).filter fun r => on s (F.CUR_RGN_BASE_VALID r)).map fun r =>
    { kind := get s (F.CUR_RGN_BASE_KIND r), page := get s (F.CUR_RGN_BASE_ADDR r), part := get s (F.CUR_RGN_BASE_PART r),
      pages := get s (F.CUR_RGN_SIZE_PAGES r) }

/-- Granules of the base stream. -/
def baseGrans (l : List Rgn) : Nat := l.foldl (fun n r => n + r.pages) 0

/-- Where granule `g` of the base stream lies: its entry and its page. -/
def granAt : List Rgn → Nat → Option (Rgn × Nat)
  | [], _ => none
  | r :: t, g => if g < r.pages then some (r, r.page + g) else granAt t (g - r.pages)

/-- The granule of the base stream that is a page of host memory. -/
def granOf : List Rgn → Nat → Option Nat
  | [], _ => none
  | r :: t, page =>
    if r.kind = 0 ∧ r.page ≤ page ∧ page < r.page + r.pages then some (page - r.page)
    else (granOf t page).map (· + r.pages)

/-- `n` pages from a page on lie in a region of the Memory Port. -/
def pagesIn (s : State) (rgn page n : Nat) : Bool :=
  n == 0 || (on s (F.MMP_RGN_BASE_PERM rgn) && decide (get s (F.MMP_RGN_BASE_BASE rgn) ≤ page)
    && decide (page + n ≤ get s (F.MMP_RGN_LIM_LIMIT rgn) + 1))

/-- Two entries overlap. -/
def rgnMeet (a b : Rgn) : Bool :=
  a.kind == b.kind && (a.kind == 0 || a.part == b.part) && meets a.page a.pages b.page b.pages

def distinctBy {α : Type} (p : α → α → Bool) : List α → Bool
  | [] => true
  | a :: t => !t.any (p a) && distinctBy p t

/-- The region table is as R495 says. -/
def regionsGood (s : State) : Bool :=
  (curRegions s).all (fun r =>
    if r.kind = 0 then pers s != 3 && pagesIn s 3 r.page r.pages
    else decide ((r.page + r.pages) * 4096 ≤ partSize s r.part)) && distinctBy rgnMeet (curRegions s)

/-- K and SHARD in bytes and in granules. -/
def curK (s : State) : Nat := get s F.CUR_CODE_K
def shardGrans (s : State) : Nat := get s F.CUR_CODE_SHARD
def shardLen (s : State) : Nat := shardGrans s * 4096

/-- Parity comes from the host (R512). -/
def hostParity (s : State) : Bool := hostMode s 4
/-- The address of the area of R512 and of the early area of R505. -/
def earlyTop (s : State) : Nat := get s F.CUR_EARLY_BASE * 4096
def earlyBase (s : State) : Nat := earlyTop s + (if hostParity s then 8 * shardLen s else 0)

/-- The bytes of a commit record before its padding (R521). -/
def recordLen (regions columns stripes torn : Nat) : Nat := 128 + 16 * regions + 4 * columns * stripes + 8 * torn + 4
/-- The stripes of a stream of `n` granules (R509). -/
def stripesOf (k shard n : Nat) : Nat := (n + k * shard - 1) / (k * shard)

/-! Results. -/

/-- START reads 1 until a result is posted. -/
def showStart (s : State) : State :=
  let sealing := match s.cur.snap with | some p => p.sealSeq.isSome | none => false
  let sending := match s.cur.send with | some d => !d.accepted | none => false
  set s F.CUR_SNAP_CMD_START (if sealing || sending || !s.cur.owed.isEmpty then 1 else 0)

/-- CUR_SNAP_RESULT posts, or waits until the one shown is consumed (R499, R639). -/
def curPost (seq status : Nat) (s : State) : State :=
  showStart (if valid s F.CUR_SNAP_RESULT_SEQ.addr then setCur { s.cur with owed := s.cur.owed ++ [(seq, status)] } s
    else post F.CUR_SNAP_RESULT_SEQ.addr seq (BitVec.ofNat 64 status) s)

/-- The oldest result that waits posts once the one shown is consumed. -/
def curOwed (s : State) : State :=
  match s.cur.owed with
  | [] => s
  | (seq, st) :: t => if valid s F.CUR_SNAP_RESULT_SEQ.addr then s else curPost seq st (setCur { s.cur with owed := t } s)

/-- CUR_OUT posts (R499, R650). -/
def curOut (seq outcome detail : Nat) (s : State) : State :=
  syncEvent 0x20 0x11 (post F.CUR_OUT_SEQ.addr seq (BitVec.ofNat 64 (outcome + 256 * (detail % 2 ^ 24))) s)

/-! Write intents (R135 to R140, R504). -/

def showIntents (s : State) : State := set s F.MMP_STATUS_WI_OUT s.mmp.intents.length

/-- One outstanding intent is answered. -/
def answerOne (code : Nat) (s : State) (i : Nat × Nat × Nat) : State :=
  let s1 := emit (.intent i.1 code) { s with mmp := { s.mmp with intents := s.mmp.intents.erase i } }
  let s2 := set s1 F.MMP_WI_STATS_MAX_WAIT (max (get s1 F.MMP_WI_STATS_MAX_WAIT) (min (2 ^ 32 - 1) ((s.tim.tb2 - i.2.2) / 2 ^ 48)))
  if code = 1 then bump s2 F.MMP_WI_STATS_TORN 1 else s2

/-- The outstanding intents of a page are answered together (R139). -/
def answerPage (page code : Nat) (s : State) : State :=
  showIntents ((s.mmp.intents.filter fun i => i.2.1 == page).foldl (answerOne code) s)
def answerAll (code : Nat) (s : State) : State := showIntents (s.mmp.intents.foldl (answerOne code) s)

/-! The end of a snapshot (R502, R507, R520). -/

/-- The transfers of a snapshot are given up, its intents answered, MMP_WI_ARM falls. -/
def stopSnap (code : Nat) (p : CurSnap) (s : State) : State :=
  let s1 := match p.reading with | some (_, x) => memCancel .courierRead x s | none => s
  let s2 := p.early.foldl (fun s e => match e.2.2.1 with | some x => memCancel .courierStage x s | none => s) s1
  let s3 := p.parity.foldl (fun s e => memCancel .courierStage e.2.2 (memCancel .courierStage e.2.1 s)) s2
  set (answerAll code s3) F.MMP_STATUS_WI_ARM 0

/-- The outcome posts and the state is IDLE. -/
def endSnap (outcome detail : Nat) (p : CurSnap) (s : State) : State :=
  curEnter 0 (showStart (setCur { s.cur with snap := none } (curOut p.seq outcome detail s)))

def okAcks (p : CurSnap) : Nat := (p.acks.filter fun a => a.2 == 0).length

/-- The commit is counted (R520). -/
def snapFinish (p : CurSnap) (s : State) : State :=
  let a := okAcks p
  let k := curK s
  let s1 := if (List.range (k + 2)).any fun j => (look j p.acks).isNone then flag F.CUR_ERR_DEST_FAIL s else s
  if a < k then endSnap 2 a p (note 0x1105 FAULT (pair32 p.id 2) s1)
  else
    let info := (if p.slot = 1 then 2 ^ 62 else 0) + (if p.torn.isEmpty then 0 else 2 ^ 61) + 2 ^ 63 + p.step % 2 ^ 48
    let s2 := wr (wr s1 F.CUR_LAST_ID_ID.addr (BitVec.ofNat 64 p.id)) F.CUR_LAST_INFO_VALID.addr (BitVec.ofNat 64 info)
    if a = k + 2 then endSnap 0 a p (note 0x1103 INFO (pair32 p.id a) s2)
    else
      let miss := ((List.range (k + 2)).find? fun j => look j p.acks != some 0).getD 0
      endSnap 1 a p (note 0x1104 ADVISE (pair32 p.id miss) s2)

/-- Without a way on, a snapshot ends as under R502 with another outcome. -/
def snapEnd (outcome : Nat) (p : CurSnap) (s : State) : State := endSnap outcome (okAcks p) p (stopSnap 0 p s)

/-- A copy read fails: the spec names no reaction of the Courier; the snapshot ends with outcome FAILED (DESIGN CHOICE, log 60). -/
def snapFail (p : CurSnap) (s : State) : State := snapEnd 2 p (note 0x1105 FAULT (pair32 p.id 2) s)

/-! Packets (R515). -/

/-- A CKPT payload. -/
def ckptPayload (kind slot col flags id stripe off origin status : Nat) (b : List Byte) : List Byte :=
  leBytes 1 kind ++ leBytes 1 slot ++ leBytes 1 col ++ leBytes 1 flags ++ leBytes 8 id ++ leBytes 4 stripe ++ leBytes 4 off
    ++ leBytes 4 (origin % 2 ^ 24) ++ leBytes 1 status ++ leBytes 7 0 ++ b

/-- A CKPT packet to an instance; `restore` selects its class. -/
def sendCkpt (lvl idx : Nat) (restore : Bool) (b : List Byte) (s : State) : State :=
  sendPkt (mkPkt s 0x31 3 0 (get s F.CUR_CTL_DOMAIN) 0 0xFFFF b) lvl idx none restore s

/-- Bytes cut into pieces of at most 2,048, with their offsets; `fuel` bounds their number. -/
def pieces (off : Nat) (b : List Byte) : Nat → List (Nat × List Byte)
  | 0 => []
  | fuel + 1 => if b.isEmpty then [] else (off, b.take 2048) :: pieces (off + 2048) (b.drop 2048) fuel
def pieces2k (b : List Byte) : List (Nat × List Byte) := pieces 0 b (b.length / 2048 + 1)

/-- Fragments in order of offset, joined as far as they leave no gap. -/
def joinFrags (l : List (Nat × List Byte)) : List Byte :=
  (sortBy Prod.fst l).foldl (fun acc f => if f.1 = acc.length then acc ++ f.2 else acc) []

/-! Commit records (R521). -/

def courMagic : List Byte := [0x43, 0x4F, 0x55, 0x52, 0x43, 0x4D, 0x49, 0x54]
def recK (r : List Byte) : Nat := leAt r 37 1
def recCols (r : List Byte) : Nat := leAt r 38 1
def recShard (r : List Byte) : Nat := leAt r 40 4 * 4096
def recStripes (r : List Byte) : Nat := leAt r 44 4
def recStream (r : List Byte) : Nat := leAt r 48 8
def recTorn (r : List Byte) : Nat := leAt r 56 4
def recRegions (r : List Byte) : Nat := leAt r 60 4
def recLength (r : List Byte) : Nat := recordLen (recRegions r) (recCols r) (recStripes r) (recTorn r)
def recDigest (r : List Byte) (stripe col : Nat) : Nat := leAt r (128 + 16 * recRegions r + 4 * (recCols r * stripe + col)) 4
def recTornAt (r : List Byte) (i : Nat) : Nat := leAt r (128 + 16 * recRegions r + 4 * recCols r * recStripes r + 8 * i) 8

/-- The bytes of a column in one stripe that are sent (R509). -/
def shardBytesOf (r : List Byte) (stripe col : Nat) : Nat :=
  if col < recK r then min (recShard r) (recStream r - (stripe * recK r + col) * recShard r) else recShard r

/-- The DATA bytes that a record expects for a column (R518). -/
def expectBytes (r : List Byte) (col : Nat) : Nat :=
  (List.range (recStripes r)).foldl (fun n i => n + shardBytesOf r i col) 0

/-- The region table of a record. -/
def regionTable (s : State) : List Byte :=
  ((List.range 64).filter fun r => on s (F.CUR_RGN_BASE_VALID r)).flatMap fun r =>
    wordBytes (rd s (0x110100 + 16 * r)) ++ wordBytes (rd s (0x110108 + 16 * r))

/-- The commit record of a snapshot whose stripes have all been sent. -/
def commitRecord (s : State) (p : CurSnap) : List Byte :=
  let rgns := regionTable s
  let grans := baseGrans (curRegions s) + p.torn.length
  let hdr := leBytes 8 p.id ++ leBytes 8 p.step ++ leBytes 8 p.sealStep ++ leBytes 4 (index s % 2 ^ 24 + 2 ^ 24 * level s)
    ++ leBytes 1 p.slot ++ leBytes 1 (curK s) ++ leBytes 1 (curK s + 2)
    ++ leBytes 1 ((if p.torn.isEmpty then 0 else 1) + (if hostParity s then 2 else 0))
    ++ leBytes 4 (shardGrans s) ++ leBytes 4 p.crcs.length ++ leBytes 8 (grans * 4096) ++ leBytes 4 p.torn.length
    ++ leBytes 4 (rgns.length / 16) ++ leBytes 8 p.armTb0 ++ leBytes 8 p.sentTb0 ++ leBytes 4 (crc32c rgns).toNat ++ leBytes 40 0
  let tables := rgns ++ (p.crcs.flatMap fun c => c.flatMap (leBytes 4)) ++ p.torn.flatMap fun g => leBytes 8 (g * 4096)
  let body := courMagic ++ hdr ++ leBytes 4 (crc32c hdr).toNat ++ tables ++ leBytes 4 (crc32c tables).toNat
  padTo (round64 body.length) body

/-! Acknowledgements (R518 to R520). -/

/-- An ACK counts toward the commit; the last one ends it. -/
def ackTake (slot col id status : Nat) (s : State) : State :=
  match s.cur.snap with
  | none => s
  | some p =>
    if p.sent.isNone || p.id != id || p.slot != slot || decide (curK s + 2 ≤ col) || (look col p.acks).isSome then s
    else
      let p1 := { p with acks := store col status p.acks }
      let s1 := set (setSnap p1 s) F.CUR_STATUS_ACKS (okAcks p1)
      if status ≠ 0 then flag F.CUR_ERR_DEST_FAIL s1
      else if okAcks p1 = curK s + 2 then snapFinish p1 s1 else s1

/-- An ACK goes to the instance whose checkpoint it is. -/
def sendAck (lvl idx slot col id origin status : Nat) (s : State) : State :=
  if idx = index s ∧ lvl = level s then ackTake slot col id status s
  else sendCkpt lvl idx false (ckptPayload 3 slot col 0 id 0 0 origin status []) s

/-! Receive entries (R516 to R519). -/

def rxEntry (s : State) (origin : Nat) : Option Nat :=
  (List.range 32).find? fun e => on s (F.CUR_RX_SRC_VALID e) && get s (F.CUR_RX_SRC_INDEX e) == origin
def slotLen (s : State) (e : Nat) : Nat := get s (F.CUR_RX_SIZE_SIZE e) * 4096
def slotAddr (s : State) (e k : Nat) : Nat := get s (F.CUR_RX_BASE_BASE e) * 4096 + k * slotLen s e
def slotLocked (s : State) (e k : Nat) : Bool :=
  match s.cur.send with
  | some d => d.accepted && d.entry == e && d.slot == k
  | none => false

def rxOf (s : State) (e k : Nat) : Option CurRx := s.cur.rx.find? fun r => r.entry == e && r.slot == k
def putCurRx (r : CurRx) (s : State) : State :=
  setCur { s.cur with rx := r :: s.cur.rx.filter fun x => !(x.entry == r.entry && x.slot == r.slot) } s

/-- A packet that no receive entry takes (R516). -/
def discardCkpt (origin status : Nat) (s : State) : State := report F.CUR_ERR_RX_DISCARD 0x1106 ADVISE (pair32 origin status) s

/-- The request class of the Courier's other accesses (R350). -/
def cM_CKPT : Nat := 19

/-- A write of a receive entry; its transfer number is `s.mmp.nextXfer`. -/
def rxMem (addr : Nat) (b : List Byte) (s : State) : State := memRequest .courierRx cM_CKPT 4 true addr b.length b s

/-- What a slot holds of a checkpoint; of a new one, with the zero write of R517 under way. -/
def rxFor (e k id col src lvl : Nat) (s : State) : CurRx × State :=
  match rxOf s e k with
  | some r => if r.id = id then (r, s) else
      let s0 := (r.xfers ++ r.gate.toList ++ r.magic.toList).foldl (fun s x => memCancel .courierRx x s) s
      ({ entry := e, slot := k, id, col, src, lvl, gate := some s0.mmp.nextXfer }, rxMem (slotAddr s e k) (leBytes 64 0) s0)
  | none => ({ entry := e, slot := k, id, col, src, lvl, gate := some s.mmp.nextXfer }, rxMem (slotAddr s e k) (leBytes 64 0) s)

/-- A slot's column is kept for a later SEND. -/
def keepCol (e k col : Nat) (s : State) : State :=
  setCur { s.cur with cols := (e, k, col) :: s.cur.cols.filter fun c => !(c.1 == e && c.2.1 == k) } s

/-- The key of a checkpoint of which DATA was discarded. -/
def refusedKey (origin slot id : Nat) : Nat := origin + 2 ^ 24 * slot + 2 ^ 25 * id

/-- A DATA packet is discarded: its checkpoint's COMMIT will be answered with the status (R516). -/
def refuseData (origin slot id status : Nat) (s : State) : State :=
  discardCkpt origin status (setCur { s.cur with refused := store (refusedKey origin slot id) status s.cur.refused } s)

/-- A DATA packet at its holder (R516, R517). -/
def rxData (src lvl : Nat) (b : List Byte) (s : State) : State :=
  let slot := leAt b 1 1 % 2
  let origin := leAt b 20 4 % 2 ^ 24
  let data := b.drop 32
  let refuse (st : Nat) : State := refuseData origin slot (leAt b 4 8) st s
  match rxEntry s origin with
  | none => refuse 2
  | some e =>
    let off := 1048576 + leAt b 12 4 * shardLen s + leAt b 16 4
    if slotLocked s e slot then refuse 3
    else if slotLen s e < off + data.length then refuse 2
    else
      let (r, s1) := rxFor e slot (leAt b 4 8) (leAt b 2 1) src lvl s
      let r1 := { r with bytes := r.bytes + data.length }
      let s2 := keepCol e slot r1.col s1
      if data.isEmpty then putCurRx r1 s2
      else if r1.gate.isSome then putCurRx { r1 with wait := r1.wait ++ [(slotAddr s e slot + off, data)] } s2
      else putCurRx { r1 with xfers := r1.xfers ++ [s2.mmp.nextXfer] } (rxMem (slotAddr s e slot + off) data s2)

/-- A COMMIT fragment at its holder (R516, R518). -/
def rxCommit (src lvl : Nat) (b : List Byte) (s : State) : State :=
  let slot := leAt b 1 1 % 2
  let origin := leAt b 20 4 % 2 ^ 24
  let last := leAt b 3 1 % 2 == 1
  let off := leAt b 16 4
  let data := b.drop 32
  let key := refusedKey origin slot (leAt b 4 8)
  let answer (st : Nat) (s : State) : State :=
    if last then sendAck lvl src slot (leAt b 2 1) (leAt b 4 8) origin st
      (setCur { s.cur with refused := dropKeys (· == key) s.cur.refused } s)
    else s
  let refuse (st : Nat) (s : State) : State := answer st (discardCkpt origin st s)
  match rxEntry s origin with
  | none => refuse 2 s
  | some e =>
    if slotLocked s e slot then refuse 3 s
    else if 1048576 < off + data.length ∨ slotLen s e < off + data.length then refuse 2 s
    else
      let (r, s1) := rxFor e slot (leAt b 4 8) (leAt b 2 1) src lvl s
      let w := if off = 0 then leBytes 8 0 ++ data.drop 8 else data
      let r1 := { r with body := r.body ++ [(off, data)], len := if last then some (off + data.length) else r.len,
                         xfers := r.xfers ++ [s1.mmp.nextXfer] }
      let s2 := rxMem (slotAddr s e slot + off) w (keepCol e slot r1.col s1)
      match last, look key s.cur.refused with
      | true, some st => answer st (putCurRx { r1 with done := true } s2)
      | _, _ => putCurRx r1 s2

/-- The end of a checkpoint at its holder: MAGIC, or INCOMPLETE (R518). -/
def rxJudge (r : CurRx) (n : Nat) (s : State) : State :=
  let rec0 := joinFrags r.body
  if !r.failed && decide (n ≤ rec0.length) && expectBytes rec0 r.col == r.bytes then
    putCurRx { r with magic := some s.mmp.nextXfer } (rxMem (slotAddr s r.entry r.slot) (courMagic ++ (rec0.drop 8).take 56) s)
  else sendAck r.lvl r.src r.slot r.col r.id (get s (F.CUR_RX_SRC_INDEX r.entry)) 1 (putCurRx { r with done := true } s)

/-- A receive slot after write responses: held shard writes go once the zero write has returned, the record is judged once every
write has, and the ACK follows MAGIC (R517, R518). -/
def rxStep (s : State) (r0 : CurRx) : State :=
  match rxOf s r0.entry r0.slot with
  | none => s
  | some r =>
    let back := r.xfers.filter fun x => memDone s .courierRx x
    let bad := r.failed || back.any fun x => !memOk s .courierRx x
    let s1 := back.foldl (fun s x => memForget .courierRx x s) s
    let r1 := { r with xfers := r.xfers.filter fun x => !back.contains x, failed := bad }
    match r1.gate with
    | some x =>
      if memDone s1 .courierRx x then
        let ok := memOk s1 .courierRx x
        let s2 := memForget .courierRx x s1
        let xs := (List.range r1.wait.length).map (· + s2.mmp.nextXfer)
        putCurRx { r1 with gate := none, wait := [], xfers := r1.xfers ++ xs, failed := r1.failed || !ok }
          (r1.wait.foldl (fun s w => rxMem w.1 w.2 s) s2)
      else putCurRx r1 s1
    | none =>
      match r1.magic with
      | some x =>
        if r1.done || !memDone s1 .courierRx x then putCurRx r1 s1
        else
          let st := if memOk s1 .courierRx x then 0 else 1
          sendAck r1.lvl r1.src r1.slot r1.col r1.id (get s (F.CUR_RX_SRC_INDEX r1.entry)) st
            (putCurRx { r1 with done := true } (memForget .courierRx x s1))
      | none =>
        match r1.len with
        | some n => if r1.done || !r1.xfers.isEmpty then putCurRx r1 s1 else rxJudge r1 n (putCurRx r1 s1)
        | none => putCurRx r1 s1

/-- COMMIT_RECORD_VALIDATE (R517, R518). -/
def execCommitRecordValidate (s : State) : Host.Outcome State Fault Refusal :=
  .next (if inReset s 2 then s else s.cur.rx.foldl rxStep s)

/-! Erasure code (R510, R513). -/

/-- Multiplication in GF(2^8) with polynomial 0x11D: the terms of `a` for the set bits of `b`, highest first. -/
def gfMul (a b : Nat) : Nat :=
  (List.range 8).foldl (fun r i =>
    let d := r * 2
    let e := if 256 ≤ d then d ^^^ 0x11D else d
    if b.testBit (7 - i) then e ^^^ a else e) 0

/-- α^i, α = 0x02. -/
def gfPow : Nat → Nat
  | 0 => 1
  | i + 1 => gfMul (gfPow i) 2

/-- The inverse a^254. -/
def gfInv (a : Nat) : Nat := (List.range 254).foldl (fun r _ => gfMul r a) 1

def gfScale (c : Nat) (l : List Byte) : List Byte := l.map fun b => BitVec.ofNat 8 (gfMul b.toNat c)
def xorBytes (a b : List Byte) : List Byte := List.zipWith (· ^^^ ·) a b

/-- P and Q over columns with their numbers, each `n` bytes. -/
def parityP (n : Nat) (ds : List (Nat × List Byte)) : List Byte := ds.foldl (fun p d => xorBytes p d.2) (leBytes n 0)
def parityQ (n : Nat) (ds : List (Nat × List Byte)) : List Byte :=
  ds.foldl (fun p d => xorBytes p (gfScale (gfPow d.1) d.2)) (leBytes n 0)

/-- The data columns of a stripe from those that stand (`ds`), P and Q if they stand, and the lost ones (R513); `none` beyond
two lost columns. -/
def rebuild (n : Nat) (ds : List (Nat × List Byte)) (p q : Option (List Byte)) (lost : List Nat) : Option (List (Nat × List Byte)) :=
  let p1 := p.map fun p => xorBytes p (parityP n ds)
  let q1 := q.map fun q => xorBytes q (parityQ n ds)
  match lost, p1, q1 with
  | [], _, _ => some []
  | [x], some p, _ => some [(x, p)]
  | [x], none, some q => some [(x, gfScale (gfInv (gfPow x)) q)]
  | [x, y], some p, some q =>
    let d := gfScale (gfInv (gfPow x ^^^ gfPow y)) (xorBytes (gfScale (gfPow y) p) q)
    some [(x, d), (y, xorBytes p d)]
  | _, _, _ => none

/-! Sending stripes and the commit record (R509 to R512, R514, R520). -/

/-- A payload goes to the destination of a column (R514). -/
def toColumn (p : CurSnap) (kind col flags stripe : Nat) (s : State) (f : Nat × List Byte) : State :=
  let b := ckptPayload kind p.slot col flags p.id stripe f.1 (index s) 0 f.2
  if on s (F.CUR_DST_KIND col) then (if kind = 1 then rxData (index s) (level s) b s else rxCommit (index s) (level s) b s)
  else sendCkpt (level s) (get s (F.CUR_DST_INDEX col)) false b s

/-- The fragments of a commit record, the last with LAST. -/
def recordFrags (r : List Byte) : List (Nat × List Byte × Nat) :=
  (pieces2k r).map fun f => (f.1, f.2, if r.length ≤ f.1 + 2048 then 1 else 0)

/-- The commit record goes to every destination once the last stripe has been sent (R520). -/
def tryCommit (s : State) : State :=
  match s.cur.snap with
  | none => s
  | some p =>
    let n := stripesOf (curK s) (shardGrans s) (baseGrans (curRegions s) + p.torn.length)
    if curState s ≠ 4 ∨ p.sent.isSome ∨ p.crcs.length < n then s
    else
      let p1 := { p with sent := some s.tim.tb2, sentTb0 := ns0 s }
      let r := commitRecord s p1
      (List.range (curK s + 2)).foldl (fun s j => (recordFrags r).foldl (fun s f => toColumn p1 2 j f.2.2 0 s (f.1, f.2.1)) s)
        (setSnap p1 s)

/-- Granules of the stream that have been read; `none` once all have. -/
def readSoFar (s : State) (p : CurSnap) : Option Nat :=
  match curState s with
  | 4 => none
  | 3 => some ((p.reading.map Prod.fst).getD 0)
  | _ => some (get s F.CUR_FRONTIER_OFFSET / 4096)

/-- The bytes of data shard `j` of stripe `n` that exist. -/
def dataShard (s : State) (p : CurSnap) (n j : Nat) : List Byte :=
  let g := shardGrans s
  (List.range g).flatMap fun i => (look ((n * curK s + j) * g + i) p.data).getD []

/-- P and Q of a stripe: computed, or as the host posted them (R512). -/
def stripeParity (s : State) (p : CurSnap) (n : Nat) (ds : List (List Byte)) : Option (List Byte × List Byte) :=
  let len := shardLen s
  let cols := (List.range ds.length).zip ds
  if !hostParity s then some (parityP len cols, parityQ len cols)
  else match look n p.parity with
    | none => none
    | some (x, y) =>
      if memDone s .courierStage x && memDone s .courierStage y then some (memData s .courierStage x, memData s .courierStage y)
      else none

/-- A read of the host's P and Q has failed. -/
def parityLost (s : State) (p : CurSnap) (n : Nat) : Bool :=
  match look n p.parity with
  | none => false
  | some (x, y) => [x, y].any fun z => memDone s .courierStage z && !memOk s .courierStage z

/-- The next stripe is sent (R509 to R512). -/
def stripeSend (s : State) : State :=
  match s.cur.snap with
  | none => s
  | some p =>
    let n := p.crcs.length
    let k := curK s
    let all := baseGrans (curRegions s) + p.torn.length
    let ready : Bool := match readSoFar s p with
      | none => decide (n < stripesOf k (shardGrans s) all)
      | some m => decide ((n + 1) * k * shardGrans s ≤ m)
    if inReset s 2 || held s 0x11 || !ready then s
    else
      let ds := (List.range k).map (dataShard s p n)
      let full := ds.map (padTo (shardLen s))
      if parityLost s p n then snapFail p s
      else match stripeParity s p n full with
      | none => s
      | some (pp, qq) =>
        let crcs := (full ++ [pp, qq]).map fun b => (crc32c b).toNat
        let s0 := match look n p.parity with
          | some (x, y) => memForget .courierStage y (memForget .courierStage x s)
          | none => s
        let hi := (n + 1) * k * shardGrans s
        let p1 := { p with crcs := p.crcs ++ [crcs], data := p.data.filter (fun d => hi ≤ d.1),
                           parity := p.parity.filter fun e => e.1 != n }
        let s1 := setSnap p1 s0
        tryCommit (((List.range (k + 2)).zip (ds ++ [pp, qq])).foldl
          (fun s e => (pieces2k e.2).foldl (toColumn p1 1 e.1 0 n) s) s1)

/-- STRIPE_SEND (R509 to R514). -/
def execStripeSend (s : State) : Host.Outcome State Fault Refusal := .next (stripeSend s)

/-- PARITY_READY: the host has written P and Q of a stripe (R512); whether a snapshot takes it. -/
def parityPost (n : Nat) (s : State) : State × Bool :=
  match s.cur.snap with
  | none => (s, false)
  | some p =>
    if n < p.crcs.length ∨ (look n p.parity).isSome ∨ !hostParity s then (s, false)
    else
      let a := earlyTop s + n % 4 * (2 * shardLen s)
      let x := s.mmp.nextXfer
      let s1 := memRequest .courierStage cM_CKPT 4 false (a + shardLen s) (shardLen s) []
        (memRequest .courierStage cM_CKPT 4 false a (shardLen s) [] s)
      (setSnap { p with parity := store n (x, x + 1) p.parity } s1, true)

/-! The copy engine (R503 to R506, R508). -/

/-- Granule `g` is copied: its intents are answered and the frontier moves past it. -/
def granCopied (g page : Nat) (b : List Byte) (p : CurSnap) (s : State) : State :=
  answerPage page 0 (set (setSnap { p with data := p.data ++ [(g, b)], reading := none, early := p.early.filter fun e => e.1 != g } s)
    F.CUR_FRONTIER_OFFSET ((g + 1) * 4096))

/-- The frontier is at the end of the base stream and no intent is outstanding (R501). -/
def copyEnd (p : CurSnap) (s : State) : State :=
  if !s.mmp.intents.isEmpty then s
  else tryCommit (curEnter (if p.torn.isEmpty then 4 else 2) (set s F.MMP_STATUS_WI_ARM 0))

/-- The copy engine goes on to the next granule (R503, R505, R506). -/
def copyNext : Nat → State → State
  | 0, s => s
  | fuel + 1, s =>
    match s.cur.snap with
    | none => s
    | some p =>
      if p.reading.isSome || held s 0x11 || curState s != 1 then s
      else
        let g := get s F.CUR_FRONTIER_OFFSET / 4096
        match granAt (curRegions s) g with
        | none => copyEnd p s
        | some (r, page) =>
          let x := s.mmp.nextXfer
          if p.torn.contains g then copyNext fuel (granCopied g page (leBytes 4096 0) p s)
          else if r.kind = 1 then copyNext fuel (granCopied g page (partRead s r.part (page * 4096) 4096) p s)
          else match p.early.find? fun e => e.1 == g with
            | some (_, e, none, _) =>
              memRequest .courierRead cM_CKPT 4 false (earlyBase s + e * 4096) 4096 [] (setSnap { p with reading := some (g, x) } s)
            | some (_, _, some _, _) => s
            | none => memRequest .courierRead cM_CKPT 3 false (page * 4096) 4096 [] (setSnap { p with reading := some (g, x) } s)

/-- The copy engine runs as far as it can without memory. -/
def copyRun (s : State) : State := copyNext (baseGrans (curRegions s) + 1) s

/-- Intents that wait for room in the early area start their read, oldest first (R504). -/
def earlyStart (s : State) (i : Nat × Nat × Nat) : State :=
  match s.cur.snap, granOf (curRegions s) i.2.1 with
  | some p, some g =>
    let busy := p.reading.map Prod.fst == some g || p.early.any fun e => e.1 == g
    match (List.range (get s F.CUR_EARLY_SIZE_GRANULES)).find? fun e => !p.early.any fun x => x.2.1 == e with
    | some e =>
      if busy then s
      else memRequest .courierStage 16 3 false (i.2.1 * 4096) 4096 []
        (setSnap { p with early := p.early ++ [(g, e, some s.mmp.nextXfer, false)] } s)
    | none => s
  | _, _ => s
def earlyFill (s : State) : State := s.mmp.intents.foldl earlyStart s

/-- A write intent of the host (R135 to R140, R504). -/
def writeIntent (page tag : Nat) (s : State) : State :=
  if inReset s 6 || inReset s 2 || !on s F.MMP_STATUS_LINK_UP || decide (64 ≤ s.mmp.intents.length) then s
  else if s.mmp.intents.any fun i => i.1 == tag then
    emit (.intent tag 1) (bump (report F.MMP_ERR_WI_PROTO 0x0405 FAULT 0 s) F.MMP_WI_STATS_TORN 1)
  else if !on s F.MMP_STATUS_WI_ARM then emit (.intent tag 2) s
  else match s.cur.snap, granOf (curRegions s) page with
    | some p, some g =>
      let ready := match p.early.find? fun e => e.1 == g with
        | some e => e.2.2.1.isNone || e.2.2.2
        | none => false
      if decide (g < get s F.CUR_FRONTIER_OFFSET / 4096) || p.torn.contains g || ready then emit (.intent tag 0) s
      else
        earlyFill (showIntents { s with mmp := { s.mmp with intents := s.mmp.intents ++ [(tag, page, s.tim.tb2)] } })
    | _, _ => emit (.intent tag 0) s

/-- WRITE_INTENT (R135, R504). -/
def execWriteIntent (granule tag : Nat) (s : State) : Host.Outcome State Fault Refusal := .next (writeIntent granule tag s)

/-- The stall bound of an intent passes: its granule is torn (R506, R507). -/
def intentStall (tag : Nat) (s : State) : State :=
  match s.mmp.intents.find? (fun i => i.1 == tag), s.cur.snap with
  | some i, some p =>
    match granOf (curRegions s) i.2.1 with
    | none => s
    | some g =>
      let s1 := reachBase 2 (i.2.2 + get s F.CUR_CTL_STALL_NS * 2 ^ 48) s
      if get s F.CUR_CTL_TORN_MAX < p.torn.length + 1 then
        snapEnd 3 p (note 0x1105 FAULT (pair32 p.id 3) (flag F.CUR_ERR_TOO_TORN s1))
      else
        let mine := match p.reading with | some (h, x) => if h = g then some x else none | none => none
        let s2 := match mine with | some x => memCancel .courierRead x s1 | none => s1
        let s3 := (p.early.filter fun e => e.1 == g).foldl (fun s e => match e.2.2.1 with
          | some x => memCancel .courierStage x s
          | none => s) s2
        let r : Raised := { recOf 0x1102 ADVISE (g * 4096) with run := if p.torn.isEmpty then 1 else 2 }
        let p1 := { p with torn := insertBy id g p.torn, early := p.early.filter (fun e => e.1 != g),
                           reading := if mine.isSome then none else p.reading }
        copyRun (earlyFill (record r (answerPage i.2.1 1 (set (setSnap p1 s3) F.CUR_STATUS_TORN_COUNT p1.torn.length))))
  | _, _ => s

/-- INTENT_STALL_TIMEOUT (R506). -/
def execIntentStallTimeout (tag : Nat) (s : State) : Host.Outcome State Fault Refusal := .next (intentStall tag s)

/-- The reads of the early area that have ended: the granule's intents are answered and it is written there (R504). -/
def earlyEnds (s : State) (e : Nat × Nat × Option Nat × Bool) : State :=
  match s.cur.snap, e.2.2.1 with
  | some p, some x =>
    if !memDone s .courierStage x then s
    else if !memOk s .courierStage x then snapFail p s
    else
      let put (t : Option Nat) : CurSnap := { p with early := p.early.map fun a => if a.2.1 = e.2.1 then (a.1, a.2.1, t, true) else a }
      let s1 := memForget .courierStage x s
      if e.2.2.2 then setSnap (put none) s1
      else match granAt (curRegions s) e.1 with
        | none => s
        | some (_, page) =>
          answerPage page 0 (memRequest .courierStage cM_CKPT 4 true (earlyBase s + e.2.1 * 4096) 4096 (memData s .courierStage x)
            (setSnap (put (some s1.mmp.nextXfer)) s1))
  | _, _ => s

/-- The next torn granule is read into the delta section, or the seal is complete (R508). -/
def sealNext (g : Nat) (p : CurSnap) (s : State) : State :=
  let base := baseGrans (curRegions s)
  match p.torn[g - base]? with
  | some t =>
    match granAt (curRegions s) t with
    | some (_, page) => memRequest .courierRead cM_CKPT 3 false (page * 4096) 4096 []
        (setSnap { p with reading := some (g, s.mmp.nextXfer) } s)
    | none => s
  | none =>
    tryCommit (curPost (p.sealSeq.getD 0) 0 (curEnter 4 (setSnap { p with reading := none, sealSeq := none } s)))

/-- The copy read has ended: the frontier moves, or the delta section grows (R503, R508). -/
def copyEnds (s : State) : State :=
  match s.cur.snap with
  | none => s
  | some p => match p.reading with
    | none => s
    | some (g, x) =>
      if !memDone s .courierRead x then s
      else if !memOk s .courierRead x then snapFail p s
      else
        let b := memData s .courierRead x
        let s1 := memForget .courierRead x s
        if curState s = 3 then sealNext (g + 1) { p with data := p.data ++ [(g, b)], reading := none } s1
        else match granAt (curRegions s) g with
          | some (_, page) => granCopied g page b p s1
          | none => s1

/-- The last beat of a granule read has arrived (R503 to R505, R508). -/
def granuleCopied (s : State) : State :=
  if inReset s 2 then s
  else
    let s1 := match s.cur.snap with | some p => p.early.foldl earlyEnds s | none => s
    earlyFill (copyRun (copyEnds s1))

/-- GRANULE_COPIED (R503). -/
def execGranuleCopied (s : State) : Host.Outcome State Fault Refusal := .next (granuleCopied s)

/-! RESTORE (R513, R525, R526). -/

/-- The ends of restored writes are of no further use. -/
def sweep (s : State) : State :=
  { s with mmp := { s.mmp with ended := s.mmp.ended.filter fun e => !(e.req.user == .courierRead && e.req.write) } }

def endRest (outcome detail : Nat) (r : CurRest) (s : State) : State :=
  sweep (curEnter 0 (setCur { s.cur with rest := none } (curOut r.seq outcome detail s)))

/-- Stream bytes of one granule go to its place in the declared regions; those of the delta section wait. -/
def streamPut (g off : Nat) (b : List Byte) (s : State) : State :=
  match granAt (curRegions s) g with
  | none => s
  | some (r, page) =>
    if r.kind = 1 then partWrite r.part (page * 4096 + off) b s
    else memRequest .courierRead cM_CKPT 3 true (page * 4096 + off) b.length b (sweep s)

/-- Stream bytes from an offset on; `fuel` bounds the granules. -/
def streamWrite (off : Nat) (b : List Byte) : Nat → State → State
  | 0, s => s
  | fuel + 1, s =>
    if b.isEmpty then s
    else
      let n := min b.length (4096 - off % 4096)
      streamWrite (off + n) (b.drop n) fuel (streamPut (off / 4096) (off % 4096) (b.take n) s)

/-- Bytes of a shard from an offset in it go to their place: data to the stream, parity to the early area (R525). -/
def shardWrite (r : List Byte) (stripe col off : Nat) (b : List Byte) (s : State) : State :=
  if col < recK r then streamWrite ((stripe * recK r + col) * recShard r + off) b (b.length / 4096 + 2) s
  else memRequest .courierRead cM_CKPT 4 true (earlyTop s + (stripe % 4 * 2 + (col - recK r)) * recShard r + off) b.length b (sweep s)

/-- The shard of a column that has arrived whole. -/
def shardGot (c : CurRest) (r : List Byte) (stripe col : Nat) : Option (List Byte) :=
  let b := joinFrags ((c.shards.filter fun x => x.1 == stripe && x.2.1 == col).map fun x => x.2.2)
  if shardBytesOf r stripe col ≤ b.length then some (padTo (recShard r) b) else none

/-- Every column has arrived. -/
def allArrived (c : CurRest) (r : List Byte) : Bool :=
  (List.range (recStripes r)).all fun n => (List.range (recCols r)).all fun j => (shardGot c r n j).isSome

/-- One stripe of a restore (R513): the state after, the number of shards rebuilt and its data shards; `none` if it cannot be
rebuilt. -/
def restStripe (c : CurRest) (r : List Byte) (n : Nat) (s : State) : Option (State × Nat × List (Nat × List Byte)) :=
  let k := recK r
  let got := (List.range (recCols r)).map fun j => (j, shardGot c r n j)
  let good := got.filter fun e => match e.2 with | some b => (crc32c b).toNat == recDigest r n e.1 | none => false
  let lost := (got.filter fun e => !good.any fun x => x.1 == e.1).map Prod.fst
  let wrong := (got.filter fun e => e.2.isSome && lost.contains e.1).map Prod.fst
  let ds := (good.filter fun e => decide (e.1 < k)).map fun e => (e.1, e.2.getD [])
  let p := ((look k good).getD none)
  let q := ((look (k + 1) good).getD none)
  if 2 < lost.length then none
  else match rebuild (recShard r) ds p q (lost.filter (· < k)) with
    | none => none
    | some new =>
      let data := sortBy Prod.fst (ds ++ new)
      let par := (lost.filter fun j => decide (k ≤ j)).map fun j => (j, if j = k then parityP (recShard r) data else parityQ (recShard r) data)
      let s1 := (new ++ par).foldl (fun s e => shardWrite r n e.1 0 (e.2.take (shardBytesOf r n e.1)) s) s
      some (wrong.foldl (fun s j => note 0x110B ADVISE (pair32 n j) s) s1, lost.length, data)

/-- The stripes of a restore in order: the state after, the shards rebuilt and the stream, or the stripe that cannot be
rebuilt. -/
def restStripes (c : CurRest) (r : List Byte) : List Nat → State × Nat × List Byte → Except (State × Nat) (State × Nat × List Byte)
  | [], a => .ok a
  | n :: t, (s, m, st) =>
    match restStripe c r n s with
    | none => .error (s, n)
    | some (s1, k, data) => restStripes c r t (s1, m + k, st ++ data.flatMap Prod.snd)

/-- A restore ends: lost shards are rebuilt, the delta section is written over the torn granules, the outcome posts (R525,
R526). -/
def restFinish (c : CurRest) (s : State) : State :=
  let fail (n : Nat) (s : State) : State :=
    endRest 6 n c (report F.CUR_ERR_UNRECOVERABLE 0x1108 FAULT (pair32 c.id n) s)
  match c.record with
  | none => fail 0 s
  | some r =>
    match restStripes c r (List.range (recStripes r)) (s, 0, []) with
    | .error (s1, n) => fail n s1
    | .ok (s1, m, stream) =>
      let base := recStream r - recTorn r * 4096
      let s2 := (List.range (recTorn r)).foldl (fun s i =>
        streamPut (recTornAt r i / 4096) 0 ((stream.drop (base + i * 4096)).take 4096) s) s1
      endRest 5 m c (note 0x1107 INFO (pair32 c.id m) s2)

/-- A commit record is the one a restore looks for (R525). -/
def recordOk (id : Nat) (r : List Byte) : Bool :=
  let e := recLength r - 4
  leAt r 8 8 == id && decide (recLength r ≤ r.length) && leAt r 124 4 == (crc32c ((r.drop 8).take 116)).toNat
    && leAt r e 4 == (crc32c ((r.drop 128).take (e - 128))).toNat

/-- A RESTORE packet at its target (R525). -/
def restTake (b : List Byte) (s : State) : State :=
  let origin := leAt b 20 4 % 2 ^ 24
  let col := leAt b 2 1
  let off := leAt b 16 4
  let data := b.drop 32
  match s.cur.rest with
  | none => discardCkpt origin 2 s
  | some c =>
    if leAt b 4 8 ≠ c.id then discardCkpt origin 2 s
    else if leAt b 0 1 = 2 then
      let c1 := { c with frags := c.frags ++ [(col, off, data)],
                         lens := if leAt b 3 1 % 2 = 1 then store col (off + data.length) c.lens else c.lens }
      let s1 := setCur { s.cur with rest := some c1 } s
      let r := joinFrags ((c1.frags.filter fun f => f.1 == col).map Prod.snd)
      match c1.record, look col c1.lens with
      | none, some n =>
        if r.length < n ∨ !recordOk c.id r then s1
        else if leAt r 80 4 ≠ (crc32c (regionTable s)).toNat then endRest 7 0 c1 s1
        else
          let c2 := { c1 with record := some r }
          let s2 := c2.shards.foldl (fun s x => shardWrite r x.1 x.2.1 x.2.2.1 x.2.2.2 s) (setCur { s.cur with rest := some c2 } s)
          if allArrived c2 r then restFinish c2 s2 else s2
      | _, _ => s1
    else
      let c1 := { c with shards := c.shards ++ [(leAt b 12 4, col, off, data)] }
      let s1 := setCur { s.cur with rest := some c1 } s
      match c1.record with
      | none => s1
      | some r =>
        let s2 := shardWrite r (leAt b 12 4) col off data s1
        if allArrived c1 r then restFinish c1 s2 else s2

/-! Packets that arrive. -/

/-- The oldest CKPT packet whose KIND and RESTORE flag satisfy `f`. -/
def takeCkpt (f : Nat → Bool → Bool) (s : State) : Option (Pkt × State) :=
  if fenced s 3 || inReset s 2 || decide (2 ≤ pwState s) then none
  else match s.fbp.rxPkts.find? fun e => e.2.type == 0x31 && f (leAt e.2.payload 0 1) ((leAt e.2.payload 3 1).testBit 1) with
    | none => none
    | some e => some (e.2, { s with fbp := { s.fbp with rxPkts := s.fbp.rxPkts.erase e } })

/-- CKPT_DATA_RECEIVE (R516, R517); a packet without a whole header or of no KIND of R515 is dropped. -/
def execCkptDataReceive (s : State) : Host.Outcome State Fault Refusal :=
  .next (match takeCkpt (fun k r => k != 2 && k != 3 && !r) s with
    | none => s
    | some (p, s1) =>
      if p.payload.length < 32 ∨ leAt p.payload 0 1 ≠ 1 then s1 else rxData p.source p.level p.payload s1)

/-- CKPT_COMMIT_RECEIVE (R516, R518). -/
def execCkptCommitReceive (s : State) : Host.Outcome State Fault Refusal :=
  .next (match takeCkpt (fun k r => k == 2 && !r) s with
    | none => s
    | some (p, s1) => if p.payload.length < 32 then s1 else rxCommit p.source p.level p.payload s1)

/-- RESTORE_PACKET_RECEIVE (R525); a packet without a whole header or of no KIND of R515 is dropped. -/
def execRestorePacketReceive (s : State) : Host.Outcome State Fault Refusal :=
  .next (match takeCkpt (fun k r => k != 3 && r) s with
    | none => s
    | some (p, s1) =>
      if p.payload.length < 32 ∨ (leAt p.payload 0 1 ≠ 1 ∧ leAt p.payload 0 1 ≠ 2) then s1 else restTake p.payload s1)

/-- CKPT_ACK_RECEIVE (R519, R520). -/
def execCkptAckReceive (s : State) : Host.Outcome State Fault Refusal :=
  .next (match takeCkpt (fun k _ => k == 3) s with
    | none => s
    | some (p, s1) =>
      if p.payload.length < 32 then s1
      else ackTake (leAt p.payload 1 1) (leAt p.payload 2 1) (leAt p.payload 4 8) (leAt p.payload 24 1) s1)

/-! SEND (R523). -/

def cM_RESTORE : Nat := 18

/-- The column that a slot holds. -/
def heldCol (s : State) (e k : Nat) : Nat := ((s.cur.cols.find? fun c => c.1 == e && c.2.1 == k).map fun c => c.2.2).getD 0

/-- A SEND ends: its slot is unlocked. -/
def sendEnd (d : CurSend) (s : State) : State :=
  let s1 := memCancel .courierSend d.xfer s
  showStart (curEnter (if d.accepted then 0 else curState s) (set (setCur { s1.cur with send := none } s1) (F.CUR_RX_SRC_LOCKED d.entry) 0))

/-- A RESTORE payload to the target of a SEND. -/
def sendRestore (d : CurSend) (kind flags stripe : Nat) (s : State) (f : Nat × List Byte) : State :=
  let b := ckptPayload kind d.slot (heldCol s d.entry d.slot) (2 + flags) (leAt d.record 8 8) stripe f.1
    (get s (F.CUR_RX_SRC_INDEX d.entry)) 0 f.2
  if d.target = index s then restTake b s else sendCkpt (level s) d.target true b s

/-- The next shard of a SEND is read; past the last one the SEND ends. -/
def sendShard : Nat → CurSend → State → State
  | 0, d, s => sendEnd d s
  | fuel + 1, d, s =>
    let n := shardBytesOf d.record d.stripe (heldCol s d.entry d.slot)
    if recStripes d.record ≤ d.stripe then sendEnd d s
    else if n = 0 then sendShard fuel { d with stripe := d.stripe + 1 } s
    else memRequest .courierSend cM_RESTORE 4 false (slotAddr s d.entry d.slot + 1048576 + d.stripe * recShard d.record) n []
      (setCur { s.cur with send := some { d with xfer := s.mmp.nextXfer } } s)

/-- The read of a SEND has ended: the header decides acceptance, then the record and each shard are sent (R523). -/
def sendProgress (s : State) : State :=
  match s.cur.send with
  | none => s
  | some d =>
    if inReset s 2 || !memDone s .courierSend d.xfer then s
    else
      let ok := memOk s .courierSend d.xfer
      let b := memData s .courierSend d.xfer
      let s1 := memForget .courierSend d.xfer s
      if !d.accepted then
        if ok && b.take 8 == courMagic then
          let d1 := { d with accepted := true, xfer := s1.mmp.nextXfer }
          memRequest .courierSend cM_RESTORE 4 false (slotAddr s d.entry d.slot) (recLength b) []
            (curPost d.seq 0 (curEnter 5 (set (setCur { s1.cur with send := some d1 } s1) (F.CUR_RX_SRC_LOCKED d.entry) 1)))
        else curPost d.seq 5 (setCur { s1.cur with send := none } s1)
      else if !ok then sendEnd d s1
      else if d.record.isEmpty then
        let d1 := { d with record := b }
        sendShard (recStripes b + 1) d1 ((recordFrags (b.take (round64 (recLength b)))).foldl
          (fun s f => sendRestore d1 2 f.2.2 0 s (f.1, f.2.1)) s1)
      else
        let s2 := (pieces2k (b.take (shardBytesOf d.record d.stripe (heldCol s d.entry d.slot)))).foldl (sendRestore d 1 0 d.stripe) s1
        sendShard (recStripes d.record + 1) { d with stripe := d.stripe + 1 } s2

/-! Commands (R499 to R502). -/

/-- The entries of CUR_DST are the columns of the code (R500). -/
def dstGood (s : State) : Bool :=
  let bud := ((List.range (curK s + 2)).filter fun j => !on s (F.CUR_DST_KIND j)).map fun j => get s (F.CUR_DST_INDEX j)
  (List.range 32).all (fun j => on s (F.CUR_DST_VALID j) == decide (j < curK s + 2))
    && distinctBy (· == ·) bud && !bud.contains (index s)

/-- K and SHARD are in their ranges, and the early area lies in region 4. -/
def codeGood (s : State) : Bool :=
  decide (1 ≤ curK s) && decide (curK s ≤ 30) && decide (16 ≤ shardGrans s) && decide (shardGrans s ≤ 16384)
    && pagesIn s 4 (get s F.CUR_EARLY_BASE) (get s F.CUR_EARLY_SIZE_GRANULES + (if hostParity s then 8 * shardGrans s else 0))

/-- Idle: no snapshot, SEND or RESTORE. -/
def curIdle (s : State) : Bool := curState s == 0 && s.cur.send.isNone

/-- The status of an ARM: the first refusal of R499 that holds. -/
def armStatus (s : State) : Nat :=
  let l := curRegions s
  let n := stripesOf (curK s) (shardGrans s) (baseGrans l + get s F.CUR_CTL_TORN_MAX)
  if !curIdle s || !on s F.CUR_CTL_EN || pageFenced s 0x11 then 1
  else if valid s F.CUR_OUT_SEQ.addr then 7
  else if !regionsGood s || !codeGood s then 2
  else if !dstGood s then 3
  else if 1048576 < recordLen l.length (curK s + 2) n (get s F.CUR_CTL_TORN_MAX) then 4
  else 0

/-- ARM is accepted (R500, R501). -/
def armSnap (seq : Nat) (s : State) : State :=
  let id := get s F.CUR_NEXT_ID_NEXT_ID
  let step := get s F.CUR_SNAP_ARG_ARG
  let slot := if on s F.CUR_LAST_INFO_VALID then 1 - get s F.CUR_LAST_INFO_SLOT else 0
  let p : CurSnap := { seq, id, step, sealStep := step, slot, armTb0 := ns0 s, armTb2 := s.tim.tb2 }
  let s1 := set (set (set (set s F.CUR_NEXT_ID_NEXT_ID (id + 1)) F.CUR_STATUS_TORN_COUNT 0) F.CUR_STATUS_ACKS 0) F.CUR_FRONTIER_OFFSET 0
  let s2 := set (curEnter 1 (setSnap p s1)) F.MMP_STATUS_WI_ARM 1
  copyRun (curPost seq 0 (note 0x1101 INFO (pair32 id step) s2))

/-- ABORT, or what ends work in the same way (R502, R567). -/
def curAbort (s : State) : State :=
  let s1 := match s.cur.snap with | some p => snapEnd 4 p s | none => s
  let s2 := match s1.cur.send with | some d => sendEnd d s1 | none => s1
  match s2.cur.rest with
  | some r => endRest 4 0 r s2
  | none => s2

/-- SEND starts by reading the slot's MAGIC (R523). -/
def sendStart (seq : Nat) (s : State) : State :=
  let arg := get s F.CUR_SNAP_ARG_ARG
  let slot := natBits arg 48 1
  match rxEntry s (natBits arg 24 24) with
  | none => curPost seq 5 s
  | some e => showStart (memRequest .courierSend cM_RESTORE 4 false (slotAddr s e slot) 64 []
      (setCur { s.cur with send := some { seq, target := natBits arg 0 24, entry := e, slot, xfer := s.mmp.nextXfer } } s))

/-- START of CUR_SNAP_CMD (R499). -/
def curCommand (s : State) : State :=
  let seq := get s F.CUR_SNAP_CMD_SEQ
  let op := get s F.CUR_SNAP_CMD_OP
  if valid s F.CUR_SNAP_RESULT_SEQ.addr || !s.cur.owed.isEmpty then curPost seq 7 s
  else match op with
    | 0 => if armStatus s = 0 then armSnap seq s else curPost seq (armStatus s) s
    | 1 => match s.cur.snap with
      | some p =>
        if curState s = 2 then
          showStart (sealNext (baseGrans (curRegions s)) { p with sealSeq := some seq, sealStep := get s F.CUR_SNAP_ARG_ARG } (curEnter 3 s))
        else curPost seq 1 s
      | none => curPost seq 1 s
    | 2 => if curState s = 0 then curPost seq 1 s else curPost seq 0 (curAbort s)
    | 3 => if !curIdle s || pageFenced s 0x11 then curPost seq 1 s else sendStart seq s
    | 4 =>
      if !curIdle s || pageFenced s 0x11 then curPost seq 1 s
      else if valid s F.CUR_OUT_SEQ.addr then curPost seq 7 s
      else if !regionsGood s then curPost seq 6 s
      else curPost seq 0 (curEnter 6 (setCur { s.cur with
        rest := some { seq, id := get s F.CUR_SNAP_ARG_ARG, start := s.tim.tb2 } } s))
    | _ => curPost seq 1 (undefinedField F.CUR_SNAP_CMD_OP.addr op s)

/-- The registers that R498 locks while the Courier is not IDLE. -/
def curConfig (a : Nat) : Bool :=
  [0x110000, 0x110008, 0x110068, 0x110070].contains a || (decide (0x110100 ≤ a) && decide (a < 0x110600))

/-- The unit's treatment of a write to the CUR page (R498, R499). -/
def curWrite (a : Nat) (acc : Acc) (s : State) : State :=
  if a = F.CUR_SNAP_RESULT_SEQ.addr then curOwed (consume a acc s)
  else if a = F.CUR_OUT_SEQ.addr then consume a acc s
  else if curConfig a && curState s != 0 then report F.CUR_ERR_CFG_WR 0x1109 ADVISE a s
  else
    let s1 := perform a acc s
    if a = F.CUR_SNAP_CMD_START.addr ∧ wrote1 acc F.CUR_SNAP_CMD_START then curCommand (set s1 F.CUR_SNAP_CMD_START 1) else s1

/-- SNAPSHOT_ARM, SNAPSHOT_SEAL, SNAPSHOT_ABORT, CKPT_SEND and CKPT_RESTORE: a write of CUR_SNAP_CMD with START and the OP. -/
def snapCmd (op : Nat) (acc : Acc) (s : State) : State :=
  portWrite curWrite F.CUR_SNAP_CMD_START.addr (force F.CUR_SNAP_CMD_OP op (force F.CUR_SNAP_CMD_START 1 acc)) s
def execSnapshotArm (acc : Acc) (s : State) : Host.Outcome State Fault Refusal := .next (snapCmd 0 acc s)
def execSnapshotSeal (acc : Acc) (s : State) : Host.Outcome State Fault Refusal := .next (snapCmd 1 acc s)
def execSnapshotAbort (acc : Acc) (s : State) : Host.Outcome State Fault Refusal := .next (snapCmd 2 acc s)
def execCkptSend (acc : Acc) (s : State) : Host.Outcome State Fault Refusal := .next (snapCmd 3 acc s)
def execCkptRestore (acc : Acc) (s : State) : Host.Outcome State Fault Refusal := .next (snapCmd 4 acc s)

/-! Timeouts. -/

/-- A time in ms after a TB2 time. -/
def afterMs (t n : Nat) : Nat := t + n * 1000000 * 2 ^ 48

/-- COMMIT_TIMEOUT (R520). -/
def execCommitTimeout (s : State) : Host.Outcome State Fault Refusal :=
  .next (match s.cur.snap with
    | none => s
    | some p => match p.sent with
      | none => s
      | some t => snapFinish p (reachBase 2 (afterMs t (get s F.CUR_TIMING_COMMIT_TMO)) s))

/-- CHECKPOINT_DEADLINE (R522). -/
def execCheckpointDeadline (s : State) : Host.Outcome State Fault Refusal :=
  .next (match s.cur.snap with
    | none => s
    | some p =>
      if p.late then s
      else report F.CUR_ERR_DEADLINE 0x110A ADVISE (p.id % 2 ^ 32)
        (setSnap { p with late := true } (reachBase 2 (afterMs p.armTb2 (get s F.CUR_TIMING_DEADLINE)) s)))

/-- RESTORE_TIMEOUT (R525). -/
def execRestoreTimeout (s : State) : Host.Outcome State Fault Refusal :=
  .next (match s.cur.rest with
    | none => s
    | some r => restFinish r (reachBase 2 (afterMs r.start (get s F.CUR_TIMING_RESTORE_TMO)) s))

/-! Resets (R143, R528). -/

/-- A MOVE reset ends the Courier's work without an outcome, its intents ABANDONED. -/
def curReset (s : State) : State :=
  let s1 := match s.cur.snap with | some p => stopSnap 3 p s | none => s
  setCur { cols := s.cur.cols } { s1 with mmp := { s1.mmp with ended := s1.mmp.ended.filter fun e =>
    !([MemUser.courierRead, .courierStage, .courierRx, .courierSend].contains e.req.user) } }

/-- A reset across the Memory Port: the intents are answered ABANDONED before a reset of the shell, or discarded when
MMP_RST_N falls, and the Courier abandons the snapshot (R143). -/
def curLinkLost (hostSide : Bool) (s : State) : State :=
  let s1 := if hostSide then set (showIntents { s with mmp := { s.mmp with intents := [] } }) F.MMP_STATUS_WI_ARM 0
    else set (answerAll 3 s) F.MMP_STATUS_WI_ARM 0
  match s1.cur.snap with
  | some p => snapEnd 4 p s1
  | none => s1

end Sys2Proof.Machine
end

