-- ==== Sys2Proof/Machine/Compress.lean ====
section
/-!
DEFINITION. Register jobs of the compression engine (R536 to R553).
-/
namespace Sys2Proof.Machine

def setCmp (c : CmpSt) (s : State) : State := { s with cmp := c }

/-- The engine's SRAM partition (R724), and its requests' class (R540). -/
def cmpPart : Nat := 7
def cM_CMP : Nat := 22

/-- The largest WLOG of context B beside context A; 0 where none fits (R536). -/
def wlogMax (s : State) : Nat :=
  let room (w : Nat) : Bool := decide (2 * 2 ^ 18 + 1048576 + 2 * 2 ^ w + 1048576 ≤ partSize s cmpPart)
  (((List.range 14).map fun i => 23 - i).find? room).getD 0

/-- CMP_STATUS shows the jobs and the largest WLOG. -/
def showCmp (s : State) : State :=
  let dec := s.cmp.jobs.any CmpJob.decode
  let enc := s.cmp.jobs.any fun j => !j.decode
  set (set (set (set s F.CMP_STATUS_QUEUED s.cmp.jobs.length) F.CMP_STATUS_DEC_BUSY (if dec then 1 else 0))
    F.CMP_STATUS_ENC_B (if enc then 1 else 0)) F.CMP_STATUS_ENC_WLOG_MAX (wlogMax s)

/-- `n` bytes lie wholly in a region that is in use. -/
def bytesIn (s : State) (rgn addr n : Nat) : Bool :=
  on s (F.MMP_RGN_BASE_PERM rgn) && decide (get s (F.MMP_RGN_BASE_BASE rgn) * 4096 ≤ addr)
    && decide (addr + n ≤ (get s (F.MMP_RGN_LIM_LIMIT rgn) + 1) * 4096)

/-- The status of a job at GO: the first condition of R539 that holds, or 0. -/
def cmpCheck (s : State) (j : CmpJob) : Nat :=
  let n := j.srcLen
  if hostMode s 5 then 5
  else if (!j.decode && (j.level < 1 || 9 < j.level || j.wlog < 10 || 23 < j.wlog)) || j.src % 64 != 0 || j.dst % 64 != 0
      || j.dstLen == 0 || j.dstLen % 64 != 0 || (j.decode && n == 0)
      || (j.srcPart == j.dstPart && meets j.src n j.dst j.dstLen) then 1
  else if !(if j.srcPart then decide (j.src + n ≤ partSize s cmpPart) else bytesIn s 4 j.src n || bytesIn s 5 j.src n)
      || !(if j.dstPart then decide (j.dst + j.dstLen ≤ partSize s cmpPart) else bytesIn s 5 j.dst j.dstLen) then 2
  else if !j.decode && decide (wlogMax s < j.wlog) then 4
  else if !j.decode && decide (j.dstLen < 18 + n + 3 * encBlocks n) then 3
  else 0

/-- A result posts with its companions (R542). -/
def cmpPost (j : CmpJob) (status out used : Nat) (s : State) : State :=
  let s1 := wr (wr s (F.CMP_JOB_OUT_OUT_LEN j.slot).addr (BitVec.ofNat 64 (out % 2 ^ 48)))
    (F.CMP_JOB_IN_IN_USED j.slot).addr (BitVec.ofNat 64 (used % 2 ^ 48))
  syncEvent (0x18 + j.slot) 0x59
    (post (F.CMP_JOB_RESULT_SEQ j.slot).addr j.seq (BitVec.ofNat 64 (status + 2 ^ 16 * min 65535 j.fallbacks)) s1)

def putCmpJob (j : CmpJob) (s : State) : State :=
  setCmp { s.cmp with jobs := s.cmp.jobs.map fun x => if x.slot = j.slot then j else x } s

/-- The running job of a kind: the oldest. -/
def cmpJob (s : State) (decode : Bool) : Option CmpJob := s.cmp.jobs.find? fun j => j.decode == decode

/-- The engine may go on: neither in reset, fenced nor under a quiesce (R550, R567). -/
def cmpGoes (s : State) : Bool := !inReset s 2 && !fenced s 2 && !held s 0x12

/-- The running job of a kind starts to read its source (R540). -/
def cmpStart (decode : Bool) (s : State) : State :=
  match cmpJob s decode with
  | none => s
  | some j =>
    if j.reading.isSome || j.input.isSome || !cmpRuns s then s
    else if j.srcPart then putCmpJob { j with input := some (partRead s cmpPart j.src j.srcLen) } s
    else if j.srcLen = 0 then putCmpJob { j with input := some [] } s
    else
      let four := !bytesIn s 5 j.src j.srcLen
      putCmpJob { j with reading := some s.mmp.nextXfer }
        (memRequest .compress (if four then cM_CKPT else cM_CMP) (if four then 4 else 5) false j.src j.srcLen [] s)
def cmpKick (s : State) : State := showCmp (cmpStart true (cmpStart false s))

/-- GO in a job slot (R538, R539). -/
def cmpGo (i : Nat) (s : State) : State :=
  let g (f : Nat → Field) : Nat := get s (f i)
  if (s.cmp.jobs.any fun j => j.slot == i) || valid s (F.CMP_JOB_RESULT_SEQ i).addr then flag F.CMP_ERR_SLOT_BUSY s
  else
    let j : CmpJob := {
      slot := i, seq := g F.CMP_JOB_CTL_SEQ, decode := on s (F.CMP_JOB_DESC0_OP i), level := g F.CMP_JOB_DESC0_LEVEL,
      wlog := g F.CMP_JOB_DESC0_WLOG, chk := on s (F.CMP_JOB_DESC0_CHECKSUM i), srcPart := on s (F.CMP_JOB_DESC0_SRC_SPACE i),
      src := g F.CMP_JOB_SRC_ADDR, srcLen := g F.CMP_JOB_SRC_LEN_LEN, dstPart := on s (F.CMP_JOB_DESC0_DST_SPACE i),
      dst := g F.CMP_JOB_DST_ADDR, dstLen := g F.CMP_JOB_DST_LEN_LEN }
    match cmpCheck s j with
    | 0 => cmpKick (setCmp { s.cmp with jobs := s.cmp.jobs ++ [j] } s)
    | st => cmpPost j st 0 0 s

/-- A job ends with a status: an error sets JOB_ERR (R553). -/
def cmpEnd (j : CmpJob) (status : Nat) (s : State) : State :=
  let s1 := putCmpJob { j with ended := some status } s
  if [0, 6, 12].contains status then s1 else report F.CMP_ERR_JOB_ERR 0x1202 ADVISE (j.slot + 256 * status) s1

/-- Output of a block is written in whole beats (R542); the last write is filled with zeros. -/
def cmpOutput (j : CmpJob) (b : List Byte) (used : Nat) (last : Bool) (s : State) : CmpJob × State :=
  let all := j.buf ++ b
  let n := if last then round64 all.length else all.length / 64 * 64
  let w := padTo n all
  let x := s.mmp.nextXfer
  let mem := !j.dstPart && decide (0 < n)
  let s1 := if n = 0 then s
    else if j.dstPart then partWrite cmpPart (j.dst + j.put) w s
    else memRequest .compress cM_CMP 5 true (j.dst + j.put) n w s
  ({ j with buf := all.drop n, put := j.put + n, blocks := j.blocks ++ [(b.length, used, if mem then some x else none)] }, s1)

/-- The source of a running job, once its read has ended: the job with it, or its end. -/
def cmpInput (j : CmpJob) (s : State) : Option (CmpJob × State) :=
  match j.input, j.reading with
  | some _, _ => some (j, s)
  | none, some x =>
    if !memDone s .compress x then none
    else
      let s1 := memForget .compress x s
      if memOk s .compress x then some ({ j with input := some ((memData s .compress x).take j.srcLen), reading := none }, s1)
      else
        let (j1, s2) := cmpOutput { j with reading := none, input := some [] } [] 0 true s1
        some ({ j1 with ended := some 11 }, cmpEnd j1 11 s2)
  | none, none => none

/-- An uncorrectable error ends the job (R552). -/
def cmpEcc (j : CmpJob) (word : Nat) (s : State) : State :=
  let (j1, s1) := cmpOutput j [] ((j.blocks.getLast?.map fun b => b.2.1).getD 0) true s
  cmpEnd j1 13 (report F.CMP_ERR_ECC 0x1204 FAULT (j.slot + 2 ^ 32 * word) s1)

/-- The next block of the running encode is verified and released, or replaced by a Raw block (R543, R544). -/
def encodeBlock (ok : Bool) (ecc : Option Nat) (s : State) : State :=
  match cmpJob s false with
  | none => s
  | some j0 =>
    if j0.ended.isSome || !cmpGoes s then s
    else match cmpInput j0 s with
      | none => cmpKick s
      | some (j, s1) =>
        if j.ended.isSome then s1
        else match ecc with
          | some w => cmpEcc j w s1
          | none =>
            let src := j.input.getD []
            let i := j.oks.length
            let oks := j.oks ++ [ok]
            let b := ((encRun j.level j.wlog src oks).1.getLast?).getD []
            let last := decide (src.length ≤ (i + 1) * 131072)
            let head := if i = 0 then encHeader j.wlog src.length j.chk else []
            let tail := if last then encCheck src j.chk else []
            let s2 := bump s1 F.CMP_VFY_CNT_CHECKED 1
            let s3 := if ok then s2
              else report F.CMP_ERR_VERIFY 0x1201 FAULT (pair32 j.slot i) (bump s2 F.CMP_VFY_CNT_FALLBACK 1)
            let j1 := { j with oks, fallbacks := j.fallbacks + (if ok then 0 else 1) }
            let (j2, s4) := cmpOutput j1 (head ++ b ++ tail) (min src.length ((i + 1) * 131072)) last s3
            if last then cmpEnd j2 0 s4 else putCmpJob j2 s4

/-- ENCODE_BLOCK_DONE (R543, R544). -/
def execEncodeBlockDone (ok : Bool) (ecc : Option Nat) (s : State) : Host.Outcome State Fault Refusal := .next (encodeBlock ok ecc s)

def outLen (j : CmpJob) : Nat := j.blocks.foldl (fun n b => n + b.1) 0
def inUsed (j : CmpJob) : Nat := (j.blocks.getLast?.map fun b => b.2.1).getD 0

/-- A decode job ends: what is left of its output is written (R542, R547). -/
def decodeEnd (j : CmpJob) (status : Nat) (s : State) : State :=
  if j.buf.isEmpty then cmpEnd j status s
  else
    let (j1, s1) := cmpOutput j [] (inUsed j) true s
    cmpEnd j1 status s1

/-- The decode goes on to its next block (R533, R545, R546); `fuel` bounds the headers passed. -/
def decodeGo : Nat → CmpJob → State → State
  | 0, j, s => putCmpJob j s
  | fuel + 1, j, s =>
    match j.plan.getD [] with
    | [] => decodeEnd j 7 s
    | .stop st :: _ => decodeEnd j st s
    | .frame fcs :: t =>
      match fcs with
      | some n => if j.dstLen < outLen j + n then decodeEnd j 6 s else decodeGo fuel { j with plan := some t } s
      | none => decodeGo fuel { j with plan := some t } s
    | .block out used :: t =>
      if j.dstLen < outLen j + out.length then
        decodeEnd j 6 (report F.CMP_ERR_OVER_LIMIT 0x1203 ADVISE (j.slot + 2 ^ 16 * inUsed j) s)
      else
        let (j1, s1) := cmpOutput { j with plan := some t } out used false s
        match t with
        | .stop st :: _ => decodeEnd j1 st s1
        | _ => putCmpJob j1 s1

/-- The next block of the running decode is written whole, or the job ends. -/
def decodeBlock (ecc : Option Nat) (s : State) : State :=
  match cmpJob s true with
  | none => s
  | some j0 =>
    if j0.ended.isSome || !cmpGoes s then s
    else match cmpInput j0 s with
      | none => cmpKick s
      | some (j, s1) =>
        if j.ended.isSome then s1
        else match ecc with
          | some w => cmpEcc j w s1
          | none =>
            let plan := j.plan.getD (zPlan (j.input.getD []))
            decodeGo (plan.length + 1) { j with plan := some plan } s1

/-- DECODE_BLOCK_DONE (R545 to R547). -/
def execDecodeBlockDone (ecc : Option Nat) (s : State) : Host.Outcome State Fault Refusal := .next (decodeBlock ecc s)

/-- A job whose writes have all returned posts its result (R542, R547, R552). -/
def cmpComplete (s : State) (slot : Nat) : State :=
  match s.cmp.jobs.find? fun j => j.slot == slot with
  | none => s
  | some j => match j.ended with
    | none => s
    | some st =>
      let xs := j.blocks.filterMap fun b => b.2.2
      if xs.any fun x => !memDone s .compress x then s
      else
        let good (b : Nat × Nat × Option Nat) : Bool := match b.2.2 with | some x => memOk s .compress x | none => true
        let kept := j.blocks.takeWhile good
        let lost := kept.length != j.blocks.length
        let j1 := { j with blocks := kept }
        let s1 := xs.foldl (fun s x => memForget .compress x s) s
        let s2 := if lost ∧ [0, 6].contains st then report F.CMP_ERR_JOB_ERR 0x1202 ADVISE (j.slot + 256 * 11) s1 else s1
        let status := if lost ∧ [0, 6].contains st then 11 else st
        let used := if status = 0 then j.srcLen else inUsed j1
        cmpKick (cmpPost j status (outLen j1) used (setCmp { s2.cmp with jobs := s2.cmp.jobs.filter fun x => x.slot != slot } s2))

/-- CMP_JOB_COMPLETE (R542). -/
def execCmpJobComplete (slot : Nat) (s : State) : Host.Outcome State Fault Refusal := .next (if inReset s 2 then s else cmpComplete s slot)

/-- A MOVE reset ends every job (R551). -/
def cmpReset (s : State) : State :=
  let n := s.cmp.jobs.length
  let s1 := s.cmp.jobs.foldl (fun s j => cmpPost j 12 (outLen j) (inUsed j) s) s
  let s2 := note 0x1205 INFO n (setCmp {} s1)
  { s2 with mmp := { s2.mmp with ended := s2.mmp.ended.filter fun e => e.req.user != .compress } }

end Sys2Proof.Machine
end

