-- ==== Sys2Proof/Machine/Lantern.lean ====
section
/-!
DEFINITION. The Lantern (R686 to R708): its packets, comparators and trace state machine, staging, sinks and the post-trigger reserve.
-/
namespace Sys2Proof.Machine

def setLtn (l : LtnSt) (s : State) : State := { s with ltn := l }
def ltnCore (s : State) (c : Nat) : LtnCore := (look c s.ltn.cores).getD {}
def setLtnCore (c : Nat) (k : LtnCore) (s : State) : State := setLtn { s.ltn with cores := store c k s.ltn.cores } s

/-- The encoder runs (R686, R703). -/
def ltnOn (s : State) : Bool := on s F.LTN_CTL_EN && !on s F.LTN_STATUS_FROZEN && !inReset s 0
def ltnState (s : State) : Nat := get s F.LTN_STATUS_STATE
/-- Trace is recorded in the present state (R693). -/
def ltnTrace (s : State) : Bool := on s (F.LTN_STATE_TRACE (ltnState s))

/-! Secure code (R696). -/

/-- An address lies in the secure range of the active image. -/
def secureCode (s : State) (pc : Nat) : Bool :=
  let b := get s F.CTL_FW_INFO_AREA * fwArea s
  let lo := 0x10000000 + b + leNat (cellsAt s.fwSram (b + 28) 4)
  decide (lo ≤ pc) && decide (pc < lo + leNat (cellsAt s.fwSram (b + 32) 4))

def darkCode (s : State) (pc : Nat) : Bool := secureCode s pc && !authScope s 0

/-! Staging (R700, R701). -/

def stageBytes (l : List (List Byte × Nat)) : Nat := l.foldl (fun n e => n + e.1.length) 0

/-- Whole pre-trigger packets, oldest first, leave staging until `need` bytes are free; with them the bytes lost. -/
def displace : Nat → List (List Byte × Nat) → List (List Byte × Nat) × Nat
  | _, [] => ([], 0)
  | 0, l => (l, 0)
  | need, (b, k) :: t =>
    if k = 0 then let r := displace (need - b.length) t; (r.1, r.2 + b.length)
    else let r := displace need t; ((b, k) :: r.1, r.2)

/-- Bytes are lost: the first of a run flags and records it. -/
def ltnLose (n : Nat) (s : State) : State :=
  if n = 0 then s
  else
    let s1 := setLtn { s.ltn with lost := s.ltn.lost + n } (bump s F.LTN_LOST_LOST n)
    if s.ltn.dropping then s1
    else record { recOf 0x1B01 ADVISE n with run := 2 } (flag F.LTN_ERR_OVERFLOW s1)

/-- `n` bytes would be admitted now. -/
def ltnRoom (s : State) (n : Nat) : Bool :=
  if on s F.LTN_STATUS_TRIGGERED then
    decide (stageBytes (s.ltn.stage.filter fun e => e.2 != 0) + n ≤ 65536)
  else decide (stageBytes s.ltn.stage + n + s.ltn.stageRsv * 256 ≤ 65536)

/-- A packet of kind `k` is admitted to staging; after the trigger it may displace older ones (R701). -/
def ltnAdmit (b : List Byte) (k : Nat) (s : State) : State :=
  let (kept, gone) := displace (stageBytes s.ltn.stage + b.length - 65536) s.ltn.stage
  let s1 := ltnLose gone s
  setLtn { s1.ltn with stage := kept ++ [(b, k)], since := s1.ltn.since + b.length } s1

/-- A packet goes to staging, or is dropped (R700, R701). -/
def ltnPut (b : List Byte) (s : State) : State :=
  if !s.ltn.dropping && ltnRoom s b.length then ltnAdmit b (if on s F.LTN_STATUS_TRIGGERED then 1 else 0) s
  else
    let s1 := ltnLose b.length s
    setLtn { s1.ltn with dropping := true } s1

/-! Packets (R688 to R691). -/

/-- Signed LEB128. -/
def sleb : Nat → Int → List Byte
  | 0, _ => []
  | fuel + 1, x =>
    let low := (x % 128).toNat
    let rest := x / 128
    if (rest = 0 ∧ low < 64) ∨ (rest = -1 ∧ 64 ≤ low) then [BitVec.ofNat 8 low]
    else BitVec.ofNat 8 (low + 128) :: sleb fuel rest

/-- The RUN that a core has still to emit. -/
def ltnFlush (c : Nat) (s : State) : State :=
  let k := ltnCore s c
  if k.run = 0 then s
  else ltnPut [BitVec.ofNat 8 (0x80 + 16 * c + (k.run - 1))] (setLtnCore c { k with run := 0 } s)

/-- A SYNC of a core at `pc`. -/
def ltnSync (c pc reason : Nat) (s : State) : State :=
  let s1 := ltnFlush c s
  ltnPut ([BitVec.ofNat 8 (0x20 + c)] ++ leBytes 4 pc ++ leBytes 8 (ns2 s) ++ leBytes 1 reason) (setLtnCore c { ltnCore s1 c with owes := none } s1)

/-- The cores that are traced, have a SYNC behind them and are not in dark code or about to enter it (R696). -/
def ltnTraced (s : State) : List Nat :=
  (List.range 8).filter fun c => bitOn s F.LTN_CTL_CORE_EN c && (look c s.ltn.cores).isSome && (ltnCore s c).owes.isNone && !(ltnCore s c).dark
    && !darkCode s (ltnCore s c).next

/-- A SYNC of every traced core. -/
def ltnSyncAll (reason : Nat) (s : State) : State := (ltnTraced s).foldl (fun s c => ltnSync c (ltnCore s c).next reason s) s

/-- Once there is room for them, OVERFLOW and a SYNC of each traced core end a run of drops (R700). -/
def ltnRecover (s : State) : State :=
  if !s.ltn.dropping || !ltnRoom s (5 + 14 * (ltnTraced s).length) then s
  else
    let n := s.ltn.lost + ((ltnTraced s).filter fun c => (ltnCore s c).run != 0).length
    let s1 := (ltnTraced s).foldl (fun s c => ltnFlush c s) s
    ltnSyncAll 3 (ltnPut ([0x50] ++ leBytes 4 (min n (2 ^ 32 - 1))) (setLtn { s1.ltn with dropping := false, lost := 0 } s1))

/-- The periodic SYNC (R690). -/
def ltnPeriodic (s : State) : State :=
  let k := get s F.LTN_CTL_SYNC_KIB
  if k = 0 ∨ s.ltn.since < k * 1024 then s
  else
    let s1 := setLtn { s.ltn with since := 0 } s
    ltnSyncAll 0 (ltnPut (List.replicate 12 0 ++ [0x7F]) s1)

/-! Comparators and the state machine (R692 to R695). -/

/-- Comparators of a kind that `p` admits. -/
def ltnComps (s : State) (kind : Nat) (p : Nat → Bool) : Nat :=
  (List.range 8).foldl (fun m x => if get s (F.LTN_COMP_CTL_KIND x) = kind && p x then m ||| 2 ^ x else m) 0

/-- Comparators match; the match takes effect at the next instruction boundary (R694). -/
def ltnHit (m : Nat) (s : State) : State := if ltnOn s then setLtn { s.ltn with hits := s.ltn.hits ||| m } s else s

/-- The Guestbook accepts a record (R692). -/
def ltnGbk (code cls : Nat) (s : State) : State :=
  ltnHit (ltnComps s 2 fun x =>
    let lo := get s (F.LTN_COMP_LO_LO x)
    let hi := get s (F.LTN_COMP_HI_HI x)
    (code &&& (hi % 65536)) == (lo % 65536 &&& (hi % 65536)) && hi.testBit (16 + cls)) s

/-- A new state is entered (R693, R695). -/
def ltnEnter (n fired : Nat) (s : State) : State :=
  let old := ltnState s
  let s1 := (List.range 8).foldl (fun s c => ltnFlush c s) s
  let s2 := if n = old then s1 else ltnPut [BitVec.ofNat 8 (0x60 + n)] (set s1 F.LTN_STATUS_STATE n)
  let s3 := if on s (F.LTN_STATE_TRIGGER n) ∧ !on s F.LTN_STATUS_TRIGGERED then
      let p := [0x51] ++ leBytes 1 fired ++ leBytes 8 (ns2 s)
      let t := set s2 F.LTN_STATUS_TRIGGERED 1
      let t1 := if ltnRoom t p.length then ltnAdmit p 2 t else ltnLose p.length t
      note 0x1B02 INFO (fired + 256 * n) t1
    else s2
  if on s (F.LTN_STATE_TRACE n) && !on s (F.LTN_STATE_TRACE old) then
    setLtn { s3.ltn with cores := s3.ltn.cores.map fun e => (e.1, { e.2 with owes := some (e.2.owes.getD 1) }) } s3
  else s3

/-- The matches of a cycle are resolved: MASK_A before MASK_B; the rest are discarded (R693, R694). -/
def ltnResolve (hits : Nat) (s : State) : State :=
  let s1 := setLtn { s.ltn with hits := 0 } s
  let st := ltnState s
  let a := hits &&& get s (F.LTN_STATE_MASK_A st)
  let b := hits &&& get s (F.LTN_STATE_MASK_B st)
  if a ≠ 0 then ltnEnter (get s (F.LTN_STATE_NEXT_A st)) a s1
  else if b ≠ 0 then ltnEnter (get s (F.LTN_STATE_NEXT_B st)) b s1
  else s1

/-! Instructions (R689, R696). -/

/-- An instruction at `pc`, `len` bytes long, is recorded; control passes to `next`. An instruction that traps is not counted. -/
def ltnCount (c pc len next : Nat) (trap : Bool) (s : State) : State :=
  let k := ltnCore s c
  let s1 := if trap then s
    else
      let s1 := setLtnCore c { k with run := k.run + 1, last := pc } s
      if k.run + 1 = 16 then ltnFlush c s1 else s1
  if !trap && next == pc + len then s1
  else
    let s2 := ltnFlush c s1
    if darkCode s next then s2
    else ltnPut ([BitVec.ofNat 8 (0x10 + c)] ++ sleb 5 (((next : Int) - (ltnCore s2 c).last) / 2)) s2

/-- A traced core's instruction meets the comparators, the state machine and the encoder. -/
def ltnStep (c pc len next : Nat) (trap : Bool) (s : State) : State :=
  let dark := darkCode s pc
  let addr := if trap || dark then 0 else ltnComps s 1 fun x =>
    bitOn s (F.LTN_COMP_CTL_CORE_MASK x) c && decide (get s (F.LTN_COMP_LO_LO x) ≤ pc) && decide (pc ≤ get s (F.LTN_COMP_HI_HI x))
  let s1 := ltnResolve (s.ltn.hits ||| addr) (setLtnCore c { ltnCore s c with next := pc } s)
  let k := ltnCore s1 c
  if !ltnTrace s1 then setLtnCore c { k with owes := some (k.owes.getD 1), dark, run := 0, next } s1
  else if dark then
    if k.dark then setLtnCore c { k with next } s1
    else
      let s2 := ltnPut [BitVec.ofNat 8 (0x58 + c)] (ltnFlush c s1)
      setLtnCore c { ltnCore s2 c with dark := true, next } s2
  else
    let s2 := if k.dark then ltnSync c pc 4 (setLtnCore c { k with dark := false } s1)
      else match k.owes with
        | some r => ltnSync c pc r s1
        | none => s1
    let s3 := ltnCount c pc len next trap s2
    ltnPeriodic (ltnRecover (setLtnCore c { ltnCore s3 c with next } s3))

/-- Core `c` executes an instruction at `pc` and goes on at `next`; `trap` is the cause and value of a trap that it takes, which its trap
registers hold from there on. -/
def coreExecutes (c pc len next : Nat) (trap : Option (Word × Word)) (s : State) : State :=
  let k := (look c s.cores).getD {}
  let k1 := match trap with
    | some (cause, val) => { k with mcause := cause, mepc := BitVec.ofNat 64 pc, mtval := val }
    | none => k
  let s1 : State := { s with cores := store c { k1 with pc := BitVec.ofNat 64 next } s.cores }
  if ltnOn s ∧ bitOn s F.LTN_CTL_CORE_EN c then ltnStep c pc len next trap.isSome s1 else s1

/-! Cores that stop and start (R690, R708). -/

/-- Each core of a mask halts for PS2 or PS3: POWERDOWN with the PC at which it resumes. -/
def ltnSleep (mask : Nat) (s : State) : State :=
  if !ltnOn s || !ltnTrace s then s
  else (ltnTraced s).foldl (fun s c =>
    if mask.testBit c then
      ltnPut ([BitVec.ofNat 8 (0x40 + c)] ++ leBytes 4 (ltnCore s c).next ++ leBytes 8 (ns2 s)) (ltnFlush c s)
    else s) s

/-- Each core of a mask is released: it owes a SYNC of a reason (2 wake, 5 release). -/
def ltnRelease (mask reason : Nat) (s : State) : State :=
  (List.range 8).foldl (fun s c =>
    if mask.testBit c then
      let s1 := if ltnOn s then ltnFlush c s else s
      setLtnCore c { ltnCore s1 c with owes := some reason, dark := false } s1
    else s) s

/-- The cores of a mask run; under a fence of CTRL they do so only once it is released (R566, R567), and while the power controller holds
the cores only once it starts them (R666). -/
def runCores (mask : Nat) (s : State) : State :=
  if fenced s 0 then { s with rcv := { s.rcv with cores := s.rcv.cores ||| mask } }
  else if pwHeld s 0x17 then { s with pwr := { s.pwr with cores := s.pwr.cores ||| mask } }
  else set s F.CTL_STATUS_RUNNING (get s F.CTL_STATUS_RUNNING ||| mask)

/-! Sinks (R702, R703, R705 to R707). -/

/-- Up to `n` bytes leave staging: them, those of the TRIGGER packet and after it among them, and what stays. -/
def takeBytes : Nat → List (List Byte × Nat) → List Byte × Nat × List (List Byte × Nat)
  | _, [] => ([], 0, [])
  | 0, l => ([], 0, l)
  | n, (b, k) :: t =>
    let post (x : Nat) : Nat := if k = 1 ∨ k = 2 then x else 0
    if b.length ≤ n then
      let r := takeBytes (n - b.length) t
      (b ++ r.1, post b.length + r.2.1, r.2.2)
    else (b.take n, post n, (b.drop n, if k = 0 then 3 else if k = 2 then 1 else k) :: t)

/-- The bytes before the TRIGGER packet in staging; none if it is not there. -/
def bytesToTrigger : List (List Byte × Nat) → Option Nat
  | [] => none
  | (b, k) :: t => if k = 2 then some 0 else (bytesToTrigger t).map (· + b.length)

/-- The bytes the sink may still take: up to the end of the reserve (R703). -/
def ltnQuota (s : State) (n : Nat) : Nat :=
  if !on s F.LTN_STATUS_TRIGGERED then n
  else
    let left := s.ltn.reserve * 4096 - s.ltn.sent
    if s.ltn.sent ≠ 0 then min n left
    else match bytesToTrigger s.ltn.stage with
      | some b => min n (b + left)
      | none => n

/-- Bytes have left for the sink: the end of the reserve freezes the trace (R703). -/
def ltnSent (post : Nat) (rest : List (List Byte × Nat)) (s : State) : State :=
  let sent := s.ltn.sent + post
  let s1 := setLtn { s.ltn with stage := rest, sent } s
  if post ≠ 0 ∧ s.ltn.reserve * 4096 ≤ sent then note 0x1B03 INFO sent (set s1 F.LTN_STATUS_FROZEN 1) else ltnRecover s1

/-- Bytes go to the SRAM ring (R702). -/
def ltnRing (s : State) : State :=
  let size := get s F.LTN_RING_SIZE_SIZE
  let w := get s F.LTN_WRPTR_WRPTR
  if size = 0 then s
  else
    let free := size - s.ltn.reserve * 4096 - (w + size - get s F.LTN_RDPTR_RDPTR % size) % size
    let n := if s.ltn.mode && !on s F.LTN_STATUS_TRIGGERED then free else 65536
    let (bs, post, rest) := takeBytes (ltnQuota s n) s.ltn.stage
    if bs.isEmpty then s
    else
      let mark := if s.ltn.sent = 0 ∧ post ≠ 0 then some ((w + (bs.length - post)) % size) else none
      let base := get s F.LTN_RING_BASE_BASE
      let n1 := min bs.length (size - w)
      let s1 := partPut 10 base (bs.drop n1) (partPut 10 (base + w) (bs.take n1) s)
      let s2 := set s1 F.LTN_WRPTR_WRPTR ((w + bs.length) % size)
      ltnSent post rest (match mark with | some m => set s2 F.LTN_MARK_MARK m | none => s2)

/-- One byte-pair edge pair of the parallel port: four bytes a cycle of SCLK, IDLE where staging is empty (R706). -/
def ltnParallel (s : State) : State :=
  let (bs, post, rest) := takeBytes (ltnQuota s 4) s.ltn.stage
  ltnSent post rest (emit (.trace 1 (padTo 4 bs)) s)

/-- One bit through the scrambler 1 + x^39 + x^58 of a lane (R707). -/
def scrBit (l : LtnLane) (b : Bool) : LtnLane × Bool :=
  let o := b != (l.scr.testBit 38 != l.scr.testBit 57)
  ({ scr := l.scr * 2 % 2 ^ 58 + (if o then 1 else 0) }, o)

/-- Four bytes through the scrambler, bit 0 first. -/
def scrWord (l : LtnLane) (bs : List Byte) : LtnLane × Nat :=
  (List.range 32).foldl (fun r i =>
    let (l1, o) := scrBit r.1 ((leNat bs).testBit i)
    (l1, r.2 + (if o then 2 ^ i else 0))) (l, 0)

/-- One word per serial lane (R707): the marker of a frame, or four stream bytes each. -/
def ltnSerial (s : State) : State :=
  let l := s.ltn
  if l.word = 0 then
    let m := leBytes 4 (0x4C4E5400 + l.frame % 256)
    setLtn { l with word := 1 } (emit (.trace 2 (m ++ m)) s)
  else
    let (bs, post, rest) := takeBytes (ltnQuota s 8) l.stage
    let b := padTo 8 bs
    let (l0, w0) := scrWord l.lane0 (b.take 4)
    let (l1, w1) := scrWord l.lane1 (b.drop 4)
    let next := if l.word = 63 then { l with word := 0, frame := (l.frame + 1) % 256, lane0 := l0, lane1 := l1 }
      else { l with word := l.word + 1, lane0 := l0, lane1 := l1 }
    ltnSent post rest (setLtn next (emit (.trace 2 (leBytes 4 w0 ++ leBytes 4 w1)) s))

/-- The sink goes on by the time that has passed since `t` (DESIGN CHOICE, log 48): the ring and the parallel port at edges of SCLK, the serial port at
edges 2.56 ns apart. In PS3 staging is retained (R708). -/
def ltnDrain (t : Nat) (s : State) : State :=
  let edge (p : Nat) : Bool := t / p != s.tim.tb2 / p
  if !on s F.LTN_CTL_EN || inReset s 0 || pwState s == 3 then s
  else match get s F.LTN_SINK_KIND with
    | 1 => if edge (5 * 2 ^ 48) then (if on s F.LTN_STATUS_FROZEN then emit (.trace 1 (leBytes 4 0)) s else ltnParallel s) else s
    | 2 => if edge (256 * 2 ^ 48 / 100) && !on s F.LTN_STATUS_FROZEN then ltnSerial s else s
    | 3 => if edge (5 * 2 ^ 48) && !on s F.LTN_STATUS_FROZEN then ltnRing s else s
    | _ => s

/-! Registers (R693, R704). -/

/-- ARM: refused, or the state machine and the reserve start again. -/
def ltnArm (s : State) : State :=
  let r := get s F.LTN_SINK_RESERVE
  if r = 0 ∨ (get s F.LTN_SINK_KIND = 3 ∧ get s F.LTN_RING_SIZE_SIZE < 2 * (r * 4096)) then flag F.LTN_ERR_CFG s
  else
    let s1 := if ltnState s ≠ 0 ∧ ltnOn s then ltnPut [0x60] ((List.range 8).foldl (fun s c => ltnFlush c s) s) else s
    let s2 := set (set (set s1 F.LTN_STATUS_STATE 0) F.LTN_STATUS_TRIGGERED 0) F.LTN_STATUS_FROZEN 0
    setLtn { s2.ltn with
      mode := on s F.LTN_SINK_MODE, reserve := r, stageRsv := get s F.LTN_SINK_STAGE_RSV, hits := 0, timed := 0, sent := 0,
      stage := s2.ltn.stage.map fun e => (e.1, if e.2 = 3 then 3 else 0),
      cores := s2.ltn.cores.map fun e => (e.1, { e.2 with owes := some (e.2.owes.getD 1) }) } s2

/-- The unit's treatment of a write to the LTN page. A KIND that is not defined leaves the comparator off (R21). -/
def ltnWrite (a : Nat) (acc : Acc) (s : State) : State :=
  let s1 := perform a acc s
  if a = F.LTN_CTL_EN.addr then
    let s2 := if wrote1 acc F.LTN_CTL_ARM then ltnArm s1 else s1
    let s3 := if on s2 F.LTN_CTL_EN && !on s F.LTN_CTL_EN then
        setLtn { s2.ltn with cores := s2.ltn.cores.map fun e => (e.1, { e.2 with owes := some (e.2.owes.getD 1) }) } s2
      else s2
    let soft := bitsAt (wdata acc) 24 8
    if soft = 0 then s3 else ltnHit (ltnComps s3 4 fun x => soft.testBit x) s3
  else if 0x1B0100 ≤ a ∧ a < 0x1B0200 then
    let x := (a - 0x1B0100) / 0x20
    let s2 := setLtn { s1.ltn with timed := if s1.ltn.timed.testBit x then s1.ltn.timed - 2 ^ x else s1.ltn.timed } s1
    let k := get s2 (F.LTN_COMP_CTL_KIND x)
    if a = (F.LTN_COMP_CTL_KIND x).addr ∧ 5 ≤ k then undefinedField a k s2 else s2
  else s1

/-- TRACE_ARM (R693). -/
def execTraceArm (acc : Acc) (s : State) : Host.Outcome State Fault Refusal :=
  .next (portWrite ltnWrite F.LTN_CTL_ARM.addr (force F.LTN_CTL_ARM 1 acc) s)
/-- TRACE_SOFT (R692): the SOFT bits are those of the write. -/
def execTraceSoft (acc : Acc) (s : State) : Host.Outcome State Fault Refusal := .next (portWrite ltnWrite F.LTN_CTL_SOFT.addr acc s)

/-- TB2 reaches LO of a TIME comparator, which matches once (R692). -/
def timeComparator (x : Nat) (s : State) : State :=
  let t := get s (F.LTN_COMP_LO_LO x)
  if 8 ≤ x ∨ get s (F.LTN_COMP_CTL_KIND x) ≠ 3 ∨ s.ltn.timed.testBit x ∨ !ltnOn s ∨ t < ns2 s then s
  else
    let s1 := reachBase 2 (t * 2 ^ 48) s
    ltnHit (2 ^ x) (setLtn { s1.ltn with timed := s1.ltn.timed ||| 2 ^ x } s1)

/-- TRACE_TIME_COMPARATOR (R692). -/
def execTraceTimeComparator (x : Nat) (s : State) : Host.Outcome State Fault Refusal := .next (timeComparator x s)

end Sys2Proof.Machine
end

