-- ==== Sys2Proof/Machine/Debug.lean ====
section
/-!
DEFINITION. Debug access (R697 to R699, R709 to R711): the authorisation, halting, stepping and inspecting cores, and the TAP's data registers.
-/
namespace Sys2Proof.Machine

def setDbg (d : DbgSt) (s : State) : State := { s with dbg := d }

/-! Authorisation (R697 to R699). -/

/-- An installed authorisation lapses: 1 time, 2 reset, 3 revoked. -/
def authLapse (why : Nat) (s : State) : State :=
  if !on s F.DBG_AUTH_INFO_VALID then s
  else
    let s1 := set (set (set s F.DBG_AUTH_INFO_VALID 0) F.DBG_AUTH_INFO_SCOPE 0) F.DBG_AUTH_INFO_NOT_AFTER 0
    note 0x1C03 INFO why (setDbg { s1.dbg with notAfter := 0 } s1)

/-- START of an install. -/
def authBegin (s : State) : State := set (setDbg { s.dbg with words := [], verify := false } s) F.DBG_AUTH_CTL_START 1

/-- A word of the authorisation; the 48th starts the check. -/
def authWord (w : Word) (s : State) : State :=
  if !on s F.DBG_AUTH_CTL_START then s
  else
    let b := s.dbg.words ++ wordBytes w
    if b.length < 384 then setDbg { s.dbg with words := b } s
    else set (setDbg { s.dbg with words := b, verify := true } s) F.DBG_AUTH_CTL_START 0

/-- The check of an authorisation (R697, R698): 0 OK, 1 SIG, 2 FORMAT, 3 CHIP, 4 TIME. -/
def authCheck (s : State) (b : List Byte) : Nat :=
  let chip := leAt b 8 16
  if envelope b 0 (pers s) ≠ 0 then 1
  else if b.take 4 ≠ [0x44, 0x42, 0x47, 0x41] ∨ byteAt b 4 ≠ 1 ∨ 8 ≤ leAt b 5 1 ∨ leAt b 6 2 ≠ 0 ∨ leAt b 32 32 ≠ 0 then 2
  else if chip = 0 ∨ chip ≠ (rd s F.GLB_CHIP_ID_LO_CHIP_ID.addr).toNat + 2 ^ 64 * (rd s F.GLB_CHIP_ID_HI_CHIP_ID.addr).toNat then 3
  else if leAt b 24 8 < ns0 s ∨ get s (F.TIM_TB_STATUS_STATE 0) ≠ 2 then 4
  else 0

/-- The check is complete (R698). -/
def authDone (s : State) : State :=
  if !s.dbg.verify then s
  else
    let b := s.dbg.words
    let st := authCheck s b
    let s1 := setDbg { s.dbg with words := [], verify := false } s
    if st ≠ 0 then note 0x1C02 ADVISE st (set s1 F.DBG_AUTH_INFO_STATUS st)
    else
      let na := leAt b 24 8
      let s2 := set (set (set (set s1 F.DBG_AUTH_INFO_STATUS 0) F.DBG_AUTH_INFO_VALID 1) F.DBG_AUTH_INFO_SCOPE (leAt b 5 1)) F.DBG_AUTH_INFO_NOT_AFTER (na / 256)
      note 0x1C01 INFO (leAt b 5 1 + 256 * (na % 2 ^ 48)) (setDbg { s2.dbg with notAfter := na } s2)

/-- AUTH_VERIFY_DONE (R698). -/
def execAuthVerifyDone (s : State) : Host.Outcome State Fault Refusal := .next (authDone s)

/-- TB0 passes NOT_AFTER (R699). -/
def authTime (s : State) : State :=
  if !on s F.DBG_AUTH_INFO_VALID then s else authLapse 1 (reachTb0 ((s.dbg.notAfter + 1) * 2 ^ 48) s)

/-- AUTH_LAPSE (R699). -/
def execAuthLapse (s : State) : Host.Outcome State Fault Refusal := .next (authTime s)

/-! Cores (R711). -/

def dbgCore (s : State) : Nat := get s F.DBG_CORE_CTL_CORE
def dbgHalted (s : State) (c : Nat) : Bool := bitOn s F.DBG_CORE_CTL_HALTED c

/-- A core executes secure code that no authorisation with scope HALT_SECURE opens. -/
def haltWaits (s : State) (c : Nat) : Bool :=
  secureCode s (((look c s.cores).map fun k => k.pc.toNat).getD 0) && !authScope s 2

/-- A core halts. -/
def haltCore (c port : Nat) (s : State) : State :=
  let s1 := setDbg { s.dbg with halts := dropKeys (· == c) s.dbg.halts } s
  let s2 := setBit (setBit s1 F.DBG_CORE_CTL_HALTED c true) F.CTL_STATUS_RUNNING c false
  note 0x1C04 INFO (c + 256 * port) (if dbgCore s2 = c then set s2 F.DBG_CORE_CTL_HALT 0 else s2)

/-- The halts that a core's next instruction boundary allows. -/
def haltsDue (s : State) : State :=
  s.dbg.halts.foldl (fun s h => if bitOn s F.CTL_STATUS_RUNNING h.1 && !haltWaits s h.1 then haltCore h.1 h.2 s else s) s

/-- HALT. -/
def haltOrder (acc : Acc) (s : State) : State :=
  let c := dbgCore s
  if nCores s ≤ c ∨ !bitOn s F.CTL_STATUS_RUNNING c then s
  else haltsDue (set (setDbg { s.dbg with halts := store c (portCode acc.port) s.dbg.halts } s) F.DBG_CORE_CTL_HALT 1)

/-- RESUME: the core is released with a SYNC of reason 5. -/
def resumeCore (s : State) : State :=
  let c := dbgCore s
  if !dbgHalted s c ∨ inReset s 0 then s
  else ltnRelease (2 ^ c) 5 (runCores (2 ^ c) (setBit s F.DBG_CORE_CTL_HALTED c false))

/-- STEP: one instruction is executed, and the core halts again; a write that brings no instruction with it steps none. -/
def stepCore (step : Option StepEffect) (s : State) : State :=
  let c := dbgCore s
  match step with
  | none => s
  | some e =>
    if !dbgHalted s c ∨ inReset s 0 then s
    else
      let k := (look c s.cores).getD {}
      let s1 : State := { s with cores := store c (e.xs.foldl (fun k x => putX k x.1 x.2) k) s.cores }
      coreExecutes c k.pc.toNat e.len e.next e.trap s1

/-- A register leaves the register store: its value stands elsewhere. -/
def unreg (a : Nat) (s : State) : State := { s with regs := dropKeys (· == a) s.regs }

/-- A write of DBG_CORE_PC or DBG_CORE_REGx: performed on a halted core, else without effect. -/
def coreWrite (a : Nat) (acc : Acc) (s : State) : State :=
  let c := dbgCore s
  if !dbgHalted s c then s
  else
    let k := (look c s.cores).getD {}
    let x := (a - 0x1C0100) / 8
    let old := if a = F.DBG_CORE_PC_PC.addr then k.pc else (look x k.x).getD 0
    let s1 := perform a acc (wr s a old)
    let v := rd s1 a
    let k1 := if a = F.DBG_CORE_PC_PC.addr then { k with pc := v } else putX k x v
    unreg a { s1 with cores := store c k1 s1.cores }

/-- The unit's treatment of a write to the DBG page; `step` is what a stepped instruction does. -/
def dbgWrite (step : Option StepEffect) (a : Nat) (acc : Acc) (s : State) : State :=
  if a = F.DBG_CORE_PC_PC.addr ∨ (0x1C0108 ≤ a ∧ a < 0x1C0200) then coreWrite a acc s
  else
    let s1 := perform a acc s
    if a = F.DBG_AUTH_CTL_START.addr then
      let s2 := if wrote1 acc F.DBG_AUTH_CTL_REVOKE then authLapse 3 s1 else s1
      if wrote1 acc F.DBG_AUTH_CTL_START then authBegin s2 else s2
    else if a = F.DBG_AUTH_DATA_DATA.addr then authWord (wdata acc) s1
    else if a = F.DBG_CORE_CTL_HALT.addr then
      let s1 := set s1 F.DBG_CORE_CTL_HALT (if (look (dbgCore s1) s1.dbg.halts).isSome then 1 else 0)
      let s2 := if wrote1 acc F.DBG_CORE_CTL_HALT then haltOrder acc s1 else s1
      let s3 := if wrote1 acc F.DBG_CORE_CTL_STEP then stepCore step s2 else s2
      if wrote1 acc F.DBG_CORE_CTL_RESUME then resumeCore s3 else s3
    else s1

/-- AUTH_INSTALL_START (R698). -/
def execAuthInstallStart (acc : Acc) (s : State) : Host.Outcome State Fault Refusal :=
  .next (portWrite (dbgWrite none) F.DBG_AUTH_CTL_START.addr (force F.DBG_AUTH_CTL_START 1 acc) s)
/-- AUTH_DATA (R698). -/
def execAuthData (acc : Acc) (s : State) : Host.Outcome State Fault Refusal := .next (portWrite (dbgWrite none) F.DBG_AUTH_DATA_DATA.addr acc s)
/-- AUTH_REVOKE (R699). -/
def execAuthRevoke (acc : Acc) (s : State) : Host.Outcome State Fault Refusal :=
  .next (portWrite (dbgWrite none) F.DBG_AUTH_CTL_REVOKE.addr (force F.DBG_AUTH_CTL_REVOKE 1 acc) s)

/-- A write of DBG_CORE_CTL with one of its command bits set and the others clear. -/
def coreOrder (f : Field) (acc : Acc) : Acc :=
  force f 1 (force F.DBG_CORE_CTL_HALT 0 (force F.DBG_CORE_CTL_STEP 0 (force F.DBG_CORE_CTL_RESUME 0 acc)))
/-- CORE_HALT (R711). -/
def execCoreHalt (acc : Acc) (s : State) : Host.Outcome State Fault Refusal :=
  .next (portWrite (dbgWrite none) F.DBG_CORE_CTL_HALT.addr (coreOrder F.DBG_CORE_CTL_HALT acc) s)
/-- CORE_STEP (R711). -/
def execCoreStep (acc : Acc) (len next : Nat) (trap : Option (Word × Word)) (xs : List (Nat × Word)) (s : State) : Host.Outcome State Fault Refusal :=
  let e : Option StepEffect := some { len, next, trap, xs }
  .next (bringing none e (portWrite (dbgWrite e) F.DBG_CORE_CTL_STEP.addr (coreOrder F.DBG_CORE_CTL_STEP acc)) s)
/-- CORE_RESUME (R711). -/
def execCoreResume (acc : Acc) (s : State) : Host.Outcome State Fault Refusal :=
  .next (portWrite (dbgWrite none) F.DBG_CORE_CTL_RESUME.addr (coreOrder F.DBG_CORE_CTL_RESUME acc) s)

/-! Instructions of running cores. -/

/-- Core `c` executes the instruction of `len` bytes at `pc` (R689); a halt that waited takes effect at the boundary after it. -/
def instruction (c pc len next : Nat) (trap : Option (Word × Word)) (s : State) : State :=
  if 8 ≤ c ∨ !bitOn s F.CTL_STATUS_RUNNING c ∨ inReset s 0 then s else haltsDue (coreExecutes c pc len next trap s)

/-- TRACE_INSTRUCTION (R689). -/
def execTraceInstruction (c pc len next : Nat) (trap : Option (Word × Word)) (s : State) : Host.Outcome State Fault Refusal :=
  .next (instruction c pc len next trap s)

/-! The TAP (R709, R710). -/

/-- The IDCODE register; `mfr` is DBG_MFR_ID. -/
def idcode (s : State) (mfr : Nat) : Nat := get s F.GLB_VERSION_MINOR % 16 * 2 ^ 28 + 0xB3C0 * 2 ^ 12 + mfr % 2 ^ 11 * 2 + 1

/-- An access of the TAP is pending: it waits on the Ledger queue or on SCLK. -/
def tapPending (s : State) : Bool :=
  s.ldg.waiting.any (fun w => w.2.port == .tap) || s.pwr.waiting.any fun w => w.acc.port == .tap

/-- DBGSTAT, and DBGACC at Capture-DR. -/
def dbgstat (s : State) : Nat :=
  (if tapPending s then 128 else 0) + s.dbg.tap.1 % 4 * 32 + (if on s F.DBG_AUTH_INFO_VALID then 16 else 0)
def dbgaccCapture (s : State) : Nat := s.dbg.tap.1 % 4 * 2 ^ 88 + s.dbg.tap.2.toNat

/-- The access that DBGACC makes (R710). -/
def tapAcc (s : State) (data : Word) : Acc :=
  { port := .tap, priv := if authScope s 1 then .S else .D, init := 0xFE00, half := .full, data, tgaFrom := 0, hwMask := 0, hwVal := 0, sameCycle := false }

end Sys2Proof.Machine
end

