-- ==== Sys2Proof/Machine/Detect.lean ====
section
/-!
DEFINITION. The detectors (R429 to R446): evaluation of a published result by kind, verdicts, references and posted scores.
-/
namespace Sys2Proof.Machine

/-! Fields of the parameters. -/

def detP0 (s : State) (d : Nat) : Word := rd s (F.DET_D_P0_P d).addr
def detP1 (s : State) (d : Nat) : Word := rd s (F.DET_D_P1_P d).addr
/-- HA_THRESH. -/
def detHa (s : State) (d : Nat) : Int := toSigned 64 (rd s (F.DET_D_P2_P d).addr).toNat
def detKind (s : State) (d : Nat) : Nat := get s (F.DET_D_CFG_KIND d)
def detInput (s : State) (d : Nat) : Nat := get s (F.DET_D_CFG_INPUT d)

/-- A kind may run at a level (R431). -/
def kindAt (kind lvl : Nat) : Bool :=
  match kind with
  | 1 => lvl == 1
  | 2 => decide (lvl ≤ 4)
  | 3 => decide (lvl ≤ 4)
  | 4 => lvl == 1
  | _ => false

/-- What a detector finds: subject index and level, STEP, METRIC, THRESHOLD and REFERENCE as 64-bit fields. -/
structure Finding where
  idx : Nat
  lvl : Nat
  step : Nat
  metric : Int
  thr : Int
  ref : Int
  deriving DecidableEq, Repr

/-- The verdict record of a finding (R429). -/
def findingBytes (s : State) (e : Due) (f : Finding) : List Byte :=
  verdictBytes s e.epoch (detKind s e.det) (get s (F.DET_D_CFG_SEVERITY e.det)) e.domain e.det f.idx f.lvl
    (leBytes 4 f.step ++ leBytes 8 (ofSigned 64 f.metric) ++ leBytes 8 (ofSigned 64 f.thr) ++ leBytes 8 (ofSigned 64 f.ref))

/-! Inputs. -/

/-- The delta of a counter from one child's parts. -/
def partsDelta (ps : List Part) (i : Nat) : Option Nat := deltaOf { bit := 0, source := 0, parts := ps.map fun p => (0, p) } (i / 256) i

/-- A part of a counter carries more than one epoch (COARSE or SPAN). -/
def partsSpan (ps : List Part) (i : Nat) : Bool :=
  ps.any fun p => covers (i / 256) i p && ((partFlags p &&& sSPAN) != 0 || partSpan p != 1)

/-- The deltas of a counter summed over the children; none if no child has it. -/
def sumDelta (e : Due) (i : Nat) : Option Nat :=
  match e.kids.filterMap fun k => partsDelta k.2.2.2 i with
  | [] => none
  | l => some (l.foldl (· + ·) 0 % 2 ^ 64)

/-- An aggregate of a counter (R301). -/
def aggValue (e : Due) (i : Nat) : Option Nat :=
  e.results.findSome? fun r => match r with
    | .agg _ _ _ _ _ ents _ => (ents.find? fun x => x.1 == i).map fun x => (x.2.headD (0, 0)).1
    | _ => none

/-- A sketch of the result, or of a die's own sample, with its resolution. -/
def sketchOf (e : Due) (id : Nat) : Option (Bool × Sketch) :=
  (e.results.findSome? fun r => match r with
    | .sketch j fl _ k => if j = id then some (fl % 2 == 1, k) else none
    | _ => none) <|>
  (e.kids.findSome? fun x => x.2.2.2.findSome? fun p => match p with
    | .sketch j _ _ fl _ k => if j = id && e.results.isEmpty then some (fl % 2 == 1, k) else none
    | _ => none)

/-! STRAGGLER (R435 to R438). -/

/-- A list in the order of `le`; equal elements keep their order. -/
def insertLe {α : Type} (le : α → α → Bool) (x : α) : List α → List α
  | [] => [x]
  | y :: t => if le x y then x :: y :: t else y :: insertLe le x t
def sortLe {α : Type} (le : α → α → Bool) (l : List α) : List α := l.foldr (insertLe le) []

/-- The q-th smallest of a list of arrivals. -/
def nth (q : Nat) (l : List Int) : Option Int :=
  if q = 0 then none else (sortLe (fun a b => decide (a ≤ b)) l)[q - 1]?

/-- The arrivals of one child's markers of an epoch enter the step table: `c` steps after `t`, each at `at'`. -/
def addArrivals (bit t c : Nat) (at' : Int) (l : List Step) : List Step :=
  (List.range c).foldl (fun l i =>
    let n := t + i + 1
    let st := (l.find? fun x => x.n == n).getD { n, fixed := none, arrivals := [] }
    sortBy Step.n ({ st with arrivals := st.arrivals ++ [(bit, at')] } :: l.filter fun x => x.n != n)) l

/-- r(s) of a step: fixed, or provisional (R437). -/
def stepRef (q : Nat) (st : Step) : Option Int := st.fixed <|> nth q (st.arrivals.map Prod.snd)

/-- Steps kept: until step s + 8 is fixed. -/
def keepSteps (l : List Step) : List Step :=
  let top := l.foldl (fun m st => if st.fixed.isSome then max m st.n else m) 0
  l.filter fun st => decide (top < st.n + 8)

/-- A measure exceeds its threshold. -/
def exceeds (x thr : Int) : Bool := decide (thr < x)

/-- STRAGGLER: the state after, and the findings. -/
def straggler (s : State) (e : Due) (v : DetSt) : DetSt × List Finding :=
  let d := e.det
  let p0 := detP0 s d
  let cc := bitsAt (detP1 s d) 0 16
  let oc := bitsAt (detP1 s d) 16 16
  if e.kids.any fun k => partsSpan k.2.2.2 cc || partsSpan k.2.2.2 oc then (v, [])
  else
    let q := (bitsAt p0 32 16 * e.expected + 65535) / 65536
    let add (v : DetSt) (k : Nat × Nat × Nat × List Part) : DetSt :=
      let c := (partsDelta k.2.2.2 cc).getD 0
      let t := valAt v.totals k.1
      if c = 0 then v
      else { v with steps := addArrivals k.1 t c (e.b0 + (((partsDelta k.2.2.2 oc).getD 0) / c : Nat)) v.steps,
                    totals := store k.1 (t + c) v.totals }
    let v1 := e.kids.foldl add v
    let steps := v1.steps.map fun st => { st with fixed := stepRef q st }
    let refAt (n : Nat) : Option Int := (steps.find? fun st => st.n == n).bind Step.fixed
    let thr (st : Step) (r : Int) : Int :=
      let p : Int := match (if st.n = 0 then none else refAt (st.n - 1)) with | some r0 => r - r0 | none => 0
      max (bitsAt p0 0 32 : Int) ((bitsAt p0 48 8 : Int) * p / 256)
    let lag (bit : Nat) (st : Step) (r : Int) : Int :=
      match st.arrivals.find? fun a => a.1 == bit with
      | some a => a.2 - r
      | none => (e.b1 : Int) - r
    let newLate (bit : Nat) : List Step := steps.filter fun st => match st.fixed with
      | some r => exceeds (lag bit st r) (thr st r) && !v.late.contains (bit, st.n)
      | none => false
    let late := v.late ++ e.kids.flatMap fun k => (newLate k.1).map fun st => (k.1, st.n)
    let consec := max 1 (get s (F.DET_D_CFG_CONSEC d))
    let finding (k : Nat × Nat × Nat × List Part) : Option Finding :=
      ((newLate k.1).filter fun st => (List.range consec).all fun i => decide (i ≤ st.n) && late.contains (k.1, st.n - i)).getLast?.bind
        fun st => st.fixed.map fun r => { idx := k.2.1, lvl := k.2.2.1, step := st.n, metric := lag k.1 st r, thr := thr st r, ref := r }
    let low := steps.foldl (fun m st => min m st.n) (2 ^ 64)
    ({ v1 with steps := keepSteps steps, late := late.filter fun x => decide (low < x.2 + 32) }, e.kids.filterMap finding)

/-! DRIFT (R439). -/

/-- The largest distance of the cumulative counts of two sketches, times Na × Nb. -/
def ksMax (a b : Sketch) (na nb : Nat) : Nat :=
  ((List.range 1024).foldl (fun (x : Int × Int × Nat) i =>
    let ca := x.1 + sketchAt a i
    let cb := x.2.1 + sketchAt b i
    (ca, cb, max x.2.2 (ca * nb - cb * na).natAbs)) ((0 : Int), (0 : Int), 0)).2.2

/-- One finding on the issuing instance. -/
def onSelf (s : State) (metric thr ref : Int) : Finding := { idx := index s, lvl := level s, step := 0, metric, thr, ref }

/-- DRIFT: none where no evaluation is made for want of a reference or counts. -/
def drift (s : State) (e : Due) (v : DetSt) : Option (List Finding) :=
  let p0 := detP0 s e.det
  match sketchOf e (detInput s e.det), v.ref with
  | none, _ => some []
  | some _, none => none
  | some (ha, a), some (hb, b) =>
    let na := sketchTotal a
    if na < bitsAt p0 32 32 ∨ na = 0 ∨ sketchTotal b = 0 then none
    else
      let x := if hb && !ha then sketchHalf a else a
      let y := if ha && !hb then sketchHalf b else b
      let m := 2 ^ 32 * ksMax x y na (sketchTotal b) / (na * sketchTotal b)
      some (if bitsAt p0 0 32 < m then [onSelf s m (bitsAt p0 0 32) na] else [])

/-! NUMERIC (R442, R443). -/

/-- The input of ABOVE and SPIKE by CFG.SRC. -/
def numInput (s : State) (e : Due) : Option Nat :=
  match get s (F.DET_D_CFG_SRC e.det) with
  | 0 => sumDelta e (detInput s e.det)
  | 1 => aggValue e (detInput s e.det)
  | _ => none

/-- TAIL. -/
def tail (s : State) (e : Due) : List Finding :=
  let p0 := detP0 s e.det
  let lim := bitsAt (detP1 s e.det) 0 32
  match sketchOf e (detInput s e.det) with
  | none => []
  | some (half, k) =>
    let n := sketchTotal k
    let b := bitsAt p0 0 10
    let c := k.buckets.foldl (fun t x => if b ≤ (if half then 2 * x.1 else x.1) then t + x.2 else t) 0
    let f := if n + k.nan = 0 then 0 else 2 ^ 32 * (c + k.nan) / (n + k.nan)
    if bitsAt p0 32 32 ≤ n ∧ lim < f then [onSelf s f lim n] else []

/-- SPIKE on a value given as FP32 bits: the state after, and the findings. -/
def spike (s : State) (e : Due) (v : DetSt) (x : Nat) : DetSt × List Finding :=
  let p0 := detP0 s e.det
  let fx := of32 x
  let floor := bitsAt p0 0 32
  let bar (m : Nat) : Fl := round32 (flMul (of32 m) (.fin false (16 + bitsAt p0 32 8) (-4)))
  let thr : Nat := match v.mean with
    | some m => if flLt (of32 floor) (bar m) then fl32 (bar m) else floor
    | none => floor
  let hit := isNan fx || (match v.mean with
    | some m => flLt (of32 floor) fx && flLt (bar m) fx
    | none => false)
  let warm := decide (bitsAt p0 48 8 ≤ v.seen)
  let mean := if isNan fx then v.mean else match v.mean with
    | none => some x
    | some m =>
      let step := round32 (flScale (add32 fx (flNeg (of32 m))) (some (-(bitsAt p0 40 4 : Int))))
      some (fl32 (add32 (of32 m) step))
  ({ v with seen := v.seen + 1, mean := mean }, if hit && warm then [onSelf s x thr (v.mean.getD 0)] else [])

def numeric (s : State) (e : Due) (v : DetSt) : DetSt × List Finding :=
  match get s (F.DET_D_CFG_MODE e.det) with
  | 0 =>
    (match numInput s e with
      | some x => (v, if (detP0 s e.det).toNat < x then
          [onSelf s (toSigned 64 x) (toSigned 64 (detP0 s e.det).toNat) 0] else [])
      | none => (v, []))
  | 1 => (v, tail s e)
  | 2 =>
    if get s (F.DET_D_CFG_SRC e.det) = 3 then spike s e v (partWord s 6 (4 * detInput s e.det) 4)
    else (match numInput s e with
      | some x => spike s e v (natToFp32 x)
      | none => (v, []))
  | _ => (v, [])

/-! OUTLIER (R444). -/

def outlier (s : State) (e : Due) : List Finding :=
  let p1 := detP1 s e.det
  let xs := e.kids.filterMap fun k => (partsDelta k.2.2.2 (detInput s e.det)).map fun x => (k.2.1, k.2.2.1, (x : Int))
  let h := (xs.length + 1) / 2
  let med := (nth h (xs.map fun x => x.2.2)).getD 0
  let mad := (nth h (xs.map fun x => ((x.2.2 - med).natAbs : Int))).getD 0
  let thr : Int := max (detP0 s e.det).toNat ((bitsAt p1 0 8 : Nat) * mad / 16)
  (xs.filter fun x => decide (thr < (x.2.2 - med).natAbs) && (p1.getLsbD 8 || decide (med < x.2.2))).map fun x =>
    { idx := x.1, lvl := x.2.1, step := 0, metric := x.2.2 - med, thr, ref := med }

/-! Evaluation (R430 to R434). -/

/-- Findings in the order of R432: decreasing METRIC, lower subject index first. -/
def orderFindings (l : List Finding) : List Finding :=
  sortLe (fun a b => decide (b.metric < a.metric) || (a.metric == b.metric && decide (a.idx ≤ b.idx))) l

/-- The scores posted for a result (R445). -/
def scored (s : State) (e : Due) (v : DetSt) : List Finding :=
  (v.scores.filter fun x => x.1 == e.epoch && x.2.1 == !e.prov && decide (detHa s e.det < x.2.2.2.2)).map fun x =>
    { idx := x.2.2.1, lvl := x.2.2.2.1, step := 0, metric := x.2.2.2.2, thr := detHa s e.det, ref := 0 }

/-- Host-assisted scoring. -/
def hostScoring (s : State) : Bool := (get s F.GLB_FUNC_MODE_MODE).testBit 2

/-- The findings of a detector on a result, its state after it, and whether its reference was missing. -/
def evaluate (s : State) (e : Due) (v : DetSt) : DetSt × List Finding × Bool :=
  if hostScoring s then (v, scored s e v, false)
  else match detKind s e.det with
    | 1 => let (w, f) := straggler s e v; (w, f, false)
    | 2 => (match drift s e v with | some f => (v, f, false) | none => (v, [], true))
    | 3 => let (w, f) := numeric s e v; (w, f, false)
    | 4 => (v, outlier s e, false)
    | _ => (v, [], false)

/-- The domain of a detector's slot or schedule. -/
def detDomain (s : State) (d : Nat) : Nat :=
  let k := get s (F.DET_D_CFG_SLOT d)
  if level s = 0 then get s (F.TLY_SCHED_CTL_DOMAIN k) else (slotAt s k).domain

/-- A reference takes effect at the boundary it waited for, with record 0x0E04 (R440). -/
def takeRef (s : State) (d : Nat) : State :=
  let v := detAt s d
  match v.next with
  | none => s
  | some (e0, label, half, k) =>
    if nextEpoch s (detDomain s d) ≤ e0 then s
    else note 0x0E04 INFO (d + 2 ^ 16 * label)
      (putDet d { v with next := none, ref := some (half, k), missing := false } (set s (F.DET_D_REF_VALID d) 1))
def takeRefs (s : State) : State := if inReset s 1 then s else (List.range (nDets s)).foldl takeRef s

/-- A provisional verdict (R433, R320). -/
def issueProv (e : Due) (b : List Byte) (s : State) : State :=
  let v := slotAt s e.slot
  match epochAt v e.epoch with
  | none => s
  | some ep =>
    let (s1, refs) := publishVerdict e.slot e.epoch (presentBits ep).length (s, []) b
    let s2 := putSlot e.slot (putEpoch { ep with pw := ep.pw ++ refs } (slotAt s1 e.slot)) s1
    if tPROV_UP ep then sendUp 0x04 fPROV e.domain e.epoch e.epoch b s2 else s2

/-- A confirmed verdict (R319, R433). -/
def issueConf (e : Due) (b : List Byte) (s : State) : State :=
  let mine (c : Closing) : Bool := c.domain == e.domain && c.epoch == e.epoch
  let c := s.crv.closing.find? mine
  let pw := c.bind fun c => pwVerdict c.prov b
  let s1 := issueVerdict e.domain e.epoch ((c.map Closing.route).getD e.epoch) pw b s
  let s2 := setCrv { s1.crv with closing := s1.crv.closing.map fun c => if mine c then { c with verdicts := c.verdicts ++ [b] } else c } s1
  if on s2 (F.DET_D_CFG_IRQ e.det) then raiseIrq (irqAct 0x0E) s2 else s2

/-- One verdict of a result, counted. -/
def issueOne (e : Due) (s : State) (f : Finding) : State :=
  let b := findingBytes s e f
  let s1 := bump s (F.DET_D_STATE_VERDICTS e.det) 1
  if e.prov then issueProv e b (bump s1 F.DET_VCOUNT_PROVISIONAL 1) else issueConf e b (bump s1 F.DET_VCOUNT_CONFIRMED 1)

/-- The oldest result that waits is evaluated by its detector (R430 to R434). -/
def detEval (s0 : State) : State :=
  match s0.due with
  | [] => s0
  | e :: rest =>
    let s := takeRefs { s0 with due := rest }
    let d := e.det
    if inReset s 1 || !on s F.DET_CTL_EN || !on s (F.DET_D_CFG_EN d) then closeReady s
    else
      let v := detAt s d
      let (w, fs, miss) := evaluate s e v
      let s := busyFor 15 s
      let seen : DetSt := if e.prov then { v with lastProv := some (max e.epoch (v.lastProv.getD 0)) }
        else { w with lastConf := some (max e.epoch (v.lastConf.getD 0)), scores := v.scores.filter fun x => decide (e.epoch < x.1) }
      let s1 := bump (putDet d { seen with missing := miss } s) (F.DET_D_STATE_EVALS d) 1
      let s2 := if miss && !v.missing then report F.DET_ERR_REF_MISSING 0x0E02 ADVISE d s1 else s1
      let l := orderFindings fs
      let cap := get s (F.DET_D_CFG_MAXV d)
      let s3 := (l.take cap).foldl (issueOne e) s2
      let more := l.length - cap
      closeReady (if more = 0 then s3 else report F.DET_ERR_DROPPED 0x0E01 ADVISE (d + 256 * more) (bump s3 F.DET_DROPPED_COUNT more))

/-- DETECTOR_EVALUATE (R430). -/
def execDetectorEvaluate (s : State) : Host.Outcome State Fault Refusal := .next (detEval s)

/-! References (R440, R441). -/

/-- A write of DET_Dd_REF arms a capture, which takes place at once if the epoch named is the latest confirmed. -/
def armRef (d : Nat) (s : State) : State :=
  let v := detAt s d
  let n := get s (F.DET_D_REF_CAPTURE_EPOCH d)
  if on s (F.DET_D_REF_SRC d) then putDet d { v with arm := none } s
  else
    let s1 := putDet d { v with arm := some n, asm := none } s
    let k := get s (F.DET_D_CFG_SLOT d)
    let sl := slotAt s k
    match sl.latest with
    | some (m, _) => if level s ≠ 0 ∧ m = n then captureRefs k sl.domain n (resultSketches sl.results) s1 else s1
    | none => s1

/-- A BCAST payload reaches a detector: groups of one REF_SEQ are assembled, a higher one starts anew (R441). -/
def bcastTo (bs : List Byte) (s : State) (d : Nat) : State :=
  let v := detAt s d
  let seq := leAt bs 4 4
  match readSketch (bs.drop 16) with
  | some [.sketch _ first groups fl _ k] =>
    let fresh0 : Nat × List Nat × Sketch := (seq, [], {})
    let (q, have', acc) := match v.asm with
      | some (q, h, a) => if q < seq then fresh0 else (q, h, a)
      | none => fresh0
    if seq < q then s
    else
      let fresh := ((List.range groups).map (first + ·)).filter fun g => !have'.contains g
      let part := { k with buckets := k.buckets.filter fun b => fresh.contains (b.1 / 16) }
      let all := have' ++ fresh
      let sum := { sketchMerge part acc with nan := max k.nan acc.nan, dies := max k.dies acc.dies }
      if (List.range 64).all all.contains then
        putDet d { v with asm := none, next := some (nextEpoch s (detDomain s d), seq, fl % 2 == 1, sum) } s
      else putDet d { v with asm := some (q, all, sum) } s
  | _ => s

/-- A BCAST (R441): forwarded to every JOINED child, and taken by the detectors of its slot with SRC = 1. -/
def bcastReceive (s : State) : State :=
  match takePkt [0x11] s with
  | none => s
  | some (_, p, s1) =>
    if !on s1 F.CRV_CTL_EN then s1
    else
      let kids := match slotOf s1 p.domain with
        | some k => (slotAt s1 k).kids.filter Child.joined
        | none => []
      let s2 := if level s1 = 0 then s1 else kids.foldl (fun s c => sendChild c 0x11 p.domain p.epoch p.payload s) s1
      let d := leAt p.payload 1 1
      if leAt p.payload 0 1 = 1 ∧ d < nDets s2 ∧ !inReset s2 1 ∧ on s2 (F.DET_D_REF_SRC d) ∧ detDomain s2 d = p.domain then
        takeRefs (bcastTo p.payload s2 d)
      else s2

/-- BCAST_RECEIVE (R441). -/
def execBcastReceive (s : State) : Host.Outcome State Fault Refusal := .next (bcastReceive s)

/-! Posted scores (R445). -/

/-- A result of an epoch has been evaluated by a detector. -/
def evaluated (v : DetSt) (n : Nat) (conf : Bool) : Bool :=
  let past (l : Option Nat) : Bool := match l with | some m => decide (n ≤ m) | none => false
  past v.lastConf || (!conf && past v.lastProv)

/-- SCORES (R445): words 1 up of the slot; the state after, and the subjects taken. -/
def takeScores (w : Nat → Word) (s : State) : State × Nat :=
  let n := bitsAt (w 1) 0 48
  let d := bitsAt (w 1) 48 6
  let conf := (w 1).getLsbD 56
  let cnt := min 14 (w 2).toNat
  let v := detAt s d
  if evaluated v n conf then (report F.DET_ERR_HA_LATE 0x0E03 ADVISE (d + 2 ^ 16 * n) s, 0)
  else
    let l := (List.range cnt).map fun i =>
      (n, conf, bitsAt (w (3 + 2 * i)) 0 24, bitsAt (w (3 + 2 * i)) 24 3, toSigned 64 (w (4 + 2 * i)).toNat)
    (putDet d { v with scores := v.scores ++ l } s, cnt)

/-! Registers and reset. -/

/-- The unit's treatment of a write to the DET page. -/
def detWrite (a : Nat) (acc : Acc) (s : State) : State :=
  let d := (a - 0x0E1000) / 0x40
  let s1 := perform a acc s
  if a < 0x0E1000 ∨ 0x0E2000 ≤ a then s1
  else if (a - 0x0E1000) % 0x40 = 0 ∧ on s1 (F.DET_D_CFG_EN d) ∧ !kindAt (detKind s1 d) (level s1) then
    report F.DET_ERR_CFG 0x0E05 ADVISE (d + 256 * detKind s1 d) (set s1 (F.DET_D_CFG_EN d) 0)
  else if (a - 0x0E1000) % 0x40 = 0x20 then armRef d s1
  else s1

/-- DETECTOR_REF_WRITE (R440). -/
def execDetectorRefWrite (d : Nat) (acc : Acc) (s : State) : Host.Outcome State Fault Refusal :=
  .next (portWrite detWrite (F.DET_D_REF_SRC d).addr acc s)

end Sys2Proof.Machine
end

