-- ==== Sys2Proof/Machine/Guestbook.lean ====
section
/-!
DEFINITION. The Guestbook recorder (R597 to R610): acceptance, merging, the ring, capture of the first fault of a target (R577),
export; and the start of the Ledger ring (R615).
-/
namespace Sys2Proof.Machine

def setGbk (g : GbkSt) (s : State) : State := { s with gbk := g }

/-- N records (R597). -/
def gbkSize (s : State) : Nat := if pers s = 1 then 65536 else 1048576
def gbkPart : Nat := 8

/-- A record as 32 bytes (R598). -/
def grecBytes (r : GRec) : List Byte :=
  leBytes 8 r.time ++ leBytes 2 r.code ++ leBytes 1 r.cls ++ leBytes 1 r.gen ++ leBytes 4 r.rep ++ leBytes 4 r.source
    ++ leBytes 4 r.context ++ leBytes 8 r.payload

/-- A record of the ring and of the tail changes. -/
def gbkMap (f : GRec → GRec) (s : State) : State :=
  setGbk { s.gbk with ring := s.gbk.ring.map f, tail := s.gbk.tail.map f } s

/-- `k` occurrences reach a record in one update (R601, R602, R604, R607). -/
def grecAdd (us k : Nat) (r : GRec) : GRec :=
  { r with rep := satAdd 32 r.rep k, gen := (r.gen + 2) % 256, updUs := us + 1, waiting := 0 }

/-- Occurrences that waited for the next microsecond of TB2 reach their records (R604). -/
def gbkFlush (s : State) : State :=
  if s.gbk.ring.any fun r => r.waiting != 0 && r.updUs != us2 s + 1 then
    gbkMap (fun r => if r.waiting != 0 && r.updUs != us2 s + 1 then grecAdd (us2 s) r.waiting r else r) s
  else s

/-- A record is merged into record `n` (R601, R604). -/
def gbkMerge (n : Nat) (s : State) : State :=
  let us := us2 s
  let sat := s.gbk.ring.any fun r => r.n == n && decide (2 ^ 32 - 1 ≤ r.rep + r.waiting)
  let s1 := if sat then flag F.GBK_ERR_REPEAT_SAT s else s
  gbkMap (fun r => if r.n = n then
      (let t := { r with touched := s.tim.tb2 }
       if r.updUs = us + 1 then { t with waiting := r.waiting + 1 } else grecAdd us (r.waiting + 1) t)
    else r) s1

/-- Whether a record may be merged into (R602). -/
def mergeable (s : State) (r : GRec) : Bool := !([ACT, PROV, WITHDRAWN].contains r.cls) && decide (s.gbk.exported ≤ r.n)

/-- A new record is written (R598, R605, R607). -/
def gbkNew (r : Raised) (s : State) : State :=
  let n := get s F.GBK_HEAD_HEAD
  let size := gbkSize s
  let old := if s.gbk.ring.length < size then none else s.gbk.ring.head?
  let g : GRec := { n, time := ns0 s, code := r.code, cls := r.cls, gen := ((old.map GRec.gen).getD 0 + 2) % 256, rep := 0, source := r.source,
                    context := r.context, payload := r.payload, touched := s.tim.tb2, updUs := 0, waiting := 0 }
  let ring := s.gbk.ring ++ [g]
  let tail := if r.cls = PROV then s.gbk.tail else s.gbk.tail ++ [g]
  let s1 := setGbk { s.gbk with ring := ring.drop (ring.length - size), tail := tail.drop (tail.length - 1024) } s
  set s1 F.GBK_HEAD_HEAD (n + 1)

/-- A record enters the merge table as the newest of 16 (R603). -/
def gbkTable (r : Raised) (n : Nat) (s : State) : State :=
  let k := (r.code, r.cls, r.source, r.key, n)
  let same (e : Nat × Nat × Nat × Nat × Nat) : Bool := e.1 == r.code && e.2.1 == r.cls && e.2.2.1 == r.source && e.2.2.2.1 == r.key
  setGbk { s.gbk with runs := (k :: s.gbk.runs.filter fun e => !same e).take 16 } s

/-- The record that a raised one is merged into (R601 to R603). -/
def mergeTarget (r : Raised) (s : State) : Option Nat :=
  if [ACT, PROV, WITHDRAWN].contains r.cls then none
  else if r.run = 1 then none
  else if r.run = 2 then
    match s.gbk.runs.find? fun e => e.1 == r.code && e.2.1 == r.cls && e.2.2.1 == r.source && e.2.2.2.1 == r.key with
    | none => none
    | some e => (s.gbk.ring.find? fun g => g.n == e.2.2.2.2 && mergeable s g).map GRec.n
  else match s.gbk.ring.getLast? with
    | none => none
    | some g =>
      if mergeable s g && g.code == r.code && g.cls == r.cls && g.source == r.source && g.context == r.context
          && g.payload == r.payload && decide (s.tim.tb2 ≤ g.touched + get s F.GBK_CTL_FLOOD_US * 1000 * 2 ^ 48) then some g.n
      else none

/-- An accepted record is merged or written. -/
def gbkPlace (r : Raised) (s : State) : State :=
  match mergeTarget r s with
  | some n => gbkMerge n s
  | none =>
    let n := get s F.GBK_HEAD_HEAD
    let s1 := gbkNew r s
    if r.run = 0 then s1 else gbkTable r n s1

/-! The faulting context (R577). -/

/-- The targets for which a record qualifies: the block domain of its source page, and the host domain of its context. Context 0 is
that of a record without one and belongs to no host domain (DEDUCED, log 61). -/
def capTargets (s : State) (r : Raised) : List Nat :=
  (domainOf (r.source % 256)).toList
    ++ (if r.context ≠ 0 ∧ r.context / 2 ^ 24 < 32 ∧ pers s ≠ 3 then [32 + r.context / 2 ^ 24] else [])

/-- The first qualifying record of class FAULT is captured while the target is OPEN. -/
def capture (r : Raised) (s : State) : State :=
  if r.cls ≠ FAULT then s
  else (capTargets s r).foldl (fun s t =>
    if fenced s t || (look t s.rcv.caps).isSome then s
    else { s with rcv := { s.rcv with caps := store t (r.code, r.context, ns0 s) s.rcv.caps } }) s

/-- The writing of a FAULT or ACT record triggers the Waybill (R230). -/
def gbkTrigger (r : Raised) (s : State) : State :=
  if (r.cls = FAULT ∧ bitOn s F.TLY_WB_CTL_TRIG_SRC 0) ∨ (r.cls = ACT ∧ bitOn s F.TLY_WB_CTL_TRIG_SRC 1) then
    (if inReset s 0 then s else wbTrigger r.code s)
  else s

/-- The recorder accepts the oldest queued record (R600); with it the record of the drops before it. -/
def gbkAccept (s : State) : State :=
  if !on s F.GBK_STATUS_RUNNING then s
  else match s.gbk.queue with
    | [] => gbkFlush s
    | r :: q =>
      let s0 := set (setGbk { s.gbk with queue := q } (gbkFlush s)) F.GBK_STATUS_QUEUED q.length
      let s1 := if r.drops = 0 then s0 else gbkPlace (recOf 0x1401 ADVISE (r.drops % 2 ^ 32 + 2 ^ 32 * r.dropCode)) s0
      let s2 := ltnGbk r.code r.cls (capture r (gbkPlace r s1))
      if (mergeTarget r s1).isNone then gbkTrigger r s2 else s2

/-! Start (R605, R615). -/

def logOf (n : Nat) : Nat := Nat.log2 n

/-- The ring starts once SRAM_PARTITION has been applied. -/
def gbkStart (s : State) : State :=
  let part := (partBase s gbkPart, partSize s gbkPart)
  let cold := s.clk.cause != 2
  let kept := !cold && part == s.gbk.part && get s F.GBK_STATUS_SIZE_LOG == logOf (gbkSize s)
  let s1 := if kept then s else set (setGbk { s.gbk with ring := [], runs := [], exported := 0 } s) F.GBK_HEAD_HEAD 0
  let s2 := set (set s1 F.GBK_STATUS_RUNNING 1) F.GBK_STATUS_SIZE_LOG (logOf (gbkSize s))
  let s3 := setGbk { s2.gbk with part } s2
  gbkNew (recOf 0x1402 INFO (if cold then 0 else if kept then 1 else 2)) s3

def ldgPart : Nat := 9
def ldgSize (s : State) : Nat := if pers s = 1 then 8192 else 65536

/-- The Ledger ring starts, or goes on after a warm reset. -/
def ldgStart (s : State) : State :=
  let part := (partBase s ldgPart, partSize s ldgPart)
  let kept := s.clk.cause == 2 && part == s.ldg.part && get s F.LDG_STATUS_SIZE == ldgSize s
  let ring := if kept then s.ldg.ring else s.ldg.tail
  let s1 := set (set s F.LDG_STATUS_RUNNING 1) F.LDG_STATUS_SIZE (ldgSize s)
  { s1 with ldg := { s1.ldg with ring, part, overwrote := false } }

/-! Export (R608 to R610). -/

def expArea (s : State) : Nat := (get s F.GBK_EXP_LIM_LIMIT + 1) * 4096 - get s F.GBK_EXP_BASE_BASE * 4096

/-- Records fallen out of the ring before their export are skipped (R610). -/
def expGap (s : State) : State :=
  let low := get s F.GBK_HEAD_HEAD - gbkSize s
  let next := get s F.GBK_EXP_NEXT_NEXT
  if next < low then report F.GBK_ERR_EXP_GAP 0x1403 ADVISE (low - next) (set s F.GBK_EXP_NEXT_NEXT low) else s

/-- Where a chunk of `n` bytes goes: its offset, and whether it wraps; `none` while it would overtake RDPTR. -/
def expPlace (s : State) (n : Nat) : Option (Nat × Bool) :=
  let w := get s F.GBK_EXP_WRPTR_WRPTR
  let r := get s F.GBK_EXP_RDPTR_RDPTR
  if w + n ≤ expArea s then (if w < r ∧ r ≤ w + n then none else some (w, false))
  else if w < r ∨ r ≤ n ∨ expArea s < n then none
  else some (0, true)

/-- A chunk (R608). -/
def expChunk (s : State) (first : Nat) (recs : List GRec) : List Byte × Bool :=
  let raw := recs.flatMap grecBytes
  let frame := if on s F.GBK_EXP_CTL_ZSTD then cmpInternal s (get s F.GBK_EXP_CTL_ZLEVEL) raw else none
  let body := frame.getD raw
  let head := [0x47, 0x42, 0x4B, 0x58, 0x01, if frame.isSome then 1 else 0, 0, 0] ++ leBytes 8 first ++ leBytes 4 recs.length
    ++ leBytes 4 body.length ++ leBytes 4 (index s % 2 ^ 24 + 2 ^ 24 * level s) ++ leBytes 4 0 ++ leBytes 8 (ns0 s)
    ++ leBytes 8 (get s F.GBK_HEAD_HEAD) ++ leBytes 12 0
  let b := head ++ leBytes 4 (crc32c (head ++ body)).toNat ++ body
  (padTo ((b.length + 63) / 64 * 64) b, frame.isSome)

/-- An export chunk is built and written (R609, R610): with 4,096 records pending, or with one on FLUSH. -/
def gbkExport (s0 : State) : State :=
  if !on s0 F.GBK_EXP_CTL_EN || s0.gbk.exp.isSome || !on s0 F.GBK_STATUS_RUNNING || s0.clk.stopped then s0
  else
    let s := expGap (gbkFlush s0)
    let first := get s F.GBK_EXP_NEXT_NEXT
    let pend := get s F.GBK_HEAD_HEAD - first
    if pend = 0 ∨ (pend < 4096 ∧ !on s F.GBK_EXP_CTL_FLUSH) then s
    else
      let recs := (s.gbk.ring.filter fun r => decide (first ≤ r.n)).take 4096
      let (b, z) := expChunk s first recs
      match expPlace s b.length with
      | none => s
      | some (off, wrap) =>
        let base := get s F.GBK_EXP_BASE_BASE * 4096
        let w := get s F.GBK_EXP_WRPTR_WRPTR
        let s1 := if wrap ∧ w + 64 ≤ expArea s then memRequest .gbkExport 22 5 true (base + w) 64 [] s else s
        let s2 := if z then cmpChecked (recs.length * 32) s1 else s1
        let n := first + recs.length
        memRequest .gbkExport 22 5 true (base + off) b.length b
          (setGbk { s2.gbk with exported := n, exp := some { first, count := recs.length, next := off + b.length, xfer := s2.mmp.nextXfer } } s2)

/-- GUESTBOOK_EXPORT (R609). -/
def execGuestbookExport (s : State) : Host.Outcome State Fault Refusal := .next (gbkExport s)

/-- The chunk's write responses have returned (R609, R610). -/
def gbkExported (s : State) : State :=
  match s.gbk.exp with
  | none => s
  | some c =>
    if !memDone s .gbkExport c.xfer || memPending s .gbkExport (c.xfer - 1) then s
    else
      let ok := memOk s .gbkExport c.xfer && memOk s .gbkExport (c.xfer - 1)
      let s1 := memForget .gbkExport (c.xfer - 1) (memForget .gbkExport c.xfer s)
      let s2 := set (set (setGbk { s1.gbk with exp := none } s1) F.GBK_EXP_NEXT_NEXT (c.first + c.count)) F.GBK_EXP_CTL_FLUSH 0
      if ok then set s2 F.GBK_EXP_WRPTR_WRPTR c.next else report F.GBK_ERR_EXP_MEM 0x1404 FAULT c.first s2

/-- GUESTBOOK_EXPORT_DONE (R609). -/
def execGuestbookExportDone (s : State) : Host.Outcome State Fault Refusal := .next (gbkExported s)

/-- The unit's treatment of a write to the GBK page: FLUSH reads 1 until a chunk is written, and is without effect while export is
disabled or no record waits for it. -/
def gbkWrite (a : Nat) (acc : Acc) (s : State) : State :=
  let s1 := perform a acc s
  if a = F.GBK_EXP_CTL_FLUSH.addr ∧ wrote1 acc F.GBK_EXP_CTL_FLUSH ∧ on s1 F.GBK_EXP_CTL_EN
      ∧ get s F.GBK_EXP_NEXT_NEXT < get s F.GBK_HEAD_HEAD then
    set s1 F.GBK_EXP_CTL_FLUSH 1
  else s1

/-- GUESTBOOK_FLUSH (R609). -/
def execGuestbookFlush (acc : Acc) (s : State) : Host.Outcome State Fault Refusal :=
  .next (portWrite gbkWrite F.GBK_EXP_CTL_FLUSH.addr (force F.GBK_EXP_CTL_FLUSH 1 acc) s)

end Sys2Proof.Machine
end

