-- ==== Sys2Proof/Machine/Pulse.lean ====
section
/-!
DEFINITION. Waymark pulses, TPI_PPS_OUT and captures (R169 to R171, R276 to R283).
-/
namespace Sys2Proof.Machine

def setTpi (t : TpiSt) (s : State) : State := { s with tpi := t }

/-- The value of base select `b` in 2^-48 ns; 3 is TB3 of schedule `k` (R274, R283). -/
def baseVal (s : State) (b k : Nat) : Nat :=
  match b with
  | 0 => s.tim.tb0
  | 1 => s.tim.tb1
  | 2 => s.tim.tb2
  | _ => inBase ((s.tim.tb0 : Int) + toSigned 64 (get s (F.TIM_TB3_OFF_OFFSET k)) * 2 ^ 48)

/-- Time passes until base select `b` has reached `t` (in 2^-48 ns). -/
def reachVal (b k t : Nat) (s : State) : State :=
  if b < 3 then reachBase b t s
  else reachTb0 ((t : Int) - toSigned 64 (get s (F.TIM_TB3_OFF_OFFSET k)) * 2 ^ 48).toNat s

/-- The time of edge `m` of a pulse, rounded to the nearest 0.15625 ns, in 2^-48 ns (R276). -/
def edgeAt (p : Pulse) (m : Nat) : Nat := (p.start + m * p.period + 5120) / 10240 * 10240 * 2 ^ 32

/-- The first edge that `t` has not passed (R279). -/
def firstEdge (p : Pulse) (t : Nat) : Nat :=
  let m := (t / 2 ^ 32 - p.start) / max 1 p.period
  if t ≤ edgeAt p m then m else if t ≤ edgeAt p (m + 1) then m + 1 else m + 2

/-- TPI_PULSEn rises. -/
def pulseRise (n : Nat) (p : Pulse) (s : State) : State :=
  prod 178 1 (setTpi { s.tpi with high := store n (s.tim.tb2, p.width * 2 ^ 48) s.tpi.high,
                                  pulses := store n { p with next := p.next + 1, fired := !p.periodic } s.tpi.pulses } s)

/-- A one-shot whose time has passed rises at once (R278). -/
def pulseLate (n : Nat) (p : Pulse) (s : State) : State :=
  note 0x0701 ADVISE n (flagBit F.TPI_ERR_PULSE_LATE n (pulseRise n p s))

/-- EN of a pulse changes from 0 to 1 (R277, R278). -/
def pulseEnable (n : Nat) (s : State) : State :=
  let width := get s (F.TPI_PULSE_CTL_WIDTH n)
  let p : Pulse := { periodic := on s (F.TPI_PULSE_CTL_MODE n), base := get s (F.TPI_PULSE_CTL_BASE n), tb3 := get s (F.TPI_PULSE_CTL_TB3_SEL n),
                     start := get s (F.TPI_PULSE_START_START n) * 65536 + get s (F.TPI_PULSE_CTL_START_FRAC n),
                     period := rd s (F.TPI_PULSE_PERIOD_PERIOD n).addr |>.toNat, width, next := 0, fired := false }
  if width < 3 ∨ p.period < (width + 3) * 65536 then flag F.TPI_ERR_CFG (set s (F.TPI_PULSE_CTL_EN n) 0)
  else
    let now := baseVal s p.base p.tb3
    if p.periodic then setTpi { s.tpi with pulses := store n { p with next := firstEdge p now } s.tpi.pulses } s
    else if edgeAt p 0 < now then pulseLate n p s
    else setTpi { s.tpi with pulses := store n p s.tpi.pulses } s

/-- A pulse's base reaches its next edge (R276). -/
def pulseEdge (n : Nat) (s : State) : State :=
  match look n s.tpi.pulses with
  | none => s
  | some p => if p.fired || inReset s 4 then s else pulseRise n p (reachVal p.base p.tb3 (edgeAt p p.next) s)

/-- PULSE_EDGE (R276). -/
def execPulseEdge (n : Nat) (s : State) : Host.Outcome State Fault Refusal := .next (pulseEdge n s)

/-- WIDTH ns after its rise on TB2, a pulse falls (R276). -/
def pulseFall (n : Nat) (s : State) : State :=
  match look n s.tpi.high with
  | none => s
  | some (rise, w) =>
    let s1 := reachBase 2 (rise + w) s
    setTpi { s1.tpi with high := dropKeys (· == n) s1.tpi.high } s1

/-- PULSE_FALL (R276). -/
def execPulseFall (n : Nat) (s : State) : Host.Outcome State Fault Refusal := .next (pulseFall n s)

/-- The base select `b` follows base `n`: itself, TB3 follows TB0, and TB1 follows TB0 at a fabric-time root. -/
def follows (s : State) (b n : Nat) : Bool := b == n || (n == 0 && (b == 3 || (b == 1 && rooted s)))

/-- A base has taken a step; `old` is the state before it (R278, R279). -/
def pulseStep (old : State) (n : Nat) (s : State) : State :=
  (List.range 4).foldl (fun s i =>
    match look i s.tpi.pulses with
    | none => s
    | some p =>
      let was := baseVal old p.base p.tb3
      let now := baseVal s p.base p.tb3
      if !follows s p.base n || p.fired || decide (now ≤ was) then s
      else if p.periodic then
        let m := max p.next (firstEdge p now)
        if m = p.next then s
        else note 0x0701 ADVISE (i + 256 * (m - p.next)) (setTpi { s.tpi with pulses := store i { p with next := m } s.tpi.pulses } s)
      else if edgeAt p 0 < now then pulseLate i p s
      else s) s

/-! TPI_PPS_OUT (R280). -/

/-- A second in 2^-48 ns. -/
def second : Nat := 1000000000 * 2 ^ 48

/-- The next whole second at which TPI_PPS_OUT rises. -/
def ppsNext (s : State) : Nat :=
  let now := baseVal s (get s F.TPI_PPS_CTL_BASE) (get s F.TPI_PPS_CTL_TB3_SEL)
  let k := (now + (second - 1)) / second
  match s.tpi.ppsLast with
  | none => k
  | some l => max k (l + 1)

/-- TPI_PPS_OUT rises (R280). -/
def ppsRise (s : State) : State :=
  if !on s F.TPI_PPS_CTL_EN || inReset s 4 then s
  else
    let k := ppsNext s
    let s1 := reachVal (get s F.TPI_PPS_CTL_BASE) (get s F.TPI_PPS_CTL_TB3_SEL) (k * second) s
    setTpi { s1.tpi with pps := some (s1.tim.tb2, get s F.TPI_PPS_CTL_WIDTH * 1000 * 2 ^ 48), ppsLast := some k } s1

/-- PPS_OUT_RISE (R280). -/
def execPpsOutRise (s : State) : Host.Outcome State Fault Refusal := .next (ppsRise s)

/-- TPI_PPS_OUT falls WIDTH µs after its rise on TB2 (R280). -/
def ppsFall (s : State) : State :=
  match s.tpi.pps with
  | none => s
  | some (rise, w) =>
    let s1 := reachBase 2 (rise + w) s
    setTpi { s1.tpi with pps := none } s1

/-- PPS_OUT_FALL (R280). -/
def execPpsOutFall (s : State) : Host.Outcome State Fault Refusal := .next (ppsFall s)

/-- A step of base `n` passes whole seconds of TPI_PPS_OUT (R279, R280); the record names it as channel 4. -/
def ppsStep (old : State) (n : Nat) (s : State) : State :=
  let b := get s F.TPI_PPS_CTL_BASE
  if !on s F.TPI_PPS_CTL_EN || !follows s b n then s
  else
    let a := ppsNext old
    let c := ppsNext s
    if a < c then note 0x0701 ADVISE (4 + 256 * (c - a)) s else s

/-! Captures (R170, R281, R282). -/

def capOf (s : State) (ch : Nat) : Capture := (look ch s.tpi.caps).getD {}
def setCap (ch : Nat) (c : Capture) (s : State) : State := setTpi { s.tpi with caps := store ch c s.tpi.caps } s

/-- The oldest stamp of a channel stands in its registers (R282); a new one posts as a result. -/
def showCap (ch : Nat) (fresh : Bool) (s : State) : State :=
  let c := capOf s ch
  let s1 := set s (F.TPI_CAP_CTL_LEVEL ch) c.fifo.length
  match c.fifo with
  | [] => set s1 (F.TPI_CAP_RESULT_VALID ch) 0
  | (q, t) :: _ =>
    if fresh then
      post (F.TPI_CAP_RESULT_SEQ ch).addr q (BitVec.ofNat 64 (t % 65536))
        (wr s1 (F.TPI_CAP_TIME_TIME ch).addr (BitVec.ofNat 64 (t / 65536)))
    else s1

/-- A rising edge on a capture input (R170, R281, R282). -/
def captureEdge (ch phase : Nat) (s : State) : State :=
  if decide (5 ≤ ch) || !on s (F.TPI_CAP_CTL_EN ch) || inReset s 4 then s
  else
    let c := capOf s ch
    let now := sampled s.tim.tb2 phase / 2 ^ 32
    let close := match c.last with
      | some l => decide (now < l + 10 * 65536)
      | none => false
    if close then s
    else
      let t := sampled (baseVal s (get s (F.TPI_CAP_CTL_BASE ch)) (get s (F.TPI_CAP_CTL_TB3_SEL ch))) phase / 2 ^ 32
      if 16 ≤ c.fifo.length then
        let s1 := flagBit F.TPI_ERR_CAP_OVF ch (bump (setCap ch { c with lossRun := true, last := some now } s) (F.TPI_CAP_CTL_OVF ch) 1)
        if c.lossRun then s1 else note 0x0702 ADVISE ch s1
      else
        let s1 := setCap ch { fifo := c.fifo ++ [(c.seq, t)], seq := (c.seq + 1) % 65536, last := some now, lossRun := false } s
        wake 3 <| prod 177 1 (showCap ch c.fifo.isEmpty s1)

/-- CAPTURE_EDGE (R281). -/
def execCaptureEdge (ch phase : Nat) (s : State) : Host.Outcome State Fault Refusal := .next (captureEdge ch phase s)

/-- A write of TPI_CAPn_RESULT (R282): the shown SEQ removes the oldest stamp and shows the next. -/
def captureConsume (ch : Nat) (acc : Acc) (s : State) : State :=
  let a := (F.TPI_CAP_RESULT_SEQ ch).addr
  let s1 := consume a acc s
  if valid s a && !valid s1 a then
    let c := capOf s1 ch
    showCap ch true (setCap ch { c with fifo := c.fifo.tail } s1)
  else s1

/-- The unit's treatment of a write to the TPI page. -/
def tpiWrite (a : Nat) (acc : Acc) (s : State) : State :=
  let n := (a % 0x100) / 0x20
  if 0x070200 ≤ a ∧ a < 0x0702A0 ∧ a % 0x20 = 0x10 then captureConsume n acc s
  else
    let s1 := perform a acc s
    if 0x070100 ≤ a ∧ a < 0x070180 ∧ a % 0x20 = 0 then
      if on s1 (F.TPI_PULSE_CTL_EN n) then (if on s (F.TPI_PULSE_CTL_EN n) then s1 else pulseEnable n s1)
      else setTpi { s1.tpi with pulses := dropKeys (· == n) s1.tpi.pulses } s1
    else if a = F.TPI_PPS_CTL_EN.addr ∧ !on s1 F.TPI_PPS_CTL_EN then setTpi { s1.tpi with ppsLast := none } s1
    else s1

/-- PULSE_ENABLE (R277). -/
def execPulseEnable (n : Nat) (acc : Acc) (s : State) : Host.Outcome State Fault Refusal :=
  .next (portWrite tpiWrite (F.TPI_PULSE_CTL_EN n).addr (force (F.TPI_PULSE_CTL_EN n) 1 acc) s)
/-- CAPTURE_CONSUME (R282). -/
def execCaptureConsume (ch : Nat) (acc : Acc) (s : State) : Host.Outcome State Fault Refusal :=
  .next (portWrite tpiWrite (F.TPI_CAP_RESULT_SEQ ch).addr acc s)

end Sys2Proof.Machine
end

