-- ==== Sys2Proof/Machine/Time.lean ====
section
/-!
DEFINITION. The time bases (R245 to R264): the servo, its states and steps, jump actions, snapshots, and the PTP slave.
-/
namespace Sys2Proof.Machine

def setTim (t : TimSt) (s : State) : State := { s with tim := t }

/-- The states of a disciplined base (R246) and the causes of holdover. -/
def tbFREE : Nat := 0
def tbLOCKING : Nat := 1
def tbLOCKED : Nat := 2
def tbHOLDOVER : Nat := 3
def tbFABRIC : Nat := 4

def tbState (s : State) (n : Nat) : Nat := get s (F.TIM_TB_STATUS_STATE n)
def tbCause (s : State) (n : Nat) : Nat := get s (F.TIM_TB_STATUS_CAUSE n)
def servoOf (s : State) (n : Nat) : Servo := if n = 0 then s.tim.servo0 else s.tim.servo1
def setServo (n : Nat) (v : Servo) (s : State) : State :=
  setTim (if n = 0 then { s.tim with servo0 := v } else { s.tim with servo1 := v }) s

/-- TB1 of a fabric-time root takes TB0's state (R271). -/
def showRoot (s : State) : State := if rooted s then set s (F.TIM_TB_STATUS_STATE 1) (tbState s 0) else s

/-- A base enters a state with a cause. -/
def tbEnter (n st cause : Nat) (s : State) : State :=
  showRoot (set (set s (F.TIM_TB_STATUS_STATE n) st) (F.TIM_TB_STATUS_CAUSE n) cause)

/-- A base takes a step of `d` (in 2^-16 ns) at one TCLK edge (R255); the Tally and the Waymark treat it by R215, R216, R278 and
R279. -/
def stepBase (n : Nat) (d : Int) (s : State) : State :=
  let old := if n = 0 then s.tim.tb0 else s.tim.tb1
  let new := inBase ((old : Int) + d * 2 ^ 32)
  let s1 := if n = 0 then setTim { s.tim with tb0 := new, tb1 := if rooted s then new else s.tim.tb1 } s
    else setTim { s.tim with tb1 := new } s
  let s2 := if n = 0 then tallyStep old new s1 else s1
  ppsStep s n (pulseStep s n s2)

/-- The error flags of a base. -/
def tbRefused (n : Nat) : Field := if n = 0 then F.TIM_ERR_TB0_REFUSED else F.TIM_ERR_TB1_REFUSED
def tbHeld (n : Nat) : Field := if n = 0 then F.TIM_ERR_TB0_HOLDOVER else F.TIM_ERR_TB1_HOLDOVER

/-- F becomes I (R246, R254). -/
def freezeF (n : Nat) (s : State) : State := set s (F.TIM_TB_FREQ_APPLIED n) (get s (F.TIM_TB_FREQ_INTEG n))

/-- A base enters holdover with a cause (R253, R254). -/
def enterHoldover (n cause : Nat) (s : State) : State :=
  report (tbHeld n) 0x0903 ADVISE (n + 256 * cause) (prod 175 1 (freezeF n (tbEnter n tbHOLDOVER cause s)))

/-- An offset in 2^-16 ns as whole ns in a signed 56-bit payload field (R284). -/
def nsField (o : Int) : Nat := ofSigned 56 (satSigned 56 (roundOpen o 65536))

/-- A measurement beyond JUMP_THRESH is refused (R250). -/
def refuse (n : Nat) (o : Int) (s : State) : State :=
  let s1 := freezeF n (tbEnter n tbHOLDOVER 2 s)
  let s2 := set (set s1 (F.TIM_TB_PENDING_PENDING n) (ofSigned 64 o)) (F.TIM_TB_JUMP_PEND_SEQ n) (get s (F.TIM_TB_JUMP_PEND_SEQ n) + 1)
  report (tbRefused n) 0x0901 FAULT (n + 256 * nsField o) (prod 174 1 (prod 175 (if tbState s n = tbHOLDOVER then 0 else 1) s2))

/-- The clamp of I and F to ±FREQ_LIMIT ppm, in 2^-8 ppb (R247). -/
def clampF (s : State) (n : Nat) (x : Int) : Int :=
  let l : Int := get s (F.TIM_TB_SERVO_FREQ_LIMIT n) * 256000
  max (-l) (min x l)

/-- The servo's computation of I and F from an offset and T, in 2^-48 ns (R247); values in 2^-8 ppb. -/
def servoStep (n : Nat) (o : Int) (t : Nat) (s : State) : State :=
  let i := toSigned 32 (get s (F.TIM_TB_FREQ_INTEG n)) + roundOpen (-o * 256000000000 * 2 ^ 32) (t * 2 ^ get s (F.TIM_TB_SERVO_KI_SHIFT n))
  let i' := clampF s n i
  let f := i' + roundOpen (-o * 256000000000 * 2 ^ 32) (t * 2 ^ get s (F.TIM_TB_SERVO_KP_SHIFT n))
  let f' := clampF s n f
  let s1 := set (set s (F.TIM_TB_FREQ_INTEG n) (ofSigned 32 i')) (F.TIM_TB_FREQ_APPLIED n) (ofSigned 32 f')
  set s1 (F.TIM_TB_STATUS_CLAMPED n) (if i = i' ∧ f = f' then 0 else 1)

/-- The run of offsets within or beyond LOCK_THRESH and the moves between LOCKING and LOCKED (R248). -/
def lockRun (n : Nat) (o : Int) (s : State) : State :=
  let v := servoOf s n
  let within := decide (o.natAbs ≤ get s (F.TIM_TB_THRESH_LOCK_THRESH n) * 65536)
  let a := if within then v.inRun + 1 else 0
  let b := if within then 0 else v.outRun + 1
  let s1 := setServo n { v with inRun := a, outRun := b } s
  if tbState s n = tbLOCKING ∧ 8 ≤ a then
    note 0x0904 INFO n (tbEnter n tbLOCKED 0 (setServo n { v with inRun := 0, outRun := 0 } s))
  else if tbState s n = tbLOCKED ∧ 8 ≤ b then
    tbEnter n tbLOCKING 0 (setServo n { v with inRun := 0, outRun := 0 } s)
  else s1

/-- What every applied measurement leaves (R247, R249): OFFSET, MEAS_CNT, and the start of T and of TIMEOUT. -/
def applied (n : Nat) (o : Int) (s : State) : State :=
  let s1 := bump (set s (F.TIM_TB_OFFSET_OFFSET n) (ofSigned 64 o)) (F.TIM_TB_STATUS_MEAS_CNT n) 1
  prod 173 1 (setServo n { servoOf s1 n with lastT := some s.tim.tb2, since := some s.tim.tb2 } s1)

/-- A measurement `o` (in 2^-16 ns) is applied to base `n` (R247, R248); the base is in LOCKING, LOCKED or FABRIC. One that leaves no
interval T since the last computes no r, as a first measurement does (log 103). -/
def applyMeas (n : Nat) (o : Int) (s : State) : State :=
  let s1 := match (servoOf s n).lastT with
    | none => s
    | some t => if s.tim.tb2 ≤ t then s else servoStep n o (s.tim.tb2 - t) s
  let s2 := applied n o s1
  if tbState s2 n = tbFABRIC then s2 else lockRun n o s2

/-- A measurement is given to a base (R247 to R251, R256). `fab` marks one of TB0 against TB1 (R273). -/
def measure (n : Nat) (o : Int) (fab : Bool) (s : State) : State :=
  let st := tbState s n
  if !on s (F.TIM_TB_CTL_EN n) || (n == 1 && rooted s) || fenced s 4 then s
  else if st = tbFREE ∧ on s (F.TIM_TB_CTL_INIT_STEP n) then
    let s1 := set (set (stepBase n (-o) s) (F.TIM_TB_FREQ_INTEG n) 0) (F.TIM_TB_FREQ_APPLIED n) 0
    note 0x0905 INFO (n + 256 * nsField (-o)) (applied n o (tbEnter n tbLOCKING 0 s1))
  else if st = tbHOLDOVER ∧ tbCause s n = 2 then
    set (set s (F.TIM_TB_PENDING_PENDING n) (ofSigned 64 o)) (F.TIM_TB_JUMP_PEND_SEQ n) (get s (F.TIM_TB_JUMP_PEND_SEQ n) + 1)
  else if get s (F.TIM_TB_THRESH_JUMP_THRESH n) * 65536 < o.natAbs then refuse n o s
  else if st = tbFREE ∨ st = tbHOLDOVER ∨ (st = tbFABRIC ∧ !fab) then
    applyMeas n o (tbEnter n tbLOCKING 0 (setServo n { servoOf s n with inRun := 0, outRun := 0 } s))
  else applyMeas n o s

/-! Jump actions (R252). -/

/-- A jump action is not performed. -/
def jumpStale (n seq why : Nat) (s : State) : State :=
  report F.TIM_ERR_JUMP_STALE 0x0908 ADVISE (n + 256 * seq + 2 ^ 24 * why) s

/-- After a performed action: LOCKING, a first measurement next, TIMEOUT from now. -/
def jumpDone (n which : Nat) (s : State) : State :=
  note 0x0902 INFO (n + 256 * which) (setServo n { since := some s.tim.tb2 } (tbEnter n tbLOCKING 0 s))

/-- A write of TIM_TBn_JUMP (R252); no effect under a fence of TIME (R567). -/
def jumpWrite (n : Nat) (acc : Acc) (s : State) : State :=
  let a := (F.TIM_TB_JUMP_ACCEPT n).addr
  let seq := wfield s acc (F.TIM_TB_JUMP_PEND_SEQ n)
  let acceptB := wrote1 acc (F.TIM_TB_JUMP_ACCEPT n)
  let dismissB := wrote1 acc (F.TIM_TB_JUMP_DISMISS n)
  let o := toSigned 64 (get s (F.TIM_TB_PENDING_PENDING n))
  if fenced s 4 then s
  else if tbState s n ≠ tbHOLDOVER ∨ tbCause s n ≠ 2 ∨ seq ≠ get s (F.TIM_TB_JUMP_PEND_SEQ n) ∨ acceptB == dismissB then
    jumpStale n seq 1 s
  else if dismissB ∧ get s (F.TIM_TB_THRESH_JUMP_THRESH n) * 65536 < o.natAbs then jumpStale n seq 2 s
  else
    let s1 := ledgerReg a acc (rd s a) s
    if acceptB then jumpDone n 1 (stepBase n (-o) s1) else jumpDone n 2 s1

/-! Holdover by time-out (R253, R273). -/

/-- TIMEOUT passes without an applied measurement (R253); with fabric fallback TB0 enters FABRIC (R273). A base with EN = 0 does not change
state (R256). -/
def servoTimeout (n : Nat) (s : State) : State :=
  match (servoOf s n).since with
  | none => s
  | some t =>
    let st := tbState s n
    if inReset s 4 || decide (1 < n) || !on s (F.TIM_TB_CTL_EN n) || (n == 1 && rooted s) || !(st == tbLOCKING || st == tbLOCKED || st == tbFABRIC) then s
    else
      let s1 := reachBase 2 (t + get s (F.TIM_TB_THRESH_TIMEOUT n) * 1000000 * 2 ^ 48) s
      if n = 0 ∧ on s (F.TIM_TB_CTL_FAB_FALLBACK 0) ∧ !rooted s then
        if st = tbFABRIC then s1 else note 0x0906 ADVISE 0 (tbEnter 0 tbFABRIC 0 s1)
      else enterHoldover n 1 s1

/-- SERVO_TIMEOUT (R253). -/
def execServoTimeout (n : Nat) (s : State) : Host.Outcome State Fault Refusal := .next (servoTimeout n s)

/-! Snapshot (R245). -/

/-- A base's value is latched into its snapshot registers. -/
def latch (i v : Nat) (s : State) : State :=
  let ns := v / 2 ^ 48
  let s1 := set s (F.TIM_SNAP_SEC_SEC i) (ns / 1000000000)
  set (set s1 (F.TIM_SNAP_NS_NS i) (ns % 1000000000)) (F.TIM_SNAP_NS_FRAC i) (v / 2 ^ 32 % 65536)

/-- GO (R245). -/
def timeSnapshot (s : State) : State :=
  if valid s F.TIM_SNAP_RESULT_SEQ.addr then flag F.TIM_ERR_SNAP_BUSY s
  else
    let s1 := (List.range 4).foldl (fun t i => latch i (baseVal s i (get s F.TIM_SNAP_CTL_TB3_SEL)) t) s
    post F.TIM_SNAP_RESULT_SEQ.addr (get s F.TIM_SNAP_CTL_SEQ) 0 s1

/-! The PTP slave (R257 to R263). -/

def setPtp (p : PtpSt) (s : State) : State := setTim { s.tim with ptp := p } s

/-- Fields of a PTP message (IEEE 1588-2019, which R257 and R162 cite; PRESUMED, log 20). Times in 2^-16 ns. -/
def msgDomain (m : List Byte) : Nat := beAt m 4 1
def msgTwoStep (m : List Byte) : Bool := beAt m 6 1 / 2 % 2 == 1
def msgCorr (m : List Byte) : Int := toSigned 64 (beAt m 8 8)
def msgClock (m : List Byte) : Nat := beAt m 20 8
def msgPort (m : List Byte) : Nat := beAt m 28 2
def msgSeq (m : List Byte) : Nat := beAt m 30 2
def msgTime (m : List Byte) : Int := ((beAt m 34 6 * 1000000000 + beAt m 40 4) * 65536 : Nat)
def msgReqClock (m : List Byte) : Nat := beAt m 44 8
def msgReqPort (m : List Byte) : Nat := beAt m 52 2

/-- The slave is on: PTP enabled with a defined TRANSPORT (R21), TIME out of reset. -/
def ptpOn (s : State) : Bool := on s F.TIM_PTP_CTL_EN && !inReset s 4 && get s F.TIM_PTP_CTL_TRANSPORT != 3 && pwState s != 3

/-- A message from the selected master in the selected domain (R259). -/
def fromMaster (s : State) (m : List Byte) : Bool :=
  msgClock m == get s F.TIM_PTP_MASTER_MASTER_ID && msgPort m == get s F.TIM_PTP_CTL_MASTER_PORT
    && msgDomain m == get s F.TIM_PTP_CTL_DOMAIN_NUM

def foreign (s : State) : State := bump s F.TIM_PTP_DISCARD_FOREIGN 1
def invalidPtp (s : State) : State := bump s F.TIM_PTP_DISCARD_INVALID 1

/-- 2.560 ns in 2^-16 ns, to the nearest (R163). -/
def word16 : Int := 167772
/-- Ingress and egress stamps on TB0 at SEP port 0, in 2^-16 ns (R163, R244). -/
def rxStamp (s : State) (phase : Nat) : Int := (sampled s.tim.tb0 phase / 2 ^ 32 : Nat) + word16 - get s (F.SEP_LAT_RX 0)
def txStamp (s : State) (phase : Nat) : Int := (sampled s.tim.tb0 phase / 2 ^ 32 : Nat) + word16 + get s (F.SEP_LAT_TX 0)

/-- A Sync's t2 − t1 − cSync is known: an offset for TB0 if D is (R263), and for the Delay_Req that followed it. -/
def syncKnown (seq : Nat) (x : Int) (s : State) : State :=
  let p := s.tim.ptp
  let dreq := p.dreq.map fun d => if d.sync = some (seq, none) then { d with sync := some (seq, some x) } else d
  let last := if p.last = some (seq, none) then some (seq, some x) else p.last
  let s1 := setPtp { p with dreq, last } s
  match p.d with
  | none => s1
  | some d => measure 0 (x - d) false s1

/-- A Sync arrives (R259 to R263). In host-assisted timestamping the MAC stamps nothing, so it yields no measurement
(R264). -/
def ptpSync (m : List Byte) (phase : Nat) (s : State) : State :=
  if !ptpOn s || hostMode s 6 then s
  else if !fromMaster s m then foreign s
  else
    let s0 := if s.tim.ptp.pend.isSome then invalidPtp s else s
    let p := s0.tim.ptp
    let t2 := rxStamp s0 phase
    let p1 := { p with last := some (msgSeq m, none), fresh := false, due := p.due || p.fresh }
    if msgTwoStep m then setPtp { p1 with pend := some (msgSeq m, t2, msgCorr m) } s0
    else syncKnown (msgSeq m) (t2 - msgTime m - msgCorr m) (setPtp { p1 with pend := none } s0)

/-- PTP_SYNC_RECEIVE (R263). -/
def execPtpSyncReceive (m : List Byte) (phase : Nat) (s : State) : Host.Outcome State Fault Refusal := .next (ptpSync m phase s)

/-- A Follow_Up arrives (R259, R260). -/
def ptpFollowUp (m : List Byte) (s : State) : State :=
  if !ptpOn s || hostMode s 6 then s
  else if !fromMaster s m then foreign s
  else match s.tim.ptp.pend with
    | none => s
    | some (q, t2, c) =>
      if q = msgSeq m then syncKnown q (t2 - msgTime m - (c + msgCorr m)) (setPtp { s.tim.ptp with pend := none } s) else s

/-- PTP_FOLLOW_UP_RECEIVE (R260). -/
def execPtpFollowUpReceive (m : List Byte) (s : State) : Host.Outcome State Fault Refusal := .next (ptpFollowUp m s)

/-- D from a matched exchange (R263); a negative one is discarded. -/
def newDelay (x y : Int) (s : State) : State :=
  let d := roundOpen (x + y) 2
  if x + y < 0 then invalidPtp s
  else set (setPtp { s.tim.ptp with d := some d } s) (F.TIM_TB_STATUS_DELAY 0) (min (roundOpen d 65536).toNat (2 ^ 24 - 1))

/-- A Delay_Resp arrives (R259, R262, R263). -/
def ptpDelayResp (m : List Byte) (s : State) : State :=
  if !ptpOn s || hostMode s 6 then s
  else if !fromMaster s m then foreign s
  else if msgReqClock m ≠ get s F.TIM_PTP_ID_CLOCK_ID ∨ msgReqPort m ≠ 1 then s
  else match s.tim.ptp.dreq with
    | none => invalidPtp s
    | some d =>
      if d.seq ≠ msgSeq m ∨ d.answered then invalidPtp s
      else
        let s1 := setPtp { s.tim.ptp with dreq := some { d with answered := true } } s
        match d.sync with
        | some (_, some x) => newDelay x (msgTime m - d.t3 - msgCorr m) s1
        | _ => s1

/-- PTP_DELAY_RESP_RECEIVE (R262). -/
def execPtpDelayRespReceive (m : List Byte) (s : State) : Host.Outcome State Fault Refusal := .next (ptpDelayResp m s)

/-- A Delay_Req message (R261; PRESUMED IEEE 1588-2019 layout, log 20). -/
def delayReqMsg (s : State) (t3 : Int) : List Byte :=
  let ns := (t3 / 65536).toNat
  [0x01, 0x12] ++ beBytes 2 44 ++ beBytes 1 (get s F.TIM_PTP_CTL_DOMAIN_NUM) ++ [0] ++ beBytes 2 0 ++ beBytes 8 0 ++ beBytes 4 0
    ++ beBytes 8 (get s F.TIM_PTP_ID_CLOCK_ID) ++ beBytes 2 1 ++ beBytes 2 s.tim.ptp.seq ++ [0x01, 0x7F]
    ++ beBytes 6 (ns / 1000000000) ++ beBytes 4 (ns % 1000000000)

/-- The frame of a PTP message in the selected transport (R162, R261). -/
def ptpFrame (s : State) (m : List Byte) : List Byte :=
  if get s F.TIM_PTP_CTL_TRANSPORT = 0 then beBytes 6 0x011B19000000 ++ beBytes 6 (stationAddr s) ++ beBytes 2 0x88F7 ++ m
  else Config.ptpHeader (get s F.TIM_PTP_CTL_TRANSPORT) m ++ m

/-- The interval 2^LOG_DREQ s in 2^-48 ns. -/
def dreqInterval (s : State) : Nat :=
  let l := toSigned 8 (get s F.TIM_PTP_CTL_LOG_DREQ)
  if l < 0 then second / 2 ^ l.natAbs else second * 2 ^ l.natAbs

/-- A Delay_Req is sent: the first after the first Sync, each later one 2^LOG_DREQ s after the one before on TB2 (R261). -/
def delayReqSend (phase : Nat) (s : State) : State :=
  let p := s.tim.ptp
  if !ptpOn s || hostMode s 6 || !maySend s 0 || p.fresh || (!p.due && p.dreq.isNone) then s
  else
    let s0 := match p.dreq with
      | some d => if p.due then s else reachBase 2 (d.sent + dreqInterval s) s
      | none => s
    let t3 := txStamp s0 phase
    let s1 := sendFrame 0 (vlanTag s0 (ptpFrame s0 (delayReqMsg s0 t3))) s0
    let d : Dreq := { seq := p.seq, t3, sent := s0.tim.tb2, sync := p.last, answered := false }
    prod 172 1 (setPtp { p with due := false, seq := (p.seq + 1) % 65536, dreq := some d } s1)

/-- DELAY_REQ_SEND (R261). -/
def execDelayReqSend (phase : Nat) (s : State) : Host.Outcome State Fault Refusal := .next (delayReqSend phase s)

/-- An Announce, Signaling or Management message goes to the firmware ring (R258); a Pdelay message is discarded with record
0x0907 (R259); one of the messages that R259 checks, from another master, is counted. -/
def ptpOther (f : List Byte) (s : State) : State :=
  match ptpAt s f with
  | none => s
  | some p =>
    let t := beAt f p 1 % 16
    if t = 0xB ∨ t = 0xC ∨ t = 0xD then (if inReset s 3 then s else toFirmware f s)
    else if t = 2 ∨ t = 3 ∨ t = 0xA then (if inReset s 4 then s else note 0x0907 INFO 0 s)
    else if (t = 0 ∨ t = 8 ∨ t = 9) ∧ ptpOn s ∧ !fromMaster s (f.drop p) then foreign s
    else s

/-- PTP_ANNOUNCE_RECEIVE (R258). -/
def execPtpAnnounceReceive (f : List Byte) (s : State) : Host.Outcome State Fault Refusal := .next (ptpOther f s)

/-- The stamps of an exchange posted by the driver (R264), in 2^-16 ns: the offset of its Sync by the D in use, then its D. -/
def ptpStamps (t1 t2 t3 t4 cSync cDelay : Int) (s : State) : State :=
  let x := t2 + word16 - get s (F.SEP_LAT_RX 0) - t1 - cSync
  let y := t4 - (t3 + word16 + get s (F.SEP_LAT_TX 0)) - cDelay
  let s1 := match s.tim.ptp.d with
    | none => s
    | some d => measure 0 (x - d) false s
  newDelay x y s1

/-! Registers of the TIM page. -/

/-- Writes of TIM_PTP_CTL and TIM_PTP_MASTER make the next Sync the first of its master (R261). -/
def ptpFresh (s : State) : State := setPtp { s.tim.ptp with fresh := true, due := false, pend := none } s

/-- The unit's treatment of a write to the TIM page. -/
def timWrite (a : Nat) (acc : Acc) (s : State) : State :=
  if a = (F.TIM_TB_JUMP_ACCEPT 0).addr then jumpWrite 0 acc s
  else if a = (F.TIM_TB_JUMP_ACCEPT 1).addr then jumpWrite 1 acc s
  else if a = F.TIM_SNAP_RESULT_SEQ.addr then consume a acc s
  else
    let s1 := perform a acc s
    if a = F.TIM_SNAP_CTL_GO.addr then (if wrote1 acc F.TIM_SNAP_CTL_GO then timeSnapshot s1 else s1)
    else if a = F.TIM_PTP_MASTER_MASTER_ID.addr then ptpFresh s1
    else if a = F.TIM_PTP_CTL_EN.addr then
      let s2 := if get s1 F.TIM_PTP_CTL_TRANSPORT = 3 then undefinedField a 3 s1 else s1
      if (on s1 F.TIM_PTP_CTL_EN && !on s F.TIM_PTP_CTL_EN) || (acc.half != .lo) then ptpFresh s2 else s2
    else if a = (F.TIM_TB_CTL_ROOT 1).addr ∧ rooted s1 then showRoot (setTim { s1.tim with tb1 := s1.tim.tb0 } s1)
    else s1

/-- JUMP_ACCEPT (R252). -/
def execJumpAccept (n : Nat) (acc : Acc) (s : State) : Host.Outcome State Fault Refusal :=
  .next (portWrite timWrite (F.TIM_TB_JUMP_ACCEPT (n % 2)).addr
    (force (F.TIM_TB_JUMP_ACCEPT (n % 2)) 1 (force (F.TIM_TB_JUMP_DISMISS (n % 2)) 0 acc)) s)
/-- JUMP_DISMISS (R252). -/
def execJumpDismiss (n : Nat) (acc : Acc) (s : State) : Host.Outcome State Fault Refusal :=
  .next (portWrite timWrite (F.TIM_TB_JUMP_ACCEPT (n % 2)).addr
    (force (F.TIM_TB_JUMP_ACCEPT (n % 2)) 0 (force (F.TIM_TB_JUMP_DISMISS (n % 2)) 1 acc)) s)
/-- TIME_SNAPSHOT (R245). -/
def execTimeSnapshot (acc : Acc) (s : State) : Host.Outcome State Fault Refusal :=
  .next (portWrite timWrite F.TIM_SNAP_CTL_GO.addr (force F.TIM_SNAP_CTL_GO 1 acc) s)

end Sys2Proof.Machine
end

