-- ==== Sys2Proof/Machine/FabricTime.lean ====
section
/-!
DEFINITION. Fabric time (R267 to R273) and the reply store (R367).
-/
namespace Sys2Proof.Machine

def setFab (f : FabSt) (s : State) : State := setTim { s.tim with fab := f } s

/-- TB1 at the edge that transferred a received SOP beat, without the ingress latency (R268), in 2^-16 ns. -/
def fabRx (s : State) (lane : Nat) : Int := (s.tim.tb1 / 2 ^ 32 : Nat) - get s (F.TIM_FAB_LAT_RX lane)

/-- The primary parent of the fabric-time domain: index and child bit (R269, R272). -/
def fabParent (s : State) : Option (Nat × Nat) :=
  let d := get s (F.TIM_TB_CTL_DOMAIN 1)
  match routeAt s d (nextEpoch s d - 1) with
  | none => none
  | some r => if r.entry.prim = noParent then none else some (r.entry.prim, r.entry.bitP)

/-- INTERVAL in 2^-48 ns. -/
def fabInterval (s : State) : Nat := get s (F.TIM_TB_CTL_INTERVAL 1) * 1000 * 2 ^ 48

/-- A DREQ is handed to the Innkeeper, every INTERVAL µs (R269). -/
def fabricDreqSend (s : State) : State :=
  if rooted s || inReset s 4 || inReset s 3 || decide (2 ≤ pwState s) then s
  else match fabParent s with
    | none => s
    | some (i, b) =>
      let s0 := match s.tim.fab.lastDreq with
        | some t => reachBase 2 (t + fabInterval s) s
        | none => s
      let f := s0.tim.fab
      let s1 := setFab { f with next := (f.next + 1) % 65536, cur := some (f.next, none, none, s0.tim.tb2), lastDreq := some s0.tim.tb2 } s0
      sendPkt (mkPkt s1 0xF0 0 0 (get s1 (F.TIM_TB_CTL_DOMAIN 1)) 0 b (timePayload s1 0 f.next 0 0)) (level s1 + 1) i none false s1

/-- FABRIC_DREQ_SEND (R269). -/
def execFabricDreqSend (s : State) : Host.Outcome State Fault Refusal := .next (fabricDreqSend s)

/-- A request finds its part of the reply store full (R367): part 0 TGA, 1 BUSY, 2 time. -/
def replyFull (part : Nat) (s : State) : State := report F.INK_ERR_REPLY_FULL 0x0B08 ADVISE part s

/-- The oldest accepted TIME packet of a message kind. -/
def takeTime (msg : Nat) (s : State) : Option (Nat × Pkt × State) :=
  if fenced s 3 || decide (2 ≤ pwState s) then none else
  match s.fbp.rxPkts.find? fun e => e.2.type == 0xF0 && leAt e.2.payload 0 1 == msg with
  | none => none
  | some e => some (e.1, e.2, prod 176 1 { s with fbp := { s.fbp with rxPkts := s.fbp.rxPkts.erase e } })

/-- A DREQ is received at t2 and answered in any TB1 state (R269, R270); its entry of the reply store is one of 16 (R367). -/
def fabricDreq (s : State) : State :=
  match takeTime 0 s with
  | none => s
  | some (lane, p, s1) =>
    if inReset s1 4 then s1
    else if 16 ≤ s1.ink.replyTime then replyFull 2 s1
    else
      let x := leAt p.payload 2 2
      let f := s1.tim.fab
      let s2 := setFab { f with owed := f.owed ++ [(p.level, p.source, x, fabRx s1 lane)] } s1
      let s3 : State := { s2 with ink := { s2.ink with replyTime := s2.ink.replyTime + 1 } }
      sendPkt (mkPkt s3 0xF0 0 0 p.domain 0 0xFFFF (timePayload s3 1 x 0 0)) p.level p.source (some lane) false s3

/-- FABRIC_DREQ_RECEIVE (R269). -/
def execFabricDreqReceive (s : State) : Host.Outcome State Fault Refusal := .next (fabricDreq s)

/-- A DRESP is received at t4 (R269). -/
def fabricDresp (s : State) : State :=
  match takeTime 1 s with
  | none => s
  | some (lane, p, s1) =>
    let f := s1.tim.fab
    setFab { f with cur := f.cur.map fun c => if c.1 = leAt p.payload 2 2 then (c.1, c.2.1, some (fabRx s1 lane), c.2.2.2) else c } s1

/-- FABRIC_DRESP_RECEIVE (R269). -/
def execFabricDrespReceive (s : State) : Host.Outcome State Fault Refusal := .next (fabricDresp s)

/-- A time of a TIME payload in 2^-16 ns. -/
def timeAt (b : List Byte) (i : Nat) : Int := ((leAt b i 6 * 1000000000 + leAt b (i + 6) 4) * 65536 + leAt b (i + 10) 2 : Nat)

/-- The measurement of a completed exchange goes to TB1, and with fabric fallback TB0 minus TB1 to TB0 (R269, R273). -/
def fabricMeasure (t1 t2 t3 t4 : Int) (s : State) : State :=
  let s1 := set s (F.TIM_TB_STATUS_DELAY 1) (min (roundOpen ((t4 - t1) - (t3 - t2)) 131072).toNat (2 ^ 24 - 1))
  let s2 := measure 1 (roundOpen ((t1 - t2) + (t4 - t3)) 2) false s1
  if tbState s2 0 = tbFABRIC then measure 0 (roundOpen ((s2.tim.tb0 : Int) - s2.tim.tb1) (2 ^ 32)) true s2 else s2

/-- A DRESP_FUP is received (R269, R270). -/
def fabricFup (s : State) : State :=
  match takeTime 2 s with
  | none => s
  | some (_, p, s1) =>
    let f := s1.tim.fab
    match f.cur with
    | some (x, some t1, some t4, start) =>
      if x ≠ leAt p.payload 2 2 then s1
      else
        let s2 := setFab { f with cur := none } s1
        if rooted s2 || inReset s2 4 || leAt p.payload 1 1 == tbFREE || decide (start + fabInterval s2 < s2.tim.tb2) then s2
        else fabricMeasure t1 (timeAt p.payload 4) (timeAt p.payload 16) t4
          (setFab { s2.tim.fab with hops := min 255 (leAt p.payload 28 1 + 1) } s2)
    | _ => s1

/-- FABRIC_DRESP_FUP_RECEIVE (R269). -/
def execFabricDrespFupReceive (s : State) : Host.Outcome State Fault Refusal := .next (fabricFup s)

end Sys2Proof.Machine
end

