-- ==== Sys2Proof/Machine/Verify.lean ====
section
/-!
DEFINITION. Seed bundles (R105 to R109, R450 to R453) and the Tile Verifier (R448 to R480, R491): witness records, paths, the check
of staged records, accounting, subjects and verdicts.
-/
namespace Sys2Proof.Machine

def setEop (e : EopSt) (s : State) : State := { s with eop := e }

/-! Selection (R450, R451). -/

def mix (z : Word) : Word :=
  let a := (z ^^^ (z >>> 30)) * 0xBF58476D1CE4E5B9#64
  let b := (a ^^^ (a >>> 27)) * 0x94D049BB133111EB#64
  b ^^^ (b >>> 31)

/-- The seed of epoch `e`. -/
def seedOf (s : State) (e : Nat) : Word :=
  mix (rd s F.VER_SEED_KEY_KEY.addr ^^^ mix (BitVec.ofNat 64 (e % 2 ^ 48) ^^^ rd s F.GLB_CHIP_ID_LO_CHIP_ID.addr ^^^ rd s F.GLB_CHIP_ID_HI_CHIP_ID.addr))

/-- h of a key in an epoch. -/
def tileHash (v : VEpoch) (key : Nat) : Word := mix (BitVec.ofNat 64 key ^^^ v.seed)
def tileSelected (v : VEpoch) (key : Nat) : Bool := decide (bitsAt (tileHash v key) 32 32 < v.thresh)
def tileLocal (v : VEpoch) (key : Nat) : Bool := decide (bitsAt (tileHash v key) 24 8 < v.share)

/-! Seed bundles (R105 to R109, R453). -/

/-- An event of R453: its record once per run of equal values. -/
def clampNote (kind v : Nat) (s : State) : State :=
  if look kind s.ver.clamps = some v then s
  else note 0x0F04 ADVISE (kind + 2 ^ 32 * v) (setVer { s.ver with clamps := store kind v s.ver.clamps } s)
def clampOver (kind : Nat) (s : State) : State := setVer { s.ver with clamps := dropKeys (· == kind) s.ver.clamps } s

/-- The threshold of a bundle, with the events of R453. -/
def bundleThresh (s : State) : Nat × State :=
  if !on s F.EOP_CTL_SEED_EN || s.eop.silenced then (0, s)
  else
    let t := get s F.VER_SAMPLE_THRESH
    let v := max (2 ^ 19) (min t (2 ^ 26))
    let s1 := if v = t then clampOver 1 s else clampNote 1 t (flag F.VER_ERR_THRESH_CLAMP s)
    let high := decide (get s F.VER_CAPACITY_THRESH_MAX < v)
    let s2 := set s1 F.VER_STATUS_OVER_CAP (if high then 1 else 0)
    (v, if high then clampNote 2 v s2 else clampOver 2 s2)

/-- The bundle in crossing is not acknowledged. -/
def seedPending (s : State) : Bool := s.eop.seedReq != s.eop.seedAckSeen

/-- EOP_SEED and EOP_SEED_INFO show the bundle in effect. -/
def showSeed (s : State) : State :=
  let (seed, th, e) := s.eop.bundle
  set (set (wr s F.EOP_SEED_SEED.addr (BitVec.ofNat 64 seed)) F.EOP_SEED_INFO_THRESH th) F.EOP_SEED_INFO_EPOCH_LO e

/-- A bundle is set and its request toggled (R105, R106): that of the next epoch, or after a handshake that of the epoch in
progress, which becomes unaccountable (R109). -/
def seedSend (s : State) : State :=
  if inReset s 5 || !on s F.EOP_STATUS_LINK_UP || seedPending s || pers s == 3 then s
  else
    let e := if s.eop.resend then epochNow s (seedDomain s) else nextEpoch s (seedDomain s)
    let (th, s1) := bundleThresh s
    let b := ((seedOf s e).toNat, th, e)
    setEop { s1.eop with sent := some b, seedData := b, seedReq := !s1.eop.seedReq } s1

/-- SEED_BUNDLE_SEND (R105, R106, R109, R453). -/
def execSeedBundleSend (s : State) : Host.Outcome State Fault Refusal := .next (seedSend s)

/-- An epoch is marked unaccountable. -/
def markEpoch (e : Nat) (s : State) : State :=
  let s1 := setVer { s.ver with epochs := s.ver.epochs.map fun v => if v.n = e then { v with marked := true } else v } s
  if s1.eop.unaccountable.contains e then s1 else setEop { s1.eop with unaccountable := e :: s1.eop.unaccountable } s1

/-- The acknowledge toggle returns; a bundle of the epoch in progress takes effect at once (R107, R109). -/
def seedAck (s : State) : State :=
  if inReset s 5 || !seedPending s then s
  else
    let s1 := setEop { s.eop with seedAckSeen := s.eop.seedReq } s
    match s.eop.sent, s.eop.resend with
    | some b, true =>
      let s2 := showSeed (setEop { s1.eop with bundle := b, sent := none, resend := false } s1)
      setVer { s2.ver with epochs := s2.ver.epochs.map fun v =>
        if v.n = b.2.2 then { v with seed := BitVec.ofNat 64 b.1, thresh := b.2.1 } else v } s2
    | _, _ => s1

/-- SEED_ACK (R105). -/
def execSeedAck (s : State) : Host.Outcome State Fault Refusal := .next (seedAck s)

/-- 1 µs before the boundary no acknowledge has returned for the next epoch's bundle (R108). -/
def seedAckTimeout (s : State) : State :=
  let d := seedDomain s
  match domSched s d with
  | none => s
  | some k =>
    let e := nextEpoch s d
    let taken := match s.eop.sent with | some b => b.2.2 == e && !seedPending s | none => false
    if inReset s 5 || !on s F.EOP_STATUS_LINK_UP || taken || pers s == 3 || s.eop.unaccountable.contains e then s
    else markEpoch e (report F.EOP_ERR_SEED_TMO 0x0306 FAULT 0 (reachTb0 ((boundary s k e - 1000) * 2 ^ 48) s))

/-- SEED_ACK_TIMEOUT (R108). -/
def execSeedAckTimeout (s : State) : Host.Outcome State Fault Refusal := .next (seedAckTimeout s)

/-- The boundary that starts epoch `e` of the seed domain (R106, R107): EOP_EPOCH_TGL toggles and the bundle taken last is in
effect; an epoch whose own bundle was not taken is unaccountable. -/
def seedBoundary (e : Nat) (s : State) : State :=
  if pers s = 3 then s
  else
    let taken := match s.eop.sent with | some b => b.2.2 == e && !seedPending s | none => false
    let b := match s.eop.sent with | some b => if taken then b else s.eop.bundle | none => s.eop.bundle
    let v : VEpoch :=
      { n := e, seed := BitVec.ofNat 64 b.1, thresh := b.2.1, share := get s F.VER_CTL_LOCAL_SHARE,
        marked := !taken || s.eop.unaccountable.contains e }
    let eop : EopSt :=
      { s.eop with
        epochTgl := !s.eop.epochTgl, bundle := b, sent := if taken then none else s.eop.sent,
        unaccountable := s.eop.unaccountable.filter fun n => decide (e < n) }
    let s1 := showSeed (setEop eop s)
    if inReset s 1 then s1 else setVer { s1.ver with epochs := v :: s1.ver.epochs } s1

/-! Discards (R462, R493). -/

/-- A discard: counter 126, DISCARD, and record 0x0F01 of which a run only counts. -/
def verDiscard (cause who key : Nat) (s : State) : State :=
  let again := s.ver.discards == some cause
  let r : Raised := { recOf 0x0F01 ADVISE (cause + 256 * (who % 256) + 2 ^ 16 * (key % 2 ^ 48)) with run := if again then 2 else 1, key := cause }
  record r (flag F.VER_ERR_DISCARD (prod 126 1 (setVer { s.ver with discards := some cause } s)))

/-- A record is accepted: a run of discards is over. -/
def runOver (s : State) : State := setVer { s.ver with discards := none } s

/-! Staging (R459). -/

def stageSize (s : State) : Nat := partSize s 5 - 2 ^ 20
def stageUsed (s : State) : Nat :=
  s.ver.staged.foldl (fun n r => n + r.bytes.length) 0 + s.ver.asm.foldl (fun n a => n + 64 * a.need) 0

/-- The size of the host-assisted ring, and the bytes in use (R491). -/
def haUsed (s : State) : Nat := (s.ver.haTail + regionSize s 6 - get s F.VER_HA_RDPTR_RDPTR % max 1 (regionSize s 6)) % max 1 (regionSize s 6)

/-- A record is copied into the host-assisted ring (R491). -/
def haWrite (r : VRec) (s : State) : State :=
  let size := regionSize s 6
  let o := s.ver.haTail
  let x := s.mmp.nextXfer
  let n := r.bytes.length
  let first := min n (size - o)
  let s1 := memRequest .haRing 24 6 true (regionStart s 6 + o) first (r.bytes.take first) s
  let s2 := if first = n then s1
    else memRequest .haRing 24 6 true (regionStart s 6) (n - first) (r.bytes.drop first) { s1 with mmp := { s1.mmp with nextXfer := x } }
  let tail := (o + n) % max 1 size
  setVer { s2.ver with ha := s2.ver.ha ++ [(x, tail, false, { r with bytes := r.bytes.take 64 })], haTail := tail } s2

/-- A record due for local checking is staged, or in host-assisted mode copied into the ring; false if it finds no room. -/
def stage (r : VRec) (s : State) : State × Bool :=
  if hostVerify s then
    if regionSize s 6 ≤ haUsed s + r.bytes.length then (s, false) else (haWrite r s, true)
  else if stageSize s < stageUsed s + r.bytes.length then (s, false)
  else (showArr (showVer (setVer { s.ver with staged := s.ver.staged ++ [r] } s)), true)

/-! Forwarding (R460, R461). -/

/-- Packets and held packets of the Innkeeper. -/
def queuedPkts (s : State) : Nat := s.ink.hold.length + s.ink.queues.foldl (fun n q => n + q.2.items.length) 0

/-- The fragments of a record: beat offset, bytes, FLAGS. -/
def fragments (b : List Byte) : List (Nat × List Byte × Nat) :=
  let l := chunksOf (63 * 64) b
  ((List.range l.length).zip l).map fun e =>
    (63 * e.1, e.2, (if e.1 = 0 then 1 else 0) + (if e.1 + 1 = l.length then 2 else 0))

/-- Fragments are sent until one is discarded; true if none is. -/
def sendFragments (dst : Nat × Nat × Nat) (d e key : Nat) : List (Nat × List Byte × Nat) → State → State × Bool
  | [], s => (s, true)
  | f :: t, s =>
    let bs := leBytes 8 key ++ leBytes 4 f.1 ++ leBytes 1 f.2.2 ++ leBytes 3 0 ++ f.2.1
    let s1 := sendPkt (mkPkt s 0x30 0 0 d e dst.2.2 bs) dst.1 dst.2.1 none false s
    if queuedPkts s1 = queuedPkts s then (s1, false) else sendFragments dst d e key t s1

/-- The primary parent of a domain in the Signpost, unless the die keeps its records in holdover (R458, R592). -/
def witnessParent (s : State) (d e : Nat) : Option (Nat × Nat × Nat) :=
  match lastRoute s d with
  | none => none
  | some r => if r.entry.prim = noParent || holdsUp s d (some e) then none else some (level s + 1, r.entry.prim, r.entry.bitP)

/-! Records of the own host (R449 to R458). -/

/-- The header rules of R456 for one of the kinds a host sends. -/
def recordGood (b : List Byte) : Bool :=
  let kind := wKind b
  let zero (i n : Nat) : Bool := leAt b i n == 0
  let shape := wRule b ≤ 4 ∧ leAt b 1 1 < 16 ∧ fmtPair (wFa b) (wFb b) ∧ 1 ≤ wM b ∧ wM b ≤ 256 ∧ 1 ≤ wN b ∧ wN b ≤ 256 ∧ 1 ≤ wK b ∧ wK b ≤ 8192
  zero 3 1 && zero 10 2 && zero 32 32 && wLength b == wLengthOf b &&
    (match kind with
      | 1 => decide shape
      | 2 => decide shape && zero 24 8
      | 3 => decide shape && zero 24 8
      | _ => false)

/-- A tile is accounted for in its epoch (R463). -/
def tileSeen (e engine tile : Nat) (s : State) : State :=
  setVer { s.ver with epochs := s.ver.epochs.map fun v =>
    if v.n = e ∧ !v.tiles.contains (engine, tile) then { v with tiles := (engine, tile) :: v.tiles } else v } s

/-- The seed epoch of a key: the one in progress, or the one before it while its window is open (R457). -/
def keyEpoch (s : State) (lo : Nat) : Option VEpoch :=
  match s.ver.epochs with
  | [] => none
  | [v] => if v.n % 2 ^ 16 = lo then some v else none
  | v :: u :: _ =>
    if v.n % 2 ^ 16 = lo then some v
    else if u.n % 2 ^ 16 = lo && decide (ns0 s < boundaryOf s (seedDomain s) (u.n + 1) + get s F.VER_CTL_WIT_WINDOW * 1000) then some u
    else none

/-- A TILE record that passed its checks takes its path (R458). -/
def takePath (v : VEpoch) (b : List Byte) (s : State) : State :=
  let e := wEngine b
  let key := wKey b
  let fits := decide (b.length ≤ stageSize s)
  let loc := tileLocal v key && fits && !(inService s).isEmpty
  let up := if pers s = 1 && on s F.VER_CTL_TRAY_EN then witnessParent s (seedDomain s) v.n else none
  let here := if !fits then verDiscard 5 e key s
    else match stage { kid := none, domain := seedDomain s, epoch := v.n, bytes := b } s with
      | (s1, true) => runOver (tileSeen v.n e (wTile b) s1)
      | (s1, false) => verDiscard 4 e key s1
  if loc || pers s != 1 then here
  else match up with
    | none => here
    | some dst =>
      match sendFragments dst (seedDomain s) v.n key (fragments b) s with
      | (s1, true) => runOver (tileSeen v.n e (wTile b) (prod 121 1 s1))
      | (s1, false) => verDiscard 6 e key s1

/-- A TILE or COUNT record of the own host (R452, R456, R457). -/
def hostRecord (engine : Nat) (b : List Byte) (s : State) : State :=
  let key := wKey b
  if !recordGood b || wEngine b != engine then verDiscard 2 engine key s
  else if wKind b = 2 then
    let put (v : VEpoch) : VEpoch := if v.n % 2 ^ 16 = wEpochLo b then { v with counts := store engine (wTile b) v.counts } else v
    setVer { s.ver with epochs := s.ver.epochs.map put } s
  else if !(get s F.VER_ENG_MASK_MASK).testBit engine then verDiscard 1 engine key s
  else match keyEpoch s (wEpochLo b) with
    | none => verDiscard 3 engine key s
    | some v => if tileSelected v key then takePath v b s else verDiscard 1 engine key s

/-- A record on the witness channel up to its kind (R101, R103): its bytes, if it is kept. -/
def witnessIn (beats : List (BitVec 512)) (cut : Bool) (s : State) : State × Option (List Byte) :=
  if inReset s 5 || !on s F.EOP_STATUS_LINK_UP || beats.isEmpty || pers s == 3 then (s, none)
  else if cut || fenced s 1 || inReset s 1 || fenced s 5 || pwState s == 3 || !on s F.EOP_CTL_WIT_EN then (bump s F.EOP_WIT_DROPPED_DISCARDED 1, none)
  else
    let b := beats.flatMap fun x => leBytes 64 x.toNat
    if wLength b ≠ beats.length then (report F.EOP_ERR_WIT_MALFORMED 0x0301 ADVISE 0 (bump s F.EOP_WIT_DROPPED_MALFORMED 1), none)
    else if on s F.VER_CTL_EN then (s, some b) else (s, none)

/-! Subjects and verdicts (R474 to R479). -/

/-- A subject's level and index. -/
def subjectId (s : State) (dom i : Nat) : Nat × Nat :=
  if i = 0 then (level s, index s)
  else (level s - 1, (((slotOf s dom).bind fun k => kidAt (slotAt s k) (i - 1)).map Child.index).getD 0)

/-- A subject moves to a state with record 0x0F05 (R477). -/
def subjMove (i st obs : Nat) (s : State) : State :=
  let old := subjState s i
  let s1 := set (set s (F.VER_SUBJ_STATE_STATE i) st) (F.VER_SUBJ_STATE_OBS_PASSED i) obs
  let s2 := if st = 1 ∧ old ≠ 1 then prod 134 1 s1 else s1
  showVer (if st = old then s2 else note 0x0F05 INFO (i + 256 * old + 2 ^ 16 * st) s2)

/-- A confirmed failure of a subject (R475, R477): its verdicts and its next state. -/
def subjFail (i dom n kind sev : Nat) (layout : List Byte) (s : State) : State :=
  let (lvl, idx) := subjectId s dom i
  let once := kind == 0x10 || kind == 0x11
  if once && s.ver.judged.contains (i, dom, n) || subjState s i == 2 then s
  else
    let s0 := set (set s (F.VER_SUBJ_STATE_LEVEL i) lvl) (F.VER_SUBJ_STATE_INDEX i) idx
    let s1 := if once then setVer { s0.ver with judged := (i, dom, n) :: s0.ver.judged.filter fun j => decide (n < j.2.2 + 4) } s0 else s0
    let s2 := verVerdict dom n kind sev idx lvl layout s1
    if subjState s i = 0 ∧ on s F.VER_POLICY_MODE then subjMove i 1 0 (verVerdict dom n 0x13 8 idx lvl layout s2)
    else subjMove i 2 (get s2 (F.VER_SUBJ_STATE_OBS_PASSED i)) (prod 135 1 (verVerdict dom n 0x12 15 idx lvl layout s2))

/-- A passing record or probe of a subject (R477). -/
def subjPass (i dom n : Nat) (s : State) : State :=
  if subjState s i ≠ 1 then s
  else
    let c := get s (F.VER_SUBJ_STATE_OBS_PASSED i) + 1
    let s1 := bump s (F.VER_SUBJ_STATE_OBS_PASSED i) 1
    if c < max 1 (get s F.VER_POLICY_OBS_COUNT) then s1
    else
      let (lvl, idx) := subjectId s dom i
      subjMove i 0 (min c 65535) (verVerdict dom n 0x14 1 idx lvl (leBytes 4 c) s1)

/-- The failure layout of R474. -/
def failLayout (b : List Byte) (m n cnt host ref : Nat) : List Byte :=
  leBytes 8 (wKey b) ++ (b.drop 24).take 8 ++ leBytes 1 m ++ leBytes 1 n ++ leBytes 2 (min cnt 65535) ++ leBytes 4 host ++ leBytes 4 ref

/-- The subject of a record. -/
def recSubject (r : VRec) : Nat :=
  match r.kid with
  | none => 0
  | some b => 1 + b

/-- A record has been checked: counter 120 at a die, 121 for a child's record at a tray. -/
def checked (r : VRec) (s : State) : State :=
  match r.kid with
  | none => if pers s = 1 then prod 120 1 s else s
  | some _ => prod 121 1 s

/-- A record passes, or its failure is confirmed (R471, R473). -/
def recPass (r : VRec) (s : State) : State := subjPass (recSubject r) r.domain r.epoch (checked r (prod 122 1 s))
def recFail (r : VRec) (tol : Bool) (m n cnt host ref : Nat) (s : State) : State :=
  let s1 := flag F.VER_ERR_HOST_FAIL (prod (if tol then 124 else 123) 1 s)
  subjFail (recSubject r) r.domain r.epoch (if tol then 0x11 else 0x10) (if tol then 10 else 12)
    (failLayout r.bytes m n cnt host ref) (checked r s1)

/-! The check of the oldest staged record (R468 to R473). -/

/-- The reference of an element: exact, but for the silent errors of the arrays. -/
def refBits (t : Tile) (rule : Nat) (errs : List (Nat × Nat × Nat)) (i j : Nat) : Nat :=
  match errs.find? fun e => e.1 == i && e.2.1 == j with
  | some e => e.2.2
  | none => (cellResult t (some (if rule = 4 then 2 else rule)) i j).1

/-- The host's bits of an element. -/
def hostBits (t : Tile) (c : List Byte) (i j : Nat) : Nat := leAt c (i * outBytes 4 t.n + 4 * j) 4

/-- The elements that fail, lowest m and then lowest n, with their reference bits. -/
def failing (t : Tile) (c : List Byte) (rule mult : Nat) (errs : List (Nat × Nat × Nat)) : List (Nat × Nat × Nat) :=
  (List.range t.m).flatMap fun i => (List.range t.n).filterMap fun j =>
    let r := refBits t rule errs i j
    if elemPass t rule mult i j (hostBits t c i j) r then none else some (i, j, r)

/-- The oldest staged record leaves. -/
def popRecord (s : State) : State := setVer { s.ver with staged := s.ver.staged.tail } s
/-- The payload of record 0x0F03: kind and arrays. -/
def ownError (kind : Nat) (arrays : List Nat) (s : State) : State :=
  report F.VER_ERR_SELF_ERR 0x0F03 FAULT (kind + 2 ^ 16 * arrays.dedup.foldl (fun m a => m + 2 ^ a) 0) s

/-- A failure of the oldest record counts, with its first failing element. -/
def judgeFail (r : VRec) (fails : List (Nat × Nat × Nat)) (s : State) : State :=
  let (t, c) := wTileOf r.bytes
  let f := fails.headD (0, 0, 0)
  recFail r (wRule r.bytes == 4) f.1 f.2.1 fails.length (hostBits t c f.1 f.2.1) f.2.2 s

/-- The reference passes of the oldest record are complete; `errs` are elements that the arrays computed wrongly without
notice. -/
def referenceDone (errs : List (Nat × Nat × Nat)) (s : State) : State :=
  match s.ver.staged with
  | [] => s
  | r :: _ =>
    if inReset s 1 || hostVerify s || r.confirming || (!r.bad && decide (r.runs.length < passesOf (wM r.bytes) (wN r.bytes))) then s
    else if r.bad then showArr (showVer (ownError 1 r.runs (popRecord s)))
    else
      let (t, c) := wTileOf r.bytes
      let fs := failing t c (wRule r.bytes) (get s F.VER_CTL_TOL_MULT) errs
      showArr (showVer (
        if fs.isEmpty then recPass r (popRecord s)
        else if on s F.VER_CTL_CONFIRM then setVer { s.ver with staged := { r with fails := fs, confirming := true } :: s.ver.staged.tail } s
        else judgeFail r fs (popRecord s)))

/-- VERIFY_REFERENCE_DONE (R469 to R473). -/
def execVerifyReferenceDone (errs : List (Nat × Nat × Nat)) (s : State) : Host.Outcome State Fault Refusal :=
  .next (referenceDone errs s)

/-- The confirming passes of the oldest record are complete. -/
def confirmDone (errs : List (Nat × Nat × Nat)) (s : State) : State :=
  match s.ver.staged with
  | [] => s
  | r :: _ =>
    if inReset s 1 || hostVerify s || !r.confirming || (!r.bad && decide (r.again.length < (failPasses r).length)) then s
    else if r.bad then showArr (showVer (ownError 1 (r.runs ++ r.again.map Prod.snd) (popRecord s)))
    else
      let (t, _) := wTileOf r.bytes
      let diff := r.fails.filter fun f => refBits t (wRule r.bytes) errs f.1 f.2.1 != f.2.2
      if diff.isEmpty then showArr (showVer (judgeFail r r.fails (popRecord s)))
      else
        let ps := (diff.map fun f => passOf (wN r.bytes) f.1 f.2.1).dedup
        let arrays := (ps.flatMap fun p => (r.runs[p]?).toList ++ (r.again.filter fun x => x.1 == p).map Prod.snd).dedup
        showArr (showVer (retireCheck (ownError 2 arrays (arrays.foldl (fun s a => mark a s) (popRecord s)))))

/-! Posted outcomes (R491). -/

/-- VERIFY_OUTCOME: the state after, and the subject's state, or none where no record of the ring has the key. -/
def takeOutcome (w : Nat → Word) (s : State) : State × Option Nat :=
  match s.ver.ha.find? fun h => wKey h.2.2.2.bytes == (w 1).toNat with
  | none => (s, none)
  | some h =>
    let r := h.2.2.2
    let s1 := setVer { s.ver with ha := s.ver.ha.filter fun x => x.1 != h.1 || !x.2.2.1 } s
    let i := bitsAt (w 2) 40 8
    let r1 : VRec := { r with kid := if i = 0 then none else some (i - 1) }
    let s2 := match bitsAt (w 2) 0 8 with
      | 0 => recPass r1 s1
      | 1 => recFail r1 false (bitsAt (w 2) 8 8) (bitsAt (w 2) 16 8) (bitsAt (w 2) 24 16) (bitsAt (w 3) 0 32) (bitsAt (w 3) 32 32) s1
      | 2 => recFail r1 true (bitsAt (w 2) 8 8) (bitsAt (w 2) 16 8) (bitsAt (w 2) 24 16) (bitsAt (w 3) 0 32) (bitsAt (w 3) 32 32) s1
      | _ => s1
    (s2, some (subjState s2 i))

/-! Accounting (R463, R464). -/

/-- The selected tiles below an engine's count that did not arrive. -/
def missingTiles (v : VEpoch) (engine cnt : Nat) : Nat :=
  ((List.range cnt).filter fun t =>
    tileSelected v (engine * 2 ^ 58 + v.n % 2 ^ 16 * 2 ^ 42 + t) && !v.tiles.contains (engine, t)).length

/-- Why an epoch is not accountable, with the number of selected tiles missing; none if it is. -/
def accountFault (s : State) (v : VEpoch) : Option (Nat × Nat) :=
  let engines := (List.range 64).filter fun e => (get s F.VER_ENG_MASK_MASK).testBit e
  let total : Nat := v.counts.foldl (fun n c => n + c.2) 0
  let miss : Nat := engines.foldl (fun n e => n + missingTiles v e ((look e v.counts).getD 0)) 0
  if v.marked then some (4, miss)
  else if 2 ^ 24 < total then some (3, miss)
  else if engines.any fun e => (look e v.counts).isNone then some (1, miss)
  else if miss ≠ 0 then some (2, miss)
  else none

/-- A die closes the accounting of its oldest open epoch that is over, at B(e+1) + WIT_WINDOW. -/
def accountClose (s : State) : State :=
  if inReset s 1 || decide (s.ver.epochs.length < 2) || pers s != 1 then s
  else match s.ver.epochs.getLast? with
    | none => s
    | some v =>
      let s1 := reachTb0 ((boundaryOf s (seedDomain s) (v.n + 1) + get s F.VER_CTL_WIT_WINDOW * 1000) * 2 ^ 48) s
      let s2 := setVer { s1.ver with epochs := s1.ver.epochs.dropLast } s1
      match accountFault s v with
        | none => syncEvent 0x22 0x58 s2
        | some (c, m) => syncEvent 0x22 0x58 (report F.VER_ERR_UNACCOUNTABLE 0x0F02 ADVISE
            (v.n % 2 ^ 16 + 2 ^ 16 * c + 2 ^ 32 * min m (2 ^ 32 - 1)) (prod 127 1 s2))

/-- WITNESS_ACCOUNTING_CLOSE (R463, R464). -/
def execWitnessAccountingClose (s : State) : Host.Outcome State Fault Refusal := .next (accountClose s)

/-! Reassembly at a tray (R457, R462). -/

/-- The forwarded record's epoch is the tray's in progress, or the one before it in its window. -/
def trayEpoch (s : State) (d e : Nat) : Bool :=
  let n := epochNow s d
  e == n || (e + 1 == n && decide (ns0 s < boundaryOf s d n + get s F.VER_CTL_WIT_WINDOW * 1000))

def asmOf (s : State) (b : Nat) : Option VAsm := s.ver.asm.find? fun a => a.kid == b
def putAsm (b : Nat) (a : Option VAsm) (s : State) : State :=
  showVer (setVer { s.ver with asm := s.ver.asm.filter (fun x => x.kid != b) ++ a.toList } s)

/-- A record is discarded whole: the fragments of it that follow are dropped up to its LAST. -/
def asmDrop (b cause key : Nat) (last : Bool) (s : State) : State :=
  putAsm b (if last then none else some { kid := b, domain := 0, epoch := 0, need := 0, bytes := [] }) (verDiscard cause b key s)

/-- A FIRST fragment: the header is checked and staging reserved. -/
def asmFirst (p : Pkt) (b key : Nat) (last : Bool) (body : List Byte) (s : State) : State :=
  let need := wLength body
  if !trayEpoch s p.domain p.epoch then asmDrop b 3 key last s
  else if wKind body ≠ 1 || !recordGood body then asmDrop b 2 key last s
  else if (if hostVerify s then decide (regionSize s 6 ≤ haUsed s + 64 * need) else decide (stageSize s < stageUsed s + 64 * need)) then
    asmDrop b 4 key last s
  else putAsm b (some { kid := b, domain := p.domain, epoch := p.epoch, need, bytes := body }) s

/-- A record in reassembly is complete, or goes on. -/
def asmEnd (b key : Nat) (last : Bool) (s : State) : State :=
  match asmOf s b with
  | none => s
  | some a =>
    if a.need = 0 then (if last then putAsm b none s else s)
    else if !last then (if a.bytes.length < 64 * a.need then s else asmDrop b 7 key false s)
    else if a.bytes.length ≠ 64 * a.need then asmDrop b 7 key true s
    else match stage { kid := some b, domain := a.domain, epoch := a.epoch, bytes := a.bytes } (putAsm b none s) with
      | (s1, true) => runOver s1
      | (s1, false) => verDiscard 4 b key s1

/-- A WITNESS fragment of a child. -/
def witnessReceive (s : State) : State :=
  match takePkt [0x30] s with
  | none => s
  | some (_, p, s1) =>
    if inReset s1 1 || !on s1 F.VER_CTL_EN || pers s1 != 2 then s1
    else
      let b := p.childBit
      let key := leAt p.payload 0 8
      let beat := leAt p.payload 8 4
      let fl := leAt p.payload 12 1
      let first := fl % 2 == 1
      let last := fl / 2 % 2 == 1
      let body := p.payload.drop 16
      match asmOf s1 b with
      | none => asmEnd b key last (if first then asmFirst p b key last body s1 else asmDrop b 7 key last s1)
      | some a =>
        if first then
          asmEnd b key last (asmFirst p b key last body (if a.need = 0 then putAsm b none s1 else putAsm b none (verDiscard 7 b (wKey a.bytes) s1)))
        else if a.need = 0 then asmEnd b key last s1
        else if beat * 64 ≠ a.bytes.length then asmDrop b 7 key last s1
        else asmEnd b key last (putAsm b (some { a with bytes := a.bytes ++ body }) s1)

/-- WITNESS_RECEIVE (R462). -/
def execWitnessReceive (s : State) : Host.Outcome State Fault Refusal := .next (witnessReceive s)

/-! Registers. -/

/-- The commands of VER_SUBJs_STATE (R477). -/
def subjCommand (i : Nat) (acc : Acc) (s : State) : State :=
  let s1 := if wrote1 acc (F.VER_SUBJ_STATE_CLEAR i) then subjMove i 0 0 s else s
  if wrote1 acc (F.VER_SUBJ_STATE_OBSERVE i) then subjMove i 1 0 s1 else s1

/-- The unit's treatment of a write to the VER page. -/
def verWrite (a : Nat) (acc : Acc) (s : State) : State :=
  let s1 := perform a acc s
  if 0x0F0100 ≤ a ∧ a < 0x0F0200 then subjCommand ((a - 0x0F0100) / 8) acc s1
  else showArr (showVer (showCapacity s1))

/-- SUBJECT_OBSERVE (R477). -/
def execSubjectObserve (i : Nat) (acc : Acc) (s : State) : Host.Outcome State Fault Refusal :=
  .next (portWrite verWrite (F.VER_SUBJ_STATE_OBSERVE i).addr (force (F.VER_SUBJ_STATE_OBSERVE i) 1 acc) s)
/-- SUBJECT_CLEAR (R477). -/
def execSubjectClear (i : Nat) (acc : Acc) (s : State) : Host.Outcome State Fault Refusal :=
  .next (portWrite verWrite (F.VER_SUBJ_STATE_CLEAR i).addr (force (F.VER_SUBJ_STATE_CLEAR i) 1 acc) s)

end Sys2Proof.Machine
end

