-- ==== Sys2Proof/Machine/FieldTest.lean ====
section
/-!
DEFINITION. The field test (R481 to R490): tests between arrays, spares, probe tiles and campaigns; the records that the own host
sends on the witness channel; what a CALC reset does to the verifier (R492).
-/
namespace Sys2Proof.Machine

/-! Tests between arrays (R426, R483 to R486). -/

/-- An array takes part in a field test: in service, or the spare under test. -/
def fieldArray (s : State) (a : Nat) : Bool :=
  avail s a || (match s.flt.spare with | some (x, _) => x == a | none => false)

/-- FIELD's cap on an array, a pass of `cycles` included (R426). -/
def fieldCap (s : State) (a cycles : Nat) : Bool :=
  let n := if observing s then get s F.ARR_SHARE_FIELD_OBS else get s F.ARR_SHARE_FIELD_SVC
  decide ((cyclesIn s a 2 + cycles) * 2 ^ n ≤ 65536)

/-- R426 grants a FIELD pass on an array. -/
def fieldGrant (s : State) (a cycles : Nat) : Bool :=
  fieldArray s a && fieldCap s a cycles &&
    (if observing s then (scoringJob s a true).isNone && !belowFloor s a else (arrChoice s a).isNone)

/-- A spare passes or fails a test (R486). -/
def spareTested (a b : Nat) (differ : Bool) (s : State) : State :=
  match s.flt.spare with
  | none => s
  | some (x, n) =>
    if x ≠ a ∧ x ≠ b then s
    else if differ then retire x (setFlt { s.flt with spare := none } s)
    else if 1 < n then setFlt { s.flt with spare := some (x, n - 1) } s
    else
      let s1 := setBit (setFlt { s.flt with spare := none } s) F.ARR_AVAIL_AVAIL x true
      showCapacity (note 0x1003 INFO x s1)

/-- The marks of a failed test (R484): `da` and `db` tell whether the result of an array differs from the referee's, or, with
no third array in service, whether its own two results differ. -/
def testMarks (a b : Nat) (da db : Bool) (s : State) : State :=
  let third := (inService s).any fun x => x != a && x != b
  if third then (if db then mark b else id) ((if da then mark a else id) s)
  else if da && !db then mark a s
  else if db && !da then mark b s
  else mark b (mark a s)

/-- A field test on arrays `a` and `b` ends: its cycles, whether the results differ, the outcome of the re-runs, a residue
mismatch (array, re-run succeeded), an uncorrectable error (array, SRAM word). -/
def fieldTest (a b cycles : Nat) (differ da db : Bool) (residue : Option (Nat × Bool)) (ecc : Option (Nat × Nat)) (s : State) : State :=
  let off := !on s F.FLT_CTL_EN || !on s F.ARR_CTL_EN || inReset s 1 || held s 0x10 || held s 0x0D || decide (3 ≤ fenceState s 1) || s.clk.stopped
    || get s F.FLT_CTL_FMT_MASK % 2 ^ 15 == 0
  if off || a == b || !(avail s a || avail s b) || !fieldGrant s a cycles || !fieldGrant s b cycles then s
  else
    let t := get s F.FLT_STATUS_TESTS
    let s1 := serve b 2 cycles (serve a 2 cycles (prod 131 1 (set s F.FLT_STATUS_TESTS (t + 1))))
    let s2 := match residue with | some (x, ok) => residueError x 2 ok s1 | none => s1
    let s3 := match ecc with | some (x, w) => eccError x w s2 | none => s2
    let lost := ecc.isSome || (match residue with | some (_, ok) => !ok | none => false)
    let bad := differ && !lost
    let s4 := if !bad then s3
      else testMarks a b da db (report F.FLT_ERR_FT_FAIL 0x1001 ADVISE (a + 256 * b + 2 ^ 32 * t) (bump (prod 132 1 s3) F.FLT_STATUS_FAILS 1))
    showArr (retireCheck (if lost then s4 else spareTested a b differ s4))

/-- FIELD_TEST_DONE (R483, R484). -/
def execFieldTestDone (a b cycles : Nat) (differ da db : Bool) (residue : Option (Nat × Bool)) (ecc : Option (Nat × Nat)) (s : State) :
    Host.Outcome State Fault Refusal := .next (fieldTest a b cycles differ da db residue ecc s)

/-! Probes (R487 to R490). -/

/-- The tile of a probe; PROBE_ID is the number of its test. -/
def probeTile (s : State) (p : Probe) : Tile :=
  genTile (rd s F.FLT_SEED0_SEED.addr) (rd s F.FLT_SEED1_SEED.addr) p.t p.m p.n p.k p.fmt p.fmt

/-- The key of a probe for an engine (R454). -/
def probeKey (p : Probe) (engine : Nat) : Nat := engine * 2 ^ 58 + p.id % 2 ^ 32

/-- The header and sections of a PROBE record. -/
def probeBytes (s : State) (p : Probe) (engine : Nat) : List Byte :=
  let t := probeTile s p
  let head (len : Nat) : List Byte := leBytes 1 4 ++ leBytes 1 p.rule ++ leBytes 1 (p.fmt + 16 * p.fmt) ++ leBytes 1 0 ++ leBytes 2 p.m
    ++ leBytes 2 p.n ++ leBytes 2 p.k ++ leBytes 2 0 ++ leBytes 4 len ++ leBytes 8 (probeKey p engine) ++ leBytes 40 0
  head (wLengthOf (head 0)) ++ t.a ++ t.b ++ t.scales

/-- The campaign ends and its result posts (R490). -/
def campaignEnd (status : Nat) (s : State) : State :=
  match s.flt.campaign with
  | none => s
  | some (seq, _, _, _, _) =>
    let s1 := set (setFlt { s.flt with campaign := none } s) F.FLT_PROBE_CMD_START 0
    note 0x1005 INFO (get s F.FLT_PROBE_STATS_PASSED + 2 ^ 32 * get s F.FLT_PROBE_STATS_FAILED)
      (post F.FLT_PROBE_RESULT_SEQ.addr seq (BitVec.ofNat 64 status) s1)

/-- A probe is over: the campaign ends with its last probe, or after an ABORT. -/
def probeOver (s : State) : State :=
  let s1 := setFlt { s.flt with probe := none } s
  match s1.flt.campaign with
  | some (_, left, _, _, aborted) => if aborted then campaignEnd 3 s1 else if left = 0 then campaignEnd 0 s1 else s1
  | none => s1

/-- A count of FLT_PROBE_STATS for a probe of the campaign. -/
def probeStat (p : Probe) (f : Field) (s : State) : State := if p.campaign then bump s f 1 else s

/-- START of FLT_PROBE_CMD (R487); BUSY under a fence of CALC (R567). -/
def probeStart (s : State) : State :=
  let seq := get s F.FLT_PROBE_CMD_SEQ
  let g (f : Field) : Nat := get s f
  let m := g F.FLT_PROBE_CTL_M
  let n := g F.FLT_PROBE_CTL_N
  let k := g F.FLT_PROBE_CTL_K
  if valid s F.FLT_PROBE_RESULT_SEQ.addr then set s F.FLT_PROBE_CMD_START (if s.flt.campaign.isSome then 1 else 0)
  else if s.flt.campaign.isSome || pageFenced s 0x10 then post F.FLT_PROBE_RESULT_SEQ.addr seq 1 s
  else if g F.FLT_PROBE_CMD_COUNT = 0 ∨ m = 0 ∨ 256 < m ∨ n = 0 ∨ 256 < n ∨ k = 0 ∨ 8192 < k ∨ 14 < g F.FLT_PROBE_CTL_FMT ∨ pers s = 3 then
    post F.FLT_PROBE_RESULT_SEQ.addr seq 2 (set s F.FLT_PROBE_CMD_START 0)
  else
    let b := if on s F.FLT_PROBE_CMD_PAIR then some (g F.FLT_PROBE_CMD_ENG_B) else none
    setFlt { s.flt with campaign := some (seq, g F.FLT_PROBE_CMD_COUNT, g F.FLT_PROBE_CMD_ENG_A, b, false) }
      (wr (set s F.FLT_PROBE_CMD_START 1) F.FLT_PROBE_STATS_PASSED.addr 0)

/-- ABORT: the campaign ends after the probe in flight (R490). -/
def probeAbort (s : State) : State :=
  match s.flt.campaign with
  | none => s
  | some (q, left, a, b, _) =>
    let s1 := setFlt { s.flt with campaign := some (q, left, a, b, true) } s
    match s.flt.probe with
    | some p => if p.campaign then s1 else campaignEnd 3 s1
    | none => campaignEnd 3 s1

/-- Two consecutive engines of VER_ENG_MASK from the rotation on (R479). -/
def rotation (s : State) : List Nat :=
  (((List.range 64).map fun i => (s.flt.rotate + i) % 64).filter fun e => (get s F.VER_ENG_MASK_MASK).testBit e).take 2

/-- New probe tiles to an engine are held: its current tag names a host domain that is fenced (R567). -/
def probeHeld (s : State) (e : Nat) : Bool :=
  match s.eop.tags.find? fun t => t.1 == e with
  | some (_, c, _, _) => decide (c / 2 ^ 24 % 256 < 32) && fenced s (32 + c / 2 ^ 24 % 256)
  | none => fenced s 32

/-- The next probe is sent: of the campaign, or of an observed host (R479, R487). `errs` are elements of its reference that
the arrays compute wrongly without notice. -/
def probeIssue (errs : List (Nat × Nat × Nat)) (s : State) : State :=
  if s.flt.probe.isSome || inReset s 1 || inReset s 5 || !on s F.EOP_STATUS_LINK_UP || held s 0x10 || pageFenced s 0x10 || pers s == 3 then s
  else
    let pick : Option (List Nat × Bool × FltSt) := match s.flt.campaign with
      | some (q, n + 1, a, b, false) => some (a :: b.toList, true, { s.flt with campaign := some (q, n, a, b, false) })
      | _ =>
        let es := rotation s
        if subjState s 0 = 1 ∧ !es.isEmpty then some (es, false, { s.flt with rotate := (es.getLastD 0 + 1) % 64 }) else none
    match pick with
    | none => s
    | some (es, camp, f) =>
      if es.any (probeHeld s) then s else
      let p : Probe :=
        { id := f.nextId, t := f.nextId, m := get s F.FLT_PROBE_CTL_M, n := get s F.FLT_PROBE_CTL_N, k := get s F.FLT_PROBE_CTL_K,
          fmt := get s F.FLT_PROBE_CTL_FMT, rule := get s F.FLT_PROBE_CTL_ARULE, engines := es, sent := s.tim.tb2, campaign := camp, errs }
      let s1 := setFlt { f with probe := some p, nextId := (f.nextId + 1) % 2 ^ 32 } s
      es.foldl (fun s e => emit (.probe e (probeBytes s p e)) s) (prod 128 1 s1)

/-- PROBE_ISSUE (R487). -/
def execProbeIssue (errs : List (Nat × Nat × Nat)) (s : State) : Host.Outcome State Fault Refusal := .next (probeIssue errs s)

/-- The elements of an engine's result that differ from a reference (R469). -/
def probeFails (t : Tile) (p : Probe) (errs : List (Nat × Nat × Nat)) (c : List Byte) : List (Nat × Nat × Nat) := failing t c p.rule 0 errs

/-- An engine fails a probe (R488). -/
def engineFail (p : Probe) (t : Tile) (s : State) (e : Nat) : State :=
  let c := (look e p.results).getD []
  let fs := probeFails t p p.errs c
  let f := fs.headD (0, 0, 0)
  let d := seedDomain s
  let b := leBytes 16 0 ++ leBytes 8 (probeKey p e) ++ leBytes 8 0
  subjFail 0 d (epochNow s d) 0x15 12 (failLayout b f.1 f.2.1 fs.length (hostBits t c f.1 f.2.1) f.2.2)
    (probeStat p F.FLT_PROBE_STATS_FAILED (flag F.FLT_ERR_PROBE_FAIL (prod 130 1 s)))

/-- The results of a probe are all in (R488). -/
def probeJudge (p : Probe) (s : State) : State :=
  let t := probeTile s p
  let bad := p.engines.filter fun e => !(probeFails t p p.errs ((look e p.results).getD [])).isEmpty
  let d := seedDomain s
  let same : Bool := match p.results with
    | [x, y] => x.2 == y.2
    | _ => true
  if bad.isEmpty then
    probeOver (subjPass 0 d (epochNow s d) (probeStat p F.FLT_PROBE_STATS_PASSED (prod 129 1 s)))
  else if bad.length = p.engines.length ∧ same then setFlt { s.flt with probe := some { p with waits := true } } s
  else probeOver (bad.foldl (engineFail p t) s)

/-- A PROBE_RESULT record (R457, R488). -/
def probeResult (engine : Nat) (b : List Byte) (s : State) : State :=
  let key := wKey b
  if !recordGood b || wEngine b != engine then verDiscard 2 engine key s
  else match s.flt.probe with
    | none => verDiscard 1 engine key s
    | some p =>
      if p.waits || p.id != key % 2 ^ 32 || !p.engines.contains engine || (look engine p.results).isSome then verDiscard 1 engine key s
      else
        let p1 := { p with results := store engine (b.drop 64) p.results }
        let s1 := setFlt { s.flt with probe := some p1 } (runOver s)
        if p1.results.length < p1.engines.length then s1 else probeJudge p1 s1

/-- The confirming re-run for a probe's differing result (R471, R488): `errs` are wrong elements of the second reference,
`arrays` those that computed the references. -/
def probeConfirm (errs : List (Nat × Nat × Nat)) (arrays : List Nat) (s : State) : State :=
  match s.flt.probe with
  | none => s
  | some p =>
    if !p.waits then s
    else
      let t := probeTile s p
      let c := (look (p.engines.headD 0) p.results).getD []
      let own := match p.engines with
        | [_] => (probeFails t p p.errs c).any fun f => refBits t p.rule errs f.1 f.2.1 != f.2.2
        | _ => (probeFails t p errs c).isEmpty
      if own then probeOver (retireCheck (ownError 2 arrays (arrays.dedup.foldl (fun s a => mark a s) s)))
      else probeOver (p.engines.foldl (engineFail p t) s)

/-- VERIFY_CONFIRM_DONE (R471 to R473, R488): of the oldest staged record, or of the probe that waits. -/
def execVerifyConfirmDone (probe : Bool) (errs : List (Nat × Nat × Nat)) (arrays : List Nat) (s : State) : Host.Outcome State Fault Refusal :=
  .next (if probe then (if inReset s 1 then s else probeConfirm errs arrays s) else confirmDone errs s)

/-- A probe's result has not arrived within PRB_TMO (R489). -/
def probeTimeout (s : State) : State :=
  match s.flt.probe with
  | none => s
  | some p =>
    if p.waits then s
    else
      let s1 := reachBase 2 (p.sent + get s F.FLT_PROBE_CTL_PRB_TMO * 1000 * 2 ^ 48) s
      let e := (p.engines.find? fun e => (look e p.results).isNone).getD 0
      probeOver (report F.FLT_ERR_PROBE_NOANS 0x1004 ADVISE (e + 2 ^ 32 * (p.id % 2 ^ 32)) (probeStat p F.FLT_PROBE_STATS_NOANSWER s1))

/-- PROBE_TIMEOUT (R489). -/
def execProbeTimeout (s : State) : Host.Outcome State Fault Refusal := .next (probeTimeout s)

/-! The witness channel. -/

/-- A record of the own host. -/
def witnessRecord (engine : Nat) (beats : List (BitVec 512)) (cut : Bool) (s : State) : State :=
  match witnessIn beats cut s with
  | (s1, none) => s1
  | (s1, some b) => if wKind b = 3 then probeResult (engine % 64) b s1 else hostRecord (engine % 64) b s1

/-- WITNESS_RECORD (R452, R457). -/
def execWitnessRecord (engine : Nat) (beats : List (BitVec 512)) (cut : Bool) (s : State) : Host.Outcome State Fault Refusal :=
  .next (witnessRecord engine beats cut s)
/-- PROBE_RESULT_RECORD (R488). -/
def execProbeResultRecord (engine : Nat) (beats : List (BitVec 512)) (cut : Bool) (s : State) : Host.Outcome State Fault Refusal :=
  .next (witnessRecord engine beats cut s)

/-! Registers and reset. -/

/-- The unit's treatment of a write to the FLT page. -/
def fltWrite (a : Nat) (acc : Acc) (s : State) : State :=
  if a = F.FLT_PROBE_RESULT_SEQ.addr then consume a acc s
  else
    let busy := s.flt.campaign.isSome
    let s1 := perform a acc s
    if a = F.FLT_PROBE_CMD_START.addr then
      let s2 := if wrote1 acc F.FLT_PROBE_CMD_START then probeStart s1 else set s1 F.FLT_PROBE_CMD_START (if busy then 1 else 0)
      if wrote1 acc F.FLT_PROBE_CMD_ABORT then probeAbort s2 else s2
    else s1

/-- PROBE_CAMPAIGN_START (R487). -/
def execProbeCampaignStart (acc : Acc) (s : State) : Host.Outcome State Fault Refusal :=
  .next (portWrite fltWrite F.FLT_PROBE_CMD_START.addr (force F.FLT_PROBE_CMD_START 1 acc) s)
/-- PROBE_CAMPAIGN_ABORT (R490). -/
def execProbeCampaignAbort (acc : Acc) (s : State) : Host.Outcome State Fault Refusal :=
  .next (portWrite fltWrite F.FLT_PROBE_CMD_START.addr (force F.FLT_PROBE_CMD_ABORT 1 acc) s)

/-- What a CALC reset does to the verifier before its registers reset (R492). -/
def verifierReset (s : State) : State :=
  let n := s.ver.staged.length + (s.ver.asm.filter fun a => a.need != 0).length + (if s.flt.probe.isSome then 1 else 0)
  let s1 := setVer { s.ver with staged := [], asm := [], judged := [], discards := none,
                                epochs := s.ver.epochs.map fun v => { v with marked := true } }
    (campaignEnd 3 (setFlt { s.flt with probe := none, spare := none } s))
  if n = 0 then s1 else note 0x0F01 ADVISE (8 + 2 ^ 16 * n) s1

end Sys2Proof.Machine
end

