-- ==== Sys2Proof/Machine/Keepsake.lean ====
section
/-!
DEFINITION. The Keepsake Port's register commands (R172 to R179): refusal, transfer, status poll and result.
-/
namespace Sys2Proof.Machine

/-- The statuses of KSP_CMD_RESULT. -/
def kspOK : Nat := 0
def kspPROT : Nat := 1
def kspTMO : Nat := 2
def kspDEVERR : Nat := 3
def kspABORTED : Nat := 4
def kspABSENT : Nat := 5
def kspBUSY : Nat := 6

/-- The loader has an image to fetch: an Itinerary slot, a firmware slot or a firmware image to stage (R40, R631, R632). -/
def loaderWants (s : State) : Bool :=
  get s F.ITN_STATUS_STATE == 1 || get s F.CTL_STATUS_FW_STATE == 1 || s.ctl.stage.isSome

/-- The transfer of the register command leaves the port. -/
def kspSend (c : KspCmd) (s : State) : State := emit (.ksp c.cs c.op c.addr c.data) s

/-- The loader takes the port unless another owner has it (R176). -/
def loaderTake (s : State) : State := if get s F.KSP_STATUS_OWNER = 0 then set s F.KSP_STATUS_OWNER 2 else s

/-- The owner's transfer has ended: the port goes to the loader if `loader` says that it waits, else to a register command that waits,
which sends its transfer now, else to none (R176). -/
def portRelease (loader : Bool) (s : State) : State :=
  if loader then set s F.KSP_STATUS_OWNER 2
  else match s.ksp.cmd with
    | some c => kspSend c (set s F.KSP_STATUS_OWNER 3)
    | none => set s F.KSP_STATUS_OWNER 0

/-- The loader gives the port up. -/
def loaderFree (s : State) : State := if get s F.KSP_STATUS_OWNER = 2 then portRelease false s else s

/-- A command ends with a status: its result posts, START clears, and the port passes on (R176, R177). -/
def kspEnd (seq st : Nat) (s : State) : State :=
  let s1 : State := { s with ksp := { s.ksp with cmd := none } }
  let s2 := if get s F.KSP_STATUS_OWNER = 3 then portRelease (loaderWants s) s1 else s1
  post F.KSP_CMD_RESULT_SEQ.addr seq (BitVec.ofNat 64 st) (startDone F.KSP_CMD_START s2)

/-- The Itinerary slot that a NOR address lies in, as ITN_STATUS.BOOT_SLOT counts: A is 1, B is 2, 8 MiB each (R40); 0 beyond
them. -/
def norSlot (addr : Nat) : Nat := if addr < 0x800000 then 1 else if addr < 0x1000000 then 2 else 0

/-- A program or erase of the slot that ITN_STATUS.BOOT_SLOT names (R178). -/
def kspSlotProt (s : State) (cs addr : Nat) : Bool :=
  cs == 1 && norSlot addr != 0 && norSlot addr == get s F.ITN_STATUS_BOOT_SLOT

/-- The refusals of R178: a program or erase in the running NOR slot, a program in the Strongbox area below Secure, and a
range that crosses a page or sector boundary. An erase or a status read on CS0, which the port does not use (R174), is
refused alike (DESIGN CHOICE, log 13). -/
def kspProt (s : State) (priv : Priv) (op cs addr len : Nat) : Bool :=
  match op with
  | 1 => kspSlotProt s cs addr || (cs == 0 && decide (addr < 0x100000) && priv != .S) || decide (256 < addr % 256 + len)
  | 2 => kspSlotProt s cs addr || cs == 0 || addr % 65536 != 0
  | 3 => cs == 0
  | _ => false

/-- The data bytes of KSP_CMD_DATA. -/
def kspData (s : State) (n : Nat) : List Byte :=
  ((List.range 32).flatMap fun i => wordBytes (rd s (F.KSP_CMD_DATA_DATA i).addr)).take n

/-- A command starts (R176 to R178): BUSY while one is outstanding, ignored while a result is unconsumed (R639), PROT by R178;
otherwise it takes the port, or waits for its owner. -/
def kspStart (priv : Priv) (s : State) : State :=
  let seq := get s F.KSP_CMD_SEQ
  let op := get s F.KSP_CMD_OP
  let cs := get s F.KSP_CMD_CS
  let addr := get s F.KSP_CMD_ADDR_ADDR
  let len := get s F.KSP_CMD_LEN_M1 + 1
  match s.ksp.cmd with
  | some _ => post F.KSP_CMD_RESULT_SEQ.addr seq (BitVec.ofNat 64 kspBUSY) s
  | none =>
    if valid s F.KSP_CMD_RESULT_SEQ.addr || s.clk.stopped then s
    else if kspProt s priv op cs addr len then kspEnd seq kspPROT (flag F.KSP_ERR_PROT s)
    else
      let bytes := if op = 1 then kspData s len else []
      let s1 := set s F.KSP_CMD_START 1
      let s2 : State := { s1 with ksp := { s1.ksp with cmd := some { op, cs, addr, len, data := bytes, seq, polling := false } } }
      if get s F.KSP_STATUS_OWNER = 0 then portRelease false s2 else s2

/-- The unit's treatment of a write to the KSP page. -/
def kspWrite (a : Nat) (acc : Acc) (s : State) : State :=
  if a = F.KSP_CMD_RESULT_SEQ.addr then consume a acc s
  else
    let s1 := perform a acc s
    if a = F.KSP_CMD_START.addr ∧ wrote1 acc F.KSP_CMD_START then kspStart acc.priv s1 else s1

/-- The row commands: KSP_CMD with START and an operation. -/
def kspRow (op : Nat) (acc : Acc) (s : State) : State :=
  portWrite kspWrite F.KSP_CMD_START.addr (force F.KSP_CMD_START 1 (force F.KSP_CMD_OP op acc)) s

/-- KSP_READ (R177). -/
def execKspRead (acc : Acc) (s : State) : Host.Outcome State Fault Refusal := .next (kspRow 0 acc s)
/-- KSP_PAGE_PROGRAM (R178). -/
def execKspPageProgram (acc : Acc) (s : State) : Host.Outcome State Fault Refusal := .next (kspRow 1 acc s)
/-- KSP_SECTOR_ERASE (R178). -/
def execKspSectorErase (acc : Acc) (s : State) : Host.Outcome State Fault Refusal := .next (kspRow 2 acc s)
/-- KSP_READ_STATUS (R174). -/
def execKspReadStatus (acc : Acc) (s : State) : Host.Outcome State Fault Refusal := .next (kspRow 3 acc s)

/-- The presence bit of a chip select. -/
def csPresent (cs : Nat) : Field := if cs = 0 then F.KSP_STATUS_CS0_PRESENT else F.KSP_STATUS_CS1_PRESENT

/-- Read data stand in KSP_CMD_DATA (R177). -/
def putKspData (bs : List Byte) (s : State) : State :=
  (List.range ((bs.length + 7) / 8)).foldl (fun s i =>
    if i < 32 then wr s (F.KSP_CMD_DATA_DATA i).addr (BitVec.ofNat 64 (leAt bs (8 * i) 8)) else s) s

/-- A transfer of the register command completes (R175, R177): an absent device gives ABSENT and record 0x1D01; a read
posts its data; a program on CS0 ends, and a program or erase on CS1 goes on to the status poll (R174, R179). -/
def kspDone (present : Bool) (bytes : List Byte) (s : State) : State :=
  match s.ksp.cmd with
  | none => s
  | some c =>
    if c.polling || get s F.KSP_STATUS_OWNER == 1 || get s F.KSP_STATUS_OWNER == 2 then s
    else if (c.op = 0 ∨ c.op = 3) ∧ !present then
      kspEnd c.seq kspABSENT (report F.KSP_ERR_ABSENT 0x1D01 FAULT 0 (set s (csPresent c.cs) 0))
    else if c.op = 0 then kspEnd c.seq kspOK (putKspData (padTo c.len bytes) (set s (csPresent c.cs) 1))
    else if c.op = 3 then kspEnd c.seq kspOK (putKspData (padTo 1 bytes) (set s (csPresent c.cs) 1))
    else if c.cs = 0 then kspEnd c.seq kspOK s
    else { s with ksp := { s.ksp with cmd := some { c with polling := true } } }

/-- KSP_CMD_DONE (R177). -/
def execKspCmdDone (present : Bool) (bytes : List Byte) (s : State) : Host.Outcome State Fault Refusal :=
  .next (kspDone present bytes s)

/-- The poll finds busy clear; status bit 5 ends the command DEV_ERR (R179). -/
def kspPoll (err : Bool) (s : State) : State :=
  match s.ksp.cmd with
  | none => s
  | some c =>
    if !c.polling then s
    else if err then kspEnd c.seq kspDEVERR (report F.KSP_ERR_DEV_ERR 0x1D02 FAULT 0 s)
    else kspEnd c.seq kspOK s

/-- KSP_POLL_DONE (R179). -/
def execKspPollDone (err : Bool) (s : State) : Host.Outcome State Fault Refusal := .next (kspPoll err s)

/-- The poll limit passes (R179). -/
def kspPollTimeout (s : State) : State :=
  match s.ksp.cmd with
  | none => s
  | some c => if !c.polling then s else kspEnd c.seq kspTMO (report F.KSP_ERR_TMO 0x1D03 FAULT 0 s)

/-- KSP_POLL_TIMEOUT (R179). -/
def execKspPollTimeout (s : State) : Host.Outcome State Fault Refusal := .next (kspPollTimeout s)

/-- A Strongbox save takes the port (R176): a register command in progress ends ABORTED. -/
def kspPreempt (s : State) : State :=
  let s1 := match s.ksp.cmd with
    | none => s
    | some c => kspEnd c.seq kspABORTED (flag F.KSP_ERR_PREEMPTED s)
  set s1 F.KSP_STATUS_OWNER 1

/-- KSP_RESET_N rises 10 µs after the release of cold reset (R172). -/
def kspResetRelease (s : State) : State := if s.clk.pwron then { s with clk := { s.clk with kspReset := true } } else s

/-- KSP_RESET_RELEASE (R172). -/
def execKspResetRelease (s : State) : Host.Outcome State Fault Refusal := .next (kspResetRelease s)

end Sys2Proof.Machine
end

