-- ==== Sys2Proof/Machine/Image.lean ====
section
/-!
DEFINITION. Itinerary images (R27 to R38, R61): header, directory, sections, and the checks the block makes on every image it
loads, each with its rejection code. Byte layouts that the spec does not give are choices of the model (log 44).
-/
namespace Sys2Proof.Machine

/-- An entry of the section directory with the section's bytes (R29). -/
structure Section where
  type : Nat
  inst : Nat
  off : Nat
  size : Nat
  cls : Nat
  scope : Nat
  rsvd : Nat
  bytes : List Byte
  deriving DecidableEq, Repr

/-- Class, scope, entry bytes and maximum entries of a section type (R31). -/
def secInfo : Nat → Option (Nat × Nat × Nat × Nat)
  | 1 => some (2, 0, 24, 4096)
  | 2 => some (2, 0, 64, 1)
  | 3 => some (2, 0, 16, 32)
  | 4 => some (1, 0, 8, 65536)
  | 5 => some (0, 0, 4, 16384)
  | 6 => some (2, 0, 16, 1)
  | 7 => some (1, 0, 4, 1024)
  | 8 => some (0, 1, 16, 4096)
  | 9 => some (1, 0, 16, 512)
  | 10 => some (0, 0, 16, 512)
  | 11 => some (0, 1, 8, 16384)
  | 12 => some (1, 0, 8, 1)
  | 13 => some (1, 0, 8, 256)
  | _ => none

/-! Header (R27, R28). -/

def hKind (b : List Byte) : Nat := leAt b 5 1
def hPers (b : List Byte) : Nat := leAt b 6 1
def hSeq (b : List Byte) : Nat := leAt b 8 4
def hLength (b : List Byte) : Nat := leAt b 12 4
def hSections (b : List Byte) : Nat := leAt b 16 2
def hBase (b : List Byte) : List Byte := (b.drop 20).take 48

/-- The header's code: MAGIC, FORMAT, KIND and the bytes that are 0 (1), LENGTH (2), PERS (6), or 0. -/
def headerCode (kind : Nat) (b : List Byte) : Nat :=
  if b.take 4 ≠ [0x49, 0x54, 0x49, 0x4E] ∨ leAt b 4 1 ≠ 3 ∨ hKind b ≠ kind ∨ leAt b 7 1 ≠ 0 ∨ leAt b 18 2 ≠ 0
      ∨ !((b.drop 68).take 28).all (· == 0) ∨ (kind = 0 ∧ !(hBase b).all (· == 0)) then 1
  else if hLength b = 0 ∨ hLength b % 64 ≠ 0 ∨ (if kind = 0 then 8388608 else 1048576) < hLength b ∨ hLength b < 416 then 2
  else if hPers b < 1 ∨ 3 < hPers b then 6
  else 0

/-- A slot header is well formed (R40). -/
def headerGoodItn (b : Option (List Byte)) : Bool :=
  match b with
  | some h => headerCode 0 h == 0 && decide (1 ≤ hSections h) && decide (hSections h ≤ 64)
  | none => false

/-! Directory (R29, R30). -/

def sectionAt (img : List Byte) (i : Nat) : Section :=
  let o := 96 + 16 * i
  { type := leAt img o 2, inst := leAt img (o + 2) 2, off := leAt img (o + 4) 4, size := leAt img (o + 8) 4, cls := leAt img (o + 12) 1,
    scope := leAt img (o + 13) 1, rsvd := leAt img (o + 14) 2, bytes := (img.drop (leAt img (o + 4) 4)).take (leAt img (o + 8) 4) }
def sections (img : List Byte) : List Section := (List.range (hSections img)).map (sectionAt img)

/-- An entry of the directory by itself. -/
def sectionGood (img : List Byte) (e : Section) : Bool :=
  match secInfo e.type with
  | none => false
  | some (c, sc, n, _) => e.inst == 0 && e.cls == c && e.scope == sc && e.rsvd == 0 && e.off % 64 == 0 && e.size % n == 0
      && decide (96 + 16 * hSections img ≤ e.off) && decide (e.off + e.size + 320 ≤ hLength img)

def noOverlap : List Section → Bool
  | [] => true
  | e :: l => (l.all fun f => decide (e.off + e.size ≤ f.off) || decide (f.off + f.size ≤ e.off) || e.size == 0 || f.size == 0)
      && noOverlap l

def directoryGood (img : List Byte) : Bool :=
  decide (1 ≤ hSections img) && decide (hSections img ≤ 64) && decide (96 + 16 * hSections img + 320 ≤ hLength img)
    && (sections img).all (sectionGood img) && decide ((sections img).map Section.type).Nodup && noOverlap (sections img)

/-! Section contents. -/

/-- The entries of a section. -/
def entryList (n : Nat) (b : List Byte) : List (List Byte) := (List.range (b.length / n)).map fun i => (b.drop (n * i)).take n

def secBytes (t : Nat) (cfg : List (Nat × List Byte)) : Option (List Byte) := (cfg.find? fun e => e.1 == t).map Prod.snd
def secEntries (t : Nat) (cfg : List (Nat × List Byte)) : List (List Byte) :=
  match secInfo t, secBytes t cfg with
  | some (_, _, n, _), some b => entryList n b
  | _, _ => []

/-- STRUCTURE: arrays, spares, tree engines, their lanes, cores, downstream and upstream fabric lanes, queues, level (log 44). -/
def stArrays (b : List Byte) : Nat := leAt b 0 1
def stSpares (b : List Byte) : Nat := leAt b 1 1
def stTrees (b : List Byte) : Nat := leAt b 2 1
def stLanes (b : List Byte) : Nat := leAt b 3 1
def stCores (b : List Byte) : Nat := leAt b 4 1
def stDown (b : List Byte) : Nat := leAt b 5 1
def stUp (b : List Byte) : Nat := leAt b 6 1
def stQueues (b : List Byte) : Nat := leAt b 8 2
def stLevel (b : List Byte) : Nat := leAt b 10 1

/-- The limits of R3 (R34). -/
def structureGood (p : Nat) (b : List Byte) : Bool :=
  if p = 1 then
    decide (stArrays b ≤ 2) && stSpares b == 0 && stTrees b == 1 && stLanes b == 32 && stCores b == 4 && stDown b == 0 && stUp b == 1
      && decide (stQueues b ≤ 64) && stLevel b == 0
  else
    decide (stArrays b ≤ 48) && decide (stSpares b ≤ (if p = 2 then 4 else 0)) && decide (stSpares b ≤ stArrays b)
      && decide (1 ≤ stTrees b) && decide (stTrees b ≤ 4) && (stLanes b == 32 || stLanes b == 64) && (stCores b == 4 || stCores b == 8)
      && decide (stDown b ≤ 16) && decide (stUp b ≤ 4) && decide (1 ≤ stDown b + stUp b) && decide (stQueues b ≤ 512)
      && (if p = 2 then stLevel b == 1 else decide (2 ≤ stLevel b) && decide (stLevel b ≤ 4))

/-- An SRAM_PARTITION entry: ID in byte 0, owning unit page in byte 1, base in bytes 4 to 7 and size in bytes 8 to 11, in 64 KiB
units (log 44). -/
def partOf (b : List Byte) : Partition := { id := leAt b 0 1, owner := leAt b 1 1, base := leAt b 4 4 * 65536, size := leAt b 8 4 * 65536 }

/-- The minimum of a partition in KiB (R724). -/
def partMin (p id : Nat) : Nat :=
  let (d, t) := match id with
    | 0 => (512, 4096)
    | 1 => (256, 16384)
    | 2 => (1024, 8192)
    | 3 => (4096, 65536)
    | 4 => (1024, 16384)
    | 5 => (1024, 18432)
    | 6 => (64, 64)
    | 7 => (1536, 1536)
    | 8 => (2048, 32768)
    | 9 => (512, 4096)
    | _ => (64, 64)
  if p = 1 then d else t

def partitionsGood (p : Nat) (l : List (List Byte)) : Bool :=
  let ps := l.map partOf
  decide (ps.map Partition.id).Nodup && decide (ps.foldl (fun n q => n + q.size) 0 ≤ (if p = 1 then 24 else 512) * 1048576)
    && (List.range 11).all fun i => decide (partMin p i * 1024 ≤ ((ps.find? fun q => q.id == i).map Partition.size).getD 0)

/-- The CLOCK_OPTIONS entry (R68). -/
def clockGood (b : List Byte) : Bool :=
  decide (leAt b 0 1 ≤ 1) && decide (leAt b 1 1 < 8) && decide (leAt b 2 1 ≤ 1) && leAt b 3 1 == 0
    && decide (1 ≤ leAt b 4 4) && decide (leAt b 4 4 ≤ 65535) && leAt b 8 8 == 0

/-- The VC of a fabric class, and whether a class is a memory class (R350). -/
def vcOfClass (c : Nat) : Nat := bitsAt (classReset c) 30 2
def memOfClass (c : Nat) : Bool := (classReset c).getLsbD 33

/-- An INK_QUEUES entry (R349) under a structure. -/
def queueGood (p : Nat) (st b : List Byte) : Bool :=
  let c := leAt b 2 1
  let mem := (leAt b 3 1).testBit 7
  let port := leAt b 3 1 % 32
  decide (leAt b 0 2 < (if p = 1 then 64 else 512)) && (decide (c ≤ 13) || (decide (16 ≤ c) && decide (c ≤ 24))) && mem == memOfClass c
    && leAt b 4 1 == vcOfClass c && leAt b 6 2 != 0 && decide (64 ≤ leAt b 8 4) && decide (leAt b 8 4 ≤ 1048576)
    && (if mem then decide (port < (if p = 1 then 2 else 8))
        else if p = 1 then port == 0 else decide (port < stDown st) || (decide (16 ≤ port) && decide (port < 16 + stUp st)))

/-- The fields of an IRQ_GROUPS entry: source, group, target kind and number (log 44). -/
def irqEntry (b : List Byte) : Nat × Nat × Nat × Nat := (leAt b 0 2, leAt b 2 1, leAt b 3 1 / 128, leAt b 3 1 % 128)

/-- The groups of R658: a source lies in one group, and a group has one target. -/
def irqGood (p : Nat) (l : List (List Byte)) : Bool :=
  let es := l.map irqEntry
  es.all fun e =>
    decide (e.1 < (if p = 1 then 256 else 1024)) && decide (e.2.1 < (if p = 1 then 16 else 64)) && decide (e.2.2.2 < 8)
      && es.all fun f => (f.1 != e.1 || f.2.1 == e.2.1) && (f.2.1 != e.2.1 || f.2.2 == e.2.2)

/-- The operations permitted at a level (R289). -/
def opPermitted (lv op : Nat) (half : Bool) : Bool :=
  match op with
  | 0 => true
  | 1 => decide (lv ≤ 3)
  | 2 => lv == 1
  | 3 => lv == 1 || lv == 3
  | 4 => lv == 1
  | 5 => lv == 1 || lv == 3
  | 6 => lv == 1
  | 7 => lv == 1
  | 8 => decide (lv ≤ 2)
  | 9 => decide (lv ≤ 2)
  | 10 => if half then lv == 4 else decide (lv ≤ 3)
  | _ => false

/-- A LEVEL_RULES entry (R35, R288, R289). -/
def ruleGood (b : List Byte) : Bool :=
  let v := leAt b 0 8
  let lv := natBits v 28 4
  let op := natBits v 32 4
  let k := natBits v 36 7
  let half := v.testBit 43
  decide (1 ≤ lv) && decide (lv ≤ 4) && opPermitted lv op half && (v / 2 ^ 44 == 0) && (!half || op == 10)
    && (if op = 8 ∨ op = 9 then decide (1 ≤ k) && decide (k ≤ 64) else k == 0)

/-- The checks of R34, R35, R68, R288, R349, R658 and R724 on the sections `secs`, under the structure `st`. -/
def contentsGood (p : Nat) (st : List Byte) (secs : List (Nat × List Byte)) : Bool :=
  (secEntries 2 secs).all (structureGood p) && (secs.all fun e => e.1 != 3 || partitionsGood p (secEntries 3 secs))
    && (secEntries 6 secs).all clockGood && irqGood p (secEntries 7 secs)
    && (secEntries 9 secs).all (queueGood p st) && decide ((secEntries 9 secs).map fun b => leAt b 0 2).Nodup
    && (secEntries 11 secs).all ruleGood
    && secs.all fun e => match secInfo e.1 with
      | some (_, _, n, m) => decide (e.2.length / n ≤ m) && (m != 1 || e.2.length == n)
      | none => false

/-- The IDENTITY entry of a CHIP_ID (R33). -/
def identityOf (chip : Nat) (secs : List (Nat × List Byte)) : Option (List Byte) :=
  match (secEntries 1 secs).find? fun b => leAt b 0 16 == chip with
  | some b => some b
  | none => (secEntries 1 secs).find? fun b => leAt b 0 16 == 0

/-- The sections by type. -/
def secList (img : List Byte) : List (Nat × List Byte) := (sections img).map fun e => (e.type, e.bytes)

/-- The code of a base image (R38, R30, R32 to R35, R724), or 0. -/
def baseCode (chip : Nat) (img : List Byte) : Nat :=
  let h := headerCode 0 img
  if h ≠ 0 then h
  else if hLength img ≠ img.length then 2
  else
    let e := envelope img 0 (hPers img)
    let secs := secList img
    let st := (secBytes 2 secs).getD []
    if e ≠ 0 then e
    else if !directoryGood img then 3
    else if !([1, 2, 3, 6, 12].all fun t => (secBytes t secs).isSome) || !contentsGood (hPers img) st secs then 7
    else match identityOf chip secs with
      | none => 8
      | some b => if natBits (leAt b 16 4) 24 3 = stLevel st then 0 else 7

/-- The sections with others in place of those of the same type, in order of acceptance (R47, R56). -/
def amend (secs new : List (Nat × List Byte)) : List (Nat × List Byte) :=
  (secs.filter fun e => !(new.any fun f => f.1 == e.1)) ++ new

/-- Units of 64 bytes of the overlay store in use (R56). -/
def storeUnits (l : List (Nat × List Byte)) : Nat := l.foldl (fun n e => n + (e.2.length + 63) / 64) 0

/-- The class of an overlay (R48). -/
def classOfSecs (l : List (Nat × List Byte)) : Nat :=
  l.foldl (fun m e => max m (match secInfo e.1 with | some (c, _, _, _) => c | none => 0)) 0

/-- The code of an overlay (R38, R30, R47, R34, R35, R58), or 0: `p` is the running personality, `digest` the running base image's, `last` LAST_SEQ,
`cfg` the running sections and `store` the overlay store. -/
def overlayCode (p : Nat) (digest : List Byte) (last chip : Nat) (cfg store : List (Nat × List Byte)) (img : List Byte) : Nat :=
  let h := headerCode 1 img
  if h ≠ 0 then h
  else if hLength img ≠ img.length then 2
  else
    let e := envelope img 1 (hPers img)
    let secs := secList img
    let all := amend cfg secs
    if e ≠ 0 then e
    else if !directoryGood img then 3
    else if hBase img ≠ digest then 9
    else if hPers img ≠ p then 6
    else if hSeq img ≤ last then 13
    else if !contentsGood p ((secBytes 2 all).getD []) all then 7
    else match identityOf chip all with
      | none => 8
      | some b =>
        if natBits (leAt b 16 4) 24 3 ≠ stLevel ((secBytes 2 all).getD []) then 7
        else if 1024 < storeUnits (amend store secs) then 12
        else 0

end Sys2Proof.Machine
end

