-- ==== Sys2Proof/Machine/Apply.lean ====
section
/-!
DEFINITION. What each section of the Itinerary does to the block when it is applied (R31, R40, R49 to R54, R191, R288, R291, R349,
R359, R658), and the reset values that depend on the personality, which the block applies again after a reset (R82, R86).
-/
namespace Sys2Proof.Machine

def setItn (i : ItnSt) (s : State) : State := { s with itn := i }

/-- A record that waits until the Guestbook runs (R42, R605). -/
def noteLater (code cls payload : Nat) (s : State) : State :=
  if on s F.GBK_STATUS_RUNNING then note code cls payload s
  else setItn { s.itn with owed := s.itn.owed ++ [(code, cls, payload)] } s

/-! Sections. -/

/-- STRUCTURE with the header's personality. -/
def applyStructure (p : Nat) (b : List Byte) (s : State) : State :=
  let s1 := wr s F.GLB_PERSONALITY_PERS.addr (BitVec.ofNat 64 (p + 2 ^ 2 * stLevel b + 2 ^ 20 * stCores b + 2 ^ 24 * stArrays b
    + 2 ^ 30 * stSpares b + 2 ^ 33 * stTrees b + 2 ^ 36 * stLanes b + 2 ^ 48 * (stDown b + stUp b)))
  setItn { s1.itn with down := stDown b } s1

/-- CLOCK_OPTIONS (R68). -/
def applyClock (b : List Byte) (s : State) : State :=
  let s1 := set (set (set s F.CLK_STATUS_CCLK_DIV (leAt b 0 1)) F.CLK_STATUS_MON_EN (leAt b 2 1)) F.CLK_MON_LIMIT (leAt b 4 4)
  { s1 with clk := { s1.clk with idleGate := leAt b 1 1 } }

/-- IDENTITY (R33): the position of the entry of the CHIP_ID. -/
def chipId (s : State) : Nat := get s F.GLB_CHIP_ID_HI_CHIP_ID * 2 ^ 64 + get s F.GLB_CHIP_ID_LO_CHIP_ID
def applyIdentity (cfg : List (Nat × List Byte)) (s : State) : State :=
  match identityOf (chipId s) cfg with
  | none => s
  | some b => wr s F.GLB_INSTANCE_POS_VALID.addr (BitVec.ofNat 64 (leAt b 16 4 % 2 ^ 24 + 2 ^ 24 * natBits (leAt b 16 4) 24 3 + 2 ^ 31))

/-- A source code of R190 in a personality. -/
def sourceGood (p src : Nat) : Bool :=
  src == 0xFFFF || (decide (0x2000 ≤ src) && decide (src < 0x3000))
    || (if p = 1 then decide (src < 0x2000) else p == 2 && decide (src < 0x400))

/-- One entry of EVENT_XBAR (R191). -/
def xbarEntry (s : State) (b : List Byte) : State :=
  let c := leAt b 0 2
  let src := leAt b 2 2
  if c < 256 ∨ nCounters s ≤ c ∨ !sourceGood (pers s) src ∨ (look c s.tly.xbar).isSome then
    report F.TLY_ERR_XBAR_IGNORED 0x0808 ADVISE c s
  else { s with tly := { s.tly with xbar := store c src s.tly.xbar } }
def applyXbar (es : List (List Byte)) (s : State) : State := es.foldl xbarEntry { s with tly := { s.tly with xbar := [] } }

/-- IRQ_GROUPS (R658). -/
def applyIrq (es : List (List Byte)) (s : State) : State :=
  let s1 := (List.range (nSources s)).foldl (fun s n =>
    if irqMapped s n then set (set s (F.IRQ_SRC_CFG_MAPPED n) 0) (F.IRQ_SRC_CFG_GROUP n) 0 else s) s
  let s2 := es.foldl (fun s b =>
    let (n, g, kind, tgt) := irqEntry b
    set (set (set (set s (F.IRQ_SRC_CFG_MAPPED n) 1) (F.IRQ_SRC_CFG_GROUP n) g) (F.IRQ_GRP_CTL_TGT_KIND g) kind) (F.IRQ_GRP_CTL_TARGET g) tgt) s1
  (List.range (nGroups s)).foldl (fun s g => groupUpdate false g s) s2

/-- The CFG register of an INK_QUEUES entry. -/
def queueCfg (b : List Byte) : Word :=
  BitVec.ofNat 64 (leAt b 2 1 % 32 + 2 ^ 7 * (leAt b 4 1 % 4) + 2 ^ 9 * (leAt b 3 1 % 32) + 2 ^ 14 * (leAt b 3 1 / 128) + 2 ^ 15
    + 2 ^ 16 * leAt b 6 2 + 2 ^ 32 * leAt b 8 4)

/-- The CFG register of queue `q` under a list of entries; an undefined queue reads 0. -/
def queueWord (es : List (List Byte)) (q : Nat) : Word :=
  match es.find? fun b => leAt b 0 2 == q with
  | some b => queueCfg b
  | none => 0

/-- The queues whose entries a list changes (R380). -/
def queuesChanged (es : List (List Byte)) (s : State) : List Nat :=
  (List.range (nQueues s)).filter fun q => queueWord es q != rd s (F.INK_Q_CFG_VALID q).addr

/-- INK_QUEUES (R349). -/
def applyQueues (es : List (List Byte)) (s : State) : State :=
  (queuesChanged es s).foldl (fun s q => wr s (F.INK_Q_CFG_VALID q).addr (queueWord es q)) s

/-- INK_SHAPERS (R359). -/
def applyShapers (es : List (List Byte)) (s : State) : State :=
  (List.range (nQueues s)).foldl (fun s q =>
    let b := (es.find? fun b => leAt b 0 2 == q).getD []
    let sh := BitVec.ofNat 64 (leAt b 2 2 + 2 ^ 32 * (leAt b 4 4 % 2 ^ 24))
    let po := BitVec.ofNat 64 (leAt b 12 2 + 2 ^ 32 * (leAt b 8 4 % 2 ^ 24))
    let s1 := if rd s (F.INK_Q_SHAPE_RATE q).addr = sh then s else wr s (F.INK_Q_SHAPE_RATE q).addr sh
    if rd s1 (F.INK_Q_POLICE_POL_RATE q).addr = po then s1 else wr s1 (F.INK_Q_POLICE_POL_RATE q).addr po) s

/-- A SIGNPOST entry (R291). -/
def signEntry (b : List Byte) : Sign :=
  { domain := leAt b 0 4 % 2 ^ 20, share := natBits (leAt b 0 4) 20 7, prim := leAt b 4 3, sec := leAt b 8 3, bitP := leAt b 12 2, bitS := leAt b 14 2 }

/-- SIGNPOST for the domains that satisfy `p`: a domain without an entry has no parent. -/
def applySigns (p : Nat → Bool) (es : List (List Byte)) (s : State) : State :=
  let signs := (es.map signEntry).filter fun e => p e.domain
  let gone := (s.crv.routes.map Prod.fst).filter fun d => p d && !(signs.any fun e => e.domain == d)
  gone.foldl (fun s d => setSign { domain := d, share := 0, prim := noParent, sec := noParent, bitP := 0, bitS := 0 } s)
    (signs.foldl (fun s e => setSign e s) s)

/-- A LEVEL_RULES entry (R288). -/
def ruleEntry (b : List Byte) : Rule :=
  let v := leAt b 0 8
  { domain := v % 2 ^ 20, cls := natBits v 20 8, op := natBits v 32 4, k := natBits v 36 7, half := v.testBit 43 }

/-- LEVEL_RULES of this level for the domains that satisfy `p`. -/
def applyRules (p : Nat → Bool) (es : List (List Byte)) (s : State) : State :=
  let mine := (es.filter fun b => natBits (leAt b 0 8) 28 4 == level s).map ruleEntry
  setCrv { s.crv with rules := (s.crv.rules.filter fun r => !p r.domain) ++ mine.filter fun r => p r.domain } s

/-- A section of instance scope takes effect, FUNCTION_MODES excepted. -/
def applyInstance (cfg : List (Nat × List Byte)) (t : Nat) (s : State) : State :=
  match t with
  | 5 => applyXbar (secEntries 5 cfg) s
  | 7 => applyIrq (secEntries 7 cfg) s
  | 9 => applyQueues (secEntries 9 cfg) s
  | 10 => applyShapers (secEntries 10 cfg) s
  | _ => s

/-- A section of domain scope takes effect for the domains that satisfy `p`. -/
def applyDomains (cfg : List (Nat × List Byte)) (p : Nat → Bool) (t : Nat) (s : State) : State :=
  match t with
  | 8 => applySigns p (secEntries 8 cfg) s
  | 11 => applyRules p (secEntries 11 cfg) s
  | _ => s

/-! Reset values that depend on the personality. -/

def lowBits (n : Nat) : Nat := 2 ^ n - 1

/-- The arrays in service and the spares: the highest-numbered arrays are the spares (log 45); retired ones are neither (R425). -/
def arrayMaps (s : State) : State :=
  let n := get s F.GLB_PERSONALITY_ARRAYS
  let sp := get s F.GLB_PERSONALITY_SPARES
  (List.range 48).foldl (fun s a =>
    let ok := !(get s F.ARR_RETIRED_RETIRED).testBit a
    setBit (setBit s F.ARR_AVAIL_AVAIL a (ok && decide (a < n - sp))) F.ARR_SPARE_SPARE a (ok && decide (n - sp ≤ a) && decide (a < n))) s

/-- The values of domain `d` that the register tables give per personality. -/
def unitDefaults (d : Nat) (s : State) : State :=
  match d with
  | 1 =>
    let s1 := arrayMaps (set s F.TRE_CTL_ENG_EN (lowBits (get s F.GLB_PERSONALITY_TREE_ENG)))
    let s2 := if pers s = 3 then s1
      else set (set s1 F.VER_CTL_LOCAL_SHARE (if pers s = 1 then 0x080 else 0x100)) F.VER_STATUS_STAGE_KIB ((partSize s 5 - 1048576) / 1024)
    showVer (showCapacity s2)
  | 2 => showCmp s
  | 3 =>
    let up := upLanes s
    let lanes := if pers s = 1 then 1 else lowBits s.itn.down + 2 ^ 16 * lowBits up
    set (set (set s F.FBP_CTL_LANE_EN lanes) F.SEP_CTL_PORT_EN (if pers s = 2 then lowBits 17 else 1)) F.SEP_CTL_TC_EN
      (if pers s = 2 then 1 else 0)
  | 6 => set s F.MMP_CTL_CHANNELS (if pers s = 1 then 2 else 8)
  | _ => s

/-- The Itinerary configuration of a domain, applied again from the retained copy after a domain reset (R82, R86). -/
def reapply (d : Nat) (s : State) : State :=
  if pers s = 0 then s
  else
    let s1 := unitDefaults d s
    match d with
    | 0 => applyInstance s.itn.cfg 7 (applyInstance s.itn.cfg 5 s1)
    | 3 => applyDomains s.itn.cfg (fun _ => true) 11 (applyDomains s.itn.cfg (fun _ => true) 8
        (fillBuckets (applyInstance s.itn.cfg 10 (applyInstance s.itn.cfg 9 s1))))
    | _ => s1

end Sys2Proof.Machine
end

