-- ==== Sys2Proof/Machine/Porter.lean ====
section
/-!
DEFINITION. The Porter (R554 to R559), and the writes of the CMP page.
-/
namespace Sys2Proof.Machine

def setPrt (p : PrtSt) (s : State) : State := { s with prt := p }
def cM_PORTER : Nat := 23

def prtJob (s : State) (c : Nat) : Option PrtJob := look c s.prt.jobs
def setPrtJob (c : Nat) (j : PrtJob) (s : State) : State := setPrt { s.prt with jobs := store c j s.prt.jobs } s
def prtHalted (s : State) (c : Nat) : Bool := (get s F.PRT_STATUS_HALTED).testBit c

/-- A channel is IDLE while HEAD equals TAIL, nothing is in progress and it is not halted (R559). -/
def prtIdle (s : State) (c : Nat) : Bool :=
  get s (F.PRT_CH_HEAD_HEAD c) == get s (F.PRT_CH_TAIL_TAIL c) && (prtJob s c).isNone && !prtHalted s c

/-- PRT_STATUS and PRT_CHc_CTL.STATE show a channel. -/
def showPrt (c : Nat) (s : State) : State :=
  let s1 := setBit s F.PRT_STATUS_BUSY c (prtJob s c).isSome
  set s1 (F.PRT_CH_CTL_STATE c) (if prtHalted s c then 2 else if prtIdle s c then 0 else 1)

/-! Descriptors (R555, R556). -/

def dOp (d : List Byte) : Nat := leAt d 0 1
def dLen (d : List Byte) : Nat := leAt d 24 4
def dSrc (d : List Byte) : Nat := leAt d 8 8
def dDst (d : List Byte) : Nat := leAt d 16 8

/-- A space with its partition is one of R555. -/
def spaceGood (s : State) (space part : Nat) : Bool :=
  if space = 1 then (partition s part).isSome else decide (space ≤ 2) && part == 0

/-- A range of a space is one the channel may use. -/
def spaceRange (s : State) (c space part addr n : Nat) : Bool :=
  match space with
  | 0 => bytesIn s 7 addr n || (bytesIn s 6 addr n && !hostMode s 3)
  | 1 => decide (addr + n ≤ partSize s part)
  | _ => c != 3 && decide (addr + n ≤ fwSize s)

/-- The status of a descriptor when it is started (R556), or 0. -/
def descCheck (s : State) (c : Nat) (d : List Byte) : Nat :=
  let copy := dOp d == 0
  let ss := leAt d 2 1
  let ds := leAt d 3 1
  let sp := leAt d 4 1
  let dp := leAt d 5 1
  let n := dLen d
  if 1 < dOp d ∨ (copy && !spaceGood s ss sp) ∨ !spaceGood s ds dp ∨ leAt d 6 2 ≠ 0 ∨ leAt d 29 3 ≠ 0 ∨ n < 64 ∨ 16777216 < n ∨ n % 64 ≠ 0
      ∨ (copy && dSrc d % 64 != 0) ∨ dDst d % 64 ≠ 0 then 1
  else if (copy && !spaceRange s c ss sp (dSrc d) n) ∨ !spaceRange s c ds dp (dDst d) n then 2
  else if copy && ss == ds && (ss != 1 || sp == dp) && meets (dSrc d) n (dDst d) n then 3
  else 0

/-! Completion (R558). -/

/-- A descriptor completes: TAIL advances, the channel halts on an error. -/
def prtDone (c : Nat) (j : PrtJob) (s : State) : State :=
  let tail := get s (F.PRT_CH_TAIL_TAIL c)
  let s1 := setPrt { s.prt with jobs := dropKeys (· == c) s.prt.jobs } s
  let s2 := set (set s1 (F.PRT_CH_TAIL_TAIL c) ((tail + 1) % max 1 (get s (F.PRT_CH_SIZE_ENTRIES c)))) (F.PRT_CH_CTL_LAST_STATUS c) j.status
  let s3 := bump s2 F.PRT_STATUS_DESCS 1
  let s4 := if (leAt j.desc 1 1).testBit 0 then raiseIrq (irqResult 0x12) s3 else s3
  let s5 := if j.status = 0 ∨ j.status = 6 then s4
    else report F.CMP_ERR_PRT_DESC 0x1206 ADVISE (c + 256 * j.status + 2 ^ 16 * tail) (setBit s4 F.PRT_STATUS_HALTED c true)
  syncEvent 0x21 0x10 (showPrt c s5)

/-- The status is written back (R555): at once in the firmware SRAM, by a write of the beat in region 7. -/
def prtWriteBack (c : Nat) (j : PrtJob) (status : Nat) (s : State) : State :=
  let i := get s (F.PRT_CH_TAIL_TAIL c)
  let a := get s (F.PRT_CH_BASE_ADDR c) * 64 + 32 * i
  let b := BitVec.ofNat 8 (0x80 + status)
  if c = 3 then
    let beat := j.beat.set (a % 64 + 28) b
    setPrtJob c { j with stage := 3, xfer := s.mmp.nextXfer, status } (memRequest .porter cM_PORTER 7 true (a / 64 * 64) 64 beat s)
  else prtDone c { j with status } (fwPut (a + 28) [b] s)

/-- Bytes go to the destination of a descriptor. -/
def prtStore (c : Nat) (j : PrtJob) (b : List Byte) (s : State) : State :=
  let ds := leAt j.desc 3 1
  let a := dDst j.desc
  match ds with
  | 0 => setPrtJob c { j with stage := 2, xfer := s.mmp.nextXfer }
      (memRequest .porter cM_PORTER (if bytesIn s 7 a b.length then 7 else 6) true a b.length b s)
  | 1 => setPrtJob c { j with stage := 4 } (partWrite (leAt j.desc 5 1) a b s)
  | _ => setPrtJob c { j with stage := 4 } (fwPut a b s)

/-- A descriptor that has been read is checked and started. `ecc`: its on-block source has an uncorrectable error. -/
def prtBegin (c : Nat) (j : PrtJob) (ecc : Bool) (s : State) : State :=
  let d := j.desc
  let n := dLen d
  match descCheck s c d with
  | 0 =>
    if dOp d = 1 then prtStore c j ((List.replicate (n / 8) ((d.drop 8).take 8)).flatten) s
    else match leAt d 2 1 with
      | 0 => setPrtJob c { j with stage := 1, xfer := s.mmp.nextXfer }
          (memRequest .porter cM_PORTER (if bytesIn s 7 (dSrc d) n then 7 else 6) false (dSrc d) n [] s)
      | 1 => if ecc then prtWriteBack c j 5 s else prtStore c j (partRead s (leAt d 4 1) (dSrc d) n) s
      | _ => if ecc then prtWriteBack c j 5 s else prtStore c j (cellsAt s.fwSram (dSrc d) n) s
  | st => prtWriteBack c j st s

/-- The Porter starts the next descriptor of a channel (R555, R556, R559, R567). -/
def prtStart (c : Nat) (ecc : Bool) (s : State) : State :=
  if inReset s 2 || decide (3 < c) then s
  else match prtJob s c with
    | some j =>
      if j.stage != 0 || !memDone s .porter j.xfer then s
      else
        let s1 := memForget .porter j.xfer s
        if !memOk s .porter j.xfer then prtDone c { j with status := 4 } s1
        else
          let beat := memData s .porter j.xfer
          let off := get s (F.PRT_CH_TAIL_TAIL c) % 2 * 32
          prtBegin c { j with beat, desc := (beat.drop off).take 32 } ecc s1
    | none =>
      let i := get s (F.PRT_CH_TAIL_TAIL c)
      let a := get s (F.PRT_CH_BASE_ADDR c) * 64 + 32 * i
      if !on s F.PRT_CTL_EN || prtHalted s c || held s 0x12 || fenced s 2 || i == get s (F.PRT_CH_HEAD_HEAD c) then s
      else if c = 3 then
        showPrt c (setPrtJob c { stage := 0, xfer := s.mmp.nextXfer } (memRequest .porter cM_PORTER 7 false (a / 64 * 64) 64 [] s))
      else if fwSize s < a + 32 then prtDone c { stage := 4, xfer := 0, status := 2 } s
      else showPrt c (prtBegin c { desc := cellsAt s.fwSram a 32, stage := 4, xfer := 0 } ecc s)

/-- PORTER_DESCRIPTOR_START (R555). -/
def execPorterDescriptorStart (c : Nat) (ecc : Bool) (s : State) : Host.Outcome State Fault Refusal := .next (prtStart c ecc s)

/-- Source reads that have ended: their bytes are written, or the descriptor ends with MEM_ERR. -/
def prtRead (s : State) (c : Nat) : State :=
  match prtJob s c with
  | none => s
  | some j =>
    if j.stage != 1 || !memDone s .porter j.xfer then s
    else
      let s1 := memForget .porter j.xfer s
      if memOk s .porter j.xfer then prtStore c j (memData s .porter j.xfer) s1 else prtWriteBack c j 4 s1

/-- A SEND of the Courier and the descriptors of the Porter go on with reads that have ended (R523, R557). -/
def memFollow (s : State) : State := [0, 1, 2, 3].foldl prtRead (sendProgress s)

/-- MMP_REQUEST_ISSUE (R134): a request may end with an error at once. -/
def execMmpRequestIssue (s : State) : Host.Outcome State Fault Refusal := .next (memFollow (requestIssue s))

/-- MMP_READ_DATA (R133): the read completes to its unit. -/
def execMmpReadData (ch id : Nat) (beats : List (MemStatus × BitVec 512)) (s : State) : Host.Outcome State Fault Refusal :=
  .next (memFollow (readData ch id beats s))

/-- A descriptor completes once its bytes, then its status, have been written (R555, R558). -/
def prtFinish (c : Nat) (s : State) : State :=
  match prtJob s c with
  | none => s
  | some j =>
    if inReset s 2 then s
    else match j.stage with
      | 2 =>
        if memDone s .porter j.xfer then
          prtWriteBack c j (if memOk s .porter j.xfer then 0 else 4) (memForget .porter j.xfer s)
        else s
      | 3 => if memDone s .porter j.xfer then prtDone c j (memForget .porter j.xfer s) else s
      | 4 => prtWriteBack c j 0 s
      | _ => s

/-- PORTER_DESCRIPTOR_DONE (R558). -/
def execPorterDescriptorDone (c : Nat) (s : State) : Host.Outcome State Fault Refusal := .next (prtFinish c s)

/-- A MOVE reset ends every descriptor in progress without writing back its status (R559). -/
def prtReset (s : State) : State :=
  let s1 := note 0x1207 INFO s.prt.jobs.length (setPrt {} s)
  { s1 with mmp := { s1.mmp with ended := s1.mmp.ended.filter fun e => e.req.user != .porter && e.req.user != .porterInt } }

/-! Writes of the CMP page. -/

/-- A write of a channel's registers (R559). -/
def prtWrite (c reg : Nat) (acc : Acc) (s : State) : State :=
  let a := (F.PRT_CH_BASE_ADDR c).addr + reg % 0x40
  let idle := prtIdle s c
  match reg with
  | 0x00 => if idle then perform a acc s else flag F.CMP_ERR_PRT_CFG s
  | 0x08 => if idle then perform a acc s else flag F.CMP_ERR_PRT_CFG s
  | 0x10 =>
    if get s (F.PRT_CH_SIZE_ENTRIES c) ≤ wfield s acc (F.PRT_CH_HEAD_HEAD c) then flag F.CMP_ERR_PRT_CFG s
    else showPrt c (perform a acc s)
  | 0x20 =>
    let s1 := perform a acc s
    if wrote1 acc (F.PRT_CH_CTL_RESUME c) then showPrt c (setBit s1 F.PRT_STATUS_HALTED c false) else s1
  | _ => perform a acc s

/-- The unit's treatment of a write to the CMP page. -/
def cmpWrite (a : Nat) (acc : Acc) (s : State) : State :=
  let i := (a - 0x121000) / 0x80
  if 0x121000 ≤ a ∧ a < 0x121400 then
    match (a - 0x121000) % 0x80 with
    | 0x30 => consume a acc s
    | 0x28 =>
      let s1 := perform a acc s
      if wrote1 acc (F.CMP_JOB_CTL_GO i) then cmpGo i s1 else s1
    | _ => perform a acc s
  else if 0x128100 ≤ a ∧ a < 0x128200 then prtWrite ((a - 0x128100) / 0x40) ((a - 0x128100) % 0x40) acc s
  else if a = F.CMP_CTL_EN.addr then cmpKick (perform a acc s)
  else perform a acc s

/-- ENCODE_JOB_GO and DECODE_JOB_GO: a write of a slot's CTL with GO; OP of its DESC0 says which of the two it is (R538). -/
def cmpGoCmd (decode : Bool) (i : Nat) (acc : Acc) (s : State) : State :=
  if i < 8 ∧ on s (F.CMP_JOB_DESC0_OP i) = decode then
    portWrite cmpWrite (F.CMP_JOB_CTL_GO i).addr (force (F.CMP_JOB_CTL_GO i) 1 acc) s
  else s
def execEncodeJobGo (i : Nat) (acc : Acc) (s : State) : Host.Outcome State Fault Refusal := .next (cmpGoCmd false i acc s)
def execDecodeJobGo (i : Nat) (acc : Acc) (s : State) : Host.Outcome State Fault Refusal := .next (cmpGoCmd true i acc s)

/-- PORTER_HEAD_WRITE, PORTER_CHANNEL_CONFIG_WRITE (BASE, or SIZE) and PORTER_RESUME (R555, R558, R559). -/
def execPorterHeadWrite (c : Nat) (acc : Acc) (s : State) : Host.Outcome State Fault Refusal :=
  .next (portWrite cmpWrite (F.PRT_CH_HEAD_HEAD c).addr acc s)
def execPorterChannelConfigWrite (c : Nat) (size : Bool) (acc : Acc) (s : State) : Host.Outcome State Fault Refusal :=
  .next (portWrite cmpWrite (if size then (F.PRT_CH_SIZE_ENTRIES c).addr else (F.PRT_CH_BASE_ADDR c).addr) acc s)
def execPorterResume (c : Nat) (acc : Acc) (s : State) : Host.Outcome State Fault Refusal :=
  .next (portWrite cmpWrite (F.PRT_CH_CTL_RESUME c).addr (force (F.PRT_CH_CTL_RESUME c) 1 acc) s)

end Sys2Proof.Machine
end

