-- ==== Sys2Proof/Machine/Quiesce.lean ====
section
/-!
DEFINITION. Function quiesce (R53, R82, R380, R428, R566): the units of the sections and functions, holding and releasing them, and when a unit
reports quiescent; the modes of the functions (R6, R8, R646): their drain, their continuation values and their flip.
-/
namespace Sys2Proof.Machine

def setCtl (c : CtlSt) (s : State) : State := { s with ctl := c }

/-- The schedules in RUN, and the domains that are active: those with a schedule in RUN or FINAL. -/
def runs (s : State) : List Nat := (List.range (nScheds s)).filter fun k => schedState s k == 2
def activeDomains (s : State) : List Nat :=
  (((List.range (nScheds s)).filter fun k => schedState s k == 2 || schedState s k == 3).map fun k => get s (F.TLY_SCHED_CTL_DOMAIN k)).dedup

/-- The domains that have an epoch boundary at this instant, if it lies at TB2 time `t` or later. -/
def boundNow (t : Nat) (s : State) : List Nat :=
  match s.itn.bound with
  | some (b, ds) => if b = s.tim.tb2 ∧ t ≤ b then ds else []
  | none => []

/-- An epoch boundary of a domain takes place now. -/
def markBoundary (d : Nat) (s : State) : State :=
  let ds := match s.itn.bound with
    | some (b, ds) => if b = s.tim.tb2 then ds else []
    | none => []
  setItn { s.itn with bound := some (s.tim.tb2, if ds.contains d then ds else ds ++ [d]) } s

/-- Microseconds of TB2. -/
def usec (n : Nat) : Nat := n * 1000 * 2 ^ 48

/-- The sample bound (R212). -/
def sampleBound (s : State) : Nat := usec ((if pers s = 1 then 1 else 4) * (if on s F.CLK_STATUS_CCLK_DIV then 2 else 1))

/-! Units. -/

/-- The unit page of a function (log 46). -/
def funcPage : Nat → Nat
  | 0 => 0x08
  | 1 => 0x0A
  | 2 => 0x0E
  | 3 => 0x0F
  | 4 => 0x11
  | 5 => 0x12
  | 6 => 0x09
  | 7 => 0x13
  | _ => 0x1A

/-- The functions whose modes a FUNCTION_MODES word changes. -/
def modesChanged (s : State) (v : Nat) : List Nat :=
  (List.range 9).filter fun f => v.testBit f != (get s F.GLB_FUNC_MODE_MODE).testBit f

/-- The unit pages named by a section (R53): SRAM_REPAIR and TRIM name every unit with a domain (log 46). -/
def secPages (s : State) (cfg : List (Nat × List Byte)) (t : Nat) : List Nat :=
  match t with
  | 4 => (List.range 0x1E).filter fun p => p != 0x01 && p != 0x17 && (domainOf p).isSome
  | 7 => [0x19]
  | 9 => [0x0B]
  | 12 => (modesChanged s (leAt ((secBytes 12 cfg).getD []) 0 2)).map funcPage
  | 13 => (List.range 0x1E).filter fun p => p != 0x01 && p != 0x17 && (domainOf p).isSome
  | _ => []

/-- A unit reports quiescent (R82): nothing that it began is unfinished at its work boundary. -/
def unitQuiet (s : State) (page : Nat) : Bool :=
  match page with
  | 0x08 => s.tly.cuts.isEmpty && s.tly.late.isEmpty
  | 0x0B => s.ink.holdQ.all fun q => depthOf (inkQ s q) == 0
  | 0x0C => !s.tre.jobs.any TreJob.running
  | 0x10 => s.flt.probe.isNone
  | 0x11 => !s.mmp.out.any fun r => r.user == .courierRead || r.user == .courierStage || r.user == .courierRx || r.user == .courierSend
  | 0x12 => s.prt.jobs.isEmpty
  | 0x13 => s.rcv.build.isNone
  | _ => true

/-- A function quiesce by `who` takes hold of units, or ends; held work goes on once nothing holds its unit (R566). -/
def holdUnits (who : Nat) (pages : List Nat) (s : State) : State :=
  setCtl { s.ctl with held := s.ctl.held ++ (pages.dedup.map fun p => (p, who)) } s
def releaseUnits (who : Nat) (s : State) : State :=
  cmpKick (setCtl { s.ctl with held := s.ctl.held.filter fun h => h.2 != who } s)

/-- A unit is held by a recovery fence, or by a function quiesce of `who`. -/
def fenceHolds (s : State) (page : Nat) : Bool := pageFenced s page
def heldBy (s : State) (who page : Nat) : Bool := s.ctl.held.any fun h => h.1 == page && h.2 == who

/-! Modes. -/

/-- Work accepted under the old mode of a function has completed (R646, step 2). -/
def funcDrained (s : State) (f : Nat) : Bool :=
  match f with
  | 0 => s.tly.cuts.isEmpty && s.tly.late.isEmpty
  | 1 => s.crv.closing.isEmpty && !(s.ink.queues.any fun e => e.2.items.any fun i => i.pkt.isSome && decide (1 ≤ i.cls) && decide (i.cls ≤ 8))
  | 2 => s.due.isEmpty && !s.tre.jobs.any TreJob.running
  | 3 => s.ver.staged.isEmpty && s.ver.asm.isEmpty
  | 5 => s.cmp.jobs.isEmpty
  | 7 => s.rcv.build.isNone
  | _ => true

/-- A transmit stream of the continuation values: level, VC, index, next sequence (log 46). -/
def streamBytes (e : (Nat × Nat × Nat) × Nat) : List Byte := leBytes 1 e.1.1 ++ leBytes 1 e.1.2.2 ++ leBytes 2 0 ++ leBytes 4 e.1.2.1 ++ leBytes 8 e.2

/-- The continuation values of a function (R646; layout log 46). -/
def contBytes (s : State) (f : Nat) : List Byte :=
  padTo 4096 (match f with
  | 0 => (List.range (nScheds s)).flatMap fun k => leBytes 8 (get s (F.TLY_SCHED_EPOCH_EPOCH k))
  | 1 => leBytes 8 s.fbp.txSeq.length ++ leBytes 8 0 ++ (s.fbp.txSeq.take 255).flatMap streamBytes
  | 2 => (List.range 64).flatMap fun d => leBytes 8 (((look d s.det).bind DetSt.lastConf).getD 0)
  | 3 => leBytes 8 ((s.ver.epochs.head?.map VEpoch.n).getD 0) ++ leBytes 8 (get s F.VER_HA_WRPTR_WRPTR) ++ leBytes 8 (get s F.VER_HA_RDPTR_RDPTR)
  | 4 => leBytes 8 ((s.cur.snap.map fun p => p.crcs.length).getD 0)
  | 6 => leBytes 8 s.tim.ptp.seq ++ leBytes 8 (ofSigned 64 (s.tim.ptp.d.getD 0))
  | 8 => leBytes 8 (get s F.PWR_STATUS_STATE)
  | _ => [])

/-- The continuation values that a function takes up when it returns to hardware mode (R646). -/
def takeCont (f : Nat) (b : List Byte) (s : State) : State :=
  match f with
  | 1 =>
    let es := (List.range (min 255 (leAt b 0 8))).map fun i =>
      let o := 16 + 16 * i
      ((leAt b o 1, leAt b (o + 4) 4, leAt b (o + 1) 1), leAt b (o + 8) 8 % 2 ^ 32)
    { s with fbp := { s.fbp with txSeq := es ++ s.fbp.txSeq.filter fun e => !(es.any fun x => x.1 == e.1) } }
  | 2 => { s with det := s.det.map fun e => (e.1, { e.2 with lastConf := some (leAt b (8 * e.1) 8) }) }
  | 3 => set (set s F.VER_HA_WRPTR_WRPTR (leAt b 8 8)) F.VER_HA_RDPTR_RDPTR (leAt b 16 8)
  | 6 => { s with tim := { s.tim with ptp := { s.tim.ptp with seq := leAt b 0 8 % 65536, d := some (toSigned 64 (leAt b 8 8)) } } }
  | _ => s

/-- The handover of a function to `mode` (R646, step 3): the values are written to the state block in region 7. The values that a switch
to hardware mode reads are those of `buf`. -/
def handOver (f mode : Nat) (s : State) : State :=
  if mode = 1 then memRequest .porterInt 23 7 true (get s F.CTL_MODE_BUF_PAGE * 4096) 4096 (contBytes s f) s else s

/-- A function flips (R646, steps 3 to 5; R611): its values are read where it returns to hardware mode, its bit changes, and the Ledger records
it. -/
def flipMode (f mode port priv init : Nat) (buf : Option (List Byte)) (s : State) : State :=
  let s1 := if mode = 0 then (match buf with | some b => takeCont f b s | none => s) else s
  let s2 := setBit s1 F.GLB_FUNC_MODE_MODE f (mode == 1)
  ledger 4 port priv 0 init f 0 (rd s F.GLB_FUNC_MODE_MODE.addr) (rd s2 F.GLB_FUNC_MODE_MODE.addr) s2

end Sys2Proof.Machine
end

