-- ==== Sys2Proof/Machine/Itinerary.lean ====
section
/-!
DEFINITION. The Itinerary (R39 to R62): the cold and warm load, pushes, overlays and the overlay store.
-/
namespace Sys2Proof.Machine

/-- ITN_STATUS.STATE and ITN_OVL_STATUS.STATE. -/
def itnState (s : State) : Nat := get s F.ITN_STATUS_STATE
def setItnState (n : Nat) (s : State) : State := set s F.ITN_STATUS_STATE n
def ovlState (s : State) : Nat := get s F.ITN_OVL_STATUS_STATE
def setOvlState (n : Nat) (s : State) : State := set s F.ITN_OVL_STATUS_STATE n

/-- The running base image's digest (R47). -/
def runDigest (s : State) : List Byte := (List.range 6).flatMap fun i => wordBytes (rd s (F.ITN_DIGEST_DIGEST i).addr)

/-- A rejection code is held (R42, R61). -/
def itnReject (code : Nat) (s : State) : State := set s F.ITN_STATUS_ERR_CODE code

/-! Load from NOR flash (R40, R42, R43). -/

/-- Step 5: a base image is awaited, and the Keepsake Port is free. -/
def waitPush (s : State) : State :=
  setItnState 5 (setItn { s.itn with order := [] } (loaderFree s))

/-- The order in which the slots are tried: 1 is A, 2 is B. -/
def slotOrder (preferB : Bool) (a b : Option (List Byte)) : List Nat :=
  let seq (x : Option (List Byte)) : Nat := hSeq (x.getD [])
  if preferB then [2, 1]
  else match headerGoodItn a, headerGoodItn b with
    | true, true => if seq a < seq b then [2, 1] else [1, 2]
    | false, true => [2, 1]
    | _, _ => [1, 2]

/-- Steps 1 and 2: the headers are read and the slots ordered. -/
def loadStart (present : Bool) (a b : Option (List Byte)) (s : State) : State :=
  if itnState s ≠ 0 ∨ !s.clk.pwron ∨ inReset s 0 then s
  else
    let s1 := if s.clk.cause = 1 then reachBase 2 (usec 110) s else s
    let s2 := if present then set s1 F.KSP_STATUS_CS1_PRESENT 1
      else report F.KSP_ERR_ABSENT 0x1D01 FAULT 0 (set s1 F.KSP_STATUS_CS1_PRESENT 0)
    if on s F.ITN_BOOT_CTL_FORCE_PUSH || !present then waitPush (if on s F.ITN_BOOT_CTL_FORCE_PUSH then s1 else s2)
    else setItnState 1 (setItn { s2.itn with order := slotOrder (on s F.ITN_BOOT_CTL_PREFER_B) a b } (loaderTake s2))

/-- ITINERARY_LOAD_START (R40). -/
def execItineraryLoadStart (present : Bool) (hdrA hdrB : Option (List Byte)) (s : State) : Host.Outcome State Fault Refusal :=
  .next (loadStart present hdrA hdrB s)

/-- A base image is accepted: it is applied next (R39, R40). -/
def acceptBase (i : BaseImg) (s : State) : State := setItnState 3 (setItn { s.itn with image := some i, push := none } s)

/-- Step 3 ends for the slot being tried: acceptance, or its rejection and the next slot (step 4), or WAIT_PUSH (step 5). -/
def slotDone (img : Option (List Byte)) (s : State) : State :=
  match s.itn.order with
  | [] => s
  | k :: rest =>
    if itnState s ≠ 1 then s
    else
      let code := match img with
        | none => 10
        | some b => baseCode (chipId s) b
      if code = 0 then acceptBase { slot := k, bytes := img.getD [], port := 4, priv := 3, init := 0 } (setItn { s.itn with order := [] } s)
      else
        let s1 := noteLater (0x0100 + code) FAULT 0 (flag (if k = 1 then F.ITN_ERR_BOOT_A_FAILED else F.ITN_ERR_BOOT_B_FAILED) (itnReject code s))
        if rest.isEmpty then waitPush s1 else setItn { s1.itn with order := rest } s1

/-- SLOT_READ_DONE (R40). -/
def execSlotReadDone (img : Option (List Byte)) (s : State) : Host.Outcome State Fault Refusal := .next (slotDone img s)

/-! Application (R40, step 6; R57). -/

/-- The overlay store is shown. -/
def showStore (s : State) : State := set s F.ITN_OVL_STATUS_STORE_USED (storeUnits s.itn.store)

/-- The running base image is shown. -/
def showImage (i : BaseImg) (s : State) : State :=
  let b := i.bytes
  let dig := imageDigest b
  let s1 := wr s F.ITN_IMAGE_INFO_SEQUENCE.addr (BitVec.ofNat 64 (leAt b 4 1 + 2 ^ 8 * hLength b + 2 ^ 32 * hSeq b))
  let s2 := (List.range 6).foldl (fun s n => wr s (F.ITN_DIGEST_DIGEST n).addr (BitVec.ofNat 64 (leAt dig (8 * n) 8))) s1
  set (wr s2 F.ITN_SIGNER_KEY_ID.addr (BitVec.ofNat 64 (leAt (sigBlock b) 0 8))) F.ITN_STATUS_BOOT_SLOT i.slot

/-- The store is applied to the reloaded base image, or emptied if its digest differs (R57): the sections in effect. -/
def storeCheck (digest : List Byte) (s : State) : State :=
  if s.itn.store.isEmpty ∨ s.itn.storeDigest = digest then s
  else noteLater 0x010F INFO s.itn.store.length (setItn { s.itn with store := [], storeSeq := 0 } s)

/-- The sections are applied in the order of step 6; the Guestbook and the Ledger rings start once SRAM_PARTITION is. -/
def applyAll (p : Nat) (cfg : List (Nat × List Byte)) (s : State) : State :=
  let s1 := applyClock ((secBytes 6 cfg).getD []) (applyStructure p ((secBytes 2 cfg).getD []) s)
  let s2 := setItn { s1.itn with parts := (secEntries 3 cfg).map partOf, cfg } s1
  let s3 := gbkStart (ldgStart s2)
  let s4 := [0, 1, 2, 3, 4, 5, 6].foldl (fun s d => unitDefaults d s) (applyIdentity cfg s3)
  let s5 := applyInstance cfg 10 (applyInstance cfg 9 (applyInstance cfg 7 (applyInstance cfg 5 s4)))
  let s6 := applyDomains cfg (fun _ => true) 11 (applyDomains cfg (fun _ => true) 8 (fillBuckets s5))
  set s6 F.GLB_FUNC_MODE_MODE (leAt ((secBytes 12 cfg).getD []) 0 2 % 512)

/-- The image has been applied: RUNNING. The loader goes on with the firmware (R631). -/
def applyDone (s : State) : State :=
  match s.itn.image with
  | none => s
  | some i =>
    if itnState s ≠ 3 then s
    else
      let dig := imageDigest i.bytes
      let old := rd s (F.ITN_DIGEST_DIGEST 0).addr
      let s1 := storeCheck dig (setItn { s.itn with image := none } s)
      let s2 := showImage i (applyAll (hPers i.bytes) (amend (secList i.bytes) s1.itn.store) s1)
      let s3 := ledger 2 i.port i.priv 0 i.init (hSeq i.bytes) 0 old (rd s2 (F.ITN_DIGEST_DIGEST 0).addr) s2
      let s4 := if s3.itn.store.isEmpty then s3
        else ledger 3 4 3 0 0 s3.itn.storeSeq (classOfSecs s3.itn.store) 0 (BitVec.ofNat 64 s3.itn.ovlDigest) s3
      let s5 := showStore (set (set s4 F.ITN_OVL_STATUS_LAST_SEQ s4.itn.storeSeq) F.ITN_OVL_STATUS_PENDING_WARM 0)
      let s6 := s5.itn.owed.foldl (fun s r => note r.1 r.2.1 r.2.2 s) (setItn { s5.itn with owed := [] } s5)
      loaderTake (setItnState 4 (set s6 F.CTL_STATUS_FW_STATE 1))

/-- ITINERARY_APPLY_DONE (R40). -/
def execItineraryApplyDone (s : State) : Host.Outcome State Fault Refusal := .next (applyDone s)

/-! Pushes (R44 to R46). -/

/-- A rejected overlay (R60). -/
def ovlReject (code : Nat) (s : State) : State :=
  report F.ITN_ERR_OVL_REFUSED (0x0100 + code) ADVISE 0 (itnReject code s)

/-- A push is refused at its start (R45). -/
def pushRefuse (kind code : Nat) (s : State) : State :=
  let s1 := flag F.ITN_ERR_PUSH_REFUSED (startDone F.ITN_PUSH_CTL_START s)
  if kind = 1 then ovlReject code s1 else itnReject code s1

/-- START of a push (R44, R45). -/
def pushBegin (acc : Acc) (s : State) : State :=
  let kind := get s F.ITN_PUSH_CTL_KIND
  let len := get s F.ITN_PUSH_CTL_LENGTH
  if s.itn.push.isSome ∨ ovlState s ≠ 0 ∨ s.itn.image.isSome then
    let s1 := pushRefuse kind 0x0B s
    if (s.itn.push.map fun p => !p.verify).getD false then set s1 F.ITN_PUSH_CTL_START 1 else s1
  else if len = 0 ∨ len % 64 ≠ 0 ∨ (if kind = 1 then 1048576 else 8388608) < len then pushRefuse kind 2 s
  else if kind = 0 ∧ itnState s ≠ 5 then pushRefuse kind 0x0C s
  else
    let p : Push := { kind, len, port := portCode acc.port, priv := privRank acc.priv, init := accInit acc }
    let s1 := set (setItn { s.itn with push := some p } s) F.ITN_PUSH_CTL_START 1
    if kind = 1 then setOvlState 1 s1 else setItnState 6 s1

/-- ABORT: the partial image is discarded (R46); nothing without a push that still receives. -/
def pushDrop (s : State) : State :=
  match s.itn.push with
  | none => s
  | some p =>
    if p.verify then s
    else
      let s1 := startDone F.ITN_PUSH_CTL_START (setItn { s.itn with push := none } s)
      if p.kind = 1 then setOvlState 0 s1 else setItnState 5 s1

/-- A word of the image; the last one starts verification (R44, R46). -/
def pushWord (w : Word) (s : State) : State :=
  match s.itn.push with
  | none => flag F.ITN_ERR_PUSH_REFUSED s
  | some p =>
    if p.verify then flag F.ITN_ERR_PUSH_REFUSED s
    else
      let d := p.data ++ wordBytes w
      if d.length < p.len then setItn { s.itn with push := some { p with data := d } } s
      else
        let s1 := startDone F.ITN_PUSH_CTL_START (setItn { s.itn with push := some { p with data := d, verify := true } } s)
        if p.kind = 1 then setOvlState 2 s1 else setItnState 2 s1

/-- The unit's treatment of a write to the ITN page. ABORT goes before START of the same write. -/
def itnWrite (a : Nat) (acc : Acc) (s : State) : State :=
  if a = F.ITN_PUSH_DATA_DATA.addr then pushWord (wdata acc) (perform a acc s)
  else
    let s1 := perform a acc s
    if a = F.ITN_PUSH_CTL_START.addr then
      let s2 := if wrote1 acc F.ITN_PUSH_CTL_ABORT then pushDrop s1 else s1
      if wrote1 acc F.ITN_PUSH_CTL_START then pushBegin acc s2 else s2
    else s1

/-- PUSH_START (R44). -/
def execPushStart (acc : Acc) (s : State) : Host.Outcome State Fault Refusal :=
  .next (portWrite itnWrite F.ITN_PUSH_CTL_START.addr (force F.ITN_PUSH_CTL_START 1 acc) s)
/-- PUSH_ABORT (R46). -/
def execPushAbort (acc : Acc) (s : State) : Host.Outcome State Fault Refusal :=
  .next (portWrite itnWrite F.ITN_PUSH_CTL_START.addr (force F.ITN_PUSH_CTL_ABORT 1 acc) s)
/-- PUSH_DATA (R44). -/
def execPushData (acc : Acc) (s : State) : Host.Outcome State Fault Refusal := .next (portWrite itnWrite F.ITN_PUSH_DATA_DATA.addr acc s)

/-- An overlay enters the store as the latest accepted (R56). -/
def storeOverlay (seq digest : Nat) (secs : List (Nat × List Byte)) (s : State) : State :=
  showStore (set (setItn { s.itn with store := amend s.itn.store secs, storeSeq := seq, storeDigest := runDigest s, ovlDigest := digest } s)
    F.ITN_OVL_STATUS_LAST_SEQ seq)

/-- Verification of a push ends (R38, R47, R55, R58). -/
def pushVerified (s : State) : State :=
  match s.itn.push with
  | none => s
  | some p =>
    if !p.verify then s
    else
      let s1 := setItn { s.itn with push := none } s
      if p.kind = 0 then
        let code := baseCode (chipId s) p.data
        if code = 0 then acceptBase { slot := 3, bytes := p.data, port := p.port, priv := p.priv, init := p.init } s1
        else setItnState 5 (itnReject code s1)
      else
        let code := overlayCode (pers s) (runDigest s) (get s F.ITN_OVL_STATUS_LAST_SEQ) (chipId s) s.itn.cfg s.itn.store p.data
        if code ≠ 0 then setOvlState 0 (ovlReject code s1)
        else
          let secs := secList p.data
          let cls := classOfSecs secs
          let dig := leAt (imageDigest p.data) 0 8
          if cls = 2 then setOvlState 0 (set (storeOverlay (hSeq p.data) dig secs s1) F.ITN_OVL_STATUS_PENDING_WARM 1)
          else
            let v : Ovl := { seq := hSeq p.data, cls, digest := dig, secs, ready := s.tim.tb2, port := p.port, priv := p.priv, init := p.init }
            setOvlState 3 (setItn { s1.itn with ovl := some v } s1)

/-- PUSH_VERIFY_DONE (R47). -/
def execPushVerifyDone (s : State) : Host.Outcome State Fault Refusal := .next (pushVerified s)

/-! Overlays (R49 to R54). -/

/-- An overlay begins to take effect: it enters the store, its sections become the running ones, and the Ledger records it (R56, R60). -/
def ovlAccept (v : Ovl) (s : State) : State :=
  let old := BitVec.ofNat 64 s.itn.ovlDigest
  let s1 := storeOverlay v.seq v.digest v.secs s
  ledger 3 v.port v.priv 0 v.init v.seq v.cls old (BitVec.ofNat 64 v.digest) (setItn { s1.itn with cfg := amend s1.itn.cfg v.secs } s1)

/-- A live overlay takes effect where an epoch boundary lies at this instant, at least 2 µs after its verification (R49): its domain-scoped
sections for the domains that have it, and its instance-scoped sections, with the entries of domains that are not active, at the
first; or all of it while no domain is active. -/
def liveApply (s : State) : State :=
  match s.itn.ovl with
  | none => s
  | some v =>
    let act := activeDomains s
    let now := boundNow (v.ready + usec 2) s
    if v.cls ≠ 0 ∨ (!act.isEmpty ∧ now.isEmpty) then s
    else
      let s1 := if v.inst then s else ovlAccept v s
      let cfg := s1.itn.cfg
      let s2 := if v.inst then s1 else v.secs.foldl (fun s e => applyInstance cfg e.1 s) s1
      let p (d : Nat) : Bool := if act.contains d then now.contains d && !v.domains.contains d else !v.inst
      let s3 := v.secs.foldl (fun s e => applyDomains cfg p e.1 s) s2
      let ds := v.domains ++ now
      if act.all ds.contains then setOvlState 0 (setItn { s3.itn with ovl := none } s3)
      else setItn { s3.itn with ovl := some { v with domains := ds, inst := true } } s3

/-- LIVE_OVERLAY_APPLY (R49). -/
def execLiveOverlayApply (s : State) : Host.Outcome State Fault Refusal := .next (liveApply s)

/-- The unit pages named by an overlay's sections (R53). -/
def ovlPages (s : State) (v : Ovl) : List Nat := (v.secs.flatMap fun e => secPages s (amend s.itn.cfg v.secs) e.1).dedup

/-- A quiesce overlay begins (R53, step 1) at the first boundary of any active domain, or at once with none; while a fence or a mode switch
holds one of its units it waits (R54). -/
def quiesceStart (s : State) : State :=
  match s.itn.ovl with
  | none => s
  | some v =>
    if v.cls ≠ 1 ∨ v.quiesce.isSome ∨ (!v.started ∧ !(activeDomains s).isEmpty ∧ (boundNow v.ready s).isEmpty) then s
    else
      let ps := ovlPages s v
      if ps.any fun p => fenceHolds s p || heldBy s 2 p then
        setItn { s.itn with ovl := some { v with started := true, waits := some (v.waits.getD s.tim.tb2) } } s
      else
        let s1 := holdUnits 1 ps (setItn { s.itn with ovl := some { v with started := true, quiesce := some s.tim.tb2 } } s)
        let qs := if v.secs.any (fun e => e.1 == 9) then queuesChanged (secEntries 9 v.secs) s else []
        setOvlState 4 { s1 with ink := { s1.ink with holdQ := qs } }

/-- QUIESCE_OVERLAY_START (R53). -/
def execQuiesceOverlayStart (s : State) : Host.Outcome State Fault Refusal := .next (quiesceStart s)

/-- The quiesce of an overlay is released (R53, step 3). -/
def quiesceEnd (s : State) : State :=
  releaseUnits 1 (setOvlState 0 (setItn { s.itn with ovl := none } { s with ink := { s.ink with holdQ := [] } }))

/-- Every named unit is quiescent: the sections are written and the quiesce released (R53, steps 2 and 3). Each function whose mode changes
is drained, hands over and flips (R54). -/
def quiesceWrite (buf : Option (List Byte)) (s : State) : State :=
  match s.itn.ovl with
  | none => s
  | some v =>
    let w := leAt ((secBytes 12 v.secs).getD []) 0 2 % 512
    let fs := if v.secs.any (fun e => e.1 == 12) then modesChanged s w else []
    if v.quiesce.isNone ∨ !((ovlPages s v).all (unitQuiet s)) ∨ !(fs.all (funcDrained s)) then s
    else
      let s1 := ovlAccept v (setOvlState 5 s)
      let cfg := s1.itn.cfg
      let s2 := v.secs.foldl (fun s e => applyDomains cfg (fun _ => true) e.1 (applyInstance cfg e.1 s)) s1
      let s3 := fs.foldl (fun s f =>
        let m := if w.testBit f then 1 else 0
        flipMode f m v.port v.priv v.init buf (handOver f m s)) s2
      quiesceEnd s3

/-- QUIESCE_OVERLAY_WRITE (R53). -/
def execQuiesceOverlayWrite (buf : Option (List Byte)) (s : State) : Host.Outcome State Fault Refusal := .next (quiesceWrite buf s)

/-- A unit has not reported quiescent within QUIESCE_TIMEOUT (R53, step 2). -/
def quiesceTimeout (s : State) : State :=
  match s.itn.ovl with
  | none => s
  | some v =>
    match v.quiesce with
    | none => s
    | some t =>
      if (ovlPages s v).all (unitQuiet s) then s
      else quiesceEnd (ovlReject 0x0E (reachBase 2 (t + usec (get s F.ITN_OVL_CTL_QUIESCE_TIMEOUT)) s))

/-- QUIESCE_OVERLAY_TIMEOUT (R53). -/
def execQuiesceOverlayTimeout (s : State) : Host.Outcome State Fault Refusal := .next (quiesceTimeout s)

/-- A fence or a mode switch has held a unit for HOLD_TIMEOUT (R54). -/
def holdTimeout (s : State) : State :=
  match s.itn.ovl with
  | none => s
  | some v =>
    match v.waits with
    | none => s
    | some t =>
      if v.quiesce.isSome ∨ !((ovlPages s v).any fun p => fenceHolds s p || heldBy s 2 p) then s
      else
        let s1 := reachBase 2 (t + usec (get s F.ITN_OVL_CTL_HOLD_TIMEOUT)) s
        setOvlState 0 (ovlReject 0x0B (setItn { s1.itn with ovl := none } s1))

/-- OVERLAY_HOLD_TIMEOUT (R54). -/
def execOverlayHoldTimeout (s : State) : Host.Outcome State Fault Refusal := .next (holdTimeout s)

end Sys2Proof.Machine
end

