-- ==== Sys2Proof/Machine/Window.lean ====
section
/-!
DEFINITION. The Command Window (R640 to R645) and attention pulses (R76).
-/
namespace Sys2Proof.Machine

/-- An attention for the control cores: dropped while CTRL is in reset or fenced (R567), merged into a toggle whose window of 6 SCLK cycles
is open, and a toggle otherwise (R76). -/
def attention (s : State) : State :=
  if inReset s 0 ∨ fenced s 0 ∨ s.tim.tb2 < s.eop.attnUntil then s
  else { s with eop := { s.eop with attn := !s.eop.attn, attnUntil := s.tim.tb2 + 30 * 2 ^ 48 } }

/-- ATTENTION_PULSE (R76); in PS3 it wakes the instance (R679). -/
def execAttentionPulse (s : State) : Host.Outcome State Fault Refusal := .next (attention (if pwState s = 3 then wake 0 s else s))

/-- Word `i` of slot `n`, its OP and SEQ. -/
def cwWordAddr (n i : Nat) : Nat := 0x580000 + 0x100 * n + 8 * i
def cwArg (s : State) (n i : Nat) : Word := rd s (cwWordAddr n i)
def cwOp (s : State) (n : Nat) : Nat := get s (F.CW_WORD0_OP n)

/-- The states of a slot (R641). -/
def cwPosted (s : State) (n : Nat) : Bool := bitOn s F.CTL_CW_STATUS_POSTED n
def cwDone (s : State) (n : Nat) : Bool := bitOn s F.CTL_CW_STATUS_DONE n

/-- A slot's result posts with its data: DONE (R641). -/
def cwResult (n status : Nat) (d0 d1 d2 : Word) (s : State) : State :=
  let s1 := setBit (setBit s F.CTL_CW_STATUS_POSTED n false) F.CTL_CW_STATUS_DONE n true
  let s2 := wr (wr (wr s1 (F.CW_RDATA0_DATA n).addr d0) (F.CW_RDATA1_DATA n).addr d1) (F.CW_RDATA2_DATA n).addr d2
  post (F.CW_RESULT_SEQ n).addr (get s (F.CW_WORD0_SEQ n)) (BitVec.ofNat 64 status)
    (setCtl { s2.ctl with posts := s2.ctl.posts.filter fun p => p.slot != n } s2)

/-- A result without data. -/
def cwStatus (n status : Nat) (s : State) : State := cwResult n status 0 0 0 s

/-- The statuses of CW_RESULT. -/
def cwMODE : Nat := 1
def cwBADOP : Nat := 2
def cwBADARG : Nat := 3
def cwLATE : Nat := 4
def cwFENCED : Nat := 5
def cwSEQ : Nat := 6

/-- A buffer of `len` bytes lies in region 7 and was read (R645). -/
def bufOk (s : State) (addr len : Nat) (buf : Option (List Byte)) : Bool :=
  bytesIn s 7 addr len && get s (F.MMP_RGN_BASE_PERM 7) % 2 == 1 && (match buf with | some b => decide (len ≤ b.length) | none => false)

/-- TALLY_SAMPLE (R222): the sample of an epoch coded by the host; late from B(n + 1) on. -/
def cwTally (n : Nat) (buf : Option (List Byte)) (s : State) : State :=
  let k := bitsAt (cwArg s n 1) 0 6
  let e := bitsAt (cwArg s n 1) 16 48
  let len := (cwArg s n 3).toNat
  if k ≠ get s F.TLY_HA_CTL_SCHED ∨ nScheds s ≤ k ∨ 1048576 < len ∨ !bufOk s (cwArg s n 2).toNat len buf then cwStatus n cwBADARG s
  else
    let body := (buf.getD []).take len
    match readDelta (body.length + 1) body with
    | none => cwStatus n cwBADARG s
    | some ps =>
      if boundary s k (e + 1) ≤ ns0 s then
        cwStatus n cwLATE (report F.TLY_ERR_HA_LATE 0x0809 ADVISE (k + 2 ^ 16 * e) s)
      else
        let vals := ps.flatMap fun p => match p with | .delta _ _ _ _ v => v | _ => []
        let (fl, sp) := match ps with | .delta _ _ f sp _ :: _ => (f, sp) | _ => (0, 1)
        let c : Cut := { sched := k, domain := get s (F.TLY_SCHED_CTL_DOMAIN k), epoch := e, flags := fl, span := max 1 sp,
                         first := get s (F.TLY_SCHED_RANGE_FIRST k), last := get s (F.TLY_SCHED_RANGE_LAST k), prev := [],
                         cur := vals.foldl (fun t v => store v.1 (BitVec.ofNat 64 v.2) t) [], bins := none, snaps := [], host := true }
        cwResult n 0 (BitVec.ofNat 64 len) 0 0 (handSample c (wbStage 1 e k body s))

/-- The next sequence of a stream, after the packets of it that wait in queues or for room (R156). -/
def nextSeqOf (s : State) (lvl idx vc : Nat) : Nat :=
  let same (i : InkItem) : Bool := match i.pkt with | some (p, l, x) => l == lvl && x == idx && p.vc == vc | none => false
  let waiting : Nat := s.ink.queues.foldl (fun m e => m + (e.2.items.filter same).length) ((s.ink.hold.filter same).length)
  let base := ((s.fbp.txSeq.find? fun e => e.1 == (lvl, idx, vc)).map Prod.snd).getD 0
  (base + waiting) % 2 ^ 32

/-- CARAVAN_PAYLOAD (R644): a payload built by the host is framed and sent to the parent of its epoch. -/
def cwCaravan (n : Nat) (buf : Option (List Byte)) (s : State) : State :=
  let d := bitsAt (cwArg s n 1) 0 20
  let type := bitsAt (cwArg s n 1) 20 8
  let fl := bitsAt (cwArg s n 1) 32 16
  let e := (cwArg s n 2).toNat % 2 ^ 48
  let len := (cwArg s n 4).toNat
  if type = 0 ∨ 8 < type ∨ 4096 < len ∨ !bufOk s (cwArg s n 3).toNat len buf then cwStatus n cwBADARG s
  else match parentFor s d e with
    | none => cwStatus n cwBADARG s
    | some dst =>
      let q := nextSeqOf s dst.1 dst.2.1 (classVc s (classOf type fl false))
      cwResult n 0 (BitVec.ofNat 64 q) 0 0 (sendUp type fl d e e ((buf.getD []).take len) s)

/-- PTP_STAMPS (R264): the stamps of one exchange; RDATA0 is the offset by the D in use, or by the exchange's own D while there is none. -/
def cwStamps (n : Nat) (s : State) : State :=
  let t (i : Nat) : Int := ((cwArg s n (2 * i - 1)).toNat * 65536 + bitsAt (cwArg s n (2 * i)) 0 16 : Nat)
  let cs := toSigned 64 (cwArg s n 9).toNat
  let s1 := ptpStamps (t 1) (t 2) (t 3) (t 4) cs (toSigned 64 (cwArg s n 10).toNat) s
  let d := match s.tim.ptp.d with | some d => d | none => s1.tim.ptp.d.getD 0
  let o := t 2 + word16 - get s (F.SEP_LAT_RX 0) - t 1 - cs - d
  cwResult n 0 (BitVec.ofNat 64 (ofSigned 64 o)) 0 0 s1

/-- The function whose host-assisted mode an OP needs (R644). -/
def cwFunc : Nat → Nat
  | 1 => 0
  | 2 => 1
  | 3 => 6
  | 4 => 2
  | 5 => 3
  | _ => 4

/-- A post of one of the OPs 0x01 to 0x06 is carried out (R643 to R645). -/
def cwExec (n : Nat) (buf : Option (List Byte)) (s : State) : State :=
  match cwOp s n with
  | 1 => cwTally n buf s
  | 2 => cwCaravan n buf s
  | 3 => cwStamps n s
  | 4 =>
    let d := bitsAt (cwArg s n 1) 48 6
    if 14 < (cwArg s n 2).toNat ∨ (cwArg s n 2).toNat = 0 then cwStatus n cwBADARG s
    else if evaluated (detAt s d) (bitsAt (cwArg s n 1) 0 48) ((cwArg s n 1).getLsbD 56) then cwStatus n cwLATE (takeScores (cwArg s n) s).1
    else
      let r := takeScores (cwArg s n) s
      cwResult n 0 (BitVec.ofNat 64 r.2) 0 0 r.1
  | 5 => match takeOutcome (cwArg s n) s with
    | (s1, some x) => cwResult n 0 (BitVec.ofNat 64 x) 0 0 s1
    | (_, none) => cwStatus n cwBADARG s
  | _ => match parityPost (cwArg s n 1).toNat s with
    | (s1, true) => cwStatus n 0 s1
    | (_, false) => cwStatus n cwBADARG s

/-- Firmware serves posts: it is RUNNING on some core. -/
def cwServed (s : State) : Bool := get s F.CTL_STATUS_FW_STATE == 2 && on s F.CTL_STATUS_RUNNING

/-- The posts that waited are carried out in posting order (R634, R643). -/
def cwServe (s : State) : State :=
  if cwServed s then s.ctl.posts.foldl (fun s p => cwExec p.slot p.buf s) s else s

/-- A post (R641 to R644): refused at once with a status, carried out, or left in its slot for firmware. -/
def cwPost (n : Nat) (acc : Acc) (buf : Option (List Byte)) (s : State) : State :=
  let s0 := setBit s F.CTL_CW_STATUS_POSTED n true
  let s1 := attention s0
  let op := cwOp s n
  if fenced s 0 then cwStatus n cwFENCED s0
  else if bitsAt (wdata acc) 48 16 ≠ get s (F.CW_WORD0_SEQ n) then cwStatus n cwSEQ s0
  else if 0x80 ≤ op then s1
  else if op = 0 ∨ 7 ≤ op then cwStatus n cwBADOP s1
  else if !hostMode s (cwFunc op) then cwStatus n cwMODE s1
  else cwServe (setCtl { s1.ctl with posts := s1.ctl.posts ++ [{ slot := n, buf }] } s1)

/-- A write to a slot that may not take it (R641). -/
def cwBusy (s : State) : State := flag F.CTL_ERR_CW_BUSY s

/-- The unit's treatment of a write to the Command Window; `buf` is what the buffer in region 7 that a post names holds. -/
def cwWrite (buf : Option (List Byte)) (a : Nat) (acc : Acc) (s : State) : State :=
  if 0x581000 ≤ a then
    let n := (a - 0x581000) / 0x20
    let s1 := consume a acc s
    if valid s a && !valid s1 a then setBit s1 F.CTL_CW_STATUS_DONE n false else s1
  else
    let n := (a - 0x580000) / 0x100
    if cwPosted s n then cwBusy s
    else if a % 0x100 = 0xF8 then (if cwDone s n then cwBusy s else cwPost n acc buf s)
    else perform a acc s

/-- CTRL is fenced: a post that is unfinished answers FENCED at once (R567). -/
def cwFence (s : State) : State := (List.range 16).foldl (fun s n => if cwPosted s n then cwStatus n cwFENCED s else s) s

/-- The write to word 31 of a slot whose OP is one that `p` admits; one that waits for SCLK waits with its buffer. -/
def cwRow (p : Nat → Bool) (n : Nat) (acc : Acc) (buf : Option (List Byte)) (s : State) : State :=
  if n < 16 ∧ p (cwOp s n) then
    bringing buf none (portWrite (cwWrite buf) (cwWordAddr n 31) acc) s
  else s

/-- TALLY_SAMPLE (R222). -/
def execTallySample (slot : Nat) (acc : Acc) (buf : Option (List Byte)) (s : State) : Host.Outcome State Fault Refusal :=
  .next (cwRow (· == 1) slot acc buf s)
/-- CARAVAN_PAYLOAD (R644). -/
def execCaravanPayload (slot : Nat) (acc : Acc) (buf : Option (List Byte)) (s : State) : Host.Outcome State Fault Refusal :=
  .next (cwRow (· == 2) slot acc buf s)
/-- PTP_STAMPS (R264). -/
def execPtpStamps (slot : Nat) (acc : Acc) (s : State) : Host.Outcome State Fault Refusal := .next (cwRow (· == 3) slot acc none s)
/-- SCORES (R445). -/
def execScores (slot : Nat) (acc : Acc) (s : State) : Host.Outcome State Fault Refusal := .next (cwRow (· == 4) slot acc none s)
/-- VERIFY_OUTCOME (R491). -/
def execVerifyOutcome (slot : Nat) (acc : Acc) (s : State) : Host.Outcome State Fault Refusal := .next (cwRow (· == 5) slot acc none s)
/-- PARITY_READY (R512). -/
def execParityReady (slot : Nat) (acc : Acc) (s : State) : Host.Outcome State Fault Refusal := .next (cwRow (· == 6) slot acc none s)
/-- CW_BAD_OP (R644). -/
def execCwBadOp (slot : Nat) (acc : Acc) (s : State) : Host.Outcome State Fault Refusal :=
  .next (cwRow (fun o => o == 0 || (7 ≤ o && o < 0x80)) slot acc none s)

/-- Firmware answers an OP that it defines (R644): status and data. -/
def cwAnswer (n status : Nat) (d0 d1 d2 : Word) (s : State) : State :=
  if n < 16 ∧ cwPosted s n ∧ 0x80 ≤ cwOp s n ∧ cwServed s then cwResult n (status % 256) d0 d1 d2 s else s

/-- CW_FIRMWARE_OP (R644): the post, its answer by firmware, or both. -/
def execCwFirmwareOp (slot : Nat) (acc : Option Acc) (ans : Option (Nat × Word × Word × Word)) (s : State) : Host.Outcome State Fault Refusal :=
  let s1 := match acc with
    | some acc => cwRow (0x80 ≤ ·) slot acc none s
    | none => s
  .next (match ans with
    | some (st, d0, d1, d2) => cwAnswer slot st d0 d1 d2 s1
    | none => s1)

end Sys2Proof.Machine
end

