-- ==== Sys2Proof/Machine/Firmware.lean ====
section
/-!
DEFINITION. Firmware images and the control cores (R626 to R634): the load, the stage, the live switch, and a core halted by an
uncorrectable error.
-/
namespace Sys2Proof.Machine

/-- MAGIC and FORMAT, LENGTH, and PERS of an image (R629): 0, or the status that its first failure has. -/
def fwHeader (s : State) (b : List Byte) : Nat :=
  if b.take 4 ≠ [0x46, 0x57, 0x49, 0x4D] ∨ byteAt b 4 ≠ 1 then 3
  else if leAt b 12 4 ≠ b.length ∨ b.length % 64 ≠ 0 ∨ b.length < 384 ∨ fwArea s < b.length then 4
  else if leAt b 5 1 ≠ pers s then 5
  else 0

/-- The check of an image (R630): 0, or its status. A slot that could not be read has no MAGIC. -/
def fwCheck (s : State) : Option (List Byte) → Nat
  | none => 3
  | some b => match fwHeader s b with
    | 0 => (match envelope b 0 (pers s) with | 0 => 0 | e => 0x10 + e)
    | e => e

/-- The order in which the slots are tried (R631). -/
def fwOrder (s : State) (a b : Option (List Byte)) : List Nat :=
  let good (x : Option (List Byte)) : Bool := match x with | some i => fwHeader s i == 0 | none => false
  let ver (x : Option (List Byte)) : Nat := leAt (x.getD []) 8 4
  if on s F.CTL_FW_CTL_PREFER_B then [1, 0]
  else if good a && good b then (if ver a < ver b then [1, 0] else [0, 1])
  else if good b then [1, 0] else [0, 1]

/-- A rejected image (R630). -/
def fwReject (slot status : Nat) (s : State) : State :=
  note 0x1701 FAULT (slot + 256 * status) (set s F.CTL_FW_RESULT_STATUS status)

/-- The cores that are connected and halted neither by an error (R628) nor by a debugger (R711). -/
def liveCores (s : State) : List Nat :=
  (List.range (nCores s)).filter fun c => !bitOn s F.CTL_STATUS_HALTED c && !dbgHalted s c

/-- The cores are released at the ENTRY of the image in area `k` with a0 and a1 (R631, R632); the privileges are those of its CORE_PRIV. -/
def releaseCores (k : Nat) (img : List Byte) (a0 a1 : Nat) (s : State) : State :=
  let pc := BitVec.ofNat 64 (0x10000000 + k * fwArea s + leAt img 16 4)
  let cs := liveCores s
  let s1 : State := { s with cores := cs.foldl (fun t c =>
    store c (putX (putX { (look c t).getD {} with pc } 10 (BitVec.ofNat 64 a0)) 11 (BitVec.ofNat 64 a1)) t) s.cores }
  let s2 := setCtl { s1.ctl with privs := (List.range 8).map fun c => leAt img (20 + c) 1 } s1
  let mask := cs.foldl (fun m c => m ||| 2 ^ c) 0
  ltnRelease mask 5 (set (runCores mask (set s2 F.CTL_STATUS_RUNNING 0)) F.CTL_STATUS_FW_STATE 2)

/-- The accepted image is copied to area 0 and runs (R631). -/
def fwStart (slot : Nat) (img : List Byte) (s : State) : State :=
  let s1 := wr (fwPut 0 img s) F.CTL_FW_INFO_SLOT.addr (BitVec.ofNat 64 slot)
  cwServe (releaseCores 0 img 0 0 s1)

/-- The loader tries both slots (R631). -/
def firmwareLoad (a b : Option (List Byte)) (s : State) : State :=
  if get s F.ITN_STATUS_STATE ≠ 4 ∨ get s F.CTL_STATUS_FW_STATE ≠ 1 ∨ inReset s 0 ∨ get s F.KSP_STATUS_OWNER ≠ 2 then s
  else
    let img (k : Nat) : Option (List Byte) := if k = 0 then a else b
    let s1 := match fwOrder s a b with
      | [k, j] =>
        if fwCheck s (img k) = 0 then fwStart k ((img k).getD []) s
        else
          let s1 := fwReject k (fwCheck s (img k)) s
          if fwCheck s (img j) = 0 then fwStart j ((img j).getD []) s1
          else set (fwReject j (fwCheck s (img j)) s1) F.CTL_STATUS_FW_STATE 0
      | _ => s
    loaderFree s1

/-- FIRMWARE_LOAD (R631). -/
def execFirmwareLoad (slotA slotB : Option (List Byte)) (s : State) : Host.Outcome State Fault Refusal := .next (firmwareLoad slotA slotB s)

/-! CTL_FW_CMD (R632). -/

/-- A result of the page posts, or waits until the one shown is consumed (R639). -/
def ctlPost (a seq status : Nat) (s : State) : State :=
  if valid s a then setCtl { s.ctl with owed := s.ctl.owed ++ [(a, seq, status)] } s
  else post a seq (BitVec.ofNat 64 status) s

/-- A result is consumed, and the next one that waits posts. -/
def ctlConsume (a : Nat) (acc : Acc) (s : State) : State :=
  let s1 := consume a acc s
  if valid s1 a then s1
  else match s1.ctl.owed.find? fun o => o.1 == a with
    | none => s1
    | some o => ctlPost a o.2.1 o.2.2 (setCtl { s1.ctl with owed := s1.ctl.owed.erase o } s1)

/-- A command's result posts; START shows whether a command is in progress. -/
def fwPost (seq status : Nat) (s : State) : State :=
  ctlPost F.CTL_FW_RESULT_SEQ.addr seq status (set s F.CTL_FW_CMD_START (if s.ctl.stage.isSome || s.ctl.sw.isSome then 1 else 0))

/-- A firmware command is in progress, or the loader still loads. -/
def fwBusy (s : State) : Bool := s.ctl.stage.isSome || s.ctl.sw.isSome || get s F.CTL_STATUS_FW_STATE == 1

/-- A quiesce overlay is in progress: QUIESCING or WRITING (R53). -/
def ovlBusy (s : State) : Bool := get s F.ITN_OVL_STATUS_STATE == 4 || get s F.ITN_OVL_STATUS_STATE == 5

/-- STAGE. -/
def fwStage (s : State) : State :=
  let seq := get s F.CTL_FW_CMD_SEQ
  if fwBusy s then fwPost seq 1 s
  else
    let s1 := setCtl { s.ctl with stage := some (seq, get s F.CTL_FW_CMD_SLOT) } s
    loaderTake (set s1 F.CTL_FW_CMD_START 1)

/-- SWITCH_REQ is set: step 1 is complete. -/
def fwRequest (s : State) : State :=
  match s.ctl.sw with
  | none => s
  | some w => set (setCtl { s.ctl with sw := some { w with req := some s.tim.tb2 } } s) F.CTL_STATUS_SWITCH_REQ 1

/-- The bytes of the image that stands in an area, by its LENGTH. -/
def areaImage (s : State) (k : Nat) : List Byte :=
  let h := cellsAt s.fwSram (k * fwArea s) 64
  h ++ cellsAt s.fwSram (k * fwArea s + 64) (min (leAt h 12 4) (fwArea s) - 64)

/-- Steps 3 and 4: the staged image takes over once every running core is ready. -/
def fwFinish (s : State) : State :=
  match s.ctl.sw with
  | none => s
  | some w =>
    if w.req.isNone ∨ (List.range 8).any fun c => bitOn s F.CTL_STATUS_RUNNING c && !w.ready.contains c then s
    else
      let k := get s F.CTL_FW_INFO_AREA
      let old := cellsAt s.fwSram (k * fwArea s) 64
      let img := areaImage s (1 - k)
      let s1 := set (set (set s F.CTL_FW_INFO_AREA (1 - k)) F.CTL_FW_INFO_SLOT (s.ctl.staged.getD 0)) F.CTL_FW_INFO_STAGED 0
      let s2 := setCtl { s1.ctl with sw := none, staged := none } s1
      let s3 := releaseCores (1 - k) img (0x10000000 + fwSize s - 65536) (leAt old 36 4) s2
      let s4 := fwPost w.seq 0 (set s3 F.CTL_STATUS_SWITCH_REQ 0)
      cwServe (note 0x1702 INFO (leAt old 8 4 + 2 ^ 32 * leAt img 8 4) s4)

/-- SWITCH (R632, R634). -/
def fwSwitch (s : State) : State :=
  let seq := get s F.CTL_FW_CMD_SEQ
  if fwBusy s ∨ s.ctl.mode.isSome ∨ ovlBusy s ∨ fenced s 0 then fwPost seq 1 s
  else if s.ctl.staged.isNone then fwPost seq 6 s
  else
    let s1 := setCtl { s.ctl with sw := some { seq, since := s.tim.tb2 } } s
    let s2 := set (set s1 F.CTL_FW_CMD_START 1) F.CTL_STATUS_FW_STATE 3
    if (runs s).isEmpty then fwFinish (fwRequest s2) else s2

/-- START of a firmware command: ignored while the result before it is unconsumed (R639). -/
def fwCommand (s : State) : State :=
  if valid s F.CTL_FW_RESULT_SEQ.addr then s
  else match get s F.CTL_FW_CMD_OP with
    | 0 => fwStage s
    | 1 => fwSwitch s
    | op => fwPost (get s F.CTL_FW_CMD_SEQ) 7 (undefinedField F.CTL_FW_CMD_OP.addr op s)

/-- The image of the named slot has been read and verified (R630, R632). -/
def stageDone (img : Option (List Byte)) (s : State) : State :=
  match s.ctl.stage with
  | none => s
  | some (seq, slot) =>
    if inReset s 0 ∨ get s F.KSP_STATUS_OWNER ≠ 2 then s
    else
      let code := fwCheck s img
      let s1 := loaderFree (setCtl { s.ctl with stage := none, staged := if code = 0 then some slot else none } s)
      if code = 0 then
        let b := img.getD []
        fwPost seq 0 (set (fwPut ((1 - get s F.CTL_FW_INFO_AREA) * fwArea s) b s1) F.CTL_FW_INFO_STAGED (leAt b 8 4))
      else fwPost seq code (note 0x1701 FAULT (slot + 256 * code) (set s1 F.CTL_FW_INFO_STAGED 0))

/-- FIRMWARE_STAGE_DONE (R630). -/
def execFirmwareStageDone (img : Option (List Byte)) (s : State) : Host.Outcome State Fault Refusal := .next (stageDone img s)

/-- After the first boundary of any schedule in RUN and the sample bound, the handover is requested (R632, step 1). -/
def switchReq (s : State) : State :=
  match s.ctl.sw with
  | none => s
  | some w =>
    match s.itn.bound with
    | some (b, _) =>
      if w.req.isSome ∨ b < w.since ∨ inReset s 0 then s
      else fwFinish (fwRequest (reachBase 2 (b + sampleBound s) s))
    | none => s

/-- SWITCH_REQ (R632). -/
def execSwitchReq (s : State) : Host.Outcome State Fault Refusal := .next (switchReq s)

/-- A core writes CTL_FW_READY (R632, step 2); other ports' writes have no effect. -/
def fwReady (acc : Acc) (s : State) : State :=
  match acc.port, s.ctl.sw with
  | .core c, some w =>
    if w.req.isNone then s
    else fwFinish (setCtl { s.ctl with sw := some { w with ready := if w.ready.contains c then w.ready else w.ready ++ [c] } } s)
  | _, _ => s

/-- A core has not been ready within 40 µs (R633). -/
def switchTimeout (s : State) : State :=
  match s.ctl.sw with
  | none => s
  | some w =>
    match w.req with
    | none => s
    | some t =>
      let late := (List.range 8).foldl (fun m c => if bitOn s F.CTL_STATUS_RUNNING c && !w.ready.contains c then m ||| 2 ^ c else m) 0
      if inReset s 0 then s
      else
        let s1 := reachBase 2 (t + usec 40) s
        let s2 := setCtl { s1.ctl with sw := none } (set (set s1 F.CTL_STATUS_SWITCH_REQ 0) F.CTL_STATUS_FW_STATE 2)
        cwServe (note 0x1703 ADVISE late (fwPost w.seq 2 s2))

/-- FIRMWARE_SWITCH_TIMEOUT (R633). -/
def execFirmwareSwitchTimeout (s : State) : Host.Outcome State Fault Refusal := .next (switchTimeout s)

/-- An uncorrectable error halts a core (R628); a switch no longer waits for it. -/
def coreHaltEcc (c : Nat) (s : State) : State :=
  if inReset s 0 ∨ nCores s ≤ c ∨ !bitOn s F.CTL_STATUS_RUNNING c then s
  else fwFinish (note 0x1707 FAULT c (setBit (setBit s F.CTL_STATUS_HALTED c true) F.CTL_STATUS_RUNNING c false))

/-- CORE_HALT_ECC (R628). -/
def execCoreHaltEcc (c : Nat) (s : State) : Host.Outcome State Fault Refusal := .next (coreHaltEcc c s)

/-! Mode switches (R646, R647). -/

/-- A mode switch's result posts. -/
def modePost (seq status : Nat) (s : State) : State :=
  ctlPost F.CTL_MODE_RESULT_SEQ.addr seq status (set s F.CTL_MODE_CMD_START (if s.ctl.mode.isSome then 1 else 0))

/-- A mode switch is refused or times out (R647). -/
def modeRefuse (seq func status : Nat) (s : State) : State := modePost seq status (note 0x1705 ADVISE (func + 256 * status) s)

/-- The function's units are quiescent and its work is drained: the handover takes place (R646, steps 1 to 3). -/
def modeHand (s : State) : State :=
  match s.ctl.mode with
  | none => s
  | some m =>
    if m.handed.isSome ∨ inReset s 0 ∨ !unitQuiet s (funcPage m.func) ∨ !funcDrained s m.func then s
    else handOver m.func m.mode (setCtl { s.ctl with mode := some { m with handed := some s.tim.tb2 } } s)

/-- START of a mode switch. -/
def modeCommand (acc : Acc) (s : State) : State :=
  let seq := get s F.CTL_MODE_CMD_SEQ
  let f := get s F.CTL_MODE_CMD_FUNC
  let m := get s F.CTL_MODE_CMD_MODE
  if valid s F.CTL_MODE_RESULT_SEQ.addr then s
  else if 9 ≤ f then modePost seq 5 (undefinedField F.CTL_MODE_CMD_FUNC.addr f s)
  else if bitOn s F.GLB_FUNC_MODE_MODE f = (m == 1) then modeRefuse seq f 1 s
  else if s.ctl.mode.isSome ∨ s.ctl.sw.isSome ∨ ovlBusy s then modeRefuse seq f 2 s
  else if fenceHolds s (funcPage f) then modeRefuse seq f 3 s
  else
    let w : ModeSwitch := { seq, func := f, mode := m, start := s.tim.tb2, port := portCode acc.port, priv := privRank acc.priv, init := accInit acc }
    let s1 := set (setCtl { s.ctl with mode := some w } s) F.CTL_MODE_CMD_START 1
    modeHand (holdUnits 2 [funcPage f] s1)

/-- The function flips at the first boundary at least 2 µs after its handover, or at once with no schedule in RUN, and resumes (R646, steps 4 and 5);
`buf` is what the state block in region 7 holds. -/
def modeFlip (buf : Option (List Byte)) (s0 : State) : State :=
  let s := modeHand s0
  match s.ctl.mode with
  | none => s
  | some m =>
    match m.handed with
    | none => s
    | some t =>
      if inReset s 0 ∨ (!(runs s).isEmpty ∧ (boundNow (t + usec 2) s).isEmpty) then s
      else
        let s1 := flipMode m.func m.mode m.port m.priv m.init buf (setCtl { s.ctl with mode := none } s)
        note 0x1704 INFO (m.func + 256 * m.mode) (modePost m.seq 0 (releaseUnits 2 s1))

/-- MODE_SWITCH_FLIP (R646). -/
def execModeSwitchFlip (buf : Option (List Byte)) (s : State) : Host.Outcome State Fault Refusal := .next (modeFlip buf s)

/-- A unit has not been quiescent within QUIESCE_TIMEOUT (R647). -/
def modeTimeout (s : State) : State :=
  match s.ctl.mode with
  | none => s
  | some m =>
    if m.handed.isSome ∨ unitQuiet s (funcPage m.func) ∨ inReset s 0 then s
    else
      let s1 := reachBase 2 (m.start + usec (get s F.ITN_OVL_CTL_QUIESCE_TIMEOUT)) s
      modeRefuse m.seq m.func 4 (releaseUnits 2 (setCtl { s1.ctl with mode := none } s1))

/-- MODE_SWITCH_TIMEOUT (R647). -/
def execModeSwitchTimeout (s : State) : Host.Outcome State Fault Refusal := .next (modeTimeout s)

/-! Registers of the CTL page. -/

/-- The unit's treatment of a write to the CTL page. -/
def ctlWrite (a : Nat) (acc : Acc) (s : State) : State :=
  if a = F.CTL_FW_RESULT_SEQ.addr ∨ a = F.CTL_MODE_RESULT_SEQ.addr then ctlConsume a acc s
  else if a = F.CTL_FW_READY_READY.addr then fwReady acc s
  else
    let s1 := perform a acc s
    if a = F.CTL_FW_CMD_START.addr ∧ wrote1 acc F.CTL_FW_CMD_START then fwCommand s1
    else if a = F.CTL_MODE_CMD_START.addr ∧ wrote1 acc F.CTL_MODE_CMD_START then modeCommand acc s1
    else s1

/-- FIRMWARE_STAGE (R632). -/
def execFirmwareStage (acc : Acc) (s : State) : Host.Outcome State Fault Refusal :=
  .next (portWrite ctlWrite F.CTL_FW_CMD_START.addr (force F.CTL_FW_CMD_START 1 (force F.CTL_FW_CMD_OP 0 acc)) s)
/-- FIRMWARE_SWITCH (R632). -/
def execFirmwareSwitch (acc : Acc) (s : State) : Host.Outcome State Fault Refusal :=
  .next (portWrite ctlWrite F.CTL_FW_CMD_START.addr (force F.CTL_FW_CMD_START 1 (force F.CTL_FW_CMD_OP 1 acc)) s)
/-- FIRMWARE_READY (R632). -/
def execFirmwareReady (acc : Acc) (s : State) : Host.Outcome State Fault Refusal :=
  .next (portWrite ctlWrite F.CTL_FW_READY_READY.addr acc s)
/-- MODE_SWITCH (R646). -/
def execModeSwitch (acc : Acc) (s : State) : Host.Outcome State Fault Refusal :=
  .next (portWrite ctlWrite F.CTL_MODE_CMD_START.addr (force F.CTL_MODE_CMD_START 1 acc) s)

end Sys2Proof.Machine
end

