-- ==== Sys2Proof/Machine/Strongbox.lean ====
section
/-!
DEFINITION. The Strongbox (R617 to R624): the verdict store's acknowledgement, the frame, its save and its restore; the
power-fail warning (R181 to R184, R372).
-/
namespace Sys2Proof.Machine

def setSbx (b : SbxSt) (s : State) : State := { s with sbx := b }

/-! Acknowledgement (R618). -/

/-- Entries up to a sequence leave the store. -/
def verdictAck (q : Nat) (s : State) : State :=
  let l := s.sbx.verdicts.filter fun v => laterMod 32 v.1 q
  set (setSbx { s.sbx with verdicts := l } s) F.SBX_VSTORE_COUNT l.length

/-- The unit's treatment of a write to the SBX page. -/
def sbxWrite (a : Nat) (acc : Acc) (s : State) : State :=
  let s1 := perform a acc s
  if a = F.SBX_VACK_SEQ.addr then verdictAck (get s1 F.SBX_VACK_SEQ) s1 else s1

/-- VERDICT_ACK (R618). -/
def execVerdictAck (acc : Acc) (s : State) : Host.Outcome State Fault Refusal :=
  .next (portWrite sbxWrite F.SBX_VACK_SEQ.addr acc s)

/-! The frame (R619, R620). -/

/-- A base as SEC, NS and FRAC with 4 zero bytes. -/
def frameBase (t : Nat) : List Byte :=
  leBytes 6 (t / 2 ^ 48 / 1000000000) ++ leBytes 4 (t / 2 ^ 48 % 1000000000) ++ leBytes 2 (t / 2 ^ 32) ++ leBytes 4 0

def tb3Bytes (s : State) (lo n : Nat) : List Byte := (List.range n).flatMap fun i => wordBytes (rd s (F.TIM_TB3_OFF_OFFSET (lo + i)).addr)

/-- The time-base state. -/
def frameTime (s : State) : List Byte :=
  padTo 256 (frameBase s.tim.tb0 ++ frameBase s.tim.tb1 ++ frameBase s.tim.tb2
    ++ leBytes 4 (get s (F.TIM_TB_FREQ_INTEG 0)) ++ leBytes 4 (get s (F.TIM_TB_FREQ_INTEG 1))
    ++ ([0, 1].flatMap fun n => leBytes 1 (get s (F.TIM_TB_STATUS_STATE n)) ++ leBytes 1 (get s (F.TIM_TB_STATUS_CAUSE n)))
    ++ leBytes 4 0 ++ tb3Bytes s 0 16)

/-- The Courier commit state. -/
def frameCourier (s : State) : List Byte :=
  let st := get s F.CUR_STATUS_STATE
  padTo 64 (wordBytes (rd s F.CUR_LAST_ID_ID.addr) ++ wordBytes (rd s F.CUR_LAST_INFO_STEP.addr) ++ wordBytes (rd s F.CUR_NEXT_ID_NEXT_ID.addr)
    ++ leBytes 8 st ++ leBytes 8 (if st = 0 then 0 else get s F.CUR_NEXT_ID_NEXT_ID + 2 ^ 64 - 1))

/-- A frame as frozen, with its SAVE_SEQ. -/
def frameBytes (s : State) (saveSeq : Nat) : List Byte :=
  let ldg := s.ldg.tail
  let last := ldg.getLast?
  let resets := get s F.CLK_DOMAIN_STATUS_IN_RESET
  let flags := (if resets = 0 then 0 else 1) + (if get s (F.TIM_TB_STATUS_STATE 0) = 3 then 2 else 0)
    + (if get s F.CUR_STATUS_STATE = 0 then 0 else 4)
  let head := [0x53, 0x54, 0x52, 0x4F, 0x4E, 0x47, 0x42, 0x58] ++ leBytes 1 1 ++ leBytes 1 (pers s) ++ leBytes 1 flags ++ leBytes 1 0
    ++ leBytes 4 saveSeq ++ leBytes 8 (ns0 s) ++ leBytes 8 (ns2 s) ++ leBytes 4 (index s % 2 ^ 24 + 2 ^ 24 * level s)
    ++ leBytes 2 ldg.length ++ leBytes 2 s.sbx.verdicts.length ++ leBytes 4 s.gbk.tail.length
    ++ leBytes 4 ((s.sbx.verdicts.head?.map Prod.fst).getD 0) ++ leBytes 8 ((last.map LRec.seq).getD 0)
    ++ leBytes 4 ((last.map fun r => r.chain.toNat).getD 0) ++ leBytes 4 (get s F.LDG_OVERWRITTEN_COUNT)
  let b := head ++ padTo 16384 (ldg.flatMap fun r => (lrecBytes r).take 60 ++ leBytes 4 r.chain.toNat)
    ++ padTo 32768 (s.gbk.tail.flatMap grecBytes) ++ frameTime s ++ frameCourier s
    ++ padTo 15360 (s.sbx.verdicts.flatMap fun v => padTo 48 v.2)
    ++ wordBytes (rd s F.GLB_CHIP_ID_LO_CHIP_ID.addr) ++ wordBytes (rd s F.GLB_CHIP_ID_HI_CHIP_ID.addr)
    ++ (if pers s = 1 then leBytes 384 0 else tb3Bytes s 16 48) ++ leBytes 236 0
  b ++ leBytes 4 (crc32c b).toNat

/-! Save (R181, R182, R372, R621, R622). -/

/-- The Innkeeper's record at a power-fail warning (R372): rank 1, and rank and class of the highest-ranked non-empty queue. R374 lays the record
out; its other bytes, and rank and class where no queue holds anything, are free values (log 33). -/
def pfwLadder (s : State) : State :=
  if inReset s 3 then s
  else
    let top := match topRanked s ((List.range (nQueues s)).filter fun q =>
        on s (F.INK_Q_CFG_VALID q) && depthOf (inkQ s q) != 0) with
      | some q => qRank s q + 2 ^ 8 * get s (F.INK_Q_CFG_CLASS q)
      | none => openField 1 16 s
    note 0x0B01 ADVISE (openField 2 16 s + 2 ^ 16 * 1 + 2 ^ 24 * openField 3 8 s + 2 ^ 32 * top + 2 ^ 48 * openField 4 16 s) (tickFree s)

/-- Everything that waits in the recorders' queues is accepted before the tails are frozen; `fuel` bounds the passes. -/
def drainQueues : Nat → State → State
  | 0, s => s
  | fuel + 1, s => if s.gbk.queue.isEmpty && s.ldg.queue.isEmpty then s else drainQueues fuel (ledgerPass (gbkAccept s))

/-- SAVE_SEQ in the header of a slot; `none` without MAGIC. -/
def headerSeq (b : List Byte) : Option Nat :=
  if b.take 8 = [0x53, 0x54, 0x52, 0x4F, 0x4E, 0x47, 0x42, 0x58] then some (leAt b 12 4) else none

/-- The slot that a save interrupting a restore writes (R623). -/
def interruptSlot (a b : List Byte) : Nat :=
  match headerSeq a, headerSeq b with
  | none, some _ => 0
  | some _, none => 1
  | some x, some y => if laterMod 32 y x then 0 else 1
  | none, none => 1

/-- The save begins: every domain but AON and the save island stops. `a` and `b` are the frame
slots, which matter where the save interrupts a restore. -/
def saveStart (a b : List Byte) (s : State) : State :=
    let s1 := kspPreempt s
    let s2 := if get s F.SBX_STATUS_RESTORE = 1 then set s1 F.SBX_STATUS_NEXT_SLOT (interruptSlot a b) else s1
    let s3 := drainQueues 512 s2
    let s4 : State := { s3 with clk := { s3.clk with stopped := true } }
    if on s F.SBX_CTL_EN && on s F.KSP_STATUS_CS0_PRESENT then
      setSbx { s4.sbx with saving := some (frameBytes s3 (get s F.SBX_STATUS_LAST_SEQ + 1)) }
        { s4 with ksp := { s4.ksp with saveBusy := true } }
    else { s4 with ksp := { s4.ksp with saveBusy := true } }

/-- An entry into a power state ends without a result (R677, R678). -/
def dropEntry (s : State) : State :=
  set { s with pwr := { s.pwr with entry := none, wake := none } } F.PWR_STATUS_PHASE 0

/-- A power-fail warning is recognised (R181, R182, R677). -/
def powerFail (a b : List Byte) (s : State) : State :=
  if s.clk.stopped || !s.clk.pwron then s
  else
    let s1 := set (set (pfwLadder s) F.PHU_STATUS_PFW_N 0) F.PHU_STATUS_SAVE_PG 1
    saveStart a b (dropEntry (lastWake 0xFF (us2 s) (get s F.PWR_STATUS_PHASE) s1))

/-- POWER_FAIL_WARNING (R181). -/
def execPowerFailWarning (slotA slotB : List Byte) (s : State) : Host.Outcome State Fault Refusal := .next (powerFail slotA slotB s)

/-- Page `p` of a frame goes to its slot. -/
def savePage (slot : Nat) (b : List Byte) (s : State) (p : Nat) : State :=
  emit (.ksp 0 1 (slot * 65536 + p * 256) ((b.drop (p * 256)).take 256)) s

/-- PHU_SAVE_DONE rises: pages 1 to 255 and then page 0 have been written, or nothing was to be written (R621, R622). -/
def saveDone (s : State) : State :=
  if !s.ksp.saveBusy then s
  else
    let s0 : State := { s with ksp := { s.ksp with saveBusy := false }, clk := { s.clk with saveDone := true } }
    let s0 := set s0 F.PHU_STATUS_SAVE_DONE 1
    match s.sbx.saving with
    | none => s0
    | some b =>
      let slot := get s F.SBX_STATUS_NEXT_SLOT
      let s1 := savePage slot b (((List.range 255).map (· + 1)).foldl (savePage slot b) s0) 0
      set (set (setSbx { s1.sbx with saving := none } s1) F.SBX_STATUS_NEXT_SLOT (1 - slot)) F.SBX_STATUS_LAST_SEQ (leAt b 12 4)

/-- STRONGBOX_SAVE_DONE (R621). -/
def execStrongboxSaveDone (s : State) : Host.Outcome State Fault Refusal := .next (saveDone s)

/-- PHU_SAVE_PG falls before the save is done: the frame is incomplete (R183). -/
def savePgFall (s : State) : State :=
  let s1 := set s F.PHU_STATUS_SAVE_PG 0
  if !s.ksp.saveBusy then s1 else setSbx { s1.sbx with saving := none } { s1 with ksp := { s1.ksp with saveBusy := false } }

/-- SAVE_PG_FALL (R183). -/
def execSavePgFall (s : State) : Host.Outcome State Fault Refusal := .next (savePgFall s)

/-! Restore (R623, R624). -/

/-- The block begins to read both slots once the loader has released the port. -/
def restoreStart (s : State) : State :=
  if !s.sbx.restoring || get s F.KSP_STATUS_OWNER == 2 || s.clk.stopped then s
  else
    let s1 := set (setSbx { s.sbx with restoring := false } s) F.SBX_STATUS_RESTORE 1
    if get s F.KSP_STATUS_OWNER = 0 then set s1 F.KSP_STATUS_OWNER 1 else s1

/-- STRONGBOX_RESTORE (R623). -/
def execStrongboxRestore (s : State) : Host.Outcome State Fault Refusal := .next (restoreStart s)

/-- A slot passes its checks. -/
def slotGood (b : List Byte) : Bool :=
  (headerSeq b).isSome && leAt b 8 1 == 1 && b.length == 65536 && leAt b 65532 4 == (crc32c (b.take 65532)).toNat

/-- Both slots have been read: the later valid frame is loaded. An absent device reads as two empty slots (R175). -/
def restoreDone (a b : List Byte) (s : State) : State :=
  if get s F.SBX_STATUS_RESTORE ≠ 1 ∨ s.clk.stopped then s
  else
    let absent : Bool := a.isEmpty && b.isEmpty
    let s0 := if get s F.KSP_STATUS_OWNER = 1 then portRelease (loaderWants s) s else s
    let s1 := if slotGood a || absent then s0 else note 0x1603 FAULT 0 s0
    let s2 := if slotGood b || absent then s1 else note 0x1603 FAULT 1 s1
    let pick : Option (Nat × List Byte) := match slotGood a, slotGood b with
      | true, true => if laterMod 32 (leAt b 12 4) (leAt a 12 4) then some (1, b) else some (0, a)
      | true, false => some (0, a)
      | false, true => some (1, b)
      | false, false => none
    let s2 := if a.isEmpty && b.isEmpty then report F.KSP_ERR_ABSENT 0x1D01 FAULT 0 (set s2 F.KSP_STATUS_CS0_PRESENT 0)
      else set s2 F.KSP_STATUS_CS0_PRESENT 1
    match pick with
    | none => note 0x1602 ADVISE 0 (set s2 F.SBX_STATUS_RESTORE 3)
    | some (k, f) =>
      let q := leAt f 12 4
      let s3 := set (set (set (set (setSbx { s2.sbx with frame := f } s2) F.SBX_STATUS_RESTORE 2) F.SBX_STATUS_RESTORED_SLOT k)
        F.SBX_STATUS_NEXT_SLOT (1 - k)) F.SBX_STATUS_LAST_SEQ q
      let s4 := note 0x1601 INFO (q + 2 ^ 32 * k) s3
      if s.sbx.coldRestore then
        ledger 6 4 3 0 0 q 0 (BitVec.ofNat 64 (leAt f 48 8)) (BitVec.ofNat 64 (leAt f 56 4)) (setSbx { s4.sbx with coldRestore := false } s4)
      else s4

/-- STRONGBOX_RESTORE_DONE (R623, R624). -/
def execStrongboxRestoreDone (slotA slotB : List Byte) (s : State) : Host.Outcome State Fault Refusal := .next (restoreDone slotA slotB s)

end Sys2Proof.Machine
end

