-- ==== Sys2Proof/Machine/Power.lean ====
section
/-!
DEFINITION. Power states (R665 to R684): entry, wake and exit, and the steps of host-assisted sequencing. What recognises a wake is `wake` of Ops.
-/
namespace Sys2Proof.Machine

def setPwr (p : PwrSt) (s : State) : State := { s with pwr := p }

/-! The units and their answers (R673). -/

/-- The unit pages asked for a target, in ascending order. -/
def askedFor (target : Nat) : List Nat :=
  if target = 1 then [0x01, 0x0C, 0x0D, 0x0F, 0x10]
  else [0x01, 0x08, 0x0A, 0x0B, 0x0C, 0x0D, 0x0F, 0x10, 0x11, 0x12, 0x13, 0x17]

/-- What a unit answers. -/
inductive Answer where
  | accept
  | delay
  | refuse (reason : Nat)
  deriving DecidableEq, Repr

def answerIf (refusal : Option Nat) (busy : Bool) : Answer :=
  match refusal with
  | some r => .refuse r
  | none => if busy then .delay else .accept

/-- A descriptor of a Porter channel waits behind the one in progress, or with none in progress. -/
def prtQueued (s : State) (c : Nat) : Bool :=
  let tail := get s (F.PRT_CH_TAIL_TAIL c)
  let n := max 1 (get s (F.PRT_CH_SIZE_ENTRIES c))
  let next := if (prtJob s c).isSome then (tail + 1) % n else tail
  next != get s (F.PRT_CH_HEAD_HEAD c)

/-- The cores' answers together: 0 ACCEPT, 1 DELAY, 2 REFUSE. A core that has not answered delays (R674). -/
def coresAnswer (s : State) : Nat :=
  let cs := (List.range 8).filter fun c => bitOn s F.CTL_STATUS_RUNNING c
  if cs.any fun c => look c s.pwr.acks == some 2 then 2
  else if cs.all fun c => look c s.pwr.acks == some 0 then 0
  else 1

/-- The answer of a unit at this instant (R673). -/
def unitAnswer (s : State) (page : Nat) : Answer :=
  let refuse (r : Nat) (b : Bool) : Option Nat := if b then some r else none
  match page with
  | 0x01 => answerIf (refuse 11 (s.itn.push.isSome || on s F.ITN_OVL_STATUS_STATE)) false
  | 0x08 => answerIf (refuse 6 (!on s F.PWR_CMD_ALLOW_SPAN && !(runs s).isEmpty))
      (!s.tly.cuts.isEmpty || !s.tly.late.isEmpty || !s.tly.wb.staged.isEmpty || s.tly.wb.fly.isSome)
  | 0x0A => answerIf (refuse 5 (pers s != 1 && s.crv.slots.any fun e => e.2.state == 1 || e.2.state == 2))
      (!s.crv.tga.isEmpty || (pers s == 1 && !s.crv.closing.isEmpty))
  | 0x0B => answerIf none (s.ink.queues.any (fun e => depthOf e.2 != 0) || !s.ink.hold.isEmpty)
  | 0x0C => answerIf (refuse 1 (s.tre.jobs.any fun j => !j.running)) (s.tre.jobs.any TreJob.running)
  | 0x0D => answerIf (refuse 1 !s.arr.jobs.isEmpty) false
  | 0x0F => answerIf (refuse 2 (on s F.VER_CTL_EN && on s F.VER_ENG_MASK_MASK)) (!s.ver.staged.isEmpty || !s.ver.asm.isEmpty)
  | 0x10 => answerIf (refuse 3 s.flt.campaign.isSome) false
  | 0x11 => answerIf (refuse 4 (on s F.CUR_STATUS_STATE)) false
  | 0x12 => answerIf (refuse 1 (decide (1 < (s.cmp.jobs.filter CmpJob.decode).length) || decide (1 < (s.cmp.jobs.filter fun j => !j.decode).length)
        || [0, 1, 2, 3].any (prtQueued s)))
      (!s.cmp.jobs.isEmpty || !s.prt.jobs.isEmpty)
  | 0x13 => answerIf (refuse 10 (!s.rcv.orders.isEmpty || (List.range 64).any (fun t => fenced s t) || holdState s != 0)) false
  | _ =>
    if on s F.CTL_CW_STATUS_POSTED then .refuse 7
    else if s.ctl.sw.isSome || s.ctl.mode.isSome then .refuse 8
    else match coresAnswer s with
      | 0 => .accept
      | 1 => .delay
      | _ => .refuse 9

/-! Results. -/

/-- A result of PWR_CMD posts, or waits until the one shown is consumed (R639, R671). -/
def pwrPost (seq rest : Nat) (s : State) : State :=
  let s1 := set s F.PWR_CMD_START (if s.pwr.entry.isSome || s.pwr.cmd.isSome then 1 else 0)
  if valid s1 F.PWR_RESULT_SEQ.addr then setPwr { s1.pwr with owed := s1.pwr.owed ++ [(seq, rest)] } s1
  else post F.PWR_RESULT_SEQ.addr seq (BitVec.ofNat 64 rest) s1

/-- A result is consumed, and the next one that waits posts. -/
def pwrConsume (acc : Acc) (s : State) : State :=
  let s1 := consume F.PWR_RESULT_SEQ.addr acc s
  match s1.pwr.owed with
  | [] => s1
  | o :: rest => if valid s1 F.PWR_RESULT_SEQ.addr then s1 else pwrPost o.1 o.2 (setPwr { s1.pwr with owed := rest } s1)

def phase (n : Nat) (s : State) : State := set s F.PWR_STATUS_PHASE n

/-! Stopping and starting. -/

/-- The unit pages that a state stops (R666). -/
def stoppedIn : Nat → List Nat
  | 0 => []
  | 1 => [0x0C, 0x0D]
  | 2 => [0x08, 0x0A, 0x0B, 0x0C, 0x0D, 0x0E, 0x0F, 0x10, 0x11, 0x12, 0x17]
  | _ => (List.range 0x1E).filter fun p => (domainOf p).isSome && p != 0x07 && p != 0x09

/-- The branches gated in a state (R666), as CLK_GATE_STATUS shows them: ARRAYS, TREE, CMP, FCLK_FAB, SCLK. -/
def gatesOf : Nat → Nat
  | 0 => 0
  | 1 => 3
  | 2 => 7
  | _ => 31

/-- At HOLD the cores halt, and the asked units take no new work (R672, R674). -/
def holdCores (s : State) : State :=
  let run := get s F.CTL_STATUS_RUNNING
  set (setPwr { s.pwr with cores := s.pwr.cores ||| run } (ltnSleep run s)) F.CTL_STATUS_RUNNING 0

/-- The cores that the controller stopped run again. -/
def startCores (s : State) : State :=
  runCores s.pwr.cores (setPwr { s.pwr with cores := 0, acks := [] } (ltnRelease s.pwr.cores 2 s))

/-- The entry is over and its holds are released; the cores run again unless the state stops them. -/
def entryEnd (s : State) : State :=
  let s1 := releaseUnits 3 (phase 0 (setPwr { s.pwr with entry := none, wake := none } s))
  cwServe (if 2 ≤ pwState s1 then s1 else startCores s1)

/-- An entry ends with a status, unit page and reason (R672); in host-assisted mode the step that met it answers. -/
def entryFail (f : Field) (status page reason : Nat) (e : PwrEntry) (s : State) : State :=
  let s1 := report f 0x1A02 ADVISE (page + 256 * reason + 2 ^ 16 * status) (entryEnd s)
  if e.host then s1 else pwrPost e.seq (status + 2 ^ 16 * page + 2 ^ 24 * reason) s1

/-- The entry is abandoned at an abort point (R676). In a state other than PS0 the wake then begins the exit. -/
def entryAbort (e : PwrEntry) (s : State) : State :=
  match s.pwr.wake with
  | none => s
  | some (src, us, ph) =>
    let s1 := note 0x1A03 INFO (src + 256 * ph) (flag F.PWR_ERR_ABORTED (lastWake src us ph (entryEnd s)))
    let s2 := if e.host then s1 else pwrPost e.seq 3 s1
    if pwState s2 = 0 then s2 else setPwr { s2.pwr with exit := some (src, pwState s2) } s2

/-- The state is entered: GATE (R672), or the save for Off (R683). -/
def gate (e : PwrEntry) (s : State) : State :=
  if e.target = 4 then saveStart [] [] (phase 0 (setPwr { s.pwr with entry := none } s))
  else
    let s1 := setPwr { s.pwr with entry := none, acks := [] } (setCtl { s.ctl with
      held := (s.ctl.held.filter fun h => h.2 != 3 && h.2 != 4) ++ (stoppedIn e.target).map fun p => (p, 4) } s)
    let s2 := phase 0 (set (bump s1 F.PWR_STATUS_ENTRIES 1) F.PWR_STATUS_STATE e.target)
    let s3 := set (set s2 F.CLK_GATE_STATUS_ARRAYS 1) F.CLK_GATE_STATUS_TREE 1
    let s4 := if 2 ≤ e.target then set s3 F.CLK_GATE_STATUS_CMP 1 else s3
    let s5 := if e.target = 3 then set (set (set s4 F.CLK_GATE_STATUS_FCLK_FAB 1) F.CLK_GATE_STATUS_SCLK 1) F.PHU_STATUS_RET_EN 1 else s4
    let s6 := if e.host then s5 else pwrPost e.seq 0 s5
    note 0x1A01 INFO e.target s6

/-- Every asked unit is held and quiescent (R672). -/
def heldQuiet (s : State) (target : Nat) : Bool := (askedFor target).all fun p => heldBy s 3 p && unitQuiet s p

/-- The end of HOLD: GATE, unless a wake event has been recognised (R676). -/
def holdDone (s : State) : State :=
  match s.pwr.entry with
  | none => s
  | some e =>
    if e.host ∨ get s F.PWR_STATUS_PHASE ≠ 2 ∨ !heldQuiet s e.target then s
    else if s.pwr.wake.isSome then entryAbort e s
    else gate e s

/-- POWER_HOLD_COMPLETE (R672). -/
def execPowerHoldComplete (s : State) : Host.Outcome State Fault Refusal := .next (holdDone s)

/-- HOLD begins: the asked units take no new work; for PS2 and deeper the cores halt (R672, R674). -/
def beginHold (e : PwrEntry) (s : State) : State :=
  let s1 := phase 2 (holdUnits 3 (askedFor e.target) s)
  if 2 ≤ e.target then holdCores s1 else s1

/-- Every unit that has not accepted is asked once, in ascending order: the units that have accepted, and the first refusal. -/
def askPass (s : State) : List Nat → List Nat → List Nat × Option (Nat × Nat)
  | [], ok => (ok, none)
  | p :: ps, ok =>
    if ok.contains p then askPass s ps ok
    else match unitAnswer s p with
      | .accept => askPass s ps (ok ++ [p])
      | .delay => askPass s ps ok
      | .refuse r => (ok, some (p, r))

/-- A pass of ASK: a refusal ends the entry, and once every unit has accepted HOLD begins, unless a wake event has been recognised (R676).
With `last` a unit that still delays ends it (R672). -/
def ask (last : Bool) (s : State) : State :=
  match s.pwr.entry with
  | none => s
  | some e =>
    let (ok, bad) := askPass s (askedFor e.target) e.accepted
    match bad with
    | some (p, r) => entryFail F.PWR_ERR_REFUSED 1 p r e s
    | none =>
      match (askedFor e.target).find? fun p => !ok.contains p with
      | some p =>
        if last then entryFail F.PWR_ERR_TIMEOUT 2 p 0 e s
        else setPwr { s.pwr with entry := some { e with accepted := ok, asked := s.tim.tb2 } } s
      | none =>
        let s1 := setPwr { s.pwr with entry := some { e with accepted := ok, asked := s.tim.tb2 } } s
        if s1.pwr.wake.isSome then entryAbort e s1 else beginHold e s1

/-- The cores are asked for an entry into PS2 or deeper: the controller's source is raised (R674). -/
def askCores (target : Nat) (s : State) : State :=
  if 2 ≤ target ∧ on s F.CTL_STATUS_RUNNING then raiseIrq (irqAct 0x1A) (setPwr { s.pwr with acks := [] } s) else s

/-- START of PWR_CMD (R671). -/
def pwrCommand (s : State) : State :=
  let seq := get s F.PWR_CMD_SEQ
  let t := get s F.PWR_CMD_TARGET
  if valid s F.PWR_RESULT_SEQ.addr ∨ s.pwr.cmd.isSome then pwrPost seq 6 s
  else if 5 ≤ t then pwrPost seq 4 (undefinedField F.PWR_CMD_TARGET.addr t s)
  else if t = pwState s then pwrPost seq 4 s
  else if hostMode s 8 then pwrPost seq 5 s
  else if t < pwState s then
    let s1 := wake 8 s
    if s1.pwr.exit.isSome then set (setPwr { s1.pwr with cmd := some seq } s1) F.PWR_CMD_START 1 else pwrPost seq 0 s1
  else if s.pwr.entry.isSome ∨ s.pwr.exit.isSome then pwrPost seq 6 s
  else
    let e : PwrEntry := { seq, target := t, start := s.tim.tb2, asked := s.tim.tb2 }
    let s1 := set (phase 1 (setPwr { s.pwr with entry := some e, wake := none } s)) F.PWR_CMD_START 1
    ask false (askCores t s1)

/-- 1 µs later the units that delay are asked again (R672). -/
def askRetry (s : State) : State :=
  match s.pwr.entry with
  | none => s
  | some e => if e.host ∨ get s F.PWR_STATUS_PHASE ≠ 1 then s else ask false (reachBase 2 (e.asked + usec 1) s)

/-- POWER_ASK_RETRY (R672). -/
def execPowerAskRetry (s : State) : Host.Outcome State Fault Refusal := .next (askRetry s)

/-- DELAY_MAX has passed (R672). -/
def entryTimeout (s : State) : State :=
  match s.pwr.entry with
  | none => s
  | some e =>
    if e.host ∨ get s F.PWR_STATUS_PHASE ≠ 1 then s
    else ask true (reachBase 2 (e.start + usec (get s F.PWR_TIMING_DELAY_MAX)) s)

/-- POWER_ENTRY_TIMEOUT (R672). -/
def execPowerEntryTimeout (s : State) : Host.Outcome State Fault Refusal := .next (entryTimeout s)

/-- A core answers (R674); other ports' writes have no effect. -/
def coreAck (acc : Acc) (s : State) : State :=
  match acc.port with
  | .core c => if s.pwr.entry.isSome then setPwr { s.pwr with acks := store c (bitsAt (wdata acc) 0 2) s.pwr.acks } s else s
  | _ => s

/-! Wake and exit (R679). -/

/-- WAKE_EVENT (R679). -/
def execWakeEvent (src : Nat) (s : State) : Host.Outcome State Fault Refusal := .next (if src < 9 then wake src s else s)

/-- TB2 reaches PWR_WAKE_TIMER (R679). -/
def wakeTimer (s : State) : State :=
  let t := get s F.PWR_WAKE_TIMER_TB2_NS
  if t = 0 ∨ t < ns2 s ∨ s.clk.stopped then s else wake 2 (reachBase 2 (t * 2 ^ 48) s)

/-- WAKE_TIMER (R679). -/
def execWakeTimer (s : State) : Host.Outcome State Fault Refusal := .next (wakeTimer s)

/-- After PS3 the serial port sends its markers before its payload resumes, with the frame numbering continued (R708). -/
def ltnResync (s : State) : State :=
  if s.ltn.word = 0 then s else setLtn { s.ltn with word := 0, frame := (s.ltn.frame + 1) % 256 } s

/-- The exit completes: PS0, the branches run, the units and the cores go on (R679). -/
def exitDone (s : State) : State :=
  match s.pwr.exit with
  | none => s
  | some (src, left) =>
    let s1 := set (set (set s F.PWR_STATUS_STATE 0) F.PHU_STATUS_RET_EN 0) F.CLK_GATE_STATUS_SCLK 0
    let s1 := if left = 3 then ltnResync s1 else s1
    let s2 := set (set (set (set s1 F.CLK_GATE_STATUS_FCLK_FAB 0) F.CLK_GATE_STATUS_CMP 0) F.CLK_GATE_STATUS_TREE 0) F.CLK_GATE_STATUS_ARRAYS 0
    let s3 := note 0x1A04 INFO (src + 256 * left) (releaseUnits 4 (setPwr { s2.pwr with exit := none, cmd := none } s2))
    let s4 := match s.pwr.cmd with
      | some q => pwrPost q 0 s3
      | none => s3
    cwServe (startCores s4)

/-! Host-assisted sequencing (R684). -/

/-- A step's answer posts. -/
def stepPost (ans reason : Nat) (s : State) : State :=
  post F.PWR_STEP_RESULT_SEQ.addr (get s F.PWR_STEP_SEQ) (BitVec.ofNat 64 (ans + 256 * reason)) (set s F.PWR_STEP_START 0)

/-- The driver's entry towards a target: the one in progress, or a new one. -/
def hostEntry (t : Nat) (s : State) : PwrEntry :=
  match s.pwr.entry with
  | some e => { e with target := t }
  | none => { seq := 0, target := t, start := s.tim.tb2, asked := s.tim.tb2, host := true }

/-- ASK of one unit. -/
def stepAsk (page t : Nat) (s : State) : State :=
  let e := hostEntry t s
  let fresh := s.pwr.entry.isNone
  let s1 := setPwr { s.pwr with entry := some e, wake := if fresh then none else s.pwr.wake } s
  let s2 := if fresh then phase 1 s1 else s1
  let s3 := if page = 0x17 ∧ !e.accepted.contains 0x17 ∧ s2.pwr.acks.isEmpty then askCores t s2 else s2
  match unitAnswer s3 page with
  | .accept => stepPost 0 0 (setPwr { s3.pwr with entry := some { e with accepted := e.accepted ++ [page] } } s3)
  | .delay => stepPost 1 0 s3
  | .refuse r => stepPost 2 r (entryFail F.PWR_ERR_REFUSED 1 page r e s3)

/-- HOLD of one unit; the first ends ASK, an abort point. -/
def stepHold (page t : Nat) (s : State) : State :=
  let e := hostEntry t s
  if get s F.PWR_STATUS_PHASE ≠ 2 ∧ s.pwr.wake.isSome then stepPost 3 0 (entryAbort e s)
  else
    let s1 := phase 2 (setPwr { s.pwr with entry := some e } s)
    let s2 := if heldBy s1 3 page then s1 else holdUnits 3 [page] s1
    stepPost 0 0 (if page = 0x17 then holdCores s2 else s2)

/-- GATE: refused with STATE while a unit of the target is not held; the end of HOLD, an abort point, comes before it. -/
def stepGate (t : Nat) (s : State) : State :=
  let e := hostEntry t s
  if t = 0 ∨ t ≤ pwState s ∨ !heldQuiet s t then stepPost 3 0 s
  else if s.pwr.wake.isSome then stepPost 3 0 (entryAbort e s)
  else stepPost 0 0 (gate e s)

/-- RELEASE of one unit. -/
def stepRelease (page : Nat) (s : State) : State :=
  let s1 := cmpKick (setCtl { s.ctl with held := s.ctl.held.filter fun h => h != (page, 3) } s)
  let s2 := if page = 0x17 ∧ pwState s1 < 2 then cwServe (startCores s1) else s1
  let s3 := if s2.ctl.held.any fun h => h.2 == 3 then s2 else phase 0 (setPwr { s2.pwr with entry := none, wake := none } s2)
  stepPost 0 0 s3

/-- START of PWR_STEP: ignored while its result is unconsumed (R639). An undefined ACTION or TARGET, a unit that the target does not name, and any step
outside host-assisted sequencing are answered STATE (R21, R684). -/
def pwrStep (s : State) : State :=
  let act := get s F.PWR_STEP_ACTION
  let t := get s F.PWR_STEP_TARGET
  let page := get s F.PWR_STEP_UNIT
  if valid s F.PWR_STEP_RESULT_SEQ.addr then s
  else if 4 ≤ act then stepPost 3 0 (undefinedField F.PWR_STEP_ACTION.addr act s)
  else if 5 ≤ t then stepPost 3 0 (undefinedField F.PWR_STEP_TARGET.addr t s)
  else if !hostMode s 8 ∨ s.pwr.exit.isSome ∨ t = 0 ∨ (act ≠ 2 ∧ !(askedFor t).contains page) then stepPost 3 0 s
  else match act with
    | 0 => stepAsk page t s
    | 1 => stepHold page t s
    | 2 => stepGate t s
    | _ => stepRelease page s

/-! Registers of the PWR page. -/

/-- The unit's treatment of a write to the PWR page. -/
def pwrWrite (a : Nat) (acc : Acc) (s : State) : State :=
  if a = F.PWR_RESULT_SEQ.addr then pwrConsume acc s
  else if a = F.PWR_STEP_RESULT_SEQ.addr then consume a acc s
  else if a = F.PWR_CORE_ACK_ANSWER.addr then coreAck acc s
  else
    let s1 := perform a acc s
    if a = F.PWR_CMD_START.addr ∧ wrote1 acc F.PWR_CMD_START then pwrCommand s1
    else if a = F.PWR_STEP_START.addr ∧ wrote1 acc F.PWR_STEP_START then pwrStep s1
    else s1

/-- POWER_STATE_REQUEST (R671). -/
def execPowerStateRequest (acc : Acc) (s : State) : Host.Outcome State Fault Refusal :=
  .next (portWrite pwrWrite F.PWR_CMD_START.addr (force F.PWR_CMD_START 1 acc) s)
/-- CORE_ACK (R674). -/
def execCoreAck (acc : Acc) (s : State) : Host.Outcome State Fault Refusal := .next (portWrite pwrWrite F.PWR_CORE_ACK_ANSWER.addr acc s)

/-- A write of PWR_STEP with an ACTION and START. -/
def stepWrite (act : Nat) (acc : Acc) (s : State) : State :=
  portWrite pwrWrite F.PWR_STEP_START.addr (force F.PWR_STEP_START 1 (force F.PWR_STEP_ACTION act acc)) s
/-- STEP_ASK (R684). -/
def execStepAsk (acc : Acc) (s : State) : Host.Outcome State Fault Refusal := .next (stepWrite 0 acc s)
/-- STEP_HOLD (R684). -/
def execStepHold (acc : Acc) (s : State) : Host.Outcome State Fault Refusal := .next (stepWrite 1 acc s)
/-- STEP_GATE (R684). -/
def execStepGate (acc : Acc) (s : State) : Host.Outcome State Fault Refusal := .next (stepWrite 2 acc s)
/-- STEP_RELEASE (R684). -/
def execStepRelease (acc : Acc) (s : State) : Host.Outcome State Fault Refusal := .next (stepWrite 3 acc s)

end Sys2Proof.Machine
end

