-- ==== Sys2Proof/Machine/Fence.lean ====
section
/-!
DEFINITION. The fence states of R565 and the results of orders (R570), which resets and the recovery unit share.
-/
namespace Sys2Proof.Machine

def setRcv (r : RcvSt) (s : State) : State := { s with rcv := r }

/-- The 4-bit field of a target. -/
def fenceField (t : Nat) : Field :=
  if t < 7 then ⟨0x130018, 4 * t, 4⟩ else if t < 48 then ⟨0x130020, 4 * (t - 32), 4⟩ else ⟨0x130028, 4 * (t - 48), 4⟩

/-- A target takes a fence state, with or without FORCED. -/
def setFence (t st : Nat) (forced : Bool) (s : State) : State := set s (fenceField t) (st + if forced then 8 else 0)

/-- Bit 3: FORCED. -/
def fenceForced (s : State) (t : Nat) : Bool := decide (8 ≤ fenceBits s t)

/-- The order in progress in a slot; RCV_STATUS.ORDERS shows the slots that have one. -/
def ordOf (s : State) (k : Nat) : Option RcvOrd := (s.rcv.orders.find? fun o => o.1 == k).map Prod.snd
def showOrders (s : State) : State :=
  set s F.RCV_STATUS_ORDERS (s.rcv.orders.foldl (fun m o => m ||| 2 ^ o.1) 0)
def putOrd (k : Nat) (o : RcvOrd) (s : State) : State :=
  setRcv { s.rcv with orders := s.rcv.orders.map fun e => if e.1 = k then (k, o) else e } s

/-- The result of slot `k` posts, or waits until the one shown is consumed (R639). -/
def rcvPost (k seq status flags : Nat) (s : State) : State :=
  let a := (F.RCV_ORD_RESULT_SEQ k).addr
  if valid s a then setRcv { s.rcv with owed := s.rcv.owed ++ [(k, seq, status)] } s
  else post a seq (BitVec.ofNat 64 (status + 2 ^ 16 * (flags % 128))) (if (ordOf s k).isSome then s else set s (F.RCV_ORD_CMD_START k) 0)

/-- The order in slot `k` ends with a status. -/
def ordDone (k status : Nat) (s : State) : State :=
  match ordOf s k with
  | none => s
  | some o => rcvPost k o.seq status o.flags (showOrders (setRcv { s.rcv with orders := s.rcv.orders.filter fun e => e.1 != k } s))

/-- The slot that has an order of operation `op` in progress for a target. -/
def slotFor (s : State) (op t : Nat) : Option Nat :=
  (s.rcv.orders.find? fun e => e.2.op == op && e.2.target == t).map Prod.fst

end Sys2Proof.Machine
end

