-- ==== Sys2Proof/Machine/Reset.lean ====
section
/-!
DEFINITION. Resets and crossings (R77 to R91): cold, warm and domain resets, the handshakes of the crossings, gated clock branches, and
the clock monitor (R68 to R70).
-/
namespace Sys2Proof.Machine

def setClk (c : ClkSt) (s : State) : State := { s with clk := c }

/-! Registers. -/

/-- What a register holds after a reset of its domain: RWS fields keep their value, the others take their reset value (R13, R82). -/
def keptWord (a : Nat) (v : Word) : Word :=
  match findRow a with
  | none => regDefault a
  | some r => r.fields.foldl (fun w f => if f.acc == .rws then putAt w f.lo f.w (bitsAt v f.lo f.w) else w) (regDefault a)

/-- The registers of the pages that satisfy `p` are reset; those that reside in AON stay (R715). -/
def resetRegs (p : Nat → Bool) (s : State) : State :=
  { s with regs := s.regs.filterMap fun e =>
      if !p (pageOf e.1) || aonReg e.1 then some e
      else if keptWord e.1 e.2 = regDefault e.1 then none else some (e.1, keptWord e.1 e.2) }

def ofDomain (d : Nat) (page : Nat) : Bool := domainOf page == some d

/-- A field keeps the value that it has in another state. -/
def keepField (o : State) (s : State) (f : Field) : State := set s f (get o f)

/-- The registers of the ITN page that show the running image and the overlay store (log 64). -/
def itnShown : List Nat := [0x010000, 0x010010, 0x010018, 0x010020, 0x010028, 0x010030, 0x010038, 0x010040, 0x010048, 0x010060]

/-! Crossings: 0 EOP, 1 MMP, 2 FBP, 3 SEP. -/

def linkField : Nat → Field
  | 0 => F.EOP_STATUS_LINK_UP
  | 1 => F.MMP_STATUS_LINK_UP
  | 2 => F.FBP_STATUS_LINK_UP
  | _ => F.SEP_STATUS_LINK_UP
def resyncField : Nat → Field
  | 0 => F.CLK_XING_RESYNC_EOP
  | 1 => F.CLK_XING_RESYNC_MMP
  | 2 => F.CLK_XING_RESYNC_FBP
  | _ => F.CLK_XING_RESYNC_SEP

/-- The block domain that a crossing belongs to (R71), and the crossings of a domain. -/
def crossDomain : Nat → Nat
  | 0 => 5
  | 1 => 6
  | _ => 3
def crossingsOf (d : Nat) : List Nat := [0, 1, 2, 3].filter fun x => crossDomain x == d

def crossPhase (s : State) (x : Nat) : Nat := s.clk.xphase.getD x 0
def setPhase (x n : Nat) (s : State) : State :=
  setBit (setClk { s.clk with xphase := s.clk.xphase.set x n } s) F.CLK_DOMAIN_STATUS_XRST_BUSY x (n != 0)

/-- What a crossing held is gone and its traffic stops; XRST_REQ is raised (R77). -/
def closeCrossing (s : State) (x : Nat) : State :=
  let s1 := set (setPhase x 1 s) (linkField x) 0
  if x = 2 then
    (List.range 20).foldl (fun s l => wr s (F.FBP_TX_CREDIT_VC0 l).addr 0) { s1 with fbp := { s1.fbp with rx := [] } }
  else if x = 3 then { s1 with sep := { s1.sep with fwTx := [], fwd := [] } }
  else if x = 0 then { s1 with eop := { s1.eop with sent := none } }
  else s1

/-! What each domain loses (R82). -/

/-- The requests of some units are given up: those not issued go, those outstanding become stale, and ends not used are forgotten. -/
def dropUsers (us : List MemUser) (s : State) : State :=
  let mine (r : MemReq) : Bool := us.contains r.user
  let item (i : InkItem) : Bool := match i.req with | some r => mine r | none => false
  { s with
    mmp := { s.mmp with wait := s.mmp.wait.filter (fun r => !mine r), ended := s.mmp.ended.filter (fun e => !mine e.req),
                        out := s.mmp.out.map fun r => if mine r then { r with stale := true } else r }
    ink := { s.ink with hold := s.ink.hold.filter fun i => !item i } }

/-- CTRL (R189, R217, R656): the schedules in RUN are kept for re-arming; a push or overlay in progress is discarded and a base load starts
over. -/
def loseCtrl (s : State) : State :=
  let run := (runs s).map fun k => (k, rd s (F.TLY_SCHED_CTL_EN k).addr, rd s (F.TLY_SCHED_START_START k).addr, rd s (F.TLY_SCHED_RANGE_FIRST k).addr)
  let s1 := loaderFree (dropUsers [.waybill] s)
  let s2 : State := resetRegs (ofDomain 0) { s1 with
    tly := { rearm := run }, syn := {}, irq := {}, cores := [], ltn := {},
    ctl := { held := s1.ctl.held.filter fun h => decide (3 ≤ h.2) },
    dbg := { s1.dbg with halts := [] },
    rcv := { s1.rcv with cores := 0 },
    ink := { s1.ink with holdQ := [] },
    itn := { s1.itn with push := none, image := none, ovl := none, order := [] } }
  let s3 := itnShown.foldl (fun t a => wr t a (rd s a)) s2
  setOvlState 0 (if itnState s = 4 then s3 else setItnState 0 s3)

/-- CALC (R407, R428, R446, R492): jobs and a campaign end ABORTED. The results post after the registers have been reset (log 65). -/
def loseCalc (s : State) : State :=
  let camp := s.flt.campaign
  let s1 := dropUsers [.haRing] (verifierReset s)
  let s2 := resetRegs (ofDomain 1) s1
  let s3 := match camp with
    | some c => post F.FLT_PROBE_RESULT_SEQ.addr c.1 (BitVec.ofNat 64 3) s2
    | none => s2
  let s4 := note 0x0C06 INFO s.tre.jobs.length (treeAbort s3)
  let s5 := note 0x0D05 INFO s.arr.jobs.length (arrayAbort s4)
  note 0x0E06 INFO 0 { s5 with tre := {}, arr := {}, det := [], due := [],
                               ver := { epochs := s5.ver.epochs, clamps := [], ha := [] }, flt := { marks := s5.flt.marks, nextId := s5.flt.nextId } }

/-- MOVE (R141, R528, R551, R559). -/
def loseMove (s : State) : State :=
  let s1 := curReset (linkReset s)
  let s2 := resetRegs (ofDomain 2) (dropUsers [.courierRead, .courierStage, .courierRx, .courierSend, .compress, .porter, .porterInt] s1)
  prtReset (cmpReset s2)

/-- What the Innkeeper holds, and what it has lost once that is gone (R379). -/
def inkItems (s : State) : List InkItem := s.ink.queues.flatMap (fun e => e.2.items ++ e.2.writes) ++ s.ink.hold
def inkLoss (s : State) : InkSt :=
  let pkts := (inkItems s).filter fun i => i.pkt.isSome
  { lost := s.ink.lost + pkts.length, lostClass := pkts.foldl (fun m i => min m i.cls) s.ink.lostClass
    lostReq := s.ink.lostReq + ((inkItems s).filter fun i => i.req.isSome).length }

/-- NET (R159, R379): the packets in the queues are lost and counted, and the memory requests there fail to their units. -/
def loseNet (s : State) : State :=
  let s1 := (inkItems s).foldl (fun s i => match i.req with | some r => endReq r false [] 3 s | none => s) s
  let s2 := resetRegs (ofDomain 3) { s1 with ink := inkLoss s, fbp := {}, sep := {}, crv := {} }
  memFollow ([F.FBP_STATUS_LANE_UP, F.SEP_STATUS_PCS_UP].foldl (keepField s) s2)

/-- TIME (R81): the AON copies keep the bases, their states and their last frequency corrections. -/
def loseTime (s : State) : State :=
  let tim : TimSt := { tb0 := s.tim.tb0, tb1 := s.tim.tb1, tb2 := s.tim.tb2, servo0 := { lastT := s.tim.servo0.lastT }, servo1 := { lastT := s.tim.servo1.lastT } }
  let s1 := resetRegs (ofDomain 4) { s with tpi := {}, tim }
  [0, 1].foldl (fun t n => [F.TIM_TB_STATUS_STATE n, F.TIM_TB_STATUS_CAUSE n, F.TIM_TB_FREQ_INTEG n].foldl (keepField s) t) s1

/-- The EOP shell (R77, R575). -/
def loseEop (s : State) : State :=
  resetRegs (ofDomain 5) { s with eop := { unaccountable := s.eop.unaccountable, silenced := s.eop.silenced } }

/-- The MMP shell (R141, R143). -/
def loseMmp (s : State) : State := resetRegs (ofDomain 6) (memFollow (linkReset (curLinkLost false s)))

/-- A domain enters a domain reset (R82, R85). -/
def enterReset (d : Nat) (s : State) : State :=
  let s1 := match d with
    | 0 => loseCtrl s
    | 1 => loseCalc s
    | 2 => loseMove s
    | 3 => loseNet s
    | 4 => loseTime s
    | 5 => loseEop s
    | _ => loseMmp s
  let s2 := setBit (setBit s1 F.CLK_DOMAIN_STATUS_IN_RESET d true) ⟨F.CLK_RST_CTL_CTRL.addr, 0, 7⟩ d true
  (crossingsOf d).foldl closeCrossing s2

/-! Domain resets (R85, R86, R89). -/

/-- The bits of CLK_RST_CTL that read 1: requests waiting and resets in progress. -/
def rstBits : Field := ⟨F.CLK_RST_CTL_CTRL.addr, 0, 7⟩

/-- R85 reads FENCED and RESETTING as FENCED. -/
def rstFenced (s : State) (d : Nat) : Bool := fenceState s d == 3 || fenceState s d == 6

/-- A request without a fence. -/
def rstRefused (d : Nat) (s : State) : State :=
  report F.CLK_ERR_DOM_RST_REFUSED 0x0203 ADVISE (d + 256 * fenceState s d) s

/-- The lowest request that waits is served while no domain is in a domain reset. -/
def serveReset (s : State) : State :=
  if (List.range 7).any fun d => bitOn s rstBits d && bitOn s F.CLK_DOMAIN_STATUS_IN_RESET d then s
  else match (List.range 7).find? fun d => bitOn s rstBits d with
    | none => s
    | some d => if rstFenced s d then enterReset d s else rstRefused d (setBit s rstBits d false)

/-- Domain resets are requested, lowest bit first; a request for a domain in reset is absorbed. -/
def requestResets (mask : Nat) (s : State) : State :=
  serveReset (((List.range 7).filter mask.testBit).foldl (fun s d =>
    if rstFenced s d then setBit s rstBits d true else rstRefused d s) s)

/-- The schedules that were in RUN are armed again (R217). -/
def rearmScheds (s : State) : State :=
  let l := s.tly.rearm
  let s1 := l.foldl (fun s e =>
    let k := e.1
    schedArm k true (wr (wr (wr s (F.TLY_SCHED_CTL_EN k).addr e.2.1) (F.TLY_SCHED_START_START k).addr e.2.2.1) (F.TLY_SCHED_RANGE_FIRST k).addr e.2.2.2))
    (setTly { s.tly with rearm := [] } s)
  note 0x080C INFO l.length s1

/-- NET has left reset: what was lost is recorded (R379, R381). -/
def netLost (s : State) : State :=
  let k := s.ink
  noteLater 0x0B09 FAULT (min k.lost (2 ^ 32 - 1) + 2 ^ 32 * min k.lostClass 255 + 2 ^ 40 * min k.lostReq 65535)
    { s with ink := { k with lost := 0, lostClass := 255, lostReq := 0 } }

/-- A base leaves a reset: FREE with F = 0, or in holdover with CAUSE RESET at its last frequency correction (R81, R254). -/
def baseAfterReset (s : State) (n : Nat) : State :=
  if tbState s n = 0 then set (set s (F.TIM_TB_FREQ_INTEG n) 0) (F.TIM_TB_FREQ_APPLIED n) 0
  else
    let s1 := prod 175 1 (freezeF n (tbEnter n tbHOLDOVER 3 s))
    noteLater 0x0903 ADVISE (n + 256 * 3) (flag (tbHeld n) s1)

/-- The loader loads the firmware again once the base image runs (R631). -/
def firmwareAgain (s : State) : State :=
  if itnState s = 4 then loaderTake (set s F.CTL_STATUS_FW_STATE 1) else s

/-- A domain has its configuration again and leaves reset. -/
def leaveReset (d : Nat) (s : State) : State :=
  let s1 := reapply d (setBit (setBit s F.CLK_DOMAIN_STATUS_IN_RESET d false) rstBits d false)
  match d with
  | 0 => firmwareAgain (rearmScheds s1)
  | 3 => grantAll (netLost s1)
  | 4 => [0, 1].foldl baseAfterReset s1
  | _ => s1

/-- The reset is complete: it is counted (R194), a RESET order posts and its target is FENCED again (R570), and the next request is served
(R89). -/
def resetDone (d : Nat) (s : State) : State :=
  let s1 := prod (112 + d) 1 (leaveReset d s)
  let s2 := if fenceState s1 d = 6 then setFence d 3 (fenceForced s1 d) s1 else s1
  serveReset (match slotFor s2 2 d with
    | some k => ordDone k 0 s2
    | none => s2)

/-- The domain's handshakes are complete too. -/
def domainRelease (d : Nat) (s : State) : State :=
  if 7 ≤ d ∨ !bitOn s F.CLK_DOMAIN_STATUS_IN_RESET d ∨ !bitOn s rstBits d ∨ (crossingsOf d).any (fun x => crossPhase s x != 0) then s
  else resetDone d s

/-- DOMAIN_RESET_RELEASE (R86). -/
def execDomainResetRelease (d : Nat) (s : State) : Host.Outcome State Fault Refusal := .next (if s.clk.stopped then s else domainRelease d s)

/-! Handshakes (R77 to R79, R87, R91). -/

/-- A host-side reset of a crossing: what crosses is discarded and the handshake starts over. Outstanding memory transfers fail, and write
intents are discarded (R141, R143). -/
def hostReset (x : Nat) (s : State) : State :=
  if 4 ≤ x ∨ !s.clk.pwron then s
  else closeCrossing (if x = 1 then memFollow (linkReset (curLinkLost true s)) else s) x

/-- HOST_SIDE_RESET (R87). -/
def execHostSideReset (x : Nat) (s : State) : Host.Outcome State Fault Refusal := .next (hostReset x s)

/-- XRST_ACK is seen high: XRST_REQ falls. -/
def ackSeen (x : Nat) (s : State) : State :=
  if crossPhase s x = 1 ∧ s.clk.pwron ∧ !s.clk.stopped then setPhase x 2 s else s

/-- XRST_ACK_SEEN (R77). -/
def execXrstAckSeen (x : Nat) (s : State) : Host.Outcome State Fault Refusal := .next (ackSeen x s)

/-- XRST_ACK is seen low: traffic resumes (R79). The EOP crossing leaves every tag unset (R99), owes the bundle of the epoch in progress
and makes that epoch unaccountable (R109); the FBP crossing grants credits (R150). A shell that a cold or warm reset holds leaves reset
(R84). -/
def handshakeDone (x : Nat) (s : State) : State :=
  if 4 ≤ x ∨ crossPhase s x ≠ 2 then s
  else
    let s1 := noteLater 0x0201 INFO x (bump (set (setPhase x 0 s) (linkField x) 1) (resyncField x) 1)
    let d := crossDomain x
    let s2 := if d ≠ 3 ∧ bitOn s F.CLK_DOMAIN_STATUS_IN_RESET d ∧ !bitOn s rstBits d then
        reapply d (setBit s1 F.CLK_DOMAIN_STATUS_IN_RESET d false) else s1
    match x with
    | 0 =>
      let e := s2.eop.bundle.2.2
      let un := if s2.eop.unaccountable.contains e then s2.eop.unaccountable else s2.eop.unaccountable ++ [e]
      { s2 with eop := { s2.eop with tags := [], resend := true, unaccountable := un } }
    | 2 => grantAll s2
    | _ => s2

/-- XRST_HANDSHAKE_DONE (R79). -/
def execXrstHandshakeDone (x : Nat) (s : State) : Host.Outcome State Fault Refusal := .next (handshakeDone x s)

/-! Warm reset (R43, R82, R88, R124, R576, R585, R678). -/

/-- The orders end ABANDONED and every fence is open; a dump under way is abandoned. -/
def rcvWarm (s : State) : State :=
  let n := s.rcv.orders.length
  let s1 := s.rcv.orders.foldl (fun s o => ordDone o.1 5 s) s
  let s2 := set (set (set s1 F.RCV_FENCE_BLK_STATE 0) F.RCV_FENCE_HOST0_STATE 0) F.RCV_FENCE_HOST1_STATE 0
  let dumping : Bool := s.rcv.build.isSome || (match s.rcv.dump with | some d => d.slot.isSome || d.xfer.isSome | none => false)
  let s3 := if dumping then
      noteLater 0x1307 ADVISE (get s F.RCV_DUMP_LAST_DUMP_ID + 2 ^ 32 * 2)
        (flag F.RCV_ERR_DUMP_ABANDONED (set (set (setRcv { s2.rcv with build := none, dump := none } s2) F.RCV_STATUS_DUMP_BUSY 0) F.RCV_STATUS_DBUF_HELD 0))
    else s2
  noteLater 0x130F INFO n (setRcv { s3.rcv with fences := [], build := none } s3)

/-- Requests accepted and not performed are answered ABSENT (R124). -/
def absentWaiting (s : State) : State :=
  let s1 : State := { s with ldg := { s.ldg with waiting := [] }, pwr := { s.pwr with waiting := [] } }
  if s.ldg.waiting.isEmpty ∧ s.pwr.waiting.isEmpty then s1 else { s1 with rsp := (3, 0) }

/-- The units outside AON are as after a cold reset, but for what resides in AON. -/
def warmUnits (s : State) : State :=
  let s1 := loseTime s
  { s1 with
    eop := {}, mmp := { nextXfer := s.mmp.nextXfer }, fbp := {}, sep := {}, tly := {}, ctl := {}, crv := {}, tre := {}, arr := {}, ver := {},
    ink := inkLoss s,
    det := [], due := [], flt := { marks := s.flt.marks, nextId := s.flt.nextId }, cur := { cols := s.cur.cols }, cmp := {}, prt := {},
    syn := {}, irq := {}, cores := [], ltn := {}, pwr := {},
    hld := { s.hld with reading := none },
    rcv := { s.rcv with lastCtx := [], cores := 0 },
    dbg := { s.dbg with halts := [] },
    gbk := { s.gbk with exp := none },
    itn := { s.itn with push := none, image := none, ovl := none, order := [], bound := none } }

/-- The registers of every domain but AON are reset; the levels of the pins, the states of the time bases and the store that ITN_OVL_STATUS
reports stay. -/
def warmRegs (s : State) : State :=
  let s1 := resetRegs (fun p => (domainOf p).isSome && domainOf p != some 4) s
  let s2 := [F.FBP_STATUS_LANE_UP, F.SEP_STATUS_PCS_UP, F.ITN_OVL_STATUS_LAST_SEQ, F.ITN_OVL_STATUS_STORE_USED,
    F.ITN_OVL_STATUS_PENDING_WARM].foldl (keepField s) s1
  set (set (set (set (set (set s2 F.PWR_STATUS_STATE 0) F.PWR_STATUS_PHASE 0) F.PHU_STATUS_RET_EN 0) F.PHU_STATUS_SAVE_DONE 0)
    ⟨F.CLK_GATE_STATUS_ARRAYS.addr, 0, 5⟩ 0) rstBits 0

/-- A warm reset: `why` is 1 for WARM_RST_N and 2 for CLK_RST_CTL.WARM. It takes over domain resets in progress (R88) and ends the stop after
a power-fail warning (R184); the shells stay in reset until their crossings are up again. -/
def warmReset (why : Nat) (s : State) : State :=
  if !s.clk.pwron ∨ s.ksp.saveBusy then s
  else
    let ended := s.clk.stopped
    let s0 := loaderFree (absentWaiting (setClk { s.clk with stopped := false, saveDone := false, cause := 2, xphase := [1, 1, 1, 1] } s))
    let s1 := authLapse 2 (linkReset (if s0.mmp.intents.isEmpty then s0 else answerAll 3 s0))
    let s4 := rcvWarm (warmRegs (warmUnits (set s1 F.GBK_STATUS_RUNNING 0)))
    let s5 := [0, 1].foldl baseAfterReset (netLost s4)
    let s6 := set (set (set s5 F.CLK_STATUS_LAST_RESET why) F.CLK_DOMAIN_STATUS_IN_RESET 0x60) F.CLK_DOMAIN_STATUS_XRST_BUSY 0xF
    if ended then { set s6 F.SBX_STATUS_RESTORE 0 with sbx := { s6.sbx with restoring := true, saving := none } } else s6

/-- WARM_RESET (R82). -/
def execWarmReset (s : State) : Host.Outcome State Fault Refusal := .next (warmReset 1 s)

/-! Cold reset (R9, R82, R84, R90). -/

/-- The block while PWRON_RST_N is low; the model's own fields stay. -/
def coldAssert (s : State) : State :=
  { State.reset with pending := s.pending, outbox := s.outbox, freeCtr := s.freeCtr }

/-- COLD_RESET_ASSERT (R90). -/
def execColdResetAssert (s : State) : Host.Outcome State Fault Refusal := .next (coldAssert s)

/-- PWRON_RST_N rises: the CHIP_ID is captured, the dividers start, and the domains leave reset; the shells do once their crossings are
up. A Strongbox restore is due (R623). -/
def coldRelease (chip : BitVec 128) (s : State) : State :=
  if s.clk.pwron then s
  else
    let s0 := coldAssert s
    let s1 : State := { s0 with clk := { s0.clk with pwron := true }, sbx := { s0.sbx with restoring := true, coldRestore := true } }
    let s2 := set (set s1 F.GLB_CHIP_ID_LO_CHIP_ID chip.toNat) F.GLB_CHIP_ID_HI_CHIP_ID (chip.toNat / 2 ^ 64)
    set (set s2 F.CLK_STATUS_LOCKED 1) F.CLK_DOMAIN_STATUS_IN_RESET 0x60

/-- COLD_RESET (R84). -/
def execColdReset (chipId : BitVec 128) (s : State) : Host.Outcome State Fault Refusal := .next (coldRelease chipId s)

/-! The CLK page. -/

/-- The unit's treatment of a write to the CLK page. A write of CLK_RST_CTL of which every request is refused has no other effect (R85). -/
def clkWrite (a : Nat) (acc : Acc) (s : State) : State :=
  if a ≠ F.CLK_RST_CTL_WARM.addr then perform a acc s
  else
    let m := (wdata acc).toNat % 128
    if wrote1 acc F.CLK_RST_CTL_WARM then warmReset 2 (perform a acc s)
    else if m ≠ 0 ∧ !((List.range 7).any fun d => m.testBit d && rstFenced s d) then requestResets m s
    else requestResets m (perform a acc s)

/-- CLK_RST_WARM (R82). -/
def execClkRstWarm (acc : Acc) (s : State) : Host.Outcome State Fault Refusal :=
  .next (portWrite clkWrite F.CLK_RST_CTL_WARM.addr (force F.CLK_RST_CTL_WARM 1 acc) s)
/-- DOMAIN_RESET_REQUEST (R85). -/
def execDomainResetRequest (acc : Acc) (s : State) : Host.Outcome State Fault Refusal :=
  .next (portWrite clkWrite F.CLK_RST_CTL_WARM.addr (force F.CLK_RST_CTL_WARM 0 acc) s)

/-- A window of the clock monitor ends (R70). -/
def monWindow (count : Nat) (s : State) : State :=
  if !on s F.CLK_STATUS_MON_EN ∨ !s.clk.pwron then s
  else
    let s1 := set s F.CLK_MON_COUNT count
    if get s F.CLK_MON_LIMIT < max count 134218 - min count 134218 then report F.CLK_ERR_MON_ALARM 0x0202 FAULT 0 s1 else s1

/-- CLK_MON_WINDOW_END (R70). -/
def execClkMonWindowEnd (count : Nat) (s : State) : Host.Outcome State Fault Refusal := .next (monWindow (count % 2 ^ 32) s)

/-! Gated branches (R68, R69): 0 arrays, 1 tree engines, 2 compression engine. -/

/-- The arrays also verify staged records and test spares (R426, R468, R486). -/
def branchIdle (s : State) : Nat → Bool
  | 0 => s.arr.jobs.isEmpty && s.ver.staged.isEmpty && s.flt.spare.isNone
  | 1 => s.tre.jobs.isEmpty
  | _ => s.cmp.jobs.isEmpty
def gateField : Nat → Field
  | 0 => F.CLK_GATE_STATUS_ARRAYS
  | 1 => F.CLK_GATE_STATUS_TREE
  | _ => F.CLK_GATE_STATUS_CMP

/-- A branch enabled in IDLE_GATE is gated while its unit has no work. -/
def branchGate (b : Nat) (s : State) : State :=
  if b < 3 ∧ s.clk.idleGate.testBit b ∧ branchIdle s b ∧ pwState s = 0 ∧ s.clk.pwron then set s (gateField b) 1 else s

/-- It restarts after work is posted to its unit. -/
def branchRestart (b : Nat) (s : State) : State :=
  if b < 3 ∧ !branchIdle s b ∧ pwState s = 0 then set s (gateField b) 0 else s

/-- CLOCK_BRANCH_GATE (R68). -/
def execClockBranchGate (b : Nat) (s : State) : Host.Outcome State Fault Refusal := .next (branchGate b s)
/-- CLOCK_BRANCH_RESTART (R69). -/
def execClockBranchRestart (b : Nat) (s : State) : Host.Outcome State Fault Refusal := .next (branchRestart b s)

end Sys2Proof.Machine
end

