-- ==== Sys2Proof/Machine/Read.lean ====
section
/-!
DEFINITION. What a read returns (R12, R14, R116, R119, R729): the register map, the registers that show what a unit holds, and the windows
(R238, R343, R606).
-/
namespace Sys2Proof.Machine

/-- 8 bytes of a list as a word; missing bytes read 0. -/
def wordOf (b : List Byte) (i : Nat) : Word := BitVec.ofNat 64 (leAt b (8 * i) 8)

/-- The Guestbook window (R606): word `w` of record CURSOR + j. -/
def gbkView (s : State) (a : Nat) : Word :=
  let o := a - 0x400000
  let n := get s (F.GBK_CURSOR_RECORD (o / 65536)) + o % 65536 / 32
  match s.gbk.ring.find? fun r => r.n == n with
  | some r => wordOf (grecBytes r) (o % 32 / 8)
  | none => 0

/-- The Provisional Window (R343, R345). -/
def pwView (s : State) (a : Nat) : Word :=
  let o := a - 0x480000
  if o < 0x40000 then wordOf ((look (o / 64) s.crv.pw).getD []) (o % 64 / 8)
  else
    let c := 16384 * get s F.CRV_PW_BANK_BANK + (if o < 0x60000 then o - 0x40000 else o - 0x60000) / 8
    match (slotAt s (get s F.CRV_PW_SEL_SLOT)).view.2.find? fun e => e.1 == c with
    | some e => BitVec.ofNat 64 (if o < 0x60000 then e.2.1 else e.2.2)
    | none => 0

/-- The shadow view of a page (R223, R238). -/
def shadowView (s : State) (p w : Nat) : Word :=
  match look p s.tly.shadow with
  | none => 0
  | some c => if w < 33 then c.words.getD w 0 else if w = 33 then BitVec.ofNat 64 c.tb2 else if c.stale then 1 else 0

/-- The Tally direct window (R200, R221, R238). -/
def tlyView (s : State) (a : Nat) : Word :=
  if a < 0x680000 then counter s ((a - 0x600000) / 8)
  else if a < 0x700000 then (look ((a - 0x680000) / 8) ((look (get s F.TLY_HA_CTL_SCHED) s.tly.lastCut).getD [])).getD 0
  else if a < 0x710000 then (look ((a - 0x700000) % 64 / 8) ((look ((a - 0x700000) / 64) s.tly.bins).getD {}).acc).getD 0
  else if a < 0x720000 then
    let b := (a - 0x710000) / 8
    binKey b ((look b s.tly.bins).getD {})
  else if a < 0x730000 then wordOf (((look ((a - 0x720000) / 512) s.tly.snaps).map Snap.bytes).getD []) ((a - 0x720000) % 512 / 8)
  else shadowView s ((a - 0x730000) / 512) ((a - 0x730000) % 512 / 8)

/-- The Ledger record that LDG_RD_SEQ names (R616). -/
def ldgView (s : State) (i : Nat) : Word :=
  match (s.ldg.ring ++ s.ldg.tail).find? fun r => r.seq == get s F.LDG_RD_SEQ_SEQ with
  | some r => wordOf ((lrecBytes r).take 60 ++ leBytes 4 r.chain.toNat) i
  | none => 0

/-- The capture of the selected target (R577). -/
def capView (s : State) : Word × Word :=
  match look (get s F.RCV_CAP_SEL_TARGET) s.rcv.caps with
  | some (code, ctx, t) => (BitVec.ofNat 64 (2 ^ 63 + code % 65536 * 2 ^ 32 + ctx % 2 ^ 32), BitVec.ofNat 64 t)
  | none => (0, 0)

/-- The closed sketch that INK_QSK_SEL names (R364). -/
def qskView (s : State) (i : Nat) : Word :=
  let v := inkQ s (get s F.INK_QSK_SEL_QUEUE)
  let k := if get s F.INK_QSK_SEL_KIND = 0 then v.depthClosed else v.delayClosed
  BitVec.ofNat 64 ((look (2 * i) k.buckets).getD 0 % 2 ^ 32 + (look (2 * i + 1) k.buckets).getD 0 % 2 ^ 32 * 2 ^ 32)

/-- A halted core's pc and registers (R711); those of a core that is not halted read a free value (log 66). -/
def coreView (s : State) (a : Nat) : Word :=
  let c := dbgCore s
  if !dbgHalted s c then Config.runningCore s.freeCtr c a
  else
    let k := (look c s.cores).getD {}
    if a = F.DBG_CORE_PC_PC.addr then k.pc else (look ((a - 0x1C0100) / 8) k.x).getD 0

/-- The Porter's internal channel is busy: a transfer of it waits, stands in an Innkeeper queue or is outstanding (R554, R646). -/
def internalBusy (s : State) : Bool :=
  let mine (r : MemReq) : Bool := r.user == .porterInt
  let item (i : InkItem) : Bool := match i.req with | some r => mine r | none => false
  s.mmp.wait.any mine || s.mmp.out.any mine || s.ink.hold.any item || s.ink.queues.any fun e => e.2.items.any item || e.2.writes.any item

/-- The value that a register reads. -/
def regView (s : State) (a : Nat) : Word :=
  if 0x150028 ≤ a ∧ a < 0x150068 then ldgView s ((a - 0x150028) / 8)
  else if a = F.SBX_FRAME_DATA_DATA.addr then wordOf s.sbx.frame (get s F.SBX_FRAME_ADDR_WORD)
  else if a = F.RCV_DBUF_DATA_DATA.addr then wordOf s.rcv.dbuf (get s F.RCV_DBUF_ADDR_WORD)
  else if a = F.RCV_CAP_INFO_VALID.addr then (capView s).1
  else if a = F.RCV_CAP_TIME_TIME.addr then (capView s).2
  else if 0x181000 ≤ a ∧ a < 0x183000 ∧ a % 0x20 = 0x10 then BitVec.ofNat 64 (get s (F.SYN_OBJ_VIEW0_VALUE ((a - 0x181000) / 0x20)))
  else if a = F.PRT_STATUS_INTERNAL.addr then putAt (rd s a) 16 1 (if internalBusy s then 1 else 0)
  else if a = F.INK_STATUS_SAT_SLOTS.addr then
    putAt (rd s a) 32 12 (s.crv.slots.filter fun e => e.2.saturated).length
  else if a = F.INK_QSK_INFO_EPOCH.addr then BitVec.ofNat 64 (inkQ s (get s F.INK_QSK_SEL_QUEUE)).closedEpoch
  else if 0x0B1000 ≤ a ∧ a < 0x0B2000 then qskView s ((a - 0x0B1000) / 8)
  else if 0x0B4000 ≤ a ∧ a < 0x0B8000 ∧ a % 0x20 = 0x18 then
    putAt (rd s a) 32 32 (min (headDelay s (inkQ s ((a - 0x0B4000) / 0x20))) (2 ^ 32 - 1))
  else if a = F.DBG_CORE_PC_PC.addr ∨ (0x1C0108 ≤ a ∧ a < 0x1C0200) then coreView s a
  else if 0x0A0000 ≤ a ∧ a < 0x0A0100 then rd (showSlot s) a
  else rd s a

/-- The conditions that a read meets: 0 none, 1 domain in reset, 2 reserved, 3 below the read privilege (R729). -/
def readCheck (s : State) (a : Nat) (p : Priv) : Nat :=
  if (pageBuilt s (a / 65536) || roWindow a || rwWindow a) && pageInReset s (pageOf a) && !aonReg a then 1
  else if roWindow a then (if windowBuilt s a then 0 else 2)
  else match regRow s a with
    | none => 2
    | some r => if privRank p < privRank r.rpriv then 3 else 0

/-- A register or window word is read: status and the 64 bits. -/
def readWord (s : State) (a : Nat) (p : Priv) : Nat × Word :=
  match readCheck s a p with
  | 0 =>
    (0, if 0x400000 ≤ a ∧ a < 0x440000 then gbkView s a
      else if 0x480000 ≤ a ∧ a < 0x500000 then pwView s a
      else if 0x600000 ≤ a then tlyView s a
      else regView s a)
  | 3 => (1, 0)
  | _ => (3, 0)

/-- What an access of a half returns (R116). -/
def halfOf (h : Half) (v : Word) : Word :=
  match h with
  | .full => v
  | .lo => v &&& 0xFFFFFFFF#64
  | .hi => v >>> 32

/-- A read at a port. -/
def portRead (a0 : Nat) (acc : Acc) (s : State) : Nat × Word :=
  match presented s acc with
  | none => (3, 0)
  | some acc =>
    let r := readWord s (offset a0) acc.priv
    (r.1, halfOf acc.half r.2)

end Sys2Proof.Machine
end

