-- ==== Sys2Proof/Machine/Tga.lean ====
section
/-!
DEFINITION. The Telemetry Global Address space (R334 to R342) and its window. A write that reaches its target is an access to a
register page, which `unit` performs: the dispatcher of all pages passes itself in.
-/
namespace Sys2Proof.Machine

/-! Addresses (R334). -/

def tgaSpace (a : Nat) : Nat := natBits a 60 4
def tgaLevel (a : Nat) : Nat := natBits a 56 4
def tgaIndex (a : Nat) : Nat := natBits a 39 17
/-- The register offset of a REG address, and the counter of a CTR address. -/
def tgaReg (a : Nat) : Nat := natBits a 33 6 * 65536 + natBits a 3 13 * 8
def tgaCtr (a : Nat) : Nat := natBits a 3 30
/-- Domain, counter, sketch and bucket pair of the aggregate spaces. -/
def tgaDomain (a : Nat) : Nat := natBits a 19 20
def tgaAggCtr (a : Nat) : Nat := natBits a 3 16
def tgaSketch (a : Nat) : Nat := natBits a 12 7
def tgaPair (a : Nat) : Nat := natBits a 3 9

/-- An address of no space: BAD_ADDR (R334), the fixed bits of REG and CTR included (log 67). -/
def tgaBad (a : Nat) : Bool :=
  decide (4 < tgaSpace a) || decide (4 < tgaLevel a) || natBits a 0 3 != 0
    || (tgaSpace a == 0 && natBits a 16 17 != 0) || (tgaSpace a == 1 && natBits a 33 6 != 8)

/-- An answer: status, CACHE, the answerer's index and level in the layout of R341, the value and the epoch it reflects. -/
structure TgaAns where
  status : Nat
  cache : Bool := false
  who : Nat
  value : Word := 0
  epoch : Nat := 0
  deriving DecidableEq, Repr

/-- This instance as an answerer. -/
def tgaSelf (s : State) : Nat := index s % 2 ^ 24 + 2 ^ 24 * (level s % 8)
def tgaSay (s : State) (status : Nat) : TgaAns := { status, who := tgaSelf s }

/-! Performing a request at its target (R338, R339). -/

/-- The entry of a counter in the latest confirmed results of a slot, with its operation. -/
def aggEntry (v : CrvSlot) (c : Nat) : Option (Nat × List (Nat × Nat)) :=
  v.results.findSome? fun r => match r with
    | .agg _ op _ _ _ ents _ => (ents.find? fun e => e.1 == c).map fun e => (op, e.2)
    | .sketch _ _ _ _ => none

/-- The sketch of an ID in the latest confirmed results of a slot. -/
def sketchEntry (v : CrvSlot) (i : Nat) : Option Sketch :=
  v.results.findSome? fun r => match r with
    | .sketch id _ _ k => if id = i then some k else none
    | .agg _ _ _ _ _ _ _ => none

/-- The value that an aggregate read returns: the value, the die of the argument or top-1 entry of an operation that has one, or
a bucket pair. -/
def tgaAggValue (v : CrvSlot) (a : Nat) : Option Word :=
  match tgaSpace a with
  | 2 => (aggEntry v (tgaAggCtr a)).map fun e => BitVec.ofNat 64 (e.2.headD (0, 0)).1
  | 3 => (aggEntry v (tgaAggCtr a)).bind fun e =>
      if [3, 5, 8, 9].contains e.1 then some (BitVec.ofNat 64 (e.2.headD (0, 0)).2) else none
  | _ => (sketchEntry v (tgaSketch a)).map fun k =>
      BitVec.ofNat 64 ((look (2 * tgaPair a) k.buckets).getD 0 % 2 ^ 32 + (look (2 * tgaPair a + 1) k.buckets).getD 0 % 2 ^ 32 * 2 ^ 32)

/-- A read performed here (R338). -/
def tgaRead (s : State) (a : Nat) : TgaAns :=
  match tgaSpace a with
  | 0 =>
    (match readCheck s (tgaReg a) .F with
      | 1 => tgaSay s 6
      | 3 => tgaSay s 3
      | _ => { tgaSay s 0 with value := (readWord s (tgaReg a) .F).2 })
  | 1 =>
    (match (homeDomain s).bind (domSched s) with
      | none => tgaSay s 6
      | some k => match look k s.tly.lastCut with
        | none => tgaSay s 6
        | some cut =>
          if nCounters s ≤ tgaCtr a then tgaSay s 6
          else { tgaSay s 0 with value := (look (tgaCtr a) cut).getD 0, epoch := get s (F.TLY_SCHED_EPOCH_EPOCH k) })
  | _ =>
    match slotOf s (tgaDomain a) with
    | none => tgaSay s 6
    | some k =>
      let v := slotAt s k
      match v.latest, tgaAggValue v a with
      | some (n, _), some w => { tgaSay s 0 with value := w, epoch := n }
      | _, _ => tgaSay s 6

/-- A write performed here (R339): only of a register of configuration class, at Fleet privilege, with the requester's initiator. -/
def tgaWriteAt (unit : Nat → Acc → State → State) (a : Nat) (data : Word) (init src : Nat) (s : State) : TgaAns × State :=
  let acc : Acc := { port := .tga, priv := .F, init, half := .full, data, tgaFrom := src, hwMask := 0, hwVal := 0, sameCycle := false }
  let o := tgaReg a
  match regRow s o with
  | none => (tgaSay s 3, s)
  | some r =>
    if tgaSpace a ≠ 0 ∨ isConfig r = false ∨ writeCheck s o acc ≠ 0 then (tgaSay s 3, s)
    else (tgaSay s 0, portWrite unit o acc s)

/-! Answers and forwarding (R336, R340, R341). -/

def showTga (s : State) : State := set s F.CRV_STATUS_TGA_PENDING s.crv.tga.length

/-- Bytes of a TGA_REQ and of a TGA_ANS (R341). -/
def reqBytes (r : TgaReq) : List Byte :=
  leBytes 8 r.addr ++ wordBytes r.data ++ leBytes 2 r.tag ++ leBytes 1 (if r.write then 1 else 0) ++ leBytes 1 r.hops
    ++ leBytes 2 r.init ++ leBytes 10 0
def ansBytes (tag : Nat) (x : TgaAns) : List Byte :=
  leBytes 2 tag ++ leBytes 1 x.status ++ leBytes 1 (if x.cache then 1 else 0) ++ leBytes 4 x.who ++ wordBytes x.value
    ++ leBytes 6 x.epoch ++ leBytes 10 0

/-- BUSY answers that wait in the Innkeeper: the entries of the reply store that they hold (R367). -/
def busyHeld (s : State) : Nat :=
  let busy (it : InkItem) : Bool := match it.pkt with
    | some (p, _, _) => p.type == 0x13 && leAt p.payload 2 1 == 5
    | none => false
  s.ink.queues.foldl (fun n e => n + (e.2.items.filter busy).length) (s.ink.hold.filter busy).length

/-- An answer goes back to where its request came from (R336, R342). -/
def tgaDeliver (o : TgaFrom) (x : TgaAns) (s : State) : State :=
  match o with
  | .hop lvl idx tag child => sendPkt (mkPkt s 0x13 0 0 (get s F.CRV_HOME_DOMAIN) 0 0xFFFF (ansBytes tag x)) lvl idx child false s
  | .window k =>
    let s1 := wr s (F.TGAW_DATA_VALUE k).addr x.value
    let s2 := wr s1 (F.TGAW_EPOCH_EPOCH k).addr (BitVec.ofNat 64 (x.epoch % 2 ^ 48))
    let s3 := wr s2 (F.TGAW_FROM_ANSWERER k).addr (BitVec.ofNat 64 (x.who % 2 ^ 27))
    post (F.TGAW_RESULT_SEQ k).addr (get s (F.TGAW_CTL_SEQ k))
      (BitVec.ofNat 64 (x.status + (if x.cache then 2 ^ 16 else 0))) s3

/-- A request stays pending and goes on to a hop (R336). -/
def tgaForward (r : TgaReq) (lvl idx bit : Nat) (child : Option Nat) (s : State) : State :=
  let r1 := { r with tag := s.crv.tgaTag, hops := r.hops + 1, born := s.tim.tb2 }
  let s1 := showTga (setCrv { s.crv with tga := s.crv.tga ++ [r1], tgaTag := (s.crv.tgaTag + 1) % 65536 } s)
  sendPkt (mkPkt s1 0x12 0 0 (get s F.CRV_HOME_DOMAIN) 0 bit (reqBytes r1)) lvl idx child false
    (bump s1 F.CRV_TGA_STATS_FORWARDED 1)

/-- The epoch of the home domain in progress. -/
def homeEpoch (s : State) : Nat := match homeDomain s with | some d => nextEpoch s d - 1 | none => 0

/-- The cached answer to a CTR read (R337): the cut lies at most 2 epochs back. -/
def tgaCached (s : State) (a : Nat) : Option TgaCache :=
  if tgaSpace a ≠ 1 then none
  else s.crv.cache.find? fun t => t.level == tgaLevel a && t.index == tgaIndex a && t.ctr == tgaCtr a
    && decide (homeEpoch s ≤ t.epoch + 2)

/-- A cache entry is used last (R337). -/
def useCache (t : TgaCache) (s : State) : State :=
  let rest := s.crv.cache.filter fun u => !(u.level == t.level && u.index == t.index && u.ctr == t.ctr)
  setCrv { s.crv with cache := (t :: rest).take (Config.tgaCacheEntries (pers s)) } s

/-- The home domain's child through which a target lies, and the index of that child (R335). -/
def tgaChild (s : State) (a : Nat) : Option (Nat × Nat) :=
  match s.crv.desc.find? fun e => e.1 == tgaLevel a && e.2.1 == tgaIndex a with
  | none => none
  | some (_, _, b) =>
    match (homeDomain s).bind (slotOf s) with
    | none => none
    | some k => (kidAt (slotAt s k) b).map fun c => (b, c.index)

/-- A request is handled (R334, R336, R340); a read answered here with a value is counted (R194). A fence of NET answers BUSY (R567). -/
def tgaHandle (unit : Nat → Acc → State → State) (r : TgaReq) (src : Nat) (s : State) : State :=
  let say (n : Nat) (s : State) : State := tgaDeliver r.origin (tgaSay s n) s
  if fenced s 3 || decide (256 ≤ s.crv.tga.length) then
    (match r.origin with
      | .hop _ _ _ _ => if 64 ≤ busyHeld s then replyFull 1 s else say 5 s
      | .window _ => say 5 s)
  else if tgaBad r.addr then say 2 s
  else if tgaLevel r.addr = level s ∧ tgaIndex r.addr = index s then
    if r.write then
      let x := tgaWriteAt unit r.addr r.data r.init src s
      tgaDeliver r.origin x.1 x.2
    else
      let x := tgaRead s r.addr
      tgaDeliver r.origin x (if x.status = 0 then prod 171 1 s else s)
  else match tgaChild s r.addr with
    | some (b, i) =>
      (match (if r.write then none else tgaCached s r.addr) with
        | some t => tgaDeliver r.origin { tgaSay s 0 with cache := true, value := t.value, epoch := t.epoch }
            (prod 171 1 (bump (useCache t s) F.CRV_TGA_STATS_CACHED 1))
        | none => tgaForward r (level s - 1) i 0xFFFF (some b) s)
    | none => match homeParent s with
      | some (i, b) => if 16 ≤ r.hops then say 1 s else tgaForward r (level s + 1) i b none s
      | none => say 1 s

/-- TGA_REQ of a neighbour (R336, R367). -/
def tgaReq (unit : Nat → Acc → State → State) (s : State) : State :=
  match takePkt [0x12] s with
  | none => s
  | some (_, p, s1) =>
    let b := p.payload
    let child := if p.level < level s then some p.childBit else none
    tgaHandle unit
      { tag := 0, origin := .hop p.level p.source (leAt b 16 2) child, addr := leAt b 0 8, write := leAt b 18 1 == 1,
        data := BitVec.ofNat 64 (leAt b 8 8), hops := leAt b 19 1, init := leAt b 20 2, born := s1.tim.tb2 }
      (p.source % 2 ^ 24 + 2 ^ 24 * (p.level % 8)) s1

/-- TGA_ANS of a neighbour: cached, and handed back; one that no pending request waits for is discarded (R336, R337, R340). -/
def tgaAns (s : State) : State :=
  match takePkt [0x13] s with
  | none => s
  | some (_, p, s1) =>
    let b := p.payload
    match s1.crv.tga.find? fun r => r.tag == leAt b 0 2 with
    | none => s1
    | some r =>
      let x : TgaAns := { status := leAt b 2 1, cache := (leAt b 3 1).testBit 0, who := leAt b 4 4, value := BitVec.ofNat 64 (leAt b 8 8),
                          epoch := leAt b 16 6 }
      let s2 := showTga (setCrv { s1.crv with tga := s1.crv.tga.erase r } s1)
      let t : TgaCache := { level := tgaLevel r.addr, index := tgaIndex r.addr, ctr := tgaCtr r.addr, value := x.value, epoch := x.epoch }
      let keep := tgaSpace r.addr == 1 && !r.write && x.status == 0 && (tgaChild s2 r.addr).isSome
      tgaDeliver r.origin x (if keep then useCache t s2 else s2)

/-- TGA_ANS_RECEIVE (R336). -/
def execTgaAnsReceive (s : State) : Host.Outcome State Fault Refusal := .next (tgaAns s)

/-- The oldest pending request has had no answer for TIMEOUT µs (R340). -/
def tgaTmo (s : State) : State :=
  match s.crv.tga with
  | [] => s
  | r :: rest =>
    if inReset s 3 then s
    else
      let s1 := reachBase 2 (r.born + get s F.CRV_TGA_CTL_TIMEOUT * 1000 * 2 ^ 48) s
      let s2 := showTga (setCrv { s1.crv with tga := rest } s1)
      tgaDeliver r.origin (tgaSay s2 4) (report F.CRV_ERR_TGA_TMO 0x0A0F ADVISE (r.addr / 256) s2)

/-- TGA_TIMEOUT (R340). -/
def execTgaTimeout (s : State) : Host.Outcome State Fault Refusal := .next (tgaTmo s)

/-- NET is fenced: the pending requests are answered BUSY (R567). -/
def tgaFence (s : State) : State :=
  s.crv.tga.foldl (fun s r => tgaDeliver r.origin (tgaSay s 5) s) (showTga (setCrv { s.crv with tga := [] } s))

/-! The window (R342). -/

/-- GO of window slot `k`. -/
def tgaGo (unit : Nat → Acc → State → State) (k : Nat) (acc : Acc) (s : State) : State :=
  if valid s (F.TGAW_RESULT_SEQ k).addr || s.crv.tga.any (fun r => r.origin == .window k) then flag F.CRV_ERR_TGA_BUSY s
  else
    tgaHandle unit
      { tag := 0, origin := .window k, addr := get s (F.TGAW_ADDR_TGA k), write := on s (F.TGAW_CTL_WRITE k),
        data := rd s (F.TGAW_WDATA_DATA k).addr, hops := 0, init := accInit acc, born := s.tim.tb2 } (tgaSelf s) s

/-- A write to the TGA window. -/
def tgaWindow (unit : Nat → Acc → State → State) (a : Nat) (acc : Acc) (s : State) : State :=
  let k := (a - 0x500000) / 64
  if a % 64 = 0x18 then consume a acc s
  else
    let s1 := perform a acc s
    if a % 64 = 8 && wrote1 acc (F.TGAW_CTL_GO k) then tgaGo unit k acc s1 else s1

/-- GO of slot `k` with WRITE as `w`. -/
def tgaRow (unit : Nat → Acc → State → State) (k w : Nat) (acc : Acc) (s : State) : State :=
  portWrite (tgaWindow unit) (0x500008 + 64 * k) (force (F.TGAW_CTL_GO k) 1 (force (F.TGAW_CTL_WRITE k) w acc)) s

end Sys2Proof.Machine
end

