-- ==== Sys2Proof/Machine/Recovery.lean ====
section
/-!
DEFINITION. The recovery unit (R561 to R595): heartbeats, fences and their sideband, orders, dumps, fault notices, teardowns and
holdover.
-/
namespace Sys2Proof.Machine

/-! Targets (R565, R570). -/

def builtTarget (s : State) (t : Nat) : Bool := decide (t < 7) || (decide (32 ≤ t) && decide (t < 64) && pers s != 3)

/-- What the table of R567 drains for a block domain has finished: tree engines, Porter descriptors, memory requests. -/
def fenceQuiet (s : State) (t : Nat) : Bool :=
  match t with
  | 1 => !s.tre.jobs.any TreJob.running
  | 2 => s.prt.jobs.isEmpty
  | 6 => s.mmp.out.isEmpty
  | _ => true

/-- The pages that have not reported quiescent, one bit each: those with work in progress, and those of `stuck` that lie in the domain. -/
def notQuiet (s : State) (t stuck : Nat) : Nat :=
  (match t with
    | 1 => if fenceQuiet s 1 then 0 else 2 ^ 0x0C
    | 2 => if fenceQuiet s 2 then 0 else 2 ^ 0x12
    | 6 => if fenceQuiet s 6 then 0 else 2 ^ 0x04
    | _ => 0) ||| (((List.range 0x1E).filter fun p => stuck.testBit p && domainOf p == some t).foldl (fun m p => m ||| 2 ^ p) 0)

def recOfFence (s : State) (t : Nat) : FenceRec := (look t s.rcv.fences).getD { reqTb0 := 0, reqTb2 := 0 }
def putFence (t : Nat) (v : FenceRec) (s : State) : State := setRcv { s.rcv with fences := store t v s.rcv.fences } s

/-! Fault notices (R586 to R588). -/

def showNotices (s : State) : State := set s F.RCV_STATUS_NOTICES s.rcv.notices.length

/-- The named context and code of a target (R577, R578): its capture, else the context of the host domain's most recent tag transfer. -/
def namedFault (s : State) (t : Nat) : Nat × Nat × Nat :=
  match look t s.rcv.caps with
  | some (code, ctx, time) => (code, ctx, time)
  | none => (0, if t < 32 then 0 else (look (t - 32) s.rcv.lastCtx).getD 0xFFFFFFFF, 0)

/-- The payload of a notice: `flags` as byte 40, the dump's ID, address and UNRESP. -/
def noticeBytes (s : State) (t flags id addr unresp : Nat) : List Byte :=
  let v := recOfFence s t
  let (code, ctx, _) := namedFault s t
  leBytes 8 v.reqTb0 ++ leBytes 2 code ++ leBytes 1 (if t < 32 then 0 else 1) ++ leBytes 1 (t % 32) ++ leBytes 4 ctx
    ++ leBytes 4 (index s % 2 ^ 24 + 2 ^ 24 * (level s % 8)) ++ leBytes 4 (get s F.CRV_HOME_DOMAIN) ++ leBytes 4 id ++ leBytes 4 0
    ++ leBytes 8 addr ++ leBytes 1 flags ++ leBytes 1 unresp ++ leBytes 1 v.reason ++ leBytes 1 0 ++ leBytes 4 v.heartbeat ++ leBytes 16 0

/-- A notice enters the queue of 16, or is dropped. -/
def noticeQueue (t : Nat) (b : List Byte) (s : State) : State :=
  if 16 ≤ s.rcv.notices.length then report F.RCV_ERR_NOTICE_DROP 0x1308 ADVISE t s
  else showNotices (setRcv { s.rcv with notices := s.rcv.notices ++ [(t, b)] } s)

/-- The oldest notice is sent while NET is OPEN and not in reset. -/
def noticeSend (s : State) : State :=
  match s.rcv.notices with
  | [] => s
  | n :: rest =>
    if fenced s 3 || inReset s 3 then s
    else sendFm 0x20 0 (get s F.CRV_HOME_DOMAIN) 0 n.2 (showNotices (setRcv { s.rcv with notices := rest } s))

/-- FAULT_NOTICE_SEND (R586, R588). -/
def execFaultNoticeSend (s : State) : Host.Outcome State Fault Refusal := .next (noticeSend s)

/-! The end of an order. -/

def hostDump (s : State) : Bool := (get s F.GLB_FUNC_MODE_MODE).testBit 7

/-- FLAGS of a result (R570): FORCED, NO_FAULT, TRUNCATED, HELD, ERR_RESP, UNRESPONSIVE, HOST_ASSISTED. `d` is the dump, `held` whether it
stays in the buffer. -/
def rcvFlags (s : State) (o : RcvOrd) (d : Option Dump) (held : Bool) : Nat :=
  let v := recOfFence s o.target
  let df := (d.map Dump.flags).getD 0
  (if fenceForced s o.target then 1 else 0) + (if v.noFault then 2 else 0) + (if df.testBit 0 then 4 else 0) + (if held then 8 else 0)
    + (if v.errResp then 16 else 0) + (if df.testBit 4 then 32 else 0) + (if o.dump && d.isNone && hostDump s then 64 else 0)

/-- FLAGS of a notice (R586). -/
def noticeFlags (s : State) (o : RcvOrd) (d : Option Dump) (tmo : Bool) : Nat :=
  let v := recOfFence s o.target
  let df := (d.map Dump.flags).getD 0
  df % 2 + (if fenceForced s o.target then 2 else 0) + (if v.noFault then 4 else 0) + (if v.errResp then 8 else 0)
    + (if df.testBit 4 then 16 else 0) + (if tmo then 32 else 0) + (if o.dump && d.isNone && hostDump s then 64 else 0)

/-- A FENCE or DUMP order ends: a FENCE queues its notice (R586), and the result posts (R570). -/
def fenceEnd (k : Nat) (status : Nat) (d : Option Dump) (held : Bool) (s : State) : State :=
  match ordOf s k with
  | none => s
  | some o =>
    let addr := match d with | some d => (if held then 0 else (d.xfer.map Prod.snd).getD 0) | none => 0
    let s1 := if o.op = 0 ∧ o.notice ∧ on s F.RCV_CTL_NOTICE_EN then
        noticeQueue o.target (noticeBytes s o.target (noticeFlags s o d (status == 4)) ((d.map Dump.id).getD 0) addr ((d.map Dump.unresp).getD 0)) s
      else s
    ordDone k status (putOrd k { o with flags := rcvFlags s o d held } s1)

/-! Dumps (R579 to R585). -/

/-- The next dump begins, in order of acceptance, once the buffer is free (R579, R585). -/
def dumpNext (s : State) : State :=
  if s.rcv.build.isSome || s.rcv.dump.isSome then s
  else match s.rcv.orders.find? fun e => e.2.dump && e.2.step == 1 with
    | none => s
    | some (k, o) =>
      let s1 := putOrd k { o with step := 2 } (setRcv { s.rcv with build := some (k, []) } s)
      set (set s1 F.RCV_DUMP_LAST_DUMP_ID (get s F.RCV_DUMP_LAST_DUMP_ID + 1)) F.RCV_STATUS_DUMP_BUSY 1

/-- The pages of the PAGE sections of a target (R581). -/
def dumpPages (t : Nat) : List Nat :=
  [0x00, 0x13] ++ match t with
    | 0 => [0x08, 0x17, 0x18, 0x19]
    | 1 => [0x0C, 0x0D, 0x0E, 0x0F, 0x10]
    | 2 => [0x11, 0x12]
    | 3 => [0x05, 0x06, 0x0A, 0x0B]
    | 4 => [0x09, 0x07]
    | 5 => [0x03]
    | 6 => [0x04]
    | _ => [0x03]

/-- A word of a page as the dump reads it: not with the privilege that VER_SEED_KEY asks for (R451, R717; log 69). -/
def dumpWord (s : State) (a : Nat) : List Byte := wordBytes (readWord s a .D).2

/-- A section: type, source, STALE, the TB2 ns of its data, and its body. -/
def section_ (type src : Nat) (stale : Bool) (time : Nat) (body : List Byte) : List Byte :=
  leBytes 2 type ++ leBytes 1 src ++ leBytes 1 (if stale then 1 else 0) ++ leBytes 4 (16 + body.length) ++ leBytes 8 time ++ body

/-- A PAGE section: read live, or from the shadow of an unresponsive unit, or empty (R582). -/
def pageSection (s : State) (un : List (Nat × Bool)) (p : Nat) : List Byte :=
  match look p un with
  | none => section_ 1 0 false (ns2 s) (leBytes 8 p ++ (List.range 32).flatMap (fun i => dumpWord s (65536 * p + 8 * i)) ++ dumpWord s (65536 * p + 0xFFF8))
  | some true => section_ 1 1 (shadowView s p 34 != 0) (shadowView s p 33).toNat
      (leBytes 8 p ++ (List.range 33).flatMap fun w => wordBytes (shadowView s p w))
  | some false => section_ 1 2 false 0 []

/-- A section of some units: empty when each of them is unresponsive (R582). -/
def unitSection (s : State) (un : List (Nat × Bool)) (type : Nat) (pages : List Nat) (body : List Byte) : List Byte :=
  if pages.all fun p => (look p un).isSome then section_ type 2 false 0 [] else section_ type 0 false (ns2 s) body

/-- The built job slots at a base, 64 bytes apart, or as far as given. -/
def slotsAt (s : State) (base stride : Nat) : List Nat := ((List.range 64).map fun i => base + stride * i).filter fun a => (regRow s a).isSome
def jobWords (s : State) : List Byte :=
  (slotsAt s 0x0C1000 0x40).flatMap (fun a => (List.range 6).flatMap fun i => dumpWord s (a + 8 * i))
    ++ (slotsAt s 0x0D1000 0x40).flatMap (fun a => (List.range 7).flatMap fun i => dumpWord s (a + 8 * i))
    ++ (slotsAt s 0x121000 0x80).flatMap (fun a => (List.range 9).flatMap fun i => dumpWord s (a + 8 * i))

def coreBytes (s : State) (c : Nat) : List Byte :=
  let k := (look c s.cores).getD {}
  wordBytes k.pc ++ (List.range 31).flatMap (fun i => wordBytes ((look (i + 1) k.x).getD 0)) ++ wordBytes k.mcause ++ wordBytes k.mepc ++ wordBytes k.mtval

/-- The engines whose current tag names a host domain. -/
def domainTags (s : State) (d : Nat) : List (Nat × Nat × Nat × Nat) :=
  sortBy Prod.fst (s.eop.tags.filter fun t => t.2.1 / 2 ^ 24 % 256 == d)

/-- The sections of a target beside its pages (R581). -/
def targetSections (s : State) (un : List (Nat × Bool)) (t : Nat) : List (List Byte) :=
  match t with
  | 0 => [unitSection s un 2 [0x17] ((List.range (nCores s)).flatMap (coreBytes s)),
          unitSection s un 4 [0x18] ((slotsAt s 0x181000 0x20 ++ slotsAt s (0x181000 + 64 * 0x20) 0x20 ++ slotsAt s (0x181000 + 128 * 0x20) 0x20
            ++ slotsAt s (0x181000 + 192 * 0x20) 0x20).flatMap fun a => (List.range 4).flatMap fun i => dumpWord s (a + 8 * i))]
  | 1 => [unitSection s un 5 [0x0C, 0x0D] (jobWords s)]
  | 2 => [unitSection s un 5 [0x12] (jobWords s)]
  | 3 => [unitSection s un 3 [0x0B] (((List.range (nQueues s)).filter fun q => on s (F.INK_Q_CFG_VALID q)).flatMap fun q =>
            dumpWord s (F.INK_Q_CFG_VALID q).addr ++ dumpWord s (F.INK_Q_STATE_DEPTH q).addr)]
  | 4 => []
  | 5 => []
  | 6 => []
  | _ =>
    let d := t - 32
    let tags := domainTags s d
    [unitSection s un 6 [0x03] (tags.flatMap fun x => leBytes 4 x.1 ++ leBytes 4 x.2.1 ++ leBytes 4 x.2.2.1 ++ leBytes 4 x.2.2.2),
     unitSection s un 7 [0x03] (tags.flatMap fun x => padTo 512 (((look x.1 s.tly.snaps).map Snap.bytes).getD [])),
     unitSection s un 8 [0x03] (dumpWord s F.EOP_FENCE_STATE0_ACK.addr ++ dumpWord s F.EOP_FENCE_STATE1_ERR_RESP.addr
       ++ dumpWord s (F.RCV_HB_HOST_COUNT d).addr)]

/-- The latest 256 Guestbook records. -/
def guestbookSection (s : State) : List Byte :=
  section_ 9 0 false (ns2 s) ((s.gbk.ring.drop (s.gbk.ring.length - 256)).flatMap grecBytes)

/-- Sections up to the first that would pass 128 KiB (R581): them, and whether some are left out. -/
def fitSections (room : Nat) : List (List Byte) → List (List Byte) × Bool
  | [] => ([], false)
  | x :: rest => if room < x.length then ([], true) else let r := fitSections (room - x.length) rest; (x :: r.1, r.2)

/-- A dump of a target (R580). -/
def dumpBytes (s : State) (t id : Nat) (un : List (Nat × Bool)) : Dump :=
  let all := (dumpPages t).map (pageSection s un) ++ targetSections s un t ++ [guestbookSection s]
  let (secs, trunc) := fitSections (131072 - 64) all
  let v := recOfFence s t
  let body := secs.flatten
  let len := (64 + body.length + 63) / 64 * 64
  let (code, ctx, time) := namedFault s t
  let flags := (if trunc then 1 else 0) + (if fenceForced s t then 2 else 0) + (if v.noFault then 4 else 0) + (if v.errResp then 8 else 0)
    + (if un.isEmpty then 0 else 16)
  let head := [0x52, 0x44, 0x4D, 0x50, 0x01] ++ leBytes 1 (if t < 32 then 0 else 1) ++ leBytes 1 (t % 32) ++ leBytes 1 flags ++ leBytes 4 len
    ++ leBytes 4 secs.length ++ leBytes 8 v.reqTb0 ++ leBytes 8 v.fencedTb0 ++ leBytes 4 ctx ++ leBytes 2 code ++ leBytes 2 un.length
    ++ leBytes 8 time ++ leBytes 4 id ++ leBytes 8 0
  let rest := padTo (len - 64) body
  let crc := crc32c (head ++ leBytes 4 0 ++ rest)
  { slot := none, target := t, id, flags, bytes := head ++ leBytes 4 crc.toNat ++ rest, unresp := un.length }

/-- A probe of a unit is not answered in 10 µs; `shadow` says whether the read of its shadow is (R582). -/
def dumpProbe (p : Nat) (shadow : Bool) (s : State) : State :=
  match s.rcv.build with
  | none => s
  | some (k, un) =>
    match ordOf s k with
    | none => s
    | some o =>
      if !(dumpPages o.target).contains p || (look p un).isSome then s
      else report F.RCV_ERR_UNRESPONSIVE 0x1306 ADVISE p (setRcv { s.rcv with build := some (k, store p shadow un) } s)

/-- DUMP_PROBE_TIMEOUT (R582). -/
def execDumpProbeTimeout (page : Nat) (shadow : Bool) (s : State) : Host.Outcome State Fault Refusal := .next (dumpProbe page shadow s)

/-- Whole dumps that region 1 holds, and whether a dump may be written now (R584). -/
def dumpSlots (s : State) : Nat := regionSize s 1 / 131072
def dumpOpen (s : State) : Bool := !fenced s 3 && !fenced s 6 && decide (0 < dumpSlots s)

/-- The dump in the buffer is written to its slot. -/
def dumpWrite (d : Dump) (s : State) : State :=
  let a := regionStart s 1 + d.id % dumpSlots s * 131072
  memRequest .dump 17 1 true a d.bytes.length d.bytes (setRcv { s.rcv with dump := some { d with xfer := some (s.mmp.nextXfer, a) } } s)

/-- The dump stays in the buffer: its order ends with HELD (R584). -/
def dumpHold (d : Dump) (s : State) : State :=
  let s1 := setRcv { s.rcv with dump := some { d with slot := none, xfer := none } } s
  match d.slot with
  | some k => fenceEnd k 0 (some d) true s1
  | none => s1

/-- The dump is complete in the buffer. -/
def dumpBuilt (s : State) : State :=
  match s.rcv.build with
  | none => s
  | some (k, un) =>
    match ordOf s k with
    | none => s
    | some o =>
      let id := get s F.RCV_DUMP_LAST_DUMP_ID
      let d := { dumpBytes s o.target id un with slot := some k }
      let s1 := setRcv { s.rcv with build := none, dump := some d, dbuf := d.bytes } s
      let s2 := set (set (set s1 F.RCV_STATUS_DUMP_BUSY 0) F.RCV_STATUS_DBUF_HELD 1) F.RCV_DUMP_LAST_LENGTH d.bytes.length
      let s3 := if d.flags.testBit 0 then report F.RCV_ERR_DUMP_TRUNC 0x1307 ADVISE (id + 2 ^ 32) s2 else s2
      if dumpOpen s then dumpWrite d s3 else dumpHold d s3

/-- DUMP_BUILD_DONE (R583). -/
def execDumpBuildDone (s : State) : Host.Outcome State Fault Refusal := .next (if s.clk.stopped then s else dumpBuilt s)

/-- The write responses of a dump have returned: record 0x1305, and the result of the order that built it (R584). -/
def dumpWritten (s : State) : State :=
  match s.rcv.dump with
  | none => s
  | some d => match d.xfer with
    | none => s
    | some (x, _) =>
      if !memDone s .dump x then s
      else
        let s1 := memForget .dump x s
        if !memOk s .dump x then dumpHold d s1
        else
          let s2 := set (setRcv { s1.rcv with dump := none } s1) F.RCV_STATUS_DBUF_HELD 0
          let s3 := note 0x1305 INFO (d.id + 2 ^ 32 * d.bytes.length) s2
          dumpNext (match d.slot with
            | some k => fenceEnd k 0 (some d) false s3
            | none => s3)

/-- DUMP_WRITE_DONE (R584). -/
def execDumpWriteDone (s : State) : Host.Outcome State Fault Refusal := .next (dumpWritten s)

/-- A held dump is written once NET and the MMP shell are OPEN and region 1 has room. -/
def heldWrite (s : State) : State :=
  match s.rcv.dump with
  | none => s
  | some d => if d.slot.isSome || d.xfer.isSome || !dumpOpen s then s else dumpWrite d s

/-- HELD_DUMP_WRITE (R584). -/
def execHeldDumpWrite (s : State) : Host.Outcome State Fault Refusal := .next (heldWrite s)

/-- DISCARD frees the buffer of a held dump (R579). -/
def dumpDiscard (s : State) : State :=
  match s.rcv.dump with
  | none => s
  | some d => if d.slot.isSome || d.xfer.isSome then s
    else dumpNext (set (setRcv { s.rcv with dump := none } s) F.RCV_STATUS_DBUF_HELD 0)

/-! Fences (R565 to R574). -/

/-- The probe in flight has an unanswered engine of a host domain whose fence begins: it counts as unanswered (R489, R567). -/
def probeFenced (s : State) : State :=
  match s.flt.probe with
  | none => s
  | some p =>
    match p.engines.find? fun e => (look e p.results).isNone && probeHeld s e with
    | none => s
    | some e =>
      if p.waits then s
      else probeOver (report F.FLT_ERR_PROBE_NOANS 0x1004 ADVISE (e + 2 ^ 32 * (p.id % 2 ^ 32)) (probeStat p F.FLT_PROBE_STATS_NOANSWER s))

/-- What a fence does at once (R110, R567). -/
def fenceNow (t : Nat) (s : State) : State :=
  match t with
  | 0 =>
    let s1 := setRcv { s.rcv with cores := s.rcv.cores ||| get s F.CTL_STATUS_RUNNING } s
    cwFence (set s1 F.CTL_STATUS_RUNNING 0)
  | 2 => curAbort s
  | 3 => tgaFence s
  | 6 => (match s.cur.snap with
    | some p => snapEnd 4 p s
    | none => s)
  | _ =>
    if t < 32 then s
    else
      let d := t - 32
      let s1 : State := { s with eop := { s.eop with ignored := s.eop.ignored.filter fun x => x.1 != d } }
      probeFenced (setBit s1 F.EOP_FENCE_STATE0_REQ d true)

/-- The heartbeat that a notice names (R586). -/
def fenceBeat (s : State) (t : Nat) : Nat :=
  if t = 0 then get s (F.RCV_HB_CORE_COUNT 0) else if t < 32 then 0 else get s (F.RCV_HB_HOST_COUNT (t - 32))

/-- A fence of an OPEN target begins (R570, R571): counted, recorded, and held from here on. -/
def fenceStart (t reason : Nat) (s : State) : State :=
  let v : FenceRec := { reqTb0 := ns0 s, reqTb2 := s.tim.tb2, reason, heartbeat := fenceBeat s t }
  let s1 := prod (if t < 7 then 112 + t else 48 + t) 1 s
  fenceNow t (putFence t v (setFence t 1 false (note 0x1301 INFO (t + 256 * reason) s1)))

/-- FENCING becomes DRAINING at the next edge: no refused class can enter. -/
def drainFences (s : State) : State :=
  if s.rcv.fences.isEmpty then s
  else s.rcv.fences.foldl (fun s e => if fenceState s e.1 = 1 then setFence e.1 2 false s else s) s

/-- A fence reaches FENCED (R571, R572, R578): its order goes on to the dump or ends. -/
def fenceReached (t : Nat) (forced errResp : Bool) (s : State) : State :=
  let v := { recOfFence s t with fencedTb0 := ns0 s, errResp, noFault := (look t s.rcv.caps).isNone }
  let s1 := putFence t v (setFence t 3 forced s)
  match slotFor s1 0 t with
  | none => s1
  | some k =>
    match ordOf s1 k with
    | none => s1
    | some o => if o.dump && !hostDump s1 then dumpNext (putOrd k { o with step := 1 } s1) else fenceEnd k 0 none false s1

def draining (s : State) (t : Nat) : Bool := fenceState s t == 1 || fenceState s t == 2

/-- Every unit of a block domain is quiescent and drained. -/
def fenceDrained (t : Nat) (s : State) : State :=
  if 7 ≤ t ∨ !draining s t ∨ !fenceQuiet s t then s else fenceReached t false false s

/-- FENCE_DRAINED (R571). -/
def execFenceDrained (t : Nat) (s : State) : Host.Outcome State Fault Refusal := .next (if s.clk.stopped then s else fenceDrained t s)

/-- What is left of the drained classes is error-answered (R567, R571): running tree jobs, array jobs begun on units that hang, memory
requests. -/
def fenceForce (t units : Nat) (s : State) : State :=
  match t with
  | 1 =>
    let trees := s.tre.jobs.filter TreJob.running
    let s1 := if units.testBit 0x0C then
        trees.foldl (fun s j => jobPost j 4 0 0 0 s) (setTre { s.tre with jobs := s.tre.jobs.filter fun j => !j.running } s)
      else s
    if units.testBit 0x0D then (s.arr.jobs.filter fun j => j.passes != 0 || j.cycles != 0).foldl (fun s j => arrPost j 5 0 s) s1 else s1
  | 6 => if units.testBit 0x04 then memFollow (linkReset s) else s
  | _ => s

/-- DRAIN_TMO passes (R571); `stuck` are units that hang although the model sees no work in progress in them. -/
def drainTmo (t stuck : Nat) (s : State) : State :=
  if 7 ≤ t ∨ !draining s t then s
  else
    let s1 := reachBase 2 ((recOfFence s t).reqTb2 + get s F.RCV_CTL_DRAIN_TMO * 1000 * 2 ^ 48) s
    let u := notQuiet s1 t stuck
    fenceReached t true false (report F.RCV_ERR_FORCED 0x1302 ADVISE (t + 256 * u) (fenceForce t u s1))

/-- RCV_DRAIN_TMO (R571). -/
def execRcvDrainTmo (t stuck : Nat) (s : State) : Host.Outcome State Fault Refusal := .next (if s.clk.stopped then s else drainTmo t stuck s)

/-- A target is OPEN again: its capture is cleared and record 0x1304 is written (R574, R577); what the fence held goes on. -/
def fenceOpen (t : Nat) (s : State) : State :=
  let s1 := setRcv { s.rcv with caps := dropKeys (· == t) s.rcv.caps, fences := dropKeys (· == t) s.rcv.fences } (setFence t 0 false s)
  let s2 := note 0x1304 INFO t s1
  match t with
  | 0 => runCores s2.rcv.cores (setRcv { s2.rcv with cores := 0 } s2)
  | 2 => cmpKick s2
  | _ => s2

/-! The fence sideband (R110 to R113). -/

def fReq (s : State) (d : Nat) : Bool := bitOn s F.EOP_FENCE_STATE0_REQ d
def fAck (s : State) (d : Nat) : Bool := bitOn s F.EOP_FENCE_STATE0_ACK d
def fDone (s : State) (d : Nat) : Bool := bitOn s F.EOP_FENCE_STATE1_DRAIN_DONE d
def fIgnored (s : State) (d line : Nat) : Bool := s.eop.ignored.contains (d, line)

/-- The sideband of a host domain is up. -/
def sideband (s : State) (d : Nat) : Bool := decide (d < 32) && pers s != 3 && !inReset s 5 && on s F.EOP_STATUS_LINK_UP

/-- ACK is seen high. -/
def ackHigh (d : Nat) (s : State) : State :=
  if !sideband s d || !fReq s d || fAck s d || fIgnored s d 0 then s
  else
    let t := 32 + d
    let s1 := setBit s F.EOP_FENCE_STATE0_ACK d true
    if draining s t then setFence t 2 false (putFence t { recOfFence s t with ackTb2 := some s.tim.tb2 } s1) else s1

/-- FENCE_ACK_SEEN (R110). -/
def execFenceAckSeen (d : Nat) (s : State) : Host.Outcome State Fault Refusal := .next (ackHigh d s)

/-- DRAIN_DONE is seen high, and ERR_RESP sampled (R111, R572). -/
def drainDone (d : Nat) (errResp : Bool) (s : State) : State :=
  if !sideband s d || !fAck s d || fDone s d || fIgnored s d 1 then s
  else
    let er := errResp && !fIgnored s d 2
    let s1 := setBit (setBit s F.EOP_FENCE_STATE1_DRAIN_DONE d true) F.EOP_FENCE_STATE1_ERR_RESP d er
    if draining s (32 + d) then fenceReached (32 + d) false er s1 else s1

/-- FENCE_DRAIN_DONE (R110, R572). -/
def execFenceDrainDone (d : Nat) (errResp : Bool) (s : State) : Host.Outcome State Fault Refusal := .next (drainDone d errResp s)

/-- All lines of a released domain are seen low (R110, R574). -/
def linesLow (d : Nat) (s : State) : State :=
  if 32 ≤ d ∨ pers s = 3 ∨ fReq s d then s
  else
    let s1 := setBit (setBit (setBit s F.EOP_FENCE_STATE0_ACK d false) F.EOP_FENCE_STATE1_DRAIN_DONE d false) F.EOP_FENCE_STATE1_ERR_RESP d false
    if fenceState s (32 + d) ≠ 4 then s1
    else
      let s2 := fenceOpen (32 + d) s1
      match slotFor s2 3 (32 + d) with
      | some k => ordDone k 0 s2
      | none => s2

/-- FENCE_LINES_LOW (R110, R574). -/
def execFenceLinesLow (d : Nat) (s : State) : Host.Outcome State Fault Refusal := .next (linesLow d s)

/-- A host domain's fence has timed out (R112, R572): the state is TIMEOUT and its order ends. -/
def hostTimeout (t : Nat) (s : State) : State :=
  let s1 := setFence t 5 false s
  match slotFor s1 0 t with
  | some k => fenceEnd k 4 none false s1
  | none => s1

/-- No ACK within ACK_TMO of the request. -/
def ackTmo (d : Nat) (s : State) : State :=
  let t := 32 + d
  if 32 ≤ d ∨ !draining s t ∨ fAck s d then s
  else
    let s1 := reachBase 2 ((recOfFence s t).reqTb2 + get s F.EOP_FENCE_CTL_ACK_TMO * 1000 * 2 ^ 48) s
    hostTimeout t (report F.EOP_ERR_FENCE_ACK_TMO 0x0303 FAULT d s1)

/-- FENCE_ACK_TMO (R112). -/
def execFenceAckTmo (d : Nat) (s : State) : Host.Outcome State Fault Refusal := .next (if s.clk.stopped then s else ackTmo d s)

/-- No DRAIN_DONE within DRAIN_TMO of the acknowledge. -/
def doneTmo (d : Nat) (s : State) : State :=
  let t := 32 + d
  match (recOfFence s t).ackTb2 with
  | none => s
  | some a =>
    if 32 ≤ d ∨ !draining s t ∨ fDone s d then s
    else
      let s1 := reachBase 2 (a + get s F.EOP_FENCE_CTL_DRAIN_TMO * 1000 * 2 ^ 48) s
      hostTimeout t (report F.EOP_ERR_FENCE_DRAIN_TMO 0x0304 FAULT d s1)

/-- FENCE_DRAIN_TMO (R112). -/
def execFenceDrainTmo (d : Nat) (s : State) : Host.Outcome State Fault Refusal := .next (if s.clk.stopped then s else doneTmo d s)

/-- A line rises against R111: 0 ACK without the request, 1 DRAIN_DONE without ACK, 2 ERR_RESP without ACK or after DRAIN_DONE. -/
def badLine (s : State) (d line : Nat) : Bool :=
  match line with
  | 0 => !fReq s d
  | 1 => !fAck s d
  | 2 => !fAck s d || fDone s d
  | _ => false

/-- It is ignored until the request next rises (R113). -/
def fenceProto (d line : Nat) (s : State) : State :=
  if !sideband s d || !badLine s d line || fIgnored s d line then s
  else report F.EOP_ERR_FENCE_PROTO 0x0305 FAULT d { s with eop := { s.eop with ignored := s.eop.ignored ++ [(d, line)] } }

/-- FENCE_PROTO (R113). -/
def execFenceProto (d line : Nat) (s : State) : Host.Outcome State Fault Refusal := .next (fenceProto d line s)

/-! Teardown (R589, R590). -/

def tearDomain (o : RcvOrd) : Nat := o.arg % 2 ^ 20
def tearMask (s : State) (o : RcvOrd) : List Nat := (List.range 32).filter fun d => o.arg.testBit (32 + d) && pers s != 3

/-- EN = 0 for a schedule of the departing domain (R208). -/
def tearSched (k : Nat) (s : State) : State :=
  if schedState s k = 1 then schedIdle k s
  else if schedState s k = 2 then setSchedState k 3 (set s (F.TLY_SCHED_CTL_EN k) 0)
  else s

/-- A step begins. -/
def tearBegin (o : RcvOrd) (step : Nat) (s : State) : State :=
  let x := tearDomain o
  match step with
  | 1 => ((List.range (nScheds s)).filter fun k => get s (F.TLY_SCHED_CTL_DOMAIN k) == x).foldl (fun s k => tearSched k s) s
  | 2 => if seedDomain s = x then { s with eop := { s.eop with silenced := true } } else s
  | 3 => (tearMask s o).foldl (fun s d => if fenceState s (32 + d) = 0 then fenceStart (32 + d) 0 s else s) s
  | _ => if pers s = 1 then s else drainDomain x s

/-- A step is complete. -/
def tearReady (s : State) (o : RcvOrd) : Bool :=
  let x := tearDomain o
  match o.step with
  | 1 => (List.range (nScheds s)).all fun k => get s (F.TLY_SCHED_CTL_DOMAIN k) != x || schedState s k == 0
  | 2 => true
  | 3 => (tearMask s o).all fun d => fenceState s (32 + d) == 3
  | _ => s.crv.slots.all fun e => e.2.domain != x || e.2.state == 0 || e.2.state == 3

/-- The next step begins, or the result posts. -/
def tearNext (k : Nat) (s : State) : State :=
  match ordOf s k with
  | none => s
  | some o =>
    if o.op ≠ 5 ∨ !tearReady s o then s
    else if o.step = 4 ∨ (o.step = 3 ∧ pers s = 1) then ordDone k 0 (note 0x130A INFO (tearDomain o) s)
    else tearBegin o (o.step + 1) (putOrd k { o with step := o.step + 1 } s)

/-- TEARDOWN_STEP_COMPLETE (R589). -/
def execTeardownStepComplete (k : Nat) (s : State) : Host.Outcome State Fault Refusal := .next (if s.clk.stopped then s else tearNext k s)

/-- TEARDOWN_TMO passes; completed steps stand. -/
def tearTmo (k : Nat) (s : State) : State :=
  match ordOf s k with
  | none => s
  | some o =>
    if o.op ≠ 5 then s
    else
      let s1 := reachBase 2 (o.start + get s F.RCV_CTL_TEARDOWN_TMO * 1000000 * 2 ^ 48) s
      ordDone k 4 (note 0x130B ADVISE (tearDomain o + 2 ^ 32 * o.step) s1)

/-- TEARDOWN_TIMEOUT (R589). -/
def execTeardownTimeout (k : Nat) (s : State) : Host.Outcome State Fault Refusal := .next (if s.clk.stopped then s else tearTmo k s)

/-! Orders (R570). -/

/-- An order is accepted: it stays in its slot until its result posts. -/
def ordAdd (k : Nat) (o : RcvOrd) (s : State) : State :=
  showOrders (set (setRcv { s.rcv with orders := s.rcv.orders ++ [(k, o)] } s) (F.RCV_ORD_CMD_START k) 1)

/-- A FENCE. -/
def fenceOrd (k : Nat) (o : RcvOrd) (s : State) : State :=
  if fenceState s o.target ≠ 0 then rcvPost k o.seq 2 0 s
  else if o.dump ∧ !hostDump s ∧ s.rcv.dump.isSome then rcvPost k o.seq 1 0 s
  else fenceStart o.target (o.arg % 256) (ordAdd k o s)

/-- A DUMP: with host-assisted dumps it ends with HOST_ASSISTED (R579). -/
def dumpOrd (k : Nat) (o : RcvOrd) (s : State) : State :=
  if fenceState s o.target ≠ 3 then rcvPost k o.seq 2 0 s
  else if hostDump s then fenceEnd k 0 none false (ordAdd k { o with dump := true } s)
  else if s.rcv.dump.isSome then rcvPost k o.seq 1 0 s
  else dumpNext (ordAdd k { o with dump := true, step := 1 } s)

/-- A RESET: the domain reset of R85; that of the EOP shell waits for no host domain to be fenced (R575). -/
def resetOrd (k : Nat) (o : RcvOrd) (s : State) : State :=
  if 32 ≤ o.target then rcvPost k o.seq 3 0 s
  else if fenceState s o.target ≠ 3 then rcvPost k o.seq 2 0 (rstRefused o.target s)
  else if o.target = 5 ∧ (List.range 32).any fun d => fenced s (32 + d) then rcvPost k o.seq 2 0 s
  else requestResets (2 ^ o.target) (setFence o.target 6 (fenceForced s o.target) (ordAdd k o s))

/-- A RELEASE: at once for a block domain, with phases 3 and 4 of R110 for a host domain (R574). -/
def releaseOrd (k : Nat) (o : RcvOrd) (s : State) : State :=
  let st := fenceState s o.target
  if st ≠ 3 ∧ st ≠ 5 then rcvPost k o.seq 2 0 s
  else if o.target < 7 then ordDone k 0 (fenceOpen o.target (ordAdd k o s))
  else setBit (setFence o.target 4 false (ordAdd k o s)) F.EOP_FENCE_STATE0_REQ (o.target - 32) false

/-- A FORCE of a host domain in TIMEOUT (R572). -/
def forceOrd (k : Nat) (o : RcvOrd) (s : State) : State :=
  if o.target < 32 ∨ fenceState s o.target ≠ 5 then rcvPost k o.seq 2 0 s
  else
    let v := { recOfFence s o.target with fencedTb0 := ns0 s, noFault := (look o.target s.rcv.caps).isNone }
    let s1 := putFence o.target v (setFence o.target 3 true s)
    ordDone k 0 (ordAdd k { o with flags := rcvFlags s1 { o with dump := false } none false } s1)

/-- A TEARDOWN: refused while the Courier works for the departing domain. -/
def tearOrd (k : Nat) (o : RcvOrd) (s : State) : State :=
  if get s F.CUR_CTL_DOMAIN = tearDomain o ∧ !curIdle s then rcvPost k o.seq 2 0 s
  else tearBegin o 1 (ordAdd k { o with step := 1 } s)

/-- START in order slot `k`. -/
def rcvStart (k : Nat) (s : State) : State :=
  let op := get s (F.RCV_ORD_CMD_OP k)
  let t := get s (F.RCV_ORD_CMD_TARGET k)
  let o : RcvOrd :=
    { seq := get s (F.RCV_ORD_CMD_SEQ k), op, target := if op = 5 then 64 else t, notice := on s (F.RCV_ORD_CMD_NOTICE k),
      dump := on s (F.RCV_ORD_CMD_DUMP k) && op == 0, arg := get s (F.RCV_ORD_ARG_ARG k), start := s.tim.tb2 }
  if valid s (F.RCV_ORD_RESULT_SEQ k).addr then rcvPost k o.seq 1 0 s
  else if 5 < op then rcvPost k o.seq 2 0 (undefinedField (F.RCV_ORD_CMD_OP k).addr op s)
  else if 2 ≤ pwState s then rcvPost k o.seq 2 0 s
  else if op = 5 then tearOrd k o s
  else if !builtTarget s t || (op == 2 && decide (32 ≤ t)) then rcvPost k o.seq 3 0 s
  else if s.rcv.orders.any fun e => e.2.target == t then rcvPost k o.seq 1 0 s
  else match op with
    | 0 => fenceOrd k o s
    | 1 => dumpOrd k o s
    | 2 => resetOrd k o s
    | 3 => releaseOrd k o s
    | _ => forceOrd k o s

/-- The RELEASE of a host domain has not completed phase 4 within ACK_TMO (R574). -/
def releaseTmo (d : Nat) (s : State) : State :=
  match slotFor s 3 (32 + d) with
  | none => s
  | some k => match ordOf s k with
    | none => s
    | some o => if fenceState s (32 + d) ≠ 4 then s
      else ordDone k 4 (reachBase 2 (o.start + get s F.EOP_FENCE_CTL_ACK_TMO * 1000 * 2 ^ 48) s)

/-- RELEASE_TIMEOUT (R574). -/
def execReleaseTimeout (d : Nat) (s : State) : Host.Outcome State Fault Refusal := .next (if s.clk.stopped then s else releaseTmo d s)

/-! Holdover (R591 to R595). -/

/-- Holdover is entered: cause 1 order, 2 link. -/
def holdEnter (cause : Nat) (s : State) : State :=
  if pers s ≠ 1 ∨ holdState s = 1 then s
  else note 0x130C ADVISE cause (set (set s F.RCV_HOLD_STATUS_STATE 1) F.RCV_HOLD_STATUS_CAUSE cause)

/-- FBP0_LINK_UP has been 0 for LINK_ENTER µs. -/
def holdLink (s : State) : State :=
  if !on s F.RCV_HOLD_CTL_AUTO || bitOn s F.FBP_STATUS_LANE_UP 0 || s.clk.stopped || !s.clk.pwron then s
  else holdEnter 2 (reachBase 2 (s.hld.down + usec (get s F.RCV_HOLD_CTL_LINK_ENTER)) s)

/-- HOLDOVER_LINK_TIMEOUT (R591). -/
def execHoldoverLinkTimeout (s : State) : Host.Outcome State Fault Refusal := .next (holdLink s)

/-- EXIT (R594): the ring drains and traffic goes live again at the next boundary, told to the parents before it (R294). -/
def holdExit (s : State) : State :=
  if holdState s ≠ 1 then s
  else
    let s1 := set s F.RCV_HOLD_STATUS_STATE 2
    match homeDomain s with
    | none => s1
    | some d =>
      let n := nextEpoch s d
      let s2 : State := { s1 with hld := { s1.hld with liveFrom := n } }
      match lastRoute s d with
      | none => s2
      | some r =>
        if on s F.RCV_HOLD_CTL_REPARENT && r.entry.sec != noParent && r.mode != 2 then setMode d 2 s2
        else
          let r1 := { r with start := n }
          (parentsOf none r1).foldl (tellParent d none r1) s2

/-- The ring is empty: holdover ends. -/
def holdEnd (s : State) : State :=
  let n := s.hld.drained
  note 0x130D INFO n (set (set { s with hld := { s.hld with drained := 0 } } F.RCV_HOLD_STATUS_STATE 0) F.RCV_HOLD_STATUS_CAUSE 0)

/-- A DRAIN payload (R595): its header and the FRP packet of a ring record. -/
def drainBytes (seq lost tb0 : Nat) (b : List Byte) : List Byte :=
  let p := b.drop 16
  leBytes 4 seq ++ leBytes 4 lost ++ leBytes 8 tb0 ++ p.take (32 + leAt p 24 2)

/-- The oldest ring record is read back and sent as a DRAIN to the parent in effect; with none left holdover ends (R594, R595). -/
def holdDrain (s : State) : State :=
  if holdState s ≠ 2 ∨ s.clk.stopped then s
  else match s.hld.entries with
    | [] => holdEnd s
    | (at', n, seq, tb0, wx) :: rest =>
      match s.hld.reading with
      | none =>
        if memPending s .holdover wx then s
        else memRequest .holdover 21 2 false (regionStart s 2 + at') n []
          (memForget .holdover wx { s with hld := { s.hld with reading := some s.mmp.nextXfer } })
      | some x =>
        if !memDone s .holdover x then s
        else
          let s1 := set { memForget .holdover x s with hld := { s.hld with reading := none, entries := rest } } F.RCV_HOLD_RDPTR_RDPTR (at' + n)
          let d := (homeDomain s).getD 0
          let s2 := if memOk s .holdover x then
              (match parentFor s d (nextEpoch s d) with
                | none => s1
                | some dst =>
                  sendPkt (mkPkt s1 0x32 0 0 d 0 dst.2.2 (drainBytes seq s.hld.lost tb0 (memData s .holdover x))) dst.1 dst.2.1 none false
                    { s1 with hld := { s1.hld with lost := 0, drained := s1.hld.drained + 1 } })
            else bump { s1 with hld := { s1.hld with lost := s1.hld.lost + 1 } } F.RCV_HOLD_LOST_LOST 1
          if rest.isEmpty then holdEnd s2 else s2

/-- HOLDOVER_DRAIN_SEND (R595). -/
def execHoldoverDrainSend (s : State) : Host.Outcome State Fault Refusal := .next (holdDrain s)

/-- A DRAIN of a child goes on unchanged to the fleet manager. -/
def drainReceive (s : State) : State :=
  match takePkt [0x32] s with
  | none => s
  | some (_, p, s1) => sendPkt p 7 (get s1 F.CRV_CTL_FM_INDEX) none false s1

/-- DRAIN_RECEIVE (R595). -/
def execDrainReceive (s : State) : Host.Outcome State Fault Refusal := .next (drainReceive s)

/-! The RCV page. -/

/-- A pulse of a core's heartbeat (R562, R564). -/
def coreBeat (c : Nat) (s : State) : State :=
  set (set s (F.RCV_HB_CORE_COUNT c) (get s (F.RCV_HB_CORE_COUNT c) + 1)) (F.RCV_HB_CORE_LAST_US c) (us2 s)

/-- The result of slot `k` is consumed, and one that waits posts (R639). -/
def rcvConsume (k a : Nat) (acc : Acc) (s : State) : State :=
  let s1 := consume a acc s
  match s1.rcv.owed.find? fun o => o.1 == k with
  | none => s1
  | some o => if valid s1 a then s1 else rcvPost k o.2.1 o.2.2 0 (setRcv { s1.rcv with owed := s1.rcv.owed.erase o } s1)

/-- The unit's treatment of a write to the RCV page. -/
def rcvWrite (a : Nat) (acc : Acc) (s : State) : State :=
  if 0x131000 ≤ a ∧ a < 0x131080 then
    let k := (a - 0x131000) / 0x20
    if a % 0x20 = 0x10 then rcvConsume k a acc s
    else if a % 0x20 ≠ 0 ∨ !wrote1 acc (F.RCV_ORD_CMD_START k) then perform a acc s
    else if (ordOf s k).isSome then s
    else rcvStart k (perform a acc s)
  else if a = F.RCV_HB_PULSE_PULSE.addr then
    match acc.port with
    | .core c => coreBeat c (perform a acc s)
    | _ => s
  else
    let s1 := perform a acc s
    if a = F.RCV_DUMP_CTL_DISCARD.addr then (if wrote1 acc F.RCV_DUMP_CTL_DISCARD then dumpDiscard s1 else s1)
    else if a = F.RCV_HOLD_CTL_ENTER.addr then
      let s2 := if wrote1 acc F.RCV_HOLD_CTL_EXIT then holdExit s1 else s1
      if wrote1 acc F.RCV_HOLD_CTL_ENTER then holdEnter 1 s2 else s2
    else s1

/-- START of an order of operation `op` in slot `k`. -/
def ordRow (op k : Nat) (acc : Acc) (s : State) : State :=
  portWrite rcvWrite (F.RCV_ORD_CMD_START k).addr (force (F.RCV_ORD_CMD_START k) 1 (force (F.RCV_ORD_CMD_OP k) op acc)) s

/-- FENCE_ORDER (R571). -/
def execFenceOrder (k : Nat) (acc : Acc) (s : State) : Host.Outcome State Fault Refusal := .next (ordRow 0 k acc s)
/-- DUMP_ORDER (R579). -/
def execDumpOrder (k : Nat) (acc : Acc) (s : State) : Host.Outcome State Fault Refusal := .next (ordRow 1 k acc s)
/-- RESET_ORDER (R570). -/
def execResetOrder (k : Nat) (acc : Acc) (s : State) : Host.Outcome State Fault Refusal := .next (ordRow 2 k acc s)
/-- RELEASE_ORDER (R574). -/
def execReleaseOrder (k : Nat) (acc : Acc) (s : State) : Host.Outcome State Fault Refusal := .next (ordRow 3 k acc s)
/-- FORCE_ORDER (R572). -/
def execForceOrder (k : Nat) (acc : Acc) (s : State) : Host.Outcome State Fault Refusal := .next (ordRow 4 k acc s)
/-- TEARDOWN_ORDER (R589). -/
def execTeardownOrder (k : Nat) (acc : Acc) (s : State) : Host.Outcome State Fault Refusal := .next (ordRow 5 k acc s)
/-- DUMP_DISCARD (R579). -/
def execDumpDiscard (acc : Acc) (s : State) : Host.Outcome State Fault Refusal :=
  .next (portWrite rcvWrite F.RCV_DUMP_CTL_DISCARD.addr (force F.RCV_DUMP_CTL_DISCARD 1 acc) s)
/-- HEARTBEAT_PULSE (R562): a write of core `c`. -/
def execHeartbeatPulse (c : Nat) (acc : Acc) (s : State) : Host.Outcome State Fault Refusal :=
  .next (portWrite rcvWrite F.RCV_HB_PULSE_PULSE.addr { acc with port := .core c, half := .full } s)
/-- HOLDOVER_ENTER (R591). -/
def execHoldoverEnter (acc : Acc) (s : State) : Host.Outcome State Fault Refusal :=
  .next (portWrite rcvWrite F.RCV_HOLD_CTL_ENTER.addr (force F.RCV_HOLD_CTL_ENTER 1 (force F.RCV_HOLD_CTL_EXIT 0 acc)) s)
/-- HOLDOVER_EXIT (R594). -/
def execHoldoverExit (acc : Acc) (s : State) : Host.Outcome State Fault Refusal :=
  .next (portWrite rcvWrite F.RCV_HOLD_CTL_ENTER.addr (force F.RCV_HOLD_CTL_EXIT 1 (force F.RCV_HOLD_CTL_ENTER 0 acc)) s)

end Sys2Proof.Machine
end

