-- ==== Sys2Proof/Machine/Epochs.lean ====
section
/-!
DEFINITION. Events and epochs of the Tally (R73, R75, R192, R197, R435, R563): events counted, the boundary of an epoch and all that happens at it
(R106, R209 to R216, R307, R364, R365, R440), the completed cut (R212), and the shadow passes (R223, R224).
-/
namespace Sys2Proof.Machine

/-! Events (R75, R96). -/

/-- The event inputs that the personality builds. -/
def nInputs (s : State) : Nat := match pers s with | 1 => 8192 | 2 => 1024 | _ => 0

/-- `n` step markers on a die: a count, and the ns since the last boundary of the step schedule for each (R435). -/
def stepMarks (input n : Nat) (s : State) : State :=
  let k := get s F.DET_STEP_CTL_SCHED
  if pers s ≠ 1 ∨ !on s F.DET_STEP_CTL_EN ∨ get s F.DET_STEP_CTL_EVT ≠ input then s
  else
    let s1 := countInput 0x2E00 n s
    if nScheds s ≤ k ∨ ns0 s < schedStart s k then s1
    else countInput 0x2E01 (n * ((ns0 s - schedStart s k) % max 1 (schedLen s k))) s1

/-- `n` events on an input, counted in one FCLK sample: into its counters, as heartbeats of the host domains that name it, and as
step markers. -/
def eopEvent (input n : Nat) (s : State) : State :=
  if nInputs s ≤ input ∨ inReset s 5 ∨ !on s F.EOP_STATUS_LINK_UP ∨ pwState s = 3 then s
  else
    let s1 := stepMarks input n (countInput input n s)
    (List.range 32).foldl (fun s d =>
      if on s (F.RCV_HB_HSRC_VALID d) && get s (F.RCV_HB_HSRC_EVT d) == input then hostBeat d n s else s) s1

/-- EOP_EVENT (R75). -/
def execEopEvent (input n : Nat) (s : State) : Host.Outcome State Fault Refusal := .next (eopEvent input n s)

/-! The boundary of an epoch. -/

/-- The closed sketches that INK_SK_EXPORT names become contributions of this instance to its sketches of the epoch that closed (R365); on
a die one that a COARSEN still holds back is merged. -/
def exportSketches (d : Nat) (s : State) : State :=
  (List.range 16).foldl (fun s i =>
    if !on s (F.INK_SK_EXPORT_VALID i) then s
    else
      let v := inkQ s (get s (F.INK_SK_EXPORT_QUEUE i))
      let k := if get s (F.INK_SK_EXPORT_KIND i) = 0 then v.depthClosed else v.delayClosed
      let id := get s (F.INK_SK_EXPORT_SKETCH_ID i)
      let mine (e : Nat × Nat × Sketch) : Bool := e.1 == d && e.2.1 == id
      let k1 := match (if level s = 0 then s.crv.sketches.find? mine else none) with
        | some e => sketchMerge e.2.2 k
        | none => k
      setCrv { s.crv with sketches := s.crv.sketches.filter (fun e => !mine e) ++ [(d, id, k1)] } s) s

/-- The queue sketches close at a boundary of SK_SCHED (R364). -/
def sketchBoundary (k n : Nat) (s : State) : State :=
  if !on s F.INK_CTL_SK_EN || get s F.INK_CTL_SK_SCHED != k || inReset s 3 then s
  else exportSketches (get s (F.TLY_SCHED_CTL_DOMAIN k)) (closeSketches (n - 1) s)

/-- Epoch `n` of schedule `k` begins (R51, R106, R294, R307, R440). -/
def epochBegins (k n : Nat) (s : State) : State :=
  let d := get s (F.TLY_SCHED_CTL_DOMAIN k)
  let s1 := if domSched s d = some k ∧ seedDomain s = d then seedBoundary n s else s
  markBoundary d (tellRoutes (takeRefs (beginEpoch d n s1)))

/-- TB0 reaches a boundary of schedule `k`: the epoch before it is cut (R209) and the next begins. In PS2 and PS3 no cut is taken
(R682). -/
def epochCut (k : Nat) (s : State) : State :=
  match boundaryReached k s with
  | none => s
  | some (s1, n, span) =>
    if 2 ≤ pwState s1 then epochBegins k n s1
    else epochBegins k n (sketchBoundary k n (strobe k n span s1))

/-- EPOCH_CUT (R209). -/
def execEpochCut (k : Nat) (s : State) : Host.Outcome State Fault Refusal := .next (if s.clk.stopped then s else epochCut k s)

/-- The oldest cut is complete: its sample goes to the Caravan and the Waybill, its bank is free, and after a FINAL sample the schedule is
IDLE (R208, R212, R213). -/
def cutComplete (s : State) : State :=
  match s.tly.cuts with
  | [] => s
  | c :: rest =>
    if inReset s 0 then s
    else
      let s1 := wbCut c (setTly { s.tly with cuts := rest } s)
      let s2 := if c.host then s1 else handSample c s1
      if c.flags.testBit 1 then schedIdle c.sched s2 else s2

/-- CUT_COMPLETE (R212). -/
def execCutComplete (s : State) : Host.Outcome State Fault Refusal := .next (if s.clk.stopped then s else cutComplete s)

/-! Shadow passes (R223, R224). -/

/-- The words of a page's copy. VER_SEED_KEY is not read with the privilege that it asks for (R451, R717; log 69). -/
def shadowWords (s : State) (p : Nat) : List Word :=
  (List.range 32).map (fun i => (readWord s (65536 * p + 8 * i) .D).2) ++ [(readWord s (65536 * p + 0xFFF8) .D).2]

/-- A pass over page `p`, answered in time or not. -/
def shadowPass (p : Nat) (answered : Bool) (s : State) : State :=
  if !pageBuilt s p || pers s == 0 || inReset s 0 || decide (2 ≤ pwState s) then s
  else
    let old := (look p s.tly.shadow).getD { words := [], tb2 := 0, stale := false }
    let put (c : Shadow) (s : State) : State := setTly { s.tly with shadow := store p c s.tly.shadow } s
    if answered && !pageInReset s p then put { words := shadowWords s p, tb2 := ns2 s, stale := false } s
    else if old.stale then s
    else report F.TLY_ERR_SHADOW_STALE 0x080A ADVISE p (put { old with stale := true } s)

/-- SHADOW_PASS (R223). -/
def execShadowPass (page : Nat) (answered : Bool) (s : State) : Host.Outcome State Fault Refusal := .next (shadowPass page answered s)

end Sys2Proof.Machine
end

