-- ==== Sys2Proof/Machine/Interrupt.lean ====
section
/-!
DEFINITION. The interrupt controller (R657 to R663): acknowledgement, end of service, software sources, masks and hold-off. Raising a
source is `raiseIrq` of Ops.
-/
namespace Sys2Proof.Machine

def setIrq (i : IrqSt) (s : State) : State := { s with irq := i }

/-- The groups of some sources are brought up to date. -/
def groupsOf (s : State) (ns : List Nat) : List Nat := ((ns.filter (irqMapped s)).map (irqGroup s)).dedup
def updateSources (ns : List Nat) (s : State) : State := (groupsOf s ns).foldl (fun s g => groupUpdate false g s) s

/-- The sources of word `w` whose bits are set in `v`. -/
def wordSources (w : Nat) (v : Word) : List Nat := ((List.range 64).filter fun i => v.getLsbD i).map (64 * w + ·)

/-- A group has the target: kind 0 a control core, 1 a host line (R658). -/
def groupTargets (s : State) (g kind n : Nat) : Bool := get s (F.IRQ_GRP_CTL_TGT_KIND g) == kind && get s (F.IRQ_GRP_CTL_TARGET g) == n

/-- The output of some group asserts a target (R660). -/
def targetLine (s : State) (kind n : Nat) : Bool := (List.range (nGroups s)).any fun g => bitOn s F.IRQ_GRP_OUT_OUT g && groupTargets s g kind n

/-- The machine external interrupt of core `c` (R660). -/
def coreLine (s : State) (c : Nat) : Bool := targetLine s 0 c
/-- RGP_IRQ line `n` (R123, R660). -/
def hostLine (s : State) (n : Nat) : Bool := targetLine s 1 n

/-- A write of IRQ_PENDw (R659): PENDING to ACTIVE and ACTIVE_PENDING to ACTIVE for the bits written as 1, save those raised at the same
edge, which stay as R22 says. -/
def pendWrite (w : Nat) (acc : Acc) (s : State) : State :=
  let a := (F.IRQ_PEND_PEND w).addr
  let old := rd s a
  let s1 := perform a acc s
  let cleared := old &&& wdata acc &&& ~~~ (rd s1 a)
  updateSources (wordSources w (wdata acc ||| (acc.hwMask &&& acc.hwVal))) (wr s1 (F.IRQ_ACTIVE_ACTIVE w).addr (rd s (F.IRQ_ACTIVE_ACTIVE w).addr ||| cleared))

/-- The end of a source's service (R659, R661): hold-off does not delay a group that rises again. -/
def doneWrite (n : Nat) (s : State) : State :=
  if nSources s ≤ n ∨ !irqActive s n then s
  else
    let s1 := setBit s (F.IRQ_ACTIVE_ACTIVE (n / 64)) (n % 64) false
    if irqMapped s1 n then groupUpdate (irqDrives s1 n) (irqGroup s1 n) s1 else s1

/-- A software source is raised (R657). -/
def swSet (n : Nat) (s : State) : State := if 240 ≤ n ∧ (n < 256 ∨ pers s ≠ 1) ∧ n < nSources s then raiseIrq n s else s

/-- Mask writes that are due have taken their place, and the groups of their sources follow (R662). -/
def settleMasks (s : State) : State :=
  let due := s.irq.maskDue.filter fun d => decide (d.1 ≤ s.tim.tb2)
  if due.isEmpty then s
  else
    let ws := (due.map fun d => d.2.1).dedup
    let eff := ws.foldl (fun e w => store w (effMask s w) e) s.irq.effMask
    let s1 := setIrq { s.irq with effMask := eff, maskDue := s.irq.maskDue.filter fun d => decide (s.tim.tb2 < d.1) } s
    updateSources (ws.flatMap fun w => wordSources w (rd s (F.IRQ_PEND_PEND w).addr)) s1

/-- A mask write takes effect 4 SCLK edges later (R662). -/
def maskWrite (w : Nat) (acc : Acc) (s : State) : State :=
  let s1 := settleMasks (perform (F.IRQ_MASK_MASK w).addr acc s)
  setIrq { s1.irq with maskDue := s1.irq.maskDue ++ [(s1.tim.tb2 + 20 * 2 ^ 48, w, rd s1 (F.IRQ_MASK_MASK w).addr)] } s1

/-- The unit's treatment of a write to the IRQ page. -/
def irqWrite (a : Nat) (acc : Acc) (s : State) : State :=
  if a = F.IRQ_SW_SET_SOURCE.addr then swSet (bitsAt (wdata acc) 0 10) s
  else if a = F.IRQ_DONE_SOURCE.addr then doneWrite (bitsAt (wdata acc) 0 10) s
  else if 0x191000 ≤ a ∧ a < 0x191100 then pendWrite ((a - 0x191000) / 8) acc s
  else if 0x191100 ≤ a ∧ a < 0x191200 then maskWrite ((a - 0x191100) / 8) acc s
  else perform a acc s

/-- IRQ_PEND_ACK (R659). -/
def execIrqPendAck (w : Nat) (acc : Acc) (s : State) : Host.Outcome State Fault Refusal :=
  .next (portWrite irqWrite (F.IRQ_PEND_PEND w).addr acc s)
/-- IRQ_DONE (R659, R661). -/
def execIrqDone (acc : Acc) (s : State) : Host.Outcome State Fault Refusal := .next (portWrite irqWrite F.IRQ_DONE_SOURCE.addr acc s)
/-- IRQ_SW_SET (R657). -/
def execIrqSwSet (acc : Acc) (s : State) : Host.Outcome State Fault Refusal := .next (portWrite irqWrite F.IRQ_SW_SET_SOURCE.addr acc s)
/-- IRQ_MASK_WRITE (R662). -/
def execIrqMaskWrite (w : Nat) (acc : Acc) (s : State) : Host.Outcome State Fault Refusal :=
  .next (portWrite irqWrite (F.IRQ_MASK_MASK w).addr acc s)

/-- The hold-off of a group passes (R660). -/
def holdoffExpire (g : Nat) (s : State) : State :=
  match look g s.irq.lastRise with
  | none => s
  | some t =>
    if inReset s 0 ∨ nGroups s ≤ g then s
    else groupUpdate false g (settleMasks (reachBase 2 (t + usec (get s (F.IRQ_GRP_CTL_HOLDOFF g))) s))

/-- IRQ_HOLDOFF_EXPIRE (R660). -/
def execIrqHoldoffExpire (g : Nat) (s : State) : Host.Outcome State Fault Refusal := .next (holdoffExpire g s)

end Sys2Proof.Machine
end

