-- ==== Sys2Proof/Machine/Sync.lean ====
section
/-!
DEFINITION. Sync objects (R648 to R656): signals of cores, waits, values set by hand and task-end violations. A signal of an engine is
`syncEvent` of Ops.
-/
namespace Sys2Proof.Machine

def setSyn (y : SynSt) (s : State) : State := { s with syn := y }

/-- The waiters of an object, in order of arrival, as VIEW0 shows them. -/
def waitersOf (s : State) (o : Nat) : List SynWait := s.syn.waits.filter fun w => w.obj == o
def showWaiters (o : Nat) (s : State) : State :=
  let l := waitersOf s o
  set (set s (F.SYN_OBJ_VIEW0_WAITERS o) (l.foldl (fun m w => m ||| 2 ^ w.core) 0)) (F.SYN_OBJ_VIEW0_HEAD o) ((l.head?.map SynWait.core).getD 0)

/-- A core signals by SYN_SIGNAL; another port's write has no effect (R649). -/
def signalWrite (acc : Acc) (s : State) : State :=
  let o := bitsAt (wdata acc) 0 8
  match acc.port with
  | .core c => syncSignal o (bitsAt (wdata acc) 8 32) c s
  | _ => report F.SYN_ERR_EXT_SIGNAL 0x1803 ADVISE o s

/-- A task-end violation (R655); of a write that no core made the record's core is a free value (log 47). -/
def violationWrite (acc : Acc) (s : State) : State :=
  match acc.port with
  | .core c => report F.SYN_ERR_TASK_END 0x1802 FAULT (bitsAt (wdata acc) 0 8 + 256 * c) s
  | _ => report F.SYN_ERR_TASK_END 0x1802 FAULT (bitsAt (wdata acc) 0 8 + 256 * openField 5 8 s) (tickFree s)

/-- A value is set by hand (R653, R654): it is applied after the signals of the edge, which are lost. -/
def setWrite (o : Nat) (acc : Acc) (s : State) : State :=
  let old := get s (F.SYN_OBJ_VIEW0_VALUE o)
  let base : State := set s (F.SYN_OBJ_VIEW2_SET o) old
  let s1 := perform (F.SYN_OBJ_VIEW2_SET o).addr acc base
  let v := bitsAt (wfull (BitVec.ofNat 64 old) acc) 0 32
  let s2 := set (set (set s1 (F.SYN_OBJ_VIEW0_VALUE o) v) (F.SYN_OBJ_VIEW1_LAST_AGENT o) 0xFE) (F.SYN_OBJ_VIEW1_LAST_TIME o) (ns2 s)
  ledger 5 (portCode acc.port) (privRank acc.priv) (accFlags acc) (accInit acc) o
    (match acc.port with | .tga => acc.tgaFrom | _ => 0) (BitVec.ofNat 64 old) (BitVec.ofNat 64 v) s2

/-- The unit's treatment of a write to the SYN page. -/
def synWrite (a : Nat) (acc : Acc) (s : State) : State :=
  if a = F.SYN_SIGNAL_OBJECT.addr then signalWrite acc s
  else if a = F.SYN_VIOLATION_OBJECT.addr then violationWrite acc s
  else if 0x181000 ≤ a ∧ a < 0x183000 ∧ a % 0x20 = 0x10 then setWrite ((a - 0x181000) / 0x20) acc s
  else perform a acc s

/-- SYNC_SIGNAL (R651). -/
def execSyncSignal (acc : Acc) (s : State) : Host.Outcome State Fault Refusal := .next (portWrite synWrite F.SYN_SIGNAL_OBJECT.addr acc s)
/-- SYNC_SET (R654). -/
def execSyncSet (o : Nat) (acc : Acc) (s : State) : Host.Outcome State Fault Refusal :=
  .next (portWrite synWrite (F.SYN_OBJ_VIEW2_SET (o % 256)).addr acc s)
/-- SYNC_VIOLATION (R655). -/
def execSyncViolation (acc : Acc) (s : State) : Host.Outcome State Fault Refusal :=
  .next (portWrite synWrite F.SYN_VIOLATION_OBJECT.addr acc s)

/-- A read of SYN_WAIT_GOc (R652): core c joins the waiters of its object; a read by another port or core returns 0 at once. -/
def synWait (c : Nat) (port : Port) (s : State) : State :=
  if inReset s 0 then { s with rsp := (refusalStatus 1, 0) }
  else if port ≠ .core c ∨ nCores s ≤ c then { s with rsp := (0, 0) }
  else if s.syn.waits.any fun w => w.core == c then s
  else
    let o := get s (F.SYN_WAIT_ARG_OBJECT c)
    let w : SynWait := { core := c, obj := o, amount := get s (F.SYN_WAIT_ARG_AMOUNT c), start := s.tim.tb2,
                         tmo := get s (F.SYN_WAIT_ARG_TIMEOUT c) }
    showWaiters o (setSyn { s.syn with waits := s.syn.waits ++ [w] } s)

/-- SYNC_WAIT (R652). -/
def execSyncWait (c : Nat) (port : Port) (s : State) : Host.Outcome State Fault Refusal := .next (synWait c port s)

/-- A wait ends with an answer. -/
def waitEnd (w : SynWait) (granted : Nat) (s : State) : State :=
  let s1 := set (showWaiters w.obj (setSyn { s.syn with waits := s.syn.waits.erase w } s)) (F.SYN_WAIT_GO_GRANTED w.core) granted
  { s1 with rsp := (0, BitVec.ofNat 64 granted) }

/-- VALUE covers the amount of the waiter at the head (R652). -/
def headReady (s : State) (o : Nat) : Option SynWait :=
  match waitersOf s o with
  | [] => none
  | w :: _ => if w.amount ≤ get s (F.SYN_OBJ_VIEW0_VALUE o) then some w else none

/-- The head waiter takes its amount. -/
def synGrant (o : Nat) (s : State) : State :=
  match headReady s o with
  | none => s
  | some w => waitEnd w 1 (set s (F.SYN_OBJ_VIEW0_VALUE o) (get s (F.SYN_OBJ_VIEW0_VALUE o) - w.amount))

/-- SYNC_WAIT_GRANT (R652). -/
def execSyncWaitGrant (o : Nat) (s : State) : Host.Outcome State Fault Refusal := .next (synGrant o s)

/-- The timeout of a core's wait passes before it is served. -/
def synTimeout (c : Nat) (s : State) : State :=
  match s.syn.waits.find? fun w => w.core == c with
  | none => s
  | some w =>
    if headReady s w.obj = some w then s
    else note 0x1804 ADVISE (w.obj + 256 * c) (waitEnd w 0 (reachBase 2 (w.start + usec w.tmo) s))

/-- SYNC_WAIT_TIMEOUT (R652). -/
def execSyncWaitTimeout (c : Nat) (s : State) : Host.Outcome State Fault Refusal := .next (synTimeout c s)

end Sys2Proof.Machine
end

