-- ==== Sys2Proof/Machine/Registers.lean ====
section
/-!
DEFINITION. Register writes as such: each page and window passed to its unit (R715 to R718), and the rows that name a register access without
naming its register: REGISTER_WRITE, RESULT_CONSUME, LEDGER_QUEUE_ADMIT, the rows of the TGA (R334 to R342), POWER_EXIT_DONE, DBGACC.
-/
namespace Sys2Proof.Machine

/-- A write to the EOP page: one of EOP_CTL ends the silence of a teardown (R590). -/
def eopWrite (a : Nat) (acc : Acc) (s : State) : State :=
  let s1 := perform a acc s
  if a = F.EOP_CTL_SEED_EN.addr then { s1 with eop := { s1.eop with silenced := false } } else s1

/-- A write to a unit page (R715); `step` is what a stepped instruction does. -/
def pageWrite (step : Option StepEffect) (a : Nat) (acc : Acc) (s : State) : State :=
  match a / 65536 with
  | 0x01 => itnWrite a acc s
  | 0x02 => clkWrite a acc s
  | 0x03 => eopWrite a acc s
  | 0x04 => mmpWrite a acc s
  | 0x05 => fbpWrite a acc s
  | 0x06 => sepWrite a acc s
  | 0x07 => tpiWrite a acc s
  | 0x08 => tlyWrite a acc s
  | 0x09 => timWrite a acc s
  | 0x0A => crvWrite a acc s
  | 0x0B => inkWrite a acc s
  | 0x0C => treWrite a acc s
  | 0x0D => arrWrite a acc s
  | 0x0E => detWrite a acc s
  | 0x0F => verWrite a acc s
  | 0x10 => fltWrite a acc s
  | 0x11 => curWrite a acc s
  | 0x12 => cmpWrite a acc s
  | 0x13 => rcvWrite a acc s
  | 0x14 => gbkWrite a acc s
  | 0x16 => sbxWrite a acc s
  | 0x17 => ctlWrite a acc s
  | 0x18 => synWrite a acc s
  | 0x19 => irqWrite a acc s
  | 0x1A => pwrWrite a acc s
  | 0x1B => ltnWrite a acc s
  | 0x1C => dbgWrite step a acc s
  | 0x1D => kspWrite a acc s
  | _ => perform a acc s

/-- A write to a unit page or to one of the windows that admit writes (R718); `buf` is what the buffer that a post names holds. -/
def unitWrite (buf : Option (List Byte)) (step : Option StepEffect) (a : Nat) (acc : Acc) (s : State) : State :=
  if a < 0x500000 then pageWrite step a acc s
  else if a < 0x580000 then tgaWindow (pageWrite none) a acc s
  else cwWrite buf a acc s

/-- A register write at a port, with what it brings. -/
def regWrite (a : Nat) (acc : Acc) (buf : Option (List Byte)) (step : Option StepEffect) (s : State) : State :=
  bringing buf step (portWrite (unitWrite buf step) a acc) s

/-- REGISTER_WRITE (R13, R22, R115, R119, R611, R718, R729). -/
def execRegisterWrite (addr : Nat) (acc : Acc) (buf : Option (List Byte)) (step : Option StepEffect) (s : State) :
    Host.Outcome State Fault Refusal :=
  .next (regWrite addr acc buf step s)

/-- A result register: SEQ in [63:48] and VALID in bit 32 (R636, R637). -/
def isResult (a : Nat) : Bool :=
  match findRow a with
  | some r => r.fields.any (fun f => f.lo == 48 && f.w == 16 && f.acc == .rw) && r.fields.any fun f => f.lo == 32 && f.w == 1 && f.acc == .roV
  | none => false

/-- RESULT_CONSUME (R637): the write-back of a SEQ to a result register. -/
def execResultConsume (addr : Nat) (acc : Acc) (s : State) : Host.Outcome State Fault Refusal :=
  .next (if isResult (offset addr) then regWrite addr acc none none s else s)

/-- The Ledger queue passes a record, and the oldest write that waits on it is performed (R612), or refused where R729 now refuses it. -/
def ledgerAdmit (s : State) : State :=
  if s.clk.stopped || !s.clk.pwron then s
  else
    let s1 := ledgerPass s
    match s1.ldg.waiting with
    | [] => s1
    | (a, acc) :: rest =>
      if 64 ≤ s1.ldg.queue.length then s1
      else
        let s2 := answer 0 acc { s1 with ldg := { s1.ldg with waiting := rest } }
        match writeCheck s2 a acc with
        | 0 => unitWrite none none a acc s2
        | c => refuseWrite c a acc s2

/-- LEDGER_QUEUE_ADMIT (R612). -/
def execLedgerQueueAdmit (s : State) : Host.Outcome State Fault Refusal := .next (ledgerAdmit s)

/-- TGA_READ_GO (R342). -/
def execTgaReadGo (slot : Nat) (acc : Acc) (s : State) : Host.Outcome State Fault Refusal :=
  .next (if slot < 16 then tgaRow (pageWrite none) slot 0 acc s else s)
/-- TGA_WRITE_GO (R339, R342). -/
def execTgaWriteGo (slot : Nat) (acc : Acc) (s : State) : Host.Outcome State Fault Refusal :=
  .next (if slot < 16 then tgaRow (pageWrite none) slot 1 acc s else s)
/-- TGA_REQ_RECEIVE (R336). -/
def execTgaReqReceive (s : State) : Host.Outcome State Fault Refusal := .next (tgaReq (pageWrite none) s)

/-- GUESTBOOK_ACCEPT (R600). -/
def execGuestbookAccept (s : State) : Host.Outcome State Fault Refusal := .next (gbkAccept s)

/-- The exit completes, and the register requests that waited for SCLK are served in order (R668, R679). -/
def exitServe (s : State) : State :=
  if s.pwr.exit.isNone then s
  else
    let s1 := exitDone s
    s1.pwr.waiting.foldl (fun s w => regWrite w.addr w.acc w.buf w.step s) { s1 with pwr := { s1.pwr with waiting := [] } }

/-- POWER_EXIT_DONE (R679). -/
def execPowerExitDone (s : State) : Host.Outcome State Fault Refusal := .next (exitServe s)

/-- Update-DR of DBGACC (R710): op 1 reads and op 2 writes the register at an address; while an access is pending it is ignored. -/
def tapAccess (op a : Nat) (data : Word) (s : State) : State :=
  if op ≠ 1 ∧ op ≠ 2 ∨ s.clk.stopped ∨ !s.clk.pwron then s
  else if tapPending s then flag F.DBG_ERR_TAP_BUSY s
  else
    let s1 := if op = 1 then { tickFree s with rsp := portRead a (tapAcc s data) s } else regWrite a (tapAcc s data) none none s
    if tapPending s1 then s1 else { s1 with dbg := { s1.dbg with tap := s1.rsp } }

/-- DBGACC (R710). -/
def execDbgacc (op addr : Nat) (data : Word) (s : State) : Host.Outcome State Fault Refusal := .next (tapAccess op addr data s)

end Sys2Proof.Machine
end

