-- ==== Sys2Proof/Machine/Dispatch.lean ====
section
/-!
DEFINITION. One arm per command: each calls its meaning.
-/
namespace Sys2Proof.Machine

/-- The effect of a command on everything but the queue. -/
def exec (i : Instr) (s : State) : Host.Outcome State Fault Refusal :=
  match i with
  | .registerWrite addr acc buf step => Sys2Proof.Machine.execRegisterWrite addr acc buf step s
  | .ledgerQueueAdmit => Sys2Proof.Machine.execLedgerQueueAdmit s
  | .resultConsume addr acc => Sys2Proof.Machine.execResultConsume addr acc s
  | .coldReset chipId => Sys2Proof.Machine.execColdReset chipId s
  | .warmReset => Sys2Proof.Machine.execWarmReset s
  | .clkRstWarm acc => Sys2Proof.Machine.execClkRstWarm acc s
  | .domainResetRequest acc => Sys2Proof.Machine.execDomainResetRequest acc s
  | .domainResetRelease d => Sys2Proof.Machine.execDomainResetRelease d s
  | .clkMonWindowEnd count => Sys2Proof.Machine.execClkMonWindowEnd count s
  | .clockBranchGate b => Sys2Proof.Machine.execClockBranchGate b s
  | .clockBranchRestart b => Sys2Proof.Machine.execClockBranchRestart b s
  | .hostSideReset x => Sys2Proof.Machine.execHostSideReset x s
  | .xrstAckSeen x => Sys2Proof.Machine.execXrstAckSeen x s
  | .xrstHandshakeDone x => Sys2Proof.Machine.execXrstHandshakeDone x s
  | .eopEvent input count => Sys2Proof.Machine.execEopEvent input count s
  | .attentionPulse => Sys2Proof.Machine.execAttentionPulse s
  | .tagTransfer engine ctx layer op => Sys2Proof.Machine.execTagTransfer engine ctx layer op s
  | .snapshotRecord engine beats cut => Sys2Proof.Machine.execSnapshotRecord engine beats cut s
  | .witnessRecord engine beats cut => Sys2Proof.Machine.execWitnessRecord engine beats cut s
  | .probeResultRecord engine beats cut => Sys2Proof.Machine.execProbeResultRecord engine beats cut s
  | .probeIssue errs => Sys2Proof.Machine.execProbeIssue errs s
  | .seedBundleSend => Sys2Proof.Machine.execSeedBundleSend s
  | .seedAck => Sys2Proof.Machine.execSeedAck s
  | .seedAckTimeout => Sys2Proof.Machine.execSeedAckTimeout s
  | .fenceAckSeen d => Sys2Proof.Machine.execFenceAckSeen d s
  | .fenceDrainDone d errResp => Sys2Proof.Machine.execFenceDrainDone d errResp s
  | .fenceLinesLow d => Sys2Proof.Machine.execFenceLinesLow d s
  | .fenceAckTmo d => Sys2Proof.Machine.execFenceAckTmo d s
  | .fenceDrainTmo d => Sys2Proof.Machine.execFenceDrainTmo d s
  | .fenceProto d line => Sys2Proof.Machine.execFenceProto d line s
  | .mmpRequestIssue => Sys2Proof.Machine.execMmpRequestIssue s
  | .mmpReadData ch id beats => Sys2Proof.Machine.execMmpReadData ch id beats s
  | .mmpWriteResponse ch id st => Sys2Proof.Machine.execMmpWriteResponse ch id st s
  | .writeIntent granule tag => Sys2Proof.Machine.execWriteIntent granule tag s
  | .intentStallTimeout tag => Sys2Proof.Machine.execIntentStallTimeout tag s
  | .txCreditReturn lane vc cnt => Sys2Proof.Machine.execTxCreditReturn lane vc cnt s
  | .frpPacketReceive lane p => Sys2Proof.Machine.execFrpPacketReceive lane p s
  | .rxCreditReturn lane vc beats => Sys2Proof.Machine.execRxCreditReturn lane vc beats s
  | .laneLinkUp lane => Sys2Proof.Machine.execLaneLinkUp lane s
  | .laneLinkDown lane => Sys2Proof.Machine.execLaneLinkDown lane s
  | .fbpRxPartWrite acc => Sys2Proof.Machine.execFbpRxPartWrite acc s
  | .sepFrameReceive port frame phase => Sys2Proof.Machine.execSepFrameReceive port frame phase s
  | .sepFrameTransmit port placed => Sys2Proof.Machine.execSepFrameTransmit port placed s
  | .tcForward phase => Sys2Proof.Machine.execTcForward phase s
  | .sepPcsDown port inRx stampLost => Sys2Proof.Machine.execSepPcsDown port inRx stampLost s
  | .kspRead acc => Sys2Proof.Machine.execKspRead acc s
  | .kspPageProgram acc => Sys2Proof.Machine.execKspPageProgram acc s
  | .kspSectorErase acc => Sys2Proof.Machine.execKspSectorErase acc s
  | .kspReadStatus acc => Sys2Proof.Machine.execKspReadStatus acc s
  | .kspCmdDone present data => Sys2Proof.Machine.execKspCmdDone present data s
  | .kspPollDone err => Sys2Proof.Machine.execKspPollDone err s
  | .kspPollTimeout => Sys2Proof.Machine.execKspPollTimeout s
  | .powerFailWarning slotA slotB => Sys2Proof.Machine.execPowerFailWarning slotA slotB s
  | .strongboxSaveDone => Sys2Proof.Machine.execStrongboxSaveDone s
  | .savePgFall => Sys2Proof.Machine.execSavePgFall s
  | .itineraryLoadStart present hdrA hdrB => Sys2Proof.Machine.execItineraryLoadStart present hdrA hdrB s
  | .slotReadDone img => Sys2Proof.Machine.execSlotReadDone img s
  | .itineraryApplyDone => Sys2Proof.Machine.execItineraryApplyDone s
  | .pushStart acc => Sys2Proof.Machine.execPushStart acc s
  | .pushAbort acc => Sys2Proof.Machine.execPushAbort acc s
  | .pushData acc => Sys2Proof.Machine.execPushData acc s
  | .pushVerifyDone => Sys2Proof.Machine.execPushVerifyDone s
  | .liveOverlayApply => Sys2Proof.Machine.execLiveOverlayApply s
  | .quiesceOverlayStart => Sys2Proof.Machine.execQuiesceOverlayStart s
  | .quiesceOverlayWrite buf => Sys2Proof.Machine.execQuiesceOverlayWrite buf s
  | .quiesceOverlayTimeout => Sys2Proof.Machine.execQuiesceOverlayTimeout s
  | .overlayHoldTimeout => Sys2Proof.Machine.execOverlayHoldTimeout s
  | .scheduleEnable k acc => Sys2Proof.Machine.execScheduleEnable k acc s
  | .scheduleDisable k acc => Sys2Proof.Machine.execScheduleDisable k acc s
  | .scheduleRegisterWrite k reg acc => Sys2Proof.Machine.execScheduleRegisterWrite k reg acc s
  | .epochCut k => Sys2Proof.Machine.execEpochCut k s
  | .lateCut => Sys2Proof.Machine.execLateCut s
  | .cutComplete => Sys2Proof.Machine.execCutComplete s
  | .binFlush acc => Sys2Proof.Machine.execBinFlush acc s
  | .tallySample slot acc buf => Sys2Proof.Machine.execTallySample slot acc buf s
  | .shadowPass page answered => Sys2Proof.Machine.execShadowPass page answered s
  | .waybillRecordWrite => Sys2Proof.Machine.execWaybillRecordWrite s
  | .waybillWriteComplete => Sys2Proof.Machine.execWaybillWriteComplete s
  | .waybillProdTick => Sys2Proof.Machine.execWaybillProdTick s
  | .waybillTrigger acc => Sys2Proof.Machine.execWaybillTrigger acc s
  | .waybillArm acc => Sys2Proof.Machine.execWaybillArm acc s
  | .ptpSyncReceive m phase => Sys2Proof.Machine.execPtpSyncReceive m phase s
  | .ptpFollowUpReceive m => Sys2Proof.Machine.execPtpFollowUpReceive m s
  | .ptpDelayRespReceive m => Sys2Proof.Machine.execPtpDelayRespReceive m s
  | .delayReqSend phase => Sys2Proof.Machine.execDelayReqSend phase s
  | .jumpAccept n acc => Sys2Proof.Machine.execJumpAccept n acc s
  | .jumpDismiss n acc => Sys2Proof.Machine.execJumpDismiss n acc s
  | .servoTimeout n => Sys2Proof.Machine.execServoTimeout n s
  | .timeSnapshot acc => Sys2Proof.Machine.execTimeSnapshot acc s
  | .fabricDreqSend => Sys2Proof.Machine.execFabricDreqSend s
  | .fabricDreqReceive => Sys2Proof.Machine.execFabricDreqReceive s
  | .fabricDrespReceive => Sys2Proof.Machine.execFabricDrespReceive s
  | .fabricDrespFupReceive => Sys2Proof.Machine.execFabricDrespFupReceive s
  | .pulseEnable n acc => Sys2Proof.Machine.execPulseEnable n acc s
  | .pulseEdge n => Sys2Proof.Machine.execPulseEdge n s
  | .pulseFall n => Sys2Proof.Machine.execPulseFall n s
  | .ppsOutRise => Sys2Proof.Machine.execPpsOutRise s
  | .ppsOutFall => Sys2Proof.Machine.execPpsOutFall s
  | .captureEdge ch phase => Sys2Proof.Machine.execCaptureEdge ch phase s
  | .captureConsume ch acc => Sys2Proof.Machine.execCaptureConsume ch acc s
  | .deltaReceive => Sys2Proof.Machine.execDeltaReceive s
  | .aggReceive => Sys2Proof.Machine.execAggReceive s
  | .sketchReceive => Sys2Proof.Machine.execSketchReceive s
  | .verdictReceive => Sys2Proof.Machine.execVerdictReceive s
  | .closedReceive => Sys2Proof.Machine.execClosedReceive s
  | .epochDeadline k n => Sys2Proof.Machine.execEpochDeadline k n s
  | .epochGraceEnd k n => Sys2Proof.Machine.execEpochGraceEnd k n s
  | .joinReceive => Sys2Proof.Machine.execJoinReceive s
  | .detourReceive => Sys2Proof.Machine.execDetourReceive s
  | .missingReceive => Sys2Proof.Machine.execMissingReceive s
  | .coarsenReceive => Sys2Proof.Machine.execCoarsenReceive s
  | .bcastReceive => Sys2Proof.Machine.execBcastReceive s
  | .saturatedEpochClose k full delay => Sys2Proof.Machine.execSaturatedEpochClose k full delay s
  | .slotOpen acc => Sys2Proof.Machine.execSlotOpen acc s
  | .slotDrain acc => Sys2Proof.Machine.execSlotDrain acc s
  | .slotRetire acc => Sys2Proof.Machine.execSlotRetire acc s
  | .routeModeWrite acc => Sys2Proof.Machine.execRouteModeWrite acc s
  | .tgaReadGo slot acc => Sys2Proof.Machine.execTgaReadGo slot acc s
  | .tgaWriteGo slot acc => Sys2Proof.Machine.execTgaWriteGo slot acc s
  | .tgaReqReceive => Sys2Proof.Machine.execTgaReqReceive s
  | .tgaAnsReceive => Sys2Proof.Machine.execTgaAnsReceive s
  | .tgaTimeout => Sys2Proof.Machine.execTgaTimeout s
  | .inkSelect kind n => Sys2Proof.Machine.execInkSelect kind n s
  | .queueRoomResume q => Sys2Proof.Machine.execQueueRoomResume q s
  | .shaperRefill => Sys2Proof.Machine.execShaperRefill s
  | .ladderPause q wr => Sys2Proof.Machine.execLadderPause q wr s
  | .queueCfgWrite q acc => Sys2Proof.Machine.execQueueCfgWrite q acc s
  | .modelBind acc => Sys2Proof.Machine.execModelBind acc s
  | .modelBindDone ecc => Sys2Proof.Machine.execModelBindDone ecc s
  | .modelUnbind acc => Sys2Proof.Machine.execModelUnbind acc s
  | .treeJobGo slot acc => Sys2Proof.Machine.execTreeJobGo slot acc s
  | .treeJobStart e => Sys2Proof.Machine.execTreeJobStart e s
  | .treeJobDone e cycles ecc => Sys2Proof.Machine.execTreeJobDone e cycles ecc s
  | .arrayJobGo slot acc => Sys2Proof.Machine.execArrayJobGo slot acc s
  | .arrayPassDone a cycles residue ecc => Sys2Proof.Machine.execArrayPassDone a cycles residue ecc s
  | .detectorEvaluate => Sys2Proof.Machine.execDetectorEvaluate s
  | .detectorRefWrite d acc => Sys2Proof.Machine.execDetectorRefWrite d acc s
  | .scores slot acc => Sys2Proof.Machine.execScores slot acc s
  | .verifyReferenceDone errs => Sys2Proof.Machine.execVerifyReferenceDone errs s
  | .verifyConfirmDone probe errs arrays => Sys2Proof.Machine.execVerifyConfirmDone probe errs arrays s
  | .witnessAccountingClose => Sys2Proof.Machine.execWitnessAccountingClose s
  | .witnessReceive => Sys2Proof.Machine.execWitnessReceive s
  | .subjectObserve slot acc => Sys2Proof.Machine.execSubjectObserve slot acc s
  | .subjectClear slot acc => Sys2Proof.Machine.execSubjectClear slot acc s
  | .verifyOutcome slot acc => Sys2Proof.Machine.execVerifyOutcome slot acc s
  | .fieldTestDone a b cycles differ da db residue ecc => Sys2Proof.Machine.execFieldTestDone a b cycles differ da db residue ecc s
  | .faultMarkExpire a => Sys2Proof.Machine.execFaultMarkExpire a s
  | .probeCampaignStart acc => Sys2Proof.Machine.execProbeCampaignStart acc s
  | .probeCampaignAbort acc => Sys2Proof.Machine.execProbeCampaignAbort acc s
  | .probeTimeout => Sys2Proof.Machine.execProbeTimeout s
  | .snapshotArm acc => Sys2Proof.Machine.execSnapshotArm acc s
  | .snapshotSeal acc => Sys2Proof.Machine.execSnapshotSeal acc s
  | .snapshotAbort acc => Sys2Proof.Machine.execSnapshotAbort acc s
  | .ckptSend acc => Sys2Proof.Machine.execCkptSend acc s
  | .ckptRestore acc => Sys2Proof.Machine.execCkptRestore acc s
  | .granuleCopied => Sys2Proof.Machine.execGranuleCopied s
  | .stripeSend => Sys2Proof.Machine.execStripeSend s
  | .parityReady slot acc => Sys2Proof.Machine.execParityReady slot acc s
  | .ckptDataReceive => Sys2Proof.Machine.execCkptDataReceive s
  | .ckptCommitReceive => Sys2Proof.Machine.execCkptCommitReceive s
  | .commitRecordValidate => Sys2Proof.Machine.execCommitRecordValidate s
  | .ckptAckReceive => Sys2Proof.Machine.execCkptAckReceive s
  | .commitTimeout => Sys2Proof.Machine.execCommitTimeout s
  | .checkpointDeadline => Sys2Proof.Machine.execCheckpointDeadline s
  | .restoreTimeout => Sys2Proof.Machine.execRestoreTimeout s
  | .encodeJobGo slot acc => Sys2Proof.Machine.execEncodeJobGo slot acc s
  | .decodeJobGo slot acc => Sys2Proof.Machine.execDecodeJobGo slot acc s
  | .encodeBlockDone ok ecc => Sys2Proof.Machine.execEncodeBlockDone ok ecc s
  | .decodeBlockDone ecc => Sys2Proof.Machine.execDecodeBlockDone ecc s
  | .cmpJobComplete slot => Sys2Proof.Machine.execCmpJobComplete slot s
  | .porterHeadWrite c acc => Sys2Proof.Machine.execPorterHeadWrite c acc s
  | .porterChannelConfigWrite c size acc => Sys2Proof.Machine.execPorterChannelConfigWrite c size acc s
  | .porterDescriptorStart c ecc => Sys2Proof.Machine.execPorterDescriptorStart c ecc s
  | .porterDescriptorDone c => Sys2Proof.Machine.execPorterDescriptorDone c s
  | .porterResume c acc => Sys2Proof.Machine.execPorterResume c acc s
  | .heartbeatPulse c acc => Sys2Proof.Machine.execHeartbeatPulse c acc s
  | .fenceOrder slot acc => Sys2Proof.Machine.execFenceOrder slot acc s
  | .dumpOrder slot acc => Sys2Proof.Machine.execDumpOrder slot acc s
  | .resetOrder slot acc => Sys2Proof.Machine.execResetOrder slot acc s
  | .releaseOrder slot acc => Sys2Proof.Machine.execReleaseOrder slot acc s
  | .forceOrder slot acc => Sys2Proof.Machine.execForceOrder slot acc s
  | .teardownOrder slot acc => Sys2Proof.Machine.execTeardownOrder slot acc s
  | .teardownStepComplete slot => Sys2Proof.Machine.execTeardownStepComplete slot s
  | .teardownTimeout slot => Sys2Proof.Machine.execTeardownTimeout slot s
  | .fenceDrained target => Sys2Proof.Machine.execFenceDrained target s
  | .rcvDrainTmo target stuck => Sys2Proof.Machine.execRcvDrainTmo target stuck s
  | .releaseTimeout d => Sys2Proof.Machine.execReleaseTimeout d s
  | .dumpProbeTimeout page shadow => Sys2Proof.Machine.execDumpProbeTimeout page shadow s
  | .dumpBuildDone => Sys2Proof.Machine.execDumpBuildDone s
  | .dumpWriteDone => Sys2Proof.Machine.execDumpWriteDone s
  | .heldDumpWrite => Sys2Proof.Machine.execHeldDumpWrite s
  | .dumpDiscard acc => Sys2Proof.Machine.execDumpDiscard acc s
  | .faultNoticeSend => Sys2Proof.Machine.execFaultNoticeSend s
  | .holdoverEnter acc => Sys2Proof.Machine.execHoldoverEnter acc s
  | .holdoverLinkTimeout => Sys2Proof.Machine.execHoldoverLinkTimeout s
  | .holdoverExit acc => Sys2Proof.Machine.execHoldoverExit acc s
  | .holdoverDrainSend => Sys2Proof.Machine.execHoldoverDrainSend s
  | .drainReceive => Sys2Proof.Machine.execDrainReceive s
  | .guestbookAccept => Sys2Proof.Machine.execGuestbookAccept s
  | .guestbookExport => Sys2Proof.Machine.execGuestbookExport s
  | .guestbookFlush acc => Sys2Proof.Machine.execGuestbookFlush acc s
  | .guestbookExportDone => Sys2Proof.Machine.execGuestbookExportDone s
  | .verdictAck acc => Sys2Proof.Machine.execVerdictAck acc s
  | .strongboxRestore => Sys2Proof.Machine.execStrongboxRestore s
  | .strongboxRestoreDone slotA slotB => Sys2Proof.Machine.execStrongboxRestoreDone slotA slotB s
  | .coreHaltEcc c => Sys2Proof.Machine.execCoreHaltEcc c s
  | .firmwareLoad slotA slotB => Sys2Proof.Machine.execFirmwareLoad slotA slotB s
  | .firmwareStage acc => Sys2Proof.Machine.execFirmwareStage acc s
  | .firmwareStageDone img => Sys2Proof.Machine.execFirmwareStageDone img s
  | .firmwareSwitch acc => Sys2Proof.Machine.execFirmwareSwitch acc s
  | .switchReq => Sys2Proof.Machine.execSwitchReq s
  | .firmwareReady acc => Sys2Proof.Machine.execFirmwareReady acc s
  | .firmwareSwitchTimeout => Sys2Proof.Machine.execFirmwareSwitchTimeout s
  | .caravanPayload slot acc buf => Sys2Proof.Machine.execCaravanPayload slot acc buf s
  | .ptpStamps slot acc => Sys2Proof.Machine.execPtpStamps slot acc s
  | .cwFirmwareOp slot acc ans => Sys2Proof.Machine.execCwFirmwareOp slot acc ans s
  | .cwBadOp slot acc => Sys2Proof.Machine.execCwBadOp slot acc s
  | .modeSwitch acc => Sys2Proof.Machine.execModeSwitch acc s
  | .modeSwitchFlip buf => Sys2Proof.Machine.execModeSwitchFlip buf s
  | .modeSwitchTimeout => Sys2Proof.Machine.execModeSwitchTimeout s
  | .syncSignal acc => Sys2Proof.Machine.execSyncSignal acc s
  | .syncWait c port => Sys2Proof.Machine.execSyncWait c port s
  | .syncWaitGrant o => Sys2Proof.Machine.execSyncWaitGrant o s
  | .syncWaitTimeout c => Sys2Proof.Machine.execSyncWaitTimeout c s
  | .syncSet o acc => Sys2Proof.Machine.execSyncSet o acc s
  | .syncViolation acc => Sys2Proof.Machine.execSyncViolation acc s
  | .irqPendAck w acc => Sys2Proof.Machine.execIrqPendAck w acc s
  | .irqDone acc => Sys2Proof.Machine.execIrqDone acc s
  | .irqSwSet acc => Sys2Proof.Machine.execIrqSwSet acc s
  | .irqMaskWrite w acc => Sys2Proof.Machine.execIrqMaskWrite w acc s
  | .irqHoldoffExpire g => Sys2Proof.Machine.execIrqHoldoffExpire g s
  | .powerStateRequest acc => Sys2Proof.Machine.execPowerStateRequest acc s
  | .powerAskRetry => Sys2Proof.Machine.execPowerAskRetry s
  | .powerEntryTimeout => Sys2Proof.Machine.execPowerEntryTimeout s
  | .powerHoldComplete => Sys2Proof.Machine.execPowerHoldComplete s
  | .coreAck acc => Sys2Proof.Machine.execCoreAck acc s
  | .wakeEvent src => Sys2Proof.Machine.execWakeEvent src s
  | .wakeTimer => Sys2Proof.Machine.execWakeTimer s
  | .powerExitDone => Sys2Proof.Machine.execPowerExitDone s
  | .stepAsk acc => Sys2Proof.Machine.execStepAsk acc s
  | .stepHold acc => Sys2Proof.Machine.execStepHold acc s
  | .stepGate acc => Sys2Proof.Machine.execStepGate acc s
  | .stepRelease acc => Sys2Proof.Machine.execStepRelease acc s
  | .traceInstruction c pc len next trap => Sys2Proof.Machine.execTraceInstruction c pc len next trap s
  | .traceArm acc => Sys2Proof.Machine.execTraceArm acc s
  | .traceSoft acc => Sys2Proof.Machine.execTraceSoft acc s
  | .traceTimeComparator x => Sys2Proof.Machine.execTraceTimeComparator x s
  | .authInstallStart acc => Sys2Proof.Machine.execAuthInstallStart acc s
  | .authData acc => Sys2Proof.Machine.execAuthData acc s
  | .authVerifyDone => Sys2Proof.Machine.execAuthVerifyDone s
  | .authRevoke acc => Sys2Proof.Machine.execAuthRevoke acc s
  | .authLapse => Sys2Proof.Machine.execAuthLapse s
  | .dbgacc op addr data => Sys2Proof.Machine.execDbgacc op addr data s
  | .coreHalt acc => Sys2Proof.Machine.execCoreHalt acc s
  | .coreStep acc len next trap xs => Sys2Proof.Machine.execCoreStep acc len next trap xs s
  | .coreResume acc => Sys2Proof.Machine.execCoreResume acc s
  | .ptpAnnounceReceive f => Sys2Proof.Machine.execPtpAnnounceReceive f s
  | .restorePacketReceive => Sys2Proof.Machine.execRestorePacketReceive s
  | .coldResetAssert => Sys2Proof.Machine.execColdResetAssert s
  | .kspResetRelease => Sys2Proof.Machine.execKspResetRelease s
  | .sepPcsUp port => Sys2Proof.Machine.execSepPcsUp port s

end Sys2Proof.Machine
end

