-- ==== Sys2Proof/Machine/Tick.lean ====
section
/-!
DEFINITION. What happens at a tick, whatever is commanded: the block idles for one TCLK cycle (DESIGN CHOICE, log 1). The time bases advance (R241, R242),
mask writes that are due take effect (R662), waiting Guestbook occurrences reach their records (R604), a mode switch whose units are drained hands
over (R646), fences begin to drain (R565), the trace sink takes what its edge allows (R701 to R703), and at an SCLK edge, or an ACLK edge in PS3, the
Ledger queue passes one record (R612).
-/
namespace Sys2Proof.Machine

/-- The clock on which the Ledger queue runs has an edge between `t` and now: SCLK, or ACLK while SCLK is gated (R612). -/
def ledgerEdge (t : Nat) (s : State) : Bool :=
  let p := if pwState s = 3 then 20 * 2 ^ 48 else 5 * 2 ^ 48
  t / p != s.tim.tb2 / p

/-- One TCLK cycle with no command. Under cold reset, and once a power-fail save has stopped the clocks, nothing happens (R82, R184). -/
def tick (s : State) : State :=
  if s.clk.stopped || !s.clk.pwron then s
  else
    let s1 := drainFences (modeHand (gbkFlush (settleMasks (elapse 1 s))))
    let s2 := ltnDrain s.tim.tb2 s1
    if ledgerEdge s.tim.tb2 s2 then ledgerAdmit s2 else s2

end Sys2Proof.Machine
end

