-- ==== Sys2Proof/Safety.lean ====
section
/-!
DEFINITION. What a safe run means in the terms that claims use: the canonical form of the data that a state holds, and what a command keeps.
-/
namespace Sys2Proof.Machine

/-- The offsets of a register store rise, so that a register is listed at most once. -/
def keysRise {α : Type} (l : List (Nat × α)) : Prop := (l.map Prod.fst).Pairwise (· < ·)

/-- The canonical form of a state: the register store lists each register at most once, in rising order, and both memories list rising
addresses and no byte 0, which is what an unlisted byte reads as. -/
def Canonical (s : State) : Prop := keysRise s.regs ∧ Memory.wf s.sram = true ∧ Memory.wf s.fwSram = true

/-- What lies between a state and any state that commands lead to from it: the queue is untouched, nothing that has left the block is taken back, free
values are never used twice, and the canonical form is kept. -/
def Keeps (s t : State) : Prop :=
  t.pending = s.pending ∧ s.outbox <+: t.outbox ∧ s.freeCtr ≤ t.freeCtr ∧ (Canonical s → Canonical t)

/-! What the statements about commands say. -/

/-- Carrying out a command answers a next state of which `p` holds. -/
def Does (c : Instr) (s : State) (p : State → Prop) : Prop := ∃ t, exec c s = .next t ∧ p t

/-- The state in which an access finds the Ledger queue: in an SCLK cycle of its own the queue has passed a record first (R612). -/
def atEdge (s : State) (acc : Acc) : State := if acc.sameCycle then s else ledgerPass s

/-- The port performs the access as `p`: the clocks run, the port presents it with the privilege of `p`, no condition of R729 applies to the
register at `a`, and the Ledger queue has room for its record (R612). -/
def Admitted (s : State) (a : Nat) (acc p : Acc) : Prop :=
  s.clk.stopped = false ∧ s.clk.pwron = true ∧ presented s acc = some p ∧ pwState s ≠ 3 ∧ writeCheck (atEdge s p) (offset a) p = 0
    ∧ (recorded (offset a) = true → (atEdge s p).ldg.queue.length < 64)

/-- A Guestbook record of this code, class and payload joins the acceptance queue, if the ring runs and the queue has room for a record of any class
(R598, R600). -/
def Records (s t : State) (code cls payload : Nat) : Prop :=
  on s F.GBK_STATUS_RUNNING = true → s.gbk.queue.length ≤ 192 →
    ∃ r, t.gbk.queue = s.gbk.queue ++ [r] ∧ r.code = code ∧ r.cls = cls ∧ r.payload = payload % 2 ^ 64

/-- A result register shows a result: VALID is 1, SEQ the sequence given, and the bits below VALID the value given (R635). -/
def Shows (t : State) (a seq low : Nat) : Prop :=
  bitsAt (rd t a) 32 1 = 1 ∧ bitsAt (rd t a) 48 16 = seq % 65536 ∧ bitsAt (rd t a) 0 32 = low

/-- The parts of a state beside its registers, of which the queue of commands and the count of free values are left out. -/
inductive StatePart where
  | outbox | rsp | rspTag | clk | gbk | ldg | sbx | irq | eop | mmp | fbp | sep | ksp | tim | tly | ctl | ink | crv | sram | fwSram | itn | tpi | hld | due | tre | arr | ver | flt | det | cur | cmp | prt | rcv | syn | cores | pwr | ltn | dbg
  deriving DecidableEq, Repr

/-- Two states agree on a part. -/
def StatePart.same (s t : State) : StatePart → Prop
  | .outbox => t.outbox = s.outbox
  | .rsp => t.rsp = s.rsp
  | .rspTag => t.rspTag = s.rspTag
  | .clk => t.clk = s.clk
  | .gbk => t.gbk = s.gbk
  | .ldg => t.ldg = s.ldg
  | .sbx => t.sbx = s.sbx
  | .irq => t.irq = s.irq
  | .eop => t.eop = s.eop
  | .mmp => t.mmp = s.mmp
  | .fbp => t.fbp = s.fbp
  | .sep => t.sep = s.sep
  | .ksp => t.ksp = s.ksp
  | .tim => t.tim = s.tim
  | .tly => t.tly = s.tly
  | .ctl => t.ctl = s.ctl
  | .ink => t.ink = s.ink
  | .crv => t.crv = s.crv
  | .sram => t.sram = s.sram
  | .fwSram => t.fwSram = s.fwSram
  | .itn => t.itn = s.itn
  | .tpi => t.tpi = s.tpi
  | .hld => t.hld = s.hld
  | .due => t.due = s.due
  | .tre => t.tre = s.tre
  | .arr => t.arr = s.arr
  | .ver => t.ver = s.ver
  | .flt => t.flt = s.flt
  | .det => t.det = s.det
  | .cur => t.cur = s.cur
  | .cmp => t.cmp = s.cmp
  | .prt => t.prt = s.prt
  | .rcv => t.rcv = s.rcv
  | .syn => t.syn = s.syn
  | .cores => t.cores = s.cores
  | .pwr => t.pwr = s.pwr
  | .ltn => t.ltn = s.ltn
  | .dbg => t.dbg = s.dbg

/-- What a command may change: the registers of some pages of the window, and some parts. -/
structure Footprint where
  pages : List Nat
  parts : List StatePart
  deriving DecidableEq, Repr

/-- A footprint with more pages and parts. -/
def Footprint.and (f : Footprint) (pages : List Nat) (parts : List StatePart) : Footprint := ⟨f.pages ++ pages, f.parts ++ parts⟩

/-- What a Guestbook record and a raised interrupt may change (R598, R657): the record queue and its counts (page 0x14), the interrupt controller
(page 0x19), and the wake of a sleeping instance (page 0x1A). -/
def Footprint.noted : Footprint := ⟨[0x14, 0x19, 0x1A], [.gbk, .irq, .pwr]⟩

/-- What an access at a port may change whatever register it names: its answer, the error registers of page 0x00, the Ledger (page 0x15), and what a
record may (R19, R611, R729). -/
def Footprint.atPort : Footprint := Footprint.noted.and [0x00, 0x15] [.rsp, .rspTag, .ldg]

/-- The state is unchanged outside a footprint: every register of another page, and every other part. -/
def Outside (f : Footprint) (s t : State) : Prop :=
  (∀ a, a / 65536 ∉ f.pages → rd t a = rd s a) ∧ ∀ p, p ∉ f.parts → p.same s t

/-- The pages of the windows (R718). -/
def Footprint.windows : List Nat := List.range' 0x48 9 ++ [0x58] ++ List.range' 0x60 32

open Footprint in
/-- The footprint of a command: the pages whose registers it may change and the parts of the state that it may change, whatever its operands are. `none`
for a cold reset, which returns every register to reset, and for a command whose effect is that of a write of a register which its operands, a packet or the
Ledger queue name. -/
def footprint : Instr → Option Footprint
  | .registerWrite _ _ _ _ => none
  | .ledgerQueueAdmit => none
  | .resultConsume _ _ => none
  | .coldReset _ => none
  | .warmReset => some (noted.and (windows ++ [0x01, 0x02, 0x03, 0x04, 0x05, 0x06, 0x07, 0x08, 0x09, 0x0A, 0x0B, 0x0C, 0x0D, 0x0E, 0x0F, 0x10, 0x11, 0x12, 0x13, 0x16, 0x17, 0x18, 0x1B, 0x1C, 0x1D]) [.outbox, .rsp, .clk, .ldg, .sbx, .eop, .mmp, .fbp, .sep, .tim, .tly, .ctl, .ink, .crv, .itn, .tpi, .hld, .due, .tre, .arr, .ver, .flt, .det, .cur, .cmp, .prt, .rcv, .syn, .cores, .ltn, .dbg])
  | .clkRstWarm _ => some (atPort.and (windows ++ [0x01, 0x02, 0x03, 0x04, 0x05, 0x06, 0x07, 0x08, 0x09, 0x0A, 0x0B, 0x0C, 0x0D, 0x0E, 0x0F, 0x10, 0x11, 0x12, 0x13, 0x16, 0x17, 0x18, 0x1B, 0x1C, 0x1D]) [.outbox, .clk, .sbx, .eop, .mmp, .fbp, .sep, .tim, .tly, .ctl, .ink, .crv, .sram, .fwSram, .itn, .tpi, .hld, .due, .tre, .arr, .ver, .flt, .det, .cur, .cmp, .prt, .rcv, .syn, .cores, .ltn, .dbg])
  | .domainResetRequest _ => some (atPort.and (windows ++ [0x01, 0x02, 0x03, 0x04, 0x05, 0x06, 0x07, 0x08, 0x09, 0x0A, 0x0B, 0x0C, 0x0D, 0x0E, 0x0F, 0x10, 0x11, 0x12, 0x13, 0x16, 0x17, 0x18, 0x1B, 0x1C, 0x1D]) [.outbox, .clk, .sbx, .eop, .mmp, .fbp, .sep, .tim, .tly, .ctl, .ink, .crv, .sram, .fwSram, .itn, .tpi, .hld, .due, .tre, .arr, .ver, .flt, .det, .cur, .cmp, .prt, .rcv, .syn, .cores, .ltn, .dbg])
  | .domainResetRelease _ => some (noted.and (windows ++ [0x01, 0x02, 0x03, 0x04, 0x05, 0x06, 0x07, 0x08, 0x09, 0x0A, 0x0B, 0x0C, 0x0D, 0x0E, 0x0F, 0x10, 0x11, 0x12, 0x13, 0x17, 0x18, 0x1B, 0x1D]) [.outbox, .clk, .eop, .mmp, .fbp, .sep, .tim, .tly, .ctl, .ink, .crv, .sram, .fwSram, .itn, .tpi, .hld, .due, .tre, .arr, .ver, .flt, .det, .cur, .cmp, .prt, .rcv, .syn, .cores, .ltn, .dbg])
  | .clkMonWindowEnd _ => some (noted.and [0x02] [])
  | .clockBranchGate _ => some ⟨[0x02], []⟩
  | .clockBranchRestart _ => some ⟨[0x02], []⟩
  | .hostSideReset _ => some (noted.and [0x02, 0x03, 0x04, 0x05, 0x06, 0x0B, 0x0C, 0x11, 0x12, 0x18] [.outbox, .clk, .eop, .mmp, .fbp, .sep, .tly, .ink, .sram, .fwSram, .tre, .cur, .prt])
  | .xrstAckSeen _ => some ⟨[0x02], [.clk]⟩
  | .xrstHandshakeDone _ => some (noted.and [0x02, 0x03, 0x04, 0x05, 0x06, 0x08, 0x0B, 0x0C, 0x0D, 0x0F, 0x12, 0x13] [.outbox, .clk, .eop, .mmp, .fbp, .tly, .ink, .crv, .itn, .hld])
  | .eopEvent _ _ => some (noted.and [0x08, 0x13] [.tly])
  | .attentionPulse => some ⟨[0x1A], [.eop, .pwr]⟩
  | .tagTransfer _ _ _ _ => some ⟨[0x13], [.eop, .rcv]⟩
  | .snapshotRecord _ _ _ => some (noted.and [0x03] [.tly])
  | .witnessRecord _ _ _ => some (noted.and [0x03, 0x0B, 0x0D, 0x0F, 0x10, 0x13, 0x16] [.sbx, .mmp, .tly, .ink, .hld, .ver, .flt])
  | .probeResultRecord _ _ _ => some (noted.and [0x03, 0x0B, 0x0D, 0x0F, 0x10, 0x13, 0x16] [.sbx, .mmp, .tly, .ink, .hld, .ver, .flt])
  | .probeIssue _ => some ⟨[], [.outbox, .tly, .flt]⟩
  | .seedBundleSend => some (noted.and [0x0F] [.eop, .ver])
  | .seedAck => some ⟨[0x03], [.eop, .ver]⟩
  | .seedAckTimeout => some (noted.and [0x03] [.eop, .tim, .tly, .ver])
  | .fenceAckSeen _ => some ⟨[0x03, 0x13], [.rcv]⟩
  | .fenceDrainDone _ _ => some (noted.and [0x03, 0x13] [.rcv])
  | .fenceLinesLow _ => some (noted.and [0x03, 0x12, 0x13, 0x17] [.mmp, .cmp, .rcv])
  | .fenceAckTmo _ => some (noted.and [0x03, 0x13] [.tim, .tly, .rcv])
  | .fenceDrainTmo _ => some (noted.and [0x03, 0x13] [.tim, .tly, .rcv])
  | .fenceProto _ _ => some (noted.and [0x03] [.eop])
  | .mmpRequestIssue => some (noted.and [0x04, 0x0B, 0x0C, 0x11, 0x12, 0x18] [.mmp, .tly, .ink, .sram, .fwSram, .tre, .cur, .prt])
  | .mmpReadData _ _ _ => some (noted.and [0x04, 0x0B, 0x0C, 0x11, 0x12, 0x18] [.mmp, .tly, .ink, .sram, .fwSram, .tre, .cur, .prt])
  | .mmpWriteResponse _ _ _ => some (noted.and [0x04, 0x0F] [.mmp, .ver])
  | .writeIntent _ _ => some (noted.and [0x04] [.outbox, .mmp, .cur])
  | .intentStallTimeout _ => some (noted.and [0x04, 0x0B, 0x11, 0x18] [.outbox, .mmp, .tim, .tly, .ink, .cur])
  | .txCreditReturn _ _ _ => some (noted.and [0x05] [])
  | .frpPacketReceive _ _ => some (noted.and [0x05, 0x0A, 0x0B] [.outbox, .fbp, .tly, .ink])
  | .rxCreditReturn _ _ _ => some ⟨[], [.outbox, .fbp]⟩
  | .laneLinkUp _ => some ⟨[0x05, 0x1A], [.outbox, .fbp, .pwr]⟩
  | .laneLinkDown _ => some (noted.and [0x05] [.fbp, .hld])
  | .fbpRxPartWrite _ => some (atPort.and [0x05] [.outbox, .fbp])
  | .sepFrameReceive _ _ _ => some (noted.and [0x06] [.sep, .tly])
  | .sepFrameTransmit _ _ => some ⟨[], [.outbox, .sep]⟩
  | .tcForward _ => some ⟨[], [.outbox, .sep, .tly]⟩
  | .sepPcsDown _ _ _ => some (noted.and [0x06] [.sep, .tly])
  | .kspRead _ => some (atPort.and [0x1D] [.outbox, .ksp])
  | .kspPageProgram _ => some (atPort.and [0x1D] [.outbox, .ksp])
  | .kspSectorErase _ => some (atPort.and [0x1D] [.outbox, .ksp])
  | .kspReadStatus _ => some (atPort.and [0x1D] [.outbox, .ksp])
  | .kspCmdDone _ _ => some (noted.and [0x1D] [.outbox, .ksp])
  | .kspPollDone _ => some (noted.and [0x1D] [.outbox, .ksp])
  | .kspPollTimeout => some (noted.and [0x1D] [.outbox, .ksp])
  | .powerFailWarning _ _ => some (noted.and [0x08, 0x12, 0x15, 0x16, 0x1D] [.outbox, .clk, .ldg, .sbx, .ksp, .tly, .rcv, .ltn])
  | .strongboxSaveDone => some ⟨[0x16, 0x1A], [.outbox, .clk, .sbx, .ksp]⟩
  | .savePgFall => some ⟨[0x1A], [.sbx, .ksp]⟩
  | .itineraryLoadStart _ _ _ => some (noted.and [0x01, 0x1D] [.outbox, .tim, .tly, .itn])
  | .slotReadDone _ => some (noted.and [0x01, 0x1D] [.outbox, .itn])
  | .itineraryApplyDone => some (noted.and [0x00, 0x01, 0x02, 0x04, 0x05, 0x06, 0x08, 0x0B, 0x0C, 0x0D, 0x0F, 0x12, 0x13, 0x15, 0x17, 0x1D] [.clk, .ldg, .mmp, .tly, .ink, .crv, .itn, .hld])
  | .pushStart _ => some (atPort.and [0x01] [.itn])
  | .pushAbort _ => some (atPort.and [0x01] [.itn])
  | .pushData _ => some (atPort.and [0x01] [.itn])
  | .pushVerifyDone => some (noted.and [0x01] [.itn])
  | .liveOverlayApply => some (noted.and [0x01, 0x08, 0x0B, 0x13, 0x15] [.ldg, .mmp, .tly, .ink, .crv, .itn, .hld])
  | .quiesceOverlayStart => some ⟨[0x01], [.ctl, .ink, .itn]⟩
  | .quiesceOverlayWrite _ => some (noted.and [0x00, 0x01, 0x08, 0x0B, 0x0F, 0x12, 0x13, 0x15] [.ldg, .mmp, .fbp, .tim, .tly, .ctl, .ink, .crv, .itn, .hld, .det, .cmp])
  | .quiesceOverlayTimeout => some (noted.and [0x01, 0x12] [.mmp, .tim, .tly, .ctl, .ink, .itn, .cmp])
  | .overlayHoldTimeout => some (noted.and [0x01] [.tim, .tly, .itn])
  | .scheduleEnable _ _ => some (atPort.and [0x08, 0x12] [.tly])
  | .scheduleDisable _ _ => some (atPort.and [0x08, 0x12] [.tly])
  | .scheduleRegisterWrite _ _ _ => some (atPort.and [0x08, 0x12] [.tly])
  | .epochCut _ => some (noted.and [0x03, 0x08, 0x0B, 0x0E, 0x13] [.eop, .mmp, .tim, .tly, .ink, .crv, .itn, .hld, .ver, .det])
  | .lateCut => some (noted.and [0x08] [.tly])
  | .cutComplete => some (noted.and [0x08, 0x0A, 0x0B, 0x12, 0x13] [.mmp, .tly, .ink, .crv, .hld, .due])
  | .binFlush _ => some (atPort.and [0x08, 0x12] [.tly])
  | .tallySample _ _ _ => some (atPort.and [0x07, 0x08, 0x09, 0x0A, 0x0B, 0x0E, 0x0F, 0x12, 0x13, 0x16, 0x17, 0x58] [.sbx, .eop, .mmp, .tim, .tly, .ctl, .ink, .crv, .tpi, .hld, .due, .ver, .det, .cur])
  | .shadowPass _ _ => some (noted.and [0x08] [.tly])
  | .waybillRecordWrite => some (noted.and [0x08] [.mmp, .tly])
  | .waybillWriteComplete => some (noted.and [0x08] [.mmp, .tly])
  | .waybillProdTick => some (noted.and [0x08, 0x12] [.tim, .tly])
  | .waybillTrigger _ => some (atPort.and [0x08, 0x12] [.tly])
  | .waybillArm _ => some (atPort.and [0x08, 0x12] [.tly])
  | .ptpSyncReceive _ _ => some (noted.and [0x07, 0x09] [.tim, .tly, .tpi])
  | .ptpFollowUpReceive _ => some (noted.and [0x07, 0x09] [.tim, .tly, .tpi])
  | .ptpDelayRespReceive _ => some ⟨[0x09], [.tim]⟩
  | .delayReqSend _ => some ⟨[], [.outbox, .tim, .tly]⟩
  | .jumpAccept _ _ => some (atPort.and [0x07, 0x09] [.tim, .tly, .tpi])
  | .jumpDismiss _ _ => some (atPort.and [0x07, 0x09] [.tim, .tly, .tpi])
  | .servoTimeout _ => some (noted.and [0x09] [.tim, .tly])
  | .timeSnapshot _ => some (atPort.and [0x07, 0x09] [.tim, .tly, .tpi])
  | .fabricDreqSend => some (noted.and [0x0B] [.tim, .tly, .ink])
  | .fabricDreqReceive => some (noted.and [0x0B] [.fbp, .tim, .tly, .ink])
  | .fabricDrespReceive => some ⟨[], [.fbp, .tim, .tly]⟩
  | .fabricDrespFupReceive => some (noted.and [0x07, 0x09] [.fbp, .tim, .tly, .tpi])
  | .pulseEnable _ _ => some (atPort.and [0x07] [.tly, .tpi])
  | .pulseEdge _ => some ⟨[], [.tim, .tly, .tpi]⟩
  | .pulseFall _ => some ⟨[], [.tim, .tly, .tpi]⟩
  | .ppsOutRise => some ⟨[], [.tim, .tly, .tpi]⟩
  | .ppsOutFall => some ⟨[], [.tim, .tly, .tpi]⟩
  | .captureEdge _ _ => some (noted.and [0x07] [.tly, .tpi])
  | .captureConsume _ _ => some (atPort.and [0x07] [.tly, .tpi])
  | .deltaReceive => some (noted.and [0x0A, 0x0B, 0x13, 0x16] [.sbx, .mmp, .fbp, .tly, .ink, .crv, .hld, .due, .det])
  | .aggReceive => some (noted.and [0x0A, 0x0B, 0x13, 0x16] [.sbx, .mmp, .fbp, .tly, .ink, .crv, .hld, .due, .det])
  | .sketchReceive => some (noted.and [0x0A, 0x0B, 0x13, 0x16] [.sbx, .mmp, .fbp, .tly, .ink, .crv, .hld, .due, .det])
  | .verdictReceive => some (noted.and [0x0A, 0x0B, 0x13, 0x16] [.sbx, .mmp, .fbp, .tly, .ink, .crv, .hld, .due, .det])
  | .closedReceive => some (noted.and [0x0A, 0x0B, 0x13] [.mmp, .fbp, .tly, .ink, .crv, .hld, .due, .det])
  | .epochDeadline _ _ => some (noted.and [0x0A, 0x0B, 0x13] [.mmp, .tim, .tly, .ink, .crv, .hld, .due])
  | .epochGraceEnd _ _ => some (noted.and [0x0A, 0x0B, 0x13] [.mmp, .tim, .tly, .ink, .crv, .hld, .due, .det])
  | .joinReceive => some (noted.and [0x0A, 0x0B, 0x13] [.mmp, .fbp, .tly, .ink, .crv, .hld, .due, .det])
  | .detourReceive => some (noted.and [0x0A, 0x0B, 0x13] [.mmp, .fbp, .tly, .ink, .crv, .hld, .due, .det])
  | .missingReceive => some (noted.and [0x0A, 0x0B, 0x13, 0x16] [.sbx, .mmp, .fbp, .tly, .ink, .crv, .hld, .due, .det])
  | .coarsenReceive => some (noted.and [0x0A] [.fbp, .tly, .crv])
  | .bcastReceive => some (noted.and [0x0B, 0x0E] [.fbp, .tly, .ink, .det])
  | .saturatedEpochClose _ _ _ => some (noted.and [0x0A, 0x0B, 0x13] [.mmp, .tly, .ink, .crv, .hld])
  | .slotOpen _ => some (atPort.and [0x0A, 0x0B, 0x13] [.mmp, .tly, .ink, .crv, .hld, .due, .det])
  | .slotDrain _ => some (atPort.and [0x0A, 0x0B, 0x13] [.mmp, .tly, .ink, .crv, .hld, .due, .det])
  | .slotRetire _ => some (atPort.and [0x0A, 0x0B, 0x13] [.mmp, .tly, .ink, .crv, .hld, .due, .det])
  | .routeModeWrite _ => some (atPort.and [0x0A, 0x0B, 0x13] [.mmp, .tly, .ink, .crv, .hld, .due, .det])
  | .tgaReadGo _ _ => none
  | .tgaWriteGo _ _ => none
  | .tgaReqReceive => none
  | .tgaAnsReceive => some (noted.and [0x0A, 0x0B, 0x50] [.fbp, .tly, .ink, .crv])
  | .tgaTimeout => some (noted.and [0x0A, 0x0B, 0x50] [.tim, .tly, .ink, .crv])
  | .inkSelect _ _ => some (noted.and [0x04, 0x05, 0x0B] [.outbox, .mmp, .fbp, .tim, .tly, .ink])
  | .queueRoomResume _ => some ⟨[0x0B], [.ink]⟩
  | .shaperRefill => some ⟨[], [.ink]⟩
  | .ladderPause _ _ => some (noted.and [0x0B] [.ink])
  | .queueCfgWrite _ _ => some (atPort.and [0x0B] [])
  | .modelBind _ => some (atPort.and [0x0C, 0x18] [.tre])
  | .modelBindDone _ => some (noted.and [0x0C] [.tre])
  | .modelUnbind _ => some (atPort.and [0x0C, 0x18] [.tre])
  | .treeJobGo _ _ => some (atPort.and [0x0C, 0x18] [.tre])
  | .treeJobStart _ => some ⟨[0x0C], [.tre]⟩
  | .treeJobDone _ _ _ => some (noted.and [0x0C, 0x18] [.tly, .sram, .tre])
  | .arrayJobGo _ _ => some (atPort.and [0x0D, 0x0F, 0x18] [.arr])
  | .arrayPassDone _ _ _ _ => some (noted.and [0x0B, 0x0C, 0x0D, 0x0F, 0x10, 0x13, 0x16, 0x18] [.sbx, .mmp, .tly, .ink, .sram, .hld, .tre, .arr, .ver, .flt])
  | .detectorEvaluate => some (noted.and [0x0A, 0x0B, 0x0E, 0x13, 0x16] [.sbx, .mmp, .tly, .ink, .crv, .hld, .due, .det])
  | .detectorRefWrite _ _ => some (atPort.and [0x0E] [.det])
  | .scores _ _ => some (atPort.and [0x07, 0x08, 0x09, 0x0A, 0x0B, 0x0E, 0x0F, 0x12, 0x13, 0x16, 0x17, 0x58] [.sbx, .eop, .mmp, .tim, .tly, .ctl, .ink, .crv, .tpi, .hld, .due, .ver, .det, .cur])
  | .verifyReferenceDone _ => some (noted.and [0x0B, 0x0D, 0x0F, 0x13, 0x16] [.sbx, .mmp, .tly, .ink, .hld, .ver])
  | .verifyConfirmDone _ _ _ => some (noted.and [0x0B, 0x0D, 0x0F, 0x10, 0x13, 0x16] [.sbx, .mmp, .tly, .ink, .hld, .ver, .flt])
  | .witnessAccountingClose => some (noted.and [0x0F, 0x18] [.tim, .tly, .ver])
  | .witnessReceive => some (noted.and [0x0D, 0x0F] [.mmp, .fbp, .tly, .ver])
  | .subjectObserve _ _ => some (atPort.and [0x0D, 0x0F] [.tly])
  | .subjectClear _ _ => some (atPort.and [0x0D, 0x0F] [.tly])
  | .verifyOutcome _ _ => some (atPort.and [0x07, 0x08, 0x09, 0x0A, 0x0B, 0x0E, 0x0F, 0x12, 0x13, 0x16, 0x17, 0x58] [.sbx, .eop, .mmp, .tim, .tly, .ctl, .ink, .crv, .tpi, .hld, .due, .ver, .det, .cur])
  | .fieldTestDone _ _ _ _ _ _ _ _ => some (noted.and [0x0B, 0x0D, 0x0F, 0x10, 0x13, 0x16] [.sbx, .mmp, .tly, .ink, .hld, .arr, .flt])
  | .faultMarkExpire _ => some (noted.and [0x0B, 0x0D, 0x0F, 0x10, 0x13, 0x16] [.sbx, .mmp, .tim, .tly, .ink, .hld, .flt])
  | .probeCampaignStart _ => some (atPort.and [0x10] [.flt])
  | .probeCampaignAbort _ => some (atPort.and [0x10] [.flt])
  | .probeTimeout => some (noted.and [0x10] [.tim, .tly, .flt])
  | .snapshotArm _ => some (atPort.and [0x04, 0x0B, 0x11, 0x18] [.outbox, .mmp, .tly, .ink, .cur])
  | .snapshotSeal _ => some (atPort.and [0x04, 0x0B, 0x11, 0x18] [.outbox, .mmp, .tly, .ink, .cur])
  | .snapshotAbort _ => some (atPort.and [0x04, 0x0B, 0x11, 0x18] [.outbox, .mmp, .tly, .ink, .cur])
  | .ckptSend _ => some (atPort.and [0x04, 0x0B, 0x11, 0x18] [.outbox, .mmp, .tly, .ink, .cur])
  | .ckptRestore _ => some (atPort.and [0x04, 0x0B, 0x11, 0x18] [.outbox, .mmp, .tly, .ink, .cur])
  | .granuleCopied => some (noted.and [0x04, 0x0B, 0x11, 0x18] [.outbox, .mmp, .tly, .ink, .cur])
  | .stripeSend => some (noted.and [0x04, 0x0B, 0x11, 0x18] [.outbox, .mmp, .tly, .ink, .cur])
  | .parityReady _ _ => some (atPort.and [0x07, 0x08, 0x09, 0x0A, 0x0B, 0x0E, 0x0F, 0x12, 0x13, 0x16, 0x17, 0x58] [.sbx, .eop, .mmp, .tim, .tly, .ctl, .ink, .crv, .tpi, .hld, .due, .ver, .det, .cur])
  | .ckptDataReceive => some (noted.and [0x11] [.mmp, .fbp, .ink, .cur])
  | .ckptCommitReceive => some (noted.and [0x0B, 0x11, 0x18] [.mmp, .fbp, .tly, .ink, .cur])
  | .commitRecordValidate => some (noted.and [0x0B, 0x11, 0x18] [.mmp, .tly, .ink, .cur])
  | .ckptAckReceive => some (noted.and [0x11, 0x18] [.fbp, .cur])
  | .commitTimeout => some (noted.and [0x11, 0x18] [.tim, .tly, .cur])
  | .checkpointDeadline => some (noted.and [0x11] [.tim, .tly, .cur])
  | .restoreTimeout => some (noted.and [0x0C, 0x11, 0x18] [.mmp, .tim, .tly, .sram, .tre, .cur])
  | .encodeJobGo _ _ => some (atPort.and [0x12, 0x18] [.mmp, .cmp])
  | .decodeJobGo _ _ => some (atPort.and [0x12, 0x18] [.mmp, .cmp])
  | .encodeBlockDone _ _ => some (noted.and [0x0C, 0x12] [.mmp, .sram, .tre, .cmp])
  | .decodeBlockDone _ => some (noted.and [0x0C, 0x12] [.mmp, .sram, .tre, .cmp])
  | .cmpJobComplete _ => some (noted.and [0x12, 0x18] [.mmp, .cmp])
  | .porterHeadWrite _ _ => some (atPort.and [0x12, 0x18] [.mmp, .cmp])
  | .porterChannelConfigWrite _ _ _ => some (atPort.and [0x12, 0x18] [.mmp, .cmp])
  | .porterDescriptorStart _ _ => some (noted.and [0x0C, 0x12, 0x18] [.mmp, .sram, .fwSram, .tre, .prt])
  | .porterDescriptorDone _ => some (noted.and [0x12, 0x18] [.mmp, .fwSram, .prt])
  | .porterResume _ _ => some (atPort.and [0x12, 0x18] [.mmp, .cmp])
  | .heartbeatPulse _ _ => some (atPort.and [0x13] [])
  | .fenceOrder _ _ => some (atPort.and (windows ++ [0x01, 0x02, 0x03, 0x04, 0x05, 0x06, 0x07, 0x08, 0x09, 0x0A, 0x0B, 0x0C, 0x0D, 0x0E, 0x0F, 0x10, 0x11, 0x12, 0x13, 0x17, 0x18, 0x1B, 0x1D]) [.outbox, .clk, .eop, .mmp, .fbp, .sep, .tim, .tly, .ctl, .ink, .crv, .sram, .fwSram, .itn, .tpi, .hld, .due, .tre, .arr, .ver, .flt, .det, .cur, .cmp, .prt, .rcv, .syn, .cores, .ltn, .dbg])
  | .dumpOrder _ _ => some (atPort.and (windows ++ [0x01, 0x02, 0x03, 0x04, 0x05, 0x06, 0x07, 0x08, 0x09, 0x0A, 0x0B, 0x0C, 0x0D, 0x0E, 0x0F, 0x10, 0x11, 0x12, 0x13, 0x17, 0x18, 0x1B, 0x1D]) [.outbox, .clk, .eop, .mmp, .fbp, .sep, .tim, .tly, .ctl, .ink, .crv, .sram, .fwSram, .itn, .tpi, .hld, .due, .tre, .arr, .ver, .flt, .det, .cur, .cmp, .prt, .rcv, .syn, .cores, .ltn, .dbg])
  | .resetOrder _ _ => some (atPort.and (windows ++ [0x01, 0x02, 0x03, 0x04, 0x05, 0x06, 0x07, 0x08, 0x09, 0x0A, 0x0B, 0x0C, 0x0D, 0x0E, 0x0F, 0x10, 0x11, 0x12, 0x13, 0x17, 0x18, 0x1B, 0x1D]) [.outbox, .clk, .eop, .mmp, .fbp, .sep, .tim, .tly, .ctl, .ink, .crv, .sram, .fwSram, .itn, .tpi, .hld, .due, .tre, .arr, .ver, .flt, .det, .cur, .cmp, .prt, .rcv, .syn, .cores, .ltn, .dbg])
  | .releaseOrder _ _ => some (atPort.and (windows ++ [0x01, 0x02, 0x03, 0x04, 0x05, 0x06, 0x07, 0x08, 0x09, 0x0A, 0x0B, 0x0C, 0x0D, 0x0E, 0x0F, 0x10, 0x11, 0x12, 0x13, 0x17, 0x18, 0x1B, 0x1D]) [.outbox, .clk, .eop, .mmp, .fbp, .sep, .tim, .tly, .ctl, .ink, .crv, .sram, .fwSram, .itn, .tpi, .hld, .due, .tre, .arr, .ver, .flt, .det, .cur, .cmp, .prt, .rcv, .syn, .cores, .ltn, .dbg])
  | .forceOrder _ _ => some (atPort.and (windows ++ [0x01, 0x02, 0x03, 0x04, 0x05, 0x06, 0x07, 0x08, 0x09, 0x0A, 0x0B, 0x0C, 0x0D, 0x0E, 0x0F, 0x10, 0x11, 0x12, 0x13, 0x17, 0x18, 0x1B, 0x1D]) [.outbox, .clk, .eop, .mmp, .fbp, .sep, .tim, .tly, .ctl, .ink, .crv, .sram, .fwSram, .itn, .tpi, .hld, .due, .tre, .arr, .ver, .flt, .det, .cur, .cmp, .prt, .rcv, .syn, .cores, .ltn, .dbg])
  | .teardownOrder _ _ => some (atPort.and (windows ++ [0x01, 0x02, 0x03, 0x04, 0x05, 0x06, 0x07, 0x08, 0x09, 0x0A, 0x0B, 0x0C, 0x0D, 0x0E, 0x0F, 0x10, 0x11, 0x12, 0x13, 0x17, 0x18, 0x1B, 0x1D]) [.outbox, .clk, .eop, .mmp, .fbp, .sep, .tim, .tly, .ctl, .ink, .crv, .sram, .fwSram, .itn, .tpi, .hld, .due, .tre, .arr, .ver, .flt, .det, .cur, .cmp, .prt, .rcv, .syn, .cores, .ltn, .dbg])
  | .teardownStepComplete _ => some (noted.and [0x03, 0x04, 0x08, 0x0A, 0x0B, 0x10, 0x11, 0x13, 0x17, 0x18, 0x50, 0x58] [.outbox, .eop, .mmp, .tly, .ctl, .ink, .crv, .flt, .cur, .rcv])
  | .teardownTimeout _ => some (noted.and [0x13] [.tim, .tly, .rcv])
  | .fenceDrained _ => some (noted.and [0x13] [.rcv])
  | .rcvDrainTmo _ _ => some (noted.and [0x04, 0x0B, 0x0C, 0x0D, 0x11, 0x12, 0x13, 0x18] [.mmp, .tim, .tly, .ink, .sram, .fwSram, .tre, .arr, .cur, .prt, .rcv])
  | .releaseTimeout _ => some ⟨[0x13, 0x19, 0x1A], [.irq, .tim, .tly, .rcv, .pwr]⟩
  | .dumpProbeTimeout _ _ => some (noted.and [0x13] [.rcv])
  | .dumpBuildDone => some (noted.and [0x13] [.mmp, .rcv])
  | .dumpWriteDone => some (noted.and [0x13] [.mmp, .rcv])
  | .heldDumpWrite => some ⟨[], [.mmp, .rcv]⟩
  | .dumpDiscard _ => some (atPort.and [0x13] [.rcv])
  | .faultNoticeSend => some (noted.and [0x0B, 0x13] [.tly, .ink, .rcv])
  | .holdoverEnter _ => some (atPort.and [0x0B, 0x13] [.mmp, .tly, .ink, .crv, .hld])
  | .holdoverLinkTimeout => some (noted.and [0x13] [.tim, .tly])
  | .holdoverExit _ => some (atPort.and [0x0B, 0x13] [.mmp, .tly, .ink, .crv, .hld])
  | .holdoverDrainSend => some (noted.and [0x0B, 0x13] [.mmp, .tly, .ink, .hld])
  | .drainReceive => some (noted.and [0x0B] [.fbp, .tly, .ink])
  | .guestbookAccept => some (noted.and [0x08, 0x12] [.tly, .rcv, .ltn])
  | .guestbookExport => some (noted.and [0x12] [.mmp])
  | .guestbookFlush _ => some atPort
  | .guestbookExportDone => some (noted.and [] [.mmp])
  | .verdictAck _ => some (atPort.and [0x16] [.sbx])
  | .strongboxRestore => some ⟨[0x16, 0x1D], [.sbx]⟩
  | .strongboxRestoreDone _ _ => some (noted.and [0x15, 0x16, 0x1D] [.outbox, .ldg, .sbx])
  | .coreHaltEcc _ => some (noted.and [0x07, 0x08, 0x09, 0x0A, 0x0B, 0x0E, 0x0F, 0x12, 0x13, 0x16, 0x17, 0x1B, 0x58] [.sbx, .mmp, .tim, .tly, .ctl, .ink, .crv, .tpi, .hld, .due, .ver, .det, .cur, .rcv, .cores, .ltn])
  | .firmwareLoad _ _ => some (noted.and [0x07, 0x08, 0x09, 0x0A, 0x0B, 0x0E, 0x0F, 0x12, 0x13, 0x16, 0x17, 0x1B, 0x1D, 0x58] [.outbox, .sbx, .mmp, .tim, .tly, .ctl, .ink, .crv, .fwSram, .tpi, .hld, .due, .ver, .det, .cur, .rcv, .cores, .ltn])
  | .firmwareStage _ => some (atPort.and [0x07, 0x08, 0x09, 0x0A, 0x0B, 0x0E, 0x0F, 0x12, 0x13, 0x16, 0x17, 0x1B, 0x1D, 0x58] [.sbx, .mmp, .tim, .tly, .ctl, .ink, .crv, .tpi, .hld, .due, .ver, .det, .cur, .rcv, .cores, .ltn])
  | .firmwareStageDone _ => some (noted.and [0x17, 0x1D] [.outbox, .ctl, .fwSram])
  | .firmwareSwitch _ => some (atPort.and [0x07, 0x08, 0x09, 0x0A, 0x0B, 0x0E, 0x0F, 0x12, 0x13, 0x16, 0x17, 0x1B, 0x1D, 0x58] [.sbx, .mmp, .tim, .tly, .ctl, .ink, .crv, .tpi, .hld, .due, .ver, .det, .cur, .rcv, .cores, .ltn])
  | .switchReq => some (noted.and [0x07, 0x08, 0x09, 0x0A, 0x0B, 0x0E, 0x0F, 0x12, 0x13, 0x16, 0x17, 0x1B, 0x58] [.sbx, .mmp, .tim, .tly, .ctl, .ink, .crv, .tpi, .hld, .due, .ver, .det, .cur, .rcv, .cores, .ltn])
  | .firmwareReady _ => some (atPort.and [0x07, 0x08, 0x09, 0x0A, 0x0B, 0x0E, 0x0F, 0x12, 0x13, 0x16, 0x17, 0x1B, 0x1D, 0x58] [.sbx, .mmp, .tim, .tly, .ctl, .ink, .crv, .tpi, .hld, .due, .ver, .det, .cur, .rcv, .cores, .ltn])
  | .firmwareSwitchTimeout => some (noted.and [0x07, 0x08, 0x09, 0x0A, 0x0B, 0x0E, 0x0F, 0x12, 0x13, 0x16, 0x17, 0x58] [.sbx, .mmp, .tim, .tly, .ctl, .ink, .crv, .tpi, .hld, .due, .ver, .det, .cur])
  | .caravanPayload _ _ _ => some (atPort.and [0x07, 0x08, 0x09, 0x0A, 0x0B, 0x0E, 0x0F, 0x12, 0x13, 0x16, 0x17, 0x58] [.sbx, .eop, .mmp, .tim, .tly, .ctl, .ink, .crv, .tpi, .hld, .due, .ver, .det, .cur])
  | .ptpStamps _ _ => some (atPort.and [0x07, 0x08, 0x09, 0x0A, 0x0B, 0x0E, 0x0F, 0x12, 0x13, 0x16, 0x17, 0x58] [.sbx, .eop, .mmp, .tim, .tly, .ctl, .ink, .crv, .tpi, .hld, .due, .ver, .det, .cur])
  | .cwFirmwareOp _ _ _ => some (atPort.and [0x07, 0x08, 0x09, 0x0A, 0x0B, 0x0E, 0x0F, 0x12, 0x13, 0x16, 0x17, 0x58] [.sbx, .eop, .mmp, .tim, .tly, .ctl, .ink, .crv, .tpi, .hld, .due, .ver, .det, .cur])
  | .cwBadOp _ _ => some (atPort.and [0x07, 0x08, 0x09, 0x0A, 0x0B, 0x0E, 0x0F, 0x12, 0x13, 0x16, 0x17, 0x58] [.sbx, .eop, .mmp, .tim, .tly, .ctl, .ink, .crv, .tpi, .hld, .due, .ver, .det, .cur])
  | .modeSwitch _ => some (atPort.and [0x07, 0x08, 0x09, 0x0A, 0x0B, 0x0E, 0x0F, 0x12, 0x13, 0x16, 0x17, 0x1B, 0x1D, 0x58] [.sbx, .mmp, .tim, .tly, .ctl, .ink, .crv, .tpi, .hld, .due, .ver, .det, .cur, .rcv, .cores, .ltn])
  | .modeSwitchFlip _ => some (noted.and [0x00, 0x0F, 0x12, 0x15, 0x17] [.ldg, .mmp, .fbp, .tim, .ctl, .det, .cmp])
  | .modeSwitchTimeout => some (noted.and [0x12, 0x17] [.mmp, .tim, .tly, .ctl, .cmp])
  | .syncSignal _ => some (atPort.and [0x18] [])
  | .syncWait _ _ => some ⟨[0x18], [.rsp, .syn]⟩
  | .syncWaitGrant _ => some ⟨[0x18], [.rsp, .syn]⟩
  | .syncWaitTimeout _ => some (noted.and [0x18] [.rsp, .tim, .tly, .syn])
  | .syncSet _ _ => some (atPort.and [0x18] [])
  | .syncViolation _ => some (atPort.and [0x18] [])
  | .irqPendAck _ _ => some atPort
  | .irqDone _ => some atPort
  | .irqSwSet _ => some atPort
  | .irqMaskWrite _ _ => some atPort
  | .irqHoldoffExpire _ => some ⟨[0x19, 0x1A], [.irq, .tim, .tly, .pwr]⟩
  | .powerStateRequest _ => some (atPort.and [0x02, 0x07, 0x08, 0x09, 0x0A, 0x0B, 0x0E, 0x0F, 0x12, 0x13, 0x16, 0x17, 0x1B, 0x1D, 0x58] [.outbox, .clk, .sbx, .mmp, .ksp, .tim, .tly, .ctl, .ink, .crv, .tpi, .hld, .due, .ver, .det, .cur, .cmp, .rcv, .ltn])
  | .powerAskRetry => some (noted.and [0x07, 0x08, 0x09, 0x0A, 0x0B, 0x0E, 0x0F, 0x12, 0x13, 0x16, 0x17, 0x1B, 0x58] [.sbx, .mmp, .tim, .tly, .ctl, .ink, .crv, .tpi, .hld, .due, .ver, .det, .cur, .cmp, .rcv, .ltn])
  | .powerEntryTimeout => some (noted.and [0x07, 0x08, 0x09, 0x0A, 0x0B, 0x0E, 0x0F, 0x12, 0x13, 0x16, 0x17, 0x1B, 0x58] [.sbx, .mmp, .tim, .tly, .ctl, .ink, .crv, .tpi, .hld, .due, .ver, .det, .cur, .cmp, .rcv, .ltn])
  | .powerHoldComplete => some (noted.and [0x02, 0x07, 0x08, 0x09, 0x0A, 0x0B, 0x0E, 0x0F, 0x12, 0x13, 0x15, 0x16, 0x17, 0x1B, 0x1D, 0x58] [.outbox, .clk, .ldg, .sbx, .mmp, .ksp, .tim, .tly, .ctl, .ink, .crv, .tpi, .hld, .due, .ver, .det, .cur, .cmp, .rcv, .ltn])
  | .coreAck _ => some (atPort.and [0x02, 0x07, 0x08, 0x09, 0x0A, 0x0B, 0x0E, 0x0F, 0x12, 0x13, 0x16, 0x17, 0x1B, 0x1D, 0x58] [.outbox, .clk, .sbx, .mmp, .ksp, .tim, .tly, .ctl, .ink, .crv, .tpi, .hld, .due, .ver, .det, .cur, .cmp, .rcv, .ltn])
  | .wakeEvent _ => some ⟨[0x1A], [.pwr]⟩
  | .wakeTimer => some ⟨[0x1A], [.tim, .tly, .pwr]⟩
  | .powerExitDone => none
  | .stepAsk _ => some (atPort.and [0x02, 0x07, 0x08, 0x09, 0x0A, 0x0B, 0x0E, 0x0F, 0x12, 0x13, 0x16, 0x17, 0x1B, 0x1D, 0x58] [.outbox, .clk, .sbx, .mmp, .ksp, .tim, .tly, .ctl, .ink, .crv, .tpi, .hld, .due, .ver, .det, .cur, .cmp, .rcv, .ltn])
  | .stepHold _ => some (atPort.and [0x02, 0x07, 0x08, 0x09, 0x0A, 0x0B, 0x0E, 0x0F, 0x12, 0x13, 0x16, 0x17, 0x1B, 0x1D, 0x58] [.outbox, .clk, .sbx, .mmp, .ksp, .tim, .tly, .ctl, .ink, .crv, .tpi, .hld, .due, .ver, .det, .cur, .cmp, .rcv, .ltn])
  | .stepGate _ => some (atPort.and [0x02, 0x07, 0x08, 0x09, 0x0A, 0x0B, 0x0E, 0x0F, 0x12, 0x13, 0x16, 0x17, 0x1B, 0x1D, 0x58] [.outbox, .clk, .sbx, .mmp, .ksp, .tim, .tly, .ctl, .ink, .crv, .tpi, .hld, .due, .ver, .det, .cur, .cmp, .rcv, .ltn])
  | .stepRelease _ => some (atPort.and [0x02, 0x07, 0x08, 0x09, 0x0A, 0x0B, 0x0E, 0x0F, 0x12, 0x13, 0x16, 0x17, 0x1B, 0x1D, 0x58] [.outbox, .clk, .sbx, .mmp, .ksp, .tim, .tly, .ctl, .ink, .crv, .tpi, .hld, .due, .ver, .det, .cur, .cmp, .rcv, .ltn])
  | .traceInstruction _ _ _ _ _ => some (noted.and [0x17, 0x1B, 0x1C] [.cores, .ltn, .dbg])
  | .traceArm _ => some (atPort.and [0x1B] [.ltn])
  | .traceSoft _ => some (atPort.and [0x1B] [.ltn])
  | .traceTimeComparator _ => some ⟨[], [.tim, .tly, .ltn]⟩
  | .authInstallStart _ => some (atPort.and [0x17, 0x1B, 0x1C] [.rcv, .cores, .ltn, .dbg])
  | .authData _ => some (atPort.and [0x17, 0x1B, 0x1C] [.rcv, .cores, .ltn, .dbg])
  | .authVerifyDone => some (noted.and [0x1C] [.dbg])
  | .authRevoke _ => some (atPort.and [0x17, 0x1B, 0x1C] [.rcv, .cores, .ltn, .dbg])
  | .authLapse => some (noted.and [0x1C] [.tim, .tly, .dbg])
  | .dbgacc _ _ _ => none
  | .coreHalt _ => some (atPort.and [0x17, 0x1B, 0x1C] [.rcv, .cores, .ltn, .dbg])
  | .coreStep _ _ _ _ _ => some (atPort.and [0x17, 0x1B, 0x1C] [.rcv, .cores, .ltn, .dbg])
  | .coreResume _ => some (atPort.and [0x17, 0x1B, 0x1C] [.rcv, .cores, .ltn, .dbg])
  | .ptpAnnounceReceive _ => some (noted.and [0x06, 0x09] [.sep])
  | .restorePacketReceive => some (noted.and [0x0C, 0x11, 0x18] [.mmp, .fbp, .sram, .tre, .cur])
  | .coldResetAssert => none
  | .kspResetRelease => some ⟨[], [.clk]⟩
  | .sepPcsUp _ => some ⟨[0x06, 0x1A], [.pwr]⟩

end Sys2Proof.Machine
end

