-- ==== Sys2Proof/Certificates/Slice0/Obligations.lean ====
section
/-!
DEFINITION. What is claimed of the block. Each statement cites the rules that it formalises or rests on.
-/
open Sys2Proof Sys2Proof.Machine

/-- A step takes the front of the queue and carries it out with the queue's rest in place; an idle step is one tick (the model's choice, log 1). -/
def Obligations.StepTakesFront : Prop :=
  (∀ (c : Instr) (q : List Instr) (s : State), step { s with pending := c :: q } = exec c { s with pending := q })
  ∧ ∀ s : State, s.pending = [] → step s = .next (tick s)

/-- The state at reset: canonical, with every register at its reset value and nothing stored (R20, R82). -/
def Obligations.ResetIsCanonical : Prop :=
  Canonical State.reset ∧ State.reset.clk.pwron = false ∧ (∀ a, rd State.reset a = regDefault a) ∧ State.reset.pending = []
  ∧ State.reset.outbox = [] ∧ (∀ a, cellAt State.reset.sram a = 0 ∧ cellAt State.reset.fwSram a = 0)
  ∧ State.reset.gbk.queue = [] ∧ State.reset.ldg.queue = [] ∧ State.reset.mmp.wait = [] ∧ State.reset.tly.scheds = []

/-- No command ends in a fault or a refusal. -/
def Obligations.EveryCommandAnswersNext : Prop := ∀ c s, ∃ t, exec c s = .next t

/-- The model's own fields: the queue is not exec's to change, and the outbox and the count of free values only grow. -/
def Obligations.QueueAndOutboxKept : Prop :=
  ∀ c s t, exec c s = .next t → t.pending = s.pending ∧ s.outbox <+: t.outbox ∧ s.freeCtr ≤ t.freeCtr

/-- The canonical form is an invariant of every step, from every state that has it. -/
def Obligations.StepKeepsCanonical : Prop := ∀ s t, step s = .next t → Canonical s → Canonical t

/-- The frame of each command: outside its footprint nothing changes. -/
def Obligations.CommandsStayInFootprint : Prop := ∀ c f s t, footprint c = some f → exec c s = .next t → Outside f s t

/-- A refused write has the effects of its refusal and no others (R19, R119, R120, R729). -/
def Obligations.RefusedWriteHasNoOtherEffect : Prop :=
  ∀ a acc p buf step s, s.clk.stopped = false → s.clk.pwron = true → presented s acc = some p → pwState s ≠ 3 →
    writeCheck (atEdge s p) (offset a) p ≠ 0 → Does (.registerWrite a acc buf step) s fun t =>
      t.rsp = ([0, 3, 3, 1, 2, 2].getD (writeCheck (atEdge s p) (offset a) p) 0, 0) ∧ t.rspTag = p.tag
      ∧ (writeCheck (atEdge s p) (offset a) p = 1 → ∀ b, b / 65536 = 0 → rd t b = rd s b)
      ∧ (writeCheck (atEdge s p) (offset a) p = 2 → get t F.GLB_ERR_STATUS_RSV_WR = 1)
      ∧ (writeCheck (atEdge s p) (offset a) p = 3 → get t F.GLB_ERR_STATUS_PRIV_ERR = 1)
      ∧ (writeCheck (atEdge s p) (offset a) p = 4 → get t F.GLB_ERR_STATUS_HALF_ERR = 1)
      ∧ (writeCheck (atEdge s p) (offset a) p = 5 → get t F.GLB_ERR_STATUS_RWL_ERR = 1)
      ∧ (writeCheck (atEdge s p) (offset a) p ≠ 1 → get t F.GLB_ERR_ADDR_OFFSET = offset a)
      ∧ Records (atEdge s p) t ([0, 5, 1, 2, 4, 3].getD (writeCheck (atEdge s p) (offset a) p) 0) ADVISE (accessPayload (offset a) p)
      ∧ (∀ b, b / 65536 ∉ [0x00, 0x14, 0x15, 0x19, 0x1A] → rd t b = rd s b)
      ∧ ∀ x, x ∉ [StatePart.rsp, .rspTag, .gbk, .ldg, .irq, .pwr] → x.same s t

/-- Software and hardware at one edge (R22, R23, R24), and the event-overrun counter (saturating, R25). -/
def Obligations.SameEdgeRules : Prop :=
  ∀ s a acc r, ∀ f ∈ r.fields, findRow a = some r → a / 65536 ∉ [0x15, 0x19, 0x1A] → pageOf a ∉ [0x15, 0x19, 0x1A] → a ≠ (overrunField (pageOf a)).addr → acc.half = .full →
    (f.acc = .w1c → ∀ i < f.w, acc.hwMask = maskAt (f.lo + i) 1 → acc.hwVal.getLsbD (f.lo + i) = true → acc.data.getLsbD (f.lo + i) = true →
      (rd (perform a acc s) a).getLsbD (f.lo + i) = true
        ∧ get (perform a acc s) (overrunField (pageOf a)) = min (get s (overrunField (pageOf a)) + 1) (2 ^ 32 - 1))
    ∧ (f.acc = .w1s → ∀ i < f.w, acc.hwMask = maskAt (f.lo + i) 1 → acc.hwVal.getLsbD (f.lo + i) = false → acc.data.getLsbD (f.lo + i) = true →
      (rd (perform a acc s) a).getLsbD (f.lo + i) = true
        ∧ get (perform a acc s) (overrunField (pageOf a)) = get s (overrunField (pageOf a)))
    ∧ (f.acc = .rw → 0 < f.w → acc.hwMask = maskAt f.lo f.w →
      bitsAt (rd (perform a acc s) a) f.lo f.w = bitsAt acc.data f.lo f.w
        ∧ get (perform a acc s) (overrunField (pageOf a)) = min (get s (overrunField (pageOf a)) + 1) (2 ^ 32 - 1))

/-- The result rule (R637). `consume` is what every unit does with a write to its result register. -/
def Obligations.ResultConsumption : Prop :=
  (∀ s a acc, isResult a = true →
    (acc.half ≠ .lo → valid s a = true → bitsAt (wdata acc) 48 16 = bitsAt (rd s a) 48 16 →
      valid (consume a acc s) a = false ∧ (∀ i < 64, i ≠ 32 → (rd (consume a acc s) a).getLsbD i = (rd s a).getLsbD i) ∧ (consume a acc s).gbk = s.gbk)
    ∧ (acc.half ≠ .lo → valid s a = true → bitsAt (wdata acc) 48 16 ≠ bitsAt (rd s a) 48 16 →
      rd (consume a acc s) a = rd s a
        ∧ (on s F.GBK_STATUS_RUNNING = true → s.gbk.queue.length ≤ 192 → ∃ r, (consume a acc s).gbk.queue = s.gbk.queue ++ [r]
          ∧ r.code = 6 ∧ r.cls = ADVISE ∧ r.source = pageOf a ∧ r.payload = a))
    ∧ (acc.half = .lo ∨ valid s a = false → consume a acc s = s))
  ∧ (∀ a ∈ [F.CRV_SLOT_RESULT_SEQ.addr, F.CUR_OUT_SEQ.addr, F.FLT_PROBE_RESULT_SEQ.addr, F.KSP_CMD_RESULT_SEQ.addr, F.TIM_SNAP_RESULT_SEQ.addr, F.TRE_MODEL_RESULT_SEQ.addr],
    isResult a = true ∧ ∀ acc p s, Admitted s a acc p → Does (.resultConsume a acc) s fun t => t = consume a p (answer 0 p (atEdge s p)))

/-- The reset levels complete (R9, R82, R84, R576); after a warm reset every fence is open. -/
def Obligations.ResetLevelsComplete : Prop :=
  (∀ chip s, s.clk.pwron = false → Does (.coldReset chip) s fun t =>
    t.clk.pwron = true ∧ get t F.GLB_CHIP_ID_LO_CHIP_ID = chip.toNat % 2 ^ 64 ∧ get t F.GLB_CHIP_ID_HI_CHIP_ID = chip.toNat / 2 ^ 64
      ∧ get t F.CLK_STATUS_LOCKED = 1 ∧ get t F.CLK_DOMAIN_STATUS_IN_RESET = 0x60 ∧ t.pending = s.pending)
  ∧ (∀ s, Does .coldResetAssert s fun t => t = { State.reset with pending := s.pending, outbox := s.outbox, freeCtr := s.freeCtr })
  ∧ (∀ s, s.clk.pwron = true → s.ksp.saveBusy = false → Does .warmReset s fun t =>
    get t F.CLK_STATUS_LAST_RESET = 1 ∧ get t F.CLK_DOMAIN_STATUS_IN_RESET = 0x60 ∧ get t F.CLK_DOMAIN_STATUS_XRST_BUSY = 0xF
      ∧ get t F.RCV_FENCE_BLK_STATE = 0 ∧ get t F.RCV_FENCE_HOST0_STATE = 0 ∧ get t F.RCV_FENCE_HOST1_STATE = 0)
  ∧ (∀ acc p s, Admitted s F.CLK_RST_CTL_WARM.addr (force F.CLK_RST_CTL_WARM 1 acc) p → s.ksp.saveBusy = false → Does (.clkRstWarm acc) s fun t =>
    get t F.CLK_STATUS_LAST_RESET = 2 ∧ get t F.CLK_DOMAIN_STATUS_IN_RESET = 0x60 ∧ get t F.CLK_DOMAIN_STATUS_XRST_BUSY = 0xF
      ∧ get t F.RCV_FENCE_BLK_STATE = 0 ∧ get t F.RCV_FENCE_HOST0_STATE = 0 ∧ get t F.RCV_FENCE_HOST1_STATE = 0)

/-- Chapter 2: domain resets (R85, R86), the clock monitor (R70), gated branches (R68, R69) and crossings (R77, R79, R87). -/
def Obligations.ClockAndCrossingCommandsComplete : Prop :=
  (∀ d acc p s, d < 7 → Admitted s F.CLK_RST_CTL_WARM.addr (force F.CLK_RST_CTL_WARM 0 acc) p → acc.hwMask = 0 →
    (wdata p).toNat % 128 = 2 ^ d → fenceState s d = 3 → get s rstBits = 0 → get s F.CLK_DOMAIN_STATUS_IN_RESET % 2 ^ 7 = 0 →
    Does (.domainResetRequest acc) s fun t => bitOn t F.CLK_DOMAIN_STATUS_IN_RESET d = true ∧ bitOn t rstBits d = true)
  ∧ (∀ d s, s.clk.stopped = false → d < 7 → bitOn s F.CLK_DOMAIN_STATUS_IN_RESET d = true → get s rstBits = 2 ^ d →
    (∀ x ∈ crossingsOf d, crossPhase s x = 0) → Does (.domainResetRelease d) s fun t =>
      bitOn t F.CLK_DOMAIN_STATUS_IN_RESET d = false ∧ bitOn t rstBits d = false)
  ∧ (∀ n s, on s F.CLK_STATUS_MON_EN = true → s.clk.pwron = true → n < 2 ^ 32 → Does (.clkMonWindowEnd n) s fun t =>
    get t F.CLK_MON_COUNT = n
      ∧ (get s F.CLK_MON_LIMIT < max n 134218 - min n 134218 → get t F.CLK_ERR_MON_ALARM = 1 ∧ Records s t 0x0202 FAULT 0))
  ∧ (∀ b s, b < 3 → s.clk.idleGate.testBit b = true → branchIdle s b = true → pwState s = 0 → s.clk.pwron = true →
    Does (.clockBranchGate b) s fun t => t = set s (gateField b) 1)
  ∧ (∀ b s, b < 3 → branchIdle s b = false → pwState s = 0 → Does (.clockBranchRestart b) s fun t => t = set s (gateField b) 0)
  ∧ (∀ x s, x < 4 → s.clk.xphase.length = 4 → s.clk.pwron = true → Does (.hostSideReset x) s fun t =>
    crossPhase t x = 1 ∧ get t (linkField x) = 0 ∧ bitOn t F.CLK_DOMAIN_STATUS_XRST_BUSY x = true)
  ∧ (∀ x s, x < 4 → crossPhase s x = 1 → s.clk.pwron = true → s.clk.stopped = false → s.clk.xphase.length = 4 → Does (.xrstAckSeen x) s fun t =>
    crossPhase t x = 2 ∧ bitOn t F.CLK_DOMAIN_STATUS_XRST_BUSY x = true)
  ∧ (∀ x s, x < 4 → crossPhase s x = 2 → Does (.xrstHandshakeDone x) s fun t =>
    crossPhase t x = 0 ∧ get t (linkField x) = 1 ∧ bitOn t F.CLK_DOMAIN_STATUS_XRST_BUSY x = false
      ∧ get t (resyncField x) = min (get s (resyncField x) + 1) 65535)

/-- The interrupt controller (R657 to R662). The accesses are taken after the Ledger queue has passed a record (`atEdge`). -/
def Obligations.InterruptCommandsComplete : Prop :=
  (∀ w acc p s, w < 16 → Admitted s (F.IRQ_PEND_PEND w).addr acc p → p.half = .full → p.hwMask = 0 → Does (.irqPendAck w acc) s fun t =>
    ∀ i < 64, irqPend t (64 * w + i) = (irqPend (atEdge s p) (64 * w + i) && !(wdata p).getLsbD i)
      ∧ irqActive t (64 * w + i) = (irqActive (atEdge s p) (64 * w + i) || (irqPend (atEdge s p) (64 * w + i) && (wdata p).getLsbD i)))
  ∧ (∀ acc p n s, Admitted s F.IRQ_DONE_SOURCE.addr acc p → bitsAt (wdata p) 0 10 = n → n < nSources (atEdge s p) → irqActive (atEdge s p) n = true →
    Does (.irqDone acc) s fun t => irqActive t n = false ∧ irqPend t n = irqPend (atEdge s p) n)
  ∧ (∀ acc p n s, Admitted s F.IRQ_SW_SET_SOURCE.addr acc p → bitsAt (wdata p) 0 10 = n → 240 ≤ n → n < 256 ∨ pers s ≠ 1 → n < nSources s →
    Does (.irqSwSet acc) s fun t => irqPend t n = true ∧ ∀ m < 1024, m ≠ n → irqPend t m = irqPend (atEdge s p) m)
  ∧ (∀ w acc p s, w < 16 → Admitted s (F.IRQ_MASK_MASK w).addr acc p → p.half = .full → p.hwMask = 0 → Does (.irqMaskWrite w acc) s fun t =>
    t.irq.maskDue.getLast? = some (s.tim.tb2 + 20 * 2 ^ 48, w, wdata p))
  ∧ (∀ g at0 s, g < 64 → look g s.irq.lastRise = some at0 → inReset s 0 = false → g < nGroups s → s.irq.maskDue = [] → groupDriven s g = true →
    Does (.irqHoldoffExpire g) s fun t => bitOn t F.IRQ_GRP_OUT_OUT g = true)

/-- Sync objects (R649 to R655). -/
def Obligations.SyncCommandsComplete : Prop :=
  (∀ acc p c s, Admitted s F.SYN_SIGNAL_OBJECT.addr acc p → p.port = .core c → c < 8 → Does (.syncSignal acc) s fun t =>
    (get s (F.SYN_OBJ_VIEW0_VALUE (bitsAt (wdata p) 0 8)) + bitsAt (wdata p) 8 32 < 2 ^ 32 →
      get t (F.SYN_OBJ_VIEW0_VALUE (bitsAt (wdata p) 0 8)) = get s (F.SYN_OBJ_VIEW0_VALUE (bitsAt (wdata p) 0 8)) + bitsAt (wdata p) 8 32
        ∧ get t (F.SYN_OBJ_VIEW1_LAST_AGENT (bitsAt (wdata p) 0 8)) = c)
    ∧ (2 ^ 32 ≤ get s (F.SYN_OBJ_VIEW0_VALUE (bitsAt (wdata p) 0 8)) + bitsAt (wdata p) 8 32 →
      get t (F.SYN_OBJ_VIEW0_VALUE (bitsAt (wdata p) 0 8)) = get s (F.SYN_OBJ_VIEW0_VALUE (bitsAt (wdata p) 0 8))
        ∧ get t F.SYN_ERR_OVERFLOW = 1 ∧ Records (atEdge s p) t 0x1801 FAULT (bitsAt (wdata p) 0 8 + 256 * c)))
  ∧ (∀ acc p s, Admitted s F.SYN_SIGNAL_OBJECT.addr acc p → p.port = .rgp ∨ p.port = .tap → Does (.syncSignal acc) s fun t =>
    (∀ o, get t (F.SYN_OBJ_VIEW0_VALUE o) = get s (F.SYN_OBJ_VIEW0_VALUE o)) ∧ get t F.SYN_ERR_EXT_SIGNAL = 1
      ∧ Records (atEdge s p) t 0x1803 ADVISE (bitsAt (wdata p) 0 8))
  ∧ (∀ c s, inReset s 0 = false → c < nCores s → (∀ w ∈ s.syn.waits, w.core ≠ c) → Does (.syncWait c (.core c)) s fun t =>
    t.syn.waits = s.syn.waits ++ [{ core := c, obj := get s (F.SYN_WAIT_ARG_OBJECT c), amount := get s (F.SYN_WAIT_ARG_AMOUNT c), start := s.tim.tb2, tmo := get s (F.SYN_WAIT_ARG_TIMEOUT c) }])
  ∧ (∀ o w s, headReady s o = some w → Does (.syncWaitGrant o) s fun t =>
    get t (F.SYN_OBJ_VIEW0_VALUE o) = get s (F.SYN_OBJ_VIEW0_VALUE o) - w.amount ∧ get t (F.SYN_WAIT_GO_GRANTED w.core) = 1
      ∧ t.syn.waits = s.syn.waits.erase w ∧ t.rsp = (0, 1))
  ∧ (∀ c w s, s.syn.waits.find? (fun w => w.core == c) = some w → headReady s w.obj ≠ some w → Does (.syncWaitTimeout c) s fun t =>
    get t (F.SYN_WAIT_GO_GRANTED w.core) = 0 ∧ t.syn.waits = s.syn.waits.erase w ∧ t.rsp = (0, 0) ∧ Records s t 0x1804 ADVISE (w.obj + 256 * c))
  ∧ (∀ o acc p s, o < 256 → Admitted s (F.SYN_OBJ_VIEW2_SET o).addr acc p → p.half = .full → Does (.syncSet o acc) s fun t =>
    get t (F.SYN_OBJ_VIEW0_VALUE o) = bitsAt (wdata p) 0 32 ∧ get t (F.SYN_OBJ_VIEW1_LAST_AGENT o) = 0xFE
      ∧ ∃ r, t.ldg.queue.getLast? = some r ∧ r.kind = 5 ∧ r.target = o ∧ r.old = BitVec.ofNat 64 (get s (F.SYN_OBJ_VIEW0_VALUE o)))
  ∧ (∀ acc p c s, Admitted s F.SYN_VIOLATION_OBJECT.addr acc p → p.port = .core c → Does (.syncViolation acc) s fun t =>
    get t F.SYN_ERR_TASK_END = 1 ∧ Records (atEdge s p) t 0x1802 FAULT (bitsAt (wdata p) 0 8 + 256 * c))
end

