-- ==== Sys2Proof/Laws/State.lean ====
section
/-!
SUPPORT. One lemma for each part of the state and each of the plainest updates: what the update leaves of the part. All are true by `rfl`, so that no
proof unfolds an update of the record.
-/
namespace Sys2Proof.Machine

/-! wr. -/

theorem wr_regs (s : State) (a : Nat) (v : Word) : (wr s a v).regs = store a v s.regs := rfl
@[simp] theorem wr_pending (s : State) (a : Nat) (v : Word) : (wr s a v).pending = s.pending := rfl
@[simp] theorem wr_outbox (s : State) (a : Nat) (v : Word) : (wr s a v).outbox = s.outbox := rfl
@[simp] theorem wr_freeCtr (s : State) (a : Nat) (v : Word) : (wr s a v).freeCtr = s.freeCtr := rfl
@[simp] theorem wr_rsp (s : State) (a : Nat) (v : Word) : (wr s a v).rsp = s.rsp := rfl
@[simp] theorem wr_rspTag (s : State) (a : Nat) (v : Word) : (wr s a v).rspTag = s.rspTag := rfl
@[simp] theorem wr_clk (s : State) (a : Nat) (v : Word) : (wr s a v).clk = s.clk := rfl
@[simp] theorem wr_gbk (s : State) (a : Nat) (v : Word) : (wr s a v).gbk = s.gbk := rfl
@[simp] theorem wr_ldg (s : State) (a : Nat) (v : Word) : (wr s a v).ldg = s.ldg := rfl
@[simp] theorem wr_sbx (s : State) (a : Nat) (v : Word) : (wr s a v).sbx = s.sbx := rfl
@[simp] theorem wr_irq (s : State) (a : Nat) (v : Word) : (wr s a v).irq = s.irq := rfl
@[simp] theorem wr_eop (s : State) (a : Nat) (v : Word) : (wr s a v).eop = s.eop := rfl
@[simp] theorem wr_mmp (s : State) (a : Nat) (v : Word) : (wr s a v).mmp = s.mmp := rfl
@[simp] theorem wr_fbp (s : State) (a : Nat) (v : Word) : (wr s a v).fbp = s.fbp := rfl
@[simp] theorem wr_sep (s : State) (a : Nat) (v : Word) : (wr s a v).sep = s.sep := rfl
@[simp] theorem wr_ksp (s : State) (a : Nat) (v : Word) : (wr s a v).ksp = s.ksp := rfl
@[simp] theorem wr_tim (s : State) (a : Nat) (v : Word) : (wr s a v).tim = s.tim := rfl
@[simp] theorem wr_tly (s : State) (a : Nat) (v : Word) : (wr s a v).tly = s.tly := rfl
@[simp] theorem wr_ctl (s : State) (a : Nat) (v : Word) : (wr s a v).ctl = s.ctl := rfl
@[simp] theorem wr_ink (s : State) (a : Nat) (v : Word) : (wr s a v).ink = s.ink := rfl
@[simp] theorem wr_crv (s : State) (a : Nat) (v : Word) : (wr s a v).crv = s.crv := rfl
@[simp] theorem wr_sram (s : State) (a : Nat) (v : Word) : (wr s a v).sram = s.sram := rfl
@[simp] theorem wr_fwSram (s : State) (a : Nat) (v : Word) : (wr s a v).fwSram = s.fwSram := rfl
@[simp] theorem wr_itn (s : State) (a : Nat) (v : Word) : (wr s a v).itn = s.itn := rfl
@[simp] theorem wr_tpi (s : State) (a : Nat) (v : Word) : (wr s a v).tpi = s.tpi := rfl
@[simp] theorem wr_hld (s : State) (a : Nat) (v : Word) : (wr s a v).hld = s.hld := rfl
@[simp] theorem wr_due (s : State) (a : Nat) (v : Word) : (wr s a v).due = s.due := rfl
@[simp] theorem wr_tre (s : State) (a : Nat) (v : Word) : (wr s a v).tre = s.tre := rfl
@[simp] theorem wr_arr (s : State) (a : Nat) (v : Word) : (wr s a v).arr = s.arr := rfl
@[simp] theorem wr_ver (s : State) (a : Nat) (v : Word) : (wr s a v).ver = s.ver := rfl
@[simp] theorem wr_flt (s : State) (a : Nat) (v : Word) : (wr s a v).flt = s.flt := rfl
@[simp] theorem wr_det (s : State) (a : Nat) (v : Word) : (wr s a v).det = s.det := rfl
@[simp] theorem wr_cur (s : State) (a : Nat) (v : Word) : (wr s a v).cur = s.cur := rfl
@[simp] theorem wr_cmp (s : State) (a : Nat) (v : Word) : (wr s a v).cmp = s.cmp := rfl
@[simp] theorem wr_prt (s : State) (a : Nat) (v : Word) : (wr s a v).prt = s.prt := rfl
@[simp] theorem wr_rcv (s : State) (a : Nat) (v : Word) : (wr s a v).rcv = s.rcv := rfl
@[simp] theorem wr_syn (s : State) (a : Nat) (v : Word) : (wr s a v).syn = s.syn := rfl
@[simp] theorem wr_cores (s : State) (a : Nat) (v : Word) : (wr s a v).cores = s.cores := rfl
@[simp] theorem wr_pwr (s : State) (a : Nat) (v : Word) : (wr s a v).pwr = s.pwr := rfl
@[simp] theorem wr_ltn (s : State) (a : Nat) (v : Word) : (wr s a v).ltn = s.ltn := rfl
@[simp] theorem wr_dbg (s : State) (a : Nat) (v : Word) : (wr s a v).dbg = s.dbg := rfl

/-! set. -/

theorem set_regs (s : State) (f : Field) (x : Nat) : (set s f x).regs = store f.addr (putAt (rd s f.addr) f.lo f.w x) s.regs := rfl
@[simp] theorem set_pending (s : State) (f : Field) (x : Nat) : (set s f x).pending = s.pending := rfl
@[simp] theorem set_outbox (s : State) (f : Field) (x : Nat) : (set s f x).outbox = s.outbox := rfl
@[simp] theorem set_freeCtr (s : State) (f : Field) (x : Nat) : (set s f x).freeCtr = s.freeCtr := rfl
@[simp] theorem set_rsp (s : State) (f : Field) (x : Nat) : (set s f x).rsp = s.rsp := rfl
@[simp] theorem set_rspTag (s : State) (f : Field) (x : Nat) : (set s f x).rspTag = s.rspTag := rfl
@[simp] theorem set_clk (s : State) (f : Field) (x : Nat) : (set s f x).clk = s.clk := rfl
@[simp] theorem set_gbk (s : State) (f : Field) (x : Nat) : (set s f x).gbk = s.gbk := rfl
@[simp] theorem set_ldg (s : State) (f : Field) (x : Nat) : (set s f x).ldg = s.ldg := rfl
@[simp] theorem set_sbx (s : State) (f : Field) (x : Nat) : (set s f x).sbx = s.sbx := rfl
@[simp] theorem set_irq (s : State) (f : Field) (x : Nat) : (set s f x).irq = s.irq := rfl
@[simp] theorem set_eop (s : State) (f : Field) (x : Nat) : (set s f x).eop = s.eop := rfl
@[simp] theorem set_mmp (s : State) (f : Field) (x : Nat) : (set s f x).mmp = s.mmp := rfl
@[simp] theorem set_fbp (s : State) (f : Field) (x : Nat) : (set s f x).fbp = s.fbp := rfl
@[simp] theorem set_sep (s : State) (f : Field) (x : Nat) : (set s f x).sep = s.sep := rfl
@[simp] theorem set_ksp (s : State) (f : Field) (x : Nat) : (set s f x).ksp = s.ksp := rfl
@[simp] theorem set_tim (s : State) (f : Field) (x : Nat) : (set s f x).tim = s.tim := rfl
@[simp] theorem set_tly (s : State) (f : Field) (x : Nat) : (set s f x).tly = s.tly := rfl
@[simp] theorem set_ctl (s : State) (f : Field) (x : Nat) : (set s f x).ctl = s.ctl := rfl
@[simp] theorem set_ink (s : State) (f : Field) (x : Nat) : (set s f x).ink = s.ink := rfl
@[simp] theorem set_crv (s : State) (f : Field) (x : Nat) : (set s f x).crv = s.crv := rfl
@[simp] theorem set_sram (s : State) (f : Field) (x : Nat) : (set s f x).sram = s.sram := rfl
@[simp] theorem set_fwSram (s : State) (f : Field) (x : Nat) : (set s f x).fwSram = s.fwSram := rfl
@[simp] theorem set_itn (s : State) (f : Field) (x : Nat) : (set s f x).itn = s.itn := rfl
@[simp] theorem set_tpi (s : State) (f : Field) (x : Nat) : (set s f x).tpi = s.tpi := rfl
@[simp] theorem set_hld (s : State) (f : Field) (x : Nat) : (set s f x).hld = s.hld := rfl
@[simp] theorem set_due (s : State) (f : Field) (x : Nat) : (set s f x).due = s.due := rfl
@[simp] theorem set_tre (s : State) (f : Field) (x : Nat) : (set s f x).tre = s.tre := rfl
@[simp] theorem set_arr (s : State) (f : Field) (x : Nat) : (set s f x).arr = s.arr := rfl
@[simp] theorem set_ver (s : State) (f : Field) (x : Nat) : (set s f x).ver = s.ver := rfl
@[simp] theorem set_flt (s : State) (f : Field) (x : Nat) : (set s f x).flt = s.flt := rfl
@[simp] theorem set_det (s : State) (f : Field) (x : Nat) : (set s f x).det = s.det := rfl
@[simp] theorem set_cur (s : State) (f : Field) (x : Nat) : (set s f x).cur = s.cur := rfl
@[simp] theorem set_cmp (s : State) (f : Field) (x : Nat) : (set s f x).cmp = s.cmp := rfl
@[simp] theorem set_prt (s : State) (f : Field) (x : Nat) : (set s f x).prt = s.prt := rfl
@[simp] theorem set_rcv (s : State) (f : Field) (x : Nat) : (set s f x).rcv = s.rcv := rfl
@[simp] theorem set_syn (s : State) (f : Field) (x : Nat) : (set s f x).syn = s.syn := rfl
@[simp] theorem set_cores (s : State) (f : Field) (x : Nat) : (set s f x).cores = s.cores := rfl
@[simp] theorem set_pwr (s : State) (f : Field) (x : Nat) : (set s f x).pwr = s.pwr := rfl
@[simp] theorem set_ltn (s : State) (f : Field) (x : Nat) : (set s f x).ltn = s.ltn := rfl
@[simp] theorem set_dbg (s : State) (f : Field) (x : Nat) : (set s f x).dbg = s.dbg := rfl

/-! setBit. -/

@[simp] theorem setBit_pending (s : State) (f : Field) (i : Nat) (b : Bool) : (setBit s f i b).pending = s.pending := rfl
@[simp] theorem setBit_outbox (s : State) (f : Field) (i : Nat) (b : Bool) : (setBit s f i b).outbox = s.outbox := rfl
@[simp] theorem setBit_freeCtr (s : State) (f : Field) (i : Nat) (b : Bool) : (setBit s f i b).freeCtr = s.freeCtr := rfl
@[simp] theorem setBit_rsp (s : State) (f : Field) (i : Nat) (b : Bool) : (setBit s f i b).rsp = s.rsp := rfl
@[simp] theorem setBit_rspTag (s : State) (f : Field) (i : Nat) (b : Bool) : (setBit s f i b).rspTag = s.rspTag := rfl
@[simp] theorem setBit_clk (s : State) (f : Field) (i : Nat) (b : Bool) : (setBit s f i b).clk = s.clk := rfl
@[simp] theorem setBit_gbk (s : State) (f : Field) (i : Nat) (b : Bool) : (setBit s f i b).gbk = s.gbk := rfl
@[simp] theorem setBit_ldg (s : State) (f : Field) (i : Nat) (b : Bool) : (setBit s f i b).ldg = s.ldg := rfl
@[simp] theorem setBit_sbx (s : State) (f : Field) (i : Nat) (b : Bool) : (setBit s f i b).sbx = s.sbx := rfl
@[simp] theorem setBit_irq (s : State) (f : Field) (i : Nat) (b : Bool) : (setBit s f i b).irq = s.irq := rfl
@[simp] theorem setBit_eop (s : State) (f : Field) (i : Nat) (b : Bool) : (setBit s f i b).eop = s.eop := rfl
@[simp] theorem setBit_mmp (s : State) (f : Field) (i : Nat) (b : Bool) : (setBit s f i b).mmp = s.mmp := rfl
@[simp] theorem setBit_fbp (s : State) (f : Field) (i : Nat) (b : Bool) : (setBit s f i b).fbp = s.fbp := rfl
@[simp] theorem setBit_sep (s : State) (f : Field) (i : Nat) (b : Bool) : (setBit s f i b).sep = s.sep := rfl
@[simp] theorem setBit_ksp (s : State) (f : Field) (i : Nat) (b : Bool) : (setBit s f i b).ksp = s.ksp := rfl
@[simp] theorem setBit_tim (s : State) (f : Field) (i : Nat) (b : Bool) : (setBit s f i b).tim = s.tim := rfl
@[simp] theorem setBit_tly (s : State) (f : Field) (i : Nat) (b : Bool) : (setBit s f i b).tly = s.tly := rfl
@[simp] theorem setBit_ctl (s : State) (f : Field) (i : Nat) (b : Bool) : (setBit s f i b).ctl = s.ctl := rfl
@[simp] theorem setBit_ink (s : State) (f : Field) (i : Nat) (b : Bool) : (setBit s f i b).ink = s.ink := rfl
@[simp] theorem setBit_crv (s : State) (f : Field) (i : Nat) (b : Bool) : (setBit s f i b).crv = s.crv := rfl
@[simp] theorem setBit_sram (s : State) (f : Field) (i : Nat) (b : Bool) : (setBit s f i b).sram = s.sram := rfl
@[simp] theorem setBit_fwSram (s : State) (f : Field) (i : Nat) (b : Bool) : (setBit s f i b).fwSram = s.fwSram := rfl
@[simp] theorem setBit_itn (s : State) (f : Field) (i : Nat) (b : Bool) : (setBit s f i b).itn = s.itn := rfl
@[simp] theorem setBit_tpi (s : State) (f : Field) (i : Nat) (b : Bool) : (setBit s f i b).tpi = s.tpi := rfl
@[simp] theorem setBit_hld (s : State) (f : Field) (i : Nat) (b : Bool) : (setBit s f i b).hld = s.hld := rfl
@[simp] theorem setBit_due (s : State) (f : Field) (i : Nat) (b : Bool) : (setBit s f i b).due = s.due := rfl
@[simp] theorem setBit_tre (s : State) (f : Field) (i : Nat) (b : Bool) : (setBit s f i b).tre = s.tre := rfl
@[simp] theorem setBit_arr (s : State) (f : Field) (i : Nat) (b : Bool) : (setBit s f i b).arr = s.arr := rfl
@[simp] theorem setBit_ver (s : State) (f : Field) (i : Nat) (b : Bool) : (setBit s f i b).ver = s.ver := rfl
@[simp] theorem setBit_flt (s : State) (f : Field) (i : Nat) (b : Bool) : (setBit s f i b).flt = s.flt := rfl
@[simp] theorem setBit_det (s : State) (f : Field) (i : Nat) (b : Bool) : (setBit s f i b).det = s.det := rfl
@[simp] theorem setBit_cur (s : State) (f : Field) (i : Nat) (b : Bool) : (setBit s f i b).cur = s.cur := rfl
@[simp] theorem setBit_cmp (s : State) (f : Field) (i : Nat) (b : Bool) : (setBit s f i b).cmp = s.cmp := rfl
@[simp] theorem setBit_prt (s : State) (f : Field) (i : Nat) (b : Bool) : (setBit s f i b).prt = s.prt := rfl
@[simp] theorem setBit_rcv (s : State) (f : Field) (i : Nat) (b : Bool) : (setBit s f i b).rcv = s.rcv := rfl
@[simp] theorem setBit_syn (s : State) (f : Field) (i : Nat) (b : Bool) : (setBit s f i b).syn = s.syn := rfl
@[simp] theorem setBit_cores (s : State) (f : Field) (i : Nat) (b : Bool) : (setBit s f i b).cores = s.cores := rfl
@[simp] theorem setBit_pwr (s : State) (f : Field) (i : Nat) (b : Bool) : (setBit s f i b).pwr = s.pwr := rfl
@[simp] theorem setBit_ltn (s : State) (f : Field) (i : Nat) (b : Bool) : (setBit s f i b).ltn = s.ltn := rfl
@[simp] theorem setBit_dbg (s : State) (f : Field) (i : Nat) (b : Bool) : (setBit s f i b).dbg = s.dbg := rfl

/-! bump. -/

@[simp] theorem bump_pending (s : State) (f : Field) (n : Nat) : (bump s f n).pending = s.pending := rfl
@[simp] theorem bump_outbox (s : State) (f : Field) (n : Nat) : (bump s f n).outbox = s.outbox := rfl
@[simp] theorem bump_freeCtr (s : State) (f : Field) (n : Nat) : (bump s f n).freeCtr = s.freeCtr := rfl
@[simp] theorem bump_rsp (s : State) (f : Field) (n : Nat) : (bump s f n).rsp = s.rsp := rfl
@[simp] theorem bump_rspTag (s : State) (f : Field) (n : Nat) : (bump s f n).rspTag = s.rspTag := rfl
@[simp] theorem bump_clk (s : State) (f : Field) (n : Nat) : (bump s f n).clk = s.clk := rfl
@[simp] theorem bump_gbk (s : State) (f : Field) (n : Nat) : (bump s f n).gbk = s.gbk := rfl
@[simp] theorem bump_ldg (s : State) (f : Field) (n : Nat) : (bump s f n).ldg = s.ldg := rfl
@[simp] theorem bump_sbx (s : State) (f : Field) (n : Nat) : (bump s f n).sbx = s.sbx := rfl
@[simp] theorem bump_irq (s : State) (f : Field) (n : Nat) : (bump s f n).irq = s.irq := rfl
@[simp] theorem bump_eop (s : State) (f : Field) (n : Nat) : (bump s f n).eop = s.eop := rfl
@[simp] theorem bump_mmp (s : State) (f : Field) (n : Nat) : (bump s f n).mmp = s.mmp := rfl
@[simp] theorem bump_fbp (s : State) (f : Field) (n : Nat) : (bump s f n).fbp = s.fbp := rfl
@[simp] theorem bump_sep (s : State) (f : Field) (n : Nat) : (bump s f n).sep = s.sep := rfl
@[simp] theorem bump_ksp (s : State) (f : Field) (n : Nat) : (bump s f n).ksp = s.ksp := rfl
@[simp] theorem bump_tim (s : State) (f : Field) (n : Nat) : (bump s f n).tim = s.tim := rfl
@[simp] theorem bump_tly (s : State) (f : Field) (n : Nat) : (bump s f n).tly = s.tly := rfl
@[simp] theorem bump_ctl (s : State) (f : Field) (n : Nat) : (bump s f n).ctl = s.ctl := rfl
@[simp] theorem bump_ink (s : State) (f : Field) (n : Nat) : (bump s f n).ink = s.ink := rfl
@[simp] theorem bump_crv (s : State) (f : Field) (n : Nat) : (bump s f n).crv = s.crv := rfl
@[simp] theorem bump_sram (s : State) (f : Field) (n : Nat) : (bump s f n).sram = s.sram := rfl
@[simp] theorem bump_fwSram (s : State) (f : Field) (n : Nat) : (bump s f n).fwSram = s.fwSram := rfl
@[simp] theorem bump_itn (s : State) (f : Field) (n : Nat) : (bump s f n).itn = s.itn := rfl
@[simp] theorem bump_tpi (s : State) (f : Field) (n : Nat) : (bump s f n).tpi = s.tpi := rfl
@[simp] theorem bump_hld (s : State) (f : Field) (n : Nat) : (bump s f n).hld = s.hld := rfl
@[simp] theorem bump_due (s : State) (f : Field) (n : Nat) : (bump s f n).due = s.due := rfl
@[simp] theorem bump_tre (s : State) (f : Field) (n : Nat) : (bump s f n).tre = s.tre := rfl
@[simp] theorem bump_arr (s : State) (f : Field) (n : Nat) : (bump s f n).arr = s.arr := rfl
@[simp] theorem bump_ver (s : State) (f : Field) (n : Nat) : (bump s f n).ver = s.ver := rfl
@[simp] theorem bump_flt (s : State) (f : Field) (n : Nat) : (bump s f n).flt = s.flt := rfl
@[simp] theorem bump_det (s : State) (f : Field) (n : Nat) : (bump s f n).det = s.det := rfl
@[simp] theorem bump_cur (s : State) (f : Field) (n : Nat) : (bump s f n).cur = s.cur := rfl
@[simp] theorem bump_cmp (s : State) (f : Field) (n : Nat) : (bump s f n).cmp = s.cmp := rfl
@[simp] theorem bump_prt (s : State) (f : Field) (n : Nat) : (bump s f n).prt = s.prt := rfl
@[simp] theorem bump_rcv (s : State) (f : Field) (n : Nat) : (bump s f n).rcv = s.rcv := rfl
@[simp] theorem bump_syn (s : State) (f : Field) (n : Nat) : (bump s f n).syn = s.syn := rfl
@[simp] theorem bump_cores (s : State) (f : Field) (n : Nat) : (bump s f n).cores = s.cores := rfl
@[simp] theorem bump_pwr (s : State) (f : Field) (n : Nat) : (bump s f n).pwr = s.pwr := rfl
@[simp] theorem bump_ltn (s : State) (f : Field) (n : Nat) : (bump s f n).ltn = s.ltn := rfl
@[simp] theorem bump_dbg (s : State) (f : Field) (n : Nat) : (bump s f n).dbg = s.dbg := rfl

/-! emit. -/

@[simp] theorem emit_regs (s : State) (x : Out) : (emit x s).regs = s.regs := rfl
@[simp] theorem emit_pending (s : State) (x : Out) : (emit x s).pending = s.pending := rfl
@[simp] theorem emit_outbox (s : State) (x : Out) : (emit x s).outbox = s.outbox ++ [x] := rfl
@[simp] theorem emit_freeCtr (s : State) (x : Out) : (emit x s).freeCtr = s.freeCtr := rfl
@[simp] theorem emit_rsp (s : State) (x : Out) : (emit x s).rsp = s.rsp := rfl
@[simp] theorem emit_rspTag (s : State) (x : Out) : (emit x s).rspTag = s.rspTag := rfl
@[simp] theorem emit_clk (s : State) (x : Out) : (emit x s).clk = s.clk := rfl
@[simp] theorem emit_gbk (s : State) (x : Out) : (emit x s).gbk = s.gbk := rfl
@[simp] theorem emit_ldg (s : State) (x : Out) : (emit x s).ldg = s.ldg := rfl
@[simp] theorem emit_sbx (s : State) (x : Out) : (emit x s).sbx = s.sbx := rfl
@[simp] theorem emit_irq (s : State) (x : Out) : (emit x s).irq = s.irq := rfl
@[simp] theorem emit_eop (s : State) (x : Out) : (emit x s).eop = s.eop := rfl
@[simp] theorem emit_mmp (s : State) (x : Out) : (emit x s).mmp = s.mmp := rfl
@[simp] theorem emit_fbp (s : State) (x : Out) : (emit x s).fbp = s.fbp := rfl
@[simp] theorem emit_sep (s : State) (x : Out) : (emit x s).sep = s.sep := rfl
@[simp] theorem emit_ksp (s : State) (x : Out) : (emit x s).ksp = s.ksp := rfl
@[simp] theorem emit_tim (s : State) (x : Out) : (emit x s).tim = s.tim := rfl
@[simp] theorem emit_tly (s : State) (x : Out) : (emit x s).tly = s.tly := rfl
@[simp] theorem emit_ctl (s : State) (x : Out) : (emit x s).ctl = s.ctl := rfl
@[simp] theorem emit_ink (s : State) (x : Out) : (emit x s).ink = s.ink := rfl
@[simp] theorem emit_crv (s : State) (x : Out) : (emit x s).crv = s.crv := rfl
@[simp] theorem emit_sram (s : State) (x : Out) : (emit x s).sram = s.sram := rfl
@[simp] theorem emit_fwSram (s : State) (x : Out) : (emit x s).fwSram = s.fwSram := rfl
@[simp] theorem emit_itn (s : State) (x : Out) : (emit x s).itn = s.itn := rfl
@[simp] theorem emit_tpi (s : State) (x : Out) : (emit x s).tpi = s.tpi := rfl
@[simp] theorem emit_hld (s : State) (x : Out) : (emit x s).hld = s.hld := rfl
@[simp] theorem emit_due (s : State) (x : Out) : (emit x s).due = s.due := rfl
@[simp] theorem emit_tre (s : State) (x : Out) : (emit x s).tre = s.tre := rfl
@[simp] theorem emit_arr (s : State) (x : Out) : (emit x s).arr = s.arr := rfl
@[simp] theorem emit_ver (s : State) (x : Out) : (emit x s).ver = s.ver := rfl
@[simp] theorem emit_flt (s : State) (x : Out) : (emit x s).flt = s.flt := rfl
@[simp] theorem emit_det (s : State) (x : Out) : (emit x s).det = s.det := rfl
@[simp] theorem emit_cur (s : State) (x : Out) : (emit x s).cur = s.cur := rfl
@[simp] theorem emit_cmp (s : State) (x : Out) : (emit x s).cmp = s.cmp := rfl
@[simp] theorem emit_prt (s : State) (x : Out) : (emit x s).prt = s.prt := rfl
@[simp] theorem emit_rcv (s : State) (x : Out) : (emit x s).rcv = s.rcv := rfl
@[simp] theorem emit_syn (s : State) (x : Out) : (emit x s).syn = s.syn := rfl
@[simp] theorem emit_cores (s : State) (x : Out) : (emit x s).cores = s.cores := rfl
@[simp] theorem emit_pwr (s : State) (x : Out) : (emit x s).pwr = s.pwr := rfl
@[simp] theorem emit_ltn (s : State) (x : Out) : (emit x s).ltn = s.ltn := rfl
@[simp] theorem emit_dbg (s : State) (x : Out) : (emit x s).dbg = s.dbg := rfl

/-! tickFree. -/

@[simp] theorem tickFree_regs (s : State) : (tickFree s).regs = s.regs := rfl
@[simp] theorem tickFree_pending (s : State) : (tickFree s).pending = s.pending := rfl
@[simp] theorem tickFree_outbox (s : State) : (tickFree s).outbox = s.outbox := rfl
@[simp] theorem tickFree_freeCtr (s : State) : (tickFree s).freeCtr = s.freeCtr + 1 := rfl
@[simp] theorem tickFree_rsp (s : State) : (tickFree s).rsp = s.rsp := rfl
@[simp] theorem tickFree_rspTag (s : State) : (tickFree s).rspTag = s.rspTag := rfl
@[simp] theorem tickFree_clk (s : State) : (tickFree s).clk = s.clk := rfl
@[simp] theorem tickFree_gbk (s : State) : (tickFree s).gbk = s.gbk := rfl
@[simp] theorem tickFree_ldg (s : State) : (tickFree s).ldg = s.ldg := rfl
@[simp] theorem tickFree_sbx (s : State) : (tickFree s).sbx = s.sbx := rfl
@[simp] theorem tickFree_irq (s : State) : (tickFree s).irq = s.irq := rfl
@[simp] theorem tickFree_eop (s : State) : (tickFree s).eop = s.eop := rfl
@[simp] theorem tickFree_mmp (s : State) : (tickFree s).mmp = s.mmp := rfl
@[simp] theorem tickFree_fbp (s : State) : (tickFree s).fbp = s.fbp := rfl
@[simp] theorem tickFree_sep (s : State) : (tickFree s).sep = s.sep := rfl
@[simp] theorem tickFree_ksp (s : State) : (tickFree s).ksp = s.ksp := rfl
@[simp] theorem tickFree_tim (s : State) : (tickFree s).tim = s.tim := rfl
@[simp] theorem tickFree_tly (s : State) : (tickFree s).tly = s.tly := rfl
@[simp] theorem tickFree_ctl (s : State) : (tickFree s).ctl = s.ctl := rfl
@[simp] theorem tickFree_ink (s : State) : (tickFree s).ink = s.ink := rfl
@[simp] theorem tickFree_crv (s : State) : (tickFree s).crv = s.crv := rfl
@[simp] theorem tickFree_sram (s : State) : (tickFree s).sram = s.sram := rfl
@[simp] theorem tickFree_fwSram (s : State) : (tickFree s).fwSram = s.fwSram := rfl
@[simp] theorem tickFree_itn (s : State) : (tickFree s).itn = s.itn := rfl
@[simp] theorem tickFree_tpi (s : State) : (tickFree s).tpi = s.tpi := rfl
@[simp] theorem tickFree_hld (s : State) : (tickFree s).hld = s.hld := rfl
@[simp] theorem tickFree_due (s : State) : (tickFree s).due = s.due := rfl
@[simp] theorem tickFree_tre (s : State) : (tickFree s).tre = s.tre := rfl
@[simp] theorem tickFree_arr (s : State) : (tickFree s).arr = s.arr := rfl
@[simp] theorem tickFree_ver (s : State) : (tickFree s).ver = s.ver := rfl
@[simp] theorem tickFree_flt (s : State) : (tickFree s).flt = s.flt := rfl
@[simp] theorem tickFree_det (s : State) : (tickFree s).det = s.det := rfl
@[simp] theorem tickFree_cur (s : State) : (tickFree s).cur = s.cur := rfl
@[simp] theorem tickFree_cmp (s : State) : (tickFree s).cmp = s.cmp := rfl
@[simp] theorem tickFree_prt (s : State) : (tickFree s).prt = s.prt := rfl
@[simp] theorem tickFree_rcv (s : State) : (tickFree s).rcv = s.rcv := rfl
@[simp] theorem tickFree_syn (s : State) : (tickFree s).syn = s.syn := rfl
@[simp] theorem tickFree_cores (s : State) : (tickFree s).cores = s.cores := rfl
@[simp] theorem tickFree_pwr (s : State) : (tickFree s).pwr = s.pwr := rfl
@[simp] theorem tickFree_ltn (s : State) : (tickFree s).ltn = s.ltn := rfl
@[simp] theorem tickFree_dbg (s : State) : (tickFree s).dbg = s.dbg := rfl

/-! answer. -/

@[simp] theorem answer_regs (s : State) (st : Nat) (acc : Acc) : (answer st acc s).regs = s.regs := rfl
@[simp] theorem answer_pending (s : State) (st : Nat) (acc : Acc) : (answer st acc s).pending = s.pending := rfl
@[simp] theorem answer_outbox (s : State) (st : Nat) (acc : Acc) : (answer st acc s).outbox = s.outbox := rfl
@[simp] theorem answer_freeCtr (s : State) (st : Nat) (acc : Acc) : (answer st acc s).freeCtr = s.freeCtr := rfl
@[simp] theorem answer_rsp (s : State) (st : Nat) (acc : Acc) : (answer st acc s).rsp = (st, 0) := rfl
@[simp] theorem answer_rspTag (s : State) (st : Nat) (acc : Acc) : (answer st acc s).rspTag = acc.tag := rfl
@[simp] theorem answer_clk (s : State) (st : Nat) (acc : Acc) : (answer st acc s).clk = s.clk := rfl
@[simp] theorem answer_gbk (s : State) (st : Nat) (acc : Acc) : (answer st acc s).gbk = s.gbk := rfl
@[simp] theorem answer_ldg (s : State) (st : Nat) (acc : Acc) : (answer st acc s).ldg = s.ldg := rfl
@[simp] theorem answer_sbx (s : State) (st : Nat) (acc : Acc) : (answer st acc s).sbx = s.sbx := rfl
@[simp] theorem answer_irq (s : State) (st : Nat) (acc : Acc) : (answer st acc s).irq = s.irq := rfl
@[simp] theorem answer_eop (s : State) (st : Nat) (acc : Acc) : (answer st acc s).eop = s.eop := rfl
@[simp] theorem answer_mmp (s : State) (st : Nat) (acc : Acc) : (answer st acc s).mmp = s.mmp := rfl
@[simp] theorem answer_fbp (s : State) (st : Nat) (acc : Acc) : (answer st acc s).fbp = s.fbp := rfl
@[simp] theorem answer_sep (s : State) (st : Nat) (acc : Acc) : (answer st acc s).sep = s.sep := rfl
@[simp] theorem answer_ksp (s : State) (st : Nat) (acc : Acc) : (answer st acc s).ksp = s.ksp := rfl
@[simp] theorem answer_tim (s : State) (st : Nat) (acc : Acc) : (answer st acc s).tim = s.tim := rfl
@[simp] theorem answer_tly (s : State) (st : Nat) (acc : Acc) : (answer st acc s).tly = s.tly := rfl
@[simp] theorem answer_ctl (s : State) (st : Nat) (acc : Acc) : (answer st acc s).ctl = s.ctl := rfl
@[simp] theorem answer_ink (s : State) (st : Nat) (acc : Acc) : (answer st acc s).ink = s.ink := rfl
@[simp] theorem answer_crv (s : State) (st : Nat) (acc : Acc) : (answer st acc s).crv = s.crv := rfl
@[simp] theorem answer_sram (s : State) (st : Nat) (acc : Acc) : (answer st acc s).sram = s.sram := rfl
@[simp] theorem answer_fwSram (s : State) (st : Nat) (acc : Acc) : (answer st acc s).fwSram = s.fwSram := rfl
@[simp] theorem answer_itn (s : State) (st : Nat) (acc : Acc) : (answer st acc s).itn = s.itn := rfl
@[simp] theorem answer_tpi (s : State) (st : Nat) (acc : Acc) : (answer st acc s).tpi = s.tpi := rfl
@[simp] theorem answer_hld (s : State) (st : Nat) (acc : Acc) : (answer st acc s).hld = s.hld := rfl
@[simp] theorem answer_due (s : State) (st : Nat) (acc : Acc) : (answer st acc s).due = s.due := rfl
@[simp] theorem answer_tre (s : State) (st : Nat) (acc : Acc) : (answer st acc s).tre = s.tre := rfl
@[simp] theorem answer_arr (s : State) (st : Nat) (acc : Acc) : (answer st acc s).arr = s.arr := rfl
@[simp] theorem answer_ver (s : State) (st : Nat) (acc : Acc) : (answer st acc s).ver = s.ver := rfl
@[simp] theorem answer_flt (s : State) (st : Nat) (acc : Acc) : (answer st acc s).flt = s.flt := rfl
@[simp] theorem answer_det (s : State) (st : Nat) (acc : Acc) : (answer st acc s).det = s.det := rfl
@[simp] theorem answer_cur (s : State) (st : Nat) (acc : Acc) : (answer st acc s).cur = s.cur := rfl
@[simp] theorem answer_cmp (s : State) (st : Nat) (acc : Acc) : (answer st acc s).cmp = s.cmp := rfl
@[simp] theorem answer_prt (s : State) (st : Nat) (acc : Acc) : (answer st acc s).prt = s.prt := rfl
@[simp] theorem answer_rcv (s : State) (st : Nat) (acc : Acc) : (answer st acc s).rcv = s.rcv := rfl
@[simp] theorem answer_syn (s : State) (st : Nat) (acc : Acc) : (answer st acc s).syn = s.syn := rfl
@[simp] theorem answer_cores (s : State) (st : Nat) (acc : Acc) : (answer st acc s).cores = s.cores := rfl
@[simp] theorem answer_pwr (s : State) (st : Nat) (acc : Acc) : (answer st acc s).pwr = s.pwr := rfl
@[simp] theorem answer_ltn (s : State) (st : Nat) (acc : Acc) : (answer st acc s).ltn = s.ltn := rfl
@[simp] theorem answer_dbg (s : State) (st : Nat) (acc : Acc) : (answer st acc s).dbg = s.dbg := rfl

/-! setClk. -/

@[simp] theorem setClk_regs (s : State) (x : ClkSt) : (setClk x s).regs = s.regs := rfl
@[simp] theorem setClk_pending (s : State) (x : ClkSt) : (setClk x s).pending = s.pending := rfl
@[simp] theorem setClk_outbox (s : State) (x : ClkSt) : (setClk x s).outbox = s.outbox := rfl
@[simp] theorem setClk_freeCtr (s : State) (x : ClkSt) : (setClk x s).freeCtr = s.freeCtr := rfl
@[simp] theorem setClk_rsp (s : State) (x : ClkSt) : (setClk x s).rsp = s.rsp := rfl
@[simp] theorem setClk_rspTag (s : State) (x : ClkSt) : (setClk x s).rspTag = s.rspTag := rfl
@[simp] theorem setClk_clk (s : State) (x : ClkSt) : (setClk x s).clk = x := rfl
@[simp] theorem setClk_gbk (s : State) (x : ClkSt) : (setClk x s).gbk = s.gbk := rfl
@[simp] theorem setClk_ldg (s : State) (x : ClkSt) : (setClk x s).ldg = s.ldg := rfl
@[simp] theorem setClk_sbx (s : State) (x : ClkSt) : (setClk x s).sbx = s.sbx := rfl
@[simp] theorem setClk_irq (s : State) (x : ClkSt) : (setClk x s).irq = s.irq := rfl
@[simp] theorem setClk_eop (s : State) (x : ClkSt) : (setClk x s).eop = s.eop := rfl
@[simp] theorem setClk_mmp (s : State) (x : ClkSt) : (setClk x s).mmp = s.mmp := rfl
@[simp] theorem setClk_fbp (s : State) (x : ClkSt) : (setClk x s).fbp = s.fbp := rfl
@[simp] theorem setClk_sep (s : State) (x : ClkSt) : (setClk x s).sep = s.sep := rfl
@[simp] theorem setClk_ksp (s : State) (x : ClkSt) : (setClk x s).ksp = s.ksp := rfl
@[simp] theorem setClk_tim (s : State) (x : ClkSt) : (setClk x s).tim = s.tim := rfl
@[simp] theorem setClk_tly (s : State) (x : ClkSt) : (setClk x s).tly = s.tly := rfl
@[simp] theorem setClk_ctl (s : State) (x : ClkSt) : (setClk x s).ctl = s.ctl := rfl
@[simp] theorem setClk_ink (s : State) (x : ClkSt) : (setClk x s).ink = s.ink := rfl
@[simp] theorem setClk_crv (s : State) (x : ClkSt) : (setClk x s).crv = s.crv := rfl
@[simp] theorem setClk_sram (s : State) (x : ClkSt) : (setClk x s).sram = s.sram := rfl
@[simp] theorem setClk_fwSram (s : State) (x : ClkSt) : (setClk x s).fwSram = s.fwSram := rfl
@[simp] theorem setClk_itn (s : State) (x : ClkSt) : (setClk x s).itn = s.itn := rfl
@[simp] theorem setClk_tpi (s : State) (x : ClkSt) : (setClk x s).tpi = s.tpi := rfl
@[simp] theorem setClk_hld (s : State) (x : ClkSt) : (setClk x s).hld = s.hld := rfl
@[simp] theorem setClk_due (s : State) (x : ClkSt) : (setClk x s).due = s.due := rfl
@[simp] theorem setClk_tre (s : State) (x : ClkSt) : (setClk x s).tre = s.tre := rfl
@[simp] theorem setClk_arr (s : State) (x : ClkSt) : (setClk x s).arr = s.arr := rfl
@[simp] theorem setClk_ver (s : State) (x : ClkSt) : (setClk x s).ver = s.ver := rfl
@[simp] theorem setClk_flt (s : State) (x : ClkSt) : (setClk x s).flt = s.flt := rfl
@[simp] theorem setClk_det (s : State) (x : ClkSt) : (setClk x s).det = s.det := rfl
@[simp] theorem setClk_cur (s : State) (x : ClkSt) : (setClk x s).cur = s.cur := rfl
@[simp] theorem setClk_cmp (s : State) (x : ClkSt) : (setClk x s).cmp = s.cmp := rfl
@[simp] theorem setClk_prt (s : State) (x : ClkSt) : (setClk x s).prt = s.prt := rfl
@[simp] theorem setClk_rcv (s : State) (x : ClkSt) : (setClk x s).rcv = s.rcv := rfl
@[simp] theorem setClk_syn (s : State) (x : ClkSt) : (setClk x s).syn = s.syn := rfl
@[simp] theorem setClk_cores (s : State) (x : ClkSt) : (setClk x s).cores = s.cores := rfl
@[simp] theorem setClk_pwr (s : State) (x : ClkSt) : (setClk x s).pwr = s.pwr := rfl
@[simp] theorem setClk_ltn (s : State) (x : ClkSt) : (setClk x s).ltn = s.ltn := rfl
@[simp] theorem setClk_dbg (s : State) (x : ClkSt) : (setClk x s).dbg = s.dbg := rfl

/-! An update of other parts leaves the registers. -/

@[simp] theorem rd_mk (s : State) (a : Nat) (x_pending : List Instr) (x_outbox : List Out) (x_freeCtr : Nat) (x_rsp : Nat × Word) (x_rspTag : Nat) (x_clk : ClkSt) (x_gbk : GbkSt) (x_ldg : LdgSt) (x_sbx : SbxSt) (x_irq : IrqSt) (x_eop : EopSt) (x_mmp : MmpSt) (x_fbp : FbpSt) (x_sep : SepSt) (x_ksp : KspSt) (x_tim : TimSt) (x_tly : TlySt) (x_ctl : CtlSt) (x_ink : InkSt) (x_crv : CrvSt) (x_sram : List Host.Cell) (x_fwSram : List Host.Cell) (x_itn : ItnSt) (x_tpi : TpiSt) (x_hld : HoldSt) (x_due : List Due) (x_tre : TreSt) (x_arr : ArrSt) (x_ver : VerSt) (x_flt : FltSt) (x_det : List (Nat × DetSt)) (x_cur : CurSt) (x_cmp : CmpSt) (x_prt : PrtSt) (x_rcv : RcvSt) (x_syn : SynSt) (x_cores : List (Nat × Core)) (x_pwr : PwrSt) (x_ltn : LtnSt) (x_dbg : DbgSt) :
    rd (State.mk s.regs x_pending x_outbox x_freeCtr x_rsp x_rspTag x_clk x_gbk x_ldg x_sbx x_irq x_eop x_mmp x_fbp x_sep x_ksp x_tim x_tly x_ctl x_ink x_crv x_sram x_fwSram x_itn x_tpi x_hld x_due x_tre x_arr x_ver x_flt x_det x_cur x_cmp x_prt x_rcv x_syn x_cores x_pwr x_ltn x_dbg) a = rd s a := rfl
@[simp] theorem get_mk (s : State) (g : Field) (x_pending : List Instr) (x_outbox : List Out) (x_freeCtr : Nat) (x_rsp : Nat × Word) (x_rspTag : Nat) (x_clk : ClkSt) (x_gbk : GbkSt) (x_ldg : LdgSt) (x_sbx : SbxSt) (x_irq : IrqSt) (x_eop : EopSt) (x_mmp : MmpSt) (x_fbp : FbpSt) (x_sep : SepSt) (x_ksp : KspSt) (x_tim : TimSt) (x_tly : TlySt) (x_ctl : CtlSt) (x_ink : InkSt) (x_crv : CrvSt) (x_sram : List Host.Cell) (x_fwSram : List Host.Cell) (x_itn : ItnSt) (x_tpi : TpiSt) (x_hld : HoldSt) (x_due : List Due) (x_tre : TreSt) (x_arr : ArrSt) (x_ver : VerSt) (x_flt : FltSt) (x_det : List (Nat × DetSt)) (x_cur : CurSt) (x_cmp : CmpSt) (x_prt : PrtSt) (x_rcv : RcvSt) (x_syn : SynSt) (x_cores : List (Nat × Core)) (x_pwr : PwrSt) (x_ltn : LtnSt) (x_dbg : DbgSt) :
    get (State.mk s.regs x_pending x_outbox x_freeCtr x_rsp x_rspTag x_clk x_gbk x_ldg x_sbx x_irq x_eop x_mmp x_fbp x_sep x_ksp x_tim x_tly x_ctl x_ink x_crv x_sram x_fwSram x_itn x_tpi x_hld x_due x_tre x_arr x_ver x_flt x_det x_cur x_cmp x_prt x_rcv x_syn x_cores x_pwr x_ltn x_dbg) g = get s g := rfl

end Sys2Proof.Machine
end

