-- ==== Sys2Proof/Laws/Memory.lean ====
section
/-!
SUPPORT. Laws of the sorted tables (`look`, `store`, `dropKeys`), of the register store (`rd`, `wr`, `get`, `set`) and of the memories (`putCell`,
`putCells`, `cellAt`): what is read after a write, and that the canonical form is kept.
-/
namespace Sys2Proof.Machine

/-! Sorted tables. -/

@[simp] theorem look_store_same {α : Type} (k : Nat) (v : α) (l : List (Nat × α)) : look k (store k v l) = some v := by
  induction l with
  | nil => simp [store, look]
  | cons e t ih =>
    obtain ⟨j, w⟩ := e
    unfold store
    split
    · simp [look]
    · split
      · simp [look]
      · simp_all [look]

theorem look_store_other {α : Type} {k j : Nat} (h : j ≠ k) (v : α) (l : List (Nat × α)) : look j (store k v l) = look j l := by
  induction l with
  | nil => simp [store, look, Ne.symm h]
  | cons e t ih =>
    obtain ⟨i, w⟩ := e
    unfold store
    split
    · simp [look, Ne.symm h]
    · split
      · next hk => subst hk; simp [look, Ne.symm h]
      · simp [look, ih]

theorem store_keys {α : Type} (k : Nat) (v : α) (l : List (Nat × α)) : ∀ x ∈ (store k v l).map Prod.fst, x = k ∨ x ∈ l.map Prod.fst := by
  induction l with
  | nil => simp [store]
  | cons e t ih =>
    obtain ⟨j, w⟩ := e
    unfold store
    split
    · simp
    · split
      · simp; tauto
      · intro x hx
        simp only [List.map_cons, List.mem_cons] at hx ⊢
        rcases hx with hx | hx
        · exact .inr (.inl hx)
        · rcases ih x hx with h | h
          · exact .inl h
          · exact .inr (.inr h)

theorem keysRise_store {α : Type} (k : Nat) (v : α) {l : List (Nat × α)} (h : keysRise l) : keysRise (store k v l) := by
  unfold keysRise at *
  induction l with
  | nil => simp [store]
  | cons e t ih =>
    obtain ⟨j, w⟩ := e
    simp only [List.map_cons, List.pairwise_cons] at h
    unfold store
    split
    · next hk =>
      simp only [List.map_cons, List.pairwise_cons, List.mem_cons]
      refine ⟨?_, h.1, h.2⟩
      rintro x (rfl | hx)
      · exact hk
      · exact lt_trans hk (h.1 x hx)
    · split
      · next hk => subst hk; simpa using h
      · next h1 h2 =>
        simp only [List.map_cons, List.pairwise_cons]
        refine ⟨fun x hx => ?_, ih h.2⟩
        rcases store_keys k v t x hx with rfl | hx
        · omega
        · exact h.1 x hx

theorem keysRise_filterMap {α : Type} {f : Nat × α → Option (Nat × α)} (hf : ∀ e e', f e = some e' → e'.1 = e.1) {l : List (Nat × α)}
    (h : keysRise l) : keysRise (l.filterMap f) := by
  unfold keysRise at *
  have hk : ∀ (t : List (Nat × α)), ∀ x ∈ (t.filterMap f).map Prod.fst, x ∈ t.map Prod.fst := by
    intro t x hx
    simp only [List.mem_map, List.mem_filterMap] at hx ⊢
    obtain ⟨e', ⟨e, he, hfe⟩, rfl⟩ := hx
    exact ⟨e, he, (hf e e' hfe).symm⟩
  induction l with
  | nil => simp
  | cons e t ih =>
    simp only [List.map_cons, List.pairwise_cons] at h
    rw [List.filterMap_cons]
    split
    · exact ih h.2
    · next e' he =>
      simp only [List.map_cons, List.pairwise_cons]
      refine ⟨fun x hx => ?_, ih h.2⟩
      rw [hf e e' he]
      exact h.1 x (hk t x hx)

theorem keysRise_dropKeys {α : Type} (p : Nat → Bool) {l : List (Nat × α)} (h : keysRise l) : keysRise (dropKeys p l) := by
  unfold keysRise dropKeys at *
  exact h.sublist (List.Sublist.map _ List.filter_sublist)

/-! The register store. -/

@[simp] theorem rd_wr_same (s : State) (a : Nat) (v : Word) : rd (wr s a v) a = v := by simp [rd, wr]
theorem rd_wr_other {a b : Nat} (h : b ≠ a) (s : State) (v : Word) : rd (wr s a v) b = rd s b := by
  simp [rd, wr, look_store_other h]
theorem rd_wr (s : State) (a b : Nat) (v : Word) : rd (wr s a v) b = if b = a then v else rd s b := by
  split
  · next h => subst h; simp
  · next h => exact rd_wr_other h s v

/-! Memories. -/

theorem cellsFrom_mono {m : List Host.Cell} : ∀ {lo hi : Nat}, lo ≤ hi → cellsFrom (some hi) m = true → cellsFrom (some lo) m = true := by
  intro lo hi h
  cases m with
  | nil => simp [cellsFrom]
  | cons e t =>
    simp only [cellsFrom, Bool.and_eq_true, decide_eq_true_eq]
    rintro ⟨⟨h1, h2⟩, h3⟩
    exact ⟨⟨by omega, h2⟩, h3⟩

theorem cellsFrom_none {m : List Host.Cell} {lo : Nat} (h : cellsFrom (some lo) m = true) : cellsFrom none m = true := by
  cases m with
  | nil => simp [cellsFrom]
  | cons e t =>
    simp only [cellsFrom, Bool.and_eq_true] at h ⊢
    exact ⟨⟨trivial, h.1.2⟩, h.2⟩

theorem cellsFrom_cons {lo : Option Nat} {a : Nat} {b : Byte} {t : List Host.Cell} :
    cellsFrom lo ((a, b) :: t) = true ↔ (∀ l, lo = some l → l < a) ∧ b ≠ 0 ∧ cellsFrom (some a) t = true := by
  cases lo with
  | none => simp [cellsFrom]
  | some l => simp [cellsFrom, and_assoc]

theorem cellsFrom_putCell (a : Nat) (b : Byte) (m : List Host.Cell) :
    ∀ lo, (∀ l, lo = some l → l < a) → cellsFrom lo m = true → cellsFrom lo (putCell a b m) = true := by
  induction m with
  | nil =>
    intro lo hlo _
    unfold putCell
    split
    · rfl
    · next hb => exact cellsFrom_cons.2 ⟨hlo, hb, rfl⟩
  | cons e t ih =>
    intro lo hlo h
    obtain ⟨j, w⟩ := e
    obtain ⟨h1, h2, h3⟩ := cellsFrom_cons.1 h
    unfold putCell
    split
    · next ha =>
      split
      · exact h
      · next hb => exact cellsFrom_cons.2 ⟨hlo, hb, cellsFrom_cons.2 ⟨by rintro l ⟨⟩; exact ha, h2, h3⟩⟩
    · split
      · next h4 h5 =>
        subst h5
        split
        · cases lo with
          | none => exact cellsFrom_none h3
          | some l => exact cellsFrom_mono (le_of_lt (hlo l rfl)) h3
        · next hb => exact cellsFrom_cons.2 ⟨hlo, hb, h3⟩
      · next h4 h5 => exact cellsFrom_cons.2 ⟨h1, h2, ih (some j) (by rintro l ⟨⟩; omega) h3⟩

/-- Storing a byte keeps the canonical form. -/
theorem putCell_wf (a : Nat) (b : Byte) {m : List Host.Cell} (h : Memory.wf m = true) : Memory.wf (putCell a b m) = true :=
  cellsFrom_putCell a b m none (by simp) h

/-- Storing bytes keeps the canonical form. -/
theorem putCells_wf (a : Nat) (bs : List Byte) {m : List Host.Cell} (h : Memory.wf m = true) : Memory.wf (putCells a bs m) = true := by
  induction bs generalizing a m with
  | nil => exact h
  | cons b t ih => exact ih (a + 1) (putCell_wf a b h)

end Sys2Proof.Machine
end

