-- ==== Sys2Proof/Laws/Keeps.lean ====
section
/-!
SUPPORT. `Keeps` (Safety.lean) is a preorder, and what writes one field of the state keeps it: the lemmas from which those of the operations and of
the commands' meanings follow. `f_keeps` says of an operation `f`: a state that `Keeps` reaches still is one after `f`.
-/
namespace Sys2Proof.Machine

theorem Keeps.refl (s : State) : Keeps s s := ⟨rfl, List.prefix_rfl, le_rfl, id⟩

theorem Keeps.trans {a b c : State} (h : Keeps a b) (k : Keeps b c) : Keeps a c :=
  ⟨k.1.trans h.1, h.2.1.trans k.2.1, h.2.2.1.trans k.2.2.1, fun w => k.2.2.2 (h.2.2.2 w)⟩

theorem keeps_mk {o s : State} (x4 : Nat × Word) (x40 : Nat) (x5 : ClkSt) (x6 : GbkSt) (x7 : LdgSt) (x8 : SbxSt) (x9 : IrqSt) (x10 : EopSt) (x11 : MmpSt) (x12 : FbpSt) (x13 : SepSt) (x14 : KspSt) (x15 : TimSt) (x16 : TlySt) (x17 : CtlSt) (x18 : InkSt) (x19 : CrvSt) (x22 : ItnSt) (x23 : TpiSt) (x24 : HoldSt) (x25 : List Due) (x26 : TreSt) (x27 : ArrSt) (x28 : VerSt) (x29 : FltSt) (x30 : List (Nat × DetSt)) (x31 : CurSt) (x32 : CmpSt) (x33 : PrtSt) (x34 : RcvSt) (x35 : SynSt) (x36 : List (Nat × Core)) (x37 : PwrSt) (x38 : LtnSt) (x39 : DbgSt)
    (h : Keeps o s) : Keeps o (State.mk s.regs s.pending s.outbox s.freeCtr x4 x40 x5 x6 x7 x8 x9 x10 x11 x12 x13 x14 x15 x16 x17 x18 x19 s.sram s.fwSram x22 x23 x24 x25 x26 x27 x28 x29 x30 x31 x32 x33 x34 x35 x36 x37 x38 x39) := h

theorem wr_keeps {o s : State} (a : Nat) (v : Word) (h : Keeps o s) : Keeps o (wr s a v) :=
  h.trans ⟨rfl, List.prefix_rfl, le_rfl, fun w => ⟨keysRise_store _ _ w.1, w.2⟩⟩

theorem emit_keeps {o s : State} (x : Out) (h : Keeps o s) : Keeps o (emit x s) :=
  h.trans ⟨rfl, List.prefix_append _ _, le_rfl, id⟩

theorem tickFree_keeps {o s : State} (h : Keeps o s) : Keeps o (tickFree s) := h.trans ⟨rfl, List.prefix_rfl, Nat.le_succ _, id⟩

theorem unreg_keeps {o s : State} (a : Nat) (h : Keeps o s) : Keeps o (unreg a s) :=
  h.trans ⟨rfl, List.prefix_rfl, le_rfl, fun w => ⟨keysRise_dropKeys (· == a) w.1, w.2⟩⟩

theorem keepField_keeps {o s : State} (s' : State) (f : Field) (h : Keeps o s) : Keeps o (keepField s' s f) := wr_keeps _ _ h

theorem resetRegs_keeps {o s : State} (p : Nat → Bool) (h : Keeps o s) : Keeps o (resetRegs p s) :=
  h.trans ⟨rfl, List.prefix_rfl, le_rfl, fun w => ⟨keysRise_filterMap (by
    intro e e' he
    split at he
    · cases he; rfl
    · split at he
      · cases he
      · cases he; rfl) w.1, w.2⟩⟩

theorem partPut_keeps {o s : State} (id off : Nat) (bs : List Byte) (h : Keeps o s) : Keeps o (partPut id off bs s) :=
  h.trans ⟨rfl, List.prefix_rfl, le_rfl, fun w => ⟨w.1, putCells_wf _ _ w.2.1, w.2.2⟩⟩

theorem fwPut_keeps {o s : State} (a : Nat) (bs : List Byte) (h : Keeps o s) : Keeps o (fwPut a bs s) :=
  h.trans ⟨rfl, List.prefix_rfl, le_rfl, fun w => ⟨w.1, w.2.1, putCells_wf _ _ w.2.2⟩⟩

theorem coldAssert_keeps {o s : State} (h : Keeps o s) : Keeps o (coldAssert s) :=
  h.trans ⟨rfl, List.prefix_rfl, le_rfl, fun _ => ⟨.nil, rfl, rfl⟩⟩

theorem foldl_keeps {α : Type} {o s : State} {g : State → α → State} {l : List α} (hg : ∀ t x, Keeps t (g t x)) (h : Keeps o s) :
    Keeps o (l.foldl g s) := by
  induction l generalizing s with
  | nil => exact h
  | cons x t ih => exact ih (h.trans (hg s x))

theorem ite_keeps {o a b : State} {c : Prop} {_ : Decidable c} (ha : Keeps o a) (hb : Keeps o b) : Keeps o (if c then a else b) := by
  split
  · exact ha
  · exact hb


theorem keeps_ver {o s : State} (v : VerSt) (h : Keeps o s) : Keeps o { s with ver := v } := h

theorem keeps_fst {o a : State} {β : Type} {b : β} {p : State × β} (e : p = (a, b)) (h : Keeps o p.1) : Keeps o a := by
  subst e; exact h

theorem foldl1_keeps {α β : Type} {o : State} {r : State × β} {g : State × β → α → State × β} {l : List α} (hg : ∀ r x, Keeps r.1 (g r x).1)
    (h : Keeps o r.1) : Keeps o (l.foldl g r).1 := by
  induction l generalizing r with
  | nil => exact h
  | cons x t ih => exact ih (h.trans (hg r x))

end Sys2Proof.Machine
end

