-- ==== Sys2Proof/Laws/Registers.lean ====
section
/-!
SUPPORT. Laws of fields of registers: `get` after `set`, in the same field, in another field of the same register, and in another register.
-/
namespace Sys2Proof.Machine

theorem maskAt_bit (lo w i : Nat) (hi : i < 64) : (maskAt lo w).getLsbD i = (decide (lo ≤ i) && decide (i < lo + w)) := by
  unfold maskAt
  rw [BitVec.getLsbD_shiftLeft, BitVec.getLsbD_ofNat, Nat.testBit_two_pow_sub_one]
  by_cases h2 : i < lo
  · have : ¬ lo ≤ i := by omega
    simp [h2, this]
  · have h4 : lo ≤ i := by omega
    have h5 : (i - lo < w) = (i < lo + w) := by simp only [eq_iff_iff]; omega
    have h6 : i - lo < 64 := by omega
    simp [hi, h2, h4, h5, h6]

/-- The bits of a word with one field replaced. -/
theorem putAt_bit (v : Word) (lo w x i : Nat) (hi : i < 64) :
    (putAt v lo w x).getLsbD i = if lo ≤ i ∧ i < lo + w then x.testBit (i - lo) else v.getLsbD i := by
  unfold putAt
  rw [BitVec.getLsbD_or, BitVec.getLsbD_and, BitVec.getLsbD_not, maskAt_bit _ _ _ hi, BitVec.getLsbD_shiftLeft, BitVec.getLsbD_ofNat,
    Nat.testBit_mod_two_pow]
  by_cases h2 : lo ≤ i
  · have h6 : i - lo < 64 := by omega
    have h5 : (i - lo < w) = (i < lo + w) := by simp only [eq_iff_iff]; omega
    have h7 : ¬ i < lo := by omega
    by_cases h3 : i < lo + w <;> simp [hi, h2, h3, h5, h6, h7]
  · have h7 : i < lo := by omega
    simp [hi, h2, h7]

/-- The bits of a field as a number. -/
theorem bitsAt_testBit (v : Word) (lo w i : Nat) : (bitsAt v lo w).testBit i = (decide (i < w) && v.getLsbD (lo + i)) := by
  unfold bitsAt
  rw [Nat.testBit_mod_two_pow, Nat.testBit_div_two_pow, BitVec.testBit_toNat, Nat.add_comm]

theorem bitsAt_putAt_same (v : Word) (lo w x : Nat) (h : lo + w ≤ 64) : bitsAt (putAt v lo w x) lo w = x % 2 ^ w := by
  apply Nat.eq_of_testBit_eq
  intro i
  rw [bitsAt_testBit, Nat.testBit_mod_two_pow]
  by_cases hi : i < w
  · rw [putAt_bit _ _ _ _ _ (by omega)]
    simp [hi]
  · simp [hi]

theorem bitsAt_putAt_other (v : Word) (lo w x lo' w' : Nat) (h : lo' + w' ≤ lo ∨ lo + w ≤ lo') (h64 : lo' + w' ≤ 64) :
    bitsAt (putAt v lo w x) lo' w' = bitsAt v lo' w' := by
  apply Nat.eq_of_testBit_eq
  intro i
  rw [bitsAt_testBit, bitsAt_testBit]
  by_cases hi : i < w'
  · rw [putAt_bit _ _ _ _ _ (by omega), if_neg (by omega)]
  · simp [hi]

theorem rd_set_other {f : Field} {a : Nat} (h : a ≠ f.addr) (s : State) (x : Nat) : rd (set s f x) a = rd s a := rd_wr_other h _ _

/-- A field takes the low bits of the number set. -/
theorem get_set_same (s : State) (f : Field) (x : Nat) (h : f.lo + f.w ≤ 64) : get (set s f x) f = x % 2 ^ f.w := by
  simp [get, set, bitsAt_putAt_same _ _ _ _ h]

/-- Setting a field leaves every field of another register, and every other field of its own register, alone. -/
theorem get_set_other (s : State) {f g : Field} (x : Nat) (h : g.addr ≠ f.addr ∨ g.lo + g.w ≤ f.lo ∨ f.lo + f.w ≤ g.lo)
    (h64 : g.lo + g.w ≤ 64) : get (set s f x) g = get s g := by
  rcases eq_or_ne g.addr f.addr with e | e
  · have h' : g.lo + g.w ≤ f.lo ∨ f.lo + f.w ≤ g.lo := by tauto
    simp [get, set, e, bitsAt_putAt_other _ _ _ _ _ _ h' h64]
  · simp [get, set, rd_wr_other e]

theorem get_wr_other (s : State) {a : Nat} {g : Field} (v : Word) (h : g.addr ≠ a) : get (wr s a v) g = get s g := by
  simp [get, rd_wr_other h]
theorem get_wr_same (s : State) (g : Field) (v : Word) : get (wr s g.addr v) g = bitsAt v g.lo g.w := by simp [get]

end Sys2Proof.Machine
end

