-- ==== Sys2Proof/Laws/Touch.lean ====
section
/-!
SUPPORT. `Touch μ o s`: the second state differs from the first at most in the registers of the pages and in the parts that the mask `μ` names. It is a
preorder that grows with the mask; `f_touch` says of an operation `f` which pages and parts it can change, once for all that cite it. `ok_X` and
`off_X` say which mask covers register `X`.
-/
namespace Sys2Proof.Machine
set_option linter.unusedTactic false
set_option linter.unreachableTactic false

/-- What lies between two states of which the second differs from the first at most where the mask `μ` says: bit `64 + p` stands for the registers of
page `p` of the window, bit `i` for part `i` of the state. The queue of commands and the count of free values are not part of it. -/
structure Touch (μ : Nat) (o s : State) : Prop where
  regs : ∀ a, μ.testBit (64 + a / 65536) = false → rd s a = rd o a
  outbox : μ.testBit 2 = false → s.outbox = o.outbox
  rsp : μ.testBit 4 = false → s.rsp = o.rsp
  rspTag : μ.testBit 5 = false → s.rspTag = o.rspTag
  clk : μ.testBit 6 = false → s.clk = o.clk
  gbk : μ.testBit 7 = false → s.gbk = o.gbk
  ldg : μ.testBit 8 = false → s.ldg = o.ldg
  sbx : μ.testBit 9 = false → s.sbx = o.sbx
  irq : μ.testBit 10 = false → s.irq = o.irq
  eop : μ.testBit 11 = false → s.eop = o.eop
  mmp : μ.testBit 12 = false → s.mmp = o.mmp
  fbp : μ.testBit 13 = false → s.fbp = o.fbp
  sep : μ.testBit 14 = false → s.sep = o.sep
  ksp : μ.testBit 15 = false → s.ksp = o.ksp
  tim : μ.testBit 16 = false → s.tim = o.tim
  tly : μ.testBit 17 = false → s.tly = o.tly
  ctl : μ.testBit 18 = false → s.ctl = o.ctl
  ink : μ.testBit 19 = false → s.ink = o.ink
  crv : μ.testBit 20 = false → s.crv = o.crv
  sram : μ.testBit 21 = false → s.sram = o.sram
  fwSram : μ.testBit 22 = false → s.fwSram = o.fwSram
  itn : μ.testBit 23 = false → s.itn = o.itn
  tpi : μ.testBit 24 = false → s.tpi = o.tpi
  hld : μ.testBit 25 = false → s.hld = o.hld
  due : μ.testBit 26 = false → s.due = o.due
  tre : μ.testBit 27 = false → s.tre = o.tre
  arr : μ.testBit 28 = false → s.arr = o.arr
  ver : μ.testBit 29 = false → s.ver = o.ver
  flt : μ.testBit 30 = false → s.flt = o.flt
  det : μ.testBit 31 = false → s.det = o.det
  cur : μ.testBit 32 = false → s.cur = o.cur
  cmp : μ.testBit 33 = false → s.cmp = o.cmp
  prt : μ.testBit 34 = false → s.prt = o.prt
  rcv : μ.testBit 35 = false → s.rcv = o.rcv
  syn : μ.testBit 36 = false → s.syn = o.syn
  cores : μ.testBit 37 = false → s.cores = o.cores
  pwr : μ.testBit 38 = false → s.pwr = o.pwr
  ltn : μ.testBit 39 = false → s.ltn = o.ltn
  dbg : μ.testBit 40 = false → s.dbg = o.dbg

/-- The mask covers the page of an offset and that of its unit, which counts its overruns. -/
def InPages (μ a : Nat) : Prop := 2 ^ (64 + a / 65536) ||| μ = μ ∧ 2 ^ (64 + pageOf a) ||| μ = μ

theorem Touch.refl (μ : Nat) (s : State) : Touch μ s s := by constructor <;> intros <;> rfl

theorem Touch.trans {μ : Nat} {a b c : State} (h : Touch μ a b) (k : Touch μ b c) : Touch μ a c :=
  ⟨fun x e => (k.regs x e).trans (h.regs x e), fun e => (k.outbox e).trans (h.outbox e), fun e => (k.rsp e).trans (h.rsp e), fun e => (k.rspTag e).trans (h.rspTag e), fun e => (k.clk e).trans (h.clk e), fun e => (k.gbk e).trans (h.gbk e), fun e => (k.ldg e).trans (h.ldg e), fun e => (k.sbx e).trans (h.sbx e), fun e => (k.irq e).trans (h.irq e), fun e => (k.eop e).trans (h.eop e), fun e => (k.mmp e).trans (h.mmp e), fun e => (k.fbp e).trans (h.fbp e), fun e => (k.sep e).trans (h.sep e), fun e => (k.ksp e).trans (h.ksp e), fun e => (k.tim e).trans (h.tim e), fun e => (k.tly e).trans (h.tly e), fun e => (k.ctl e).trans (h.ctl e), fun e => (k.ink e).trans (h.ink e), fun e => (k.crv e).trans (h.crv e), fun e => (k.sram e).trans (h.sram e), fun e => (k.fwSram e).trans (h.fwSram e), fun e => (k.itn e).trans (h.itn e), fun e => (k.tpi e).trans (h.tpi e), fun e => (k.hld e).trans (h.hld e), fun e => (k.due e).trans (h.due e), fun e => (k.tre e).trans (h.tre e), fun e => (k.arr e).trans (h.arr e), fun e => (k.ver e).trans (h.ver e), fun e => (k.flt e).trans (h.flt e), fun e => (k.det e).trans (h.det e), fun e => (k.cur e).trans (h.cur e), fun e => (k.cmp e).trans (h.cmp e), fun e => (k.prt e).trans (h.prt e), fun e => (k.rcv e).trans (h.rcv e), fun e => (k.syn e).trans (h.syn e), fun e => (k.cores e).trans (h.cores e), fun e => (k.pwr e).trans (h.pwr e), fun e => (k.ltn e).trans (h.ltn e), fun e => (k.dbg e).trans (h.dbg e)⟩

theorem bit_of_or {i μ : Nat} (h : 2 ^ i ||| μ = μ) : μ.testBit i = true := by
  rw [← h, Nat.testBit_or, Nat.testBit_two_pow_self, Bool.true_or]

theorem or_sub {a b μ : Nat} (h : b ||| μ = μ) (k : a ||| b = b) : a ||| μ = μ := by
  rw [← h, ← Nat.lor_assoc, k]

theorem bit_sub {i k μ : Nat} (h : k ||| μ = μ) (e : μ.testBit i = false) : k.testBit i = false := by
  rw [← h, Nat.testBit_or, Bool.or_eq_false_iff] at e
  exact e.1

theorem Touch.mono {k μ : Nat} {o s : State} (t : Touch k o s) (h : k ||| μ = μ) : Touch μ o s :=
  ⟨fun x e => t.regs x (bit_sub h e), fun e => t.outbox (bit_sub h e), fun e => t.rsp (bit_sub h e), fun e => t.rspTag (bit_sub h e), fun e => t.clk (bit_sub h e), fun e => t.gbk (bit_sub h e), fun e => t.ldg (bit_sub h e), fun e => t.sbx (bit_sub h e), fun e => t.irq (bit_sub h e), fun e => t.eop (bit_sub h e), fun e => t.mmp (bit_sub h e), fun e => t.fbp (bit_sub h e), fun e => t.sep (bit_sub h e), fun e => t.ksp (bit_sub h e), fun e => t.tim (bit_sub h e), fun e => t.tly (bit_sub h e), fun e => t.ctl (bit_sub h e), fun e => t.ink (bit_sub h e), fun e => t.crv (bit_sub h e), fun e => t.sram (bit_sub h e), fun e => t.fwSram (bit_sub h e), fun e => t.itn (bit_sub h e), fun e => t.tpi (bit_sub h e), fun e => t.hld (bit_sub h e), fun e => t.due (bit_sub h e), fun e => t.tre (bit_sub h e), fun e => t.arr (bit_sub h e), fun e => t.ver (bit_sub h e), fun e => t.flt (bit_sub h e), fun e => t.det (bit_sub h e), fun e => t.cur (bit_sub h e), fun e => t.cmp (bit_sub h e), fun e => t.prt (bit_sub h e), fun e => t.rcv (bit_sub h e), fun e => t.syn (bit_sub h e), fun e => t.cores (bit_sub h e), fun e => t.pwr (bit_sub h e), fun e => t.ltn (bit_sub h e), fun e => t.dbg (bit_sub h e)⟩

theorem Touch.step {k μ : Nat} {o s t : State} (h : Touch μ o s) (e : k ||| μ = μ) (w : Touch k s t) : Touch μ o t := h.trans (w.mono e)

theorem part_or {α : Type} {i μ : Nat} {x y : α} (h : 2 ^ i ||| μ = μ ∨ x = y) (e : μ.testBit i = false) : x = y :=
  h.resolve_left fun k => by rw [bit_of_or k] at e; cases e

theorem touch_mk {μ : Nat} {o s : State} (x2 : List Out) (x3 : Nat) (x4 : Nat × Word) (x5 : Nat) (x6 : ClkSt) (x7 : GbkSt) (x8 : LdgSt) (x9 : SbxSt) (x10 : IrqSt) (x11 : EopSt) (x12 : MmpSt) (x13 : FbpSt) (x14 : SepSt) (x15 : KspSt) (x16 : TimSt) (x17 : TlySt) (x18 : CtlSt) (x19 : InkSt) (x20 : CrvSt) (x21 : List Host.Cell) (x22 : List Host.Cell) (x23 : ItnSt) (x24 : TpiSt) (x25 : HoldSt) (x26 : List Due) (x27 : TreSt) (x28 : ArrSt) (x29 : VerSt) (x30 : FltSt) (x31 : List (Nat × DetSt)) (x32 : CurSt) (x33 : CmpSt) (x34 : PrtSt) (x35 : RcvSt) (x36 : SynSt) (x37 : List (Nat × Core)) (x38 : PwrSt) (x39 : LtnSt) (x40 : DbgSt)
    (h : Touch μ o s) (h2 : 0x4 ||| μ = μ ∨ x2 = s.outbox := by first | exact Or.inr rfl | exact Or.inl (by decide)) (h4 : 0x10 ||| μ = μ ∨ x4 = s.rsp := by first | exact Or.inr rfl | exact Or.inl (by decide)) (h5 : 0x20 ||| μ = μ ∨ x5 = s.rspTag := by first | exact Or.inr rfl | exact Or.inl (by decide)) (h6 : 0x40 ||| μ = μ ∨ x6 = s.clk := by first | exact Or.inr rfl | exact Or.inl (by decide)) (h7 : 0x80 ||| μ = μ ∨ x7 = s.gbk := by first | exact Or.inr rfl | exact Or.inl (by decide)) (h8 : 0x100 ||| μ = μ ∨ x8 = s.ldg := by first | exact Or.inr rfl | exact Or.inl (by decide)) (h9 : 0x200 ||| μ = μ ∨ x9 = s.sbx := by first | exact Or.inr rfl | exact Or.inl (by decide)) (h10 : 0x400 ||| μ = μ ∨ x10 = s.irq := by first | exact Or.inr rfl | exact Or.inl (by decide)) (h11 : 0x800 ||| μ = μ ∨ x11 = s.eop := by first | exact Or.inr rfl | exact Or.inl (by decide)) (h12 : 0x1000 ||| μ = μ ∨ x12 = s.mmp := by first | exact Or.inr rfl | exact Or.inl (by decide)) (h13 : 0x2000 ||| μ = μ ∨ x13 = s.fbp := by first | exact Or.inr rfl | exact Or.inl (by decide)) (h14 : 0x4000 ||| μ = μ ∨ x14 = s.sep := by first | exact Or.inr rfl | exact Or.inl (by decide)) (h15 : 0x8000 ||| μ = μ ∨ x15 = s.ksp := by first | exact Or.inr rfl | exact Or.inl (by decide)) (h16 : 0x10000 ||| μ = μ ∨ x16 = s.tim := by first | exact Or.inr rfl | exact Or.inl (by decide)) (h17 : 0x20000 ||| μ = μ ∨ x17 = s.tly := by first | exact Or.inr rfl | exact Or.inl (by decide)) (h18 : 0x40000 ||| μ = μ ∨ x18 = s.ctl := by first | exact Or.inr rfl | exact Or.inl (by decide)) (h19 : 0x80000 ||| μ = μ ∨ x19 = s.ink := by first | exact Or.inr rfl | exact Or.inl (by decide)) (h20 : 0x100000 ||| μ = μ ∨ x20 = s.crv := by first | exact Or.inr rfl | exact Or.inl (by decide)) (h21 : 0x200000 ||| μ = μ ∨ x21 = s.sram := by first | exact Or.inr rfl | exact Or.inl (by decide)) (h22 : 0x400000 ||| μ = μ ∨ x22 = s.fwSram := by first | exact Or.inr rfl | exact Or.inl (by decide)) (h23 : 0x800000 ||| μ = μ ∨ x23 = s.itn := by first | exact Or.inr rfl | exact Or.inl (by decide)) (h24 : 0x1000000 ||| μ = μ ∨ x24 = s.tpi := by first | exact Or.inr rfl | exact Or.inl (by decide)) (h25 : 0x2000000 ||| μ = μ ∨ x25 = s.hld := by first | exact Or.inr rfl | exact Or.inl (by decide)) (h26 : 0x4000000 ||| μ = μ ∨ x26 = s.due := by first | exact Or.inr rfl | exact Or.inl (by decide)) (h27 : 0x8000000 ||| μ = μ ∨ x27 = s.tre := by first | exact Or.inr rfl | exact Or.inl (by decide)) (h28 : 0x10000000 ||| μ = μ ∨ x28 = s.arr := by first | exact Or.inr rfl | exact Or.inl (by decide)) (h29 : 0x20000000 ||| μ = μ ∨ x29 = s.ver := by first | exact Or.inr rfl | exact Or.inl (by decide)) (h30 : 0x40000000 ||| μ = μ ∨ x30 = s.flt := by first | exact Or.inr rfl | exact Or.inl (by decide)) (h31 : 0x80000000 ||| μ = μ ∨ x31 = s.det := by first | exact Or.inr rfl | exact Or.inl (by decide)) (h32 : 0x100000000 ||| μ = μ ∨ x32 = s.cur := by first | exact Or.inr rfl | exact Or.inl (by decide)) (h33 : 0x200000000 ||| μ = μ ∨ x33 = s.cmp := by first | exact Or.inr rfl | exact Or.inl (by decide)) (h34 : 0x400000000 ||| μ = μ ∨ x34 = s.prt := by first | exact Or.inr rfl | exact Or.inl (by decide)) (h35 : 0x800000000 ||| μ = μ ∨ x35 = s.rcv := by first | exact Or.inr rfl | exact Or.inl (by decide)) (h36 : 0x1000000000 ||| μ = μ ∨ x36 = s.syn := by first | exact Or.inr rfl | exact Or.inl (by decide)) (h37 : 0x2000000000 ||| μ = μ ∨ x37 = s.cores := by first | exact Or.inr rfl | exact Or.inl (by decide)) (h38 : 0x4000000000 ||| μ = μ ∨ x38 = s.pwr := by first | exact Or.inr rfl | exact Or.inl (by decide)) (h39 : 0x8000000000 ||| μ = μ ∨ x39 = s.ltn := by first | exact Or.inr rfl | exact Or.inl (by decide)) (h40 : 0x10000000000 ||| μ = μ ∨ x40 = s.dbg := by first | exact Or.inr rfl | exact Or.inl (by decide)) :
    Touch μ o (State.mk s.regs s.pending x2 x3 x4 x5 x6 x7 x8 x9 x10 x11 x12 x13 x14 x15 x16 x17 x18 x19 x20 x21 x22 x23 x24 x25 x26 x27 x28 x29 x30 x31 x32 x33 x34 x35 x36 x37 x38 x39 x40) :=
  h.trans ⟨fun _ _ => rfl, part_or (i := 2) h2, part_or (i := 4) h4, part_or (i := 5) h5, part_or (i := 6) h6, part_or (i := 7) h7, part_or (i := 8) h8, part_or (i := 9) h9, part_or (i := 10) h10, part_or (i := 11) h11, part_or (i := 12) h12, part_or (i := 13) h13, part_or (i := 14) h14, part_or (i := 15) h15, part_or (i := 16) h16, part_or (i := 17) h17, part_or (i := 18) h18, part_or (i := 19) h19, part_or (i := 20) h20, part_or (i := 21) h21, part_or (i := 22) h22, part_or (i := 23) h23, part_or (i := 24) h24, part_or (i := 25) h25, part_or (i := 26) h26, part_or (i := 27) h27, part_or (i := 28) h28, part_or (i := 29) h29, part_or (i := 30) h30, part_or (i := 31) h31, part_or (i := 32) h32, part_or (i := 33) h33, part_or (i := 34) h34, part_or (i := 35) h35, part_or (i := 36) h36, part_or (i := 37) h37, part_or (i := 38) h38, part_or (i := 39) h39, part_or (i := 40) h40⟩

theorem wr_touch {μ : Nat} {o s : State} (a : Nat) (v : Word) (h : Touch μ o s) (ha : InPages μ a) : Touch μ o (wr s a v) :=
  h.trans ⟨fun x e => rd_wr_other (fun c => by subst c; rw [bit_of_or ha.1] at e; cases e) _ _, fun _ => rfl, fun _ => rfl, fun _ => rfl, fun _ => rfl, fun _ => rfl, fun _ => rfl, fun _ => rfl, fun _ => rfl, fun _ => rfl, fun _ => rfl, fun _ => rfl, fun _ => rfl, fun _ => rfl, fun _ => rfl, fun _ => rfl, fun _ => rfl, fun _ => rfl, fun _ => rfl, fun _ => rfl, fun _ => rfl, fun _ => rfl, fun _ => rfl, fun _ => rfl, fun _ => rfl, fun _ => rfl, fun _ => rfl, fun _ => rfl, fun _ => rfl, fun _ => rfl, fun _ => rfl, fun _ => rfl, fun _ => rfl, fun _ => rfl, fun _ => rfl, fun _ => rfl, fun _ => rfl, fun _ => rfl, fun _ => rfl⟩

theorem emit_touch {μ : Nat} {o s : State} (x : Out) (h : Touch μ o s) (hm : 0x4 ||| μ = μ := by decide) : Touch μ o (emit x s) :=
  h.step hm ⟨fun _ _ => rfl, (by intro e; cases e), fun _ => rfl, fun _ => rfl, fun _ => rfl, fun _ => rfl, fun _ => rfl, fun _ => rfl, fun _ => rfl, fun _ => rfl, fun _ => rfl, fun _ => rfl, fun _ => rfl, fun _ => rfl, fun _ => rfl, fun _ => rfl, fun _ => rfl, fun _ => rfl, fun _ => rfl, fun _ => rfl, fun _ => rfl, fun _ => rfl, fun _ => rfl, fun _ => rfl, fun _ => rfl, fun _ => rfl, fun _ => rfl, fun _ => rfl, fun _ => rfl, fun _ => rfl, fun _ => rfl, fun _ => rfl, fun _ => rfl, fun _ => rfl, fun _ => rfl, fun _ => rfl, fun _ => rfl, fun _ => rfl, fun _ => rfl⟩

theorem tickFree_touch {μ : Nat} {o s : State} (h : Touch μ o s) : Touch μ o (tickFree s) :=
  h.trans ⟨fun _ _ => rfl, fun _ => rfl, fun _ => rfl, fun _ => rfl, fun _ => rfl, fun _ => rfl, fun _ => rfl, fun _ => rfl, fun _ => rfl, fun _ => rfl, fun _ => rfl, fun _ => rfl, fun _ => rfl, fun _ => rfl, fun _ => rfl, fun _ => rfl, fun _ => rfl, fun _ => rfl, fun _ => rfl, fun _ => rfl, fun _ => rfl, fun _ => rfl, fun _ => rfl, fun _ => rfl, fun _ => rfl, fun _ => rfl, fun _ => rfl, fun _ => rfl, fun _ => rfl, fun _ => rfl, fun _ => rfl, fun _ => rfl, fun _ => rfl, fun _ => rfl, fun _ => rfl, fun _ => rfl, fun _ => rfl, fun _ => rfl, fun _ => rfl⟩

theorem foldl_touch {α : Type} {μ : Nat} {o s : State} {g : State → α → State} {l : List α} (hg : ∀ t x, Touch μ t (g t x)) (h : Touch μ o s) :
    Touch μ o (l.foldl g s) := by
  induction l generalizing s with
  | nil => exact h
  | cons x t ih => exact ih (h.trans (hg s x))

theorem ite_touch {μ : Nat} {o a b : State} {c : Prop} {_ : Decidable c} (ha : Touch μ o a) (hb : Touch μ o b) : Touch μ o (if c then a else b) := by
  split
  · exact ha
  · exact hb

theorem touch_fst {μ : Nat} {o a : State} {β : Type} {b : β} {p : State × β} (e : p = (a, b)) (h : Touch μ o p.1) : Touch μ o a := by
  subst e; exact h

theorem foldl1_touch {α β : Type} {μ : Nat} {o : State} {r : State × β} {g : State × β → α → State × β} {l : List α} (hg : ∀ r x, Touch μ r.1 (g r x).1)
    (h : Touch μ o r.1) : Touch μ o (l.foldl g r).1 := by
  induction l generalizing r with
  | nil => exact h
  | cons x t ih => exact ih (h.trans (hg r x))

theorem inPages_of {μ a p q : Nat} (h : a / 65536 = p) (g : pageOf (65536 * p) = q) (k : 2 ^ (64 + p) ||| μ = μ) (l : 2 ^ (64 + q) ||| μ = μ) : InPages μ a := by
  have e : pageOf a = pageOf (65536 * p) := by unfold pageOf; rw [h, Nat.mul_div_cancel_left p (by decide)]
  exact ⟨by rw [h]; exact k, by rw [e, g]; exact l⟩

theorem look_dropKeys_other {α : Type} {x a : Nat} (c : x ≠ a) (l : List (Nat × α)) : look x (dropKeys (· == a) l) = look x l := by
  induction l with
  | nil => rfl
  | cons e t ih =>
    obtain ⟨j, v⟩ := e
    unfold dropKeys at ih ⊢
    by_cases hj : j = a
    · subst hj; simp [look, ih, Ne.symm c]
    · by_cases hx : j = x
      · subst hx; simp [look, hj]
      · simp [look, hj, hx, ih]

theorem ok_ARR_AVAIL_AVAIL {μ : Nat} (h : 0x20000000000000000000 ||| μ = μ) : InPages μ F.ARR_AVAIL_AVAIL.addr := ⟨h, h⟩

theorem ok_ARR_CYC_FIELD_CYCLES {μ : Nat} (h : 0x20000000000000000000 ||| μ = μ) : InPages μ F.ARR_CYC_FIELD_CYCLES.addr := ⟨h, h⟩

theorem ok_ARR_CYC_SCORE_CYCLES {μ : Nat} (h : 0x20000000000000000000 ||| μ = μ) : InPages μ F.ARR_CYC_SCORE_CYCLES.addr := ⟨h, h⟩

theorem ok_ARR_CYC_VERIFY_CYCLES {μ : Nat} (h : 0x20000000000000000000 ||| μ = μ) : InPages μ F.ARR_CYC_VERIFY_CYCLES.addr := ⟨h, h⟩

theorem ok_ARR_ERR_ECC {μ : Nat} (h : 0x20000000000000000000 ||| μ = μ) : InPages μ F.ARR_ERR_ECC.addr := ⟨h, h⟩

theorem ok_ARR_ERR_FLOOR_BREACH {μ : Nat} (h : 0x20000000000000000000 ||| μ = μ) : InPages μ F.ARR_ERR_FLOOR_BREACH.addr := ⟨h, h⟩

theorem ok_ARR_ERR_JOB_ERR {μ : Nat} (h : 0x20000000000000000000 ||| μ = μ) : InPages μ F.ARR_ERR_JOB_ERR.addr := ⟨h, h⟩

theorem ok_ARR_ERR_RESIDUE {μ : Nat} (h : 0x20000000000000000000 ||| μ = μ) : InPages μ F.ARR_ERR_RESIDUE.addr := ⟨h, h⟩

theorem ok_ARR_ERR_SLOT_BUSY {μ : Nat} (h : 0x20000000000000000000 ||| μ = μ) : InPages μ F.ARR_ERR_SLOT_BUSY.addr := ⟨h, h⟩

theorem off_ARR_JOB_CTL_GO {μ : Nat} (i : Nat) (h : 0x20000000000000000000 ||| μ = μ) : InPages μ (offset (F.ARR_JOB_CTL_GO i).addr) :=
  inPages_of (p := 0xd) (q := 0xd) (by simp only [F.ARR_JOB_CTL_GO, offset]; omega) rfl h h

theorem ok_ARR_JOB_RESULT_SEQ {μ : Nat} (i : Nat) (h : 0x20000000000000000000 ||| μ = μ) : InPages μ (F.ARR_JOB_RESULT_SEQ i).addr :=
  inPages_of (p := 0xd) (q := 0xd) (by simp only [F.ARR_JOB_RESULT_SEQ]; omega) rfl h h

theorem ok_ARR_JOB_STATS_CYCLES {μ : Nat} (i : Nat) (h : 0x20000000000000000000 ||| μ = μ) : InPages μ (F.ARR_JOB_STATS_CYCLES i).addr :=
  inPages_of (p := 0xd) (q := 0xd) (by simp only [F.ARR_JOB_STATS_CYCLES]; omega) rfl h h

theorem ok_ARR_RES_RESIDUE {μ : Nat} (i : Nat) (h : 0x20000000000000000000 ||| μ = μ) : InPages μ (F.ARR_RES_RESIDUE i).addr :=
  inPages_of (p := 0xd) (q := 0xd) (by simp only [F.ARR_RES_RESIDUE]; omega) rfl h h

theorem ok_ARR_RES_UNCORR {μ : Nat} (i : Nat) (h : 0x20000000000000000000 ||| μ = μ) : InPages μ (F.ARR_RES_UNCORR i).addr :=
  inPages_of (p := 0xd) (q := 0xd) (by simp only [F.ARR_RES_UNCORR]; omega) rfl h h

theorem ok_ARR_RETIRED_RETIRED {μ : Nat} (h : 0x20000000000000000000 ||| μ = μ) : InPages μ F.ARR_RETIRED_RETIRED.addr := ⟨h, h⟩

theorem ok_ARR_SPARE_SPARE {μ : Nat} (h : 0x20000000000000000000 ||| μ = μ) : InPages μ F.ARR_SPARE_SPARE.addr := ⟨h, h⟩

theorem ok_ARR_STATUS_BUSY {μ : Nat} (h : 0x20000000000000000000 ||| μ = μ) : InPages μ F.ARR_STATUS_BUSY.addr := ⟨h, h⟩

theorem ok_CLK_DOMAIN_STATUS_IN_RESET {μ : Nat} (h : 0x40000000000000000 ||| μ = μ) : InPages μ F.CLK_DOMAIN_STATUS_IN_RESET.addr := ⟨h, h⟩

theorem ok_CLK_DOMAIN_STATUS_XRST_BUSY {μ : Nat} (h : 0x40000000000000000 ||| μ = μ) : InPages μ F.CLK_DOMAIN_STATUS_XRST_BUSY.addr := ⟨h, h⟩

theorem ok_CLK_ERR_DOM_RST_REFUSED {μ : Nat} (h : 0x40000000000000000 ||| μ = μ) : InPages μ F.CLK_ERR_DOM_RST_REFUSED.addr := ⟨h, h⟩

theorem ok_CLK_ERR_MON_ALARM {μ : Nat} (h : 0x40000000000000000 ||| μ = μ) : InPages μ F.CLK_ERR_MON_ALARM.addr := ⟨h, h⟩

theorem ok_CLK_GATE_STATUS_ARRAYS {μ : Nat} (h : 0x40000000000000000 ||| μ = μ) : InPages μ F.CLK_GATE_STATUS_ARRAYS.addr := ⟨h, h⟩

theorem ok_CLK_GATE_STATUS_CMP {μ : Nat} (h : 0x40000000000000000 ||| μ = μ) : InPages μ F.CLK_GATE_STATUS_CMP.addr := ⟨h, h⟩

theorem ok_CLK_GATE_STATUS_FCLK_FAB {μ : Nat} (h : 0x40000000000000000 ||| μ = μ) : InPages μ F.CLK_GATE_STATUS_FCLK_FAB.addr := ⟨h, h⟩

theorem ok_CLK_GATE_STATUS_SCLK {μ : Nat} (h : 0x40000000000000000 ||| μ = μ) : InPages μ F.CLK_GATE_STATUS_SCLK.addr := ⟨h, h⟩

theorem ok_CLK_GATE_STATUS_TREE {μ : Nat} (h : 0x40000000000000000 ||| μ = μ) : InPages μ F.CLK_GATE_STATUS_TREE.addr := ⟨h, h⟩

theorem ok_CLK_MON_COUNT {μ : Nat} (h : 0x40000000000000000 ||| μ = μ) : InPages μ F.CLK_MON_COUNT.addr := ⟨h, h⟩

theorem ok_CLK_MON_LIMIT {μ : Nat} (h : 0x40000000000000000 ||| μ = μ) : InPages μ F.CLK_MON_LIMIT.addr := ⟨h, h⟩

theorem ok_CLK_RST_CTL_CTRL {μ : Nat} (h : 0x40000000000000000 ||| μ = μ) : InPages μ F.CLK_RST_CTL_CTRL.addr := ⟨h, h⟩

theorem off_CLK_RST_CTL_WARM {μ : Nat} (h : 0x40000000000000000 ||| μ = μ) : InPages μ (offset F.CLK_RST_CTL_WARM.addr) := ⟨h, h⟩

theorem ok_CLK_STATUS_CCLK_DIV {μ : Nat} (h : 0x40000000000000000 ||| μ = μ) : InPages μ F.CLK_STATUS_CCLK_DIV.addr := ⟨h, h⟩

theorem ok_CLK_STATUS_LAST_RESET {μ : Nat} (h : 0x40000000000000000 ||| μ = μ) : InPages μ F.CLK_STATUS_LAST_RESET.addr := ⟨h, h⟩

theorem ok_CLK_STATUS_MON_EN {μ : Nat} (h : 0x40000000000000000 ||| μ = μ) : InPages μ F.CLK_STATUS_MON_EN.addr := ⟨h, h⟩

theorem ok_CMP_ERR_ECC {μ : Nat} (h : 0x400000000000000000000 ||| μ = μ) : InPages μ F.CMP_ERR_ECC.addr := ⟨h, h⟩

theorem ok_CMP_ERR_JOB_ERR {μ : Nat} (h : 0x400000000000000000000 ||| μ = μ) : InPages μ F.CMP_ERR_JOB_ERR.addr := ⟨h, h⟩

theorem ok_CMP_ERR_OVER_LIMIT {μ : Nat} (h : 0x400000000000000000000 ||| μ = μ) : InPages μ F.CMP_ERR_OVER_LIMIT.addr := ⟨h, h⟩

theorem ok_CMP_ERR_PRT_CFG {μ : Nat} (h : 0x400000000000000000000 ||| μ = μ) : InPages μ F.CMP_ERR_PRT_CFG.addr := ⟨h, h⟩

theorem ok_CMP_ERR_PRT_DESC {μ : Nat} (h : 0x400000000000000000000 ||| μ = μ) : InPages μ F.CMP_ERR_PRT_DESC.addr := ⟨h, h⟩

theorem ok_CMP_ERR_SLOT_BUSY {μ : Nat} (h : 0x400000000000000000000 ||| μ = μ) : InPages μ F.CMP_ERR_SLOT_BUSY.addr := ⟨h, h⟩

theorem ok_CMP_ERR_VERIFY {μ : Nat} (h : 0x400000000000000000000 ||| μ = μ) : InPages μ F.CMP_ERR_VERIFY.addr := ⟨h, h⟩

theorem off_CMP_JOB_CTL_GO {μ : Nat} (i : Nat) (h : 0x400000000000000000000 ||| μ = μ) : InPages μ (offset (F.CMP_JOB_CTL_GO i).addr) :=
  inPages_of (p := 0x12) (q := 0x12) (by simp only [F.CMP_JOB_CTL_GO, offset]; omega) rfl h h

theorem ok_CMP_JOB_IN_IN_USED {μ : Nat} (i : Nat) (h : 0x400000000000000000000 ||| μ = μ) : InPages μ (F.CMP_JOB_IN_IN_USED i).addr :=
  inPages_of (p := 0x12) (q := 0x12) (by simp only [F.CMP_JOB_IN_IN_USED]; omega) rfl h h

theorem ok_CMP_JOB_OUT_OUT_LEN {μ : Nat} (i : Nat) (h : 0x400000000000000000000 ||| μ = μ) : InPages μ (F.CMP_JOB_OUT_OUT_LEN i).addr :=
  inPages_of (p := 0x12) (q := 0x12) (by simp only [F.CMP_JOB_OUT_OUT_LEN]; omega) rfl h h

theorem ok_CMP_JOB_RESULT_SEQ {μ : Nat} (i : Nat) (h : 0x400000000000000000000 ||| μ = μ) : InPages μ (F.CMP_JOB_RESULT_SEQ i).addr :=
  inPages_of (p := 0x12) (q := 0x12) (by simp only [F.CMP_JOB_RESULT_SEQ]; omega) rfl h h

theorem ok_CMP_STATUS_DEC_BUSY {μ : Nat} (h : 0x400000000000000000000 ||| μ = μ) : InPages μ F.CMP_STATUS_DEC_BUSY.addr := ⟨h, h⟩

theorem ok_CMP_STATUS_ENC_B {μ : Nat} (h : 0x400000000000000000000 ||| μ = μ) : InPages μ F.CMP_STATUS_ENC_B.addr := ⟨h, h⟩

theorem ok_CMP_STATUS_ENC_WLOG_MAX {μ : Nat} (h : 0x400000000000000000000 ||| μ = μ) : InPages μ F.CMP_STATUS_ENC_WLOG_MAX.addr := ⟨h, h⟩

theorem ok_CMP_STATUS_QUEUED {μ : Nat} (h : 0x400000000000000000000 ||| μ = μ) : InPages μ F.CMP_STATUS_QUEUED.addr := ⟨h, h⟩

theorem ok_CMP_VFY_CNT_CHECKED {μ : Nat} (h : 0x400000000000000000000 ||| μ = μ) : InPages μ F.CMP_VFY_CNT_CHECKED.addr := ⟨h, h⟩

theorem ok_CMP_VFY_CNT_FALLBACK {μ : Nat} (h : 0x400000000000000000000 ||| μ = μ) : InPages μ F.CMP_VFY_CNT_FALLBACK.addr := ⟨h, h⟩

theorem ok_CRV_CHILD_ADDR_BIT {μ : Nat} (h : 0x4000000000000000000 ||| μ = μ) : InPages μ F.CRV_CHILD_ADDR_BIT.addr := ⟨h, h⟩

theorem ok_CRV_CHILD_DATA_INDEX {μ : Nat} (h : 0x4000000000000000000 ||| μ = μ) : InPages μ F.CRV_CHILD_DATA_INDEX.addr := ⟨h, h⟩

theorem ok_CRV_COARSE_STATUS_EXP {μ : Nat} (h : 0x4000000000000000000 ||| μ = μ) : InPages μ F.CRV_COARSE_STATUS_EXP.addr := ⟨h, h⟩

theorem ok_CRV_ERR_DESC_FULL {μ : Nat} (h : 0x4000000000000000000 ||| μ = μ) : InPages μ F.CRV_ERR_DESC_FULL.addr := ⟨h, h⟩

theorem ok_CRV_ERR_LATE {μ : Nat} (h : 0x4000000000000000000 ||| μ = μ) : InPages μ F.CRV_ERR_LATE.addr := ⟨h, h⟩

theorem ok_CRV_ERR_LOST {μ : Nat} (h : 0x4000000000000000000 ||| μ = μ) : InPages μ F.CRV_ERR_LOST.addr := ⟨h, h⟩

theorem ok_CRV_ERR_NO_SLOT {μ : Nat} (h : 0x4000000000000000000 ||| μ = μ) : InPages μ F.CRV_ERR_NO_SLOT.addr := ⟨h, h⟩

theorem ok_CRV_ERR_OVERTAKE_DROP {μ : Nat} (h : 0x4000000000000000000 ||| μ = μ) : InPages μ F.CRV_ERR_OVERTAKE_DROP.addr := ⟨h, h⟩

theorem ok_CRV_ERR_ROUTE {μ : Nat} (h : 0x4000000000000000000 ||| μ = μ) : InPages μ F.CRV_ERR_ROUTE.addr := ⟨h, h⟩

theorem ok_CRV_ERR_RULE_MISMATCH {μ : Nat} (h : 0x4000000000000000000 ||| μ = μ) : InPages μ F.CRV_ERR_RULE_MISMATCH.addr := ⟨h, h⟩

theorem ok_CRV_ERR_TGA_TMO {μ : Nat} (h : 0x4000000000000000000 ||| μ = μ) : InPages μ F.CRV_ERR_TGA_TMO.addr := ⟨h, h⟩

theorem ok_CRV_PW_HEAD_NEXT {μ : Nat} (h : 0x4000000000000000000 ||| μ = μ) : InPages μ F.CRV_PW_HEAD_NEXT.addr := ⟨h, h⟩

theorem ok_CRV_PW_HEAD_WRAPS {μ : Nat} (h : 0x4000000000000000000 ||| μ = μ) : InPages μ F.CRV_PW_HEAD_WRAPS.addr := ⟨h, h⟩

theorem ok_CRV_PW_SEL_EPOCH {μ : Nat} (h : 0x4000000000000000000 ||| μ = μ) : InPages μ F.CRV_PW_SEL_EPOCH.addr := ⟨h, h⟩

theorem ok_CRV_PW_SEL_SLOT {μ : Nat} (h : 0x4000000000000000000 ||| μ = μ) : InPages μ F.CRV_PW_SEL_SLOT.addr := ⟨h, h⟩

theorem ok_CRV_ROUTE_MODE {μ : Nat} (h : 0x4000000000000000000 ||| μ = μ) : InPages μ F.CRV_ROUTE_MODE.addr := ⟨h, h⟩

theorem off_CRV_ROUTE_MODE {μ : Nat} (h : 0x4000000000000000000 ||| μ = μ) : InPages μ (offset F.CRV_ROUTE_MODE.addr) := ⟨h, h⟩

theorem ok_CRV_SLOT_CMD_START {μ : Nat} (h : 0x4000000000000000000 ||| μ = μ) : InPages μ F.CRV_SLOT_CMD_START.addr := ⟨h, h⟩

theorem off_CRV_SLOT_CMD_START {μ : Nat} (h : 0x4000000000000000000 ||| μ = μ) : InPages μ (offset F.CRV_SLOT_CMD_START.addr) := ⟨h, h⟩

theorem ok_CRV_SLOT_EPOCH_EPOCH {μ : Nat} (h : 0x4000000000000000000 ||| μ = μ) : InPages μ F.CRV_SLOT_EPOCH_EPOCH.addr := ⟨h, h⟩

theorem ok_CRV_SLOT_INFO_STATE {μ : Nat} (h : 0x4000000000000000000 ||| μ = μ) : InPages μ F.CRV_SLOT_INFO_STATE.addr := ⟨h, h⟩

theorem ok_CRV_SLOT_RESULT_SEQ {μ : Nat} (h : 0x4000000000000000000 ||| μ = μ) : InPages μ F.CRV_SLOT_RESULT_SEQ.addr := ⟨h, h⟩

theorem ok_CRV_SLOT_SEL_SLOT {μ : Nat} (h : 0x4000000000000000000 ||| μ = μ) : InPages μ F.CRV_SLOT_SEL_SLOT.addr := ⟨h, h⟩

theorem ok_CRV_SLOT_TIMING_DEADLINE {μ : Nat} (h : 0x4000000000000000000 ||| μ = μ) : InPages μ F.CRV_SLOT_TIMING_DEADLINE.addr := ⟨h, h⟩

theorem ok_CRV_STATUS_DESC_USED {μ : Nat} (h : 0x4000000000000000000 ||| μ = μ) : InPages μ F.CRV_STATUS_DESC_USED.addr := ⟨h, h⟩

theorem ok_CRV_STATUS_SLOTS_ACTIVE {μ : Nat} (h : 0x4000000000000000000 ||| μ = μ) : InPages μ F.CRV_STATUS_SLOTS_ACTIVE.addr := ⟨h, h⟩

theorem ok_CRV_STATUS_TGA_PENDING {μ : Nat} (h : 0x4000000000000000000 ||| μ = μ) : InPages μ F.CRV_STATUS_TGA_PENDING.addr := ⟨h, h⟩

theorem ok_CTL_CW_STATUS_DONE {μ : Nat} (h : 0x8000000000000000000000 ||| μ = μ) : InPages μ F.CTL_CW_STATUS_DONE.addr := ⟨h, h⟩

theorem ok_CTL_CW_STATUS_POSTED {μ : Nat} (h : 0x8000000000000000000000 ||| μ = μ) : InPages μ F.CTL_CW_STATUS_POSTED.addr := ⟨h, h⟩

theorem ok_CTL_ERR_CW_BUSY {μ : Nat} (h : 0x8000000000000000000000 ||| μ = μ) : InPages μ F.CTL_ERR_CW_BUSY.addr := ⟨h, h⟩

theorem ok_CTL_FW_CMD_START {μ : Nat} (h : 0x8000000000000000000000 ||| μ = μ) : InPages μ F.CTL_FW_CMD_START.addr := ⟨h, h⟩

theorem off_CTL_FW_CMD_START {μ : Nat} (h : 0x8000000000000000000000 ||| μ = μ) : InPages μ (offset F.CTL_FW_CMD_START.addr) := ⟨h, h⟩

theorem ok_CTL_FW_INFO_AREA {μ : Nat} (h : 0x8000000000000000000000 ||| μ = μ) : InPages μ F.CTL_FW_INFO_AREA.addr := ⟨h, h⟩

theorem ok_CTL_FW_INFO_SLOT {μ : Nat} (h : 0x8000000000000000000000 ||| μ = μ) : InPages μ F.CTL_FW_INFO_SLOT.addr := ⟨h, h⟩

theorem ok_CTL_FW_INFO_STAGED {μ : Nat} (h : 0x8000000000000000000000 ||| μ = μ) : InPages μ F.CTL_FW_INFO_STAGED.addr := ⟨h, h⟩

theorem off_CTL_FW_READY_READY {μ : Nat} (h : 0x8000000000000000000000 ||| μ = μ) : InPages μ (offset F.CTL_FW_READY_READY.addr) := ⟨h, h⟩

theorem ok_CTL_FW_RESULT_SEQ {μ : Nat} (h : 0x8000000000000000000000 ||| μ = μ) : InPages μ F.CTL_FW_RESULT_SEQ.addr := ⟨h, h⟩

theorem ok_CTL_FW_RESULT_STATUS {μ : Nat} (h : 0x8000000000000000000000 ||| μ = μ) : InPages μ F.CTL_FW_RESULT_STATUS.addr := ⟨h, h⟩

theorem ok_CTL_MODE_CMD_START {μ : Nat} (h : 0x8000000000000000000000 ||| μ = μ) : InPages μ F.CTL_MODE_CMD_START.addr := ⟨h, h⟩

theorem off_CTL_MODE_CMD_START {μ : Nat} (h : 0x8000000000000000000000 ||| μ = μ) : InPages μ (offset F.CTL_MODE_CMD_START.addr) := ⟨h, h⟩

theorem ok_CTL_MODE_RESULT_SEQ {μ : Nat} (h : 0x8000000000000000000000 ||| μ = μ) : InPages μ F.CTL_MODE_RESULT_SEQ.addr := ⟨h, h⟩

theorem ok_CTL_STATUS_FW_STATE {μ : Nat} (h : 0x8000000000000000000000 ||| μ = μ) : InPages μ F.CTL_STATUS_FW_STATE.addr := ⟨h, h⟩

theorem ok_CTL_STATUS_HALTED {μ : Nat} (h : 0x8000000000000000000000 ||| μ = μ) : InPages μ F.CTL_STATUS_HALTED.addr := ⟨h, h⟩

theorem ok_CTL_STATUS_RUNNING {μ : Nat} (h : 0x8000000000000000000000 ||| μ = μ) : InPages μ F.CTL_STATUS_RUNNING.addr := ⟨h, h⟩

theorem ok_CTL_STATUS_SWITCH_REQ {μ : Nat} (h : 0x8000000000000000000000 ||| μ = μ) : InPages μ F.CTL_STATUS_SWITCH_REQ.addr := ⟨h, h⟩

theorem ok_CUR_ERR_CFG_WR {μ : Nat} (h : 0x200000000000000000000 ||| μ = μ) : InPages μ F.CUR_ERR_CFG_WR.addr := ⟨h, h⟩

theorem ok_CUR_ERR_DEADLINE {μ : Nat} (h : 0x200000000000000000000 ||| μ = μ) : InPages μ F.CUR_ERR_DEADLINE.addr := ⟨h, h⟩

theorem ok_CUR_ERR_DEST_FAIL {μ : Nat} (h : 0x200000000000000000000 ||| μ = μ) : InPages μ F.CUR_ERR_DEST_FAIL.addr := ⟨h, h⟩

theorem ok_CUR_ERR_RX_DISCARD {μ : Nat} (h : 0x200000000000000000000 ||| μ = μ) : InPages μ F.CUR_ERR_RX_DISCARD.addr := ⟨h, h⟩

theorem ok_CUR_ERR_TOO_TORN {μ : Nat} (h : 0x200000000000000000000 ||| μ = μ) : InPages μ F.CUR_ERR_TOO_TORN.addr := ⟨h, h⟩

theorem ok_CUR_ERR_UNRECOVERABLE {μ : Nat} (h : 0x200000000000000000000 ||| μ = μ) : InPages μ F.CUR_ERR_UNRECOVERABLE.addr := ⟨h, h⟩

theorem ok_CUR_FRONTIER_OFFSET {μ : Nat} (h : 0x200000000000000000000 ||| μ = μ) : InPages μ F.CUR_FRONTIER_OFFSET.addr := ⟨h, h⟩

theorem ok_CUR_LAST_ID_ID {μ : Nat} (h : 0x200000000000000000000 ||| μ = μ) : InPages μ F.CUR_LAST_ID_ID.addr := ⟨h, h⟩

theorem ok_CUR_LAST_INFO_VALID {μ : Nat} (h : 0x200000000000000000000 ||| μ = μ) : InPages μ F.CUR_LAST_INFO_VALID.addr := ⟨h, h⟩

theorem ok_CUR_NEXT_ID_NEXT_ID {μ : Nat} (h : 0x200000000000000000000 ||| μ = μ) : InPages μ F.CUR_NEXT_ID_NEXT_ID.addr := ⟨h, h⟩

theorem ok_CUR_OUT_SEQ {μ : Nat} (h : 0x200000000000000000000 ||| μ = μ) : InPages μ F.CUR_OUT_SEQ.addr := ⟨h, h⟩

theorem ok_CUR_RX_SRC_LOCKED {μ : Nat} (i : Nat) (h : 0x200000000000000000000 ||| μ = μ) : InPages μ (F.CUR_RX_SRC_LOCKED i).addr :=
  inPages_of (p := 0x11) (q := 0x11) (by simp only [F.CUR_RX_SRC_LOCKED]; omega) rfl h h

theorem ok_CUR_SNAP_CMD_START {μ : Nat} (h : 0x200000000000000000000 ||| μ = μ) : InPages μ F.CUR_SNAP_CMD_START.addr := ⟨h, h⟩

theorem off_CUR_SNAP_CMD_START {μ : Nat} (h : 0x200000000000000000000 ||| μ = μ) : InPages μ (offset F.CUR_SNAP_CMD_START.addr) := ⟨h, h⟩

theorem ok_CUR_SNAP_RESULT_SEQ {μ : Nat} (h : 0x200000000000000000000 ||| μ = μ) : InPages μ F.CUR_SNAP_RESULT_SEQ.addr := ⟨h, h⟩

theorem ok_CUR_STATUS_ACKS {μ : Nat} (h : 0x200000000000000000000 ||| μ = μ) : InPages μ F.CUR_STATUS_ACKS.addr := ⟨h, h⟩

theorem ok_CUR_STATUS_STATE {μ : Nat} (h : 0x200000000000000000000 ||| μ = μ) : InPages μ F.CUR_STATUS_STATE.addr := ⟨h, h⟩

theorem ok_CUR_STATUS_TORN_COUNT {μ : Nat} (h : 0x200000000000000000000 ||| μ = μ) : InPages μ F.CUR_STATUS_TORN_COUNT.addr := ⟨h, h⟩

theorem ok_CW_RDATA0_DATA {μ : Nat} (i : Nat) (h : 0x100000000000000008000000000000000000000 ||| μ = μ) : InPages μ (F.CW_RDATA0_DATA i).addr :=
  inPages_of (p := 0x58) (q := 0x17) (by simp only [F.CW_RDATA0_DATA]; omega) rfl (or_sub h (by decide)) (or_sub h (by decide))

theorem ok_CW_RDATA1_DATA {μ : Nat} (i : Nat) (h : 0x100000000000000008000000000000000000000 ||| μ = μ) : InPages μ (F.CW_RDATA1_DATA i).addr :=
  inPages_of (p := 0x58) (q := 0x17) (by simp only [F.CW_RDATA1_DATA]; omega) rfl (or_sub h (by decide)) (or_sub h (by decide))

theorem ok_CW_RDATA2_DATA {μ : Nat} (i : Nat) (h : 0x100000000000000008000000000000000000000 ||| μ = μ) : InPages μ (F.CW_RDATA2_DATA i).addr :=
  inPages_of (p := 0x58) (q := 0x17) (by simp only [F.CW_RDATA2_DATA]; omega) rfl (or_sub h (by decide)) (or_sub h (by decide))

theorem ok_CW_RESULT_SEQ {μ : Nat} (i : Nat) (h : 0x100000000000000008000000000000000000000 ||| μ = μ) : InPages μ (F.CW_RESULT_SEQ i).addr :=
  inPages_of (p := 0x58) (q := 0x17) (by simp only [F.CW_RESULT_SEQ]; omega) rfl (or_sub h (by decide)) (or_sub h (by decide))

theorem off_DBG_AUTH_CTL_REVOKE {μ : Nat} (h : 0x100000000000000000000000 ||| μ = μ) : InPages μ (offset F.DBG_AUTH_CTL_REVOKE.addr) := ⟨h, h⟩

theorem ok_DBG_AUTH_CTL_START {μ : Nat} (h : 0x100000000000000000000000 ||| μ = μ) : InPages μ F.DBG_AUTH_CTL_START.addr := ⟨h, h⟩

theorem off_DBG_AUTH_CTL_START {μ : Nat} (h : 0x100000000000000000000000 ||| μ = μ) : InPages μ (offset F.DBG_AUTH_CTL_START.addr) := ⟨h, h⟩

theorem off_DBG_AUTH_DATA_DATA {μ : Nat} (h : 0x100000000000000000000000 ||| μ = μ) : InPages μ (offset F.DBG_AUTH_DATA_DATA.addr) := ⟨h, h⟩

theorem ok_DBG_AUTH_INFO_NOT_AFTER {μ : Nat} (h : 0x100000000000000000000000 ||| μ = μ) : InPages μ F.DBG_AUTH_INFO_NOT_AFTER.addr := ⟨h, h⟩

theorem ok_DBG_AUTH_INFO_SCOPE {μ : Nat} (h : 0x100000000000000000000000 ||| μ = μ) : InPages μ F.DBG_AUTH_INFO_SCOPE.addr := ⟨h, h⟩

theorem ok_DBG_AUTH_INFO_STATUS {μ : Nat} (h : 0x100000000000000000000000 ||| μ = μ) : InPages μ F.DBG_AUTH_INFO_STATUS.addr := ⟨h, h⟩

theorem ok_DBG_AUTH_INFO_VALID {μ : Nat} (h : 0x100000000000000000000000 ||| μ = μ) : InPages μ F.DBG_AUTH_INFO_VALID.addr := ⟨h, h⟩

theorem ok_DBG_CORE_CTL_HALT {μ : Nat} (h : 0x100000000000000000000000 ||| μ = μ) : InPages μ F.DBG_CORE_CTL_HALT.addr := ⟨h, h⟩

theorem off_DBG_CORE_CTL_HALT {μ : Nat} (h : 0x100000000000000000000000 ||| μ = μ) : InPages μ (offset F.DBG_CORE_CTL_HALT.addr) := ⟨h, h⟩

theorem ok_DBG_CORE_CTL_HALTED {μ : Nat} (h : 0x100000000000000000000000 ||| μ = μ) : InPages μ F.DBG_CORE_CTL_HALTED.addr := ⟨h, h⟩

theorem off_DBG_CORE_CTL_RESUME {μ : Nat} (h : 0x100000000000000000000000 ||| μ = μ) : InPages μ (offset F.DBG_CORE_CTL_RESUME.addr) := ⟨h, h⟩

theorem off_DBG_CORE_CTL_STEP {μ : Nat} (h : 0x100000000000000000000000 ||| μ = μ) : InPages μ (offset F.DBG_CORE_CTL_STEP.addr) := ⟨h, h⟩

theorem ok_DET_DROPPED_COUNT {μ : Nat} (h : 0x40000000000000000000 ||| μ = μ) : InPages μ F.DET_DROPPED_COUNT.addr := ⟨h, h⟩

theorem ok_DET_D_CFG_EN {μ : Nat} (i : Nat) (h : 0x40000000000000000000 ||| μ = μ) : InPages μ (F.DET_D_CFG_EN i).addr :=
  inPages_of (p := 0xe) (q := 0xe) (by simp only [F.DET_D_CFG_EN]; omega) rfl h h

theorem off_DET_D_REF_SRC {μ : Nat} (i : Nat) (h : 0x40000000000000000000 ||| μ = μ) : InPages μ (offset (F.DET_D_REF_SRC i).addr) :=
  inPages_of (p := 0xe) (q := 0xe) (by simp only [F.DET_D_REF_SRC, offset]; omega) rfl h h

theorem ok_DET_D_REF_VALID {μ : Nat} (i : Nat) (h : 0x40000000000000000000 ||| μ = μ) : InPages μ (F.DET_D_REF_VALID i).addr :=
  inPages_of (p := 0xe) (q := 0xe) (by simp only [F.DET_D_REF_VALID]; omega) rfl h h

theorem ok_DET_D_STATE_EVALS {μ : Nat} (i : Nat) (h : 0x40000000000000000000 ||| μ = μ) : InPages μ (F.DET_D_STATE_EVALS i).addr :=
  inPages_of (p := 0xe) (q := 0xe) (by simp only [F.DET_D_STATE_EVALS]; omega) rfl h h

theorem ok_DET_D_STATE_VERDICTS {μ : Nat} (i : Nat) (h : 0x40000000000000000000 ||| μ = μ) : InPages μ (F.DET_D_STATE_VERDICTS i).addr :=
  inPages_of (p := 0xe) (q := 0xe) (by simp only [F.DET_D_STATE_VERDICTS]; omega) rfl h h

theorem ok_DET_ERR_CFG {μ : Nat} (h : 0x40000000000000000000 ||| μ = μ) : InPages μ F.DET_ERR_CFG.addr := ⟨h, h⟩

theorem ok_DET_ERR_DROPPED {μ : Nat} (h : 0x40000000000000000000 ||| μ = μ) : InPages μ F.DET_ERR_DROPPED.addr := ⟨h, h⟩

theorem ok_DET_ERR_HA_LATE {μ : Nat} (h : 0x40000000000000000000 ||| μ = μ) : InPages μ F.DET_ERR_HA_LATE.addr := ⟨h, h⟩

theorem ok_DET_ERR_REF_MISSING {μ : Nat} (h : 0x40000000000000000000 ||| μ = μ) : InPages μ F.DET_ERR_REF_MISSING.addr := ⟨h, h⟩

theorem ok_DET_VCOUNT_CONFIRMED {μ : Nat} (h : 0x40000000000000000000 ||| μ = μ) : InPages μ F.DET_VCOUNT_CONFIRMED.addr := ⟨h, h⟩

theorem ok_DET_VCOUNT_PROVISIONAL {μ : Nat} (h : 0x40000000000000000000 ||| μ = μ) : InPages μ F.DET_VCOUNT_PROVISIONAL.addr := ⟨h, h⟩

theorem ok_EOP_ERR_FENCE_ACK_TMO {μ : Nat} (h : 0x80000000000000000 ||| μ = μ) : InPages μ F.EOP_ERR_FENCE_ACK_TMO.addr := ⟨h, h⟩

theorem ok_EOP_ERR_FENCE_DRAIN_TMO {μ : Nat} (h : 0x80000000000000000 ||| μ = μ) : InPages μ F.EOP_ERR_FENCE_DRAIN_TMO.addr := ⟨h, h⟩

theorem ok_EOP_ERR_FENCE_PROTO {μ : Nat} (h : 0x80000000000000000 ||| μ = μ) : InPages μ F.EOP_ERR_FENCE_PROTO.addr := ⟨h, h⟩

theorem ok_EOP_ERR_SEED_TMO {μ : Nat} (h : 0x80000000000000000 ||| μ = μ) : InPages μ F.EOP_ERR_SEED_TMO.addr := ⟨h, h⟩

theorem ok_EOP_ERR_SNP_LONG {μ : Nat} (h : 0x80000000000000000 ||| μ = μ) : InPages μ F.EOP_ERR_SNP_LONG.addr := ⟨h, h⟩

theorem ok_EOP_ERR_WIT_MALFORMED {μ : Nat} (h : 0x80000000000000000 ||| μ = μ) : InPages μ F.EOP_ERR_WIT_MALFORMED.addr := ⟨h, h⟩

theorem ok_EOP_FENCE_STATE0_ACK {μ : Nat} (h : 0x80000000000000000 ||| μ = μ) : InPages μ F.EOP_FENCE_STATE0_ACK.addr := ⟨h, h⟩

theorem ok_EOP_FENCE_STATE0_REQ {μ : Nat} (h : 0x80000000000000000 ||| μ = μ) : InPages μ F.EOP_FENCE_STATE0_REQ.addr := ⟨h, h⟩

theorem ok_EOP_FENCE_STATE1_DRAIN_DONE {μ : Nat} (h : 0x80000000000000000 ||| μ = μ) : InPages μ F.EOP_FENCE_STATE1_DRAIN_DONE.addr := ⟨h, h⟩

theorem ok_EOP_FENCE_STATE1_ERR_RESP {μ : Nat} (h : 0x80000000000000000 ||| μ = μ) : InPages μ F.EOP_FENCE_STATE1_ERR_RESP.addr := ⟨h, h⟩

theorem ok_EOP_SEED_INFO_EPOCH_LO {μ : Nat} (h : 0x80000000000000000 ||| μ = μ) : InPages μ F.EOP_SEED_INFO_EPOCH_LO.addr := ⟨h, h⟩

theorem ok_EOP_SEED_INFO_THRESH {μ : Nat} (h : 0x80000000000000000 ||| μ = μ) : InPages μ F.EOP_SEED_INFO_THRESH.addr := ⟨h, h⟩

theorem ok_EOP_SEED_SEED {μ : Nat} (h : 0x80000000000000000 ||| μ = μ) : InPages μ F.EOP_SEED_SEED.addr := ⟨h, h⟩

theorem ok_EOP_WIT_DROPPED_DISCARDED {μ : Nat} (h : 0x80000000000000000 ||| μ = μ) : InPages μ F.EOP_WIT_DROPPED_DISCARDED.addr := ⟨h, h⟩

theorem ok_EOP_WIT_DROPPED_MALFORMED {μ : Nat} (h : 0x80000000000000000 ||| μ = μ) : InPages μ F.EOP_WIT_DROPPED_MALFORMED.addr := ⟨h, h⟩

theorem ok_FBP_CTL_LANE_EN {μ : Nat} (h : 0x200000000000000000 ||| μ = μ) : InPages μ F.FBP_CTL_LANE_EN.addr := ⟨h, h⟩

theorem ok_FBP_DROP_CNT_CORRUPT {μ : Nat} (h : 0x200000000000000000 ||| μ = μ) : InPages μ F.FBP_DROP_CNT_CORRUPT.addr := ⟨h, h⟩

theorem ok_FBP_DROP_CNT_DUP {μ : Nat} (h : 0x200000000000000000 ||| μ = μ) : InPages μ F.FBP_DROP_CNT_DUP.addr := ⟨h, h⟩

theorem ok_FBP_ERR_CFG_ERR {μ : Nat} (h : 0x200000000000000000 ||| μ = μ) : InPages μ F.FBP_ERR_CFG_ERR.addr := ⟨h, h⟩

theorem ok_FBP_ERR_CRC_ERR {μ : Nat} (h : 0x200000000000000000 ||| μ = μ) : InPages μ F.FBP_ERR_CRC_ERR.addr := ⟨h, h⟩

theorem ok_FBP_ERR_CREDIT_OVF {μ : Nat} (h : 0x200000000000000000 ||| μ = μ) : InPages μ F.FBP_ERR_CREDIT_OVF.addr := ⟨h, h⟩

theorem ok_FBP_ERR_LEN_ERR {μ : Nat} (h : 0x200000000000000000 ||| μ = μ) : InPages μ F.FBP_ERR_LEN_ERR.addr := ⟨h, h⟩

theorem ok_FBP_ERR_LINK_DOWN {μ : Nat} (h : 0x200000000000000000 ||| μ = μ) : InPages μ F.FBP_ERR_LINK_DOWN.addr := ⟨h, h⟩

theorem ok_FBP_ERR_RX_OVF {μ : Nat} (h : 0x200000000000000000 ||| μ = μ) : InPages μ F.FBP_ERR_RX_OVF.addr := ⟨h, h⟩

theorem ok_FBP_ERR_SEQ_DUP {μ : Nat} (h : 0x200000000000000000 ||| μ = μ) : InPages μ F.FBP_ERR_SEQ_DUP.addr := ⟨h, h⟩

theorem ok_FBP_ERR_SEQ_GAP {μ : Nat} (h : 0x200000000000000000 ||| μ = μ) : InPages μ F.FBP_ERR_SEQ_GAP.addr := ⟨h, h⟩

theorem ok_FBP_GAP_CNT_MISSING {μ : Nat} (h : 0x200000000000000000 ||| μ = μ) : InPages μ F.FBP_GAP_CNT_MISSING.addr := ⟨h, h⟩

theorem off_FBP_RX_PART_VC0 {μ : Nat} (h : 0x200000000000000000 ||| μ = μ) : InPages μ (offset F.FBP_RX_PART_VC0.addr) := ⟨h, h⟩

theorem ok_FBP_STATUS_LANE_UP {μ : Nat} (h : 0x200000000000000000 ||| μ = μ) : InPages μ F.FBP_STATUS_LANE_UP.addr := ⟨h, h⟩

theorem ok_FBP_TX_CREDIT_VC0 {μ : Nat} (i : Nat) (h : 0x200000000000000000 ||| μ = μ) : InPages μ (F.FBP_TX_CREDIT_VC0 i).addr :=
  inPages_of (p := 0x5) (q := 0x5) (by simp only [F.FBP_TX_CREDIT_VC0]; omega) rfl h h

theorem ok_FLT_ARR_LAST_MARK {μ : Nat} (i : Nat) (h : 0x100000000000000000000 ||| μ = μ) : InPages μ (F.FLT_ARR_LAST_MARK i).addr :=
  inPages_of (p := 0x10) (q := 0x10) (by simp only [F.FLT_ARR_LAST_MARK]; omega) rfl h h

theorem ok_FLT_ARR_MARKS {μ : Nat} (i : Nat) (h : 0x100000000000000000000 ||| μ = μ) : InPages μ (F.FLT_ARR_MARKS i).addr :=
  inPages_of (p := 0x10) (q := 0x10) (by simp only [F.FLT_ARR_MARKS]; omega) rfl h h

theorem ok_FLT_ERR_FT_FAIL {μ : Nat} (h : 0x100000000000000000000 ||| μ = μ) : InPages μ F.FLT_ERR_FT_FAIL.addr := ⟨h, h⟩

theorem ok_FLT_ERR_NO_SPARE {μ : Nat} (h : 0x100000000000000000000 ||| μ = μ) : InPages μ F.FLT_ERR_NO_SPARE.addr := ⟨h, h⟩

theorem ok_FLT_ERR_PROBE_FAIL {μ : Nat} (h : 0x100000000000000000000 ||| μ = μ) : InPages μ F.FLT_ERR_PROBE_FAIL.addr := ⟨h, h⟩

theorem ok_FLT_ERR_PROBE_NOANS {μ : Nat} (h : 0x100000000000000000000 ||| μ = μ) : InPages μ F.FLT_ERR_PROBE_NOANS.addr := ⟨h, h⟩

theorem ok_FLT_ERR_RETIRED {μ : Nat} (h : 0x100000000000000000000 ||| μ = μ) : InPages μ F.FLT_ERR_RETIRED.addr := ⟨h, h⟩

theorem ok_FLT_PROBE_CMD_START {μ : Nat} (h : 0x100000000000000000000 ||| μ = μ) : InPages μ F.FLT_PROBE_CMD_START.addr := ⟨h, h⟩

theorem off_FLT_PROBE_CMD_START {μ : Nat} (h : 0x100000000000000000000 ||| μ = μ) : InPages μ (offset F.FLT_PROBE_CMD_START.addr) := ⟨h, h⟩

theorem ok_FLT_PROBE_RESULT_SEQ {μ : Nat} (h : 0x100000000000000000000 ||| μ = μ) : InPages μ F.FLT_PROBE_RESULT_SEQ.addr := ⟨h, h⟩

theorem ok_FLT_PROBE_STATS_FAILED {μ : Nat} (h : 0x100000000000000000000 ||| μ = μ) : InPages μ F.FLT_PROBE_STATS_FAILED.addr := ⟨h, h⟩

theorem ok_FLT_PROBE_STATS_NOANSWER {μ : Nat} (h : 0x100000000000000000000 ||| μ = μ) : InPages μ F.FLT_PROBE_STATS_NOANSWER.addr := ⟨h, h⟩

theorem ok_FLT_PROBE_STATS_PASSED {μ : Nat} (h : 0x100000000000000000000 ||| μ = μ) : InPages μ F.FLT_PROBE_STATS_PASSED.addr := ⟨h, h⟩

theorem ok_FLT_STATUS_FAILS {μ : Nat} (h : 0x100000000000000000000 ||| μ = μ) : InPages μ F.FLT_STATUS_FAILS.addr := ⟨h, h⟩

theorem ok_FLT_STATUS_TESTS {μ : Nat} (h : 0x100000000000000000000 ||| μ = μ) : InPages μ F.FLT_STATUS_TESTS.addr := ⟨h, h⟩

theorem ok_GBK_ERR_EXP_GAP {μ : Nat} (h : 0x1000000000000000000000 ||| μ = μ) : InPages μ F.GBK_ERR_EXP_GAP.addr := ⟨h, h⟩

theorem ok_GBK_ERR_EXP_MEM {μ : Nat} (h : 0x1000000000000000000000 ||| μ = μ) : InPages μ F.GBK_ERR_EXP_MEM.addr := ⟨h, h⟩

theorem ok_GBK_ERR_LOST {μ : Nat} (h : 0x1000000000000000000000 ||| μ = μ) : InPages μ F.GBK_ERR_LOST.addr := ⟨h, h⟩

theorem ok_GBK_ERR_REPEAT_SAT {μ : Nat} (h : 0x1000000000000000000000 ||| μ = μ) : InPages μ F.GBK_ERR_REPEAT_SAT.addr := ⟨h, h⟩

theorem ok_GBK_EXP_CTL_FLUSH {μ : Nat} (h : 0x1000000000000000000000 ||| μ = μ) : InPages μ F.GBK_EXP_CTL_FLUSH.addr := ⟨h, h⟩

theorem off_GBK_EXP_CTL_FLUSH {μ : Nat} (h : 0x1000000000000000000000 ||| μ = μ) : InPages μ (offset F.GBK_EXP_CTL_FLUSH.addr) := ⟨h, h⟩

theorem ok_GBK_EXP_NEXT_NEXT {μ : Nat} (h : 0x1000000000000000000000 ||| μ = μ) : InPages μ F.GBK_EXP_NEXT_NEXT.addr := ⟨h, h⟩

theorem ok_GBK_EXP_WRPTR_WRPTR {μ : Nat} (h : 0x1000000000000000000000 ||| μ = μ) : InPages μ F.GBK_EXP_WRPTR_WRPTR.addr := ⟨h, h⟩

theorem ok_GBK_HEAD_HEAD {μ : Nat} (h : 0x1000000000000000000000 ||| μ = μ) : InPages μ F.GBK_HEAD_HEAD.addr := ⟨h, h⟩

theorem ok_GBK_LOST_LOST {μ : Nat} (h : 0x1000000000000000000000 ||| μ = μ) : InPages μ F.GBK_LOST_LOST.addr := ⟨h, h⟩

theorem ok_GBK_STATUS_QUEUED {μ : Nat} (h : 0x1000000000000000000000 ||| μ = μ) : InPages μ F.GBK_STATUS_QUEUED.addr := ⟨h, h⟩

theorem ok_GBK_STATUS_RUNNING {μ : Nat} (h : 0x1000000000000000000000 ||| μ = μ) : InPages μ F.GBK_STATUS_RUNNING.addr := ⟨h, h⟩

theorem ok_GBK_STATUS_SIZE_LOG {μ : Nat} (h : 0x1000000000000000000000 ||| μ = μ) : InPages μ F.GBK_STATUS_SIZE_LOG.addr := ⟨h, h⟩

theorem ok_GLB_ERR_ADDR_OFFSET {μ : Nat} (h : 0x10000000000000000 ||| μ = μ) : InPages μ F.GLB_ERR_ADDR_OFFSET.addr := ⟨h, h⟩

theorem ok_GLB_ERR_STATUS_HALF_ERR {μ : Nat} (h : 0x10000000000000000 ||| μ = μ) : InPages μ F.GLB_ERR_STATUS_HALF_ERR.addr := ⟨h, h⟩

theorem ok_GLB_ERR_STATUS_PRIV_ERR {μ : Nat} (h : 0x10000000000000000 ||| μ = μ) : InPages μ F.GLB_ERR_STATUS_PRIV_ERR.addr := ⟨h, h⟩

theorem ok_GLB_ERR_STATUS_RSV_WR {μ : Nat} (h : 0x10000000000000000 ||| μ = μ) : InPages μ F.GLB_ERR_STATUS_RSV_WR.addr := ⟨h, h⟩

theorem ok_GLB_ERR_STATUS_RWL_ERR {μ : Nat} (h : 0x10000000000000000 ||| μ = μ) : InPages μ F.GLB_ERR_STATUS_RWL_ERR.addr := ⟨h, h⟩

theorem ok_GLB_FUNC_MODE_MODE {μ : Nat} (h : 0x10000000000000000 ||| μ = μ) : InPages μ F.GLB_FUNC_MODE_MODE.addr := ⟨h, h⟩

theorem ok_GLB_INSTANCE_POS_VALID {μ : Nat} (h : 0x10000000000000000 ||| μ = μ) : InPages μ F.GLB_INSTANCE_POS_VALID.addr := ⟨h, h⟩

theorem ok_GLB_PERSONALITY_PERS {μ : Nat} (h : 0x10000000000000000 ||| μ = μ) : InPages μ F.GLB_PERSONALITY_PERS.addr := ⟨h, h⟩

theorem ok_INK_CLASS_LIMIT {μ : Nat} (i : Nat) (h : 0x8000000000000000000 ||| μ = μ) : InPages μ (F.INK_CLASS_LIMIT i).addr :=
  inPages_of (p := 0xb) (q := 0xb) (by simp only [F.INK_CLASS_LIMIT]; omega) rfl h h

theorem ok_INK_ERR_CFG {μ : Nat} (h : 0x8000000000000000000 ||| μ = μ) : InPages μ F.INK_ERR_CFG.addr := ⟨h, h⟩

theorem ok_INK_ERR_LADDER {μ : Nat} (h : 0x8000000000000000000 ||| μ = μ) : InPages μ F.INK_ERR_LADDER.addr := ⟨h, h⟩

theorem ok_INK_ERR_NO_QUEUE {μ : Nat} (h : 0x8000000000000000000 ||| μ = μ) : InPages μ F.INK_ERR_NO_QUEUE.addr := ⟨h, h⟩

theorem ok_INK_ERR_POLICED {μ : Nat} (h : 0x8000000000000000000 ||| μ = μ) : InPages μ F.INK_ERR_POLICED.addr := ⟨h, h⟩

theorem ok_INK_ERR_Q_DROP {μ : Nat} (h : 0x8000000000000000000 ||| μ = μ) : InPages μ F.INK_ERR_Q_DROP.addr := ⟨h, h⟩

theorem ok_INK_ERR_REPLY_FULL {μ : Nat} (h : 0x8000000000000000000 ||| μ = μ) : InPages μ F.INK_ERR_REPLY_FULL.addr := ⟨h, h⟩

theorem ok_INK_LADDER_CNT1_RANK6 {μ : Nat} (h : 0x8000000000000000000 ||| μ = μ) : InPages μ F.INK_LADDER_CNT1_RANK6.addr := ⟨h, h⟩

theorem off_INK_Q_CFG_PORT {μ : Nat} (i : Nat) (h : 0x8000000000000000000 ||| μ = μ) : InPages μ (offset (F.INK_Q_CFG_PORT i).addr) :=
  inPages_of (p := 0xb) (q := 0xb) (by simp only [F.INK_Q_CFG_PORT, offset]; omega) rfl h h

theorem ok_INK_Q_CFG_VALID {μ : Nat} (i : Nat) (h : 0x8000000000000000000 ||| μ = μ) : InPages μ (F.INK_Q_CFG_VALID i).addr :=
  inPages_of (p := 0xb) (q := 0xb) (by simp only [F.INK_Q_CFG_VALID]; omega) rfl h h

theorem ok_INK_Q_POLICE_POL_RATE {μ : Nat} (i : Nat) (h : 0x8000000000000000000 ||| μ = μ) : InPages μ (F.INK_Q_POLICE_POL_RATE i).addr :=
  inPages_of (p := 0xb) (q := 0xb) (by simp only [F.INK_Q_POLICE_POL_RATE]; omega) rfl h h

theorem ok_INK_Q_SHAPE_RATE {μ : Nat} (i : Nat) (h : 0x8000000000000000000 ||| μ = μ) : InPages μ (F.INK_Q_SHAPE_RATE i).addr :=
  inPages_of (p := 0xb) (q := 0xb) (by simp only [F.INK_Q_SHAPE_RATE]; omega) rfl h h

theorem ok_INK_Q_STATE_DEPTH {μ : Nat} (i : Nat) (h : 0x8000000000000000000 ||| μ = μ) : InPages μ (F.INK_Q_STATE_DEPTH i).addr :=
  inPages_of (p := 0xb) (q := 0xb) (by simp only [F.INK_Q_STATE_DEPTH]; omega) rfl h h

theorem ok_INK_STATUS_PAUSED {μ : Nat} (h : 0x8000000000000000000 ||| μ = μ) : InPages μ F.INK_STATUS_PAUSED.addr := ⟨h, h⟩

theorem ok_IRQ_ACTIVE_ACTIVE {μ : Nat} (i : Nat) (h : 0x20000000000000000000000 ||| μ = μ) : InPages μ (F.IRQ_ACTIVE_ACTIVE i).addr :=
  inPages_of (p := 0x19) (q := 0x19) (by simp only [F.IRQ_ACTIVE_ACTIVE]; omega) rfl h h

theorem off_IRQ_DONE_SOURCE {μ : Nat} (h : 0x20000000000000000000000 ||| μ = μ) : InPages μ (offset F.IRQ_DONE_SOURCE.addr) := ⟨h, h⟩

theorem ok_IRQ_GRP_CTL_TARGET {μ : Nat} (i : Nat) (h : 0x20000000000000000000000 ||| μ = μ) : InPages μ (F.IRQ_GRP_CTL_TARGET i).addr :=
  inPages_of (p := 0x19) (q := 0x19) (by simp only [F.IRQ_GRP_CTL_TARGET]; omega) rfl h h

theorem ok_IRQ_GRP_CTL_TGT_KIND {μ : Nat} (i : Nat) (h : 0x20000000000000000000000 ||| μ = μ) : InPages μ (F.IRQ_GRP_CTL_TGT_KIND i).addr :=
  inPages_of (p := 0x19) (q := 0x19) (by simp only [F.IRQ_GRP_CTL_TGT_KIND]; omega) rfl h h

theorem ok_IRQ_GRP_OUT_OUT {μ : Nat} (h : 0x20000000000000000000000 ||| μ = μ) : InPages μ F.IRQ_GRP_OUT_OUT.addr := ⟨h, h⟩

theorem ok_IRQ_MASK_MASK {μ : Nat} (i : Nat) (h : 0x20000000000000000000000 ||| μ = μ) : InPages μ (F.IRQ_MASK_MASK i).addr :=
  inPages_of (p := 0x19) (q := 0x19) (by simp only [F.IRQ_MASK_MASK]; omega) rfl h h

theorem off_IRQ_MASK_MASK {μ : Nat} (i : Nat) (h : 0x20000000000000000000000 ||| μ = μ) : InPages μ (offset (F.IRQ_MASK_MASK i).addr) :=
  inPages_of (p := 0x19) (q := 0x19) (by simp only [F.IRQ_MASK_MASK, offset]; omega) rfl h h

theorem ok_IRQ_PEND_PEND {μ : Nat} (i : Nat) (h : 0x20000000000000000000000 ||| μ = μ) : InPages μ (F.IRQ_PEND_PEND i).addr :=
  inPages_of (p := 0x19) (q := 0x19) (by simp only [F.IRQ_PEND_PEND]; omega) rfl h h

theorem off_IRQ_PEND_PEND {μ : Nat} (i : Nat) (h : 0x20000000000000000000000 ||| μ = μ) : InPages μ (offset (F.IRQ_PEND_PEND i).addr) :=
  inPages_of (p := 0x19) (q := 0x19) (by simp only [F.IRQ_PEND_PEND, offset]; omega) rfl h h

theorem ok_IRQ_SRC_CFG_GROUP {μ : Nat} (i : Nat) (h : 0x20000000000000000000000 ||| μ = μ) : InPages μ (F.IRQ_SRC_CFG_GROUP i).addr :=
  inPages_of (p := 0x19) (q := 0x19) (by simp only [F.IRQ_SRC_CFG_GROUP]; omega) rfl h h

theorem ok_IRQ_SRC_CFG_MAPPED {μ : Nat} (i : Nat) (h : 0x20000000000000000000000 ||| μ = μ) : InPages μ (F.IRQ_SRC_CFG_MAPPED i).addr :=
  inPages_of (p := 0x19) (q := 0x19) (by simp only [F.IRQ_SRC_CFG_MAPPED]; omega) rfl h h

theorem off_IRQ_SW_SET_SOURCE {μ : Nat} (h : 0x20000000000000000000000 ||| μ = μ) : InPages μ (offset F.IRQ_SW_SET_SOURCE.addr) := ⟨h, h⟩

theorem ok_ITN_DIGEST_DIGEST {μ : Nat} (i : Nat) (h : 0x20000000000000000 ||| μ = μ) : InPages μ (F.ITN_DIGEST_DIGEST i).addr :=
  inPages_of (p := 0x1) (q := 0x1) (by simp only [F.ITN_DIGEST_DIGEST]; omega) rfl h h

theorem ok_ITN_ERR_BOOT_A_FAILED {μ : Nat} (h : 0x20000000000000000 ||| μ = μ) : InPages μ F.ITN_ERR_BOOT_A_FAILED.addr := ⟨h, h⟩

theorem ok_ITN_ERR_BOOT_B_FAILED {μ : Nat} (h : 0x20000000000000000 ||| μ = μ) : InPages μ F.ITN_ERR_BOOT_B_FAILED.addr := ⟨h, h⟩

theorem ok_ITN_ERR_OVL_REFUSED {μ : Nat} (h : 0x20000000000000000 ||| μ = μ) : InPages μ F.ITN_ERR_OVL_REFUSED.addr := ⟨h, h⟩

theorem ok_ITN_ERR_PUSH_REFUSED {μ : Nat} (h : 0x20000000000000000 ||| μ = μ) : InPages μ F.ITN_ERR_PUSH_REFUSED.addr := ⟨h, h⟩

theorem ok_ITN_IMAGE_INFO_SEQUENCE {μ : Nat} (h : 0x20000000000000000 ||| μ = μ) : InPages μ F.ITN_IMAGE_INFO_SEQUENCE.addr := ⟨h, h⟩

theorem ok_ITN_OVL_STATUS_LAST_SEQ {μ : Nat} (h : 0x20000000000000000 ||| μ = μ) : InPages μ F.ITN_OVL_STATUS_LAST_SEQ.addr := ⟨h, h⟩

theorem ok_ITN_OVL_STATUS_PENDING_WARM {μ : Nat} (h : 0x20000000000000000 ||| μ = μ) : InPages μ F.ITN_OVL_STATUS_PENDING_WARM.addr := ⟨h, h⟩

theorem ok_ITN_OVL_STATUS_STATE {μ : Nat} (h : 0x20000000000000000 ||| μ = μ) : InPages μ F.ITN_OVL_STATUS_STATE.addr := ⟨h, h⟩

theorem ok_ITN_OVL_STATUS_STORE_USED {μ : Nat} (h : 0x20000000000000000 ||| μ = μ) : InPages μ F.ITN_OVL_STATUS_STORE_USED.addr := ⟨h, h⟩

theorem ok_ITN_PUSH_CTL_START {μ : Nat} (h : 0x20000000000000000 ||| μ = μ) : InPages μ F.ITN_PUSH_CTL_START.addr := ⟨h, h⟩

theorem off_ITN_PUSH_CTL_START {μ : Nat} (h : 0x20000000000000000 ||| μ = μ) : InPages μ (offset F.ITN_PUSH_CTL_START.addr) := ⟨h, h⟩

theorem off_ITN_PUSH_DATA_DATA {μ : Nat} (h : 0x20000000000000000 ||| μ = μ) : InPages μ (offset F.ITN_PUSH_DATA_DATA.addr) := ⟨h, h⟩

theorem ok_ITN_SIGNER_KEY_ID {μ : Nat} (h : 0x20000000000000000 ||| μ = μ) : InPages μ F.ITN_SIGNER_KEY_ID.addr := ⟨h, h⟩

theorem ok_ITN_STATUS_BOOT_SLOT {μ : Nat} (h : 0x20000000000000000 ||| μ = μ) : InPages μ F.ITN_STATUS_BOOT_SLOT.addr := ⟨h, h⟩

theorem ok_ITN_STATUS_ERR_CODE {μ : Nat} (h : 0x20000000000000000 ||| μ = μ) : InPages μ F.ITN_STATUS_ERR_CODE.addr := ⟨h, h⟩

theorem ok_ITN_STATUS_STATE {μ : Nat} (h : 0x20000000000000000 ||| μ = μ) : InPages μ F.ITN_STATUS_STATE.addr := ⟨h, h⟩

theorem ok_KSP_CMD_DATA_DATA {μ : Nat} (i : Nat) (h : 0x200000000000000000000000 ||| μ = μ) : InPages μ (F.KSP_CMD_DATA_DATA i).addr :=
  inPages_of (p := 0x1d) (q := 0x1d) (by simp only [F.KSP_CMD_DATA_DATA]; omega) rfl h h

theorem ok_KSP_CMD_RESULT_SEQ {μ : Nat} (h : 0x200000000000000000000000 ||| μ = μ) : InPages μ F.KSP_CMD_RESULT_SEQ.addr := ⟨h, h⟩

theorem ok_KSP_CMD_START {μ : Nat} (h : 0x200000000000000000000000 ||| μ = μ) : InPages μ F.KSP_CMD_START.addr := ⟨h, h⟩

theorem off_KSP_CMD_START {μ : Nat} (h : 0x200000000000000000000000 ||| μ = μ) : InPages μ (offset F.KSP_CMD_START.addr) := ⟨h, h⟩

theorem ok_KSP_ERR_ABSENT {μ : Nat} (h : 0x200000000000000000000000 ||| μ = μ) : InPages μ F.KSP_ERR_ABSENT.addr := ⟨h, h⟩

theorem ok_KSP_ERR_DEV_ERR {μ : Nat} (h : 0x200000000000000000000000 ||| μ = μ) : InPages μ F.KSP_ERR_DEV_ERR.addr := ⟨h, h⟩

theorem ok_KSP_ERR_PREEMPTED {μ : Nat} (h : 0x200000000000000000000000 ||| μ = μ) : InPages μ F.KSP_ERR_PREEMPTED.addr := ⟨h, h⟩

theorem ok_KSP_ERR_PROT {μ : Nat} (h : 0x200000000000000000000000 ||| μ = μ) : InPages μ F.KSP_ERR_PROT.addr := ⟨h, h⟩

theorem ok_KSP_ERR_TMO {μ : Nat} (h : 0x200000000000000000000000 ||| μ = μ) : InPages μ F.KSP_ERR_TMO.addr := ⟨h, h⟩

theorem ok_KSP_STATUS_CS0_PRESENT {μ : Nat} (h : 0x200000000000000000000000 ||| μ = μ) : InPages μ F.KSP_STATUS_CS0_PRESENT.addr := ⟨h, h⟩

theorem ok_KSP_STATUS_CS1_PRESENT {μ : Nat} (h : 0x200000000000000000000000 ||| μ = μ) : InPages μ F.KSP_STATUS_CS1_PRESENT.addr := ⟨h, h⟩

theorem ok_KSP_STATUS_OWNER {μ : Nat} (h : 0x200000000000000000000000 ||| μ = μ) : InPages μ F.KSP_STATUS_OWNER.addr := ⟨h, h⟩

theorem ok_LDG_CHAIN_CHAIN {μ : Nat} (h : 0x2000000000000000000000 ||| μ = μ) : InPages μ F.LDG_CHAIN_CHAIN.addr := ⟨h, h⟩

theorem ok_LDG_OVERWRITTEN_COUNT {μ : Nat} (h : 0x2000000000000000000000 ||| μ = μ) : InPages μ F.LDG_OVERWRITTEN_COUNT.addr := ⟨h, h⟩

theorem ok_LDG_SEQ_SEQ {μ : Nat} (h : 0x2000000000000000000000 ||| μ = μ) : InPages μ F.LDG_SEQ_SEQ.addr := ⟨h, h⟩

theorem ok_LDG_STATUS_QUEUED {μ : Nat} (h : 0x2000000000000000000000 ||| μ = μ) : InPages μ F.LDG_STATUS_QUEUED.addr := ⟨h, h⟩

theorem ok_LDG_STATUS_RUNNING {μ : Nat} (h : 0x2000000000000000000000 ||| μ = μ) : InPages μ F.LDG_STATUS_RUNNING.addr := ⟨h, h⟩

theorem ok_LDG_STATUS_SIZE {μ : Nat} (h : 0x2000000000000000000000 ||| μ = μ) : InPages μ F.LDG_STATUS_SIZE.addr := ⟨h, h⟩

theorem off_LTN_CTL_ARM {μ : Nat} (h : 0x80000000000000000000000 ||| μ = μ) : InPages μ (offset F.LTN_CTL_ARM.addr) := ⟨h, h⟩

theorem off_LTN_CTL_SOFT {μ : Nat} (h : 0x80000000000000000000000 ||| μ = μ) : InPages μ (offset F.LTN_CTL_SOFT.addr) := ⟨h, h⟩

theorem ok_LTN_ERR_CFG {μ : Nat} (h : 0x80000000000000000000000 ||| μ = μ) : InPages μ F.LTN_ERR_CFG.addr := ⟨h, h⟩

theorem ok_LTN_ERR_OVERFLOW {μ : Nat} (h : 0x80000000000000000000000 ||| μ = μ) : InPages μ F.LTN_ERR_OVERFLOW.addr := ⟨h, h⟩

theorem ok_LTN_LOST_LOST {μ : Nat} (h : 0x80000000000000000000000 ||| μ = μ) : InPages μ F.LTN_LOST_LOST.addr := ⟨h, h⟩

theorem ok_LTN_STATUS_FROZEN {μ : Nat} (h : 0x80000000000000000000000 ||| μ = μ) : InPages μ F.LTN_STATUS_FROZEN.addr := ⟨h, h⟩

theorem ok_LTN_STATUS_STATE {μ : Nat} (h : 0x80000000000000000000000 ||| μ = μ) : InPages μ F.LTN_STATUS_STATE.addr := ⟨h, h⟩

theorem ok_LTN_STATUS_TRIGGERED {μ : Nat} (h : 0x80000000000000000000000 ||| μ = μ) : InPages μ F.LTN_STATUS_TRIGGERED.addr := ⟨h, h⟩

theorem ok_MMP_CTL_CHANNELS {μ : Nat} (h : 0x100000000000000000 ||| μ = μ) : InPages μ F.MMP_CTL_CHANNELS.addr := ⟨h, h⟩

theorem ok_MMP_ERR_LINK_RESET {μ : Nat} (h : 0x100000000000000000 ||| μ = μ) : InPages μ F.MMP_ERR_LINK_RESET.addr := ⟨h, h⟩

theorem ok_MMP_ERR_POISON {μ : Nat} (h : 0x100000000000000000 ||| μ = μ) : InPages μ F.MMP_ERR_POISON.addr := ⟨h, h⟩

theorem ok_MMP_ERR_RD_ERR {μ : Nat} (h : 0x100000000000000000 ||| μ = μ) : InPages μ F.MMP_ERR_RD_ERR.addr := ⟨h, h⟩

theorem ok_MMP_ERR_RGN_VIOL {μ : Nat} (h : 0x100000000000000000 ||| μ = μ) : InPages μ F.MMP_ERR_RGN_VIOL.addr := ⟨h, h⟩

theorem ok_MMP_ERR_WI_PROTO {μ : Nat} (h : 0x100000000000000000 ||| μ = μ) : InPages μ F.MMP_ERR_WI_PROTO.addr := ⟨h, h⟩

theorem ok_MMP_ERR_WR_ERR {μ : Nat} (h : 0x100000000000000000 ||| μ = μ) : InPages μ F.MMP_ERR_WR_ERR.addr := ⟨h, h⟩

theorem ok_MMP_STATUS_RD_OUT {μ : Nat} (h : 0x100000000000000000 ||| μ = μ) : InPages μ F.MMP_STATUS_RD_OUT.addr := ⟨h, h⟩

theorem ok_MMP_STATUS_WI_ARM {μ : Nat} (h : 0x100000000000000000 ||| μ = μ) : InPages μ F.MMP_STATUS_WI_ARM.addr := ⟨h, h⟩

theorem ok_MMP_STATUS_WI_OUT {μ : Nat} (h : 0x100000000000000000 ||| μ = μ) : InPages μ F.MMP_STATUS_WI_OUT.addr := ⟨h, h⟩

theorem ok_MMP_STATUS_WR_OUT {μ : Nat} (h : 0x100000000000000000 ||| μ = μ) : InPages μ F.MMP_STATUS_WR_OUT.addr := ⟨h, h⟩

theorem ok_MMP_WI_STATS_MAX_WAIT {μ : Nat} (h : 0x100000000000000000 ||| μ = μ) : InPages μ F.MMP_WI_STATS_MAX_WAIT.addr := ⟨h, h⟩

theorem ok_MMP_WI_STATS_TORN {μ : Nat} (h : 0x100000000000000000 ||| μ = μ) : InPages μ F.MMP_WI_STATS_TORN.addr := ⟨h, h⟩

theorem ok_PHU_STATUS_PFW_N {μ : Nat} (h : 0x40000000000000000000000 ||| μ = μ) : InPages μ F.PHU_STATUS_PFW_N.addr := ⟨h, h⟩

theorem ok_PHU_STATUS_RET_EN {μ : Nat} (h : 0x40000000000000000000000 ||| μ = μ) : InPages μ F.PHU_STATUS_RET_EN.addr := ⟨h, h⟩

theorem ok_PHU_STATUS_SAVE_DONE {μ : Nat} (h : 0x40000000000000000000000 ||| μ = μ) : InPages μ F.PHU_STATUS_SAVE_DONE.addr := ⟨h, h⟩

theorem ok_PHU_STATUS_SAVE_PG {μ : Nat} (h : 0x40000000000000000000000 ||| μ = μ) : InPages μ F.PHU_STATUS_SAVE_PG.addr := ⟨h, h⟩

theorem off_PRT_CH_BASE_ADDR {μ : Nat} (i : Nat) (h : 0x400000000000000000000 ||| μ = μ) : InPages μ (offset (F.PRT_CH_BASE_ADDR i).addr) :=
  inPages_of (p := 0x12) (q := 0x12) (by simp only [F.PRT_CH_BASE_ADDR, offset]; omega) rfl h h

theorem ok_PRT_CH_CTL_LAST_STATUS {μ : Nat} (i : Nat) (h : 0x400000000000000000000 ||| μ = μ) : InPages μ (F.PRT_CH_CTL_LAST_STATUS i).addr :=
  inPages_of (p := 0x12) (q := 0x12) (by simp only [F.PRT_CH_CTL_LAST_STATUS]; omega) rfl h h

theorem off_PRT_CH_CTL_RESUME {μ : Nat} (i : Nat) (h : 0x400000000000000000000 ||| μ = μ) : InPages μ (offset (F.PRT_CH_CTL_RESUME i).addr) :=
  inPages_of (p := 0x12) (q := 0x12) (by simp only [F.PRT_CH_CTL_RESUME, offset]; omega) rfl h h

theorem ok_PRT_CH_CTL_STATE {μ : Nat} (i : Nat) (h : 0x400000000000000000000 ||| μ = μ) : InPages μ (F.PRT_CH_CTL_STATE i).addr :=
  inPages_of (p := 0x12) (q := 0x12) (by simp only [F.PRT_CH_CTL_STATE]; omega) rfl h h

theorem off_PRT_CH_HEAD_HEAD {μ : Nat} (i : Nat) (h : 0x400000000000000000000 ||| μ = μ) : InPages μ (offset (F.PRT_CH_HEAD_HEAD i).addr) :=
  inPages_of (p := 0x12) (q := 0x12) (by simp only [F.PRT_CH_HEAD_HEAD, offset]; omega) rfl h h

theorem off_PRT_CH_SIZE_ENTRIES {μ : Nat} (i : Nat) (h : 0x400000000000000000000 ||| μ = μ) : InPages μ (offset (F.PRT_CH_SIZE_ENTRIES i).addr) :=
  inPages_of (p := 0x12) (q := 0x12) (by simp only [F.PRT_CH_SIZE_ENTRIES, offset]; omega) rfl h h

theorem ok_PRT_CH_TAIL_TAIL {μ : Nat} (i : Nat) (h : 0x400000000000000000000 ||| μ = μ) : InPages μ (F.PRT_CH_TAIL_TAIL i).addr :=
  inPages_of (p := 0x12) (q := 0x12) (by simp only [F.PRT_CH_TAIL_TAIL]; omega) rfl h h

theorem ok_PRT_STATUS_BUSY {μ : Nat} (h : 0x400000000000000000000 ||| μ = μ) : InPages μ F.PRT_STATUS_BUSY.addr := ⟨h, h⟩

theorem ok_PRT_STATUS_DESCS {μ : Nat} (h : 0x400000000000000000000 ||| μ = μ) : InPages μ F.PRT_STATUS_DESCS.addr := ⟨h, h⟩

theorem ok_PRT_STATUS_HALTED {μ : Nat} (h : 0x400000000000000000000 ||| μ = μ) : InPages μ F.PRT_STATUS_HALTED.addr := ⟨h, h⟩

theorem ok_PWR_CMD_START {μ : Nat} (h : 0x40000000000000000000000 ||| μ = μ) : InPages μ F.PWR_CMD_START.addr := ⟨h, h⟩

theorem off_PWR_CMD_START {μ : Nat} (h : 0x40000000000000000000000 ||| μ = μ) : InPages μ (offset F.PWR_CMD_START.addr) := ⟨h, h⟩

theorem off_PWR_CORE_ACK_ANSWER {μ : Nat} (h : 0x40000000000000000000000 ||| μ = μ) : InPages μ (offset F.PWR_CORE_ACK_ANSWER.addr) := ⟨h, h⟩

theorem ok_PWR_ERR_ABORTED {μ : Nat} (h : 0x40000000000000000000000 ||| μ = μ) : InPages μ F.PWR_ERR_ABORTED.addr := ⟨h, h⟩

theorem ok_PWR_ERR_REFUSED {μ : Nat} (h : 0x40000000000000000000000 ||| μ = μ) : InPages μ F.PWR_ERR_REFUSED.addr := ⟨h, h⟩

theorem ok_PWR_ERR_TIMEOUT {μ : Nat} (h : 0x40000000000000000000000 ||| μ = μ) : InPages μ F.PWR_ERR_TIMEOUT.addr := ⟨h, h⟩

theorem ok_PWR_LAST_WAKE_SOURCE {μ : Nat} (h : 0x40000000000000000000000 ||| μ = μ) : InPages μ F.PWR_LAST_WAKE_SOURCE.addr := ⟨h, h⟩

theorem ok_PWR_RESULT_SEQ {μ : Nat} (h : 0x40000000000000000000000 ||| μ = μ) : InPages μ F.PWR_RESULT_SEQ.addr := ⟨h, h⟩

theorem ok_PWR_STATUS_ENTRIES {μ : Nat} (h : 0x40000000000000000000000 ||| μ = μ) : InPages μ F.PWR_STATUS_ENTRIES.addr := ⟨h, h⟩

theorem ok_PWR_STATUS_PHASE {μ : Nat} (h : 0x40000000000000000000000 ||| μ = μ) : InPages μ F.PWR_STATUS_PHASE.addr := ⟨h, h⟩

theorem ok_PWR_STATUS_STATE {μ : Nat} (h : 0x40000000000000000000000 ||| μ = μ) : InPages μ F.PWR_STATUS_STATE.addr := ⟨h, h⟩

theorem ok_PWR_STEP_RESULT_SEQ {μ : Nat} (h : 0x40000000000000000000000 ||| μ = μ) : InPages μ F.PWR_STEP_RESULT_SEQ.addr := ⟨h, h⟩

theorem ok_PWR_STEP_START {μ : Nat} (h : 0x40000000000000000000000 ||| μ = μ) : InPages μ F.PWR_STEP_START.addr := ⟨h, h⟩

theorem off_PWR_STEP_START {μ : Nat} (h : 0x40000000000000000000000 ||| μ = μ) : InPages μ (offset F.PWR_STEP_START.addr) := ⟨h, h⟩

theorem off_RCV_DUMP_CTL_DISCARD {μ : Nat} (h : 0x800000000000000000000 ||| μ = μ) : InPages μ (offset F.RCV_DUMP_CTL_DISCARD.addr) := ⟨h, h⟩

theorem ok_RCV_DUMP_LAST_DUMP_ID {μ : Nat} (h : 0x800000000000000000000 ||| μ = μ) : InPages μ F.RCV_DUMP_LAST_DUMP_ID.addr := ⟨h, h⟩

theorem ok_RCV_DUMP_LAST_LENGTH {μ : Nat} (h : 0x800000000000000000000 ||| μ = μ) : InPages μ F.RCV_DUMP_LAST_LENGTH.addr := ⟨h, h⟩

theorem ok_RCV_ERR_DUMP_ABANDONED {μ : Nat} (h : 0x800000000000000000000 ||| μ = μ) : InPages μ F.RCV_ERR_DUMP_ABANDONED.addr := ⟨h, h⟩

theorem ok_RCV_ERR_DUMP_TRUNC {μ : Nat} (h : 0x800000000000000000000 ||| μ = μ) : InPages μ F.RCV_ERR_DUMP_TRUNC.addr := ⟨h, h⟩

theorem ok_RCV_ERR_FORCED {μ : Nat} (h : 0x800000000000000000000 ||| μ = μ) : InPages μ F.RCV_ERR_FORCED.addr := ⟨h, h⟩

theorem ok_RCV_ERR_HOLD_FULL {μ : Nat} (h : 0x800000000000000000000 ||| μ = μ) : InPages μ F.RCV_ERR_HOLD_FULL.addr := ⟨h, h⟩

theorem ok_RCV_ERR_NOTICE_DROP {μ : Nat} (h : 0x800000000000000000000 ||| μ = μ) : InPages μ F.RCV_ERR_NOTICE_DROP.addr := ⟨h, h⟩

theorem ok_RCV_ERR_UNRESPONSIVE {μ : Nat} (h : 0x800000000000000000000 ||| μ = μ) : InPages μ F.RCV_ERR_UNRESPONSIVE.addr := ⟨h, h⟩

theorem ok_RCV_FENCE_BLK_STATE {μ : Nat} (h : 0x800000000000000000000 ||| μ = μ) : InPages μ F.RCV_FENCE_BLK_STATE.addr := ⟨h, h⟩

theorem ok_RCV_FENCE_HOST0_STATE {μ : Nat} (h : 0x800000000000000000000 ||| μ = μ) : InPages μ F.RCV_FENCE_HOST0_STATE.addr := ⟨h, h⟩

theorem ok_RCV_FENCE_HOST1_STATE {μ : Nat} (h : 0x800000000000000000000 ||| μ = μ) : InPages μ F.RCV_FENCE_HOST1_STATE.addr := ⟨h, h⟩

theorem ok_RCV_HB_CORE_COUNT {μ : Nat} (i : Nat) (h : 0x800000000000000000000 ||| μ = μ) : InPages μ (F.RCV_HB_CORE_COUNT i).addr :=
  inPages_of (p := 0x13) (q := 0x13) (by simp only [F.RCV_HB_CORE_COUNT]; omega) rfl h h

theorem ok_RCV_HB_CORE_LAST_US {μ : Nat} (i : Nat) (h : 0x800000000000000000000 ||| μ = μ) : InPages μ (F.RCV_HB_CORE_LAST_US i).addr :=
  inPages_of (p := 0x13) (q := 0x13) (by simp only [F.RCV_HB_CORE_LAST_US]; omega) rfl h h

theorem ok_RCV_HB_HOST_COUNT {μ : Nat} (i : Nat) (h : 0x800000000000000000000 ||| μ = μ) : InPages μ (F.RCV_HB_HOST_COUNT i).addr :=
  inPages_of (p := 0x13) (q := 0x13) (by simp only [F.RCV_HB_HOST_COUNT]; omega) rfl h h

theorem ok_RCV_HB_HOST_LAST_US {μ : Nat} (i : Nat) (h : 0x800000000000000000000 ||| μ = μ) : InPages μ (F.RCV_HB_HOST_LAST_US i).addr :=
  inPages_of (p := 0x13) (q := 0x13) (by simp only [F.RCV_HB_HOST_LAST_US]; omega) rfl h h

theorem off_RCV_HB_PULSE_PULSE {μ : Nat} (h : 0x800000000000000000000 ||| μ = μ) : InPages μ (offset F.RCV_HB_PULSE_PULSE.addr) := ⟨h, h⟩

theorem off_RCV_HOLD_CTL_ENTER {μ : Nat} (h : 0x800000000000000000000 ||| μ = μ) : InPages μ (offset F.RCV_HOLD_CTL_ENTER.addr) := ⟨h, h⟩

theorem ok_RCV_HOLD_LOST_LOST {μ : Nat} (h : 0x800000000000000000000 ||| μ = μ) : InPages μ F.RCV_HOLD_LOST_LOST.addr := ⟨h, h⟩

theorem ok_RCV_HOLD_RDPTR_RDPTR {μ : Nat} (h : 0x800000000000000000000 ||| μ = μ) : InPages μ F.RCV_HOLD_RDPTR_RDPTR.addr := ⟨h, h⟩

theorem ok_RCV_HOLD_STATUS_CAUSE {μ : Nat} (h : 0x800000000000000000000 ||| μ = μ) : InPages μ F.RCV_HOLD_STATUS_CAUSE.addr := ⟨h, h⟩

theorem ok_RCV_HOLD_STATUS_STATE {μ : Nat} (h : 0x800000000000000000000 ||| μ = μ) : InPages μ F.RCV_HOLD_STATUS_STATE.addr := ⟨h, h⟩

theorem ok_RCV_HOLD_WRPTR_WRPTR {μ : Nat} (h : 0x800000000000000000000 ||| μ = μ) : InPages μ F.RCV_HOLD_WRPTR_WRPTR.addr := ⟨h, h⟩

theorem ok_RCV_ORD_CMD_START {μ : Nat} (i : Nat) (h : 0x800000000000000000000 ||| μ = μ) : InPages μ (F.RCV_ORD_CMD_START i).addr :=
  inPages_of (p := 0x13) (q := 0x13) (by simp only [F.RCV_ORD_CMD_START]; omega) rfl h h

theorem off_RCV_ORD_CMD_START {μ : Nat} (i : Nat) (h : 0x800000000000000000000 ||| μ = μ) : InPages μ (offset (F.RCV_ORD_CMD_START i).addr) :=
  inPages_of (p := 0x13) (q := 0x13) (by simp only [F.RCV_ORD_CMD_START, offset]; omega) rfl h h

theorem ok_RCV_ORD_RESULT_SEQ {μ : Nat} (i : Nat) (h : 0x800000000000000000000 ||| μ = μ) : InPages μ (F.RCV_ORD_RESULT_SEQ i).addr :=
  inPages_of (p := 0x13) (q := 0x13) (by simp only [F.RCV_ORD_RESULT_SEQ]; omega) rfl h h

theorem ok_RCV_STATUS_DBUF_HELD {μ : Nat} (h : 0x800000000000000000000 ||| μ = μ) : InPages μ F.RCV_STATUS_DBUF_HELD.addr := ⟨h, h⟩

theorem ok_RCV_STATUS_DUMP_BUSY {μ : Nat} (h : 0x800000000000000000000 ||| μ = μ) : InPages μ F.RCV_STATUS_DUMP_BUSY.addr := ⟨h, h⟩

theorem ok_RCV_STATUS_NOTICES {μ : Nat} (h : 0x800000000000000000000 ||| μ = μ) : InPages μ F.RCV_STATUS_NOTICES.addr := ⟨h, h⟩

theorem ok_RCV_STATUS_ORDERS {μ : Nat} (h : 0x800000000000000000000 ||| μ = μ) : InPages μ F.RCV_STATUS_ORDERS.addr := ⟨h, h⟩

theorem ok_SBX_STATUS_LAST_SEQ {μ : Nat} (h : 0x4000000000000000000000 ||| μ = μ) : InPages μ F.SBX_STATUS_LAST_SEQ.addr := ⟨h, h⟩

theorem ok_SBX_STATUS_NEXT_SLOT {μ : Nat} (h : 0x4000000000000000000000 ||| μ = μ) : InPages μ F.SBX_STATUS_NEXT_SLOT.addr := ⟨h, h⟩

theorem ok_SBX_STATUS_RESTORE {μ : Nat} (h : 0x4000000000000000000000 ||| μ = μ) : InPages μ F.SBX_STATUS_RESTORE.addr := ⟨h, h⟩

theorem ok_SBX_STATUS_RESTORED_SLOT {μ : Nat} (h : 0x4000000000000000000000 ||| μ = μ) : InPages μ F.SBX_STATUS_RESTORED_SLOT.addr := ⟨h, h⟩

theorem off_SBX_VACK_SEQ {μ : Nat} (h : 0x4000000000000000000000 ||| μ = μ) : InPages μ (offset F.SBX_VACK_SEQ.addr) := ⟨h, h⟩

theorem ok_SBX_VSTORE_COUNT {μ : Nat} (h : 0x4000000000000000000000 ||| μ = μ) : InPages μ F.SBX_VSTORE_COUNT.addr := ⟨h, h⟩

theorem ok_SBX_VSTORE_NEXT_SEQ {μ : Nat} (h : 0x4000000000000000000000 ||| μ = μ) : InPages μ F.SBX_VSTORE_NEXT_SEQ.addr := ⟨h, h⟩

theorem ok_SBX_VSTORE_OVERWRITTEN {μ : Nat} (h : 0x4000000000000000000000 ||| μ = μ) : InPages μ F.SBX_VSTORE_OVERWRITTEN.addr := ⟨h, h⟩

theorem ok_SEP_CTL_PORT_EN {μ : Nat} (h : 0x400000000000000000 ||| μ = μ) : InPages μ F.SEP_CTL_PORT_EN.addr := ⟨h, h⟩

theorem ok_SEP_CTL_TC_EN {μ : Nat} (h : 0x400000000000000000 ||| μ = μ) : InPages μ F.SEP_CTL_TC_EN.addr := ⟨h, h⟩

theorem ok_SEP_DROP_CNT_ERRORED {μ : Nat} (h : 0x400000000000000000 ||| μ = μ) : InPages μ F.SEP_DROP_CNT_ERRORED.addr := ⟨h, h⟩

theorem ok_SEP_DROP_CNT_UNSUPPORTED {μ : Nat} (h : 0x400000000000000000 ||| μ = μ) : InPages μ F.SEP_DROP_CNT_UNSUPPORTED.addr := ⟨h, h⟩

theorem ok_SEP_ERR_FCS_ERR {μ : Nat} (h : 0x400000000000000000 ||| μ = μ) : InPages μ F.SEP_ERR_FCS_ERR.addr := ⟨h, h⟩

theorem ok_SEP_ERR_FW_RX_FULL {μ : Nat} (h : 0x400000000000000000 ||| μ = μ) : InPages μ F.SEP_ERR_FW_RX_FULL.addr := ⟨h, h⟩

theorem ok_SEP_ERR_MACCTL {μ : Nat} (h : 0x400000000000000000 ||| μ = μ) : InPages μ F.SEP_ERR_MACCTL.addr := ⟨h, h⟩

theorem ok_SEP_ERR_OVERSIZE {μ : Nat} (h : 0x400000000000000000 ||| μ = μ) : InPages μ F.SEP_ERR_OVERSIZE.addr := ⟨h, h⟩

theorem ok_SEP_ERR_PCS_DOWN {μ : Nat} (h : 0x400000000000000000 ||| μ = μ) : InPages μ F.SEP_ERR_PCS_DOWN.addr := ⟨h, h⟩

theorem ok_SEP_ERR_TS_LOST {μ : Nat} (h : 0x400000000000000000 ||| μ = μ) : InPages μ F.SEP_ERR_TS_LOST.addr := ⟨h, h⟩

theorem ok_SEP_STATUS_PCS_UP {μ : Nat} (h : 0x400000000000000000 ||| μ = μ) : InPages μ F.SEP_STATUS_PCS_UP.addr := ⟨h, h⟩

theorem ok_SYN_ERR_EXT_SIGNAL {μ : Nat} (h : 0x10000000000000000000000 ||| μ = μ) : InPages μ F.SYN_ERR_EXT_SIGNAL.addr := ⟨h, h⟩

theorem ok_SYN_ERR_OVERFLOW {μ : Nat} (h : 0x10000000000000000000000 ||| μ = μ) : InPages μ F.SYN_ERR_OVERFLOW.addr := ⟨h, h⟩

theorem ok_SYN_ERR_TASK_END {μ : Nat} (h : 0x10000000000000000000000 ||| μ = μ) : InPages μ F.SYN_ERR_TASK_END.addr := ⟨h, h⟩

theorem ok_SYN_OBJ_VIEW0_HEAD {μ : Nat} (i : Nat) (h : 0x10000000000000000000000 ||| μ = μ) : InPages μ (F.SYN_OBJ_VIEW0_HEAD i).addr :=
  inPages_of (p := 0x18) (q := 0x18) (by simp only [F.SYN_OBJ_VIEW0_HEAD]; omega) rfl h h

theorem ok_SYN_OBJ_VIEW0_VALUE {μ : Nat} (i : Nat) (h : 0x10000000000000000000000 ||| μ = μ) : InPages μ (F.SYN_OBJ_VIEW0_VALUE i).addr :=
  inPages_of (p := 0x18) (q := 0x18) (by simp only [F.SYN_OBJ_VIEW0_VALUE]; omega) rfl h h

theorem ok_SYN_OBJ_VIEW0_WAITERS {μ : Nat} (i : Nat) (h : 0x10000000000000000000000 ||| μ = μ) : InPages μ (F.SYN_OBJ_VIEW0_WAITERS i).addr :=
  inPages_of (p := 0x18) (q := 0x18) (by simp only [F.SYN_OBJ_VIEW0_WAITERS]; omega) rfl h h

theorem ok_SYN_OBJ_VIEW1_LAST_AGENT {μ : Nat} (i : Nat) (h : 0x10000000000000000000000 ||| μ = μ) : InPages μ (F.SYN_OBJ_VIEW1_LAST_AGENT i).addr :=
  inPages_of (p := 0x18) (q := 0x18) (by simp only [F.SYN_OBJ_VIEW1_LAST_AGENT]; omega) rfl h h

theorem ok_SYN_OBJ_VIEW1_LAST_TIME {μ : Nat} (i : Nat) (h : 0x10000000000000000000000 ||| μ = μ) : InPages μ (F.SYN_OBJ_VIEW1_LAST_TIME i).addr :=
  inPages_of (p := 0x18) (q := 0x18) (by simp only [F.SYN_OBJ_VIEW1_LAST_TIME]; omega) rfl h h

theorem ok_SYN_OBJ_VIEW2_SET {μ : Nat} (i : Nat) (h : 0x10000000000000000000000 ||| μ = μ) : InPages μ (F.SYN_OBJ_VIEW2_SET i).addr :=
  inPages_of (p := 0x18) (q := 0x18) (by simp only [F.SYN_OBJ_VIEW2_SET]; omega) rfl h h

theorem off_SYN_OBJ_VIEW2_SET {μ : Nat} (i : Nat) (h : 0x10000000000000000000000 ||| μ = μ) : InPages μ (offset (F.SYN_OBJ_VIEW2_SET i).addr) :=
  inPages_of (p := 0x18) (q := 0x18) (by simp only [F.SYN_OBJ_VIEW2_SET, offset]; omega) rfl h h

theorem off_SYN_SIGNAL_OBJECT {μ : Nat} (h : 0x10000000000000000000000 ||| μ = μ) : InPages μ (offset F.SYN_SIGNAL_OBJECT.addr) := ⟨h, h⟩

theorem off_SYN_VIOLATION_OBJECT {μ : Nat} (h : 0x10000000000000000000000 ||| μ = μ) : InPages μ (offset F.SYN_VIOLATION_OBJECT.addr) := ⟨h, h⟩

theorem ok_SYN_WAIT_GO_GRANTED {μ : Nat} (i : Nat) (h : 0x10000000000000000000000 ||| μ = μ) : InPages μ (F.SYN_WAIT_GO_GRANTED i).addr :=
  inPages_of (p := 0x18) (q := 0x18) (by simp only [F.SYN_WAIT_GO_GRANTED]; omega) rfl h h

theorem ok_TGAW_DATA_VALUE {μ : Nat} (i : Nat) (h : 0x1000000000000000004000000000000000000 ||| μ = μ) : InPages μ (F.TGAW_DATA_VALUE i).addr :=
  inPages_of (p := 0x50) (q := 0xa) (by simp only [F.TGAW_DATA_VALUE]; omega) rfl (or_sub h (by decide)) (or_sub h (by decide))

theorem ok_TGAW_EPOCH_EPOCH {μ : Nat} (i : Nat) (h : 0x1000000000000000004000000000000000000 ||| μ = μ) : InPages μ (F.TGAW_EPOCH_EPOCH i).addr :=
  inPages_of (p := 0x50) (q := 0xa) (by simp only [F.TGAW_EPOCH_EPOCH]; omega) rfl (or_sub h (by decide)) (or_sub h (by decide))

theorem ok_TGAW_FROM_ANSWERER {μ : Nat} (i : Nat) (h : 0x1000000000000000004000000000000000000 ||| μ = μ) : InPages μ (F.TGAW_FROM_ANSWERER i).addr :=
  inPages_of (p := 0x50) (q := 0xa) (by simp only [F.TGAW_FROM_ANSWERER]; omega) rfl (or_sub h (by decide)) (or_sub h (by decide))

theorem ok_TGAW_RESULT_SEQ {μ : Nat} (i : Nat) (h : 0x1000000000000000004000000000000000000 ||| μ = μ) : InPages μ (F.TGAW_RESULT_SEQ i).addr :=
  inPages_of (p := 0x50) (q := 0xa) (by simp only [F.TGAW_RESULT_SEQ]; omega) rfl (or_sub h (by decide)) (or_sub h (by decide))

theorem ok_TIM_ERR_JUMP_STALE {μ : Nat} (h : 0x2000000000000000000 ||| μ = μ) : InPages μ F.TIM_ERR_JUMP_STALE.addr := ⟨h, h⟩

theorem ok_TIM_ERR_SNAP_BUSY {μ : Nat} (h : 0x2000000000000000000 ||| μ = μ) : InPages μ F.TIM_ERR_SNAP_BUSY.addr := ⟨h, h⟩

theorem ok_TIM_PTP_DISCARD_FOREIGN {μ : Nat} (h : 0x2000000000000000000 ||| μ = μ) : InPages μ F.TIM_PTP_DISCARD_FOREIGN.addr := ⟨h, h⟩

theorem ok_TIM_PTP_DISCARD_INVALID {μ : Nat} (h : 0x2000000000000000000 ||| μ = μ) : InPages μ F.TIM_PTP_DISCARD_INVALID.addr := ⟨h, h⟩

theorem off_TIM_SNAP_CTL_GO {μ : Nat} (h : 0x2000000000000000000 ||| μ = μ) : InPages μ (offset F.TIM_SNAP_CTL_GO.addr) := ⟨h, h⟩

theorem ok_TIM_SNAP_NS_FRAC {μ : Nat} (i : Nat) (h : 0x2000000000000000000 ||| μ = μ) : InPages μ (F.TIM_SNAP_NS_FRAC i).addr :=
  inPages_of (p := 0x9) (q := 0x9) (by simp only [F.TIM_SNAP_NS_FRAC]; omega) rfl h h

theorem ok_TIM_SNAP_NS_NS {μ : Nat} (i : Nat) (h : 0x2000000000000000000 ||| μ = μ) : InPages μ (F.TIM_SNAP_NS_NS i).addr :=
  inPages_of (p := 0x9) (q := 0x9) (by simp only [F.TIM_SNAP_NS_NS]; omega) rfl h h

theorem ok_TIM_SNAP_RESULT_SEQ {μ : Nat} (h : 0x2000000000000000000 ||| μ = μ) : InPages μ F.TIM_SNAP_RESULT_SEQ.addr := ⟨h, h⟩

theorem ok_TIM_SNAP_SEC_SEC {μ : Nat} (i : Nat) (h : 0x2000000000000000000 ||| μ = μ) : InPages μ (F.TIM_SNAP_SEC_SEC i).addr :=
  inPages_of (p := 0x9) (q := 0x9) (by simp only [F.TIM_SNAP_SEC_SEC]; omega) rfl h h

theorem ok_TIM_TB_FREQ_APPLIED {μ : Nat} (i : Nat) (h : 0x2000000000000000000 ||| μ = μ) : InPages μ (F.TIM_TB_FREQ_APPLIED i).addr :=
  inPages_of (p := 0x9) (q := 0x9) (by simp only [F.TIM_TB_FREQ_APPLIED]; omega) rfl h h

theorem ok_TIM_TB_FREQ_INTEG {μ : Nat} (i : Nat) (h : 0x2000000000000000000 ||| μ = μ) : InPages μ (F.TIM_TB_FREQ_INTEG i).addr :=
  inPages_of (p := 0x9) (q := 0x9) (by simp only [F.TIM_TB_FREQ_INTEG]; omega) rfl h h

theorem off_TIM_TB_JUMP_ACCEPT {μ : Nat} (i : Nat) (h : 0x2000000000000000000 ||| μ = μ) : InPages μ (offset (F.TIM_TB_JUMP_ACCEPT i).addr) :=
  inPages_of (p := 0x9) (q := 0x9) (by simp only [F.TIM_TB_JUMP_ACCEPT, offset]; omega) rfl h h

theorem ok_TIM_TB_JUMP_PEND_SEQ {μ : Nat} (i : Nat) (h : 0x2000000000000000000 ||| μ = μ) : InPages μ (F.TIM_TB_JUMP_PEND_SEQ i).addr :=
  inPages_of (p := 0x9) (q := 0x9) (by simp only [F.TIM_TB_JUMP_PEND_SEQ]; omega) rfl h h

theorem ok_TIM_TB_OFFSET_OFFSET {μ : Nat} (i : Nat) (h : 0x2000000000000000000 ||| μ = μ) : InPages μ (F.TIM_TB_OFFSET_OFFSET i).addr :=
  inPages_of (p := 0x9) (q := 0x9) (by simp only [F.TIM_TB_OFFSET_OFFSET]; omega) rfl h h

theorem ok_TIM_TB_PENDING_PENDING {μ : Nat} (i : Nat) (h : 0x2000000000000000000 ||| μ = μ) : InPages μ (F.TIM_TB_PENDING_PENDING i).addr :=
  inPages_of (p := 0x9) (q := 0x9) (by simp only [F.TIM_TB_PENDING_PENDING]; omega) rfl h h

theorem ok_TIM_TB_STATUS_CAUSE {μ : Nat} (i : Nat) (h : 0x2000000000000000000 ||| μ = μ) : InPages μ (F.TIM_TB_STATUS_CAUSE i).addr :=
  inPages_of (p := 0x9) (q := 0x9) (by simp only [F.TIM_TB_STATUS_CAUSE]; omega) rfl h h

theorem ok_TIM_TB_STATUS_CLAMPED {μ : Nat} (i : Nat) (h : 0x2000000000000000000 ||| μ = μ) : InPages μ (F.TIM_TB_STATUS_CLAMPED i).addr :=
  inPages_of (p := 0x9) (q := 0x9) (by simp only [F.TIM_TB_STATUS_CLAMPED]; omega) rfl h h

theorem ok_TIM_TB_STATUS_DELAY {μ : Nat} (i : Nat) (h : 0x2000000000000000000 ||| μ = μ) : InPages μ (F.TIM_TB_STATUS_DELAY i).addr :=
  inPages_of (p := 0x9) (q := 0x9) (by simp only [F.TIM_TB_STATUS_DELAY]; omega) rfl h h

theorem ok_TIM_TB_STATUS_MEAS_CNT {μ : Nat} (i : Nat) (h : 0x2000000000000000000 ||| μ = μ) : InPages μ (F.TIM_TB_STATUS_MEAS_CNT i).addr :=
  inPages_of (p := 0x9) (q := 0x9) (by simp only [F.TIM_TB_STATUS_MEAS_CNT]; omega) rfl h h

theorem ok_TIM_TB_STATUS_STATE {μ : Nat} (i : Nat) (h : 0x2000000000000000000 ||| μ = μ) : InPages μ (F.TIM_TB_STATUS_STATE i).addr :=
  inPages_of (p := 0x9) (q := 0x9) (by simp only [F.TIM_TB_STATUS_STATE]; omega) rfl h h

theorem ok_TLY_BIN_CTL_FLUSH {μ : Nat} (h : 0x1000000000000000000 ||| μ = μ) : InPages μ F.TLY_BIN_CTL_FLUSH.addr := ⟨h, h⟩

theorem off_TLY_BIN_CTL_FLUSH {μ : Nat} (h : 0x1000000000000000000 ||| μ = μ) : InPages μ (offset F.TLY_BIN_CTL_FLUSH.addr) := ⟨h, h⟩

theorem ok_TLY_BIN_STATUS_MISSES {μ : Nat} (h : 0x1000000000000000000 ||| μ = μ) : InPages μ F.TLY_BIN_STATUS_MISSES.addr := ⟨h, h⟩

theorem ok_TLY_BIN_STATUS_USED {μ : Nat} (h : 0x1000000000000000000 ||| μ = μ) : InPages μ F.TLY_BIN_STATUS_USED.addr := ⟨h, h⟩

theorem ok_TLY_ERR_BIN_FULL {μ : Nat} (h : 0x1000000000000000000 ||| μ = μ) : InPages μ F.TLY_ERR_BIN_FULL.addr := ⟨h, h⟩

theorem ok_TLY_ERR_HA_LATE {μ : Nat} (h : 0x1000000000000000000 ||| μ = μ) : InPages μ F.TLY_ERR_HA_LATE.addr := ⟨h, h⟩

theorem ok_TLY_ERR_LATE_CUT {μ : Nat} (h : 0x1000000000000000000 ||| μ = μ) : InPages μ F.TLY_ERR_LATE_CUT.addr := ⟨h, h⟩

theorem ok_TLY_ERR_NO_SPACE {μ : Nat} (h : 0x1000000000000000000 ||| μ = μ) : InPages μ F.TLY_ERR_NO_SPACE.addr := ⟨h, h⟩

theorem ok_TLY_ERR_SCHED_BUSY {μ : Nat} (h : 0x1000000000000000000 ||| μ = μ) : InPages μ F.TLY_ERR_SCHED_BUSY.addr := ⟨h, h⟩

theorem ok_TLY_ERR_SCHED_CFG {μ : Nat} (h : 0x1000000000000000000 ||| μ = μ) : InPages μ F.TLY_ERR_SCHED_CFG.addr := ⟨h, h⟩

theorem ok_TLY_ERR_SHADOW_STALE {μ : Nat} (h : 0x1000000000000000000 ||| μ = μ) : InPages μ F.TLY_ERR_SHADOW_STALE.addr := ⟨h, h⟩

theorem ok_TLY_ERR_WB_CFG {μ : Nat} (h : 0x1000000000000000000 ||| μ = μ) : InPages μ F.TLY_ERR_WB_CFG.addr := ⟨h, h⟩

theorem ok_TLY_ERR_WB_MEM {μ : Nat} (h : 0x1000000000000000000 ||| μ = μ) : InPages μ F.TLY_ERR_WB_MEM.addr := ⟨h, h⟩

theorem ok_TLY_ERR_XBAR_IGNORED {μ : Nat} (h : 0x1000000000000000000 ||| μ = μ) : InPages μ F.TLY_ERR_XBAR_IGNORED.addr := ⟨h, h⟩

theorem ok_TLY_HA_STATUS_CUT_EPOCH {μ : Nat} (h : 0x1000000000000000000 ||| μ = μ) : InPages μ F.TLY_HA_STATUS_CUT_EPOCH.addr := ⟨h, h⟩

theorem ok_TLY_HA_STATUS_VALID {μ : Nat} (h : 0x1000000000000000000 ||| μ = μ) : InPages μ F.TLY_HA_STATUS_VALID.addr := ⟨h, h⟩

theorem ok_TLY_SCHED_CTL_EN {μ : Nat} (i : Nat) (h : 0x1000000000000000000 ||| μ = μ) : InPages μ (F.TLY_SCHED_CTL_EN i).addr :=
  inPages_of (p := 0x8) (q := 0x8) (by simp only [F.TLY_SCHED_CTL_EN]; omega) rfl h h

theorem off_TLY_SCHED_CTL_EN {μ : Nat} (i : Nat) (h : 0x1000000000000000000 ||| μ = μ) : InPages μ (offset (F.TLY_SCHED_CTL_EN i).addr) :=
  inPages_of (p := 0x8) (q := 0x8) (by simp only [F.TLY_SCHED_CTL_EN, offset]; omega) rfl h h

theorem ok_TLY_SCHED_CTL_STATE {μ : Nat} (i : Nat) (h : 0x1000000000000000000 ||| μ = μ) : InPages μ (F.TLY_SCHED_CTL_STATE i).addr :=
  inPages_of (p := 0x8) (q := 0x8) (by simp only [F.TLY_SCHED_CTL_STATE]; omega) rfl h h

theorem ok_TLY_SCHED_EPOCH_EPOCH {μ : Nat} (i : Nat) (h : 0x1000000000000000000 ||| μ = μ) : InPages μ (F.TLY_SCHED_EPOCH_EPOCH i).addr :=
  inPages_of (p := 0x8) (q := 0x8) (by simp only [F.TLY_SCHED_EPOCH_EPOCH]; omega) rfl h h

theorem ok_TLY_SCHED_EPOCH_FLAGS {μ : Nat} (i : Nat) (h : 0x1000000000000000000 ||| μ = μ) : InPages μ (F.TLY_SCHED_EPOCH_FLAGS i).addr :=
  inPages_of (p := 0x8) (q := 0x8) (by simp only [F.TLY_SCHED_EPOCH_FLAGS]; omega) rfl h h

theorem ok_TLY_SCHED_RANGE_FIRST {μ : Nat} (i : Nat) (h : 0x1000000000000000000 ||| μ = μ) : InPages μ (F.TLY_SCHED_RANGE_FIRST i).addr :=
  inPages_of (p := 0x8) (q := 0x8) (by simp only [F.TLY_SCHED_RANGE_FIRST]; omega) rfl h h

theorem ok_TLY_SCHED_START_START {μ : Nat} (i : Nat) (h : 0x1000000000000000000 ||| μ = μ) : InPages μ (F.TLY_SCHED_START_START i).addr :=
  inPages_of (p := 0x8) (q := 0x8) (by simp only [F.TLY_SCHED_START_START]; omega) rfl h h

theorem ok_TLY_STATUS_LAST_SCHED {μ : Nat} (h : 0x1000000000000000000 ||| μ = μ) : InPages μ F.TLY_STATUS_LAST_SCHED.addr := ⟨h, h⟩

theorem ok_TLY_STATUS_RUNNING {μ : Nat} (h : 0x1000000000000000000 ||| μ = μ) : InPages μ F.TLY_STATUS_RUNNING.addr := ⟨h, h⟩

theorem off_TLY_WB_CTL_ARM {μ : Nat} (h : 0x1000000000000000000 ||| μ = μ) : InPages μ (offset F.TLY_WB_CTL_ARM.addr) := ⟨h, h⟩

theorem ok_TLY_WB_CTL_EN {μ : Nat} (h : 0x1000000000000000000 ||| μ = μ) : InPages μ F.TLY_WB_CTL_EN.addr := ⟨h, h⟩

theorem off_TLY_WB_CTL_TRIG {μ : Nat} (h : 0x1000000000000000000 ||| μ = μ) : InPages μ (offset F.TLY_WB_CTL_TRIG.addr) := ⟨h, h⟩

theorem ok_TLY_WB_LOST_LOST {μ : Nat} (h : 0x1000000000000000000 ||| μ = μ) : InPages μ F.TLY_WB_LOST_LOST.addr := ⟨h, h⟩

theorem ok_TLY_WB_MARK_MARK {μ : Nat} (h : 0x1000000000000000000 ||| μ = μ) : InPages μ F.TLY_WB_MARK_MARK.addr := ⟨h, h⟩

theorem ok_TLY_WB_RDPTR_RDPTR {μ : Nat} (h : 0x1000000000000000000 ||| μ = μ) : InPages μ F.TLY_WB_RDPTR_RDPTR.addr := ⟨h, h⟩

theorem ok_TLY_WB_STATUS_SEQ {μ : Nat} (h : 0x1000000000000000000 ||| μ = μ) : InPages μ F.TLY_WB_STATUS_SEQ.addr := ⟨h, h⟩

theorem ok_TLY_WB_STATUS_STATE {μ : Nat} (h : 0x1000000000000000000 ||| μ = μ) : InPages μ F.TLY_WB_STATUS_STATE.addr := ⟨h, h⟩

theorem ok_TLY_WB_WRPTR_WRPTR {μ : Nat} (h : 0x1000000000000000000 ||| μ = μ) : InPages μ F.TLY_WB_WRPTR_WRPTR.addr := ⟨h, h⟩

theorem ok_TPI_CAP_CTL_LEVEL {μ : Nat} (i : Nat) (h : 0x800000000000000000 ||| μ = μ) : InPages μ (F.TPI_CAP_CTL_LEVEL i).addr :=
  inPages_of (p := 0x7) (q := 0x7) (by simp only [F.TPI_CAP_CTL_LEVEL]; omega) rfl h h

theorem ok_TPI_CAP_CTL_OVF {μ : Nat} (i : Nat) (h : 0x800000000000000000 ||| μ = μ) : InPages μ (F.TPI_CAP_CTL_OVF i).addr :=
  inPages_of (p := 0x7) (q := 0x7) (by simp only [F.TPI_CAP_CTL_OVF]; omega) rfl h h

theorem ok_TPI_CAP_RESULT_SEQ {μ : Nat} (i : Nat) (h : 0x800000000000000000 ||| μ = μ) : InPages μ (F.TPI_CAP_RESULT_SEQ i).addr :=
  inPages_of (p := 0x7) (q := 0x7) (by simp only [F.TPI_CAP_RESULT_SEQ]; omega) rfl h h

theorem off_TPI_CAP_RESULT_SEQ {μ : Nat} (i : Nat) (h : 0x800000000000000000 ||| μ = μ) : InPages μ (offset (F.TPI_CAP_RESULT_SEQ i).addr) :=
  inPages_of (p := 0x7) (q := 0x7) (by simp only [F.TPI_CAP_RESULT_SEQ, offset]; omega) rfl h h

theorem ok_TPI_CAP_RESULT_VALID {μ : Nat} (i : Nat) (h : 0x800000000000000000 ||| μ = μ) : InPages μ (F.TPI_CAP_RESULT_VALID i).addr :=
  inPages_of (p := 0x7) (q := 0x7) (by simp only [F.TPI_CAP_RESULT_VALID]; omega) rfl h h

theorem ok_TPI_CAP_TIME_TIME {μ : Nat} (i : Nat) (h : 0x800000000000000000 ||| μ = μ) : InPages μ (F.TPI_CAP_TIME_TIME i).addr :=
  inPages_of (p := 0x7) (q := 0x7) (by simp only [F.TPI_CAP_TIME_TIME]; omega) rfl h h

theorem ok_TPI_ERR_CAP_OVF {μ : Nat} (h : 0x800000000000000000 ||| μ = μ) : InPages μ F.TPI_ERR_CAP_OVF.addr := ⟨h, h⟩

theorem ok_TPI_ERR_CFG {μ : Nat} (h : 0x800000000000000000 ||| μ = μ) : InPages μ F.TPI_ERR_CFG.addr := ⟨h, h⟩

theorem ok_TPI_ERR_PULSE_LATE {μ : Nat} (h : 0x800000000000000000 ||| μ = μ) : InPages μ F.TPI_ERR_PULSE_LATE.addr := ⟨h, h⟩

theorem ok_TPI_PULSE_CTL_EN {μ : Nat} (i : Nat) (h : 0x800000000000000000 ||| μ = μ) : InPages μ (F.TPI_PULSE_CTL_EN i).addr :=
  inPages_of (p := 0x7) (q := 0x7) (by simp only [F.TPI_PULSE_CTL_EN]; omega) rfl h h

theorem off_TPI_PULSE_CTL_EN {μ : Nat} (i : Nat) (h : 0x800000000000000000 ||| μ = μ) : InPages μ (offset (F.TPI_PULSE_CTL_EN i).addr) :=
  inPages_of (p := 0x7) (q := 0x7) (by simp only [F.TPI_PULSE_CTL_EN, offset]; omega) rfl h h

theorem ok_TRE_CTL_ENG_EN {μ : Nat} (h : 0x10000000000000000000 ||| μ = μ) : InPages μ F.TRE_CTL_ENG_EN.addr := ⟨h, h⟩

theorem ok_TRE_ERR_BIND_ERR {μ : Nat} (h : 0x10000000000000000000 ||| μ = μ) : InPages μ F.TRE_ERR_BIND_ERR.addr := ⟨h, h⟩

theorem ok_TRE_ERR_ECC {μ : Nat} (h : 0x10000000000000000000 ||| μ = μ) : InPages μ F.TRE_ERR_ECC.addr := ⟨h, h⟩

theorem ok_TRE_ERR_JOB_ERR {μ : Nat} (h : 0x10000000000000000000 ||| μ = μ) : InPages μ F.TRE_ERR_JOB_ERR.addr := ⟨h, h⟩

theorem ok_TRE_ERR_SLOT_BUSY {μ : Nat} (h : 0x10000000000000000000 ||| μ = μ) : InPages μ F.TRE_ERR_SLOT_BUSY.addr := ⟨h, h⟩

theorem ok_TRE_ERR_STORE_PROT {μ : Nat} (h : 0x10000000000000000000 ||| μ = μ) : InPages μ F.TRE_ERR_STORE_PROT.addr := ⟨h, h⟩

theorem off_TRE_JOB_CTL_GO {μ : Nat} (i : Nat) (h : 0x10000000000000000000 ||| μ = μ) : InPages μ (offset (F.TRE_JOB_CTL_GO i).addr) :=
  inPages_of (p := 0xc) (q := 0xc) (by simp only [F.TRE_JOB_CTL_GO, offset]; omega) rfl h h

theorem ok_TRE_JOB_RESULT_SEQ {μ : Nat} (i : Nat) (h : 0x10000000000000000000 ||| μ = μ) : InPages μ (F.TRE_JOB_RESULT_SEQ i).addr :=
  inPages_of (p := 0xc) (q := 0xc) (by simp only [F.TRE_JOB_RESULT_SEQ]; omega) rfl h h

theorem ok_TRE_JOB_STATS_CYCLES {μ : Nat} (i : Nat) (h : 0x10000000000000000000 ||| μ = μ) : InPages μ (F.TRE_JOB_STATS_CYCLES i).addr :=
  inPages_of (p := 0xc) (q := 0xc) (by simp only [F.TRE_JOB_STATS_CYCLES]; omega) rfl h h

theorem ok_TRE_MODEL_CMD_START {μ : Nat} (h : 0x10000000000000000000 ||| μ = μ) : InPages μ F.TRE_MODEL_CMD_START.addr := ⟨h, h⟩

theorem off_TRE_MODEL_CMD_START {μ : Nat} (h : 0x10000000000000000000 ||| μ = μ) : InPages μ (offset F.TRE_MODEL_CMD_START.addr) := ⟨h, h⟩

theorem ok_TRE_MODEL_INFO_VALID {μ : Nat} (i : Nat) (h : 0x10000000000000000000 ||| μ = μ) : InPages μ (F.TRE_MODEL_INFO_VALID i).addr :=
  inPages_of (p := 0xc) (q := 0xc) (by simp only [F.TRE_MODEL_INFO_VALID]; omega) rfl h h

theorem ok_TRE_MODEL_LOC_OFFSET {μ : Nat} (i : Nat) (h : 0x10000000000000000000 ||| μ = μ) : InPages μ (F.TRE_MODEL_LOC_OFFSET i).addr :=
  inPages_of (p := 0xc) (q := 0xc) (by simp only [F.TRE_MODEL_LOC_OFFSET]; omega) rfl h h

theorem ok_TRE_MODEL_RESULT_SEQ {μ : Nat} (h : 0x10000000000000000000 ||| μ = μ) : InPages μ F.TRE_MODEL_RESULT_SEQ.addr := ⟨h, h⟩

theorem ok_TRE_STATUS_BOUND {μ : Nat} (h : 0x10000000000000000000 ||| μ = μ) : InPages μ F.TRE_STATUS_BOUND.addr := ⟨h, h⟩

theorem ok_TRE_STATUS_BUSY {μ : Nat} (h : 0x10000000000000000000 ||| μ = μ) : InPages μ F.TRE_STATUS_BUSY.addr := ⟨h, h⟩

theorem ok_TRE_STATUS_QUEUED {μ : Nat} (h : 0x10000000000000000000 ||| μ = μ) : InPages μ F.TRE_STATUS_QUEUED.addr := ⟨h, h⟩

theorem ok_VER_CAPACITY_LOCAL_PPM {μ : Nat} (h : 0x80000000000000000000 ||| μ = μ) : InPages μ F.VER_CAPACITY_LOCAL_PPM.addr := ⟨h, h⟩

theorem ok_VER_CTL_LOCAL_SHARE {μ : Nat} (h : 0x80000000000000000000 ||| μ = μ) : InPages μ F.VER_CTL_LOCAL_SHARE.addr := ⟨h, h⟩

theorem ok_VER_CTL_TRAY_EN {μ : Nat} (h : 0x80000000000000000000 ||| μ = μ) : InPages μ F.VER_CTL_TRAY_EN.addr := ⟨h, h⟩

theorem ok_VER_ENG_MASK_MASK {μ : Nat} (h : 0x80000000000000000000 ||| μ = μ) : InPages μ F.VER_ENG_MASK_MASK.addr := ⟨h, h⟩

theorem ok_VER_ERR_DISCARD {μ : Nat} (h : 0x80000000000000000000 ||| μ = μ) : InPages μ F.VER_ERR_DISCARD.addr := ⟨h, h⟩

theorem ok_VER_ERR_HOST_FAIL {μ : Nat} (h : 0x80000000000000000000 ||| μ = μ) : InPages μ F.VER_ERR_HOST_FAIL.addr := ⟨h, h⟩

theorem ok_VER_ERR_SELF_ERR {μ : Nat} (h : 0x80000000000000000000 ||| μ = μ) : InPages μ F.VER_ERR_SELF_ERR.addr := ⟨h, h⟩

theorem ok_VER_ERR_THRESH_CLAMP {μ : Nat} (h : 0x80000000000000000000 ||| μ = μ) : InPages μ F.VER_ERR_THRESH_CLAMP.addr := ⟨h, h⟩

theorem ok_VER_ERR_UNACCOUNTABLE {μ : Nat} (h : 0x80000000000000000000 ||| μ = μ) : InPages μ F.VER_ERR_UNACCOUNTABLE.addr := ⟨h, h⟩

theorem ok_VER_HA_RDPTR_RDPTR {μ : Nat} (h : 0x80000000000000000000 ||| μ = μ) : InPages μ F.VER_HA_RDPTR_RDPTR.addr := ⟨h, h⟩

theorem ok_VER_HA_WRPTR_WRPTR {μ : Nat} (h : 0x80000000000000000000 ||| μ = μ) : InPages μ F.VER_HA_WRPTR_WRPTR.addr := ⟨h, h⟩

theorem ok_VER_HOST_RATE_RATE {μ : Nat} (h : 0x80000000000000000000 ||| μ = μ) : InPages μ F.VER_HOST_RATE_RATE.addr := ⟨h, h⟩

theorem ok_VER_RATES_LOCAL_RATE {μ : Nat} (h : 0x80000000000000000000 ||| μ = μ) : InPages μ F.VER_RATES_LOCAL_RATE.addr := ⟨h, h⟩

theorem ok_VER_STATUS_OBS_ACTIVE {μ : Nat} (h : 0x80000000000000000000 ||| μ = μ) : InPages μ F.VER_STATUS_OBS_ACTIVE.addr := ⟨h, h⟩

theorem ok_VER_STATUS_OVER_CAP {μ : Nat} (h : 0x80000000000000000000 ||| μ = μ) : InPages μ F.VER_STATUS_OVER_CAP.addr := ⟨h, h⟩

theorem ok_VER_STATUS_QUEUED {μ : Nat} (h : 0x80000000000000000000 ||| μ = μ) : InPages μ F.VER_STATUS_QUEUED.addr := ⟨h, h⟩

theorem ok_VER_STATUS_STAGE_KIB {μ : Nat} (h : 0x80000000000000000000 ||| μ = μ) : InPages μ F.VER_STATUS_STAGE_KIB.addr := ⟨h, h⟩

theorem off_VER_SUBJ_STATE_CLEAR {μ : Nat} (i : Nat) (h : 0x80000000000000000000 ||| μ = μ) : InPages μ (offset (F.VER_SUBJ_STATE_CLEAR i).addr) :=
  inPages_of (p := 0xf) (q := 0xf) (by simp only [F.VER_SUBJ_STATE_CLEAR, offset]; omega) rfl h h

theorem ok_VER_SUBJ_STATE_INDEX {μ : Nat} (i : Nat) (h : 0x80000000000000000000 ||| μ = μ) : InPages μ (F.VER_SUBJ_STATE_INDEX i).addr :=
  inPages_of (p := 0xf) (q := 0xf) (by simp only [F.VER_SUBJ_STATE_INDEX]; omega) rfl h h

theorem ok_VER_SUBJ_STATE_LEVEL {μ : Nat} (i : Nat) (h : 0x80000000000000000000 ||| μ = μ) : InPages μ (F.VER_SUBJ_STATE_LEVEL i).addr :=
  inPages_of (p := 0xf) (q := 0xf) (by simp only [F.VER_SUBJ_STATE_LEVEL]; omega) rfl h h

theorem off_VER_SUBJ_STATE_OBSERVE {μ : Nat} (i : Nat) (h : 0x80000000000000000000 ||| μ = μ) : InPages μ (offset (F.VER_SUBJ_STATE_OBSERVE i).addr) :=
  inPages_of (p := 0xf) (q := 0xf) (by simp only [F.VER_SUBJ_STATE_OBSERVE, offset]; omega) rfl h h

theorem ok_VER_SUBJ_STATE_OBS_PASSED {μ : Nat} (i : Nat) (h : 0x80000000000000000000 ||| μ = μ) : InPages μ (F.VER_SUBJ_STATE_OBS_PASSED i).addr :=
  inPages_of (p := 0xf) (q := 0xf) (by simp only [F.VER_SUBJ_STATE_OBS_PASSED]; omega) rfl h h

theorem ok_VER_SUBJ_STATE_STATE {μ : Nat} (i : Nat) (h : 0x80000000000000000000 ||| μ = μ) : InPages μ (F.VER_SUBJ_STATE_STATE i).addr :=
  inPages_of (p := 0xf) (q := 0xf) (by simp only [F.VER_SUBJ_STATE_STATE]; omega) rfl h h

theorem ok_VER_TRAY_GRANT_GRANT {μ : Nat} (h : 0x80000000000000000000 ||| μ = μ) : InPages μ F.VER_TRAY_GRANT_GRANT.addr := ⟨h, h⟩


theorem ok_rstBits {μ : Nat} (h : 0x40000000000000000 ||| μ = μ) : InPages μ rstBits.addr := ⟨h, h⟩

theorem ok_linkField {μ : Nat} (x : Nat) (h : 0x780000000000000000 ||| μ = μ) : InPages μ (linkField x).addr := by
  have e3 := or_sub (a := 2 ^ (64 + 3)) h (by decide)
  have e4 := or_sub (a := 2 ^ (64 + 4)) h (by decide)
  have e5 := or_sub (a := 2 ^ (64 + 5)) h (by decide)
  have e6 := or_sub (a := 2 ^ (64 + 6)) h (by decide)
  unfold linkField
  split
  exacts [⟨e3, e3⟩, ⟨e4, e4⟩, ⟨e5, e5⟩, ⟨e6, e6⟩]

theorem ok_gateField {μ : Nat} (x : Nat) (h : 0x40000000000000000 ||| μ = μ) : InPages μ (gateField x).addr := by
  unfold gateField; repeat' split
  all_goals (try dsimp only)
  all_goals exact ⟨h, h⟩

theorem ok_resyncField {μ : Nat} (x : Nat) (h : 0x40000000000000000 ||| μ = μ) : InPages μ (resyncField x).addr := by
  unfold resyncField; repeat' split
  all_goals (try dsimp only)
  all_goals exact ⟨h, h⟩

theorem ok_csPresent {μ : Nat} (x : Nat) (h : 0x200000000000000000000000 ||| μ = μ) : InPages μ (csPresent x).addr := by
  unfold csPresent; repeat' split
  all_goals (try dsimp only)
  all_goals exact ⟨h, h⟩

theorem ok_tbRefused {μ : Nat} (x : Nat) (h : 0x2000000000000000000 ||| μ = μ) : InPages μ (tbRefused x).addr := by
  unfold tbRefused; repeat' split
  all_goals (try dsimp only)
  all_goals exact ⟨h, h⟩

theorem ok_tbHeld {μ : Nat} (x : Nat) (h : 0x2000000000000000000 ||| μ = μ) : InPages μ (tbHeld x).addr := by
  unfold tbHeld; repeat' split
  all_goals (try dsimp only)
  all_goals exact ⟨h, h⟩

theorem ok_ladderField {μ : Nat} (x : Nat) (h : 0x8000000000000000000 ||| μ = μ) : InPages μ (ladderField x).addr := by
  unfold ladderField; repeat' split
  all_goals (try dsimp only)
  all_goals exact ⟨h, h⟩

theorem ok_fenceField {μ : Nat} (x : Nat) (h : 0x800000000000000000000 ||| μ = μ) : InPages μ (fenceField x).addr := by
  unfold fenceField; repeat' split
  all_goals (try dsimp only)
  all_goals exact ⟨h, h⟩

theorem ok_txCredit {μ : Nat} (x v : Nat) (h : 0x200000000000000000 ||| μ = μ) : InPages μ (txCredit x v).addr := ok_FBP_TX_CREDIT_VC0 x h

theorem inPages_overrun {μ a : Nat} (h : InPages μ a) : InPages μ (overrunField (pageOf a)).addr := by
  have p : pageOf a < 30 := by
    unfold pageOf; dsimp only; repeat' split
    all_goals omega
  have q : (overrunField (pageOf a)).addr / 65536 = pageOf a := by simp only [overrunField]; omega
  refine ⟨by rw [q]; exact h.2, ?_⟩
  have r : pageOf (overrunField (pageOf a)).addr = pageOf a := by
    rw [pageOf.eq_1 (overrunField _).addr, q]; simp [p]
  rw [r]; exact h.2

theorem inPages_cw {μ n i : Nat} (hn : n < 16) (hi : i < 32) (h : 0x100000000000000008000000000000000000000 ||| μ = μ) : InPages μ (offset (cwWordAddr n i)) :=
  inPages_of (p := 0x58) (q := 0x17) (by simp only [cwWordAddr, offset]; omega) rfl (or_sub h (by decide)) (or_sub h (by decide))

theorem touch_ver {μ : Nat} {o s : State} (v : VerSt) (h : Touch μ o s) (hm : 0x20000000 ||| μ = μ := by decide) : Touch μ o { s with ver := v } :=
  touch_mk _ _ _ _ _ _ _ _ _ _ _ _ _ _ _ _ _ _ _ _ _ _ _ _ _ _ _ _ _ _ _ _ _ _ _ _ _ _ _ h (h29 := Or.inl hm)

theorem ok_prt {μ : Nat} (c r : Nat) (h : 0x400000000000000000000 ||| μ = μ) : InPages μ ((F.PRT_CH_BASE_ADDR c).addr + r % 0x40) :=
  inPages_of (p := 0x12) (q := 0x12) (by simp only [F.PRT_CH_BASE_ADDR]; omega) rfl h h

theorem ok_327712 {μ : Nat} (h : 0x200000000000000000 ||| μ = μ) : InPages μ 327712 := ⟨h, h⟩

theorem ok_262168 {μ : Nat} (h : 0x100000000000000000 ||| μ = μ) : InPages μ 262168 := ⟨h, h⟩

theorem off_sched {μ : Nat} (k r : Nat) (h : 0x1000000000000000000 ||| μ = μ) : InPages μ (offset ((F.TLY_SCHED_CTL_EN k).addr + 8 * (r % 3))) :=
  inPages_of (p := 0x8) (q := 0x8) (by simp only [F.TLY_SCHED_CTL_EN, offset]; omega) rfl h h

theorem ok_refusal {μ c : Nat} {f : Field} (e : refusalFlag c = some f) (h : 0x10000000000000000 ||| μ = μ) : InPages μ f.addr := by
  unfold refusalFlag at e
  split at e <;> cases e <;> exact ⟨h, h⟩

theorem pageOf_page (a : Nat) : pageOf a = pageOf (65536 * (a / 65536)) := by
  unfold pageOf; rw [Nat.mul_div_cancel_left _ (by decide)]

theorem reset_pages {p : Nat → Bool} {m μ : Nat} (hm : m ||| μ = μ) (h : ∀ k < 128, p (pageOf (65536 * k)) = true → 2 ^ (64 + k) ||| m = m)
    (h0 : p 0 = false) (a : Nat) (e : p (pageOf a) = true) : 2 ^ (64 + a / 65536) ||| μ = μ := by
  rw [pageOf_page] at e
  by_cases k : a / 65536 < 128
  · exact or_sub hm (h _ k e)
  · have z : pageOf (65536 * (a / 65536)) = 0 := by
      unfold pageOf; rw [Nat.mul_div_cancel_left _ (by decide)]; dsimp only; repeat' split
      all_goals omega
    rw [z, h0] at e; cases e

theorem look_filterMap_other {α : Type} {x : Nat} {f : Nat × α → Option (Nat × α)} (hf : ∀ e e', f e = some e' → e'.1 = e.1)
    (hx : ∀ v, f (x, v) = some (x, v)) (l : List (Nat × α)) : look x (l.filterMap f) = look x l := by
  induction l with
  | nil => rfl
  | cons e t ih =>
    obtain ⟨j, v⟩ := e
    by_cases hj : j = x
    · subst hj; simp [hx, look]
    · cases c : f (j, v) with
      | none => simp [c, look, hj, ih]
      | some y => obtain ⟨j', v'⟩ := y; have := hf _ _ c; simp only at this; subst this; simp [c, look, hj, ih]

/-- The mask covers every page, and every window of a page, whose registers a reset of the pages that satisfy `p` can change. -/
def ResetIn (μ : Nat) (p : Nat → Bool) : Prop := ∀ a, p (pageOf a) = true → 2 ^ (64 + a / 65536) ||| μ = μ

theorem resetRegs_touch {μ : Nat} {o s : State} (p : Nat → Bool) (h : Touch μ o s) (hp : ResetIn μ p) : Touch μ o (resetRegs p s) :=
  h.trans ⟨fun x e => by
    have k : p (pageOf x) = false := by
      cases c : p (pageOf x) with
      | false => rfl
      | true => rw [bit_of_or (hp x c)] at e; cases e
    have hf : ∀ e e', (fun e : Nat × Word => if (!p (pageOf e.1) || aonReg e.1) = true then some e
      else if keptWord e.1 e.2 = regDefault e.1 then none else some (e.1, keptWord e.1 e.2)) e = some e' → e'.1 = e.1 := by
      intro e e' he
      dsimp only at he
      split at he
      · cases he; rfl
      · split at he
        · cases he
        · cases he; rfl
    simp only [rd, resetRegs]
    rw [look_filterMap_other hf]
    intro v; simp [k], fun _ => rfl, fun _ => rfl, fun _ => rfl, fun _ => rfl, fun _ => rfl, fun _ => rfl, fun _ => rfl, fun _ => rfl, fun _ => rfl, fun _ => rfl, fun _ => rfl, fun _ => rfl, fun _ => rfl, fun _ => rfl, fun _ => rfl, fun _ => rfl, fun _ => rfl, fun _ => rfl, fun _ => rfl, fun _ => rfl, fun _ => rfl, fun _ => rfl, fun _ => rfl, fun _ => rfl, fun _ => rfl, fun _ => rfl, fun _ => rfl, fun _ => rfl, fun _ => rfl, fun _ => rfl, fun _ => rfl, fun _ => rfl, fun _ => rfl, fun _ => rfl, fun _ => rfl, fun _ => rfl, fun _ => rfl, fun _ => rfl⟩

theorem ofDomain_0 {μ : Nat} (hm : 0xffffffff01000000000000000b8001020000000000000000 ||| μ = μ) : ResetIn μ (ofDomain 0) :=
  reset_pages hm (by decide) (by decide)

theorem ofDomain_1 {μ : Nat} (hm : 0x1f0000000000000000000 ||| μ = μ) : ResetIn μ (ofDomain 1) :=
  reset_pages hm (by decide) (by decide)

theorem ofDomain_2 {μ : Nat} (hm : 0x600000000000000000000 ||| μ = μ) : ResetIn μ (ofDomain 2) :=
  reset_pages hm (by decide) (by decide)

theorem ofDomain_3 {μ : Nat} (hm : 0x1ff000000000000000c600000000000000000 ||| μ = μ) : ResetIn μ (ofDomain 3) :=
  reset_pages hm (by decide) (by decide)

theorem ofDomain_4 {μ : Nat} (hm : 0x2800000000000000000 ||| μ = μ) : ResetIn μ (ofDomain 4) :=
  reset_pages hm (by decide) (by decide)

theorem ofDomain_5 {μ : Nat} (hm : 0x80000000000000000 ||| μ = μ) : ResetIn μ (ofDomain 5) :=
  reset_pages hm (by decide) (by decide)

theorem ofDomain_6 {μ : Nat} (hm : 0x100000000000000000 ||| μ = μ) : ResetIn μ (ofDomain 6) :=
  reset_pages hm (by decide) (by decide)

theorem warm_pages {μ : Nat} (hm : 0xffffffff0101ff00000000000b87fd7a0000000000000000 ||| μ = μ) : ResetIn μ (fun p => (domainOf p).isSome && domainOf p != some 4) :=
  reset_pages (p := fun p => (domainOf p).isSome && domainOf p != some 4) hm (by decide) (by decide)

theorem itnShown_touch {μ : Nat} {o t : State} (s : State) (h : Touch μ o t) (hm : 0x20000000000000000 ||| μ = μ) :
    Touch μ o (itnShown.foldl (fun t a => wr t a (rd s a)) t) := by
  simp only [itnShown, List.foldl_cons, List.foldl_nil]
  repeat' first | exact h | exact ⟨hm, hm⟩ | apply wr_touch

end Sys2Proof.Machine
end

