-- ==== Sys2Proof/Laws/TouchPorts.lean ====
section
/-!
SUPPORT. What the shared operations and the ports can change: one lemma for each operation.
-/
namespace Sys2Proof.Machine
set_option Elab.async false
set_option linter.unusedSimpArgs false
set_option linter.unusedTactic false
set_option linter.unreachableTactic false

/-! Ops. -/

theorem set_touch {μ : Nat} {o s : State} (f : Field) (x : Nat) (h : Touch μ o s) (hf : InPages μ f.addr) : Touch μ o (set s f x) := by
  unfold set; simp only [wr_touch, wr_touch, hf, h]

theorem bump_touch {μ : Nat} {o s : State} (f : Field) (n : Nat) (h : Touch μ o s) (hf : InPages μ f.addr) : Touch μ o (bump s f n) := by
  unfold bump; simp only [set_touch, hf, h]

theorem setBit_touch {μ : Nat} {o s : State} (f : Field) (i : Nat) (b : Bool) (h : Touch μ o s) (hf : InPages μ f.addr) : Touch μ o (setBit s f i b) := by
  unfold setBit; simp only [set_touch, hf, h]

theorem lastWake_touch {μ : Nat} {o s : State} (src src_us phase : Nat) (h : Touch μ o s) (hm : 0x40000000000000000000000 ||| μ = μ := by decide) : Touch μ o (lastWake src src_us phase s) := by
  refine h.step hm ?_
  unfold lastWake; simp only [wr_touch, ok_PWR_LAST_WAKE_SOURCE, Touch.refl, Nat.reduceOr, wr_touch]

theorem wake_touch {μ : Nat} {o s : State} (src : Nat) (h : Touch μ o s) (hm : 0x40000000000004000000000 ||| μ = μ := by decide) : Touch μ o (wake src s) := by
  refine h.step hm ?_
  unfold wake; simp (maxDischargeDepth := 80) only [lastWake_touch, touch_mk, Touch.refl, ite_touch, Nat.reduceOr, true_or, or_true]

theorem workWake_touch {μ : Nat} {o s : State} (page : Nat) (h : Touch μ o s) (hm : 0x40000000000004000000000 ||| μ = μ := by decide) : Touch μ o (workWake page s) := by
  refine h.step hm ?_
  unfold workWake; simp only [wake_touch, Touch.refl, ite_touch, Nat.reduceOr]

theorem groupRise_touch {μ : Nat} {o s : State} (g : Nat) (h : Touch μ o s) (hm : 0x60000000000004000000400 ||| μ = μ := by decide) : Touch μ o (groupRise s g) := by
  refine h.step hm ?_
  unfold groupRise; simp (maxDischargeDepth := 80) only [setBit_touch, wake_touch, ok_IRQ_GRP_OUT_OUT, touch_mk, Touch.refl, ite_touch, Nat.reduceOr, true_or, or_true]

theorem groupUpdate_touch {μ : Nat} {o s : State} (free : Bool) (g : Nat) (h : Touch μ o s) (hm : 0x60000000000004000000400 ||| μ = μ := by decide) : Touch μ o (groupUpdate free g s) := by
  refine h.step hm ?_
  unfold groupUpdate; split <;> simp only [groupRise_touch, setBit_touch, ok_IRQ_GRP_OUT_OUT, Touch.refl, ite_touch, Nat.reduceOr]

theorem raiseIrq_touch {μ : Nat} {o s : State} (n : Nat) (h : Touch μ o s) (hm : 0x60000000000004000000400 ||| μ = μ := by decide) : Touch μ o (raiseIrq n s) := by
  refine h.step hm ?_
  unfold raiseIrq; simp (maxDischargeDepth := 80) only [setBit_touch, groupRise_touch, ok_IRQ_PEND_PEND, Touch.refl, ite_touch, Nat.reduceOr]

theorem flag_touch {μ : Nat} {o s : State} (f : Field) (h : Touch μ o s) (hf : InPages μ f.addr) (hm : 0x60000000000004000000400 ||| μ = μ := by decide) : Touch μ o (flag f s) := by
  have e0 : 0x20000000000000000000000 ||| μ = μ := or_sub hm (by decide)
  have e1 : 0x40000000000000000000000 ||| μ = μ := or_sub hm (by decide)
  have e2 : 0x60000000000004000000400 ||| μ = μ := or_sub hm (by decide)
  unfold flag; split <;> simp only [raiseIrq_touch, set_touch, e2, hf, h]

theorem flagBit_touch {μ : Nat} {o s : State} (f : Field) (i : Nat) (h : Touch μ o s) (hf : InPages μ f.addr) (hm : 0x60000000000004000000400 ||| μ = μ := by decide) : Touch μ o (flagBit f i s) := by
  have e0 : 0x20000000000000000000000 ||| μ = μ := or_sub hm (by decide)
  have e1 : 0x40000000000000000000000 ||| μ = μ := or_sub hm (by decide)
  have e2 : 0x60000000000004000000400 ||| μ = μ := or_sub hm (by decide)
  unfold flagBit; split <;> simp only [raiseIrq_touch, setBit_touch, e2, hf, h]

theorem record_touch {μ : Nat} {o s : State} (r : Raised) (h : Touch μ o s) (hm : 0x61000000000004000000480 ||| μ = μ := by decide) : Touch μ o (record r s) := by
  refine h.step hm ?_
  unfold record; simp (maxDischargeDepth := 80) only [flag_touch, bump_touch, set_touch, ok_GBK_ERR_LOST, ok_GBK_LOST_LOST, ok_GBK_STATUS_QUEUED, touch_mk, Touch.refl, ite_touch, Nat.reduceOr, true_or, or_true]

theorem note_touch {μ : Nat} {o s : State} (code cls payload : Nat) (h : Touch μ o s) (hm : 0x61000000000004000000480 ||| μ = μ := by decide) : Touch μ o (note code cls payload s) := by
  refine h.step hm ?_
  unfold note; simp only [record_touch, Touch.refl, Nat.reduceOr]

theorem report_touch {μ : Nat} {o s : State} (f : Field) (code cls payload : Nat) (h : Touch μ o s) (hf : InPages μ f.addr) (hm : 0x61000000000004000000480 ||| μ = μ := by decide) : Touch μ o (report f code cls payload s) := by
  have e0 : 0x1000000000000000000000 ||| μ = μ := or_sub hm (by decide)
  have e1 : 0x20000000000000000000000 ||| μ = μ := or_sub hm (by decide)
  have e2 : 0x40000000000000000000000 ||| μ = μ := or_sub hm (by decide)
  have e3 : 0x60000000000004000000400 ||| μ = μ := or_sub hm (by decide)
  have e4 : 0x61000000000004000000480 ||| μ = μ := or_sub hm (by decide)
  unfold report; simp only [note_touch, flag_touch, e3, e4, hf, h]

theorem countUp_touch {μ : Nat} {o s : State} (i n : Nat) (h : Touch μ o s) (hm : 0x20000 ||| μ = μ := by decide) : Touch μ o (countUp i n s) := by
  refine h.step hm ?_
  unfold countUp; simp only [touch_mk, Touch.refl, Nat.reduceOr, true_or, or_true]

theorem prod_touch {μ : Nat} {o s : State} (i n : Nat) (h : Touch μ o s) (hm : 0x20000 ||| μ = μ := by decide) : Touch μ o (prod i n s) := by
  refine h.step hm ?_
  unfold prod; simp only [countUp_touch, Touch.refl, ite_touch, Nat.reduceOr]

theorem ledger_touch {μ : Nat} {o s : State} (kind port priv flags init target detail : Nat) (old new : Word) (h : Touch μ o s) (hm : 0x2000000000000000000100 ||| μ = μ := by decide) : Touch μ o (ledger kind port priv flags init target detail old new s) := by
  refine h.step hm ?_
  unfold ledger; simp (maxDischargeDepth := 80) only [set_touch, ok_LDG_SEQ_SEQ, ok_LDG_CHAIN_CHAIN, ok_LDG_STATUS_QUEUED, touch_mk, Touch.refl, Nat.reduceOr, true_or, or_true]

theorem ledgerPass_touch {μ : Nat} {o s : State} (h : Touch μ o s) (hm : 0x63000000000004000000580 ||| μ = μ := by decide) : Touch μ o (ledgerPass s) := by
  refine h.step hm ?_
  unfold ledgerPass; repeat' first | (simp (maxDischargeDepth := 80) only [set_touch, bump_touch, note_touch, ok_LDG_STATUS_QUEUED, ok_LDG_OVERWRITTEN_COUNT, touch_mk, Touch.refl, ite_touch, Nat.reduceOr, true_or, or_true]; done) | split

theorem post_touch {μ : Nat} {o s : State} (a seq : Nat) (rest : Word) (h : Touch μ o s) (ha : InPages μ a) (hm : 0x60000000000004000000400 ||| μ = μ := by decide) : Touch μ o (post a seq rest s) := by
  have e0 : 0x20000000000000000000000 ||| μ = μ := or_sub hm (by decide)
  have e1 : 0x40000000000000000000000 ||| μ = μ := or_sub hm (by decide)
  have e2 : 0x60000000000004000000400 ||| μ = μ := or_sub hm (by decide)
  unfold post; simp only [raiseIrq_touch, wr_touch, wr_touch, e2, ha, h]

theorem wrongSeq_touch {μ : Nat} {o s : State} (a : Nat) (h : Touch μ o s) (hm : 0x61000000000004000000480 ||| μ = μ := by decide) : Touch μ o (wrongSeq a s) := by
  refine h.step hm ?_
  unfold wrongSeq; simp only [record_touch, Touch.refl, Nat.reduceOr]

theorem undefinedField_touch {μ : Nat} {o s : State} (a v : Nat) (h : Touch μ o s) (hm : 0x61000000000004000000480 ||| μ = μ := by decide) : Touch μ o (undefinedField a v s) := by
  refine h.step hm ?_
  unfold undefinedField; simp only [record_touch, Touch.refl, Nat.reduceOr]

theorem syncSignal_touch {μ : Nat} {o_ s : State} (o amount agent : Nat) (h : Touch μ o_ s) (hm : 0x71000000000004000000480 ||| μ = μ := by decide) : Touch μ o_ (syncSignal o amount agent s) := by
  refine h.step hm ?_
  unfold syncSignal; simp (maxDischargeDepth := 80) only [report_touch, set_touch, ok_SYN_ERR_OVERFLOW, ok_SYN_OBJ_VIEW0_VALUE, ok_SYN_OBJ_VIEW1_LAST_AGENT, ok_SYN_OBJ_VIEW1_LAST_TIME, Touch.refl, ite_touch, Nat.reduceOr]

theorem syncEvent_touch {μ : Nat} {o s : State} (e agent : Nat) (h : Touch μ o s) (hm : 0x71000000000004000000480 ||| μ = μ := by decide) : Touch μ o (syncEvent e agent s) := by
  refine h.step hm ?_
  unfold syncEvent; simp (maxDischargeDepth := 80) only [syncSignal_touch, implies_true, Touch.refl, foldl_touch, ite_touch, Nat.reduceOr]

theorem busyFor_touch {μ : Nat} {o s : State} (i : Nat) (h : Touch μ o s) (hm : 0x20000 ||| μ = μ := by decide) : Touch μ o (busyFor i s) := by
  refine h.step hm ?_
  unfold busyFor; simp only [prod_touch, tickFree_touch, Touch.refl, Nat.reduceOr, tickFree_touch]

/-! Flags. -/

theorem overrun_touch {μ : Nat} {o s : State} (page n : Nat) (h : Touch μ o s) (hpage : InPages μ (overrunField page).addr) : Touch μ o (overrun page n s) := by
  unfold overrun; simp only [bump_touch, ite_touch, hpage, h]

theorem accessRecord_touch {μ : Nat} {o s : State} (code a : Nat) (acc : Acc) (h : Touch μ o s) (hm : 0x61000000000004000000480 ||| μ = μ := by decide) : Touch μ o (accessRecord code a acc s) := by
  refine h.step hm ?_
  unfold accessRecord; simp only [record_touch, Touch.refl, Nat.reduceOr]

theorem loadErrAddr_touch {μ : Nat} {o s : State} (a : Nat) (acc : Acc) (h : Touch μ o s) (hm : 0x10000000000000000 ||| μ = μ := by decide) : Touch μ o (loadErrAddr a acc s) := by
  refine h.step hm ?_
  unfold loadErrAddr; simp only [wr_touch, ok_GLB_ERR_ADDR_OFFSET, Touch.refl, Nat.reduceOr, wr_touch]

theorem answer_touch {μ : Nat} {o s : State} (st : Nat) (acc : Acc) (h : Touch μ o s) (hm : 0x30 ||| μ = μ := by decide) : Touch μ o (answer st acc s) := by
  refine h.step hm ?_
  unfold answer; simp only [touch_mk, Touch.refl, Nat.reduceOr, true_or, or_true]

theorem refuseWrite_touch {μ : Nat} {o s : State} (c a : Nat) (acc : Acc) (h : Touch μ o s) (hm : 0x610000100000040000004b0 ||| μ = μ := by decide) :
    Touch μ o (refuseWrite c a acc s) := by
  refine h.step hm ?_
  unfold refuseWrite
  dsimp only
  refine accessRecord_touch _ _ _ ?_
  split
  · next f e => exact loadErrAddr_touch _ _ (flag_touch _ (answer_touch _ _ (Touch.refl _ _)) (ok_refusal e (by decide)))
  · exact answer_touch _ _ (Touch.refl _ _)

/-! Access. -/

theorem ledgerReg_touch {μ : Nat} {o s : State} (a : Nat) (acc : Acc) (old : Word) (h : Touch μ o s) (hm : 0x2000000000000000000100 ||| μ = μ := by decide) : Touch μ o (ledgerReg a acc old s) := by
  refine h.step hm ?_
  unfold ledgerReg; simp only [ledger_touch, Touch.refl, Nat.reduceOr]

theorem perform_touch {μ : Nat} {o s : State} (a : Nat) (acc : Acc) (h : Touch μ o s) (ha : InPages μ a) (hm : 0x62000000000004000000500 ||| μ = μ := by decide) :
    Touch μ o (perform a acc s) := by
  have e0 : 0x60000000000004000000400 ||| μ = μ := or_sub hm (by decide)
  have e1 : 0x2000000000000000000100 ||| μ = μ := or_sub hm (by decide)
  have eo := inPages_overrun ha
  unfold perform; repeat' first | (simp (maxDischargeDepth := 80) only [wr_touch, raiseIrq_touch, overrun_touch, ledgerReg_touch, ite_touch, ha, eo, e0, e1, hm, h]; done) | split

theorem portWrite_touch {μ : Nat} {o s : State} (unit : Nat → Acc → State → State) (a : Nat) (acc : Acc)
    (hunit : ∀ x t, Touch μ t (unit (offset a) x t)) (h : Touch μ o s) (hm : 0x630000100000040000005b0 ||| μ = μ := by decide) : Touch μ o (portWrite unit a acc s) := by
  have e0 : 0x40000000000004000000000 ||| μ = μ := or_sub hm (by decide)
  have e1 : 0x63000000000004000000580 ||| μ = μ := or_sub hm (by decide)
  have e2 : 0x30 ||| μ = μ := or_sub hm (by decide)
  have e3 : 0x40000000000004000000000 ||| μ = μ := or_sub hm (by decide)
  have e4 : 0x610000100000040000004b0 ||| μ = μ := or_sub hm (by decide)
  have e5 : 0x4000000000 ||| μ = μ := or_sub hm (by decide)
  have e6 : 0x100 ||| μ = μ := or_sub hm (by decide)
  have ku {o t : State} (h : Touch μ o t) (x : Acc) : Touch μ o (unit (offset a) x t) := h.trans (hunit x t)
  unfold portWrite; repeat' first | (simp (maxDischargeDepth := 80) only [wake_touch, ledgerPass_touch, answer_touch, workWake_touch, refuseWrite_touch, ite_touch, touch_mk, ku, e0, e1, e2, e3, e4, e5, e6, true_or, or_true, hm, h]; done) | with_reducible (refine ite_touch ?_ ?_) | split | (dsimp only; with_reducible (refine ite_touch ?_ ?_)) | (dsimp only; split)

theorem bringing_touch {μ : Nat} {o s : State} (buf : Option (List Byte)) (step : Option StepEffect) (f : State → State) (hf : ∀  t, Touch μ t (f  t)) (h : Touch μ o s) (hm : 0x4000000000 ||| μ = μ := by decide) : Touch μ o (bringing buf step f s) := by
  have kf {o t : State} (h : Touch μ o t) : Touch μ o (f  t) := h.trans (hf  _)
  unfold bringing; simp (maxDischargeDepth := 80) only [touch_mk, ite_touch, true_or, or_true, hm, h, kf]

theorem consume_touch {μ : Nat} {o s : State} (a : Nat) (acc : Acc) (h : Touch μ o s) (ha : InPages μ a) (hm : 0x63000000000004000000580 ||| μ = μ := by decide) : Touch μ o (consume a acc s) := by
  have e0 : 0x1000000000000000000000 ||| μ = μ := or_sub hm (by decide)
  have e1 : 0x2000000000000000000000 ||| μ = μ := or_sub hm (by decide)
  have e2 : 0x2000000000000000000100 ||| μ = μ := or_sub hm (by decide)
  have e3 : 0x20000000000000000000000 ||| μ = μ := or_sub hm (by decide)
  have e4 : 0x40000000000000000000000 ||| μ = μ := or_sub hm (by decide)
  have e5 : 0x61000000000004000000480 ||| μ = μ := or_sub hm (by decide)
  unfold consume; simp (maxDischargeDepth := 80) only [wr_touch, ledgerReg_touch, wrongSeq_touch, ite_touch, wr_touch, e2, e5, ha, h]

theorem startDone_touch {μ : Nat} {o s : State} (f : Field) (h : Touch μ o s) (hf : InPages μ f.addr) : Touch μ o (startDone f s) := by
  unfold startDone; simp only [set_touch, hf, h]

/-! Innkeeper. -/

theorem setInkQ_touch {μ : Nat} {o s : State} (q : Nat) (v : InkQ) (h : Touch μ o s) (hm : 0x80000 ||| μ = μ := by decide) : Touch μ o (setInkQ q v s) := by
  refine h.step hm ?_
  unfold setInkQ; simp only [touch_mk, Touch.refl, Nat.reduceOr, true_or, or_true]

theorem showDepth_touch {μ : Nat} {o s : State} (q : Nat) (h : Touch μ o s) (hm : 0x8000000000000000000 ||| μ = μ := by decide) : Touch μ o (showDepth q s) := by
  refine h.step hm ?_
  unfold showDepth; simp only [set_touch, ok_INK_Q_STATE_DEPTH, Touch.refl, Nat.reduceOr]

theorem pushItem_touch {μ : Nat} {o s : State} (q : Nat) (it : InkItem) (h : Touch μ o s) (hm : 0x8000000000000080000 ||| μ = μ := by decide) : Touch μ o (pushItem q it s) := by
  refine h.step hm ?_
  unfold pushItem; simp only [showDepth_touch, setInkQ_touch, Touch.refl, Nat.reduceOr]

theorem lose_touch {μ : Nat} {o s : State} (cls : Nat) (h : Touch μ o s) (hm : 0x80000 ||| μ = μ := by decide) : Touch μ o (lose cls s) := by
  refine h.step hm ?_
  unfold lose; simp only [touch_mk, Touch.refl, Nat.reduceOr, true_or, or_true]

theorem sendPkt_touch {μ : Nat} {o s : State} (p : Pkt) (dstLevel dst : Nat) (child : Option Nat) (restore : Bool) (h : Touch μ o s) (hm : 0x610080000000040000a0480 ||| μ = μ := by decide) : Touch μ o (sendPkt p dstLevel dst child restore s) := by
  refine h.step hm ?_
  unfold sendPkt; repeat' first | (simp (maxDischargeDepth := 80) only [lose_touch, prod_touch, workWake_touch, report_touch, pushItem_touch, ok_INK_ERR_NO_QUEUE, ok_INK_ERR_Q_DROP, touch_mk, Touch.refl, ite_touch, Nat.reduceOr, true_or, or_true]; done) | with_reducible (refine ite_touch ?_ ?_) | with_reducible (refine foldl_touch (fun _ _ => ?_) ?_) | split

theorem roomResume_touch {μ : Nat} {o s : State} (q : Nat) (h : Touch μ o s) (hm : 0x8000000000000080000 ||| μ = μ := by decide) : Touch μ o (roomResume q s) := by
  refine h.step hm ?_
  unfold roomResume; repeat' first | (simp only [pushItem_touch, touch_mk, Touch.refl, Nat.reduceOr, true_or, or_true]; done) | split

theorem showPause_touch {μ : Nat} {o s : State} (key : Nat) (h : Touch μ o s) (hm : 0x8000000000000000000 ||| μ = μ := by decide) : Touch μ o (showPause key s) := by
  refine h.step hm ?_
  unfold showPause; split <;> simp only [setBit_touch, ok_INK_STATUS_PAUSED, Touch.refl, Nat.reduceOr]

theorem ladderPause_touch {μ : Nat} {o s : State} (q : Nat) (wr : Bool) (h : Touch μ o s) (hm : 0x61008000000004000080480 ||| μ = μ := by decide) : Touch μ o (ladderPause q wr s) := by
  refine h.step hm ?_
  unfold ladderPause; repeat' first | (simp (maxDischargeDepth := 80) only [showPause_touch, record_touch, flag_touch, bump_touch, ok_INK_ERR_LADDER, ok_ladderField, touch_mk, Touch.refl, ite_touch, Nat.reduceOr, true_or, or_true]; done) | with_reducible (refine ite_touch ?_ ?_) | with_reducible (refine foldl_touch (fun _ _ => ?_) ?_) | split | (dsimp only; with_reducible (refine ite_touch ?_ ?_)) | (dsimp only; split)

theorem endRisk_touch {μ : Nat} {o s : State} (r : InkRisk) (h : Touch μ o s) (hm : 0x61008000000004000080480 ||| μ = μ := by decide) : Touch μ o (endRisk s r) := by
  refine h.step hm ?_
  unfold endRisk; simp (maxDischargeDepth := 80) only [showPause_touch, note_touch, touch_mk, Touch.refl, ite_touch, Nat.reduceOr, true_or, or_true]

theorem endRisks_touch {μ : Nat} {o s : State} (key : Nat) (h : Touch μ o s) (hm : 0x61008000000004000080480 ||| μ = μ := by decide) : Touch μ o (endRisks key s) := by
  refine h.step hm ?_
  unfold endRisks; simp only [endRisk_touch, implies_true, Touch.refl, foldl_touch, Nat.reduceOr]

theorem popHead_touch {μ : Nat} {o s : State} (key q : Nat) (h : Touch μ o s) (hm : 0x8000000000000080000 ||| μ = μ := by decide) : Touch μ o (popHead key q s) := by
  refine h.step hm ?_
  unfold popHead; simp (maxDischargeDepth := 80) only [setInkQ_touch, showDepth_touch, touch_mk, Touch.refl, ite_touch, Nat.reduceOr, true_or, or_true]

theorem advanceSeq_touch {μ : Nat} {o s : State} (k : Nat × Nat × Nat) (n : Nat) (h : Touch μ o s) (hm : 0x2000 ||| μ = μ := by decide) : Touch μ o (advanceSeq k n s) := by
  refine h.step hm ?_
  unfold advanceSeq; simp only [touch_mk, Touch.refl, Nat.reduceOr, true_or, or_true]

theorem setAnnounce_touch {μ : Nat} {o s : State} (a : Announce) (h : Touch μ o s) (hm : 0x80000 ||| μ = μ := by decide) : Touch μ o (setAnnounce a s) := by
  refine h.step hm ?_
  unfold setAnnounce; simp only [touch_mk, Touch.refl, Nat.reduceOr, true_or, or_true]

theorem countAnnounce_touch {μ : Nat} {o s : State} (p : Pkt) (dst seq : Nat) (h : Touch μ o s) (hm : 0x80000 ||| μ = μ := by decide) : Touch μ o (countAnnounce p dst seq s) := by
  refine h.step hm ?_
  unfold countAnnounce; simp only [setAnnounce_touch, Touch.refl, ite_touch, Nat.reduceOr]

theorem timeSent_touch {μ : Nat} {o s : State} (lane : Nat) (p : Pkt) (dstLevel dst : Nat) (h : Touch μ o s) (hm : 0x610080000000040000b0480 ||| μ = μ := by decide) : Touch μ o (timeSent lane p dstLevel dst s) := by
  refine h.step hm ?_
  unfold timeSent; repeat' first | (simp (maxDischargeDepth := 80) only [prod_touch, sendPkt_touch, touch_mk, Touch.refl, Nat.reduceOr, true_or, or_true]; done) | with_reducible (refine ite_touch ?_ ?_) | with_reducible (refine foldl_touch (fun _ _ => ?_) ?_) | split | (dsimp only; with_reducible (refine ite_touch ?_ ?_)) | (dsimp only; split)

theorem sendSelected_touch {μ : Nat} {o s : State} (lane q : Nat) (it : InkItem) (p : Pkt) (dstLevel dst : Nat) (h : Touch μ o s) (hm : 0x610082000000040000b2484 ||| μ = μ := by decide) : Touch μ o (sendSelected lane q it p dstLevel dst s) := by
  refine h.step hm ?_
  unfold sendSelected; simp (maxDischargeDepth := 80) only [popHead_touch, countAnnounce_touch, advanceSeq_touch, set_touch, emit_touch, prod_touch, timeSent_touch, ok_txCredit, Touch.refl, ite_touch, Nat.reduceOr, emit_touch]

theorem showMmp_touch {μ : Nat} {o s : State} (h : Touch μ o s) (hm : 0x100000000000000000 ||| μ = μ := by decide) : Touch μ o (showMmp s) := by
  refine h.step hm ?_
  unfold showMmp; simp (maxDischargeDepth := 80) only [set_touch, ok_MMP_STATUS_RD_OUT, ok_MMP_STATUS_WR_OUT, Touch.refl, Nat.reduceOr]

theorem issueSelected_touch {μ : Nat} {o s : State} (key q : Nat) (r : MemReq) (h : Touch μ o s) (hm : 0x8100000000000081004 ||| μ = μ := by decide) : Touch μ o (issueSelected key q r s) := by
  refine h.step hm ?_
  unfold issueSelected; simp (maxDischargeDepth := 80) only [popHead_touch, emit_touch, showMmp_touch, touch_mk, Touch.refl, Nat.reduceOr, true_or, or_true, emit_touch]

theorem inkSelect_touch {μ : Nat} {o s : State} (key : Nat) (h : Touch μ o s) (hm : 0x610083000000040000b3484 ||| μ = μ := by decide) : Touch μ o (inkSelect key s) := by
  refine h.step hm ?_
  unfold inkSelect; repeat' first | (simp only [endRisks_touch, sendSelected_touch, issueSelected_touch, Touch.refl, Nat.reduceOr]; done) | split

theorem refill_touch {μ : Nat} {o s : State} (h : Touch μ o s) (hm : 0x80000 ||| μ = μ := by decide) : Touch μ o (refill s) := by
  refine h.step hm ?_
  unfold refill; simp (maxDischargeDepth := 80) only [setInkQ_touch, implies_true, Touch.refl, foldl_touch, ite_touch, Nat.reduceOr]

theorem fillBuckets_touch {μ : Nat} {o s : State} (h : Touch μ o s) (hm : 0x80000 ||| μ = μ := by decide) : Touch μ o (fillBuckets s) := by
  refine h.step hm ?_
  unfold fillBuckets; simp (maxDischargeDepth := 80) only [setInkQ_touch, implies_true, Touch.refl, foldl_touch, ite_touch, Nat.reduceOr]

theorem closeSketches_touch {μ : Nat} {o s : State} (epoch : Nat) (h : Touch μ o s) (hm : 0x80000 ||| μ = μ := by decide) : Touch μ o (closeSketches epoch s) := by
  refine h.step hm ?_
  unfold closeSketches; simp only [touch_mk, Touch.refl, Nat.reduceOr, true_or, or_true]

theorem police_touch {μ : Nat} {o s : State} (lane vc beats : Nat) (h : Touch μ o s) (hm : 0x610080000000040000a0480 ||| μ = μ := by decide) : Touch μ o (police lane vc beats s).1 := by
  refine h.step hm ?_
  unfold police; repeat' first | (simp (maxDischargeDepth := 80) only [setInkQ_touch, record_touch, flag_touch, prod_touch, ok_INK_ERR_POLICED, Touch.refl, Nat.reduceOr]; done) | with_reducible (refine ite_touch ?_ ?_) | with_reducible (refine foldl_touch (fun _ _ => ?_) ?_) | split | (dsimp only; with_reducible (refine ite_touch ?_ ?_)) | (dsimp only; split)

theorem inkWrite_touch {μ : Nat} {o s : State} (a : Nat) (acc : Acc) (h : Touch μ o s) (ha : InPages μ a) (hm : 0x63008000000004000000580 ||| μ = μ := by decide) : Touch μ o (inkWrite a acc s) := by
  have e0 : 0x8000000000000000000 ||| μ = μ := or_sub hm (by decide)
  have e1 : 0x1000000000000000000000 ||| μ = μ := or_sub hm (by decide)
  have e2 : 0x2000000000000000000000 ||| μ = μ := or_sub hm (by decide)
  have e3 : 0x20000000000000000000000 ||| μ = μ := or_sub hm (by decide)
  have e4 : 0x40000000000000000000000 ||| μ = μ := or_sub hm (by decide)
  have e5 : 0x61000000000004000000480 ||| μ = μ := or_sub hm (by decide)
  have e6 : 0x62000000000004000000500 ||| μ = μ := or_sub hm (by decide)
  unfold inkWrite; simp (maxDischargeDepth := 80) only [report_touch, perform_touch, set_touch, ok_INK_ERR_CFG, ok_INK_CLASS_LIMIT, ite_touch, e0, e5, e6, ha, h]

/-! Fabric. -/

theorem setRx_touch {μ : Nat} {o s : State} (lane vc : Nat) (v : RxVc) (h : Touch μ o s) (hm : 0x2000 ||| μ = μ := by decide) : Touch μ o (setRx lane vc v s) := by
  refine h.step hm ?_
  unfold setRx; simp only [touch_mk, Touch.refl, Nat.reduceOr, true_or, or_true]

theorem giveCredit_touch {μ : Nat} {o s : State} (lane vc n : Nat) (h : Touch μ o s) (hm : 0x2004 ||| μ = μ := by decide) : Touch μ o (giveCredit lane vc n s) := by
  refine h.step hm ?_
  unfold giveCredit; split <;> simp only [emit_touch, setRx_touch, Touch.refl, Nat.reduceOr, emit_touch]

theorem grantVc_touch {μ : Nat} {o s : State} (lane vc : Nat) (h : Touch μ o s) (hm : 0x2004 ||| μ = μ := by decide) : Touch μ o (grantVc lane s vc) := by
  refine h.step hm ?_
  unfold grantVc; simp only [giveCredit_touch, Touch.refl, Nat.reduceOr]

theorem grantLane_touch {μ : Nat} {o s : State} (lane : Nat) (h : Touch μ o s) (hm : 0x2004 ||| μ = μ := by decide) : Touch μ o (grantLane lane s) := by
  refine h.step hm ?_
  unfold grantLane; simp only [grantVc_touch, implies_true, Touch.refl, foldl_touch, Nat.reduceOr]

theorem grantAll_touch {μ : Nat} {o s : State} (h : Touch μ o s) (hm : 0x2004 ||| μ = μ := by decide) : Touch μ o (grantAll s) := by
  refine h.step hm ?_
  unfold grantAll; simp (maxDischargeDepth := 80) only [grantLane_touch, implies_true, Touch.refl, foldl_touch, ite_touch, Nat.reduceOr]

theorem loadFbpErr_touch {μ : Nat} {o s : State} (src lvl lane vc code : Nat) (h : Touch μ o s) (hm : 0x200000000000000000 ||| μ = μ := by decide) : Touch μ o (loadFbpErr src lvl lane vc code s) := by
  refine h.step hm ?_
  unfold loadFbpErr; repeat' first | (simp (maxDischargeDepth := 80) only [wr_touch, ok_327712, Touch.refl, Nat.reduceOr, wr_touch]; done) | with_reducible (refine ite_touch ?_ ?_) | with_reducible (refine foldl_touch (fun _ _ => ?_) ?_) | split | (dsimp only; with_reducible (refine ite_touch ?_ ?_)) | (dsimp only; split) | ((try dsimp only); first | with_reducible (apply wr_touch) | with_reducible (apply touch_mk))

theorem txCreditReturn_touch {μ : Nat} {o s : State} (lane vc cnt : Nat) (h : Touch μ o s) (hm : 0x61000200000004000000480 ||| μ = μ := by decide) : Touch μ o (txCreditReturn lane vc cnt s) := by
  refine h.step hm ?_
  unfold txCreditReturn; simp (maxDischargeDepth := 80) only [set_touch, report_touch, loadFbpErr_touch, ok_txCredit, ok_FBP_ERR_CREDIT_OVF, Touch.refl, ite_touch, Nat.reduceOr]

theorem moveOut_touch {μ : Nat} {o s : State} (lane vc : Nat) (h : Touch μ o s) (hm : 0x2004 ||| μ = μ := by decide) : Touch μ o (moveOut lane vc s) := by
  refine h.step hm ?_
  unfold moveOut; simp (maxDischargeDepth := 80) only [setRx_touch, giveCredit_touch, Touch.refl, ite_touch, Nat.reduceOr]

theorem moveOutN_touch {μ : Nat} {o s : State} (lane vc n : Nat) (h : Touch μ o s) (hm : 0x2004 ||| μ = μ := by decide) : Touch μ o (moveOutN lane vc n s) := by
  have aux {o s : State} (lane vc n : Nat) (h : Touch 0x2004 o s) : Touch 0x2004 o (moveOutN lane vc n s) := by
    induction n generalizing s with
    | zero => exact h
    | succ n ih => exact ih (moveOut_touch _ _ h)
  exact h.step hm (aux _ _ _ (Touch.refl 0x2004 _))

theorem rxCreditReturn_touch {μ : Nat} {o s : State} (lane vc beats : Nat) (h : Touch μ o s) (hm : 0x2004 ||| μ = μ := by decide) : Touch μ o (rxCreditReturn lane vc beats s) := by
  refine h.step hm ?_
  unfold rxCreditReturn; simp (maxDischargeDepth := 80) only [moveOutN_touch, grantLane_touch, Touch.refl, ite_touch, Nat.reduceOr]

theorem clearRx_touch {μ : Nat} {o s : State} (lane : Nat) (h : Touch μ o s) (hm : 0x2000 ||| μ = μ := by decide) : Touch μ o (clearRx lane s) := by
  refine h.step hm ?_
  unfold clearRx; simp only [touch_mk, Touch.refl, Nat.reduceOr, true_or, or_true]

theorem laneLinkUp_touch {μ : Nat} {o s : State} (lane : Nat) (h : Touch μ o s) (hm : 0x40000200000004000002004 ||| μ = μ := by decide) : Touch μ o (laneLinkUp lane s) := by
  refine h.step hm ?_
  unfold laneLinkUp; simp (maxDischargeDepth := 80) only [setBit_touch, wake_touch, clearRx_touch, grantLane_touch, ok_FBP_STATUS_LANE_UP, Touch.refl, ite_touch, Nat.reduceOr]

theorem laneLinkDown_touch {μ : Nat} {o s0 : State} (lane : Nat) (h : Touch μ o s0) (hm : 0x61000200000004002002480 ||| μ = μ := by decide) : Touch μ o (laneLinkDown lane s0) := by
  refine h.step hm ?_
  unfold laneLinkDown; simp (maxDischargeDepth := 80) only [setBit_touch, wr_touch, wake_touch, report_touch, loadFbpErr_touch, clearRx_touch, ok_FBP_STATUS_LANE_UP, ok_FBP_TX_CREDIT_VC0, ok_FBP_ERR_LINK_DOWN, touch_mk, Touch.refl, ite_touch, Nat.reduceOr, true_or, or_true, wr_touch]

theorem fbpWrite_touch {μ : Nat} {o s : State} (a : Nat) (acc : Acc) (h : Touch μ o s) (ha : InPages μ a) (hm : 0x62000200000004000002504 ||| μ = μ := by decide) : Touch μ o (fbpWrite a acc s) := by
  have e0 : 0x2004 ||| μ = μ := or_sub hm (by decide)
  have e1 : 0x200000000000000000 ||| μ = μ := or_sub hm (by decide)
  have e2 : 0x2000000000000000000000 ||| μ = μ := or_sub hm (by decide)
  have e3 : 0x20000000000000000000000 ||| μ = μ := or_sub hm (by decide)
  have e4 : 0x40000000000000000000000 ||| μ = μ := or_sub hm (by decide)
  have e5 : 0x60000000000004000000400 ||| μ = μ := or_sub hm (by decide)
  have e6 : 0x62000000000004000000500 ||| μ = μ := or_sub hm (by decide)
  unfold fbpWrite; simp (maxDischargeDepth := 80) only [flag_touch, grantAll_touch, perform_touch, ok_FBP_ERR_CFG_ERR, ite_touch, e0, e1, e5, e6, ha, h]

theorem discardPkt_touch {μ : Nat} {o s : State} (f cnt : Field) (prodN code cls src lvl vc lane : Nat) (h : Touch μ o s) (hf : InPages μ f.addr) (hcnt : InPages μ cnt.addr) (hm : 0x61000200000004000020480 ||| μ = μ := by decide) : Touch μ o (discardPkt f cnt prodN code cls src lvl vc lane s) := by
  have e0 : 0x20000 ||| μ = μ := or_sub hm (by decide)
  have e1 : 0x200000000000000000 ||| μ = μ := or_sub hm (by decide)
  have e2 : 0x1000000000000000000000 ||| μ = μ := or_sub hm (by decide)
  have e3 : 0x20000000000000000000000 ||| μ = μ := or_sub hm (by decide)
  have e4 : 0x40000000000000000000000 ||| μ = μ := or_sub hm (by decide)
  have e5 : 0x61000000000004000000480 ||| μ = μ := or_sub hm (by decide)
  unfold discardPkt; simp (maxDischargeDepth := 80) only [report_touch, loadFbpErr_touch, prod_touch, bump_touch, e0, e1, e5, hf, hcnt, h]

theorem useStream_touch {μ : Nat} {o s : State} (k : Nat × Nat × Nat) (e : Nat) (h : Touch μ o s) (hm : 0x2000 ||| μ = μ := by decide) : Touch μ o (useStream k e s) := by
  refine h.step hm ?_
  unfold useStream; simp only [touch_mk, Touch.refl, Nat.reduceOr, true_or, or_true]

theorem seqCheck_touch {μ : Nat} {o s : State} (p : Pkt) (lane : Nat) (h : Touch μ o s) (hm : 0x61000200000004000022480 ||| μ = μ := by decide) : Touch μ o (seqCheck p lane s).1 := by
  refine h.step hm ?_
  unfold seqCheck; repeat' first | (simp (maxDischargeDepth := 80) only [useStream_touch, note_touch, report_touch, loadFbpErr_touch, prod_touch, bump_touch, discardPkt_touch, ok_FBP_ERR_SEQ_GAP, ok_FBP_GAP_CNT_MISSING, ok_FBP_ERR_SEQ_DUP, ok_FBP_DROP_CNT_DUP, Touch.refl, Nat.reduceOr]; done) | with_reducible (refine ite_touch ?_ ?_) | with_reducible (refine foldl_touch (fun _ _ => ?_) ?_) | split | (dsimp only; with_reducible (refine ite_touch ?_ ?_)) | (dsimp only; split)

theorem acceptPkt_touch {μ : Nat} {o s : State} (lane : Nat) (p : Pkt) (h : Touch μ o s) (hm : 0x6100c2000000040000a2484 ||| μ = μ := by decide) : Touch μ o (acceptPkt lane p s) := by
  refine h.step hm ?_
  unfold acceptPkt; simp (maxDischargeDepth := 80) only [seqCheck_touch, police_touch, moveOutN_touch, prod_touch, report_touch, wake_touch, ok_CRV_ERR_NO_SLOT, touch_mk, Touch.refl, ite_touch, Nat.reduceOr, true_or, or_true]

theorem receivePkt_touch {μ : Nat} {o s : State} (lane : Nat) (p : Pkt) (h : Touch μ o s) (hm : 0x6100c2000000040000a2484 ||| μ = μ := by decide) : Touch μ o (receivePkt lane p s) := by
  refine h.step hm ?_
  unfold receivePkt; simp (maxDischargeDepth := 80) only [emit_touch, report_touch, loadFbpErr_touch, bump_touch, setRx_touch, moveOutN_touch, discardPkt_touch, acceptPkt_touch, ok_FBP_ERR_RX_OVF, ok_FBP_DROP_CNT_CORRUPT, ok_FBP_ERR_LEN_ERR, ok_FBP_ERR_CRC_ERR, Touch.refl, ite_touch, Nat.reduceOr, emit_touch]

theorem takePkt_touch {μ : Nat} {o s : State} {types : List Nat} {l : Nat} {p : Pkt} {t : State} (h : Touch μ o s) (e : takePkt types s = some (l, p, t)) (hm : 0x2000 ||| μ = μ := by decide) : Touch μ o t := by
  have aux {o s : State} {types : List Nat} {l : Nat} {p : Pkt} {t : State} (h : Touch 0x2000 o s) (e : takePkt types s = some (l, p, t)) : Touch 0x2000 o t := by
    unfold takePkt at e
    repeat' first | (cases e; done) | (cases e; exact (by first | exact h | simp only [touch_mk, h, Nat.reduceOr, true_or, or_true])) | split at e
  exact h.step hm (aux (Touch.refl 0x2000 _) e)

/-! Encode. -/

theorem cmpChecked_touch {μ : Nat} {o s : State} (n : Nat) (h : Touch μ o s) (hm : 0x400000000000000000000 ||| μ = μ := by decide) : Touch μ o (cmpChecked n s) := by
  refine h.step hm ?_
  unfold cmpChecked; simp only [bump_touch, ok_CMP_VFY_CNT_CHECKED, Touch.refl, Nat.reduceOr]

/-! Mmp. -/

theorem memRequest_touch {μ : Nat} {o s : State} (user : MemUser) (cls region : Nat) (write : Bool) (addr len : Nat) (data : List Byte) (h : Touch μ o s) (hm : 0x1000 ||| μ = μ := by decide) : Touch μ o (memRequest user cls region write addr len data s) := by
  refine h.step hm ?_
  unfold memRequest; simp only [touch_mk, Touch.refl, Nat.reduceOr, true_or, or_true]

theorem endReq_touch {μ : Nat} {o s : State} (r : MemReq) (ok : Bool) (data : List Byte) (cause : Nat) (h : Touch μ o s) (hm : 0x1000 ||| μ = μ := by decide) : Touch μ o (endReq r ok data cause s) := by
  refine h.step hm ?_
  unfold endReq; simp only [touch_mk, Touch.refl, Nat.reduceOr, true_or, or_true]

theorem loadMmpErr_touch {μ : Nat} {o s : State} (ch status kind addr : Nat) (h : Touch μ o s) (hm : 0x100000000000000000 ||| μ = μ := by decide) : Touch μ o (loadMmpErr ch status kind addr s) := by
  refine h.step hm ?_
  unfold loadMmpErr; repeat' first | (simp (maxDischargeDepth := 80) only [wr_touch, ok_262168, Touch.refl, Nat.reduceOr, wr_touch]; done) | with_reducible (refine ite_touch ?_ ?_) | with_reducible (refine foldl_touch (fun _ _ => ?_) ?_) | split | (dsimp only; with_reducible (refine ite_touch ?_ ?_)) | (dsimp only; split) | ((try dsimp only); first | with_reducible (apply wr_touch) | with_reducible (apply touch_mk))

theorem regionViolation_touch {μ : Nat} {o s : State} (r : MemReq) (h : Touch μ o s) (hm : 0x61000100000004000001480 ||| μ = μ := by decide) : Touch μ o (regionViolation r s) := by
  refine h.step hm ?_
  unfold regionViolation; simp (maxDischargeDepth := 80) only [endReq_touch, report_touch, loadMmpErr_touch, ok_MMP_ERR_RGN_VIOL, Touch.refl, Nat.reduceOr]

theorem requestIssue_touch {μ : Nat} {o s : State} (h : Touch μ o s) (hm : 0x610081000000040000a1480 ||| μ = μ := by decide) : Touch μ o (requestIssue s) := by
  refine h.step hm ?_
  unfold requestIssue; repeat' first | (simp (maxDischargeDepth := 80) only [endReq_touch, regionViolation_touch, prod_touch, pushItem_touch, touch_mk, Touch.refl, ite_touch, Nat.reduceOr, true_or, or_true]; done) | with_reducible (refine ite_touch ?_ ?_) | with_reducible (refine foldl_touch (fun _ _ => ?_) ?_) | split | (dsimp only; with_reducible (refine ite_touch ?_ ?_)) | (dsimp only; split)

theorem dropOut_touch {μ : Nat} {o s : State} (r : MemReq) (h : Touch μ o s) (hm : 0x100000000000001000 ||| μ = μ := by decide) : Touch μ o (dropOut r s) := by
  refine h.step hm ?_
  unfold dropOut; simp only [showMmp_touch, touch_mk, Touch.refl, Nat.reduceOr, true_or, or_true]

theorem readData_touch {μ : Nat} {o s : State} (ch id : Nat) (beats : List (MemStatus × BitVec 512)) (h : Touch μ o s) (hm : 0x61000100000004000001480 ||| μ = μ := by decide) : Touch μ o (readData ch id beats s) := by
  refine h.step hm ?_
  unfold readData; repeat' first | (simp (maxDischargeDepth := 80) only [dropOut_touch, loadMmpErr_touch, endReq_touch, report_touch, ok_MMP_ERR_POISON, ok_MMP_ERR_RD_ERR, Touch.refl, ite_touch, Nat.reduceOr]; done) | split

theorem writeResponse_touch {μ : Nat} {o s : State} (ch id : Nat) (st : MemStatus) (h : Touch μ o s) (hm : 0x61000100000004000001480 ||| μ = μ := by decide) : Touch μ o (writeResponse ch id st s) := by
  refine h.step hm ?_
  unfold writeResponse; repeat' first | (simp (maxDischargeDepth := 80) only [dropOut_touch, endReq_touch, report_touch, loadMmpErr_touch, ok_MMP_ERR_WR_ERR, Touch.refl, ite_touch, Nat.reduceOr]; done) | split

theorem memForget_touch {μ : Nat} {o s : State} (u : MemUser) (x : Nat) (h : Touch μ o s) (hm : 0x1000 ||| μ = μ := by decide) : Touch μ o (memForget u x s) := by
  refine h.step hm ?_
  unfold memForget; simp only [touch_mk, Touch.refl, Nat.reduceOr, true_or, or_true]

theorem memCancel_touch {μ : Nat} {o s : State} (u : MemUser) (x : Nat) (h : Touch μ o s) (hm : 0x81000 ||| μ = μ := by decide) : Touch μ o (memCancel u x s) := by
  refine h.step hm ?_
  unfold memCancel; simp only [memForget_touch, touch_mk, Touch.refl, Nat.reduceOr, true_or, or_true]

theorem haAdvance_touch {μ : Nat} {o s : State} (n : Nat) (h : Touch μ o s) (hm : 0x80000000000020001000 ||| μ = μ := by decide) : Touch μ o (haAdvance n s) := by
  have aux {o s : State} (n : Nat) (h : Touch 0x80000000000020001000 o s) : Touch 0x80000000000020001000 o (haAdvance n s) := by
    induction n generalizing s with
    | zero => exact h
    | succ n ih =>
      unfold haAdvance
      repeat' first | exact h | exact ih (wr_touch _ _ (touch_ver _ (memForget_touch _ _ h)) (ok_VER_HA_WRPTR_WRPTR (by decide))) | split
  exact h.step hm (aux _ (Touch.refl 0x80000000000020001000 _))

theorem linkReset_touch {μ : Nat} {o s : State} (h : Touch μ o s) (hm : 0x61000100000004000001480 ||| μ = μ := by decide) : Touch μ o (linkReset s) := by
  refine h.step hm ?_
  unfold linkReset; simp (maxDischargeDepth := 80) only [showMmp_touch, endReq_touch, report_touch, ok_MMP_ERR_LINK_RESET, touch_mk, implies_true, Touch.refl, foldl_touch, ite_touch, Nat.reduceOr, true_or, or_true]

end Sys2Proof.Machine
end

