-- ==== Sys2Proof/Laws/TouchTally.lean ====
section
/-!
SUPPORT. What the Tally, its epochs and the Caravan can change: one lemma for each operation.
-/
namespace Sys2Proof.Machine
set_option Elab.async false
set_option linter.unusedSimpArgs false
set_option linter.unusedTactic false
set_option linter.unreachableTactic false

/-! Waybill. -/

theorem setWb_touch {μ : Nat} {o s : State} (w : WbSt) (h : Touch μ o s) (hm : 0x20000 ||| μ = μ := by decide) : Touch μ o (setWb w s) := by
  refine h.step hm ?_
  unfold setWb; simp only [touch_mk, Touch.refl, Nat.reduceOr, true_or, or_true]

theorem wbDrop_touch {μ : Nat} {o s : State} (h : Touch μ o s) (hm : 0x61001000000004000020480 ||| μ = μ := by decide) : Touch μ o (wbDrop s) := by
  refine h.step hm ?_
  unfold wbDrop; simp (maxDischargeDepth := 80) only [setWb_touch, record_touch, prod_touch, bump_touch, ok_TLY_WB_LOST_LOST, Touch.refl, Nat.reduceOr]

theorem wbDisplace_touch {μ : Nat} {o s : State} (n m : Nat) (h : Touch μ o s) (hm : 0x61001000000004000020480 ||| μ = μ := by decide) : Touch μ o (wbDisplace s n m) := by
  have aux {o s : State} (n m : Nat) (h : Touch 0x61001000000004000020480 o s) : Touch 0x61001000000004000020480 o (wbDisplace s n m) := by
    induction n generalizing s with
    | zero => exact h
    | succ n ih =>
      unfold wbDisplace
      repeat' first | exact h | exact ih (wbDrop_touch (setWb_touch _ h)) | split
  exact h.step hm (aux _ _ (Touch.refl 0x61001000000004000020480 _))

theorem wbStage_touch {μ : Nat} {o s : State} (type epoch sched : Nat) (body : List Byte) (h : Touch μ o s) (hm : 0x61401000000004000020480 ||| μ = μ := by decide) : Touch μ o (wbStage type epoch sched body s) := by
  refine h.step hm ?_
  unfold wbStage; repeat' first | (simp (maxDischargeDepth := 80) only [wbDrop_touch, cmpChecked_touch, wbDisplace_touch, setWb_touch, Touch.refl, ite_touch, Nat.reduceOr]; done) | split

theorem wbTrigger_touch {μ : Nat} {o s : State} (source : Nat) (h : Touch μ o s) (hm : 0x61401000000004000020480 ||| μ = μ := by decide) : Touch μ o (wbTrigger source s) := by
  refine h.step hm ?_
  unfold wbTrigger; simp (maxDischargeDepth := 80) only [note_touch, prod_touch, set_touch, wbStage_touch, setWb_touch, ok_TLY_WB_STATUS_STATE, Touch.refl, ite_touch, Nat.reduceOr]

theorem wbIssue_touch {μ : Nat} {o s : State} (type : Nat) (bs : List Byte) (h : Touch μ o s) (hm : 0x21000 ||| μ = μ := by decide) : Touch μ o (wbIssue type bs s) := by
  refine h.step hm ?_
  unfold wbIssue; simp only [setWb_touch, memRequest_touch, Touch.refl, Nat.reduceOr]

theorem wbWrite_touch {μ : Nat} {o s : State} (r : WbRec) (h : Touch μ o s) (hm : 0x1000000000000021000 ||| μ = μ := by decide) : Touch μ o (wbWrite r s) := by
  refine h.step hm ?_
  unfold wbWrite; simp (maxDischargeDepth := 80) only [wbIssue_touch, set_touch, setWb_touch, ok_TLY_WB_STATUS_SEQ, Touch.refl, ite_touch, Nat.reduceOr]

theorem wbFreeze_touch {μ : Nat} {o s : State} (h : Touch μ o s) (hm : 0x61001000000004000020480 ||| μ = μ := by decide) : Touch μ o (wbFreeze s) := by
  refine h.step hm ?_
  unfold wbFreeze; simp (maxDischargeDepth := 80) only [note_touch, prod_touch, set_touch, ok_TLY_WB_STATUS_STATE, Touch.refl, Nat.reduceOr]

theorem wbNext_touch {μ : Nat} {o s : State} (r : WbRec) (h : Touch μ o s) (hm : 0x61001000000004000021480 ||| μ = μ := by decide) : Touch μ o (wbNext r s) := by
  refine h.step hm ?_
  unfold wbNext; simp (maxDischargeDepth := 80) only [wbDrop_touch, setWb_touch, wbFreeze_touch, wbWrite_touch, set_touch, ok_TLY_WB_STATUS_STATE, Touch.refl, ite_touch, Nat.reduceOr]

theorem waybillRecordWrite_touch {μ : Nat} {o s : State} (h : Touch μ o s) (hm : 0x61001000000004000021480 ||| μ = μ := by decide) : Touch μ o (waybillRecordWrite s) := by
  refine h.step hm ?_
  unfold waybillRecordWrite; repeat' first | (simp only [wbDrop_touch, setWb_touch, wbNext_touch, Touch.refl, Nat.reduceOr]; done) | split

theorem waybillWriteComplete_touch {μ : Nat} {o s : State} (h : Touch μ o s) (hm : 0x61001000000004000021480 ||| μ = μ := by decide) : Touch μ o (waybillWriteComplete s) := by
  refine h.step hm ?_
  unfold waybillWriteComplete; repeat' first | (simp (maxDischargeDepth := 80) only [memForget_touch, setWb_touch, set_touch, prod_touch, report_touch, ok_TLY_WB_WRPTR_WRPTR, ok_TLY_WB_MARK_MARK, ok_TLY_ERR_WB_MEM, Touch.refl, ite_touch, Nat.reduceOr]; done) | split

theorem wbArm_touch {μ : Nat} {o s : State} (h : Touch μ o s) (hm : 0x60001000000004000020400 ||| μ = μ := by decide) : Touch μ o (wbArm s) := by
  refine h.step hm ?_
  unfold wbArm; simp (maxDischargeDepth := 80) only [flag_touch, setWb_touch, set_touch, ok_TLY_ERR_WB_CFG, ok_TLY_WB_STATUS_STATE, ok_TLY_WB_RDPTR_RDPTR, Touch.refl, ite_touch, Nat.reduceOr]

theorem wbCtlWrite_touch {μ : Nat} {o s : State} (acc : Acc) (h : Touch μ o s) (hm : 0x63401000000004000020580 ||| μ = μ := by decide) : Touch μ o (wbCtlWrite acc s) := by
  refine h.step hm ?_
  unfold wbCtlWrite; simp (maxDischargeDepth := 80) only [perform_touch, set_touch, wbArm_touch, wbTrigger_touch, ok_TLY_WB_CTL_EN, ok_TLY_WB_STATUS_STATE, Touch.refl, ite_touch, Nat.reduceOr]

/-! Advance. -/

theorem elapse_touch {μ : Nat} {o s : State} (c : Nat) (h : Touch μ o s) (hm : 0x30000 ||| μ = μ := by decide) : Touch μ o (elapse c s) := by
  refine h.step hm ?_
  unfold elapse; split <;> simp only [prod_touch, touch_mk, implies_true, Touch.refl, foldl_touch, Nat.reduceOr, true_or, or_true]

theorem reachTb0_touch {μ : Nat} {o s : State} (t : Nat) (h : Touch μ o s) (hm : 0x30000 ||| μ = μ := by decide) : Touch μ o (reachTb0 t s) := by
  refine h.step hm ?_
  unfold reachTb0; simp only [elapse_touch, Touch.refl, Nat.reduceOr]

theorem reachBase_touch {μ : Nat} {o s : State} (n t : Nat) (h : Touch μ o s) (hm : 0x30000 ||| μ = μ := by decide) : Touch μ o (reachBase n t s) := by
  refine h.step hm ?_
  unfold reachBase; split <;> simp only [reachTb0_touch, elapse_touch, Touch.refl, ite_touch, Nat.reduceOr]

/-! Tally. -/

theorem setTly_touch {μ : Nat} {o s : State} (t : TlySt) (h : Touch μ o s) (hm : 0x20000 ||| μ = μ := by decide) : Touch μ o (setTly t s) := by
  refine h.step hm ?_
  unfold setTly; simp only [touch_mk, Touch.refl, Nat.reduceOr, true_or, or_true]

theorem binPut_touch {μ : Nat} {o s : State} (b slot n : Nat) (key : Option (Nat × Nat × Nat)) (h : Touch μ o s) (hm : 0x20000 ||| μ = μ := by decide) : Touch μ o (binPut b slot n key s) := by
  refine h.step hm ?_
  unfold binPut; simp only [setTly_touch, Touch.refl, Nat.reduceOr]

theorem binMiss_touch {μ : Nat} {o s : State} (h : Touch μ o s) (hm : 0x61001000000004000020480 ||| μ = μ := by decide) : Touch μ o (binMiss s) := by
  refine h.step hm ?_
  unfold binMiss; simp (maxDischargeDepth := 80) only [bump_touch, record_touch, flag_touch, setTly_touch, ok_TLY_BIN_STATUS_MISSES, ok_TLY_ERR_BIN_FULL, Touch.refl, ite_touch, Nat.reduceOr]

theorem binAdd_touch {μ : Nat} {o s : State} (e slot n : Nat) (h : Touch μ o s) (hm : 0x61001000000004000020480 ||| μ = μ := by decide) : Touch μ o (binAdd e slot n s) := by
  refine h.step hm ?_
  unfold binAdd; repeat' first | (simp (maxDischargeDepth := 80) only [binPut_touch, set_touch, binMiss_touch, ok_TLY_BIN_STATUS_USED, Touch.refl, ite_touch, Nat.reduceOr]; done) | split

theorem countInput_touch {μ : Nat} {o s : State} (input n : Nat) (h : Touch μ o s) (hm : 0x61001000000004000020480 ||| μ = μ := by decide) : Touch μ o (countInput input n s) := by
  refine h.step hm ?_
  unfold countInput; repeat' first | (simp (maxDischargeDepth := 80) only [countUp_touch, binAdd_touch, implies_true, Touch.refl, foldl_touch, ite_touch, Nat.reduceOr]; done) | with_reducible (refine ite_touch ?_ ?_) | with_reducible (refine foldl_touch (fun _ _ => ?_) ?_) | split

theorem hostBeat_touch {μ : Nat} {o s : State} (d n : Nat) (h : Touch μ o s) (hm : 0x800000000000000000000 ||| μ = μ := by decide) : Touch μ o (hostBeat d n s) := by
  refine h.step hm ?_
  unfold hostBeat; simp (maxDischargeDepth := 80) only [set_touch, ok_RCV_HB_HOST_LAST_US, ok_RCV_HB_HOST_COUNT, Touch.refl, ite_touch, Nat.reduceOr]

theorem tagTransfer_touch {μ : Nat} {o s : State} (engine ctx layer op : Nat) (h : Touch μ o s) (hm : 0x800000000000800000800 ||| μ = μ := by decide) : Touch μ o (tagTransfer engine ctx layer op s) := by
  refine h.step hm ?_
  unfold tagTransfer; split <;> simp only [hostBeat_touch, touch_mk, Touch.refl, Nat.reduceOr, true_or, or_true]

theorem snapshotRecord_touch {μ : Nat} {o s : State} (engine : Nat) (beats : List (BitVec 256)) (cut : Bool) (h : Touch μ o s) (hm : 0x61000080000004000020480 ||| μ = μ := by decide) : Touch μ o (snapshotRecord engine beats cut s) := by
  refine h.step hm ?_
  unfold snapshotRecord; simp (maxDischargeDepth := 80) only [report_touch, setTly_touch, ok_EOP_ERR_SNP_LONG, Touch.refl, ite_touch, Nat.reduceOr]

theorem setSched_touch {μ : Nat} {o s : State} (k : Nat) (v : Sched) (h : Touch μ o s) (hm : 0x20000 ||| μ = μ := by decide) : Touch μ o (setSched k v s) := by
  refine h.step hm ?_
  unfold setSched; simp only [setTly_touch, Touch.refl, Nat.reduceOr]

theorem showRunning_touch {μ : Nat} {o s : State} (h : Touch μ o s) (hm : 0x1000000000000000000 ||| μ = μ := by decide) : Touch μ o (showRunning s) := by
  refine h.step hm ?_
  unfold showRunning; simp only [set_touch, ok_TLY_STATUS_RUNNING, Touch.refl, Nat.reduceOr]

theorem setSchedState_touch {μ : Nat} {o s : State} (k st : Nat) (h : Touch μ o s) (hm : 0x1000000000000000000 ||| μ = μ := by decide) : Touch μ o (setSchedState k st s) := by
  refine h.step hm ?_
  unfold setSchedState; simp (maxDischargeDepth := 80) only [showRunning_touch, set_touch, ok_TLY_SCHED_CTL_STATE, Touch.refl, Nat.reduceOr]

theorem schedArm_touch {μ : Nat} {o s : State} (k : Nat) (reset : Bool) (h : Touch μ o s) (hm : 0x61001000000004000020480 ||| μ = μ := by decide) : Touch μ o (schedArm k reset s) := by
  refine h.step hm ?_
  unfold schedArm; simp (maxDischargeDepth := 80) only [flag_touch, set_touch, report_touch, setSchedState_touch, setSched_touch, ok_TLY_ERR_SCHED_CFG, ok_TLY_SCHED_CTL_EN, ok_TLY_ERR_NO_SPACE, Touch.refl, ite_touch, Nat.reduceOr]

theorem schedIdle_touch {μ : Nat} {o s : State} (k : Nat) (h : Touch μ o s) (hm : 0x1000000000000020000 ||| μ = μ := by decide) : Touch μ o (schedIdle k s) := by
  refine h.step hm ?_
  unfold schedIdle; simp (maxDischargeDepth := 80) only [setSchedState_touch, set_touch, setTly_touch, ok_TLY_SCHED_CTL_EN, Touch.refl, Nat.reduceOr]

theorem schedBusy_touch {μ : Nat} {o s : State} (k a : Nat) (h : Touch μ o s) (hm : 0x61001000000004000000480 ||| μ = μ := by decide) : Touch μ o (schedBusy k a s) := by
  refine h.step hm ?_
  unfold schedBusy; simp only [report_touch, ok_TLY_ERR_SCHED_BUSY, Touch.refl, Nat.reduceOr]

theorem schedWrite_touch {μ : Nat} {o s : State} (k a : Nat) (acc : Acc) (h : Touch μ o s) (ha : InPages μ a) (hm : 0x63001000000004000020580 ||| μ = μ := by decide) : Touch μ o (schedWrite k a acc s) := by
  have e0 : 0x1000000000000000000 ||| μ = μ := or_sub hm (by decide)
  have e1 : 0x1000000000000020000 ||| μ = μ := or_sub hm (by decide)
  have e2 : 0x1000000000000000000000 ||| μ = μ := or_sub hm (by decide)
  have e3 : 0x2000000000000000000000 ||| μ = μ := or_sub hm (by decide)
  have e4 : 0x20000000000000000000000 ||| μ = μ := or_sub hm (by decide)
  have e5 : 0x40000000000000000000000 ||| μ = μ := or_sub hm (by decide)
  have e6 : 0x61001000000004000000480 ||| μ = μ := or_sub hm (by decide)
  have e7 : 0x61001000000004000020480 ||| μ = μ := or_sub hm (by decide)
  have e8 : 0x62000000000004000000500 ||| μ = μ := or_sub hm (by decide)
  unfold schedWrite; simp (maxDischargeDepth := 80) only [perform_touch, schedBusy_touch, schedArm_touch, schedIdle_touch, setSchedState_touch, ite_touch, e0, e1, e6, e7, e8, ha, h]

theorem tlyWrite_touch {μ : Nat} {o s : State} (a : Nat) (acc : Acc) (h : Touch μ o s) (ha : InPages μ a) (hm : 0x63401000000004000020580 ||| μ = μ := by decide) : Touch μ o (tlyWrite a acc s) := by
  have e0 : 0x1000000000000000000 ||| μ = μ := or_sub hm (by decide)
  have e1 : 0x400000000000000000000 ||| μ = μ := or_sub hm (by decide)
  have e2 : 0x1000000000000000000000 ||| μ = μ := or_sub hm (by decide)
  have e3 : 0x2000000000000000000000 ||| μ = μ := or_sub hm (by decide)
  have e4 : 0x20000000000000000000000 ||| μ = μ := or_sub hm (by decide)
  have e5 : 0x40000000000000000000000 ||| μ = μ := or_sub hm (by decide)
  have e6 : 0x62000000000004000000500 ||| μ = μ := or_sub hm (by decide)
  have e7 : 0x63001000000004000020580 ||| μ = μ := or_sub hm (by decide)
  have e8 : 0x63401000000004000020580 ||| μ = μ := or_sub hm (by decide)
  unfold tlyWrite; simp (maxDischargeDepth := 80) only [schedWrite_touch, wbCtlWrite_touch, perform_touch, set_touch, ok_TLY_BIN_CTL_FLUSH, ok_TLY_HA_STATUS_VALID, ite_touch, e0, e6, e7, e8, ha, h]

theorem freeBins_touch {μ : Nat} {o s : State} (h : Touch μ o s) (hm : 0x1000000000000020000 ||| μ = μ := by decide) : Touch μ o (freeBins s) := by
  refine h.step hm ?_
  unfold freeBins; simp (maxDischargeDepth := 80) only [set_touch, setTly_touch, ok_TLY_BIN_CTL_FLUSH, ok_TLY_BIN_STATUS_USED, Touch.refl, Nat.reduceOr]

theorem takeCut_touch {μ : Nat} {o s : State} (k n fl span : Nat) (h : Touch μ o s) (hm : 0x1000000000000020000 ||| μ = μ := by decide) : Touch μ o (takeCut k n fl span s) := by
  refine h.step hm ?_
  unfold takeCut; repeat' first | (simp (maxDischargeDepth := 80) only [setTly_touch, set_touch, freeBins_touch, ok_TLY_STATUS_LAST_SCHED, ok_TLY_SCHED_EPOCH_FLAGS, ok_TLY_SCHED_EPOCH_EPOCH, ok_TLY_HA_STATUS_VALID, ok_TLY_HA_STATUS_CUT_EPOCH, Touch.refl, ite_touch, Nat.reduceOr]; done) | split

theorem boundaryReached_touch {μ : Nat} {o s : State} {k n m : Nat} {t : State} (h : Touch μ o s) (e : boundaryReached k s = some (t, n, m)) (hm : 0x30000 ||| μ = μ := by decide) : Touch μ o t := by
  have aux {o s : State} {k n m : Nat} {t : State} (h : Touch 0x30000 o s) (e : boundaryReached k s = some (t, n, m)) : Touch 0x30000 o t := by
    unfold boundaryReached at e
    repeat' first | (cases e; done) | (cases e; exact reachTb0_touch _ h) | split at e
  exact h.step hm (aux (Touch.refl 0x30000 _) e)

theorem strobe_touch {μ : Nat} {o s : State} (k n span : Nat) (h : Touch μ o s) (hm : 0x1000000000000020000 ||| μ = μ := by decide) : Touch μ o (strobe k n span s) := by
  refine h.step hm ?_
  unfold strobe; repeat' first | (simp (maxDischargeDepth := 80) only [setSchedState_touch, takeCut_touch, setSched_touch, setTly_touch, Touch.refl, ite_touch, Nat.reduceOr]; done) | split

theorem lateCut_touch {μ : Nat} {o s : State} (h : Touch μ o s) (hm : 0x61001000000004000020480 ||| μ = μ := by decide) : Touch μ o (lateCut s) := by
  refine h.step hm ?_
  unfold lateCut; repeat' first | (simp (maxDischargeDepth := 80) only [takeCut_touch, setTly_touch, report_touch, ok_TLY_ERR_LATE_CUT, Touch.refl, ite_touch, Nat.reduceOr]; done) | split

theorem wbCut_touch {μ : Nat} {o s : State} (c : Cut) (h : Touch μ o s) (hm : 0x61401000000004000020480 ||| μ = μ := by decide) : Touch μ o (wbCut c s) := by
  refine h.step hm ?_
  unfold wbCut; repeat' first | (simp (maxDischargeDepth := 80) only [wbStage_touch, implies_true, Touch.refl, foldl_touch, Nat.reduceOr]; done) | split

theorem tallyStep_touch {μ : Nat} {o s : State} (old new : Nat) (h : Touch μ o s) (hm : 0x61000000000004000020480 ||| μ = μ := by decide) : Touch μ o (tallyStep old new s) := by
  refine h.step hm ?_
  unfold tallyStep; repeat' first | (simp (maxDischargeDepth := 80) only [note_touch, setSched_touch, Touch.refl, ite_touch, Nat.reduceOr]; done) | with_reducible (refine ite_touch ?_ ?_) | with_reducible (refine foldl_touch (fun _ _ => ?_) ?_) | split

theorem waybillProdTick_touch {μ : Nat} {o s : State} (h : Touch μ o s) (hm : 0x61401000000004000030480 ||| μ = μ := by decide) : Touch μ o (waybillProdTick s) := by
  refine h.step hm ?_
  unfold waybillProdTick; simp (maxDischargeDepth := 80) only [reachTb0_touch, wbStage_touch, setWb_touch, Touch.refl, ite_touch, Nat.reduceOr]

/-! Route. -/

theorem setCrv_touch {μ : Nat} {o s : State} (c : CrvSt) (h : Touch μ o s) (hm : 0x100000 ||| μ = μ := by decide) : Touch μ o (setCrv c s) := by
  refine h.step hm ?_
  unfold setCrv; simp only [touch_mk, Touch.refl, Nat.reduceOr, true_or, or_true]

theorem storeVerdict_touch {μ : Nat} {o s : State} (v : List Byte) (h : Touch μ o s) (hm : 0x65000000000004000000680 ||| μ = μ := by decide) : Touch μ o (storeVerdict v s) := by
  refine h.step hm ?_
  unfold storeVerdict; simp (maxDischargeDepth := 80) only [set_touch, note_touch, bump_touch, ok_SBX_VSTORE_COUNT, ok_SBX_VSTORE_NEXT_SEQ, ok_SBX_VSTORE_OVERWRITTEN, touch_mk, Touch.refl, ite_touch, Nat.reduceOr, true_or, or_true]

theorem holdDrop_touch {μ : Nat} {o s : State} (h : Touch μ o s) (hm : 0x61800000000004002000480 ||| μ = μ := by decide) : Touch μ o (holdDrop s) := by
  refine h.step hm ?_
  unfold holdDrop; simp (maxDischargeDepth := 80) only [bump_touch, report_touch, ok_RCV_HOLD_LOST_LOST, ok_RCV_ERR_HOLD_FULL, touch_mk, Touch.refl, ite_touch, Nat.reduceOr, true_or, or_true]

theorem holdWrite_touch {μ : Nat} {o s : State} (p : Pkt) (h : Touch μ o s) (hm : 0x61800000000004002001480 ||| μ = μ := by decide) : Touch μ o (holdWrite p s) := by
  refine h.step hm ?_
  unfold holdWrite; simp (maxDischargeDepth := 80) only [holdDrop_touch, memRequest_touch, set_touch, ok_RCV_HOLD_WRPTR_WRPTR, touch_mk, Touch.refl, ite_touch, Nat.reduceOr, true_or, or_true]

theorem sendFm_touch {μ : Nat} {o s : State} (type flags d n : Nat) (bs : List Byte) (h : Touch μ o s) (hm : 0x610080000000040000a0480 ||| μ = μ := by decide) : Touch μ o (sendFm type flags d n bs s) := by
  refine h.step hm ?_
  unfold sendFm; simp only [sendPkt_touch, Touch.refl, Nat.reduceOr]

theorem sendParent_touch {μ : Nat} {o s : State} (dst : Nat × Nat × Nat) (type flags d epoch : Nat) (n : Option Nat) (bs : List Byte) (h : Touch μ o s) (hm : 0x618080000000040020a1480 ||| μ = μ := by decide) : Touch μ o (sendParent dst type flags d epoch n bs s) := by
  refine h.step hm ?_
  unfold sendParent; simp (maxDischargeDepth := 80) only [holdWrite_touch, sendFm_touch, sendPkt_touch, Touch.refl, ite_touch, Nat.reduceOr]

theorem sendUp_touch {μ : Nat} {o s : State} (type flags d n via : Nat) (bs : List Byte) (h : Touch μ o s) (hm : 0x618080000000040020a1480 ||| μ = μ := by decide) : Touch μ o (sendUp type flags d n via bs s) := by
  refine h.step hm ?_
  unfold sendUp; split <;> simp only [sendParent_touch, Touch.refl, Nat.reduceOr]

theorem tellParent_touch {μ : Nat} {o s : State} (d : Nat) (old : Option Route) (new : Route) (i : Nat) (h : Touch μ o s) (hm : 0x618080000000040020a1480 ||| μ = μ := by decide) : Touch μ o (tellParent d old new s i) := by
  refine h.step hm ?_
  unfold tellParent; simp (maxDischargeDepth := 80) only [sendParent_touch, Touch.refl, ite_touch, Nat.reduceOr]

theorem tellOldest_touch {μ : Nat} {o s : State} (d n : Nat) (h : Touch μ o s) (hm : 0x618080000000040021a1480 ||| μ = μ := by decide) : Touch μ o (tellOldest d s n) := by
  have aux {o s : State} (d n : Nat) (h : Touch 0x618080000000040021a1480 o s) : Touch 0x618080000000040021a1480 o (tellOldest d s n) := by
    induction n generalizing s with
    | zero => exact h
    | succ n ih =>
      unfold tellOldest
      split
      · exact h
      · exact ih (setCrv_touch _ (foldl_touch (fun t _ => tellParent_touch _ _ _ _ (Touch.refl _ t)) h))
  exact h.step hm (aux _ _ (Touch.refl 0x618080000000040021a1480 _))

theorem tellRoutes_touch {μ : Nat} {o s : State} (h : Touch μ o s) (hm : 0x618080000000040021a1480 ||| μ = μ := by decide) : Touch μ o (tellRoutes s) := by
  refine h.step hm ?_
  unfold tellRoutes; simp (maxDischargeDepth := 80) only [tellOldest_touch, implies_true, Touch.refl, foldl_touch, ite_touch, Nat.reduceOr]

theorem pushRoute_touch {μ : Nat} {o s : State} (d : Nat) (entry : Sign) (mode : Nat) (h : Touch μ o s) (hm : 0x618080000000040021a1480 ||| μ = μ := by decide) : Touch μ o (pushRoute d entry mode s) := by
  refine h.step hm ?_
  unfold pushRoute; simp only [tellRoutes_touch, setCrv_touch, Touch.refl, Nat.reduceOr]

theorem setMode_touch {μ : Nat} {o s : State} (d mode : Nat) (h : Touch μ o s) (hm : 0x618080000000040021a1480 ||| μ = μ := by decide) : Touch μ o (setMode d mode s) := by
  refine h.step hm ?_
  unfold setMode; repeat' first | (simp (maxDischargeDepth := 80) only [note_touch, prod_touch, pushRoute_touch, Touch.refl, ite_touch, Nat.reduceOr]; done) | split

theorem setSign_touch {μ : Nat} {o s : State} (e : Sign) (h : Touch μ o s) (hm : 0x618080000000040021a1480 ||| μ = μ := by decide) : Touch μ o (setSign e s) := by
  refine h.step hm ?_
  unfold setSign; repeat' first | (simp (maxDischargeDepth := 80) only [pushRoute_touch, note_touch, prod_touch, Touch.refl, ite_touch, Nat.reduceOr]; done) | split

/-! Caravan. -/

theorem putSlot_touch {μ : Nat} {o s : State} (k : Nat) (v : CrvSlot) (h : Touch μ o s) (hm : 0x100000 ||| μ = μ := by decide) : Touch μ o (putSlot k v s) := by
  refine h.step hm ?_
  unfold putSlot; simp only [setCrv_touch, Touch.refl, Nat.reduceOr]

theorem showSlot_touch {μ : Nat} {o s : State} (h : Touch μ o s) (hm : 0x4000000000000000000 ||| μ = μ := by decide) : Touch μ o (showSlot s) := by
  refine h.step hm ?_
  unfold showSlot; repeat' first | (simp (maxDischargeDepth := 80) only [wr_touch, set_touch, ok_CRV_STATUS_SLOTS_ACTIVE, ok_CRV_STATUS_DESC_USED, ok_CRV_PW_SEL_EPOCH, ok_CRV_CHILD_DATA_INDEX, ok_CRV_COARSE_STATUS_EXP, ok_CRV_ROUTE_MODE, ok_CRV_SLOT_EPOCH_EPOCH, ok_CRV_SLOT_INFO_STATE, ok_CRV_SLOT_TIMING_DEADLINE, Touch.refl, Nat.reduceOr, wr_touch]; done) | with_reducible (refine ite_touch ?_ ?_) | with_reducible (refine foldl_touch (fun _ _ => ?_) ?_) | split | (dsimp only; with_reducible (refine ite_touch ?_ ?_)) | (dsimp only; split) | ((try dsimp only); first | with_reducible (apply wr_touch) | with_reducible (apply set_touch) | with_reducible (apply touch_mk))

theorem slotState_touch {μ : Nat} {o s : State} (k st : Nat) (h : Touch μ o s) (hm : 0x61000000000004000100480 ||| μ = μ := by decide) : Touch μ o (slotState k st s) := by
  refine h.step hm ?_
  unfold slotState; simp only [note_touch, putSlot_touch, Touch.refl, Nat.reduceOr]

theorem pwPut_touch {μ : Nat} {o s : State} (pos st slot epoch present : Nat) (res : Option Result) (v : List Byte) (h : Touch μ o s) (hm : 0x100000 ||| μ = μ := by decide) : Touch μ o (pwPut pos st slot epoch present res v s) := by
  refine h.step hm ?_
  unfold pwPut; simp only [setCrv_touch, Touch.refl, Nat.reduceOr]

theorem pwAppend_touch {μ : Nat} {o s : State} (st slot epoch present : Nat) (res : Option Result) (v : List Byte) (h : Touch μ o s) (hm : 0x4000000000000100000 ||| μ = μ := by decide) : Touch μ o (pwAppend st slot epoch present res v s) := by
  refine h.step hm ?_
  unfold pwAppend; simp (maxDischargeDepth := 80) only [pwPut_touch, set_touch, setCrv_touch, bump_touch, ok_CRV_PW_HEAD_NEXT, ok_CRV_PW_HEAD_WRAPS, Touch.refl, ite_touch, Nat.reduceOr]

theorem pwMark_touch {μ : Nat} {o s : State} (st slot epoch : Nat) (r : PwRef) (h : Touch μ o s) (hm : 0x4000000000000100000 ||| μ = μ := by decide) : Touch μ o (pwMark st slot epoch r s) := by
  refine h.step hm ?_
  unfold pwMark; simp only [pwPut_touch, pwAppend_touch, Touch.refl, ite_touch, Nat.reduceOr]

theorem pwSettle_touch {μ : Nat} {o s : State} (slot epoch : Nat) (same : Bool) (r : PwRef) (h : Touch μ o s) (hm : 0x61004000000004000120480 ||| μ = μ := by decide) : Touch μ o (pwSettle slot epoch same r s) := by
  refine h.step hm ?_
  unfold pwSettle; simp (maxDischargeDepth := 80) only [pwMark_touch, note_touch, prod_touch, Touch.refl, ite_touch, Nat.reduceOr]

theorem viewAdd_touch {μ : Nat} {o s : State} (slot epoch : Nat) (res : Result) (h : Touch μ o s) (hm : 0x100000 ||| μ = μ := by decide) : Touch μ o (viewAdd slot epoch res s) := by
  refine h.step hm ?_
  unfold viewAdd; simp only [putSlot_touch, Touch.refl, Nat.reduceOr]

theorem beginEpoch_touch {μ : Nat} {o s : State} (d n : Nat) (h : Touch μ o s) (hm : 0x100000 ||| μ = μ := by decide) : Touch μ o (beginEpoch d n s) := by
  refine h.step hm ?_
  unfold beginEpoch; repeat' first | (simp only [putSlot_touch, Touch.refl, ite_touch, Nat.reduceOr]; done) | split

theorem putDet_touch {μ : Nat} {o s : State} (d : Nat) (v : DetSt) (h : Touch μ o s) (hm : 0x80000000 ||| μ = μ := by decide) : Touch μ o (putDet d v s) := by
  refine h.step hm ?_
  unfold putDet; simp only [touch_mk, Touch.refl, Nat.reduceOr, true_or, or_true]

theorem captureRefs_touch {μ : Nat} {o s : State} (k dom n : Nat) (res : List (Nat × Bool × Sketch)) (h : Touch μ o s) (hm : 0x80000000 ||| μ = μ := by decide) : Touch μ o (captureRefs k dom n res s) := by
  refine h.step hm ?_
  unfold captureRefs; repeat' first | (simp (maxDischargeDepth := 80) only [putDet_touch, Touch.refl, Nat.reduceOr]; done) | with_reducible (refine ite_touch ?_ ?_) | with_reducible (refine foldl_touch (fun _ _ => ?_) ?_) | split

theorem queueDue_touch {μ : Nat} {o s : State} (k : Nat) (v : CrvSlot) (e : EpSt) (prov : Bool) (res : List Result) (h : Touch μ o s) (hm : 0x4000000 ||| μ = μ := by decide) : Touch μ o (queueDue k v e prov res s) := by
  refine h.step hm ?_
  unfold queueDue; simp only [touch_mk, Touch.refl, Nat.reduceOr, true_or, or_true]

theorem confirmNote_touch {μ : Nat} {o s : State} (n : Nat) (pw : Option Nat) (h : Touch μ o s) (hm : 0x61000000000004000000480 ||| μ = μ := by decide) : Touch μ o (confirmNote n pw s) := by
  refine h.step hm ?_
  unfold confirmNote; split <;> simp only [note_touch, tickFree_touch, Touch.refl, Nat.reduceOr, tickFree_touch]

theorem closeOne_touch {μ : Nat} {o s : State} (c : Closing) (h : Touch μ o s) (hm : 0x6180c0000000040021a1480 ||| μ = μ := by decide) : Touch μ o (closeOne c s) := by
  refine h.step hm ?_
  unfold closeOne; repeat' first | (simp (maxDischargeDepth := 80) only [pwSettle_touch, setCrv_touch, sendUp_touch, implies_true, Touch.refl, foldl_touch, ite_touch, Nat.reduceOr]; done) | with_reducible (refine ite_touch ?_ ?_) | with_reducible (refine foldl_touch (fun _ _ => ?_) ?_) | split | (dsimp only; with_reducible (refine ite_touch ?_ ?_)) | (dsimp only; split)

theorem closeReady_touch {μ : Nat} {o s : State} (h : Touch μ o s) (hm : 0x6180c0000000040021a1480 ||| μ = μ := by decide) : Touch μ o (closeReady s) := by
  refine h.step hm ?_
  unfold closeReady; simp only [closeOne_touch, implies_true, Touch.refl, foldl_touch, Nat.reduceOr]

theorem publishOne_touch {μ : Nat} {o : State} {r : State × List PwRef} (k n present : Nat) (x : Result) (h : Touch μ o r.1) (hm : 0x61004000000004000120480 ||| μ = μ := by decide) : Touch μ o (publishOne k n present r x).1 := by
  have aux {o : State} {r : State × List PwRef} (k n present : Nat) (x : Result) (h : Touch 0x61004000000004000120480 o r.1) : Touch 0x61004000000004000120480 o (publishOne k n present r x).1 :=
    note_touch _ _ _ (prod_touch _ _ (pwAppend_touch _ _ _ _ _ _ (viewAdd_touch _ _ _ h)))
  exact h.step hm (aux _ _ _ _ (Touch.refl 0x61004000000004000120480 _))

theorem publishVerdict_touch {μ : Nat} {o : State} {r : State × List PwRef} (k n present : Nat) (v : List Byte) (h : Touch μ o r.1) (hm : 0x61004000000004000120480 ||| μ = μ := by decide) : Touch μ o (publishVerdict k n present r v).1 := by
  have aux {o : State} {r : State × List PwRef} (k n present : Nat) (v : List Byte) (h : Touch 0x61004000000004000120480 o r.1) : Touch 0x61004000000004000120480 o (publishVerdict k n present r v).1 :=
    note_touch _ _ _ (prod_touch _ _ (pwAppend_touch _ _ _ _ _ _ h))
  exact h.step hm (aux _ _ _ _ (Touch.refl 0x61004000000004000120480 _))

theorem sendResult_touch {μ : Nat} {o s : State} (d n flags : Nat) (res : Result) (h : Touch μ o s) (hm : 0x618080000000040020a1480 ||| μ = μ := by decide) : Touch μ o (sendResult d n flags res s) := by
  refine h.step hm ?_
  unfold sendResult; simp only [sendUp_touch, implies_true, Touch.refl, foldl_touch, Nat.reduceOr]

theorem publish_touch {μ : Nat} {o s : State} (k n : Nat) (h : Touch μ o s) (hm : 0x6180c0000000040061a1480 ||| μ = μ := by decide) : Touch μ o (publish k n s) := by
  refine h.step hm ?_
  unfold publish; repeat' first | (simp (maxDischargeDepth := 80) only [publishOne_touch, publishVerdict_touch, putSlot_touch, sendUp_touch, sendResult_touch, queueDue_touch, implies_true, Touch.refl, foldl_touch, ite_touch, foldl1_touch, Nat.reduceOr]; done) | with_reducible (refine ite_touch ?_ ?_) | with_reducible (refine foldl_touch (fun _ _ => ?_) ?_) | split | (dsimp only; with_reducible (refine ite_touch ?_ ?_)) | (dsimp only; split)

theorem dropEpoch_touch {μ : Nat} {o s : State} (k n : Nat) (h : Touch μ o s) (hm : 0x4100000 ||| μ = μ := by decide) : Touch μ o (dropEpoch k n s) := by
  refine h.step hm ?_
  unfold dropEpoch; simp only [putSlot_touch, touch_mk, Touch.refl, Nat.reduceOr, true_or, or_true]

theorem drainIfLast_touch {μ : Nat} {o s : State} (k : Nat) (last : Bool) (h : Touch μ o s) (hm : 0x61000000000004000100480 ||| μ = μ := by decide) : Touch μ o (drainIfLast k last s) := by
  refine h.step hm ?_
  unfold drainIfLast; simp only [slotState_touch, Touch.refl, ite_touch, Nat.reduceOr]

theorem confirm_touch {μ : Nat} {o s : State} (k n : Nat) (full : Bool) (h : Touch μ o s) (hm : 0x6180c0000000040861a1480 ||| μ = μ := by decide) : Touch μ o (confirm k n full s) := by
  refine h.step hm ?_
  unfold confirm; repeat' first | (simp (maxDischargeDepth := 80) only [sendResult_touch, sendUp_touch, note_touch, prod_touch, pwSettle_touch, implies_true, Touch.refl, foldl_touch, Nat.reduceOr]; done) | with_reducible (refine ite_touch ?_ ?_) | with_reducible (refine foldl_touch (fun _ _ => ?_) ?_) | split | (dsimp only; with_reducible (refine ite_touch ?_ ?_)) | (dsimp only; split) | ((try dsimp only); first | with_reducible (apply sendResult_touch) | with_reducible (apply sendUp_touch) | with_reducible (apply note_touch) | with_reducible (apply prod_touch) | with_reducible (apply pwSettle_touch) | with_reducible (apply putSlot_touch) | with_reducible (apply setCrv_touch) | with_reducible (apply captureRefs_touch) | with_reducible (apply closeReady_touch) | with_reducible (apply drainIfLast_touch) | with_reducible (apply queueDue_touch) | with_reducible (apply dropEpoch_touch) | with_reducible (apply touch_mk))

theorem loseEpoch_touch {μ : Nat} {o s : State} (k n : Nat) (h : Touch μ o s) (hm : 0x61004000000004004120480 ||| μ = μ := by decide) : Touch μ o (loseEpoch k n s) := by
  refine h.step hm ?_
  unfold loseEpoch; repeat' first | (simp (maxDischargeDepth := 80) only [pwSettle_touch, report_touch, putSlot_touch, drainIfLast_touch, dropEpoch_touch, ok_CRV_ERR_LOST, implies_true, Touch.refl, foldl_touch, ite_touch, Nat.reduceOr]; done) | with_reducible (refine ite_touch ?_ ?_) | with_reducible (refine foldl_touch (fun _ _ => ?_) ?_) | split | (dsimp only; with_reducible (refine ite_touch ?_ ?_)) | (dsimp only; split) | ((try dsimp only); first | with_reducible (apply pwSettle_touch) | with_reducible (apply report_touch) | with_reducible (apply putSlot_touch) | with_reducible (apply drainIfLast_touch) | with_reducible (apply dropEpoch_touch) | with_reducible (apply touch_mk))

theorem progress_touch {μ : Nat} {o s : State} (k n : Nat) (h : Touch μ o s) (hm : 0x6180c0000000040861a1480 ||| μ = μ := by decide) : Touch μ o (progress k s n) := by
  refine h.step hm ?_
  unfold progress; repeat' first | (simp (maxDischargeDepth := 80) only [confirm_touch, publish_touch, Touch.refl, ite_touch, Nat.reduceOr]; done) | with_reducible (refine ite_touch ?_ ?_) | with_reducible (refine foldl_touch (fun _ _ => ?_) ?_) | split | (dsimp only; with_reducible (refine ite_touch ?_ ?_)) | (dsimp only; split)

theorem recheck_touch {μ : Nat} {o s : State} (k : Nat) (h : Touch μ o s) (hm : 0x6180c0000000040861a1480 ||| μ = μ := by decide) : Touch μ o (recheck k s) := by
  refine h.step hm ?_
  unfold recheck; simp only [progress_touch, implies_true, Touch.refl, foldl_touch, Nat.reduceOr]

theorem markSpanned_touch {μ : Nat} {o s : State} (k bit src lvl m : Nat) (h : Touch μ o s) (hm : 0x6180c0000000040861a1480 ||| μ = μ := by decide) : Touch μ o (markSpanned k bit src lvl s m) := by
  refine h.step hm ?_
  unfold markSpanned; simp (maxDischargeDepth := 80) only [progress_touch, putSlot_touch, Touch.refl, ite_touch, Nat.reduceOr]

theorem releaseOne_touch {μ : Nat} {o s : State} (k n : Nat) (c : KidEp) (g : ClosedSig) (h : Touch μ o s) (hm : 0x6180c0000000040861a1480 ||| μ = μ := by decide) : Touch μ o (releaseOne k n c g s) := by
  refine h.step hm ?_
  unfold releaseOne; simp (maxDischargeDepth := 80) only [putSlot_touch, setCrv_touch, markSpanned_touch, progress_touch, implies_true, Touch.refl, foldl_touch, ite_touch, Nat.reduceOr]

theorem releaseAll_touch {μ : Nat} {o s : State} (h : Touch μ o s) (hm : 0x6180c0000000040861a1480 ||| μ = μ := by decide) : Touch μ o (releaseAll s) := by
  refine h.step hm ?_
  unfold releaseAll; simp (maxDischargeDepth := 80) only [releaseOne_touch, implies_true, Touch.refl, foldl_touch, ite_touch, Nat.reduceOr]

theorem childFinal_touch {μ : Nat} {o s : State} (k bit n : Nat) (h : Touch μ o s) (hm : 0x61000000000004000100480 ||| μ = μ := by decide) : Touch μ o (childFinal k bit n s) := by
  refine h.step hm ?_
  unfold childFinal; repeat' first | (simp (maxDischargeDepth := 80) only [putSlot_touch, slotState_touch, Touch.refl, ite_touch, Nat.reduceOr]; done) | with_reducible (refine ite_touch ?_ ?_) | with_reducible (refine foldl_touch (fun _ _ => ?_) ?_) | split | (dsimp only; with_reducible (refine ite_touch ?_ ?_)) | (dsimp only; split)

theorem fromChild_touch {μ : Nat} {o s : State} (types : List Nat) (f : Nat → Pkt → Child → State → State)
    (hf : ∀ x0 x1 x2 t, Touch μ t (f x0 x1 x2 t)) (h : Touch μ o s) (hm : 0x6180c0000000040861a3480 ||| μ = μ := by decide) : Touch μ o (fromChild types f s) := by
  have e0 : 0x2000 ||| μ = μ := or_sub hm (by decide)
  have e1 : 0x4000000000000000000 ||| μ = μ := or_sub hm (by decide)
  have e2 : 0x61000000000004000000480 ||| μ = μ := or_sub hm (by decide)
  have e3 : 0x4000000000000000000 ||| μ = μ := or_sub hm (by decide)
  have e4 : 0x6180c0000000040861a1480 ||| μ = μ := or_sub hm (by decide)
  unfold fromChild
  split
  · exact h
  · next e =>
    replace h := takePkt_touch h e e0
    split
    · exact h
    · split
      · exact report_touch _ _ _ _ h (ok_CRV_ERR_NO_SLOT e1) e2
      · split
        · exact h
        · split
          · exact showSlot_touch (releaseAll_touch (h.trans (hf _ _ _ _)) e4) e3
          · exact h

theorem checkPart_touch {μ : Nat} {o s : State} (k n : Nat) (p : Part) (h : Touch μ o s) (hm : 0x61004000000004000100480 ||| μ = μ := by decide) : Touch μ o (checkPart k n p s) := by
  refine h.step hm ?_
  unfold checkPart; repeat' first | (simp (maxDischargeDepth := 80) only [report_touch, putSlot_touch, ok_CRV_ERR_RULE_MISMATCH, Touch.refl, ite_touch, Nat.reduceOr]; done) | with_reducible (refine ite_touch ?_ ?_) | with_reducible (refine foldl_touch (fun _ _ => ?_) ?_) | split

theorem lateNote_touch {μ : Nat} {o s : State} (c : Child) (n : Nat) (h : Touch μ o s) (hm : 0x61004000000004000000480 ||| μ = μ := by decide) : Touch μ o (lateNote c n s) := by
  refine h.step hm ?_
  unfold lateNote; simp only [report_touch, ok_CRV_ERR_LATE, Touch.refl, Nat.reduceOr]

theorem cacheAdvance_touch {μ : Nat} {o s : State} (p : Pkt) (parts : List Part) (h : Touch μ o s) (hm : 0x100000 ||| μ = μ := by decide) : Touch μ o (cacheAdvance p parts s) := by
  refine h.step hm ?_
  unfold cacheAdvance; simp only [setCrv_touch, Touch.refl, ite_touch, Nat.reduceOr]

theorem dataPkt_touch {μ : Nat} {o s : State} (k : Nat) (p : Pkt) (c : Child) (h : Touch μ o s) (hm : 0x6580c0000000040021a1680 ||| μ = μ := by decide) : Touch μ o (dataPkt k p c s) := by
  refine h.step hm ?_
  unfold dataPkt; repeat' first | (simp (maxDischargeDepth := 80) only [lateNote_touch, putSlot_touch, checkPart_touch, childFinal_touch, cacheAdvance_touch, sendUp_touch, storeVerdict_touch, confirmNote_touch, implies_true, Touch.refl, foldl_touch, ite_touch, Nat.reduceOr]; done) | with_reducible (refine ite_touch ?_ ?_) | with_reducible (refine foldl_touch (fun _ _ => ?_) ?_) | split

theorem closedPkt_touch {μ : Nat} {o s : State} (k : Nat) (p : Pkt) (c : Child) (h : Touch μ o s) (hm : 0x61004000000004000120480 ||| μ = μ := by decide) : Touch μ o (closedPkt k p c s) := by
  refine h.step hm ?_
  unfold closedPkt; simp (maxDischargeDepth := 80) only [lateNote_touch, putSlot_touch, childFinal_touch, prod_touch, Touch.refl, ite_touch, Nat.reduceOr]

theorem detourPkt_touch {μ : Nat} {o s : State} (k : Nat) (p : Pkt) (c : Child) (h : Touch μ o s) (hm : 0x6180c0000000040861a1480 ||| μ = μ := by decide) : Touch μ o (detourPkt k p c s) := by
  refine h.step hm ?_
  unfold detourPkt; simp only [recheck_touch, putSlot_touch, Touch.refl, Nat.reduceOr]

theorem recordDesc_touch {μ : Nat} {o s : State} (lvl idx b : Nat) (leave : Bool) (h : Touch μ o s) (hm : 0x61004000000004000100480 ||| μ = μ := by decide) : Touch μ o (recordDesc lvl idx b leave s) := by
  refine h.step hm ?_
  unfold recordDesc; simp (maxDischargeDepth := 80) only [setCrv_touch, report_touch, ok_CRV_ERR_DESC_FULL, Touch.refl, ite_touch, Nat.reduceOr]

theorem joinReceive_touch {μ : Nat} {o s : State} (h : Touch μ o s) (hm : 0x6180c0000000040861a3480 ||| μ = μ := by decide) : Touch μ o (joinReceive s) := by
  refine h.step hm ?_
  unfold joinReceive; repeat' first | (rename_i heq; replace heq := takePkt_touch (Touch.refl 0x6180c0000000040861a3480 _) heq) | (simp (maxDischargeDepth := 80) only [report_touch, putSlot_touch, recordDesc_touch, sendParent_touch, showSlot_touch, recheck_touch, ok_CRV_ERR_NO_SLOT, Touch.refl, ite_touch, Nat.reduceOr, *]; done) | with_reducible (refine ite_touch ?_ ?_) | with_reducible (refine foldl_touch (fun _ _ => ?_) ?_) | split | (dsimp only; with_reducible (refine ite_touch ?_ ?_)) | (dsimp only; split)

theorem epochDeadline_touch {μ : Nat} {o s : State} (k n : Nat) (h : Touch μ o s) (hm : 0x6180c0000000040061b1480 ||| μ = μ := by decide) : Touch μ o (epochDeadline k n s) := by
  refine h.step hm ?_
  unfold epochDeadline; repeat' first | (simp (maxDischargeDepth := 80) only [showSlot_touch, publish_touch, reachTb0_touch, Touch.refl, Nat.reduceOr]; done) | with_reducible (refine ite_touch ?_ ?_) | with_reducible (refine foldl_touch (fun _ _ => ?_) ?_) | split

theorem overtake_touch {μ : Nat} {o s : State} (v : CrvSlot) (q : KidEp) (h : Touch μ o s) (hm : 0x61004000000004000000480 ||| μ = μ := by decide) : Touch μ o (overtake v s q) := by
  refine h.step hm ?_
  unfold overtake; repeat' first | (simp only [report_touch, ok_CRV_ERR_OVERTAKE_DROP, Touch.refl, Nat.reduceOr]; done) | split

theorem epochGrace_touch {μ : Nat} {o s : State} (k n : Nat) (h : Touch μ o s) (hm : 0x6180c0000000040861b1480 ||| μ = μ := by decide) : Touch μ o (epochGrace k n s) := by
  refine h.step hm ?_
  unfold epochGrace; repeat' first | (simp (maxDischargeDepth := 80) only [overtake_touch, reachTb0_touch, showSlot_touch, confirm_touch, loseEpoch_touch, implies_true, Touch.refl, foldl_touch, ite_touch, Nat.reduceOr]; done) | with_reducible (refine ite_touch ?_ ?_) | with_reducible (refine foldl_touch (fun _ _ => ?_) ?_) | split

theorem coarsenReceive_touch {μ : Nat} {o s : State} (h : Touch μ o s) (hm : 0x61004000000004000122480 ||| μ = μ := by decide) : Touch μ o (coarsenReceive s) := by
  refine h.step hm ?_
  unfold coarsenReceive; repeat' first | (rename_i heq; replace heq := takePkt_touch (Touch.refl 0x61004000000004000122480 _) heq) | (simp (maxDischargeDepth := 80) only [showSlot_touch, note_touch, prod_touch, setCrv_touch, Touch.refl, ite_touch, Nat.reduceOr, *]; done) | with_reducible (refine ite_touch ?_ ?_) | with_reducible (refine foldl_touch (fun _ _ => ?_) ?_) | split

theorem sendChild_touch {μ : Nat} {o s : State} (c : Child) (type d n : Nat) (bs : List Byte) (h : Touch μ o s) (hm : 0x610080000000040000a0480 ||| μ = μ := by decide) : Touch μ o (sendChild c type d n bs s) := by
  refine h.step hm ?_
  unfold sendChild; simp only [sendPkt_touch, Touch.refl, Nat.reduceOr]

theorem sendCoarsen_touch {μ : Nat} {o s : State} (k c : Nat) (h : Touch μ o s) (hm : 0x610080000000040001a0480 ||| μ = μ := by decide) : Touch μ o (sendCoarsen k c s) := by
  refine h.step hm ?_
  unfold sendCoarsen; simp (maxDischargeDepth := 80) only [sendChild_touch, putSlot_touch, note_touch, prod_touch, implies_true, Touch.refl, foldl_touch, Nat.reduceOr]

theorem saturation_touch {μ : Nat} {o s : State} (k : Nat) (sat : Bool) (h : Touch μ o s) (hm : 0x610080000000040001a0480 ||| μ = μ := by decide) : Touch μ o (saturation k sat s) := by
  refine h.step hm ?_
  unfold saturation; simp (maxDischargeDepth := 80) only [putSlot_touch, note_touch, sendCoarsen_touch, Touch.refl, ite_touch, Nat.reduceOr]

theorem splitMove_touch {μ : Nat} {o s : State} (k delay : Nat) (h : Touch μ o s) (hm : 0x618080000000040021a1480 ||| μ = μ := by decide) : Touch μ o (splitMove k delay s) := by
  refine h.step hm ?_
  unfold splitMove; repeat' first | (simp (maxDischargeDepth := 80) only [setMode_touch, putSlot_touch, Touch.refl, ite_touch, Nat.reduceOr]; done) | with_reducible (refine ite_touch ?_ ?_) | with_reducible (refine foldl_touch (fun _ _ => ?_) ?_) | split | (dsimp only; with_reducible (refine ite_touch ?_ ?_)) | (dsimp only; split)

theorem saturatedEpoch_touch {μ : Nat} {o s : State} (k full delay : Nat) (h : Touch μ o s) (hm : 0x6180c0000000040021a1480 ||| μ = μ := by decide) : Touch μ o (saturatedEpoch k full delay s) := by
  refine h.step hm ?_
  unfold saturatedEpoch; simp (maxDischargeDepth := 80) only [saturation_touch, showSlot_touch, splitMove_touch, Touch.refl, ite_touch, Nat.reduceOr]

theorem sendSample_touch {μ : Nat} {o s : State} (c : Cut) (h : Touch μ o s) (hm : 0x618080000000040021a1480 ||| μ = μ := by decide) : Touch μ o (sendSample c s) := by
  refine h.step hm ?_
  unfold sendSample; simp (maxDischargeDepth := 80) only [sendUp_touch, setCrv_touch, implies_true, Touch.refl, foldl_touch, ite_touch, Nat.reduceOr]

theorem sampleDue_touch {μ : Nat} {o s : State} (c : Cut) (h : Touch μ o s) (hm : 0x4000000 ||| μ = μ := by decide) : Touch μ o (sampleDue c s) := by
  refine h.step hm ?_
  unfold sampleDue; simp only [touch_mk, Touch.refl, Nat.reduceOr, true_or, or_true]

theorem handSample_touch {μ : Nat} {o s : State} (c : Cut) (h : Touch μ o s) (hm : 0x6180c0000000040061a1480 ||| μ = μ := by decide) : Touch μ o (handSample c s) := by
  refine h.step hm ?_
  unfold handSample; simp (maxDischargeDepth := 80) only [sampleDue_touch, sendSample_touch, closeReady_touch, setCrv_touch, Touch.refl, ite_touch, Nat.reduceOr]

theorem slotPost_touch {μ : Nat} {o s : State} (seq slot status : Nat) (h : Touch μ o s) (hm : 0x60004000000004000000400 ||| μ = μ := by decide) : Touch μ o (slotPost seq slot status s) := by
  refine h.step hm ?_
  unfold slotPost; simp (maxDischargeDepth := 80) only [showSlot_touch, post_touch, set_touch, ok_CRV_SLOT_RESULT_SEQ, ok_CRV_SLOT_CMD_START, Touch.refl, Nat.reduceOr]

theorem drainDomain_touch {μ : Nat} {o s : State} (d : Nat) (h : Touch μ o s) (hm : 0x61000000000004000100480 ||| μ = μ := by decide) : Touch μ o (drainDomain d s) := by
  refine h.step hm ?_
  unfold drainDomain; split <;> simp only [slotState_touch, Touch.refl, ite_touch, Nat.reduceOr]

theorem clearSteps_touch {μ : Nat} {o s : State} (k : Nat) (h : Touch μ o s) (hm : 0x80000000 ||| μ = μ := by decide) : Touch μ o (clearSteps k s) := by
  refine h.step hm ?_
  unfold clearSteps; simp only [touch_mk, Touch.refl, Nat.reduceOr, true_or, or_true]

theorem slotCmd_touch {μ : Nat} {o s : State} (h : Touch μ o s) (hm : 0x6180c0000000040821a1480 ||| μ = μ := by decide) : Touch μ o (slotCmd s) := by
  refine h.step hm ?_
  unfold slotCmd; repeat' first | (simp (maxDischargeDepth := 80) only [set_touch, slotPost_touch, tellRoutes_touch, slotState_touch, clearSteps_touch, putSlot_touch, undefinedField_touch, ok_CRV_SLOT_CMD_START, Touch.refl, ite_touch, Nat.reduceOr]; done) | with_reducible (refine ite_touch ?_ ?_) | with_reducible (refine foldl_touch (fun _ _ => ?_) ?_) | split | (dsimp only; with_reducible (refine ite_touch ?_ ?_)) | (dsimp only; split)

theorem routeWrite_touch {μ : Nat} {o s : State} (acc : Acc) (h : Touch μ o s) (hm : 0x6380c0000000040021a1580 ||| μ = μ := by decide) : Touch μ o (routeWrite acc s) := by
  refine h.step hm ?_
  unfold routeWrite; simp (maxDischargeDepth := 80) only [report_touch, undefinedField_touch, perform_touch, showSlot_touch, setMode_touch, putSlot_touch, ok_CRV_ERR_ROUTE, ok_CRV_ROUTE_MODE, Touch.refl, ite_touch, Nat.reduceOr]

theorem childWrite_touch {μ : Nat} {o s : State} (acc : Acc) (h : Touch μ o s) (hm : 0x6380c0000000040861a1580 ||| μ = μ := by decide) : Touch μ o (childWrite acc s) := by
  refine h.step hm ?_
  unfold childWrite; simp (maxDischargeDepth := 80) only [perform_touch, showSlot_touch, recheck_touch, putSlot_touch, ok_CRV_CHILD_DATA_INDEX, Touch.refl, ite_touch, Nat.reduceOr]

theorem crvWrite_touch {μ : Nat} {o s : State} (a : Nat) (acc : Acc) (h : Touch μ o s) (ha : InPages μ a) (hm : 0x6380c0000000040861a1580 ||| μ = μ := by decide) : Touch μ o (crvWrite a acc s) := by
  have e0 : 0x100000 ||| μ = μ := or_sub hm (by decide)
  have e1 : 0x4000000000000000000 ||| μ = μ := or_sub hm (by decide)
  have e2 : 0x8000000000000000000 ||| μ = μ := or_sub hm (by decide)
  have e3 : 0x800000000000000000000 ||| μ = μ := or_sub hm (by decide)
  have e4 : 0x1000000000000000000000 ||| μ = μ := or_sub hm (by decide)
  have e5 : 0x2000000000000000000000 ||| μ = μ := or_sub hm (by decide)
  have e6 : 0x20000000000000000000000 ||| μ = μ := or_sub hm (by decide)
  have e7 : 0x40000000000000000000000 ||| μ = μ := or_sub hm (by decide)
  have e8 : 0x618080000000040021a1480 ||| μ = μ := or_sub hm (by decide)
  have e9 : 0x6180c0000000040821a1480 ||| μ = μ := or_sub hm (by decide)
  have e10 : 0x62000000000004000000500 ||| μ = μ := or_sub hm (by decide)
  have e11 : 0x63000000000004000000580 ||| μ = μ := or_sub hm (by decide)
  have e12 : 0x6380c0000000040021a1580 ||| μ = μ := or_sub hm (by decide)
  have e13 : 0x6380c0000000040861a1580 ||| μ = μ := or_sub hm (by decide)
  unfold crvWrite; simp (maxDischargeDepth := 80) only [consume_touch, routeWrite_touch, childWrite_touch, perform_touch, slotCmd_touch, set_touch, putSlot_touch, showSlot_touch, tellRoutes_touch, ok_CRV_SLOT_CMD_START, ite_touch, e0, e1, e8, e9, e10, e11, e12, e13, ha, h]

theorem slotRow_touch {μ : Nat} {o s : State} (op : Nat) (acc : Acc) (h : Touch μ o s) (hm : 0x6380c0100000040861a15b0 ||| μ = μ := by decide) : Touch μ o (slotRow op acc s) := by
  refine h.step hm ?_
  unfold slotRow; repeat' first | (simp (maxDischargeDepth := 80) only [portWrite_touch, crvWrite_touch, off_CRV_SLOT_CMD_START, implies_true, Touch.refl, Nat.reduceOr]; done) | with_reducible (refine ite_touch ?_ ?_) | with_reducible (refine foldl_touch (fun _ _ => ?_) ?_) | split | (dsimp only; with_reducible (refine ite_touch ?_ ?_)) | (dsimp only; split) | ((try dsimp only); first | with_reducible (apply portWrite_touch) | with_reducible (apply crvWrite_touch) | with_reducible (apply touch_mk))

end Sys2Proof.Machine
end

