-- ==== Sys2Proof/Laws/TouchWork.lean ====
section
/-!
SUPPORT. What time, the tree engine, the Courier, compression and the Porter can change: one lemma for each operation.
-/
namespace Sys2Proof.Machine
set_option Elab.async false
set_option linter.unusedSimpArgs false
set_option linter.unusedTactic false
set_option linter.unreachableTactic false

/-! Sep. -/

theorem dropFrame_touch {μ : Nat} {o s : State} (f cnt : Field) (code cls : Nat) (h : Touch μ o s) (hf : InPages μ f.addr) (hcnt : InPages μ cnt.addr) (hm : 0x61000000000004000000480 ||| μ = μ := by decide) : Touch μ o (dropFrame f cnt code cls s) := by
  have e0 : 0x1000000000000000000000 ||| μ = μ := or_sub hm (by decide)
  have e1 : 0x20000000000000000000000 ||| μ = μ := or_sub hm (by decide)
  have e2 : 0x40000000000000000000000 ||| μ = μ := or_sub hm (by decide)
  have e3 : 0x61000000000004000000480 ||| μ = μ := or_sub hm (by decide)
  unfold dropFrame; simp only [report_touch, bump_touch, e3, hf, hcnt, h]

theorem toFirmware_touch {μ : Nat} {o s : State} (f : List Byte) (h : Touch μ o s) (hm : 0x61000400000004000004480 ||| μ = μ := by decide) : Touch μ o (toFirmware f s) := by
  refine h.step hm ?_
  unfold toFirmware; split <;> simp only [dropFrame_touch, ok_SEP_ERR_FW_RX_FULL, ok_SEP_DROP_CNT_UNSUPPORTED, touch_mk, Touch.refl, Nat.reduceOr, true_or, or_true]

theorem receiveFrame_touch {μ : Nat} {o s : State} (port : Nat) (f : List Byte) (phase : Nat) (h : Touch μ o s) (hm : 0x61000400000004000024480 ||| μ = μ := by decide) : Touch μ o (receiveFrame port f phase s) := by
  refine h.step hm ?_
  unfold receiveFrame; simp (maxDischargeDepth := 80) only [dropFrame_touch, prod_touch, toFirmware_touch, ok_SEP_ERR_OVERSIZE, ok_SEP_DROP_CNT_ERRORED, ok_SEP_ERR_FCS_ERR, ok_SEP_ERR_MACCTL, ok_SEP_DROP_CNT_UNSUPPORTED, touch_mk, Touch.refl, ite_touch, Nat.reduceOr, true_or, or_true]

theorem sendFrame_touch {μ : Nat} {o s : State} (port : Nat) (b : List Byte) (h : Touch μ o s) (hm : 4 ||| μ = μ := by decide) : Touch μ o (sendFrame port b s) := by
  refine h.step hm ?_
  unfold sendFrame; simp only [emit_touch, Touch.refl, Nat.reduceOr, emit_touch]

theorem transmitFrame_touch {μ : Nat} {o s : State} (port : Nat) (placed : List (List Byte)) (h : Touch μ o s) (hm : 0x4004 ||| μ = μ := by decide) : Touch μ o (transmitFrame port placed s) := by
  refine h.step hm ?_
  unfold transmitFrame; repeat' first | (simp (maxDischargeDepth := 80) only [sendFrame_touch, touch_mk, Touch.refl, Nat.reduceOr, true_or, or_true]; done) | with_reducible (refine ite_touch ?_ ?_) | with_reducible (refine foldl_touch (fun _ _ => ?_) ?_) | split

theorem tcForward_touch {μ : Nat} {o s : State} (phase : Nat) (h : Touch μ o s) (hm : 0x24004 ||| μ = μ := by decide) : Touch μ o (tcForward phase s) := by
  refine h.step hm ?_
  unfold tcForward; repeat' first | (simp (maxDischargeDepth := 80) only [sendFrame_touch, prod_touch, touch_mk, Touch.refl, ite_touch, Nat.reduceOr, true_or, or_true]; done) | split

theorem pcsDown_touch {μ : Nat} {o s : State} (port : Nat) (inRx stampLost : Bool) (h : Touch μ o s) (hm : 0x61000400000004000024480 ||| μ = μ := by decide) : Touch μ o (pcsDown port inRx stampLost s) := by
  refine h.step hm ?_
  unfold pcsDown; simp (maxDischargeDepth := 80) only [setBit_touch, wake_touch, bump_touch, report_touch, prod_touch, ok_SEP_STATUS_PCS_UP, ok_SEP_DROP_CNT_ERRORED, ok_SEP_ERR_PCS_DOWN, ok_SEP_ERR_TS_LOST, touch_mk, Touch.refl, ite_touch, Nat.reduceOr, true_or, or_true]

theorem pcsUp_touch {μ : Nat} {o s : State} (port : Nat) (h : Touch μ o s) (hm : 0x40000400000004000000000 ||| μ = μ := by decide) : Touch μ o (pcsUp port s) := by
  refine h.step hm ?_
  unfold pcsUp; simp (maxDischargeDepth := 80) only [setBit_touch, wake_touch, ok_SEP_STATUS_PCS_UP, Touch.refl, ite_touch, Nat.reduceOr]

/-! Pulse. -/

theorem setTpi_touch {μ : Nat} {o s : State} (t : TpiSt) (h : Touch μ o s) (hm : 0x1000000 ||| μ = μ := by decide) : Touch μ o (setTpi t s) := by
  refine h.step hm ?_
  unfold setTpi; simp only [touch_mk, Touch.refl, Nat.reduceOr, true_or, or_true]

theorem reachVal_touch {μ : Nat} {o s : State} (b k t : Nat) (h : Touch μ o s) (hm : 0x30000 ||| μ = μ := by decide) : Touch μ o (reachVal b k t s) := by
  refine h.step hm ?_
  unfold reachVal; simp only [reachBase_touch, reachTb0_touch, Touch.refl, ite_touch, Nat.reduceOr]

theorem pulseRise_touch {μ : Nat} {o s : State} (n : Nat) (p : Pulse) (h : Touch μ o s) (hm : 0x1020000 ||| μ = μ := by decide) : Touch μ o (pulseRise n p s) := by
  refine h.step hm ?_
  unfold pulseRise; simp only [prod_touch, setTpi_touch, Touch.refl, Nat.reduceOr]

theorem pulseLate_touch {μ : Nat} {o s : State} (n : Nat) (p : Pulse) (h : Touch μ o s) (hm : 0x61000800000004001020480 ||| μ = μ := by decide) : Touch μ o (pulseLate n p s) := by
  refine h.step hm ?_
  unfold pulseLate; simp (maxDischargeDepth := 80) only [note_touch, flagBit_touch, pulseRise_touch, ok_TPI_ERR_PULSE_LATE, Touch.refl, Nat.reduceOr]

theorem pulseEnable_touch {μ : Nat} {o s : State} (n : Nat) (h : Touch μ o s) (hm : 0x61000800000004001020480 ||| μ = μ := by decide) : Touch μ o (pulseEnable n s) := by
  refine h.step hm ?_
  unfold pulseEnable; simp (maxDischargeDepth := 80) only [flag_touch, set_touch, setTpi_touch, pulseLate_touch, ok_TPI_ERR_CFG, ok_TPI_PULSE_CTL_EN, Touch.refl, ite_touch, Nat.reduceOr]

theorem pulseEdge_touch {μ : Nat} {o s : State} (n : Nat) (h : Touch μ o s) (hm : 0x1030000 ||| μ = μ := by decide) : Touch μ o (pulseEdge n s) := by
  refine h.step hm ?_
  unfold pulseEdge; repeat' first | (simp only [pulseRise_touch, reachVal_touch, Touch.refl, Nat.reduceOr]; done) | split

theorem pulseFall_touch {μ : Nat} {o s : State} (n : Nat) (h : Touch μ o s) (hm : 0x1030000 ||| μ = μ := by decide) : Touch μ o (pulseFall n s) := by
  refine h.step hm ?_
  unfold pulseFall; split <;> simp only [reachBase_touch, setTpi_touch, Touch.refl, Nat.reduceOr]

theorem pulseStep_touch {μ : Nat} {o s : State} (old : State) (n : Nat) (h : Touch μ o s) (hm : 0x61000800000004001020480 ||| μ = μ := by decide) : Touch μ o (pulseStep old n s) := by
  refine h.step hm ?_
  unfold pulseStep; repeat' first | (simp (maxDischargeDepth := 80) only [note_touch, setTpi_touch, pulseLate_touch, Touch.refl, ite_touch, Nat.reduceOr]; done) | with_reducible (refine ite_touch ?_ ?_) | with_reducible (refine foldl_touch (fun _ _ => ?_) ?_) | split | (dsimp only; with_reducible (refine ite_touch ?_ ?_)) | (dsimp only; split)

theorem ppsRise_touch {μ : Nat} {o s : State} (h : Touch μ o s) (hm : 0x1030000 ||| μ = μ := by decide) : Touch μ o (ppsRise s) := by
  refine h.step hm ?_
  unfold ppsRise; split <;> simp only [reachVal_touch, setTpi_touch, Touch.refl, Nat.reduceOr]

theorem ppsFall_touch {μ : Nat} {o s : State} (h : Touch μ o s) (hm : 0x1030000 ||| μ = μ := by decide) : Touch μ o (ppsFall s) := by
  refine h.step hm ?_
  unfold ppsFall; split <;> simp only [reachBase_touch, setTpi_touch, Touch.refl, Nat.reduceOr]

theorem ppsStep_touch {μ : Nat} {o s : State} (old : State) (n : Nat) (h : Touch μ o s) (hm : 0x61000000000004000000480 ||| μ = μ := by decide) : Touch μ o (ppsStep old n s) := by
  refine h.step hm ?_
  unfold ppsStep; repeat' first | (simp (maxDischargeDepth := 80) only [note_touch, Touch.refl, ite_touch, Nat.reduceOr]; done) | with_reducible (refine ite_touch ?_ ?_) | with_reducible (refine foldl_touch (fun _ _ => ?_) ?_) | split | (dsimp only; with_reducible (refine ite_touch ?_ ?_)) | (dsimp only; split)

theorem setCap_touch {μ : Nat} {o s : State} (ch : Nat) (c : Capture) (h : Touch μ o s) (hm : 0x1000000 ||| μ = μ := by decide) : Touch μ o (setCap ch c s) := by
  refine h.step hm ?_
  unfold setCap; simp only [setTpi_touch, Touch.refl, Nat.reduceOr]

theorem showCap_touch {μ : Nat} {o s : State} (ch : Nat) (fresh : Bool) (h : Touch μ o s) (hm : 0x60000800000004000000400 ||| μ = μ := by decide) : Touch μ o (showCap ch fresh s) := by
  refine h.step hm ?_
  unfold showCap; repeat' first | (simp (maxDischargeDepth := 80) only [set_touch, post_touch, wr_touch, ok_TPI_CAP_CTL_LEVEL, ok_TPI_CAP_RESULT_VALID, ok_TPI_CAP_RESULT_SEQ, ok_TPI_CAP_TIME_TIME, Touch.refl, Nat.reduceOr, wr_touch]; done) | with_reducible (refine ite_touch ?_ ?_) | with_reducible (refine foldl_touch (fun _ _ => ?_) ?_) | split | (dsimp only; with_reducible (refine ite_touch ?_ ?_)) | (dsimp only; split)

theorem captureEdge_touch {μ : Nat} {o s : State} (ch phase : Nat) (h : Touch μ o s) (hm : 0x61000800000004001020480 ||| μ = μ := by decide) : Touch μ o (captureEdge ch phase s) := by
  refine h.step hm ?_
  unfold captureEdge; simp (maxDischargeDepth := 80) only [flagBit_touch, bump_touch, setCap_touch, note_touch, wake_touch, prod_touch, showCap_touch, ok_TPI_ERR_CAP_OVF, ok_TPI_CAP_CTL_OVF, Touch.refl, ite_touch, Nat.reduceOr]

theorem captureConsume_touch {μ : Nat} {o s : State} (ch : Nat) (acc : Acc) (h : Touch μ o s) (hm : 0x63000800000004001000580 ||| μ = μ := by decide) : Touch μ o (captureConsume ch acc s) := by
  refine h.step hm ?_
  unfold captureConsume; repeat' first | (simp (maxDischargeDepth := 80) only [consume_touch, showCap_touch, setCap_touch, ok_TPI_CAP_RESULT_SEQ, Touch.refl, ite_touch, Nat.reduceOr]; done) | with_reducible (refine ite_touch ?_ ?_) | with_reducible (refine foldl_touch (fun _ _ => ?_) ?_) | split | (dsimp only; with_reducible (refine ite_touch ?_ ?_)) | (dsimp only; split) | ((try dsimp only); first | with_reducible (apply consume_touch) | with_reducible (apply showCap_touch) | with_reducible (apply setCap_touch) | with_reducible (apply touch_mk))

theorem tpiWrite_touch {μ : Nat} {o s : State} (a : Nat) (acc : Acc) (h : Touch μ o s) (ha : InPages μ a) (hm : 0x63000800000004001020580 ||| μ = μ := by decide) : Touch μ o (tpiWrite a acc s) := by
  have e0 : 0x1000000 ||| μ = μ := or_sub hm (by decide)
  have e1 : 0x800000000000000000 ||| μ = μ := or_sub hm (by decide)
  have e2 : 0x1000000000000000000000 ||| μ = μ := or_sub hm (by decide)
  have e3 : 0x2000000000000000000000 ||| μ = μ := or_sub hm (by decide)
  have e4 : 0x20000000000000000000000 ||| μ = μ := or_sub hm (by decide)
  have e5 : 0x40000000000000000000000 ||| μ = μ := or_sub hm (by decide)
  have e6 : 0x61000800000004001020480 ||| μ = μ := or_sub hm (by decide)
  have e7 : 0x62000000000004000000500 ||| μ = μ := or_sub hm (by decide)
  have e8 : 0x63000800000004001000580 ||| μ = μ := or_sub hm (by decide)
  unfold tpiWrite; simp (maxDischargeDepth := 80) only [captureConsume_touch, perform_touch, pulseEnable_touch, setTpi_touch, ite_touch, e0, e6, e7, e8, ha, h]

/-! Time. -/

theorem setTim_touch {μ : Nat} {o s : State} (t : TimSt) (h : Touch μ o s) (hm : 0x10000 ||| μ = μ := by decide) : Touch μ o (setTim t s) := by
  refine h.step hm ?_
  unfold setTim; simp only [touch_mk, Touch.refl, Nat.reduceOr, true_or, or_true]

theorem setServo_touch {μ : Nat} {o s : State} (n : Nat) (v : Servo) (h : Touch μ o s) (hm : 0x10000 ||| μ = μ := by decide) : Touch μ o (setServo n v s) := by
  refine h.step hm ?_
  unfold setServo; simp only [setTim_touch, Touch.refl, Nat.reduceOr]

theorem showRoot_touch {μ : Nat} {o s : State} (h : Touch μ o s) (hm : 0x2000000000000000000 ||| μ = μ := by decide) : Touch μ o (showRoot s) := by
  refine h.step hm ?_
  unfold showRoot; split <;> simp only [set_touch, ok_TIM_TB_STATUS_STATE, Touch.refl, Nat.reduceOr]

theorem tbEnter_touch {μ : Nat} {o s : State} (n st cause : Nat) (h : Touch μ o s) (hm : 0x2000000000000000000 ||| μ = μ := by decide) : Touch μ o (tbEnter n st cause s) := by
  refine h.step hm ?_
  unfold tbEnter; simp (maxDischargeDepth := 80) only [showRoot_touch, set_touch, ok_TIM_TB_STATUS_CAUSE, ok_TIM_TB_STATUS_STATE, Touch.refl, Nat.reduceOr]

theorem stepBase_touch {μ : Nat} {o s : State} (n : Nat) (d : Int) (h : Touch μ o s) (hm : 0x61000800000004001030480 ||| μ = μ := by decide) : Touch μ o (stepBase n d s) := by
  refine h.step hm ?_
  unfold stepBase; simp (maxDischargeDepth := 80) only [setTim_touch, tallyStep_touch, ppsStep_touch, pulseStep_touch, Touch.refl, ite_touch, Nat.reduceOr]

theorem freezeF_touch {μ : Nat} {o s : State} (n : Nat) (h : Touch μ o s) (hm : 0x2000000000000000000 ||| μ = μ := by decide) : Touch μ o (freezeF n s) := by
  refine h.step hm ?_
  unfold freezeF; simp only [set_touch, ok_TIM_TB_FREQ_APPLIED, Touch.refl, Nat.reduceOr]

theorem enterHoldover_touch {μ : Nat} {o s : State} (n cause : Nat) (h : Touch μ o s) (hm : 0x61002000000004000020480 ||| μ = μ := by decide) : Touch μ o (enterHoldover n cause s) := by
  refine h.step hm ?_
  unfold enterHoldover; simp (maxDischargeDepth := 80) only [report_touch, prod_touch, freezeF_touch, tbEnter_touch, ok_tbHeld, Touch.refl, Nat.reduceOr]

theorem refuse_touch {μ : Nat} {o_ s : State} (n : Nat) (o : Int) (h : Touch μ o_ s) (hm : 0x61002000000004000020480 ||| μ = μ := by decide) : Touch μ o_ (refuse n o s) := by
  refine h.step hm ?_
  unfold refuse; simp (maxDischargeDepth := 80) only [freezeF_touch, tbEnter_touch, set_touch, report_touch, prod_touch, ok_TIM_TB_JUMP_PEND_SEQ, ok_TIM_TB_PENDING_PENDING, ok_tbRefused, Touch.refl, Nat.reduceOr]

theorem servoStep_touch {μ : Nat} {o_ s : State} (n : Nat) (o : Int) (t : Nat) (h : Touch μ o_ s) (hm : 0x2000000000000000000 ||| μ = μ := by decide) : Touch μ o_ (servoStep n o t s) := by
  refine h.step hm ?_
  unfold servoStep; simp (maxDischargeDepth := 80) only [set_touch, ok_TIM_TB_FREQ_APPLIED, ok_TIM_TB_FREQ_INTEG, ok_TIM_TB_STATUS_CLAMPED, Touch.refl, Nat.reduceOr]

theorem lockRun_touch {μ : Nat} {o_ s : State} (n : Nat) (o : Int) (h : Touch μ o_ s) (hm : 0x61002000000004000010480 ||| μ = μ := by decide) : Touch μ o_ (lockRun n o s) := by
  refine h.step hm ?_
  unfold lockRun; simp (maxDischargeDepth := 80) only [setServo_touch, note_touch, tbEnter_touch, Touch.refl, ite_touch, Nat.reduceOr]

theorem applied_touch {μ : Nat} {o_ s : State} (n : Nat) (o : Int) (h : Touch μ o_ s) (hm : 0x2000000000000030000 ||| μ = μ := by decide) : Touch μ o_ (applied n o s) := by
  refine h.step hm ?_
  unfold applied; simp (maxDischargeDepth := 80) only [bump_touch, set_touch, prod_touch, setServo_touch, ok_TIM_TB_STATUS_MEAS_CNT, ok_TIM_TB_OFFSET_OFFSET, Touch.refl, Nat.reduceOr]

theorem applyMeas_touch {μ : Nat} {o_ s : State} (n : Nat) (o : Int) (h : Touch μ o_ s) (hm : 0x61002000000004000030480 ||| μ = μ := by decide) : Touch μ o_ (applyMeas n o s) := by
  refine h.step hm ?_
  unfold applyMeas; repeat' first | (simp (maxDischargeDepth := 80) only [servoStep_touch, applied_touch, lockRun_touch, Touch.refl, ite_touch, Nat.reduceOr]; done) | split

theorem measure_touch {μ : Nat} {o_ s : State} (n : Nat) (o : Int) (fab : Bool) (h : Touch μ o_ s) (hm : 0x61002800000004001030480 ||| μ = μ := by decide) : Touch μ o_ (measure n o fab s) := by
  refine h.step hm ?_
  unfold measure; simp (maxDischargeDepth := 80) only [set_touch, stepBase_touch, note_touch, applied_touch, tbEnter_touch, refuse_touch, applyMeas_touch, setServo_touch, ok_TIM_TB_FREQ_APPLIED, ok_TIM_TB_FREQ_INTEG, ok_TIM_TB_JUMP_PEND_SEQ, ok_TIM_TB_PENDING_PENDING, Touch.refl, ite_touch, Nat.reduceOr]

theorem jumpStale_touch {μ : Nat} {o s : State} (n seq why : Nat) (h : Touch μ o s) (hm : 0x61002000000004000000480 ||| μ = μ := by decide) : Touch μ o (jumpStale n seq why s) := by
  refine h.step hm ?_
  unfold jumpStale; simp only [report_touch, ok_TIM_ERR_JUMP_STALE, Touch.refl, Nat.reduceOr]

theorem jumpDone_touch {μ : Nat} {o s : State} (n which : Nat) (h : Touch μ o s) (hm : 0x61002000000004000010480 ||| μ = μ := by decide) : Touch μ o (jumpDone n which s) := by
  refine h.step hm ?_
  unfold jumpDone; simp (maxDischargeDepth := 80) only [note_touch, setServo_touch, tbEnter_touch, Touch.refl, Nat.reduceOr]

theorem jumpWrite_touch {μ : Nat} {o s : State} (n : Nat) (acc : Acc) (h : Touch μ o s) (hm : 0x63002800000004001030580 ||| μ = μ := by decide) : Touch μ o (jumpWrite n acc s) := by
  refine h.step hm ?_
  unfold jumpWrite; simp (maxDischargeDepth := 80) only [jumpStale_touch, ledgerReg_touch, jumpDone_touch, stepBase_touch, Touch.refl, ite_touch, Nat.reduceOr]

theorem servoTimeout_touch {μ : Nat} {o s : State} (n : Nat) (h : Touch μ o s) (hm : 0x61002000000004000030480 ||| μ = μ := by decide) : Touch μ o (servoTimeout n s) := by
  refine h.step hm ?_
  unfold servoTimeout; repeat' first | (simp (maxDischargeDepth := 80) only [reachBase_touch, note_touch, tbEnter_touch, enterHoldover_touch, Touch.refl, ite_touch, Nat.reduceOr]; done) | split

theorem latch_touch {μ : Nat} {o s : State} (i v : Nat) (h : Touch μ o s) (hm : 0x2000000000000000000 ||| μ = μ := by decide) : Touch μ o (latch i v s) := by
  refine h.step hm ?_
  unfold latch; simp (maxDischargeDepth := 80) only [set_touch, ok_TIM_SNAP_SEC_SEC, ok_TIM_SNAP_NS_FRAC, ok_TIM_SNAP_NS_NS, Touch.refl, Nat.reduceOr]

theorem timeSnapshot_touch {μ : Nat} {o s : State} (h : Touch μ o s) (hm : 0x60002000000004000000400 ||| μ = μ := by decide) : Touch μ o (timeSnapshot s) := by
  refine h.step hm ?_
  unfold timeSnapshot; simp (maxDischargeDepth := 80) only [flag_touch, latch_touch, post_touch, ok_TIM_ERR_SNAP_BUSY, ok_TIM_SNAP_RESULT_SEQ, implies_true, Touch.refl, foldl_touch, ite_touch, Nat.reduceOr]

theorem setPtp_touch {μ : Nat} {o s : State} (p : PtpSt) (h : Touch μ o s) (hm : 0x10000 ||| μ = μ := by decide) : Touch μ o (setPtp p s) := by
  refine h.step hm ?_
  unfold setPtp; simp only [setTim_touch, Touch.refl, Nat.reduceOr]

theorem foreign_touch {μ : Nat} {o s : State} (h : Touch μ o s) (hm : 0x2000000000000000000 ||| μ = μ := by decide) : Touch μ o (foreign s) := by
  refine h.step hm ?_
  unfold foreign; simp only [bump_touch, ok_TIM_PTP_DISCARD_FOREIGN, Touch.refl, Nat.reduceOr]

theorem invalidPtp_touch {μ : Nat} {o s : State} (h : Touch μ o s) (hm : 0x2000000000000000000 ||| μ = μ := by decide) : Touch μ o (invalidPtp s) := by
  refine h.step hm ?_
  unfold invalidPtp; simp only [bump_touch, ok_TIM_PTP_DISCARD_INVALID, Touch.refl, Nat.reduceOr]

theorem syncKnown_touch {μ : Nat} {o s : State} (seq : Nat) (x : Int) (h : Touch μ o s) (hm : 0x61002800000004001030480 ||| μ = μ := by decide) : Touch μ o (syncKnown seq x s) := by
  refine h.step hm ?_
  unfold syncKnown; repeat' first | (simp (maxDischargeDepth := 80) only [setPtp_touch, measure_touch, Touch.refl, Nat.reduceOr]; done) | with_reducible (refine ite_touch ?_ ?_) | with_reducible (refine foldl_touch (fun _ _ => ?_) ?_) | split | (dsimp only; with_reducible (refine ite_touch ?_ ?_)) | (dsimp only; split)

theorem ptpSync_touch {μ : Nat} {o s : State} (m : List Byte) (phase : Nat) (h : Touch μ o s) (hm : 0x61002800000004001030480 ||| μ = μ := by decide) : Touch μ o (ptpSync m phase s) := by
  refine h.step hm ?_
  unfold ptpSync; simp (maxDischargeDepth := 80) only [foreign_touch, invalidPtp_touch, setPtp_touch, syncKnown_touch, Touch.refl, ite_touch, Nat.reduceOr]

theorem ptpFollowUp_touch {μ : Nat} {o s : State} (m : List Byte) (h : Touch μ o s) (hm : 0x61002800000004001030480 ||| μ = μ := by decide) : Touch μ o (ptpFollowUp m s) := by
  refine h.step hm ?_
  unfold ptpFollowUp; repeat' first | (simp only [foreign_touch, syncKnown_touch, setPtp_touch, Touch.refl, Nat.reduceOr]; done) | split

theorem newDelay_touch {μ : Nat} {o s : State} (x y : Int) (h : Touch μ o s) (hm : 0x2000000000000010000 ||| μ = μ := by decide) : Touch μ o (newDelay x y s) := by
  refine h.step hm ?_
  unfold newDelay; simp (maxDischargeDepth := 80) only [invalidPtp_touch, set_touch, setPtp_touch, ok_TIM_TB_STATUS_DELAY, Touch.refl, ite_touch, Nat.reduceOr]

theorem ptpDelayResp_touch {μ : Nat} {o s : State} (m : List Byte) (h : Touch μ o s) (hm : 0x2000000000000010000 ||| μ = μ := by decide) : Touch μ o (ptpDelayResp m s) := by
  refine h.step hm ?_
  unfold ptpDelayResp; repeat' first | (simp only [foreign_touch, invalidPtp_touch, setPtp_touch, newDelay_touch, Touch.refl, Nat.reduceOr]; done) | split

theorem delayReqSend_touch {μ : Nat} {o s : State} (phase : Nat) (h : Touch μ o s) (hm : 0x30004 ||| μ = μ := by decide) : Touch μ o (delayReqSend phase s) := by
  refine h.step hm ?_
  unfold delayReqSend; repeat' first | (simp (maxDischargeDepth := 80) only [reachBase_touch, sendFrame_touch, prod_touch, setPtp_touch, Touch.refl, ite_touch, Nat.reduceOr]; done) | with_reducible (refine ite_touch ?_ ?_) | with_reducible (refine foldl_touch (fun _ _ => ?_) ?_) | split

theorem ptpOther_touch {μ : Nat} {o s : State} (f : List Byte) (h : Touch μ o s) (hm : 0x61002400000004000004480 ||| μ = μ := by decide) : Touch μ o (ptpOther f s) := by
  refine h.step hm ?_
  unfold ptpOther; repeat' first | (simp (maxDischargeDepth := 80) only [toFirmware_touch, note_touch, foreign_touch, Touch.refl, ite_touch, Nat.reduceOr]; done) | split

theorem ptpStamps_touch {μ : Nat} {o s : State} (t1 t2 t3 t4 cSync cDelay : Int) (h : Touch μ o s) (hm : 0x61002800000004001030480 ||| μ = μ := by decide) : Touch μ o (ptpStamps t1 t2 t3 t4 cSync cDelay s) := by
  refine h.step hm ?_
  unfold ptpStamps; split <;> simp only [measure_touch, newDelay_touch, Touch.refl, Nat.reduceOr]

theorem ptpFresh_touch {μ : Nat} {o s : State} (h : Touch μ o s) (hm : 0x10000 ||| μ = μ := by decide) : Touch μ o (ptpFresh s) := by
  refine h.step hm ?_
  unfold ptpFresh; simp only [setPtp_touch, Touch.refl, Nat.reduceOr]

theorem timWrite_touch {μ : Nat} {o s : State} (a : Nat) (acc : Acc) (h : Touch μ o s) (ha : InPages μ a) (hm : 0x63002800000004001030580 ||| μ = μ := by decide) : Touch μ o (timWrite a acc s) := by
  have e0 : 0x10000 ||| μ = μ := or_sub hm (by decide)
  have e1 : 0x800000000000000000 ||| μ = μ := or_sub hm (by decide)
  have e2 : 0x2000000000000000000 ||| μ = μ := or_sub hm (by decide)
  have e3 : 0x1000000000000000000000 ||| μ = μ := or_sub hm (by decide)
  have e4 : 0x2000000000000000000000 ||| μ = μ := or_sub hm (by decide)
  have e5 : 0x20000000000000000000000 ||| μ = μ := or_sub hm (by decide)
  have e6 : 0x40000000000000000000000 ||| μ = μ := or_sub hm (by decide)
  have e7 : 0x60002000000004000000400 ||| μ = μ := or_sub hm (by decide)
  have e8 : 0x61000000000004000000480 ||| μ = μ := or_sub hm (by decide)
  have e9 : 0x62000000000004000000500 ||| μ = μ := or_sub hm (by decide)
  have e10 : 0x63000000000004000000580 ||| μ = μ := or_sub hm (by decide)
  have e11 : 0x63002800000004001030580 ||| μ = μ := or_sub hm (by decide)
  unfold timWrite; repeat' first | (simp (maxDischargeDepth := 80) only [jumpWrite_touch, consume_touch, perform_touch, timeSnapshot_touch, ptpFresh_touch, undefinedField_touch, showRoot_touch, setTim_touch, ite_touch, e0, e2, e7, e8, e9, e10, e11, ha, h]; done) | split

/-! FabricTime. -/

theorem setFab_touch {μ : Nat} {o s : State} (f : FabSt) (h : Touch μ o s) (hm : 0x10000 ||| μ = μ := by decide) : Touch μ o (setFab f s) := by
  refine h.step hm ?_
  unfold setFab; simp only [setTim_touch, Touch.refl, Nat.reduceOr]

theorem fabricDreqSend_touch {μ : Nat} {o s : State} (h : Touch μ o s) (hm : 0x610080000000040000b0480 ||| μ = μ := by decide) : Touch μ o (fabricDreqSend s) := by
  refine h.step hm ?_
  unfold fabricDreqSend; repeat' first | (simp (maxDischargeDepth := 80) only [reachBase_touch, setFab_touch, sendPkt_touch, Touch.refl, Nat.reduceOr]; done) | split

theorem replyFull_touch {μ : Nat} {o s : State} (part : Nat) (h : Touch μ o s) (hm : 0x61008000000004000000480 ||| μ = μ := by decide) : Touch μ o (replyFull part s) := by
  refine h.step hm ?_
  unfold replyFull; simp only [report_touch, ok_INK_ERR_REPLY_FULL, Touch.refl, Nat.reduceOr]

theorem takeTime_touch {μ : Nat} {o s : State} {m l : Nat} {p : Pkt} {t : State} (h : Touch μ o s) (e : takeTime m s = some (l, p, t)) (hm : 0x22000 ||| μ = μ := by decide) : Touch μ o t := by
  have aux {o s : State} {m l : Nat} {p : Pkt} {t : State} (h : Touch 0x22000 o s) (e : takeTime m s = some (l, p, t)) : Touch 0x22000 o t := by
    unfold takeTime at e
    repeat' first | (cases e; done) | (cases e; exact prod_touch _ _ (by first | exact h | simp only [touch_mk, h, Nat.reduceOr, true_or, or_true])) | split at e
  exact h.step hm (aux (Touch.refl 0x22000 _) e)

theorem fabricDreq_touch {μ : Nat} {o s : State} (h : Touch μ o s) (hm : 0x610080000000040000b2480 ||| μ = μ := by decide) : Touch μ o (fabricDreq s) := by
  refine h.step hm ?_
  unfold fabricDreq; repeat' first | (rename_i heq; replace heq := takeTime_touch (Touch.refl 0x610080000000040000b2480 _) heq) | (simp (maxDischargeDepth := 80) only [replyFull_touch, setFab_touch, sendPkt_touch, touch_mk, Touch.refl, ite_touch, Nat.reduceOr, true_or, or_true, *]; done) | with_reducible (refine ite_touch ?_ ?_) | with_reducible (refine foldl_touch (fun _ _ => ?_) ?_) | split

theorem fabricDresp_touch {μ : Nat} {o s : State} (h : Touch μ o s) (hm : 0x32000 ||| μ = μ := by decide) : Touch μ o (fabricDresp s) := by
  refine h.step hm ?_
  unfold fabricDresp; repeat' first | (rename_i heq; replace heq := takeTime_touch (Touch.refl 0x32000 _) heq) | (simp (maxDischargeDepth := 80) only [setFab_touch, Touch.refl, Nat.reduceOr, *]; done) | with_reducible (refine ite_touch ?_ ?_) | with_reducible (refine foldl_touch (fun _ _ => ?_) ?_) | split

theorem fabricMeasure_touch {μ : Nat} {o s : State} (t1 t2 t3 t4 : Int) (h : Touch μ o s) (hm : 0x61002800000004001030480 ||| μ = μ := by decide) : Touch μ o (fabricMeasure t1 t2 t3 t4 s) := by
  refine h.step hm ?_
  unfold fabricMeasure; simp (maxDischargeDepth := 80) only [set_touch, measure_touch, ok_TIM_TB_STATUS_DELAY, Touch.refl, ite_touch, Nat.reduceOr]

theorem fabricFup_touch {μ : Nat} {o s : State} (h : Touch μ o s) (hm : 0x61002800000004001032480 ||| μ = μ := by decide) : Touch μ o (fabricFup s) := by
  refine h.step hm ?_
  unfold fabricFup; repeat' first | (rename_i heq; replace heq := takeTime_touch (Touch.refl 0x61002800000004001032480 _) heq) | (simp (maxDischargeDepth := 80) only [setFab_touch, fabricMeasure_touch, Touch.refl, ite_touch, Nat.reduceOr, *]; done) | with_reducible (refine ite_touch ?_ ?_) | with_reducible (refine foldl_touch (fun _ _ => ?_) ?_) | split | (dsimp only; with_reducible (refine ite_touch ?_ ?_)) | (dsimp only; split)

/-! Sram. -/

theorem fwPut_touch {μ : Nat} {o s : State} (a : Nat) (b : List Byte) (h : Touch μ o s) (hm : 0x400000 ||| μ = μ := by decide) : Touch μ o (fwPut a b s) := by
  refine h.step hm ?_
  unfold fwPut; simp only [touch_mk, Touch.refl, Nat.reduceOr, true_or, or_true]

/-! Tree. -/

theorem setTre_touch {μ : Nat} {o s : State} (t : TreSt) (h : Touch μ o s) (hm : 0x8000000 ||| μ = μ := by decide) : Touch μ o (setTre t s) := by
  refine h.step hm ?_
  unfold setTre; simp only [touch_mk, Touch.refl, Nat.reduceOr, true_or, or_true]

theorem showTre_touch {μ : Nat} {o s : State} (h : Touch μ o s) (hm : 0x10000000000000000000 ||| μ = μ := by decide) : Touch μ o (showTre s) := by
  refine h.step hm ?_
  unfold showTre; simp (maxDischargeDepth := 80) only [set_touch, ok_TRE_STATUS_BUSY, ok_TRE_STATUS_QUEUED, ok_TRE_STATUS_BOUND, Touch.refl, Nat.reduceOr]

theorem protWrite_touch {μ : Nat} {o s : State} (slot : Nat) (h : Touch μ o s) (hm : 0x61010000000004008000480 ||| μ = μ := by decide) : Touch μ o (protWrite slot s) := by
  refine h.step hm ?_
  unfold protWrite; simp (maxDischargeDepth := 80) only [record_touch, flag_touch, setTre_touch, ok_TRE_ERR_STORE_PROT, Touch.refl, ite_touch, Nat.reduceOr]

theorem sramWrite_touch {μ : Nat} {o s : State} (a : Nat) (bs : List Byte) (h : Touch μ o s) (hm : 0x61010000000004008200480 ||| μ = μ := by decide) : Touch μ o (sramWrite a bs s) := by
  refine h.step hm ?_
  unfold sramWrite; simp (maxDischargeDepth := 80) only [protWrite_touch, touch_mk, implies_true, Touch.refl, foldl_touch, ite_touch, Nat.reduceOr, true_or, or_true]

theorem partWrite_touch {μ : Nat} {o s : State} (id off : Nat) (bs : List Byte) (h : Touch μ o s) (hm : 0x61010000000004008200480 ||| μ = μ := by decide) : Touch μ o (partWrite id off bs s) := by
  refine h.step hm ?_
  unfold partWrite; simp only [sramWrite_touch, Touch.refl, Nat.reduceOr]

theorem modelPost_touch {μ : Nat} {o s : State} (seq slot status pos : Nat) (h : Touch μ o s) (hm : 0x61010000000004000000480 ||| μ = μ := by decide) : Touch μ o (modelPost seq slot status pos s) := by
  refine h.step hm ?_
  unfold modelPost; simp (maxDischargeDepth := 80) only [report_touch, showTre_touch, post_touch, set_touch, ok_TRE_ERR_BIND_ERR, ok_TRE_MODEL_RESULT_SEQ, ok_TRE_MODEL_CMD_START, Touch.refl, ite_touch, Nat.reduceOr]

theorem showModel_touch {μ : Nat} {o s : State} (slot : Nat) (m : Option Model) (failed : Bool) (h : Touch μ o s) (hm : 0x10000000000000000000 ||| μ = μ := by decide) : Touch μ o (showModel slot m failed s) := by
  refine h.step hm ?_
  unfold showModel; simp (maxDischargeDepth := 80) only [wr_touch, ok_TRE_MODEL_LOC_OFFSET, ok_TRE_MODEL_INFO_VALID, Touch.refl, Nat.reduceOr, wr_touch]

theorem unbind_touch {μ : Nat} {o s : State} (slot : Nat) (failed : Bool) (h : Touch μ o s) (hm : 0x10000000000008000000 ||| μ = μ := by decide) : Touch μ o (unbind slot failed s) := by
  refine h.step hm ?_
  unfold unbind; simp (maxDischargeDepth := 80) only [showTre_touch, showModel_touch, setTre_touch, Touch.refl, Nat.reduceOr]

theorem modelCmd_touch {μ : Nat} {o s : State} (h : Touch μ o s) (hm : 0x61010000000004008000480 ||| μ = μ := by decide) : Touch μ o (modelCmd s) := by
  refine h.step hm ?_
  unfold modelCmd; repeat' first | (simp (maxDischargeDepth := 80) only [set_touch, modelPost_touch, setTre_touch, unbind_touch, undefinedField_touch, ok_TRE_MODEL_CMD_START, Touch.refl, ite_touch, Nat.reduceOr]; done) | split

theorem bindDone_touch {μ : Nat} {o s : State} (ecc : Option Nat) (h : Touch μ o s) (hm : 0x61010000000004008000480 ||| μ = μ := by decide) : Touch μ o (bindDone ecc s) := by
  refine h.step hm ?_
  unfold bindDone; repeat' first | (simp (maxDischargeDepth := 80) only [setTre_touch, modelPost_touch, showModel_touch, note_touch, Touch.refl, Nat.reduceOr]; done) | split

theorem evalRow_touch {μ : Nat} {o : State} {a : State × Nat} (m : Model) (j : TreJob) (r : Nat) (h : Touch μ o a.1) (hm : 0x61010000000004008200480 ||| μ = μ := by decide) : Touch μ o (evalRow m j a r).1 := by
  have aux {o : State} {a : State × Nat} (m : Model) (j : TreJob) (r : Nat) (h : Touch 0x61010000000004008200480 o a.1) : Touch 0x61010000000004008200480 o (evalRow m j a r).1 :=
    partWrite_touch _ _ _ h
  exact h.step hm (aux _ _ _ (Touch.refl 0x61010000000004008200480 _))

theorem jobPost_touch {μ : Nat} {o s : State} (j : TreJob) (status rows nonfin cycles : Nat) (h : Touch μ o s) (hm : 0x71010000000004000000480 ||| μ = μ := by decide) : Touch μ o (jobPost j status rows nonfin cycles s) := by
  refine h.step hm ?_
  unfold jobPost; simp (maxDischargeDepth := 80) only [wr_touch, report_touch, post_touch, syncEvent_touch, showTre_touch, ok_TRE_JOB_STATS_CYCLES, ok_TRE_ERR_JOB_ERR, ok_TRE_JOB_RESULT_SEQ, Touch.refl, ite_touch, Nat.reduceOr, wr_touch]

theorem treeGo_touch {μ : Nat} {o s : State} (i : Nat) (h : Touch μ o s) (hm : 0x71010000000004008000480 ||| μ = μ := by decide) : Touch μ o (treeGo i s) := by
  refine h.step hm ?_
  unfold treeGo; repeat' first | (simp (maxDischargeDepth := 80) only [flag_touch, jobPost_touch, showTre_touch, setTre_touch, ok_TRE_ERR_SLOT_BUSY, Touch.refl, Nat.reduceOr]; done) | with_reducible (refine ite_touch ?_ ?_) | with_reducible (refine foldl_touch (fun _ _ => ?_) ?_) | split | (dsimp only; with_reducible (refine ite_touch ?_ ?_)) | (dsimp only; split)

theorem treeStart_touch {μ : Nat} {o s : State} (e : Nat) (h : Touch μ o s) (hm : 0x10000000000008000000 ||| μ = μ := by decide) : Touch μ o (treeStart e s) := by
  refine h.step hm ?_
  unfold treeStart; repeat' first | (simp only [showTre_touch, setTre_touch, Touch.refl, Nat.reduceOr]; done) | split

theorem treeDone_touch {μ : Nat} {o s : State} (e cycles : Nat) (ecc : Option (Nat × Bool × Nat)) (h : Touch μ o s) (hm : 0x71010000000004008220480 ||| μ = μ := by decide) : Touch μ o (treeDone e cycles ecc s) := by
  refine h.step hm ?_
  unfold treeDone; repeat' first | (simp (maxDischargeDepth := 80) only [evalRow_touch, prod_touch, setTre_touch, jobPost_touch, note_touch, flag_touch, unbind_touch, ok_TRE_ERR_ECC, implies_true, Touch.refl, ite_touch, foldl1_touch, Nat.reduceOr]; done) | split

theorem treeAbort_touch {μ : Nat} {o s : State} (h : Touch μ o s) (hm : 0x71010000000004008000480 ||| μ = μ := by decide) : Touch μ o (treeAbort s) := by
  refine h.step hm ?_
  unfold treeAbort; simp only [jobPost_touch, setTre_touch, implies_true, Touch.refl, foldl_touch, Nat.reduceOr]

theorem treWrite_touch {μ : Nat} {o s : State} (a : Nat) (acc : Acc) (h : Touch μ o s) (ha : InPages μ a) (hm : 0x73010000000004008000580 ||| μ = μ := by decide) : Touch μ o (treWrite a acc s) := by
  have e0 : 0x10000000000000000000 ||| μ = μ := or_sub hm (by decide)
  have e1 : 0x1000000000000000000000 ||| μ = μ := or_sub hm (by decide)
  have e2 : 0x2000000000000000000000 ||| μ = μ := or_sub hm (by decide)
  have e3 : 0x10000000000000000000000 ||| μ = μ := or_sub hm (by decide)
  have e4 : 0x20000000000000000000000 ||| μ = μ := or_sub hm (by decide)
  have e5 : 0x40000000000000000000000 ||| μ = μ := or_sub hm (by decide)
  have e6 : 0x61010000000004008000480 ||| μ = μ := or_sub hm (by decide)
  have e7 : 0x62000000000004000000500 ||| μ = μ := or_sub hm (by decide)
  have e8 : 0x63000000000004000000580 ||| μ = μ := or_sub hm (by decide)
  have e9 : 0x71010000000004008000480 ||| μ = μ := or_sub hm (by decide)
  unfold treWrite; simp (maxDischargeDepth := 80) only [consume_touch, perform_touch, modelCmd_touch, treeGo_touch, ite_touch, e6, e7, e8, e9, ha, h]

/-! Courier. -/

theorem setCur_touch {μ : Nat} {o s : State} (c : CurSt) (h : Touch μ o s) (hm : 0x100000000 ||| μ = μ := by decide) : Touch μ o (setCur c s) := by
  refine h.step hm ?_
  unfold setCur; simp only [touch_mk, Touch.refl, Nat.reduceOr, true_or, or_true]

theorem setSnap_touch {μ : Nat} {o s : State} (p : CurSnap) (h : Touch μ o s) (hm : 0x100000000 ||| μ = μ := by decide) : Touch μ o (setSnap p s) := by
  refine h.step hm ?_
  unfold setSnap; simp only [setCur_touch, Touch.refl, Nat.reduceOr]

theorem curEnter_touch {μ : Nat} {o s : State} (n : Nat) (h : Touch μ o s) (hm : 0x200000000000000000000 ||| μ = μ := by decide) : Touch μ o (curEnter n s) := by
  refine h.step hm ?_
  unfold curEnter; simp only [set_touch, ok_CUR_STATUS_STATE, Touch.refl, Nat.reduceOr]

theorem showStart_touch {μ : Nat} {o s : State} (h : Touch μ o s) (hm : 0x200000000000000000000 ||| μ = μ := by decide) : Touch μ o (showStart s) := by
  refine h.step hm ?_
  unfold showStart; simp only [set_touch, ok_CUR_SNAP_CMD_START, Touch.refl, Nat.reduceOr]

theorem curPost_touch {μ : Nat} {o s : State} (seq status : Nat) (h : Touch μ o s) (hm : 0x60200000000004100000400 ||| μ = μ := by decide) : Touch μ o (curPost seq status s) := by
  refine h.step hm ?_
  unfold curPost; simp (maxDischargeDepth := 80) only [showStart_touch, setCur_touch, post_touch, ok_CUR_SNAP_RESULT_SEQ, Touch.refl, ite_touch, Nat.reduceOr]

theorem curOwed_touch {μ : Nat} {o s : State} (h : Touch μ o s) (hm : 0x60200000000004100000400 ||| μ = μ := by decide) : Touch μ o (curOwed s) := by
  refine h.step hm ?_
  unfold curOwed; repeat' first | (simp only [curPost_touch, setCur_touch, Touch.refl, Nat.reduceOr]; done) | split

theorem curOut_touch {μ : Nat} {o s : State} (seq outcome detail : Nat) (h : Touch μ o s) (hm : 0x71200000000004000000480 ||| μ = μ := by decide) : Touch μ o (curOut seq outcome detail s) := by
  refine h.step hm ?_
  unfold curOut; simp (maxDischargeDepth := 80) only [syncEvent_touch, post_touch, ok_CUR_OUT_SEQ, Touch.refl, Nat.reduceOr]

theorem showIntents_touch {μ : Nat} {o s : State} (h : Touch μ o s) (hm : 0x100000000000000000 ||| μ = μ := by decide) : Touch μ o (showIntents s) := by
  refine h.step hm ?_
  unfold showIntents; simp only [set_touch, ok_MMP_STATUS_WI_OUT, Touch.refl, Nat.reduceOr]

theorem answerOne_touch {μ : Nat} {o s : State} (code : Nat) (i : Nat × Nat × Nat) (h : Touch μ o s) (hm : 0x100000000000001004 ||| μ = μ := by decide) : Touch μ o (answerOne code s i) := by
  refine h.step hm ?_
  unfold answerOne; simp (maxDischargeDepth := 80) only [emit_touch, set_touch, bump_touch, ok_MMP_WI_STATS_MAX_WAIT, ok_MMP_WI_STATS_TORN, touch_mk, Touch.refl, ite_touch, Nat.reduceOr, true_or, or_true, emit_touch]

theorem answerPage_touch {μ : Nat} {o s : State} (page code : Nat) (h : Touch μ o s) (hm : 0x100000000000001004 ||| μ = μ := by decide) : Touch μ o (answerPage page code s) := by
  refine h.step hm ?_
  unfold answerPage; simp (maxDischargeDepth := 80) only [showIntents_touch, answerOne_touch, implies_true, Touch.refl, foldl_touch, Nat.reduceOr]

theorem answerAll_touch {μ : Nat} {o s : State} (code : Nat) (h : Touch μ o s) (hm : 0x100000000000001004 ||| μ = μ := by decide) : Touch μ o (answerAll code s) := by
  refine h.step hm ?_
  unfold answerAll; simp (maxDischargeDepth := 80) only [showIntents_touch, answerOne_touch, implies_true, Touch.refl, foldl_touch, Nat.reduceOr]

theorem stopSnap_touch {μ : Nat} {o s : State} (code : Nat) (p : CurSnap) (h : Touch μ o s) (hm : 0x100000000000081004 ||| μ = μ := by decide) : Touch μ o (stopSnap code p s) := by
  refine h.step hm ?_
  unfold stopSnap; repeat' first | (simp (maxDischargeDepth := 80) only [memCancel_touch, ok_MMP_STATUS_WI_ARM, Touch.refl, Nat.reduceOr]; done) | with_reducible (refine ite_touch ?_ ?_) | with_reducible (refine foldl_touch (fun _ _ => ?_) ?_) | split | (dsimp only; with_reducible (refine ite_touch ?_ ?_)) | (dsimp only; split) | ((try dsimp only); first | with_reducible (apply memCancel_touch) | with_reducible (apply set_touch) | with_reducible (apply answerAll_touch) | with_reducible (apply touch_mk))

theorem endSnap_touch {μ : Nat} {o s : State} (outcome detail : Nat) (p : CurSnap) (h : Touch μ o s) (hm : 0x71200000000004100000480 ||| μ = μ := by decide) : Touch μ o (endSnap outcome detail p s) := by
  refine h.step hm ?_
  unfold endSnap; simp (maxDischargeDepth := 80) only [curEnter_touch, showStart_touch, setCur_touch, curOut_touch, Touch.refl, Nat.reduceOr]

theorem snapFinish_touch {μ : Nat} {o s : State} (p : CurSnap) (h : Touch μ o s) (hm : 0x71200000000004100000480 ||| μ = μ := by decide) : Touch μ o (snapFinish p s) := by
  refine h.step hm ?_
  unfold snapFinish; simp (maxDischargeDepth := 80) only [flag_touch, endSnap_touch, note_touch, wr_touch, ok_CUR_ERR_DEST_FAIL, ok_CUR_LAST_INFO_VALID, ok_CUR_LAST_ID_ID, Touch.refl, ite_touch, Nat.reduceOr, wr_touch]

theorem snapEnd_touch {μ : Nat} {o s : State} (outcome : Nat) (p : CurSnap) (h : Touch μ o s) (hm : 0x71200100000004100081484 ||| μ = μ := by decide) : Touch μ o (snapEnd outcome p s) := by
  refine h.step hm ?_
  unfold snapEnd; simp only [endSnap_touch, stopSnap_touch, Touch.refl, Nat.reduceOr]

theorem snapFail_touch {μ : Nat} {o s : State} (p : CurSnap) (h : Touch μ o s) (hm : 0x71200100000004100081484 ||| μ = μ := by decide) : Touch μ o (snapFail p s) := by
  refine h.step hm ?_
  unfold snapFail; simp only [snapEnd_touch, note_touch, Touch.refl, Nat.reduceOr]

theorem sendCkpt_touch {μ : Nat} {o s : State} (lvl idx : Nat) (restore : Bool) (b : List Byte) (h : Touch μ o s) (hm : 0x610080000000040000a0480 ||| μ = μ := by decide) : Touch μ o (sendCkpt lvl idx restore b s) := by
  refine h.step hm ?_
  unfold sendCkpt; simp only [sendPkt_touch, Touch.refl, Nat.reduceOr]

theorem ackTake_touch {μ : Nat} {o s : State} (slot col id status : Nat) (h : Touch μ o s) (hm : 0x71200000000004100000480 ||| μ = μ := by decide) : Touch μ o (ackTake slot col id status s) := by
  refine h.step hm ?_
  unfold ackTake; repeat' first | (simp (maxDischargeDepth := 80) only [set_touch, setSnap_touch, flag_touch, snapFinish_touch, ok_CUR_STATUS_ACKS, ok_CUR_ERR_DEST_FAIL, Touch.refl, ite_touch, Nat.reduceOr]; done) | split

theorem sendAck_touch {μ : Nat} {o s : State} (lvl idx slot col id origin status : Nat) (h : Touch μ o s) (hm : 0x712080000000041000a0480 ||| μ = μ := by decide) : Touch μ o (sendAck lvl idx slot col id origin status s) := by
  refine h.step hm ?_
  unfold sendAck; simp only [ackTake_touch, sendCkpt_touch, Touch.refl, ite_touch, Nat.reduceOr]

theorem putCurRx_touch {μ : Nat} {o s : State} (r : CurRx) (h : Touch μ o s) (hm : 0x100000000 ||| μ = μ := by decide) : Touch μ o (putCurRx r s) := by
  refine h.step hm ?_
  unfold putCurRx; simp only [setCur_touch, Touch.refl, Nat.reduceOr]

theorem discardCkpt_touch {μ : Nat} {o s : State} (origin status : Nat) (h : Touch μ o s) (hm : 0x61200000000004000000480 ||| μ = μ := by decide) : Touch μ o (discardCkpt origin status s) := by
  refine h.step hm ?_
  unfold discardCkpt; simp only [report_touch, ok_CUR_ERR_RX_DISCARD, Touch.refl, Nat.reduceOr]

theorem rxMem_touch {μ : Nat} {o s : State} (addr : Nat) (b : List Byte) (h : Touch μ o s) (hm : 0x1000 ||| μ = μ := by decide) : Touch μ o (rxMem addr b s) := by
  refine h.step hm ?_
  unfold rxMem; simp only [memRequest_touch, Touch.refl, Nat.reduceOr]

theorem rxFor_touch {μ : Nat} {o s : State} (e k id col src lvl : Nat) (h : Touch μ o s) (hm : 0x81000 ||| μ = μ := by decide) : Touch μ o (rxFor e k id col src lvl s).2 := by
  refine h.step hm ?_
  unfold rxFor; repeat' first | (simp (maxDischargeDepth := 80) only [memCancel_touch, rxMem_touch, implies_true, Touch.refl, foldl_touch, Nat.reduceOr]; done) | with_reducible (refine ite_touch ?_ ?_) | with_reducible (refine foldl_touch (fun _ _ => ?_) ?_) | split | (dsimp only; with_reducible (refine ite_touch ?_ ?_)) | (dsimp only; split)

theorem keepCol_touch {μ : Nat} {o s : State} (e k col : Nat) (h : Touch μ o s) (hm : 0x100000000 ||| μ = μ := by decide) : Touch μ o (keepCol e k col s) := by
  refine h.step hm ?_
  unfold keepCol; simp only [setCur_touch, Touch.refl, Nat.reduceOr]

theorem refuseData_touch {μ : Nat} {o s : State} (origin slot id status : Nat) (h : Touch μ o s) (hm : 0x61200000000004100000480 ||| μ = μ := by decide) : Touch μ o (refuseData origin slot id status s) := by
  refine h.step hm ?_
  unfold refuseData; simp only [discardCkpt_touch, setCur_touch, Touch.refl, Nat.reduceOr]

theorem rxData_touch {μ : Nat} {o s : State} (src lvl : Nat) (b : List Byte) (h : Touch μ o s) (hm : 0x61200000000004100081480 ||| μ = μ := by decide) : Touch μ o (rxData src lvl b s) := by
  refine h.step hm ?_
  unfold rxData; repeat' first | (simp (maxDischargeDepth := 80) only [refuseData_touch, rxFor_touch, keepCol_touch, putCurRx_touch, rxMem_touch, Touch.refl, ite_touch, Nat.reduceOr]; done) | with_reducible (refine ite_touch ?_ ?_) | with_reducible (refine foldl_touch (fun _ _ => ?_) ?_) | split | (dsimp only; with_reducible (refine ite_touch ?_ ?_)) | (dsimp only; split) | ((try dsimp only); first | with_reducible (apply refuseData_touch) | with_reducible (apply rxFor_touch) | with_reducible (apply keepCol_touch) | with_reducible (apply putCurRx_touch) | with_reducible (apply rxMem_touch) | with_reducible (apply touch_mk))

theorem rxCommit_touch {μ : Nat} {o s : State} (src lvl : Nat) (b : List Byte) (h : Touch μ o s) (hm : 0x712080000000041000a1480 ||| μ = μ := by decide) : Touch μ o (rxCommit src lvl b s) := by
  refine h.step hm ?_
  unfold rxCommit; repeat' first | (simp (maxDischargeDepth := 80) only [sendAck_touch, setCur_touch, discardCkpt_touch, rxFor_touch, rxMem_touch, keepCol_touch, putCurRx_touch, Touch.refl, ite_touch, Nat.reduceOr]; done) | with_reducible (refine ite_touch ?_ ?_) | with_reducible (refine foldl_touch (fun _ _ => ?_) ?_) | split | (dsimp only; with_reducible (refine ite_touch ?_ ?_)) | (dsimp only; split) | ((try dsimp only); first | with_reducible (apply sendAck_touch) | with_reducible (apply setCur_touch) | with_reducible (apply discardCkpt_touch) | with_reducible (apply rxFor_touch) | with_reducible (apply rxMem_touch) | with_reducible (apply keepCol_touch) | with_reducible (apply putCurRx_touch) | with_reducible (apply touch_mk))

theorem rxJudge_touch {μ : Nat} {o s : State} (r : CurRx) (n : Nat) (h : Touch μ o s) (hm : 0x712080000000041000a1480 ||| μ = μ := by decide) : Touch μ o (rxJudge r n s) := by
  refine h.step hm ?_
  unfold rxJudge; simp (maxDischargeDepth := 80) only [putCurRx_touch, rxMem_touch, sendAck_touch, Touch.refl, ite_touch, Nat.reduceOr]

theorem rxStep_touch {μ : Nat} {o s : State} (r0 : CurRx) (h : Touch μ o s) (hm : 0x712080000000041000a1480 ||| μ = μ := by decide) : Touch μ o (rxStep s r0) := by
  refine h.step hm ?_
  unfold rxStep; repeat' first | (simp (maxDischargeDepth := 80) only [memForget_touch, putCurRx_touch, rxMem_touch, sendAck_touch, rxJudge_touch, implies_true, Touch.refl, foldl_touch, ite_touch, Nat.reduceOr]; done) | with_reducible (refine ite_touch ?_ ?_) | with_reducible (refine foldl_touch (fun _ _ => ?_) ?_) | split | (dsimp only; with_reducible (refine ite_touch ?_ ?_)) | (dsimp only; split)

theorem toColumn_touch {μ : Nat} {o s : State} (p : CurSnap) (kind col flags stripe : Nat) (f : Nat × List Byte) (h : Touch μ o s) (hm : 0x712080000000041000a1480 ||| μ = μ := by decide) : Touch μ o (toColumn p kind col flags stripe s f) := by
  refine h.step hm ?_
  unfold toColumn; split <;> simp only [rxData_touch, rxCommit_touch, sendCkpt_touch, Touch.refl, ite_touch, Nat.reduceOr]

theorem tryCommit_touch {μ : Nat} {o s : State} (h : Touch μ o s) (hm : 0x712080000000041000a1480 ||| μ = μ := by decide) : Touch μ o (tryCommit s) := by
  refine h.step hm ?_
  unfold tryCommit; repeat' first | (simp (maxDischargeDepth := 80) only [toColumn_touch, setSnap_touch, implies_true, Touch.refl, foldl_touch, ite_touch, Nat.reduceOr]; done) | split

theorem stripeSend_touch {μ : Nat} {o s : State} (h : Touch μ o s) (hm : 0x712081000000041000a1484 ||| μ = μ := by decide) : Touch μ o (stripeSend s) := by
  refine h.step hm ?_
  unfold stripeSend; repeat' first | (simp (maxDischargeDepth := 80) only [snapFail_touch, memForget_touch, setSnap_touch, tryCommit_touch, toColumn_touch, implies_true, Touch.refl, foldl_touch, Nat.reduceOr]; done) | with_reducible (refine ite_touch ?_ ?_) | with_reducible (refine foldl_touch (fun _ _ => ?_) ?_) | split | (dsimp only; with_reducible (refine ite_touch ?_ ?_)) | (dsimp only; split) | ((try dsimp only); first | with_reducible (apply snapFail_touch) | with_reducible (apply memForget_touch) | with_reducible (apply setSnap_touch) | with_reducible (apply tryCommit_touch) | with_reducible (apply toColumn_touch) | with_reducible (apply touch_mk))

theorem parityPost_touch {μ : Nat} {o s : State} (n : Nat) (h : Touch μ o s) (hm : 0x100001000 ||| μ = μ := by decide) : Touch μ o (parityPost n s).1 := by
  refine h.step hm ?_
  unfold parityPost; repeat' first | (simp (maxDischargeDepth := 80) only [memRequest_touch, setSnap_touch, Touch.refl, Nat.reduceOr]; done) | with_reducible (refine ite_touch ?_ ?_) | with_reducible (refine foldl_touch (fun _ _ => ?_) ?_) | split | (dsimp only; with_reducible (refine ite_touch ?_ ?_)) | (dsimp only; split)

theorem granCopied_touch {μ : Nat} {o s : State} (g page : Nat) (b : List Byte) (p : CurSnap) (h : Touch μ o s) (hm : 0x200100000000100001004 ||| μ = μ := by decide) : Touch μ o (granCopied g page b p s) := by
  refine h.step hm ?_
  unfold granCopied; simp (maxDischargeDepth := 80) only [answerPage_touch, set_touch, setSnap_touch, ok_CUR_FRONTIER_OFFSET, Touch.refl, Nat.reduceOr]

theorem copyEnd_touch {μ : Nat} {o s : State} (p : CurSnap) (h : Touch μ o s) (hm : 0x712081000000041000a1480 ||| μ = μ := by decide) : Touch μ o (copyEnd p s) := by
  refine h.step hm ?_
  unfold copyEnd; simp (maxDischargeDepth := 80) only [tryCommit_touch, curEnter_touch, set_touch, ok_MMP_STATUS_WI_ARM, Touch.refl, ite_touch, Nat.reduceOr]

theorem copyNext_touch {μ : Nat} {o s : State} (n : Nat) (h : Touch μ o s) (hm : 0x712081000000041000a1484 ||| μ = μ := by decide) : Touch μ o (copyNext n s) := by
  have aux {o s : State} (n : Nat) (h : Touch 0x712081000000041000a1484 o s) : Touch 0x712081000000041000a1484 o (copyNext n s) := by
    induction n generalizing s with
    | zero => exact h
    | succ n ih =>
      unfold copyNext
      dsimp only
      repeat' first | exact h | exact copyEnd_touch _ h | exact ih (granCopied_touch _ _ _ _ h) | exact memRequest_touch _ _ _ _ _ _ _ (setSnap_touch _ h) | split
  exact h.step hm (aux _ (Touch.refl 0x712081000000041000a1484 _))

theorem copyRun_touch {μ : Nat} {o s : State} (h : Touch μ o s) (hm : 0x712081000000041000a1484 ||| μ = μ := by decide) : Touch μ o (copyRun s) := by
  refine h.step hm ?_
  unfold copyRun; simp only [copyNext_touch, Touch.refl, Nat.reduceOr]

theorem earlyStart_touch {μ : Nat} {o s : State} (i : Nat × Nat × Nat) (h : Touch μ o s) (hm : 0x100001000 ||| μ = μ := by decide) : Touch μ o (earlyStart s i) := by
  refine h.step hm ?_
  unfold earlyStart; repeat' first | (simp (maxDischargeDepth := 80) only [memRequest_touch, setSnap_touch, Touch.refl, ite_touch, Nat.reduceOr]; done) | split

theorem earlyFill_touch {μ : Nat} {o s : State} (h : Touch μ o s) (hm : 0x100001000 ||| μ = μ := by decide) : Touch μ o (earlyFill s) := by
  refine h.step hm ?_
  unfold earlyFill; simp only [earlyStart_touch, implies_true, Touch.refl, foldl_touch, Nat.reduceOr]

theorem writeIntent_touch {μ : Nat} {o s : State} (page tag : Nat) (h : Touch μ o s) (hm : 0x61000100000004100001484 ||| μ = μ := by decide) : Touch μ o (writeIntent page tag s) := by
  refine h.step hm ?_
  unfold writeIntent; repeat' first | (simp (maxDischargeDepth := 80) only [emit_touch, bump_touch, report_touch, earlyFill_touch, showIntents_touch, ok_MMP_WI_STATS_TORN, ok_MMP_ERR_WI_PROTO, touch_mk, Touch.refl, ite_touch, Nat.reduceOr, true_or, or_true, emit_touch]; done) | split

theorem intentStall_touch {μ : Nat} {o s : State} (tag : Nat) (h : Touch μ o s) (hm : 0x712081000000041000b1484 ||| μ = μ := by decide) : Touch μ o (intentStall tag s) := by
  refine h.step hm ?_
  unfold intentStall; repeat' first | (simp (maxDischargeDepth := 80) only [reachBase_touch, snapEnd_touch, note_touch, flag_touch, memCancel_touch, ok_CUR_ERR_TOO_TORN, ok_CUR_STATUS_TORN_COUNT, Touch.refl, Nat.reduceOr]; done) | with_reducible (refine ite_touch ?_ ?_) | with_reducible (refine foldl_touch (fun _ _ => ?_) ?_) | split | (dsimp only; with_reducible (refine ite_touch ?_ ?_)) | (dsimp only; split) | ((try dsimp only); first | with_reducible (apply reachBase_touch) | with_reducible (apply snapEnd_touch) | with_reducible (apply note_touch) | with_reducible (apply flag_touch) | with_reducible (apply memCancel_touch) | with_reducible (apply copyRun_touch) | with_reducible (apply earlyFill_touch) | with_reducible (apply record_touch) | with_reducible (apply answerPage_touch) | with_reducible (apply set_touch) | with_reducible (apply setSnap_touch) | with_reducible (apply touch_mk))

theorem earlyEnds_touch {μ : Nat} {o s : State} (e : Nat × Nat × Option Nat × Bool) (h : Touch μ o s) (hm : 0x71200100000004100081484 ||| μ = μ := by decide) : Touch μ o (earlyEnds s e) := by
  refine h.step hm ?_
  unfold earlyEnds; repeat' first | (simp (maxDischargeDepth := 80) only [snapFail_touch, memForget_touch, setSnap_touch, answerPage_touch, memRequest_touch, Touch.refl, Nat.reduceOr]; done) | split

theorem sealNext_touch {μ : Nat} {o s : State} (g : Nat) (p : CurSnap) (h : Touch μ o s) (hm : 0x712080000000041000a1480 ||| μ = μ := by decide) : Touch μ o (sealNext g p s) := by
  refine h.step hm ?_
  unfold sealNext; repeat' first | (simp (maxDischargeDepth := 80) only [memRequest_touch, setSnap_touch, tryCommit_touch, curPost_touch, curEnter_touch, Touch.refl, Nat.reduceOr]; done) | with_reducible (refine ite_touch ?_ ?_) | with_reducible (refine foldl_touch (fun _ _ => ?_) ?_) | split | (dsimp only; with_reducible (refine ite_touch ?_ ?_)) | (dsimp only; split)

theorem copyEnds_touch {μ : Nat} {o s : State} (h : Touch μ o s) (hm : 0x712081000000041000a1484 ||| μ = μ := by decide) : Touch μ o (copyEnds s) := by
  refine h.step hm ?_
  unfold copyEnds; repeat' first | (simp only [snapFail_touch, memForget_touch, sealNext_touch, granCopied_touch, Touch.refl, Nat.reduceOr]; done) | split

theorem granuleCopied_touch {μ : Nat} {o s : State} (h : Touch μ o s) (hm : 0x712081000000041000a1484 ||| μ = μ := by decide) : Touch μ o (granuleCopied s) := by
  refine h.step hm ?_
  unfold granuleCopied; repeat' first | (simp (maxDischargeDepth := 80) only [earlyEnds_touch, earlyFill_touch, copyRun_touch, copyEnds_touch, implies_true, Touch.refl, foldl_touch, Nat.reduceOr]; done) | split

theorem sweep_touch {μ : Nat} {o s : State} (h : Touch μ o s) (hm : 0x1000 ||| μ = μ := by decide) : Touch μ o (sweep s) := by
  refine h.step hm ?_
  unfold sweep; simp only [touch_mk, Touch.refl, Nat.reduceOr, true_or, or_true]

theorem endRest_touch {μ : Nat} {o s : State} (outcome detail : Nat) (r : CurRest) (h : Touch μ o s) (hm : 0x71200000000004100001480 ||| μ = μ := by decide) : Touch μ o (endRest outcome detail r s) := by
  refine h.step hm ?_
  unfold endRest; simp (maxDischargeDepth := 80) only [sweep_touch, curEnter_touch, setCur_touch, curOut_touch, Touch.refl, Nat.reduceOr]

theorem streamPut_touch {μ : Nat} {o s : State} (g off : Nat) (b : List Byte) (h : Touch μ o s) (hm : 0x61010000000004008201480 ||| μ = μ := by decide) : Touch μ o (streamPut g off b s) := by
  refine h.step hm ?_
  unfold streamPut; repeat' first | (simp only [partWrite_touch, memRequest_touch, sweep_touch, Touch.refl, Nat.reduceOr]; done) | split

theorem streamWrite_touch {μ : Nat} {o s : State} (off : Nat) (b : List Byte) (n : Nat) (h : Touch μ o s) (hm : 0x61010000000004008201480 ||| μ = μ := by decide) : Touch μ o (streamWrite off b n s) := by
  have aux {o s : State} (off : Nat) (b : List Byte) (n : Nat) (h : Touch 0x61010000000004008201480 o s) : Touch 0x61010000000004008201480 o (streamWrite off b n s) := by
    induction n generalizing s off b with
    | zero => exact h
    | succ n ih =>
      unfold streamWrite
      repeat' first | exact h | exact ih _ _ (streamPut_touch _ _ _ h) | split
  exact h.step hm (aux _ _ _ (Touch.refl 0x61010000000004008201480 _))

theorem shardWrite_touch {μ : Nat} {o s : State} (r : List Byte) (stripe col off : Nat) (b : List Byte) (h : Touch μ o s) (hm : 0x61010000000004008201480 ||| μ = μ := by decide) : Touch μ o (shardWrite r stripe col off b s) := by
  refine h.step hm ?_
  unfold shardWrite; split <;> simp only [streamWrite_touch, memRequest_touch, sweep_touch, Touch.refl, Nat.reduceOr]

theorem restStripe_touch {μ : Nat} {o s : State} {c : CurRest} {r : List Byte} {n m : Nat} {t : State} {x : List (Nat × List Byte)} (h : Touch μ o s) (e : restStripe c r n s = some (t, m, x)) (hm : 0x61010000000004008201480 ||| μ = μ := by decide) : Touch μ o t := by
  have aux {o s : State} {c : CurRest} {r : List Byte} {n m : Nat} {t : State} {x : List (Nat × List Byte)} (h : Touch 0x61010000000004008201480 o s) (e : restStripe c r n s = some (t, m, x)) : Touch 0x61010000000004008201480 o t := by
    unfold restStripe at e
    dsimp only at e
    split at e
    · cases e
    · split at e
      · cases e
      · replace e := congrArg (fun z => z.map Prod.fst) e
        simp only [Option.map_some, Option.some.injEq] at e
        subst e
        exact foldl_touch (fun t _ => note_touch _ _ _ (Touch.refl _ t)) (foldl_touch (fun t _ => shardWrite_touch _ _ _ _ _ (Touch.refl _ t)) h)
  exact h.step hm (aux (Touch.refl 0x61010000000004008201480 _) e)

theorem restStripes_touch (c : CurRest) (r : List Byte) (l : List Nat) {o : State} : ∀ (a : State × Nat × List Byte), Touch 0x71210000000004108201480 o a.1 →
    (∀ x, restStripes c r l a = .error x → Touch 0x71210000000004108201480 o x.1) ∧ ∀ x, restStripes c r l a = .ok x → Touch 0x71210000000004108201480 o x.1 := by
  induction l with
  | nil => intro a h; exact ⟨fun x e => (by cases e), fun x e => (by cases e; exact h)⟩
  | cons n t ih =>
    rintro ⟨s, m, st⟩ h
    unfold restStripes
    split
    · exact ⟨fun x e => (by cases e; exact h), fun x e => (by cases e)⟩
    · next hs => exact ih _ (restStripe_touch h hs)

theorem restFinish_touch {μ : Nat} {o s : State} (c : CurRest) (h : Touch μ o s) (hm : 0x71210000000004108201480 ||| μ = μ := by decide) : Touch μ o (restFinish c s) := by
  have aux {o s : State} (c : CurRest) (h : Touch 0x71210000000004108201480 o s) : Touch 0x71210000000004108201480 o (restFinish c s) := by
    unfold restFinish
    dsimp only
    split
    · exact endRest_touch _ _ _ (report_touch _ _ _ _ h (ok_CUR_ERR_UNRECOVERABLE (by decide)))
    · next r _ =>
      have k := restStripes_touch c r (List.range (recStripes r)) (s, 0, []) h
      split
      · next e => exact endRest_touch _ _ _ (report_touch _ _ _ _ (k.1 _ e) (ok_CUR_ERR_UNRECOVERABLE (by decide)))
      · next e => exact endRest_touch _ _ _ (note_touch _ _ _ (foldl_touch (fun t _ => streamPut_touch _ _ _ (Touch.refl _ t)) (k.2 _ e)))
  exact h.step hm (aux _ (Touch.refl 0x71210000000004108201480 _))

theorem restTake_touch {μ : Nat} {o s : State} (b : List Byte) (h : Touch μ o s) (hm : 0x71210000000004108201480 ||| μ = μ := by decide) : Touch μ o (restTake b s) := by
  refine h.step hm ?_
  unfold restTake; repeat' first | (simp (maxDischargeDepth := 80) only [discardCkpt_touch, setCur_touch, endRest_touch, shardWrite_touch, restFinish_touch, implies_true, Touch.refl, foldl_touch, ite_touch, Nat.reduceOr]; done) | with_reducible (refine ite_touch ?_ ?_) | with_reducible (refine foldl_touch (fun _ _ => ?_) ?_) | split | (dsimp only; with_reducible (refine ite_touch ?_ ?_)) | (dsimp only; split)

theorem takeCkpt_touch {μ : Nat} {o s : State} {f : Nat → Bool → Bool} {p : Pkt} {t : State} (h : Touch μ o s) (e : takeCkpt f s = some (p, t)) (hm : 0x2000 ||| μ = μ := by decide) : Touch μ o t := by
  have aux {o s : State} {f : Nat → Bool → Bool} {p : Pkt} {t : State} (h : Touch 0x2000 o s) (e : takeCkpt f s = some (p, t)) : Touch 0x2000 o t := by
    unfold takeCkpt at e
    repeat' first | (cases e; done) | (cases e; exact (by first | exact h | simp only [touch_mk, h, Nat.reduceOr, true_or, or_true])) | split at e
  exact h.step hm (aux (Touch.refl 0x2000 _) e)

theorem sendEnd_touch {μ : Nat} {o s : State} (d : CurSend) (h : Touch μ o s) (hm : 0x200000000000100081000 ||| μ = μ := by decide) : Touch μ o (sendEnd d s) := by
  refine h.step hm ?_
  unfold sendEnd; simp (maxDischargeDepth := 80) only [memCancel_touch, showStart_touch, curEnter_touch, set_touch, setCur_touch, ok_CUR_RX_SRC_LOCKED, Touch.refl, Nat.reduceOr]

theorem sendRestore_touch {μ : Nat} {o s : State} (d : CurSend) (kind flags stripe : Nat) (f : Nat × List Byte) (h : Touch μ o s) (hm : 0x712180000000041082a1480 ||| μ = μ := by decide) : Touch μ o (sendRestore d kind flags stripe s f) := by
  refine h.step hm ?_
  unfold sendRestore; simp only [restTake_touch, sendCkpt_touch, Touch.refl, ite_touch, Nat.reduceOr]

theorem sendShard_touch {μ : Nat} {o s : State} (n : Nat) (d : CurSend) (h : Touch μ o s) (hm : 0x200000000000100081000 ||| μ = μ := by decide) : Touch μ o (sendShard n d s) := by
  have aux {o s : State} (n : Nat) (d : CurSend) (h : Touch 0x200000000000100081000 o s) : Touch 0x200000000000100081000 o (sendShard n d s) := by
    induction n generalizing d with
    | zero => exact sendEnd_touch _ h
    | succ n ih =>
      unfold sendShard
      dsimp only
      split
      · exact sendEnd_touch _ h
      · split
        · exact ih _
        · exact memRequest_touch _ _ _ _ _ _ _ (setCur_touch _ h)
  exact h.step hm (aux _ _ (Touch.refl 0x200000000000100081000 _))

theorem sendProgress_touch {μ : Nat} {o s : State} (h : Touch μ o s) (hm : 0x712180000000041082a1480 ||| μ = μ := by decide) : Touch μ o (sendProgress s) := by
  refine h.step hm ?_
  unfold sendProgress; repeat' first | (simp (maxDischargeDepth := 80) only [memForget_touch, memRequest_touch, curPost_touch, curEnter_touch, set_touch, setCur_touch, sendEnd_touch, sendShard_touch, sendRestore_touch, ok_CUR_RX_SRC_LOCKED, implies_true, Touch.refl, foldl_touch, ite_touch, Nat.reduceOr]; done) | split

theorem armSnap_touch {μ : Nat} {o s : State} (seq : Nat) (h : Touch μ o s) (hm : 0x712081000000041000a1484 ||| μ = μ := by decide) : Touch μ o (armSnap seq s) := by
  refine h.step hm ?_
  unfold armSnap; simp (maxDischargeDepth := 80) only [set_touch, curEnter_touch, setSnap_touch, copyRun_touch, curPost_touch, note_touch, ok_CUR_FRONTIER_OFFSET, ok_CUR_STATUS_ACKS, ok_CUR_STATUS_TORN_COUNT, ok_CUR_NEXT_ID_NEXT_ID, ok_MMP_STATUS_WI_ARM, Touch.refl, Nat.reduceOr]

theorem curAbort_touch {μ : Nat} {o s : State} (h : Touch μ o s) (hm : 0x71200100000004100081484 ||| μ = μ := by decide) : Touch μ o (curAbort s) := by
  refine h.step hm ?_
  unfold curAbort; repeat' first | (simp (maxDischargeDepth := 80) only [snapEnd_touch, sendEnd_touch, endRest_touch, Touch.refl, Nat.reduceOr]; done) | with_reducible (refine ite_touch ?_ ?_) | with_reducible (refine foldl_touch (fun _ _ => ?_) ?_) | split | (dsimp only; with_reducible (refine ite_touch ?_ ?_)) | (dsimp only; split)

theorem sendStart_touch {μ : Nat} {o s : State} (seq : Nat) (h : Touch μ o s) (hm : 0x60200000000004100001400 ||| μ = μ := by decide) : Touch μ o (sendStart seq s) := by
  refine h.step hm ?_
  unfold sendStart; repeat' first | (simp (maxDischargeDepth := 80) only [curPost_touch, showStart_touch, memRequest_touch, setCur_touch, Touch.refl, Nat.reduceOr]; done) | with_reducible (refine ite_touch ?_ ?_) | with_reducible (refine foldl_touch (fun _ _ => ?_) ?_) | split | (dsimp only; with_reducible (refine ite_touch ?_ ?_)) | (dsimp only; split)

theorem curCommand_touch {μ : Nat} {o s : State} (h : Touch μ o s) (hm : 0x712081000000041000a1484 ||| μ = μ := by decide) : Touch μ o (curCommand s) := by
  refine h.step hm ?_
  unfold curCommand; repeat' first | (simp (maxDischargeDepth := 80) only [curPost_touch, armSnap_touch, showStart_touch, sealNext_touch, curEnter_touch, curAbort_touch, sendStart_touch, setCur_touch, undefinedField_touch, Touch.refl, ite_touch, Nat.reduceOr]; done) | with_reducible (refine ite_touch ?_ ?_) | with_reducible (refine foldl_touch (fun _ _ => ?_) ?_) | split

theorem curWrite_touch {μ : Nat} {o s : State} (a : Nat) (acc : Acc) (h : Touch μ o s) (ha : InPages μ a) (hm : 0x732081000000041000a1584 ||| μ = μ := by decide) : Touch μ o (curWrite a acc s) := by
  have e0 : 0x100000000000000000 ||| μ = μ := or_sub hm (by decide)
  have e1 : 0x8000000000000000000 ||| μ = μ := or_sub hm (by decide)
  have e2 : 0x200000000000000000000 ||| μ = μ := or_sub hm (by decide)
  have e3 : 0x1000000000000000000000 ||| μ = μ := or_sub hm (by decide)
  have e4 : 0x2000000000000000000000 ||| μ = μ := or_sub hm (by decide)
  have e5 : 0x10000000000000000000000 ||| μ = μ := or_sub hm (by decide)
  have e6 : 0x20000000000000000000000 ||| μ = μ := or_sub hm (by decide)
  have e7 : 0x40000000000000000000000 ||| μ = μ := or_sub hm (by decide)
  have e8 : 0x60200000000004100000400 ||| μ = μ := or_sub hm (by decide)
  have e9 : 0x61000000000004000000480 ||| μ = μ := or_sub hm (by decide)
  have e10 : 0x62000000000004000000500 ||| μ = μ := or_sub hm (by decide)
  have e11 : 0x63000000000004000000580 ||| μ = μ := or_sub hm (by decide)
  have e12 : 0x712081000000041000a1484 ||| μ = μ := or_sub hm (by decide)
  unfold curWrite; simp (maxDischargeDepth := 80) only [curOwed_touch, consume_touch, report_touch, perform_touch, curCommand_touch, set_touch, ok_CUR_ERR_CFG_WR, ok_CUR_SNAP_CMD_START, ite_touch, e2, e8, e9, e10, e11, e12, ha, h]

theorem snapCmd_touch {μ : Nat} {o s : State} (op : Nat) (acc : Acc) (h : Touch μ o s) (hm : 0x732081100000041000a15b4 ||| μ = μ := by decide) : Touch μ o (snapCmd op acc s) := by
  refine h.step hm ?_
  unfold snapCmd; repeat' first | (simp (maxDischargeDepth := 80) only [portWrite_touch, curWrite_touch, off_CUR_SNAP_CMD_START, implies_true, Touch.refl, Nat.reduceOr]; done) | with_reducible (refine ite_touch ?_ ?_) | with_reducible (refine foldl_touch (fun _ _ => ?_) ?_) | split | (dsimp only; with_reducible (refine ite_touch ?_ ?_)) | (dsimp only; split) | ((try dsimp only); first | with_reducible (apply portWrite_touch) | with_reducible (apply curWrite_touch) | with_reducible (apply touch_mk))

theorem curReset_touch {μ : Nat} {o s : State} (h : Touch μ o s) (hm : 0x100000000100081004 ||| μ = μ := by decide) : Touch μ o (curReset s) := by
  refine h.step hm ?_
  unfold curReset; repeat' first | (simp (maxDischargeDepth := 80) only [stopSnap_touch, setCur_touch, touch_mk, Touch.refl, Nat.reduceOr, true_or, or_true]; done) | split

theorem curLinkLost_touch {μ : Nat} {o s : State} (hostSide : Bool) (h : Touch μ o s) (hm : 0x71200100000004100081484 ||| μ = μ := by decide) : Touch μ o (curLinkLost hostSide s) := by
  refine h.step hm ?_
  unfold curLinkLost; repeat' first | (simp (maxDischargeDepth := 80) only [set_touch, showIntents_touch, answerAll_touch, snapEnd_touch, ok_MMP_STATUS_WI_ARM, touch_mk, Touch.refl, Nat.reduceOr, true_or, or_true]; done) | with_reducible (refine ite_touch ?_ ?_) | with_reducible (refine foldl_touch (fun _ _ => ?_) ?_) | split | (dsimp only; with_reducible (refine ite_touch ?_ ?_)) | (dsimp only; split)

/-! Compress. -/

theorem setCmp_touch {μ : Nat} {o s : State} (c : CmpSt) (h : Touch μ o s) (hm : 0x200000000 ||| μ = μ := by decide) : Touch μ o (setCmp c s) := by
  refine h.step hm ?_
  unfold setCmp; simp only [touch_mk, Touch.refl, Nat.reduceOr, true_or, or_true]

theorem showCmp_touch {μ : Nat} {o s : State} (h : Touch μ o s) (hm : 0x400000000000000000000 ||| μ = μ := by decide) : Touch μ o (showCmp s) := by
  refine h.step hm ?_
  unfold showCmp; simp (maxDischargeDepth := 80) only [set_touch, ok_CMP_STATUS_ENC_WLOG_MAX, ok_CMP_STATUS_ENC_B, ok_CMP_STATUS_DEC_BUSY, ok_CMP_STATUS_QUEUED, Touch.refl, Nat.reduceOr]

theorem cmpPost_touch {μ : Nat} {o s : State} (j : CmpJob) (status out used : Nat) (h : Touch μ o s) (hm : 0x71400000000004000000480 ||| μ = μ := by decide) : Touch μ o (cmpPost j status out used s) := by
  refine h.step hm ?_
  unfold cmpPost; simp (maxDischargeDepth := 80) only [wr_touch, syncEvent_touch, post_touch, ok_CMP_JOB_IN_IN_USED, ok_CMP_JOB_OUT_OUT_LEN, ok_CMP_JOB_RESULT_SEQ, Touch.refl, Nat.reduceOr, wr_touch]

theorem putCmpJob_touch {μ : Nat} {o s : State} (j : CmpJob) (h : Touch μ o s) (hm : 0x200000000 ||| μ = μ := by decide) : Touch μ o (putCmpJob j s) := by
  refine h.step hm ?_
  unfold putCmpJob; simp only [setCmp_touch, Touch.refl, Nat.reduceOr]

theorem cmpStart_touch {μ : Nat} {o s : State} (decode : Bool) (h : Touch μ o s) (hm : 0x200001000 ||| μ = μ := by decide) : Touch μ o (cmpStart decode s) := by
  refine h.step hm ?_
  unfold cmpStart; repeat' first | (simp only [putCmpJob_touch, memRequest_touch, Touch.refl, Nat.reduceOr]; done) | split

theorem cmpKick_touch {μ : Nat} {o s : State} (h : Touch μ o s) (hm : 0x400000000000200001000 ||| μ = μ := by decide) : Touch μ o (cmpKick s) := by
  refine h.step hm ?_
  unfold cmpKick; simp (maxDischargeDepth := 80) only [showCmp_touch, cmpStart_touch, Touch.refl, Nat.reduceOr]

theorem cmpGo_touch {μ : Nat} {o s : State} (i : Nat) (h : Touch μ o s) (hm : 0x71400000000004200001480 ||| μ = μ := by decide) : Touch μ o (cmpGo i s) := by
  refine h.step hm ?_
  unfold cmpGo; repeat' first | (simp (maxDischargeDepth := 80) only [flag_touch, cmpKick_touch, setCmp_touch, cmpPost_touch, ok_CMP_ERR_SLOT_BUSY, Touch.refl, Nat.reduceOr]; done) | with_reducible (refine ite_touch ?_ ?_) | with_reducible (refine foldl_touch (fun _ _ => ?_) ?_) | split | (dsimp only; with_reducible (refine ite_touch ?_ ?_)) | (dsimp only; split)

theorem cmpEnd_touch {μ : Nat} {o s : State} (j : CmpJob) (status : Nat) (h : Touch μ o s) (hm : 0x61400000000004200000480 ||| μ = μ := by decide) : Touch μ o (cmpEnd j status s) := by
  refine h.step hm ?_
  unfold cmpEnd; split <;> simp only [putCmpJob_touch, report_touch, ok_CMP_ERR_JOB_ERR, Touch.refl, Nat.reduceOr]

theorem cmpOutput_touch {μ : Nat} {o s : State} (j : CmpJob) (b : List Byte) (used : Nat) (last : Bool) (h : Touch μ o s) (hm : 0x61010000000004008201480 ||| μ = μ := by decide) : Touch μ o (cmpOutput j b used last s).2 := by
  refine h.step hm ?_
  unfold cmpOutput; repeat' first | (simp (maxDischargeDepth := 80) only [partWrite_touch, memRequest_touch, Touch.refl, ite_touch, Nat.reduceOr]; done) | with_reducible (refine ite_touch ?_ ?_) | with_reducible (refine foldl_touch (fun _ _ => ?_) ?_) | split | (dsimp only; with_reducible (refine ite_touch ?_ ?_)) | (dsimp only; split)

theorem cmpInput_touch {μ : Nat} {o s : State} {j j' : CmpJob} {t : State} (h : Touch μ o s) (e : cmpInput j s = some (j', t)) (hm : 0x61410000000004208201480 ||| μ = μ := by decide) : Touch μ o t := by
  have aux {o s : State} {j j' : CmpJob} {t : State} (h : Touch 0x61410000000004208201480 o s) (e : cmpInput j s = some (j', t)) : Touch 0x61410000000004208201480 o t := by
    unfold cmpInput at e
    split at e
    · cases e; exact h
    · split at e
      · cases e
      · dsimp only at e
        split at e
        · cases e; exact memForget_touch _ _ h
        · cases e; exact cmpEnd_touch _ _ (cmpOutput_touch _ _ _ _ (memForget_touch _ _ h))
    · cases e
  exact h.step hm (aux (Touch.refl 0x61410000000004208201480 _) e)

theorem cmpEcc_touch {μ : Nat} {o s : State} (j : CmpJob) (word : Nat) (h : Touch μ o s) (hm : 0x61410000000004208201480 ||| μ = μ := by decide) : Touch μ o (cmpEcc j word s) := by
  refine h.step hm ?_
  unfold cmpEcc; simp (maxDischargeDepth := 80) only [cmpOutput_touch, cmpEnd_touch, report_touch, ok_CMP_ERR_ECC, Touch.refl, Nat.reduceOr]

theorem encodeBlock_touch {μ : Nat} {o s : State} (ok : Bool) (ecc : Option Nat) (h : Touch μ o s) (hm : 0x61410000000004208201480 ||| μ = μ := by decide) : Touch μ o (encodeBlock ok ecc s) := by
  refine h.step hm ?_
  unfold encodeBlock; repeat' first | (rename_i heq; replace heq := cmpInput_touch (Touch.refl 0x61410000000004208201480 _) heq) | (simp (maxDischargeDepth := 80) only [cmpKick_touch, cmpEcc_touch, bump_touch, report_touch, cmpOutput_touch, cmpEnd_touch, putCmpJob_touch, ok_CMP_VFY_CNT_CHECKED, ok_CMP_ERR_VERIFY, ok_CMP_VFY_CNT_FALLBACK, Touch.refl, ite_touch, Nat.reduceOr, *]; done) | with_reducible (refine ite_touch ?_ ?_) | with_reducible (refine foldl_touch (fun _ _ => ?_) ?_) | split

theorem decodeEnd_touch {μ : Nat} {o s : State} (j : CmpJob) (status : Nat) (h : Touch μ o s) (hm : 0x61410000000004208201480 ||| μ = μ := by decide) : Touch μ o (decodeEnd j status s) := by
  refine h.step hm ?_
  unfold decodeEnd; split <;> simp only [cmpEnd_touch, cmpOutput_touch, Touch.refl, Nat.reduceOr]

theorem decodeGo_touch {μ : Nat} {o s : State} (n : Nat) (j : CmpJob) (h : Touch μ o s) (hm : 0x61410000000004208201480 ||| μ = μ := by decide) : Touch μ o (decodeGo n j s) := by
  have aux {o s : State} (n : Nat) (j : CmpJob) (h : Touch 0x61410000000004208201480 o s) : Touch 0x61410000000004208201480 o (decodeGo n j s) := by
    induction n generalizing j with
    | zero => exact putCmpJob_touch _ h
    | succ n ih =>
      unfold decodeGo
      split
      · exact decodeEnd_touch _ _ h
      · exact decodeEnd_touch _ _ h
      · split
        · split
          · exact decodeEnd_touch _ _ h
          · exact ih _
        · exact ih _
      · next out used t _ =>
        split
        · exact decodeEnd_touch _ _ (report_touch _ _ _ _ h (ok_CMP_ERR_OVER_LIMIT (by decide)))
        · dsimp only
          have k := cmpOutput_touch { j with plan := some t } out used false h
          split
          · exact decodeEnd_touch _ _ k
          · exact putCmpJob_touch _ k
  exact h.step hm (aux _ _ (Touch.refl 0x61410000000004208201480 _))

theorem decodeBlock_touch {μ : Nat} {o s : State} (ecc : Option Nat) (h : Touch μ o s) (hm : 0x61410000000004208201480 ||| μ = μ := by decide) : Touch μ o (decodeBlock ecc s) := by
  refine h.step hm ?_
  unfold decodeBlock; repeat' first | (rename_i heq; replace heq := cmpInput_touch (Touch.refl 0x61410000000004208201480 _) heq) | (simp (maxDischargeDepth := 80) only [cmpKick_touch, cmpEcc_touch, decodeGo_touch, Touch.refl, Nat.reduceOr, *]; done) | with_reducible (refine ite_touch ?_ ?_) | with_reducible (refine foldl_touch (fun _ _ => ?_) ?_) | split

theorem cmpComplete_touch {μ : Nat} {o s : State} (slot : Nat) (h : Touch μ o s) (hm : 0x71400000000004200001480 ||| μ = μ := by decide) : Touch μ o (cmpComplete s slot) := by
  refine h.step hm ?_
  unfold cmpComplete; repeat' first | (simp (maxDischargeDepth := 80) only [memForget_touch, report_touch, cmpKick_touch, cmpPost_touch, setCmp_touch, ok_CMP_ERR_JOB_ERR, implies_true, Touch.refl, foldl_touch, ite_touch, Nat.reduceOr]; done) | split

theorem cmpReset_touch {μ : Nat} {o s : State} (h : Touch μ o s) (hm : 0x71400000000004200001480 ||| μ = μ := by decide) : Touch μ o (cmpReset s) := by
  refine h.step hm ?_
  unfold cmpReset; simp (maxDischargeDepth := 80) only [cmpPost_touch, note_touch, setCmp_touch, touch_mk, implies_true, Touch.refl, foldl_touch, Nat.reduceOr, true_or, or_true]

/-! Porter. -/

theorem setPrt_touch {μ : Nat} {o s : State} (p : PrtSt) (h : Touch μ o s) (hm : 0x400000000 ||| μ = μ := by decide) : Touch μ o (setPrt p s) := by
  refine h.step hm ?_
  unfold setPrt; simp only [touch_mk, Touch.refl, Nat.reduceOr, true_or, or_true]

theorem setPrtJob_touch {μ : Nat} {o s : State} (c : Nat) (j : PrtJob) (h : Touch μ o s) (hm : 0x400000000 ||| μ = μ := by decide) : Touch μ o (setPrtJob c j s) := by
  refine h.step hm ?_
  unfold setPrtJob; simp only [setPrt_touch, Touch.refl, Nat.reduceOr]

theorem showPrt_touch {μ : Nat} {o s : State} (c : Nat) (h : Touch μ o s) (hm : 0x400000000000000000000 ||| μ = μ := by decide) : Touch μ o (showPrt c s) := by
  refine h.step hm ?_
  unfold showPrt; simp (maxDischargeDepth := 80) only [setBit_touch, set_touch, ok_PRT_STATUS_BUSY, ok_PRT_CH_CTL_STATE, Touch.refl, Nat.reduceOr]

theorem prtDone_touch {μ : Nat} {o s : State} (c : Nat) (j : PrtJob) (h : Touch μ o s) (hm : 0x71400000000004400000480 ||| μ = μ := by decide) : Touch μ o (prtDone c j s) := by
  refine h.step hm ?_
  unfold prtDone; simp (maxDischargeDepth := 80) only [setPrt_touch, set_touch, bump_touch, raiseIrq_touch, report_touch, setBit_touch, syncEvent_touch, showPrt_touch, ok_PRT_CH_CTL_LAST_STATUS, ok_PRT_CH_TAIL_TAIL, ok_PRT_STATUS_DESCS, ok_CMP_ERR_PRT_DESC, ok_PRT_STATUS_HALTED, Touch.refl, ite_touch, Nat.reduceOr]

theorem prtWriteBack_touch {μ : Nat} {o s : State} (c : Nat) (j : PrtJob) (status : Nat) (h : Touch μ o s) (hm : 0x71400000000004400401480 ||| μ = μ := by decide) : Touch μ o (prtWriteBack c j status s) := by
  refine h.step hm ?_
  unfold prtWriteBack; split <;> simp only [setPrtJob_touch, memRequest_touch, prtDone_touch, fwPut_touch, Touch.refl, Nat.reduceOr]

theorem prtStore_touch {μ : Nat} {o s : State} (c : Nat) (j : PrtJob) (b : List Byte) (h : Touch μ o s) (hm : 0x61010000000004408601480 ||| μ = μ := by decide) : Touch μ o (prtStore c j b s) := by
  refine h.step hm ?_
  unfold prtStore; repeat' first | (simp (maxDischargeDepth := 80) only [setPrtJob_touch, memRequest_touch, partWrite_touch, fwPut_touch, Touch.refl, Nat.reduceOr]; done) | with_reducible (refine ite_touch ?_ ?_) | with_reducible (refine foldl_touch (fun _ _ => ?_) ?_) | split | (dsimp only; with_reducible (refine ite_touch ?_ ?_)) | (dsimp only; split)

theorem prtBegin_touch {μ : Nat} {o s : State} (c : Nat) (j : PrtJob) (ecc : Bool) (h : Touch μ o s) (hm : 0x71410000000004408601480 ||| μ = μ := by decide) : Touch μ o (prtBegin c j ecc s) := by
  refine h.step hm ?_
  unfold prtBegin; repeat' first | (simp (maxDischargeDepth := 80) only [prtStore_touch, setPrtJob_touch, memRequest_touch, prtWriteBack_touch, Touch.refl, Nat.reduceOr]; done) | with_reducible (refine ite_touch ?_ ?_) | with_reducible (refine foldl_touch (fun _ _ => ?_) ?_) | split | (dsimp only; with_reducible (refine ite_touch ?_ ?_)) | (dsimp only; split)

theorem prtStart_touch {μ : Nat} {o s : State} (c : Nat) (ecc : Bool) (h : Touch μ o s) (hm : 0x71410000000004408601480 ||| μ = μ := by decide) : Touch μ o (prtStart c ecc s) := by
  refine h.step hm ?_
  unfold prtStart; repeat' first | (simp (maxDischargeDepth := 80) only [memForget_touch, prtDone_touch, prtBegin_touch, showPrt_touch, setPrtJob_touch, memRequest_touch, Touch.refl, ite_touch, Nat.reduceOr]; done) | split

theorem prtRead_touch {μ : Nat} {o s : State} (c : Nat) (h : Touch μ o s) (hm : 0x71410000000004408601480 ||| μ = μ := by decide) : Touch μ o (prtRead s c) := by
  refine h.step hm ?_
  unfold prtRead; repeat' first | (simp only [memForget_touch, prtStore_touch, prtWriteBack_touch, Touch.refl, Nat.reduceOr]; done) | split

theorem memFollow_touch {μ : Nat} {o s : State} (h : Touch μ o s) (hm : 0x716180000000045086a1480 ||| μ = μ := by decide) : Touch μ o (memFollow s) := by
  refine h.step hm ?_
  unfold memFollow; simp only [prtRead_touch, sendProgress_touch, implies_true, Touch.refl, foldl_touch, Nat.reduceOr]

theorem prtFinish_touch {μ : Nat} {o s : State} (c : Nat) (h : Touch μ o s) (hm : 0x71400000000004400401480 ||| μ = μ := by decide) : Touch μ o (prtFinish c s) := by
  refine h.step hm ?_
  unfold prtFinish; repeat' first | (simp only [prtWriteBack_touch, memForget_touch, prtDone_touch, Touch.refl, Nat.reduceOr]; done) | split

theorem prtReset_touch {μ : Nat} {o s : State} (h : Touch μ o s) (hm : 0x61000000000004400001480 ||| μ = μ := by decide) : Touch μ o (prtReset s) := by
  refine h.step hm ?_
  unfold prtReset; simp (maxDischargeDepth := 80) only [note_touch, setPrt_touch, touch_mk, Touch.refl, Nat.reduceOr, true_or, or_true]

theorem prtWrite_touch {μ : Nat} {o s : State} (c reg : Nat) (acc : Acc) (h : Touch μ o s) (hm : 0x62400000000004000000500 ||| μ = μ := by decide) : Touch μ o (prtWrite c reg acc s) := by
  refine h.step hm ?_
  unfold prtWrite; repeat' first | (simp (maxDischargeDepth := 80) only [perform_touch, flag_touch, showPrt_touch, setBit_touch, ok_CMP_ERR_PRT_CFG, ok_PRT_STATUS_HALTED, ok_prt, Touch.refl, ite_touch, Nat.reduceOr]; done) | with_reducible (refine ite_touch ?_ ?_) | with_reducible (refine foldl_touch (fun _ _ => ?_) ?_) | split | (dsimp only; with_reducible (refine ite_touch ?_ ?_)) | (dsimp only; split) | ((try dsimp only); first | with_reducible (apply perform_touch) | with_reducible (apply flag_touch) | with_reducible (apply showPrt_touch) | with_reducible (apply setBit_touch) | with_reducible (apply touch_mk))

theorem cmpWrite_touch {μ : Nat} {o s : State} (a : Nat) (acc : Acc) (h : Touch μ o s) (ha : InPages μ a) (hm : 0x73400000000004200001580 ||| μ = μ := by decide) : Touch μ o (cmpWrite a acc s) := by
  have e0 : 0x400000000000000000000 ||| μ = μ := or_sub hm (by decide)
  have e1 : 0x400000000000200001000 ||| μ = μ := or_sub hm (by decide)
  have e2 : 0x1000000000000000000000 ||| μ = μ := or_sub hm (by decide)
  have e3 : 0x2000000000000000000000 ||| μ = μ := or_sub hm (by decide)
  have e4 : 0x10000000000000000000000 ||| μ = μ := or_sub hm (by decide)
  have e5 : 0x20000000000000000000000 ||| μ = μ := or_sub hm (by decide)
  have e6 : 0x40000000000000000000000 ||| μ = μ := or_sub hm (by decide)
  have e7 : 0x62000000000004000000500 ||| μ = μ := or_sub hm (by decide)
  have e8 : 0x62400000000004000000500 ||| μ = μ := or_sub hm (by decide)
  have e9 : 0x63000000000004000000580 ||| μ = μ := or_sub hm (by decide)
  have e10 : 0x71400000000004200001480 ||| μ = μ := or_sub hm (by decide)
  unfold cmpWrite; repeat' first | (simp (maxDischargeDepth := 80) only [consume_touch, perform_touch, cmpGo_touch, prtWrite_touch, cmpKick_touch, ite_touch, e1, e7, e8, e9, e10, ha, h]; done) | split

theorem cmpGoCmd_touch {μ : Nat} {o s : State} (decode : Bool) (i : Nat) (acc : Acc) (h : Touch μ o s) (hm : 0x734000100000042000015b0 ||| μ = μ := by decide) : Touch μ o (cmpGoCmd decode i acc s) := by
  refine h.step hm ?_
  unfold cmpGoCmd; repeat' first | (simp (maxDischargeDepth := 80) only [portWrite_touch, cmpWrite_touch, off_CMP_JOB_CTL_GO, implies_true, Touch.refl, ite_touch, Nat.reduceOr]; done) | with_reducible (refine ite_touch ?_ ?_) | with_reducible (refine foldl_touch (fun _ _ => ?_) ?_) | split | (dsimp only; with_reducible (refine ite_touch ?_ ?_)) | (dsimp only; split) | ((try dsimp only); first | with_reducible (apply portWrite_touch) | with_reducible (apply cmpWrite_touch) | with_reducible (apply touch_mk))

end Sys2Proof.Machine
end

