-- ==== Sys2Proof/Laws/TouchCheck.lean ====
section
/-!
SUPPORT. What quiesce, detectors, arrays, the verifier and the Command Window can change: one lemma for each operation.
-/
namespace Sys2Proof.Machine
set_option Elab.async false
set_option linter.unusedSimpArgs false
set_option linter.unusedTactic false
set_option linter.unreachableTactic false

/-! Health. -/

theorem setArr_touch {μ : Nat} {o s : State} (a : ArrSt) (h : Touch μ o s) (hm : 0x10000000 ||| μ = μ := by decide) : Touch μ o (setArr a s) := by
  refine h.step hm ?_
  unfold setArr; simp only [touch_mk, Touch.refl, Nat.reduceOr, true_or, or_true]

theorem setVer_touch {μ : Nat} {o s : State} (v : VerSt) (h : Touch μ o s) (hm : 0x20000000 ||| μ = μ := by decide) : Touch μ o (setVer v s) := by
  refine h.step hm ?_
  unfold setVer; simp only [touch_mk, Touch.refl, Nat.reduceOr, true_or, or_true]

theorem setFlt_touch {μ : Nat} {o s : State} (f : FltSt) (h : Touch μ o s) (hm : 0x40000000 ||| μ = μ := by decide) : Touch μ o (setFlt f s) := by
  refine h.step hm ?_
  unfold setFlt; simp only [touch_mk, Touch.refl, Nat.reduceOr, true_or, or_true]

theorem issueVerdict_touch {μ : Nat} {o s : State} (d n via : Nat) (pw : Option Nat) (b : List Byte) (h : Touch μ o s) (hm : 0x658080000000040020a1680 ||| μ = μ := by decide) : Touch μ o (issueVerdict d n via pw b s) := by
  refine h.step hm ?_
  unfold issueVerdict; simp (maxDischargeDepth := 80) only [storeVerdict_touch, confirmNote_touch, sendUp_touch, Touch.refl, ite_touch, Nat.reduceOr]

theorem verVerdict_touch {μ : Nat} {o s : State} (d n kind sev subjIdx subjLvl : Nat) (rest : List Byte) (h : Touch μ o s) (hm : 0x658080000000040020a1680 ||| μ = μ := by decide) : Touch μ o (verVerdict d n kind sev subjIdx subjLvl rest s) := by
  refine h.step hm ?_
  unfold verVerdict; split <;> simp only [issueVerdict_touch, raiseIrq_touch, Touch.refl, Nat.reduceOr]

theorem showCapacity_touch {μ : Nat} {o s : State} (h : Touch μ o s) (hm : 0x80000000000000000000 ||| μ = μ := by decide) : Touch μ o (showCapacity s) := by
  refine h.step hm ?_
  unfold showCapacity; repeat' first | (simp (maxDischargeDepth := 80) only [wr_touch, ok_VER_CAPACITY_LOCAL_PPM, ok_VER_RATES_LOCAL_RATE, Touch.refl, ite_touch, Nat.reduceOr, wr_touch]; done) | with_reducible (refine ite_touch ?_ ?_) | with_reducible (refine foldl_touch (fun _ _ => ?_) ?_) | split | (dsimp only; with_reducible (refine ite_touch ?_ ?_)) | (dsimp only; split) | ((try dsimp only); first | with_reducible (apply wr_touch) | with_reducible (apply touch_mk))

theorem showVer_touch {μ : Nat} {o s : State} (h : Touch μ o s) (hm : 0x80000000000000000000 ||| μ = μ := by decide) : Touch μ o (showVer s) := by
  refine h.step hm ?_
  unfold showVer; simp (maxDischargeDepth := 80) only [set_touch, ok_VER_STATUS_OBS_ACTIVE, ok_VER_STATUS_QUEUED, Touch.refl, ite_touch, Nat.reduceOr]

theorem showMarks_touch {μ : Nat} {o s : State} (a : Nat) (h : Touch μ o s) (hm : 0x100000000000000000000 ||| μ = μ := by decide) : Touch μ o (showMarks a s) := by
  refine h.step hm ?_
  unfold showMarks; simp only [set_touch, ok_FLT_ARR_MARKS, Touch.refl, Nat.reduceOr]

theorem mark_touch {μ : Nat} {o s : State} (a : Nat) (h : Touch μ o s) (hm : 0x100000000000040000000 ||| μ = μ := by decide) : Touch μ o (mark a s) := by
  refine h.step hm ?_
  unfold mark; simp (maxDischargeDepth := 80) only [showMarks_touch, set_touch, setFlt_touch, ok_FLT_ARR_LAST_MARK, Touch.refl, Nat.reduceOr]

theorem startSpare_touch {μ : Nat} {o s : State} (h : Touch μ o s) (hm : 0x60120000000004040000400 ||| μ = μ := by decide) : Touch μ o (startSpare s) := by
  refine h.step hm ?_
  unfold startSpare; repeat' first | (simp (maxDischargeDepth := 80) only [flag_touch, setFlt_touch, setBit_touch, ok_FLT_ERR_NO_SPARE, ok_ARR_SPARE_SPARE, Touch.refl, Nat.reduceOr]; done) | split

theorem retire_touch {μ : Nat} {o s : State} (a : Nat) (h : Touch μ o s) (hm : 0x659a80000000040420a1680 ||| μ = μ := by decide) : Touch μ o (retire a s) := by
  refine h.step hm ?_
  unfold retire; repeat' first | (simp (maxDischargeDepth := 80) only [setBit_touch, startSpare_touch, verVerdict_touch, showCapacity_touch, report_touch, prod_touch, ok_ARR_RETIRED_RETIRED, ok_ARR_AVAIL_AVAIL, ok_FLT_ERR_RETIRED, Touch.refl, Nat.reduceOr]; done) | split

theorem retireCheck_touch {μ : Nat} {o s : State} (h : Touch μ o s) (hm : 0x659a80000000040420a1680 ||| μ = μ := by decide) : Touch μ o (retireCheck s) := by
  refine h.step hm ?_
  unfold retireCheck; simp only [retire_touch, implies_true, Touch.refl, foldl_touch, Nat.reduceOr]

theorem markExpire_touch {μ : Nat} {o s : State} (a : Nat) (h : Touch μ o s) (hm : 0x659a80000000040420b1680 ||| μ = μ := by decide) : Touch μ o (markExpire a s) := by
  refine h.step hm ?_
  unfold markExpire; repeat' first | (simp (maxDischargeDepth := 80) only [reachBase_touch, retireCheck_touch, showMarks_touch, setFlt_touch, Touch.refl, Nat.reduceOr]; done) | split

theorem residueHit_touch {μ : Nat} {o s : State} (a : Nat) (h : Touch μ o s) (hm : 0x120000000000040020000 ||| μ = μ := by decide) : Touch μ o (residueHit a s) := by
  refine h.step hm ?_
  unfold residueHit; simp (maxDischargeDepth := 80) only [mark_touch, bump_touch, prod_touch, ok_ARR_RES_RESIDUE, Touch.refl, Nat.reduceOr]

theorem residueError_touch {μ : Nat} {o s : State} (a user : Nat) (rerunOk : Bool) (h : Touch μ o s) (hm : 0x61120000000004040020480 ||| μ = μ := by decide) : Touch μ o (residueError a user rerunOk s) := by
  refine h.step hm ?_
  unfold residueError; simp (maxDischargeDepth := 80) only [residueHit_touch, report_touch, ok_ARR_ERR_RESIDUE, Touch.refl, ite_touch, Nat.reduceOr]

theorem eccError_touch {μ : Nat} {o s : State} (a word : Nat) (h : Touch μ o s) (hm : 0x61120000000004040000480 ||| μ = μ := by decide) : Touch μ o (eccError a word s) := by
  refine h.step hm ?_
  unfold eccError; simp (maxDischargeDepth := 80) only [report_touch, mark_touch, bump_touch, ok_ARR_ERR_ECC, ok_ARR_RES_UNCORR, Touch.refl, Nat.reduceOr]

/-! Apply. -/

theorem setItn_touch {μ : Nat} {o s : State} (i : ItnSt) (h : Touch μ o s) (hm : 0x800000 ||| μ = μ := by decide) : Touch μ o (setItn i s) := by
  refine h.step hm ?_
  unfold setItn; simp only [touch_mk, Touch.refl, Nat.reduceOr, true_or, or_true]

theorem noteLater_touch {μ : Nat} {o s : State} (code cls payload : Nat) (h : Touch μ o s) (hm : 0x61000000000004000800480 ||| μ = μ := by decide) : Touch μ o (noteLater code cls payload s) := by
  refine h.step hm ?_
  unfold noteLater; simp only [note_touch, setItn_touch, Touch.refl, ite_touch, Nat.reduceOr]

theorem applyStructure_touch {μ : Nat} {o s : State} (p : Nat) (b : List Byte) (h : Touch μ o s) (hm : 0x10000000000800000 ||| μ = μ := by decide) : Touch μ o (applyStructure p b s) := by
  refine h.step hm ?_
  unfold applyStructure; simp (maxDischargeDepth := 80) only [wr_touch, setItn_touch, ok_GLB_PERSONALITY_PERS, Touch.refl, Nat.reduceOr, wr_touch]

theorem applyClock_touch {μ : Nat} {o s : State} (b : List Byte) (h : Touch μ o s) (hm : 0x40000000000000040 ||| μ = μ := by decide) : Touch μ o (applyClock b s) := by
  refine h.step hm ?_
  unfold applyClock; simp (maxDischargeDepth := 80) only [set_touch, ok_CLK_MON_LIMIT, ok_CLK_STATUS_MON_EN, ok_CLK_STATUS_CCLK_DIV, touch_mk, Touch.refl, Nat.reduceOr, true_or, or_true]

theorem applyIdentity_touch {μ : Nat} {o s : State} (cfg : List (Nat × List Byte)) (h : Touch μ o s) (hm : 0x10000000000000000 ||| μ = μ := by decide) : Touch μ o (applyIdentity cfg s) := by
  refine h.step hm ?_
  unfold applyIdentity; split <;> simp only [wr_touch, ok_GLB_INSTANCE_POS_VALID, Touch.refl, Nat.reduceOr, wr_touch]

theorem xbarEntry_touch {μ : Nat} {o s : State} (b : List Byte) (h : Touch μ o s) (hm : 0x61001000000004000020480 ||| μ = μ := by decide) : Touch μ o (xbarEntry s b) := by
  refine h.step hm ?_
  unfold xbarEntry; simp (maxDischargeDepth := 80) only [report_touch, ok_TLY_ERR_XBAR_IGNORED, touch_mk, Touch.refl, ite_touch, Nat.reduceOr, true_or, or_true]

theorem applyXbar_touch {μ : Nat} {o s : State} (es : List (List Byte)) (h : Touch μ o s) (hm : 0x61001000000004000020480 ||| μ = μ := by decide) : Touch μ o (applyXbar es s) := by
  refine h.step hm ?_
  unfold applyXbar; simp only [xbarEntry_touch, touch_mk, implies_true, Touch.refl, foldl_touch, Nat.reduceOr, true_or, or_true]

theorem applyIrq_touch {μ : Nat} {o s : State} (es : List (List Byte)) (h : Touch μ o s) (hm : 0x60000000000004000000400 ||| μ = μ := by decide) : Touch μ o (applyIrq es s) := by
  refine h.step hm ?_
  unfold applyIrq; simp (maxDischargeDepth := 80) only [set_touch, groupUpdate_touch, ok_IRQ_SRC_CFG_GROUP, ok_IRQ_SRC_CFG_MAPPED, ok_IRQ_GRP_CTL_TARGET, ok_IRQ_GRP_CTL_TGT_KIND, implies_true, Touch.refl, foldl_touch, ite_touch, Nat.reduceOr]

theorem applyQueues_touch {μ : Nat} {o s : State} (es : List (List Byte)) (h : Touch μ o s) (hm : 0x8000000000000000000 ||| μ = μ := by decide) : Touch μ o (applyQueues es s) := by
  refine h.step hm ?_
  unfold applyQueues; simp (maxDischargeDepth := 80) only [wr_touch, ok_INK_Q_CFG_VALID, implies_true, Touch.refl, foldl_touch, Nat.reduceOr, wr_touch]

theorem applyShapers_touch {μ : Nat} {o s : State} (es : List (List Byte)) (h : Touch μ o s) (hm : 0x8000000000000000000 ||| μ = μ := by decide) : Touch μ o (applyShapers es s) := by
  refine h.step hm ?_
  unfold applyShapers; simp (maxDischargeDepth := 80) only [wr_touch, ok_INK_Q_SHAPE_RATE, ok_INK_Q_POLICE_POL_RATE, implies_true, Touch.refl, foldl_touch, ite_touch, Nat.reduceOr, wr_touch]

theorem applySigns_touch {μ : Nat} {o s : State} (p : Nat → Bool) (es : List (List Byte)) (h : Touch μ o s) (hm : 0x618080000000040021a1480 ||| μ = μ := by decide) : Touch μ o (applySigns p es s) := by
  refine h.step hm ?_
  unfold applySigns; simp (maxDischargeDepth := 80) only [setSign_touch, implies_true, Touch.refl, foldl_touch, Nat.reduceOr]

theorem applyRules_touch {μ : Nat} {o s : State} (p : Nat → Bool) (es : List (List Byte)) (h : Touch μ o s) (hm : 0x100000 ||| μ = μ := by decide) : Touch μ o (applyRules p es s) := by
  refine h.step hm ?_
  unfold applyRules; simp only [setCrv_touch, Touch.refl, Nat.reduceOr]

theorem applyInstance_touch {μ : Nat} {o s : State} (cfg : List (Nat × List Byte)) (t : Nat) (h : Touch μ o s) (hm : 0x61009000000004000020480 ||| μ = μ := by decide) : Touch μ o (applyInstance cfg t s) := by
  refine h.step hm ?_
  unfold applyInstance; split <;> simp only [applyXbar_touch, applyIrq_touch, applyQueues_touch, applyShapers_touch, Touch.refl, Nat.reduceOr]

theorem applyDomains_touch {μ : Nat} {o s : State} (cfg : List (Nat × List Byte)) (p : Nat → Bool) (t : Nat) (h : Touch μ o s) (hm : 0x618080000000040021a1480 ||| μ = μ := by decide) : Touch μ o (applyDomains cfg p t s) := by
  refine h.step hm ?_
  unfold applyDomains; split <;> simp only [applySigns_touch, applyRules_touch, Touch.refl, Nat.reduceOr]

theorem arrayMaps_touch {μ : Nat} {o s : State} (h : Touch μ o s) (hm : 0x20000000000000000000 ||| μ = μ := by decide) : Touch μ o (arrayMaps s) := by
  refine h.step hm ?_
  unfold arrayMaps; simp (maxDischargeDepth := 80) only [setBit_touch, ok_ARR_SPARE_SPARE, ok_ARR_AVAIL_AVAIL, implies_true, Touch.refl, foldl_touch, Nat.reduceOr]

theorem unitDefaults_touch {μ : Nat} {o s : State} (d : Nat) (h : Touch μ o s) (hm : 0x4b0700000000000000000 ||| μ = μ := by decide) : Touch μ o (unitDefaults d s) := by
  refine h.step hm ?_
  unfold unitDefaults; repeat' first | (simp (maxDischargeDepth := 80) only [arrayMaps_touch, set_touch, showVer_touch, showCapacity_touch, showCmp_touch, ok_TRE_CTL_ENG_EN, ok_VER_STATUS_STAGE_KIB, ok_VER_CTL_LOCAL_SHARE, ok_SEP_CTL_TC_EN, ok_SEP_CTL_PORT_EN, ok_FBP_CTL_LANE_EN, ok_MMP_CTL_CHANNELS, Touch.refl, ite_touch, Nat.reduceOr]; done) | with_reducible (refine ite_touch ?_ ?_) | with_reducible (refine foldl_touch (fun _ _ => ?_) ?_) | split

theorem reapply_touch {μ : Nat} {o s : State} (d : Nat) (h : Touch μ o s) (hm : 0x61cb97000000040021a1480 ||| μ = μ := by decide) : Touch μ o (reapply d s) := by
  refine h.step hm ?_
  unfold reapply; repeat' first | (simp (maxDischargeDepth := 80) only [unitDefaults_touch, applyInstance_touch, applyDomains_touch, fillBuckets_touch, Touch.refl, Nat.reduceOr]; done) | split

/-! Quiesce. -/

theorem setCtl_touch {μ : Nat} {o s : State} (c : CtlSt) (h : Touch μ o s) (hm : 0x40000 ||| μ = μ := by decide) : Touch μ o (setCtl c s) := by
  refine h.step hm ?_
  unfold setCtl; simp only [touch_mk, Touch.refl, Nat.reduceOr, true_or, or_true]

theorem markBoundary_touch {μ : Nat} {o s : State} (d : Nat) (h : Touch μ o s) (hm : 0x800000 ||| μ = μ := by decide) : Touch μ o (markBoundary d s) := by
  refine h.step hm ?_
  unfold markBoundary; simp only [setItn_touch, Touch.refl, Nat.reduceOr]

theorem holdUnits_touch {μ : Nat} {o s : State} (who : Nat) (pages : List Nat) (h : Touch μ o s) (hm : 0x40000 ||| μ = μ := by decide) : Touch μ o (holdUnits who pages s) := by
  refine h.step hm ?_
  unfold holdUnits; simp only [setCtl_touch, Touch.refl, Nat.reduceOr]

theorem releaseUnits_touch {μ : Nat} {o s : State} (who : Nat) (h : Touch μ o s) (hm : 0x400000000000200041000 ||| μ = μ := by decide) : Touch μ o (releaseUnits who s) := by
  refine h.step hm ?_
  unfold releaseUnits; simp only [cmpKick_touch, setCtl_touch, Touch.refl, Nat.reduceOr]

theorem takeCont_touch {μ : Nat} {o s : State} (f : Nat) (b : List Byte) (h : Touch μ o s) (hm : 0x80000000000080012000 ||| μ = μ := by decide) : Touch μ o (takeCont f b s) := by
  refine h.step hm ?_
  unfold takeCont; repeat' first | (simp (maxDischargeDepth := 80) only [set_touch, ok_VER_HA_RDPTR_RDPTR, ok_VER_HA_WRPTR_WRPTR, touch_mk, Touch.refl, Nat.reduceOr, true_or, or_true]; done) | split

theorem handOver_touch {μ : Nat} {o s : State} (f mode : Nat) (h : Touch μ o s) (hm : 0x1000 ||| μ = μ := by decide) : Touch μ o (handOver f mode s) := by
  refine h.step hm ?_
  unfold handOver; simp only [memRequest_touch, Touch.refl, ite_touch, Nat.reduceOr]

theorem flipMode_touch {μ : Nat} {o s : State} (f mode port priv init : Nat) (buf : Option (List Byte)) (h : Touch μ o s) (hm : 0x2080010000000080012100 ||| μ = μ := by decide) : Touch μ o (flipMode f mode port priv init buf s) := by
  refine h.step hm ?_
  unfold flipMode; repeat' first | (simp (maxDischargeDepth := 80) only [takeCont_touch, setBit_touch, ledger_touch, ok_GLB_FUNC_MODE_MODE, Touch.refl, Nat.reduceOr]; done) | split

/-! Detect. -/

theorem takeRef_touch {μ : Nat} {o s : State} (d : Nat) (h : Touch μ o s) (hm : 0x61040000000004080000480 ||| μ = μ := by decide) : Touch μ o (takeRef s d) := by
  refine h.step hm ?_
  unfold takeRef; repeat' first | (simp (maxDischargeDepth := 80) only [note_touch, putDet_touch, set_touch, ok_DET_D_REF_VALID, Touch.refl, ite_touch, Nat.reduceOr]; done) | with_reducible (refine ite_touch ?_ ?_) | with_reducible (refine foldl_touch (fun _ _ => ?_) ?_) | split | (dsimp only; with_reducible (refine ite_touch ?_ ?_)) | (dsimp only; split)

theorem takeRefs_touch {μ : Nat} {o s : State} (h : Touch μ o s) (hm : 0x61040000000004080000480 ||| μ = μ := by decide) : Touch μ o (takeRefs s) := by
  refine h.step hm ?_
  unfold takeRefs; split <;> simp only [takeRef_touch, implies_true, Touch.refl, foldl_touch, Nat.reduceOr]

theorem issueProv_touch {μ : Nat} {o s : State} (e : Due) (b : List Byte) (h : Touch μ o s) (hm : 0x6180c0000000040021a1480 ||| μ = μ := by decide) : Touch μ o (issueProv e b s) := by
  refine h.step hm ?_
  unfold issueProv; repeat' first | (simp (maxDischargeDepth := 80) only [publishVerdict_touch, putSlot_touch, sendUp_touch, Touch.refl, ite_touch, Nat.reduceOr]; done) | with_reducible (refine ite_touch ?_ ?_) | with_reducible (refine foldl_touch (fun _ _ => ?_) ?_) | split | (dsimp only; with_reducible (refine ite_touch ?_ ?_)) | (dsimp only; split)

theorem issueConf_touch {μ : Nat} {o s : State} (e : Due) (b : List Byte) (h : Touch μ o s) (hm : 0x658080000000040021a1680 ||| μ = μ := by decide) : Touch μ o (issueConf e b s) := by
  refine h.step hm ?_
  unfold issueConf; simp (maxDischargeDepth := 80) only [issueVerdict_touch, setCrv_touch, raiseIrq_touch, Touch.refl, ite_touch, Nat.reduceOr]

theorem issueOne_touch {μ : Nat} {o s : State} (e : Due) (f : Finding) (h : Touch μ o s) (hm : 0x6584c0000000040021a1680 ||| μ = μ := by decide) : Touch μ o (issueOne e s f) := by
  refine h.step hm ?_
  unfold issueOne; simp (maxDischargeDepth := 80) only [bump_touch, issueProv_touch, issueConf_touch, ok_DET_D_STATE_VERDICTS, ok_DET_VCOUNT_PROVISIONAL, ok_DET_VCOUNT_CONFIRMED, Touch.refl, ite_touch, Nat.reduceOr]

theorem detEval_touch {μ : Nat} {o s0 : State} (h : Touch μ o s0) (hm : 0x6584c0000000040861a1680 ||| μ = μ := by decide) : Touch μ o (detEval s0) := by
  refine h.step hm ?_
  unfold detEval; repeat' first | (simp (maxDischargeDepth := 80) only [takeRefs_touch, closeReady_touch, busyFor_touch, bump_touch, putDet_touch, report_touch, issueOne_touch, ok_DET_D_STATE_EVALS, ok_DET_ERR_REF_MISSING, ok_DET_ERR_DROPPED, ok_DET_DROPPED_COUNT, touch_mk, implies_true, Touch.refl, foldl_touch, ite_touch, Nat.reduceOr, true_or, or_true]; done) | with_reducible (refine ite_touch ?_ ?_) | with_reducible (refine foldl_touch (fun _ _ => ?_) ?_) | split

theorem armRef_touch {μ : Nat} {o s : State} (d : Nat) (h : Touch μ o s) (hm : 0x80000000 ||| μ = μ := by decide) : Touch μ o (armRef d s) := by
  refine h.step hm ?_
  unfold armRef; repeat' first | (simp (maxDischargeDepth := 80) only [putDet_touch, captureRefs_touch, Touch.refl, ite_touch, Nat.reduceOr]; done) | with_reducible (refine ite_touch ?_ ?_) | with_reducible (refine foldl_touch (fun _ _ => ?_) ?_) | split | (dsimp only; with_reducible (refine ite_touch ?_ ?_)) | (dsimp only; split)

theorem bcastTo_touch {μ : Nat} {o s : State} (bs : List Byte) (d : Nat) (h : Touch μ o s) (hm : 0x80000000 ||| μ = μ := by decide) : Touch μ o (bcastTo bs s d) := by
  refine h.step hm ?_
  unfold bcastTo; repeat' first | (simp (maxDischargeDepth := 80) only [putDet_touch, Touch.refl, ite_touch, Nat.reduceOr]; done) | split

theorem bcastReceive_touch {μ : Nat} {o s : State} (h : Touch μ o s) (hm : 0x610480000000040800a2480 ||| μ = μ := by decide) : Touch μ o (bcastReceive s) := by
  refine h.step hm ?_
  unfold bcastReceive; repeat' first | (rename_i heq; replace heq := takePkt_touch (Touch.refl 0x610480000000040800a2480 _) heq) | (simp (maxDischargeDepth := 80) only [sendChild_touch, takeRefs_touch, bcastTo_touch, implies_true, Touch.refl, foldl_touch, ite_touch, Nat.reduceOr, *]; done) | with_reducible (refine ite_touch ?_ ?_) | with_reducible (refine foldl_touch (fun _ _ => ?_) ?_) | split

theorem takeScores_touch {μ : Nat} {o s : State} (w : Nat → Word) (h : Touch μ o s) (hm : 0x61040000000004080000480 ||| μ = μ := by decide) : Touch μ o (takeScores w s).1 := by
  refine h.step hm ?_
  unfold takeScores; repeat' first | (simp (maxDischargeDepth := 80) only [report_touch, putDet_touch, ok_DET_ERR_HA_LATE, Touch.refl, Nat.reduceOr]; done) | with_reducible (refine ite_touch ?_ ?_) | with_reducible (refine foldl_touch (fun _ _ => ?_) ?_) | split | (dsimp only; with_reducible (refine ite_touch ?_ ?_)) | (dsimp only; split)

theorem detWrite_touch {μ : Nat} {o s : State} (a : Nat) (acc : Acc) (h : Touch μ o s) (ha : InPages μ a) (hm : 0x63040000000004080000580 ||| μ = μ := by decide) : Touch μ o (detWrite a acc s) := by
  have e0 : 0x80000000 ||| μ = μ := or_sub hm (by decide)
  have e1 : 0x40000000000000000000 ||| μ = μ := or_sub hm (by decide)
  have e2 : 0x1000000000000000000000 ||| μ = μ := or_sub hm (by decide)
  have e3 : 0x2000000000000000000000 ||| μ = μ := or_sub hm (by decide)
  have e4 : 0x20000000000000000000000 ||| μ = μ := or_sub hm (by decide)
  have e5 : 0x40000000000000000000000 ||| μ = μ := or_sub hm (by decide)
  have e6 : 0x61000000000004000000480 ||| μ = μ := or_sub hm (by decide)
  have e7 : 0x62000000000004000000500 ||| μ = μ := or_sub hm (by decide)
  unfold detWrite; simp (maxDischargeDepth := 80) only [perform_touch, report_touch, set_touch, armRef_touch, ok_DET_ERR_CFG, ok_DET_D_CFG_EN, ite_touch, e0, e1, e6, e7, ha, h]

/-! Arrays. -/

theorem sketchCell_touch {μ : Nat} {o s : State} (j : ArrJob) (v : Nat) (h : Touch μ o s) (hm : 0x61010000000004008200480 ||| μ = μ := by decide) : Touch μ o (sketchCell j v s) := by
  refine h.step hm ?_
  unfold sketchCell; split <;> simp only [partWrite_touch, Touch.refl, Nat.reduceOr]

theorem writePass_touch {μ : Nat} {o s : State} (j : ArrJob) (p : Nat) (h : Touch μ o s) (hm : 0x61010000000004008200480 ||| μ = μ := by decide) : Touch μ o (writePass j p s).1 := by
  refine h.step hm ?_
  unfold writePass; repeat' first | (simp (maxDischargeDepth := 80) only [partWrite_touch, sketchCell_touch, implies_true, Touch.refl, foldl_touch, ite_touch, Nat.reduceOr]; done) | with_reducible (refine ite_touch ?_ ?_) | with_reducible (refine foldl_touch (fun _ _ => ?_) ?_) | split | (dsimp only; with_reducible (refine ite_touch ?_ ?_)) | (dsimp only; split)

theorem serve_touch {μ : Nat} {o s : State} (a u cycles : Nat) (h : Touch μ o s) (hm : 0x20000000000010020000 ||| μ = μ := by decide) : Touch μ o (serve a u cycles s) := by
  refine h.step hm ?_
  unfold serve; repeat' first | (simp (maxDischargeDepth := 80) only [setArr_touch, prod_touch, bump_touch, ok_ARR_CYC_FIELD_CYCLES, ok_ARR_CYC_SCORE_CYCLES, ok_ARR_CYC_VERIFY_CYCLES, Touch.refl, Nat.reduceOr]; done) | with_reducible (refine ite_touch ?_ ?_) | with_reducible (refine foldl_touch (fun _ _ => ?_) ?_) | split | (dsimp only; with_reducible (refine ite_touch ?_ ?_)) | (dsimp only; split) | ((try dsimp only); first | with_reducible (apply setArr_touch) | with_reducible (apply prod_touch) | with_reducible (apply bump_touch) | with_reducible (apply touch_mk))

theorem showArr_touch {μ : Nat} {o s : State} (h : Touch μ o s) (hm : 0x20000000000000000000 ||| μ = μ := by decide) : Touch μ o (showArr s) := by
  refine h.step hm ?_
  unfold showArr; simp only [set_touch, ok_ARR_STATUS_BUSY, Touch.refl, Nat.reduceOr]

theorem floorBreach_touch {μ : Nat} {o s : State} (a : Nat) (h : Touch μ o s) (hm : 0x61028000000004010000480 ||| μ = μ := by decide) : Touch μ o (floorBreach a s) := by
  refine h.step hm ?_
  unfold floorBreach; simp (maxDischargeDepth := 80) only [setArr_touch, record_touch, flag_touch, bump_touch, ok_ARR_ERR_FLOOR_BREACH, ok_INK_LADDER_CNT1_RANK6, Touch.refl, ite_touch, Nat.reduceOr]

theorem arrPost_touch {μ : Nat} {o s : State} (j : ArrJob) (status a : Nat) (h : Touch μ o s) (hm : 0x71020000000004010000480 ||| μ = μ := by decide) : Touch μ o (arrPost j status a s) := by
  refine h.step hm ?_
  unfold arrPost; simp (maxDischargeDepth := 80) only [wr_touch, report_touch, post_touch, showArr_touch, syncEvent_touch, setArr_touch, ok_ARR_JOB_STATS_CYCLES, ok_ARR_ERR_JOB_ERR, ok_ARR_JOB_RESULT_SEQ, Touch.refl, ite_touch, Nat.reduceOr, wr_touch]

theorem arrayGo_touch {μ : Nat} {o s : State} (i : Nat) (h : Touch μ o s) (hm : 0x71020000000004010000480 ||| μ = μ := by decide) : Touch μ o (arrayGo i s) := by
  refine h.step hm ?_
  unfold arrayGo; repeat' first | (simp (maxDischargeDepth := 80) only [flag_touch, arrPost_touch, showArr_touch, setArr_touch, ok_ARR_ERR_SLOT_BUSY, Touch.refl, Nat.reduceOr]; done) | with_reducible (refine ite_touch ?_ ?_) | with_reducible (refine foldl_touch (fun _ _ => ?_) ?_) | split | (dsimp only; with_reducible (refine ite_touch ?_ ?_)) | (dsimp only; split)

theorem putJob_touch {μ : Nat} {o s : State} (j : ArrJob) (h : Touch μ o s) (hm : 0x10000000 ||| μ = μ := by decide) : Touch μ o (putJob j s) := by
  refine h.step hm ?_
  unfold putJob; simp only [setArr_touch, Touch.refl, Nat.reduceOr]

theorem scoringPass_touch {μ : Nat} {o s : State} (j : ArrJob) (a cycles : Nat) (residue : Option Bool) (ecc : Option Nat) (h : Touch μ o s) (hm : 0x71138000000004058220480 ||| μ = μ := by decide) : Touch μ o (scoringPass j a cycles residue ecc s) := by
  refine h.step hm ?_
  unfold scoringPass; repeat' first | (simp (maxDischargeDepth := 80) only [serve_touch, floorBreach_touch, arrPost_touch, eccError_touch, residueError_touch, writePass_touch, busyFor_touch, showArr_touch, putJob_touch, Touch.refl, ite_touch, Nat.reduceOr]; done) | with_reducible (refine ite_touch ?_ ?_) | with_reducible (refine foldl_touch (fun _ _ => ?_) ?_) | split

theorem verifyPassDone_touch {μ : Nat} {o s : State} (r : VRec) (p : Option Nat) (a cycles : Nat) (residue : Option Bool) (ecc : Option Nat) (h : Touch μ o s) (hm : 0x61120000000004070020480 ||| μ = μ := by decide) : Touch μ o (verifyPassDone r p a cycles residue ecc s) := by
  refine h.step hm ?_
  unfold verifyPassDone; repeat' first | (simp (maxDischargeDepth := 80) only [serve_touch, eccError_touch, residueError_touch, showArr_touch, setVer_touch, Touch.refl, Nat.reduceOr]; done) | split

theorem passDone_touch {μ : Nat} {o s : State} (a cycles : Nat) (residue : Option Bool) (ecc : Option Nat) (h : Touch μ o s) (hm : 0x759b800000000407a2a1680 ||| μ = μ := by decide) : Touch μ o (passDone a cycles residue ecc s) := by
  refine h.step hm ?_
  unfold passDone; repeat' first | (simp (maxDischargeDepth := 80) only [showArr_touch, retireCheck_touch, scoringPass_touch, verifyPassDone_touch, Touch.refl, Nat.reduceOr]; done) | split

theorem arrayAbort_touch {μ : Nat} {o s : State} (h : Touch μ o s) (hm : 0x71020000000004010000480 ||| μ = μ := by decide) : Touch μ o (arrayAbort s) := by
  refine h.step hm ?_
  unfold arrayAbort; simp only [arrPost_touch, implies_true, Touch.refl, foldl_touch, Nat.reduceOr]

theorem arrWrite_touch {μ : Nat} {o s : State} (a : Nat) (acc : Acc) (h : Touch μ o s) (ha : InPages μ a) (hm : 0x730a0000000004010000580 ||| μ = μ := by decide) : Touch μ o (arrWrite a acc s) := by
  have e0 : 0x20000000000000000000 ||| μ = μ := or_sub hm (by decide)
  have e1 : 0x80000000000000000000 ||| μ = μ := or_sub hm (by decide)
  have e2 : 0x1000000000000000000000 ||| μ = μ := or_sub hm (by decide)
  have e3 : 0x2000000000000000000000 ||| μ = μ := or_sub hm (by decide)
  have e4 : 0x10000000000000000000000 ||| μ = μ := or_sub hm (by decide)
  have e5 : 0x20000000000000000000000 ||| μ = μ := or_sub hm (by decide)
  have e6 : 0x40000000000000000000000 ||| μ = μ := or_sub hm (by decide)
  have e7 : 0x62000000000004000000500 ||| μ = μ := or_sub hm (by decide)
  have e8 : 0x63000000000004000000580 ||| μ = μ := or_sub hm (by decide)
  have e9 : 0x71020000000004010000480 ||| μ = μ := or_sub hm (by decide)
  unfold arrWrite; repeat' first | (simp (maxDischargeDepth := 80) only [consume_touch, perform_touch, arrayGo_touch, showArr_touch, showCapacity_touch, ite_touch, e0, e1, e7, e8, e9, ha, h]; done) | split

/-! Verify. -/

theorem setEop_touch {μ : Nat} {o s : State} (e : EopSt) (h : Touch μ o s) (hm : 0x800 ||| μ = μ := by decide) : Touch μ o (setEop e s) := by
  refine h.step hm ?_
  unfold setEop; simp only [touch_mk, Touch.refl, Nat.reduceOr, true_or, or_true]

theorem clampNote_touch {μ : Nat} {o s : State} (kind v : Nat) (h : Touch μ o s) (hm : 0x61000000000004020000480 ||| μ = μ := by decide) : Touch μ o (clampNote kind v s) := by
  refine h.step hm ?_
  unfold clampNote; split <;> simp only [note_touch, setVer_touch, Touch.refl, Nat.reduceOr]

theorem clampOver_touch {μ : Nat} {o s : State} (kind : Nat) (h : Touch μ o s) (hm : 0x20000000 ||| μ = μ := by decide) : Touch μ o (clampOver kind s) := by
  refine h.step hm ?_
  unfold clampOver; simp only [setVer_touch, Touch.refl, Nat.reduceOr]

theorem bundleThresh_touch {μ : Nat} {o s : State} (h : Touch μ o s) (hm : 0x61080000000004020000480 ||| μ = μ := by decide) : Touch μ o (bundleThresh s).2 := by
  refine h.step hm ?_
  unfold bundleThresh; repeat' first | (simp (maxDischargeDepth := 80) only [clampOver_touch, clampNote_touch, flag_touch, set_touch, ok_VER_ERR_THRESH_CLAMP, ok_VER_STATUS_OVER_CAP, Touch.refl, ite_touch, Nat.reduceOr]; done) | with_reducible (refine ite_touch ?_ ?_) | with_reducible (refine foldl_touch (fun _ _ => ?_) ?_) | split | (dsimp only; with_reducible (refine ite_touch ?_ ?_)) | (dsimp only; split)

theorem showSeed_touch {μ : Nat} {o s : State} (h : Touch μ o s) (hm : 0x80000000000000000 ||| μ = μ := by decide) : Touch μ o (showSeed s) := by
  refine h.step hm ?_
  unfold showSeed; simp (maxDischargeDepth := 80) only [set_touch, wr_touch, ok_EOP_SEED_INFO_EPOCH_LO, ok_EOP_SEED_INFO_THRESH, ok_EOP_SEED_SEED, Touch.refl, Nat.reduceOr, wr_touch]

theorem seedSend_touch {μ : Nat} {o s : State} (h : Touch μ o s) (hm : 0x61080000000004020000c80 ||| μ = μ := by decide) : Touch μ o (seedSend s) := by
  refine h.step hm ?_
  unfold seedSend; split <;> simp only [bundleThresh_touch, setEop_touch, Touch.refl, Nat.reduceOr]

theorem markEpoch_touch {μ : Nat} {o s : State} (e : Nat) (h : Touch μ o s) (hm : 0x20000800 ||| μ = μ := by decide) : Touch μ o (markEpoch e s) := by
  refine h.step hm ?_
  unfold markEpoch; simp (maxDischargeDepth := 80) only [setVer_touch, setEop_touch, Touch.refl, ite_touch, Nat.reduceOr]

theorem seedAck_touch {μ : Nat} {o s : State} (h : Touch μ o s) (hm : 0x80000000020000800 ||| μ = μ := by decide) : Touch μ o (seedAck s) := by
  refine h.step hm ?_
  unfold seedAck; repeat' first | (simp (maxDischargeDepth := 80) only [setEop_touch, showSeed_touch, setVer_touch, Touch.refl, Nat.reduceOr]; done) | split

theorem seedAckTimeout_touch {μ : Nat} {o s : State} (h : Touch μ o s) (hm : 0x61000080000004020030c80 ||| μ = μ := by decide) : Touch μ o (seedAckTimeout s) := by
  refine h.step hm ?_
  unfold seedAckTimeout; repeat' first | (simp (maxDischargeDepth := 80) only [markEpoch_touch, report_touch, reachTb0_touch, ok_EOP_ERR_SEED_TMO, Touch.refl, ite_touch, Nat.reduceOr]; done) | with_reducible (refine ite_touch ?_ ?_) | with_reducible (refine foldl_touch (fun _ _ => ?_) ?_) | split | (dsimp only; with_reducible (refine ite_touch ?_ ?_)) | (dsimp only; split)

theorem seedBoundary_touch {μ : Nat} {o s : State} (e : Nat) (h : Touch μ o s) (hm : 0x80000000020000800 ||| μ = μ := by decide) : Touch μ o (seedBoundary e s) := by
  refine h.step hm ?_
  unfold seedBoundary; simp (maxDischargeDepth := 80) only [showSeed_touch, setEop_touch, setVer_touch, Touch.refl, ite_touch, Nat.reduceOr]

theorem verDiscard_touch {μ : Nat} {o s : State} (cause who key : Nat) (h : Touch μ o s) (hm : 0x61080000000004020020480 ||| μ = μ := by decide) : Touch μ o (verDiscard cause who key s) := by
  refine h.step hm ?_
  unfold verDiscard; simp (maxDischargeDepth := 80) only [record_touch, flag_touch, prod_touch, setVer_touch, ok_VER_ERR_DISCARD, Touch.refl, Nat.reduceOr]

theorem runOver_touch {μ : Nat} {o s : State} (h : Touch μ o s) (hm : 0x20000000 ||| μ = μ := by decide) : Touch μ o (runOver s) := by
  refine h.step hm ?_
  unfold runOver; simp only [setVer_touch, Touch.refl, Nat.reduceOr]

theorem haWrite_touch {μ : Nat} {o s : State} (r : VRec) (h : Touch μ o s) (hm : 0x20001000 ||| μ = μ := by decide) : Touch μ o (haWrite r s) := by
  refine h.step hm ?_
  unfold haWrite; simp (maxDischargeDepth := 80) only [memRequest_touch, setVer_touch, touch_mk, Touch.refl, ite_touch, Nat.reduceOr, true_or, or_true]

theorem stage_touch {μ : Nat} {o s : State} (r : VRec) (h : Touch μ o s) (hm : 0xa0000000000020001000 ||| μ = μ := by decide) : Touch μ o (stage r s).1 := by
  refine h.step hm ?_
  unfold stage; repeat' first | (simp (maxDischargeDepth := 80) only [haWrite_touch, showArr_touch, showVer_touch, setVer_touch, Touch.refl, Nat.reduceOr]; done) | with_reducible (refine ite_touch ?_ ?_) | with_reducible (refine foldl_touch (fun _ _ => ?_) ?_) | split | (dsimp only; with_reducible (refine ite_touch ?_ ?_)) | (dsimp only; split)

theorem sendFragments_touch {μ : Nat} {o s : State} (dst : Nat × Nat × Nat) (d e key : Nat) (l : List (Nat × List Byte × Nat)) (h : Touch μ o s) (hm : 0x610080000000040000a0480 ||| μ = μ := by decide) : Touch μ o (sendFragments dst d e key l s).1 := by
  have aux {o s : State} (dst : Nat × Nat × Nat) (d e key : Nat) (l : List (Nat × List Byte × Nat)) (h : Touch 0x610080000000040000a0480 o s) : Touch 0x610080000000040000a0480 o (sendFragments dst d e key l s).1 := by
    induction l generalizing s with
    | nil => exact h
    | cons f t ih =>
      unfold sendFragments
      repeat' first | exact sendPkt_touch _ _ _ _ _ h | exact ih (sendPkt_touch _ _ _ _ _ h) | split | (dsimp only; split)
  exact h.step hm (aux _ _ e _ _ (Touch.refl 0x610080000000040000a0480 _))

theorem tileSeen_touch {μ : Nat} {o s : State} (e engine tile : Nat) (h : Touch μ o s) (hm : 0x20000000 ||| μ = μ := by decide) : Touch μ o (tileSeen e engine tile s) := by
  refine h.step hm ?_
  unfold tileSeen; simp only [setVer_touch, Touch.refl, Nat.reduceOr]

theorem takePath_touch {μ : Nat} {o s : State} (v : VEpoch) (b : List Byte) (h : Touch μ o s) (hm : 0x610a80000000040200a1480 ||| μ = μ := by decide) : Touch μ o (takePath v b s) := by
  have aux {o s : State} (v : VEpoch) (b : List Byte) (h : Touch 0x610a80000000040200a1480 o s) : Touch 0x610a80000000040200a1480 o (takePath v b s) := by
    unfold takePath
    dsimp only
    generalize decide (b.length ≤ stageSize s) = fits
    have here : Touch 0x610a80000000040200a1480 o (if (!fits) = true then verDiscard 5 (wEngine b) (wKey b) s
      else match stage { kid := none, domain := seedDomain s, epoch := v.n, bytes := b } s with
        | (s1, true) => runOver (tileSeen v.n (wEngine b) (wTile b) s1)
        | (s1, false) => verDiscard 4 (wEngine b) (wKey b) s1) := by
      split
      · exact verDiscard_touch _ _ _ h
      · have k := stage_touch { kid := none, domain := seedDomain s, epoch := v.n, bytes := b } h
        split
        · next e => exact runOver_touch (tileSeen_touch _ _ _ (touch_fst e k))
        · next e => exact verDiscard_touch _ _ _ (touch_fst e k)
    split
    · exact here
    · split
      · exact here
      · next dst _ =>
        have k := sendFragments_touch dst (seedDomain s) v.n (wKey b) (fragments b) h
        split
        · next e => exact runOver_touch (tileSeen_touch _ _ _ (prod_touch _ _ (touch_fst e k)))
        · next e => exact verDiscard_touch _ _ _ (touch_fst e k)
  exact h.step hm (aux _ _ (Touch.refl 0x610a80000000040200a1480 _))

theorem hostRecord_touch {μ : Nat} {o s : State} (engine : Nat) (b : List Byte) (h : Touch μ o s) (hm : 0x610a80000000040200a1480 ||| μ = μ := by decide) : Touch μ o (hostRecord engine b s) := by
  refine h.step hm ?_
  unfold hostRecord; repeat' first | (simp only [verDiscard_touch, setVer_touch, takePath_touch, Touch.refl, ite_touch, Nat.reduceOr]; done) | split

theorem witnessIn_touch {μ : Nat} {o s : State} (beats : List (BitVec 512)) (cut : Bool) (h : Touch μ o s) (hm : 0x61000080000004000000480 ||| μ = μ := by decide) : Touch μ o (witnessIn beats cut s).1 := by
  refine h.step hm ?_
  unfold witnessIn; repeat' first | (simp (maxDischargeDepth := 80) only [bump_touch, report_touch, ok_EOP_WIT_DROPPED_DISCARDED, ok_EOP_ERR_WIT_MALFORMED, ok_EOP_WIT_DROPPED_MALFORMED, Touch.refl, Nat.reduceOr]; done) | with_reducible (refine ite_touch ?_ ?_) | with_reducible (refine foldl_touch (fun _ _ => ?_) ?_) | split | (dsimp only; with_reducible (refine ite_touch ?_ ?_)) | (dsimp only; split)

theorem subjMove_touch {μ : Nat} {o s : State} (i st obs : Nat) (h : Touch μ o s) (hm : 0x61080000000004000020480 ||| μ = μ := by decide) : Touch μ o (subjMove i st obs s) := by
  refine h.step hm ?_
  unfold subjMove; simp (maxDischargeDepth := 80) only [set_touch, prod_touch, showVer_touch, note_touch, ok_VER_SUBJ_STATE_OBS_PASSED, ok_VER_SUBJ_STATE_STATE, Touch.refl, ite_touch, Nat.reduceOr]

theorem subjFail_touch {μ : Nat} {o s : State} (i dom n kind sev : Nat) (layout : List Byte) (h : Touch μ o s) (hm : 0x658880000000040220a1680 ||| μ = μ := by decide) : Touch μ o (subjFail i dom n kind sev layout s) := by
  refine h.step hm ?_
  unfold subjFail; simp (maxDischargeDepth := 80) only [set_touch, setVer_touch, verVerdict_touch, subjMove_touch, prod_touch, ok_VER_SUBJ_STATE_INDEX, ok_VER_SUBJ_STATE_LEVEL, Touch.refl, ite_touch, Nat.reduceOr]

theorem subjPass_touch {μ : Nat} {o s : State} (i dom n : Nat) (h : Touch μ o s) (hm : 0x658880000000040020a1680 ||| μ = μ := by decide) : Touch μ o (subjPass i dom n s) := by
  refine h.step hm ?_
  unfold subjPass; simp (maxDischargeDepth := 80) only [bump_touch, subjMove_touch, verVerdict_touch, ok_VER_SUBJ_STATE_OBS_PASSED, Touch.refl, ite_touch, Nat.reduceOr]

theorem checked_touch {μ : Nat} {o s : State} (r : VRec) (h : Touch μ o s) (hm : 0x20000 ||| μ = μ := by decide) : Touch μ o (checked r s) := by
  refine h.step hm ?_
  unfold checked; split <;> simp only [prod_touch, Touch.refl, ite_touch, Nat.reduceOr]

theorem recPass_touch {μ : Nat} {o s : State} (r : VRec) (h : Touch μ o s) (hm : 0x658880000000040020a1680 ||| μ = μ := by decide) : Touch μ o (recPass r s) := by
  refine h.step hm ?_
  unfold recPass; simp (maxDischargeDepth := 80) only [subjPass_touch, checked_touch, prod_touch, Touch.refl, Nat.reduceOr]

theorem recFail_touch {μ : Nat} {o s : State} (r : VRec) (tol : Bool) (m n cnt host ref : Nat) (h : Touch μ o s) (hm : 0x658880000000040220a1680 ||| μ = μ := by decide) : Touch μ o (recFail r tol m n cnt host ref s) := by
  refine h.step hm ?_
  unfold recFail; simp (maxDischargeDepth := 80) only [flag_touch, prod_touch, subjFail_touch, checked_touch, ok_VER_ERR_HOST_FAIL, Touch.refl, Nat.reduceOr]

theorem popRecord_touch {μ : Nat} {o s : State} (h : Touch μ o s) (hm : 0x20000000 ||| μ = μ := by decide) : Touch μ o (popRecord s) := by
  refine h.step hm ?_
  unfold popRecord; simp only [setVer_touch, Touch.refl, Nat.reduceOr]

theorem ownError_touch {μ : Nat} {o s : State} (kind : Nat) (arrays : List Nat) (h : Touch μ o s) (hm : 0x61080000000004000000480 ||| μ = μ := by decide) : Touch μ o (ownError kind arrays s) := by
  refine h.step hm ?_
  unfold ownError; simp only [report_touch, ok_VER_ERR_SELF_ERR, Touch.refl, Nat.reduceOr]

theorem judgeFail_touch {μ : Nat} {o s : State} (r : VRec) (fails : List (Nat × Nat × Nat)) (h : Touch μ o s) (hm : 0x658880000000040220a1680 ||| μ = μ := by decide) : Touch μ o (judgeFail r fails s) := by
  refine h.step hm ?_
  unfold judgeFail; simp only [recFail_touch, Touch.refl, Nat.reduceOr]

theorem referenceDone_touch {μ : Nat} {o s : State} (errs : List (Nat × Nat × Nat)) (h : Touch μ o s) (hm : 0x658a80000000040220a1680 ||| μ = μ := by decide) : Touch μ o (referenceDone errs s) := by
  refine h.step hm ?_
  unfold referenceDone; repeat' first | (simp (maxDischargeDepth := 80) only [showArr_touch, showVer_touch, ownError_touch, popRecord_touch, recPass_touch, setVer_touch, judgeFail_touch, Touch.refl, ite_touch, Nat.reduceOr]; done) | split

theorem confirmDone_touch {μ : Nat} {o s : State} (errs : List (Nat × Nat × Nat)) (h : Touch μ o s) (hm : 0x659a80000000040620a1680 ||| μ = μ := by decide) : Touch μ o (confirmDone errs s) := by
  refine h.step hm ?_
  unfold confirmDone; repeat' first | (simp (maxDischargeDepth := 80) only [showArr_touch, showVer_touch, ownError_touch, popRecord_touch, judgeFail_touch, retireCheck_touch, mark_touch, implies_true, Touch.refl, foldl_touch, ite_touch, Nat.reduceOr]; done) | split

theorem takeOutcome_touch {μ : Nat} {o s : State} (w : Nat → Word) (h : Touch μ o s) (hm : 0x658880000000040220a1680 ||| μ = μ := by decide) : Touch μ o (takeOutcome w s).1 := by
  refine h.step hm ?_
  unfold takeOutcome; repeat' first | (simp (maxDischargeDepth := 80) only [setVer_touch, recPass_touch, recFail_touch, Touch.refl, Nat.reduceOr]; done) | with_reducible (refine ite_touch ?_ ?_) | with_reducible (refine foldl_touch (fun _ _ => ?_) ?_) | split | (dsimp only; with_reducible (refine ite_touch ?_ ?_)) | (dsimp only; split)

theorem accountClose_touch {μ : Nat} {o s : State} (h : Touch μ o s) (hm : 0x71080000000004020030480 ||| μ = μ := by decide) : Touch μ o (accountClose s) := by
  refine h.step hm ?_
  unfold accountClose; repeat' first | (simp (maxDischargeDepth := 80) only [reachTb0_touch, setVer_touch, syncEvent_touch, report_touch, prod_touch, ok_VER_ERR_UNACCOUNTABLE, Touch.refl, Nat.reduceOr]; done) | split

theorem putAsm_touch {μ : Nat} {o s : State} (b : Nat) (a : Option VAsm) (h : Touch μ o s) (hm : 0x80000000000020000000 ||| μ = μ := by decide) : Touch μ o (putAsm b a s) := by
  refine h.step hm ?_
  unfold putAsm; simp only [showVer_touch, setVer_touch, Touch.refl, Nat.reduceOr]

theorem asmDrop_touch {μ : Nat} {o s : State} (b cause key : Nat) (last : Bool) (h : Touch μ o s) (hm : 0x61080000000004020020480 ||| μ = μ := by decide) : Touch μ o (asmDrop b cause key last s) := by
  refine h.step hm ?_
  unfold asmDrop; simp only [putAsm_touch, verDiscard_touch, Touch.refl, Nat.reduceOr]

theorem asmFirst_touch {μ : Nat} {o s : State} (p : Pkt) (b key : Nat) (last : Bool) (body : List Byte) (h : Touch μ o s) (hm : 0x61080000000004020020480 ||| μ = μ := by decide) : Touch μ o (asmFirst p b key last body s) := by
  refine h.step hm ?_
  unfold asmFirst; simp (maxDischargeDepth := 80) only [asmDrop_touch, putAsm_touch, Touch.refl, ite_touch, Nat.reduceOr]

theorem asmEnd_touch {μ : Nat} {o s : State} (b key : Nat) (last : Bool) (h : Touch μ o s) (hm : 0x610a0000000004020021480 ||| μ = μ := by decide) : Touch μ o (asmEnd b key last s) := by
  have aux {o s : State} (b key : Nat) (last : Bool) (h : Touch 0x610a0000000004020021480 o s) : Touch 0x610a0000000004020021480 o (asmEnd b key last s) := by
    unfold asmEnd
    split
    · exact h
    · next a _ =>
      split
      · split
        · exact putAsm_touch _ _ h
        · exact h
      · split
        · split
          · exact h
          · exact asmDrop_touch _ _ _ _ h
        · split
          · exact asmDrop_touch _ _ _ _ h
          · have k := stage_touch { kid := some b, domain := a.domain, epoch := a.epoch, bytes := a.bytes } (putAsm_touch b none h)
            split
            · next e => exact runOver_touch (touch_fst e k)
            · next e => exact verDiscard_touch _ _ _ (touch_fst e k)
  exact h.step hm (aux _ _ _ (Touch.refl 0x610a0000000004020021480 _))

theorem witnessReceive_touch {μ : Nat} {o s : State} (h : Touch μ o s) (hm : 0x610a0000000004020023480 ||| μ = μ := by decide) : Touch μ o (witnessReceive s) := by
  refine h.step hm ?_
  unfold witnessReceive; repeat' first | (rename_i heq; replace heq := takePkt_touch (Touch.refl 0x610a0000000004020023480 _) heq) | (simp (maxDischargeDepth := 80) only [asmEnd_touch, asmFirst_touch, asmDrop_touch, putAsm_touch, verDiscard_touch, Touch.refl, ite_touch, Nat.reduceOr, *]; done) | with_reducible (refine ite_touch ?_ ?_) | with_reducible (refine foldl_touch (fun _ _ => ?_) ?_) | split | (dsimp only; with_reducible (refine ite_touch ?_ ?_)) | (dsimp only; split)

theorem subjCommand_touch {μ : Nat} {o s : State} (i : Nat) (acc : Acc) (h : Touch μ o s) (hm : 0x61080000000004000020480 ||| μ = μ := by decide) : Touch μ o (subjCommand i acc s) := by
  refine h.step hm ?_
  unfold subjCommand; simp (maxDischargeDepth := 80) only [subjMove_touch, Touch.refl, ite_touch, Nat.reduceOr]

theorem verWrite_touch {μ : Nat} {o s : State} (a : Nat) (acc : Acc) (h : Touch μ o s) (ha : InPages μ a) (hm : 0x630a0000000004000020580 ||| μ = μ := by decide) : Touch μ o (verWrite a acc s) := by
  have e0 : 0x20000000000000000000 ||| μ = μ := or_sub hm (by decide)
  have e1 : 0x80000000000000000000 ||| μ = μ := or_sub hm (by decide)
  have e2 : 0x1000000000000000000000 ||| μ = μ := or_sub hm (by decide)
  have e3 : 0x2000000000000000000000 ||| μ = μ := or_sub hm (by decide)
  have e4 : 0x20000000000000000000000 ||| μ = μ := or_sub hm (by decide)
  have e5 : 0x40000000000000000000000 ||| μ = μ := or_sub hm (by decide)
  have e6 : 0x61080000000004000020480 ||| μ = μ := or_sub hm (by decide)
  have e7 : 0x62000000000004000000500 ||| μ = μ := or_sub hm (by decide)
  unfold verWrite; repeat' first | (simp (maxDischargeDepth := 80) only [perform_touch, subjCommand_touch, showArr_touch, showVer_touch, showCapacity_touch, ite_touch, e0, e1, e6, e7, ha, h]; done) | split

/-! Window. -/

theorem attention_touch {μ : Nat} {o s : State} (h : Touch μ o s) (hm : 0x800 ||| μ = μ := by decide) : Touch μ o (attention s) := by
  refine h.step hm ?_
  unfold attention; simp only [touch_mk, Touch.refl, ite_touch, Nat.reduceOr, true_or, or_true]

theorem cwResult_touch {μ : Nat} {o s : State} (n status : Nat) (d0 d1 d2 : Word) (h : Touch μ o s) (hm : 0x100000000000000068000000000004000040400 ||| μ = μ := by decide) : Touch μ o (cwResult n status d0 d1 d2 s) := by
  refine h.step hm ?_
  unfold cwResult; simp (maxDischargeDepth := 80) only [setBit_touch, wr_touch, post_touch, setCtl_touch, ok_CTL_CW_STATUS_DONE, ok_CTL_CW_STATUS_POSTED, ok_CW_RDATA2_DATA, ok_CW_RDATA1_DATA, ok_CW_RDATA0_DATA, ok_CW_RESULT_SEQ, Touch.refl, Nat.reduceOr, wr_touch]

theorem cwStatus_touch {μ : Nat} {o s : State} (n status : Nat) (h : Touch μ o s) (hm : 0x100000000000000068000000000004000040400 ||| μ = μ := by decide) : Touch μ o (cwStatus n status s) := by
  refine h.step hm ?_
  unfold cwStatus; simp only [cwResult_touch, Touch.refl, Nat.reduceOr]

theorem cwTally_touch {μ : Nat} {o s : State} (n : Nat) (buf : Option (List Byte)) (h : Touch μ o s) (hm : 0x100000000000000069c0d0000000040061e1480 ||| μ = μ := by decide) : Touch μ o (cwTally n buf s) := by
  refine h.step hm ?_
  unfold cwTally; repeat' first | (simp (maxDischargeDepth := 80) only [cwStatus_touch, report_touch, cwResult_touch, handSample_touch, wbStage_touch, ok_TLY_ERR_HA_LATE, Touch.refl, Nat.reduceOr]; done) | with_reducible (refine ite_touch ?_ ?_) | with_reducible (refine foldl_touch (fun _ _ => ?_) ?_) | split | (dsimp only; with_reducible (refine ite_touch ?_ ?_)) | (dsimp only; split)

theorem cwCaravan_touch {μ : Nat} {o s : State} (n : Nat) (buf : Option (List Byte)) (h : Touch μ o s) (hm : 0x1000000000000000698080000000040020e1480 ||| μ = μ := by decide) : Touch μ o (cwCaravan n buf s) := by
  refine h.step hm ?_
  unfold cwCaravan; repeat' first | (simp (maxDischargeDepth := 80) only [cwStatus_touch, cwResult_touch, sendUp_touch, Touch.refl, Nat.reduceOr]; done) | with_reducible (refine ite_touch ?_ ?_) | with_reducible (refine foldl_touch (fun _ _ => ?_) ?_) | split

theorem cwStamps_touch {μ : Nat} {o s : State} (n : Nat) (h : Touch μ o s) (hm : 0x100000000000000069002800000004001070480 ||| μ = μ := by decide) : Touch μ o (cwStamps n s) := by
  refine h.step hm ?_
  unfold cwStamps; simp only [ptpStamps_touch, cwResult_touch, Touch.refl, Nat.reduceOr]

theorem cwExec_touch {μ : Nat} {o s : State} (n : Nat) (buf : Option (List Byte)) (h : Touch μ o s) (hm : 0x10000000000000006dccf8000000041a71f1680 ||| μ = μ := by decide) : Touch μ o (cwExec n buf s) := by
  have aux {o s : State} (n : Nat) (buf : Option (List Byte)) (h : Touch 0x10000000000000006dccf8000000041a71f1680 o s) : Touch 0x10000000000000006dccf8000000041a71f1680 o (cwExec n buf s) := by
    unfold cwExec
    split
    · exact cwTally_touch _ _ h
    · exact cwCaravan_touch _ _ h
    · exact cwStamps_touch _ h
    · dsimp only
      split
      · exact cwStatus_touch _ _ h
      · split
        · exact cwStatus_touch _ _ (takeScores_touch _ h)
        · exact cwResult_touch _ _ _ _ _ (takeScores_touch _ h)
    · have k := takeOutcome_touch (cwArg s n) h
      split
      · next e => exact cwResult_touch _ _ _ _ _ (touch_fst e k)
      · exact cwStatus_touch _ _ h
    · have k := parityPost_touch (cwArg s n 1).toNat h
      split
      · next e => exact cwStatus_touch _ _ (touch_fst e k)
      · exact cwStatus_touch _ _ h
  exact h.step hm (aux _ _ (Touch.refl 0x10000000000000006dccf8000000041a71f1680 _))

theorem cwServe_touch {μ : Nat} {o s : State} (h : Touch μ o s) (hm : 0x10000000000000006dccf8000000041a71f1680 ||| μ = μ := by decide) : Touch μ o (cwServe s) := by
  refine h.step hm ?_
  unfold cwServe; split <;> simp only [cwExec_touch, implies_true, Touch.refl, foldl_touch, Nat.reduceOr]

theorem cwPost_touch {μ : Nat} {o s : State} (n : Nat) (acc : Acc) (buf : Option (List Byte)) (h : Touch μ o s) (hm : 0x10000000000000006dccf8000000041a71f1e80 ||| μ = μ := by decide) : Touch μ o (cwPost n acc buf s) := by
  refine h.step hm ?_
  unfold cwPost; simp (maxDischargeDepth := 80) only [setBit_touch, attention_touch, cwStatus_touch, cwServe_touch, setCtl_touch, ok_CTL_CW_STATUS_POSTED, Touch.refl, ite_touch, Nat.reduceOr]

theorem cwBusy_touch {μ : Nat} {o s : State} (h : Touch μ o s) (hm : 0x68000000000004000000400 ||| μ = μ := by decide) : Touch μ o (cwBusy s) := by
  refine h.step hm ?_
  unfold cwBusy; simp only [flag_touch, ok_CTL_ERR_CW_BUSY, Touch.refl, Nat.reduceOr]

theorem cwWrite_touch {μ : Nat} {o s : State} (buf : Option (List Byte)) (a : Nat) (acc : Acc) (h : Touch μ o s) (ha : InPages μ a) (hm : 0x10000000000000006fccf8000000041a71f1f80 ||| μ = μ := by decide) : Touch μ o (cwWrite buf a acc s) := by
  have e0 : 0x800000000000000000 ||| μ = μ := or_sub hm (by decide)
  have e1 : 0x1000000000000000000 ||| μ = μ := or_sub hm (by decide)
  have e2 : 0x2000000000000000000 ||| μ = μ := or_sub hm (by decide)
  have e3 : 0x4000000000000000000 ||| μ = μ := or_sub hm (by decide)
  have e4 : 0x8000000000000000000 ||| μ = μ := or_sub hm (by decide)
  have e5 : 0x40000000000000000000 ||| μ = μ := or_sub hm (by decide)
  have e6 : 0x80000000000000000000 ||| μ = μ := or_sub hm (by decide)
  have e7 : 0x400000000000000000000 ||| μ = μ := or_sub hm (by decide)
  have e8 : 0x800000000000000000000 ||| μ = μ := or_sub hm (by decide)
  have e9 : 0x1000000000000000000000 ||| μ = μ := or_sub hm (by decide)
  have e10 : 0x2000000000000000000000 ||| μ = μ := or_sub hm (by decide)
  have e11 : 0x4000000000000000000000 ||| μ = μ := or_sub hm (by decide)
  have e12 : 0x8000000000000000000000 ||| μ = μ := or_sub hm (by decide)
  have e13 : 0x20000000000000000000000 ||| μ = μ := or_sub hm (by decide)
  have e14 : 0x40000000000000000000000 ||| μ = μ := or_sub hm (by decide)
  have e15 : 0x62000000000004000000500 ||| μ = μ := or_sub hm (by decide)
  have e16 : 0x63000000000004000000580 ||| μ = μ := or_sub hm (by decide)
  have e17 : 0x68000000000004000000400 ||| μ = μ := or_sub hm (by decide)
  have e18 : 0x100000000000000000000000000000000000000 ||| μ = μ := or_sub hm (by decide)
  have e19 : 0x10000000000000006dccf8000000041a71f1e80 ||| μ = μ := or_sub hm (by decide)
  unfold cwWrite; simp (maxDischargeDepth := 80) only [consume_touch, setBit_touch, cwBusy_touch, cwPost_touch, perform_touch, ok_CTL_CW_STATUS_DONE, ite_touch, e12, e15, e16, e17, e19, ha, h]

theorem cwFence_touch {μ : Nat} {o s : State} (h : Touch μ o s) (hm : 0x100000000000000068000000000004000040400 ||| μ = μ := by decide) : Touch μ o (cwFence s) := by
  refine h.step hm ?_
  unfold cwFence; simp (maxDischargeDepth := 80) only [cwStatus_touch, implies_true, Touch.refl, foldl_touch, ite_touch, Nat.reduceOr]

theorem cwRow_touch {μ : Nat} {o s : State} (p : Nat → Bool) (n : Nat) (acc : Acc) (buf : Option (List Byte)) (h : Touch μ o s)
    (hm : 0x10000000000000006fccf8100000041a71f1fb0 ||| μ = μ := by decide) : Touch μ o (cwRow p n acc buf s) := by
  refine h.step hm ?_
  unfold cwRow
  split
  · next k =>
    exact bringing_touch _ _ _ (fun t => portWrite_touch _ _ _ (fun x t => cwWrite_touch _ _ _ (Touch.refl _ _) (inPages_cw k.1 (by decide) (by decide)))
      (Touch.refl _ _)) (Touch.refl _ _)
  · exact Touch.refl _ _

theorem cwAnswer_touch {μ : Nat} {o s : State} (n status : Nat) (d0 d1 d2 : Word) (h : Touch μ o s) (hm : 0x100000000000000068000000000004000040400 ||| μ = μ := by decide) : Touch μ o (cwAnswer n status d0 d1 d2 s) := by
  refine h.step hm ?_
  unfold cwAnswer; simp only [cwResult_touch, Touch.refl, ite_touch, Nat.reduceOr]

end Sys2Proof.Machine
end

