-- ==== Sys2Proof/Laws/TouchControl.lean ====
section
/-!
SUPPORT. What Keepsake, Lantern, debug, firmware, Guestbook, Strongbox, power, the Itinerary, fences, recovery, sync and interrupts can change: one lemma for each operation.
-/
namespace Sys2Proof.Machine
set_option Elab.async false
set_option linter.unusedSimpArgs false
set_option linter.unusedTactic false
set_option linter.unreachableTactic false

/-! Keepsake. -/

theorem kspSend_touch {μ : Nat} {o s : State} (c : KspCmd) (h : Touch μ o s) (hm : 4 ||| μ = μ := by decide) : Touch μ o (kspSend c s) := by
  refine h.step hm ?_
  unfold kspSend; simp only [emit_touch, Touch.refl, Nat.reduceOr, emit_touch]

theorem loaderTake_touch {μ : Nat} {o s : State} (h : Touch μ o s) (hm : 0x200000000000000000000000 ||| μ = μ := by decide) : Touch μ o (loaderTake s) := by
  refine h.step hm ?_
  unfold loaderTake; split <;> simp only [set_touch, ok_KSP_STATUS_OWNER, Touch.refl, Nat.reduceOr]

theorem portRelease_touch {μ : Nat} {o s : State} (loader : Bool) (h : Touch μ o s) (hm : 0x200000000000000000000004 ||| μ = μ := by decide) : Touch μ o (portRelease loader s) := by
  refine h.step hm ?_
  unfold portRelease; repeat' first | (simp (maxDischargeDepth := 80) only [set_touch, kspSend_touch, ok_KSP_STATUS_OWNER, Touch.refl, Nat.reduceOr]; done) | split

theorem loaderFree_touch {μ : Nat} {o s : State} (h : Touch μ o s) (hm : 0x200000000000000000000004 ||| μ = μ := by decide) : Touch μ o (loaderFree s) := by
  refine h.step hm ?_
  unfold loaderFree; split <;> simp only [portRelease_touch, Touch.refl, Nat.reduceOr]

theorem kspEnd_touch {μ : Nat} {o s : State} (seq st : Nat) (h : Touch μ o s) (hm : 0x260000000000004000008404 ||| μ = μ := by decide) : Touch μ o (kspEnd seq st s) := by
  refine h.step hm ?_
  unfold kspEnd; repeat' first | (simp (maxDischargeDepth := 80) only [portRelease_touch, post_touch, startDone_touch, ok_KSP_CMD_RESULT_SEQ, ok_KSP_CMD_START, touch_mk, Touch.refl, ite_touch, Nat.reduceOr, true_or, or_true]; done) | split

theorem kspStart_touch {μ : Nat} {o s : State} (priv : Priv) (h : Touch μ o s) (hm : 0x260000000000004000008404 ||| μ = μ := by decide) : Touch μ o (kspStart priv s) := by
  refine h.step hm ?_
  unfold kspStart; repeat' first | (simp (maxDischargeDepth := 80) only [post_touch, kspEnd_touch, flag_touch, set_touch, portRelease_touch, ok_KSP_CMD_RESULT_SEQ, ok_KSP_ERR_PROT, ok_KSP_CMD_START, touch_mk, Touch.refl, ite_touch, Nat.reduceOr, true_or, or_true]; done) | with_reducible (refine ite_touch ?_ ?_) | with_reducible (refine foldl_touch (fun _ _ => ?_) ?_) | split

theorem kspWrite_touch {μ : Nat} {o s : State} (a : Nat) (acc : Acc) (h : Touch μ o s) (ha : InPages μ a) (hm : 0x263000000000004000008584 ||| μ = μ := by decide) : Touch μ o (kspWrite a acc s) := by
  have e0 : 0x1000000000000000000000 ||| μ = μ := or_sub hm (by decide)
  have e1 : 0x2000000000000000000000 ||| μ = μ := or_sub hm (by decide)
  have e2 : 0x20000000000000000000000 ||| μ = μ := or_sub hm (by decide)
  have e3 : 0x40000000000000000000000 ||| μ = μ := or_sub hm (by decide)
  have e4 : 0x62000000000004000000500 ||| μ = μ := or_sub hm (by decide)
  have e5 : 0x63000000000004000000580 ||| μ = μ := or_sub hm (by decide)
  have e6 : 0x200000000000000000000000 ||| μ = μ := or_sub hm (by decide)
  have e7 : 0x260000000000004000008404 ||| μ = μ := or_sub hm (by decide)
  unfold kspWrite; simp (maxDischargeDepth := 80) only [consume_touch, perform_touch, kspStart_touch, ite_touch, e4, e5, e7, ha, h]

theorem kspRow_touch {μ : Nat} {o s : State} (op : Nat) (acc : Acc) (h : Touch μ o s) (hm : 0x2630000100000040000085b4 ||| μ = μ := by decide) : Touch μ o (kspRow op acc s) := by
  refine h.step hm ?_
  unfold kspRow; repeat' first | (simp (maxDischargeDepth := 80) only [portWrite_touch, kspWrite_touch, off_KSP_CMD_START, implies_true, Touch.refl, Nat.reduceOr]; done) | with_reducible (refine ite_touch ?_ ?_) | with_reducible (refine foldl_touch (fun _ _ => ?_) ?_) | split | (dsimp only; with_reducible (refine ite_touch ?_ ?_)) | (dsimp only; split) | ((try dsimp only); first | with_reducible (apply portWrite_touch) | with_reducible (apply kspWrite_touch) | with_reducible (apply touch_mk))

theorem putKspData_touch {μ : Nat} {o s : State} (bs : List Byte) (h : Touch μ o s) (hm : 0x200000000000000000000000 ||| μ = μ := by decide) : Touch μ o (putKspData bs s) := by
  refine h.step hm ?_
  unfold putKspData; simp (maxDischargeDepth := 80) only [wr_touch, ok_KSP_CMD_DATA_DATA, implies_true, Touch.refl, foldl_touch, ite_touch, Nat.reduceOr, wr_touch]

theorem kspDone_touch {μ : Nat} {o s : State} (present : Bool) (bytes : List Byte) (h : Touch μ o s) (hm : 0x261000000000004000008484 ||| μ = μ := by decide) : Touch μ o (kspDone present bytes s) := by
  refine h.step hm ?_
  unfold kspDone; repeat' first | (simp (maxDischargeDepth := 80) only [kspEnd_touch, report_touch, set_touch, putKspData_touch, ok_KSP_ERR_ABSENT, ok_csPresent, touch_mk, Touch.refl, ite_touch, Nat.reduceOr, true_or, or_true]; done) | split

theorem kspPoll_touch {μ : Nat} {o s : State} (err : Bool) (h : Touch μ o s) (hm : 0x261000000000004000008484 ||| μ = μ := by decide) : Touch μ o (kspPoll err s) := by
  refine h.step hm ?_
  unfold kspPoll; repeat' first | (simp (maxDischargeDepth := 80) only [kspEnd_touch, report_touch, ok_KSP_ERR_DEV_ERR, Touch.refl, ite_touch, Nat.reduceOr]; done) | split

theorem kspPollTimeout_touch {μ : Nat} {o s : State} (h : Touch μ o s) (hm : 0x261000000000004000008484 ||| μ = μ := by decide) : Touch μ o (kspPollTimeout s) := by
  refine h.step hm ?_
  unfold kspPollTimeout; repeat' first | (simp (maxDischargeDepth := 80) only [kspEnd_touch, report_touch, ok_KSP_ERR_TMO, Touch.refl, ite_touch, Nat.reduceOr]; done) | split

theorem kspPreempt_touch {μ : Nat} {o s : State} (h : Touch μ o s) (hm : 0x260000000000004000008404 ||| μ = μ := by decide) : Touch μ o (kspPreempt s) := by
  refine h.step hm ?_
  unfold kspPreempt; repeat' first | (simp (maxDischargeDepth := 80) only [kspEnd_touch, flag_touch, set_touch, ok_KSP_ERR_PREEMPTED, ok_KSP_STATUS_OWNER, Touch.refl, Nat.reduceOr]; done) | split

theorem kspResetRelease_touch {μ : Nat} {o s : State} (h : Touch μ o s) (hm : 0x40 ||| μ = μ := by decide) : Touch μ o (kspResetRelease s) := by
  refine h.step hm ?_
  unfold kspResetRelease; simp only [touch_mk, Touch.refl, ite_touch, Nat.reduceOr, true_or, or_true]

/-! Lantern. -/

theorem setLtn_touch {μ : Nat} {o s : State} (l : LtnSt) (h : Touch μ o s) (hm : 0x8000000000 ||| μ = μ := by decide) : Touch μ o (setLtn l s) := by
  refine h.step hm ?_
  unfold setLtn; simp only [touch_mk, Touch.refl, Nat.reduceOr, true_or, or_true]

theorem setLtnCore_touch {μ : Nat} {o s : State} (c : Nat) (k : LtnCore) (h : Touch μ o s) (hm : 0x8000000000 ||| μ = μ := by decide) : Touch μ o (setLtnCore c k s) := by
  refine h.step hm ?_
  unfold setLtnCore; simp only [setLtn_touch, Touch.refl, Nat.reduceOr]

theorem ltnLose_touch {μ : Nat} {o s : State} (n : Nat) (h : Touch μ o s) (hm : 0xe100000000000c000000480 ||| μ = μ := by decide) : Touch μ o (ltnLose n s) := by
  refine h.step hm ?_
  unfold ltnLose; simp (maxDischargeDepth := 80) only [setLtn_touch, bump_touch, record_touch, flag_touch, ok_LTN_LOST_LOST, ok_LTN_ERR_OVERFLOW, Touch.refl, ite_touch, Nat.reduceOr]

theorem ltnAdmit_touch {μ : Nat} {o s : State} (b : List Byte) (k : Nat) (h : Touch μ o s) (hm : 0xe100000000000c000000480 ||| μ = μ := by decide) : Touch μ o (ltnAdmit b k s) := by
  refine h.step hm ?_
  unfold ltnAdmit; simp only [ltnLose_touch, setLtn_touch, Touch.refl, Nat.reduceOr]

theorem ltnPut_touch {μ : Nat} {o s : State} (b : List Byte) (h : Touch μ o s) (hm : 0xe100000000000c000000480 ||| μ = μ := by decide) : Touch μ o (ltnPut b s) := by
  refine h.step hm ?_
  unfold ltnPut; split <;> simp only [ltnAdmit_touch, ltnLose_touch, setLtn_touch, Touch.refl, Nat.reduceOr]

theorem ltnFlush_touch {μ : Nat} {o s : State} (c : Nat) (h : Touch μ o s) (hm : 0xe100000000000c000000480 ||| μ = μ := by decide) : Touch μ o (ltnFlush c s) := by
  refine h.step hm ?_
  unfold ltnFlush; simp (maxDischargeDepth := 80) only [ltnPut_touch, setLtnCore_touch, Touch.refl, ite_touch, Nat.reduceOr]

theorem ltnSync_touch {μ : Nat} {o s : State} (c pc reason : Nat) (h : Touch μ o s) (hm : 0xe100000000000c000000480 ||| μ = μ := by decide) : Touch μ o (ltnSync c pc reason s) := by
  refine h.step hm ?_
  unfold ltnSync; simp (maxDischargeDepth := 80) only [ltnFlush_touch, ltnPut_touch, setLtnCore_touch, Touch.refl, Nat.reduceOr]

theorem ltnSyncAll_touch {μ : Nat} {o s : State} (reason : Nat) (h : Touch μ o s) (hm : 0xe100000000000c000000480 ||| μ = μ := by decide) : Touch μ o (ltnSyncAll reason s) := by
  refine h.step hm ?_
  unfold ltnSyncAll; simp only [ltnSync_touch, implies_true, Touch.refl, foldl_touch, Nat.reduceOr]

theorem ltnRecover_touch {μ : Nat} {o s : State} (h : Touch μ o s) (hm : 0xe100000000000c000000480 ||| μ = μ := by decide) : Touch μ o (ltnRecover s) := by
  refine h.step hm ?_
  unfold ltnRecover; simp (maxDischargeDepth := 80) only [ltnFlush_touch, ltnSyncAll_touch, ltnPut_touch, setLtn_touch, implies_true, Touch.refl, foldl_touch, ite_touch, Nat.reduceOr]

theorem ltnPeriodic_touch {μ : Nat} {o s : State} (h : Touch μ o s) (hm : 0xe100000000000c000000480 ||| μ = μ := by decide) : Touch μ o (ltnPeriodic s) := by
  refine h.step hm ?_
  unfold ltnPeriodic; simp (maxDischargeDepth := 80) only [setLtn_touch, ltnSyncAll_touch, ltnPut_touch, Touch.refl, ite_touch, Nat.reduceOr]

theorem ltnHit_touch {μ : Nat} {o s : State} (m : Nat) (h : Touch μ o s) (hm : 0x8000000000 ||| μ = μ := by decide) : Touch μ o (ltnHit m s) := by
  refine h.step hm ?_
  unfold ltnHit; simp only [setLtn_touch, Touch.refl, ite_touch, Nat.reduceOr]

theorem ltnGbk_touch {μ : Nat} {o s : State} (code cls : Nat) (h : Touch μ o s) (hm : 0x8000000000 ||| μ = μ := by decide) : Touch μ o (ltnGbk code cls s) := by
  refine h.step hm ?_
  unfold ltnGbk; simp only [ltnHit_touch, Touch.refl, Nat.reduceOr]

theorem ltnEnter_touch {μ : Nat} {o s : State} (n fired : Nat) (h : Touch μ o s) (hm : 0xe100000000000c000000480 ||| μ = μ := by decide) : Touch μ o (ltnEnter n fired s) := by
  refine h.step hm ?_
  unfold ltnEnter; simp (maxDischargeDepth := 80) only [ltnFlush_touch, ltnPut_touch, set_touch, ltnAdmit_touch, ltnLose_touch, note_touch, setLtn_touch, ok_LTN_STATUS_STATE, ok_LTN_STATUS_TRIGGERED, implies_true, Touch.refl, foldl_touch, ite_touch, Nat.reduceOr]

theorem ltnResolve_touch {μ : Nat} {o s : State} (hits : Nat) (h : Touch μ o s) (hm : 0xe100000000000c000000480 ||| μ = μ := by decide) : Touch μ o (ltnResolve hits s) := by
  refine h.step hm ?_
  unfold ltnResolve; simp (maxDischargeDepth := 80) only [setLtn_touch, ltnEnter_touch, Touch.refl, ite_touch, Nat.reduceOr]

theorem ltnCount_touch {μ : Nat} {o s : State} (c pc len next : Nat) (trap : Bool) (h : Touch μ o s) (hm : 0xe100000000000c000000480 ||| μ = μ := by decide) : Touch μ o (ltnCount c pc len next trap s) := by
  refine h.step hm ?_
  unfold ltnCount; simp (maxDischargeDepth := 80) only [setLtnCore_touch, ltnFlush_touch, ltnPut_touch, Touch.refl, ite_touch, Nat.reduceOr]

theorem ltnStep_touch {μ : Nat} {o s : State} (c pc len next : Nat) (trap : Bool) (h : Touch μ o s) (hm : 0xe100000000000c000000480 ||| μ = μ := by decide) : Touch μ o (ltnStep c pc len next trap s) := by
  refine h.step hm ?_
  unfold ltnStep; repeat' first | (simp (maxDischargeDepth := 80) only [ltnResolve_touch, setLtnCore_touch, ltnPut_touch, ltnFlush_touch, ltnSync_touch, ltnCount_touch, ltnPeriodic_touch, ltnRecover_touch, Touch.refl, ite_touch, Nat.reduceOr]; done) | with_reducible (refine ite_touch ?_ ?_) | with_reducible (refine foldl_touch (fun _ _ => ?_) ?_) | split

theorem coreExecutes_touch {μ : Nat} {o s : State} (c pc len next : Nat) (trap : Option (Word × Word)) (h : Touch μ o s) (hm : 0xe100000000000e000000480 ||| μ = μ := by decide) : Touch μ o (coreExecutes c pc len next trap s) := by
  refine h.step hm ?_
  unfold coreExecutes; simp (maxDischargeDepth := 80) only [ltnStep_touch, touch_mk, Touch.refl, ite_touch, Nat.reduceOr, true_or, or_true]

theorem ltnSleep_touch {μ : Nat} {o s : State} (mask : Nat) (h : Touch μ o s) (hm : 0xe100000000000c000000480 ||| μ = μ := by decide) : Touch μ o (ltnSleep mask s) := by
  refine h.step hm ?_
  unfold ltnSleep; simp (maxDischargeDepth := 80) only [ltnPut_touch, ltnFlush_touch, implies_true, Touch.refl, foldl_touch, ite_touch, Nat.reduceOr]

theorem ltnRelease_touch {μ : Nat} {o s : State} (mask reason : Nat) (h : Touch μ o s) (hm : 0xe100000000000c000000480 ||| μ = μ := by decide) : Touch μ o (ltnRelease mask reason s) := by
  refine h.step hm ?_
  unfold ltnRelease; simp (maxDischargeDepth := 80) only [ltnFlush_touch, setLtnCore_touch, implies_true, Touch.refl, foldl_touch, ite_touch, Nat.reduceOr]

theorem runCores_touch {μ : Nat} {o s : State} (mask : Nat) (h : Touch μ o s) (hm : 0x8000000000004800000000 ||| μ = μ := by decide) : Touch μ o (runCores mask s) := by
  refine h.step hm ?_
  unfold runCores; simp (maxDischargeDepth := 80) only [set_touch, ok_CTL_STATUS_RUNNING, touch_mk, Touch.refl, ite_touch, Nat.reduceOr, true_or, or_true]

theorem ltnArm_touch {μ : Nat} {o s : State} (h : Touch μ o s) (hm : 0xe100000000000c000000480 ||| μ = μ := by decide) : Touch μ o (ltnArm s) := by
  refine h.step hm ?_
  unfold ltnArm; simp (maxDischargeDepth := 80) only [flag_touch, ltnPut_touch, ltnFlush_touch, set_touch, setLtn_touch, ok_LTN_ERR_CFG, ok_LTN_STATUS_FROZEN, ok_LTN_STATUS_TRIGGERED, ok_LTN_STATUS_STATE, implies_true, Touch.refl, foldl_touch, ite_touch, Nat.reduceOr]

theorem ltnWrite_touch {μ : Nat} {o s : State} (a : Nat) (acc : Acc) (h : Touch μ o s) (ha : InPages μ a) (hm : 0xe300000000000c000000580 ||| μ = μ := by decide) : Touch μ o (ltnWrite a acc s) := by
  have e0 : 0x8000000000 ||| μ = μ := or_sub hm (by decide)
  have e1 : 0x1000000000000000000000 ||| μ = μ := or_sub hm (by decide)
  have e2 : 0x2000000000000000000000 ||| μ = μ := or_sub hm (by decide)
  have e3 : 0x20000000000000000000000 ||| μ = μ := or_sub hm (by decide)
  have e4 : 0x40000000000000000000000 ||| μ = μ := or_sub hm (by decide)
  have e5 : 0x61000000000004000000480 ||| μ = μ := or_sub hm (by decide)
  have e6 : 0x62000000000004000000500 ||| μ = μ := or_sub hm (by decide)
  have e7 : 0x80000000000000000000000 ||| μ = μ := or_sub hm (by decide)
  have e8 : 0xe100000000000c000000480 ||| μ = μ := or_sub hm (by decide)
  unfold ltnWrite; repeat' first | (simp (maxDischargeDepth := 80) only [perform_touch, ltnArm_touch, setLtn_touch, ltnHit_touch, undefinedField_touch, ite_touch, e0, e5, e6, e8, ha, h]; done) | split

theorem timeComparator_touch {μ : Nat} {o s : State} (x : Nat) (h : Touch μ o s) (hm : 0x8000030000 ||| μ = μ := by decide) : Touch μ o (timeComparator x s) := by
  refine h.step hm ?_
  unfold timeComparator; simp (maxDischargeDepth := 80) only [reachBase_touch, ltnHit_touch, setLtn_touch, Touch.refl, ite_touch, Nat.reduceOr]

/-! Debug. -/

theorem setDbg_touch {μ : Nat} {o s : State} (d : DbgSt) (h : Touch μ o s) (hm : 0x10000000000 ||| μ = μ := by decide) : Touch μ o (setDbg d s) := by
  refine h.step hm ?_
  unfold setDbg; simp only [touch_mk, Touch.refl, Nat.reduceOr, true_or, or_true]

theorem authLapse_touch {μ : Nat} {o s : State} (why : Nat) (h : Touch μ o s) (hm : 0x161000000000014000000480 ||| μ = μ := by decide) : Touch μ o (authLapse why s) := by
  refine h.step hm ?_
  unfold authLapse; simp (maxDischargeDepth := 80) only [set_touch, note_touch, setDbg_touch, ok_DBG_AUTH_INFO_NOT_AFTER, ok_DBG_AUTH_INFO_SCOPE, ok_DBG_AUTH_INFO_VALID, Touch.refl, ite_touch, Nat.reduceOr]

theorem authBegin_touch {μ : Nat} {o s : State} (h : Touch μ o s) (hm : 0x100000000000010000000000 ||| μ = μ := by decide) : Touch μ o (authBegin s) := by
  refine h.step hm ?_
  unfold authBegin; simp only [set_touch, setDbg_touch, ok_DBG_AUTH_CTL_START, Touch.refl, Nat.reduceOr]

theorem authWord_touch {μ : Nat} {o s : State} (w : Word) (h : Touch μ o s) (hm : 0x100000000000010000000000 ||| μ = μ := by decide) : Touch μ o (authWord w s) := by
  refine h.step hm ?_
  unfold authWord; simp (maxDischargeDepth := 80) only [setDbg_touch, set_touch, ok_DBG_AUTH_CTL_START, Touch.refl, ite_touch, Nat.reduceOr]

theorem authDone_touch {μ : Nat} {o s : State} (h : Touch μ o s) (hm : 0x161000000000014000000480 ||| μ = μ := by decide) : Touch μ o (authDone s) := by
  refine h.step hm ?_
  unfold authDone; simp (maxDischargeDepth := 80) only [setDbg_touch, note_touch, set_touch, ok_DBG_AUTH_INFO_STATUS, ok_DBG_AUTH_INFO_NOT_AFTER, ok_DBG_AUTH_INFO_SCOPE, ok_DBG_AUTH_INFO_VALID, Touch.refl, ite_touch, Nat.reduceOr]

theorem authTime_touch {μ : Nat} {o s : State} (h : Touch μ o s) (hm : 0x161000000000014000030480 ||| μ = μ := by decide) : Touch μ o (authTime s) := by
  refine h.step hm ?_
  unfold authTime; split <;> simp only [authLapse_touch, reachTb0_touch, Touch.refl, Nat.reduceOr]

theorem haltCore_touch {μ : Nat} {o s : State} (c port : Nat) (h : Touch μ o s) (hm : 0x169000000000014000000480 ||| μ = μ := by decide) : Touch μ o (haltCore c port s) := by
  refine h.step hm ?_
  unfold haltCore; simp (maxDischargeDepth := 80) only [setDbg_touch, setBit_touch, note_touch, set_touch, ok_CTL_STATUS_RUNNING, ok_DBG_CORE_CTL_HALTED, ok_DBG_CORE_CTL_HALT, Touch.refl, ite_touch, Nat.reduceOr]

theorem haltsDue_touch {μ : Nat} {o s : State} (h : Touch μ o s) (hm : 0x169000000000014000000480 ||| μ = μ := by decide) : Touch μ o (haltsDue s) := by
  refine h.step hm ?_
  unfold haltsDue; simp (maxDischargeDepth := 80) only [haltCore_touch, implies_true, Touch.refl, foldl_touch, ite_touch, Nat.reduceOr]

theorem haltOrder_touch {μ : Nat} {o s : State} (acc : Acc) (h : Touch μ o s) (hm : 0x169000000000014000000480 ||| μ = μ := by decide) : Touch μ o (haltOrder acc s) := by
  refine h.step hm ?_
  unfold haltOrder; simp (maxDischargeDepth := 80) only [haltsDue_touch, set_touch, setDbg_touch, ok_DBG_CORE_CTL_HALT, Touch.refl, ite_touch, Nat.reduceOr]

theorem resumeCore_touch {μ : Nat} {o s : State} (h : Touch μ o s) (hm : 0x1e900000000000c800000480 ||| μ = μ := by decide) : Touch μ o (resumeCore s) := by
  refine h.step hm ?_
  unfold resumeCore; simp (maxDischargeDepth := 80) only [ltnRelease_touch, runCores_touch, setBit_touch, ok_DBG_CORE_CTL_HALTED, Touch.refl, ite_touch, Nat.reduceOr]

theorem stepCore_touch {μ : Nat} {o s : State} (step : Option StepEffect) (h : Touch μ o s) (hm : 0xe100000000000e000000480 ||| μ = μ := by decide) : Touch μ o (stepCore step s) := by
  refine h.step hm ?_
  unfold stepCore; repeat' first | (simp (maxDischargeDepth := 80) only [coreExecutes_touch, touch_mk, Touch.refl, ite_touch, Nat.reduceOr, true_or, or_true]; done) | split

theorem unreg_touch {μ : Nat} {o s : State} (a : Nat) (h : Touch μ o s) (ha : InPages μ a) : Touch μ o (unreg a s) :=
  h.trans ⟨fun x e => by
    have c : x ≠ a := fun c => by subst c; rw [bit_of_or ha.1] at e; cases e
    simp only [rd, unreg, look_dropKeys_other c], fun _ => rfl, fun _ => rfl, fun _ => rfl, fun _ => rfl, fun _ => rfl, fun _ => rfl, fun _ => rfl, fun _ => rfl, fun _ => rfl, fun _ => rfl, fun _ => rfl, fun _ => rfl, fun _ => rfl, fun _ => rfl, fun _ => rfl, fun _ => rfl, fun _ => rfl, fun _ => rfl, fun _ => rfl, fun _ => rfl, fun _ => rfl, fun _ => rfl, fun _ => rfl, fun _ => rfl, fun _ => rfl, fun _ => rfl, fun _ => rfl, fun _ => rfl, fun _ => rfl, fun _ => rfl, fun _ => rfl, fun _ => rfl, fun _ => rfl, fun _ => rfl, fun _ => rfl, fun _ => rfl, fun _ => rfl, fun _ => rfl⟩

theorem coreWrite_touch {μ : Nat} {o s : State} (a : Nat) (acc : Acc) (h : Touch μ o s) (ha : InPages μ a) (hm : 0x62000000000006000000500 ||| μ = μ := by decide) : Touch μ o (coreWrite a acc s) := by
  have e0 : 0x2000000000 ||| μ = μ := or_sub hm (by decide)
  have e1 : 0x2000000000000000000000 ||| μ = μ := or_sub hm (by decide)
  have e2 : 0x20000000000000000000000 ||| μ = μ := or_sub hm (by decide)
  have e3 : 0x40000000000000000000000 ||| μ = μ := or_sub hm (by decide)
  have e4 : 0x62000000000004000000500 ||| μ = μ := or_sub hm (by decide)
  unfold coreWrite; simp (maxDischargeDepth := 80) only [perform_touch, wr_touch, unreg_touch, touch_mk, ite_touch, true_or, or_true, wr_touch, e0, e4, ha, h]

theorem dbgWrite_touch {μ : Nat} {o s : State} (step : Option StepEffect) (a : Nat) (acc : Acc) (h : Touch μ o s) (ha : InPages μ a) (hm : 0x1eb00000000001e800000580 ||| μ = μ := by decide) : Touch μ o (dbgWrite step a acc s) := by
  have e0 : 0x1000000000000000000000 ||| μ = μ := or_sub hm (by decide)
  have e1 : 0x2000000000000000000000 ||| μ = μ := or_sub hm (by decide)
  have e2 : 0x8000000000000000000000 ||| μ = μ := or_sub hm (by decide)
  have e3 : 0x20000000000000000000000 ||| μ = μ := or_sub hm (by decide)
  have e4 : 0x40000000000000000000000 ||| μ = μ := or_sub hm (by decide)
  have e5 : 0x62000000000004000000500 ||| μ = μ := or_sub hm (by decide)
  have e6 : 0x62000000000006000000500 ||| μ = μ := or_sub hm (by decide)
  have e7 : 0x80000000000000000000000 ||| μ = μ := or_sub hm (by decide)
  have e8 : 0xe100000000000e000000480 ||| μ = μ := or_sub hm (by decide)
  have e9 : 0x100000000000000000000000 ||| μ = μ := or_sub hm (by decide)
  have e10 : 0x100000000000010000000000 ||| μ = μ := or_sub hm (by decide)
  have e11 : 0x161000000000014000000480 ||| μ = μ := or_sub hm (by decide)
  have e12 : 0x169000000000014000000480 ||| μ = μ := or_sub hm (by decide)
  have e13 : 0x1e900000000000c800000480 ||| μ = μ := or_sub hm (by decide)
  unfold dbgWrite; simp (maxDischargeDepth := 80) only [coreWrite_touch, perform_touch, authLapse_touch, authBegin_touch, authWord_touch, set_touch, haltOrder_touch, stepCore_touch, resumeCore_touch, ok_DBG_CORE_CTL_HALT, ite_touch, e5, e6, e8, e9, e10, e11, e12, e13, ha, h]

theorem instruction_touch {μ : Nat} {o s : State} (c pc len next : Nat) (trap : Option (Word × Word)) (h : Touch μ o s) (hm : 0x1e900000000001e000000480 ||| μ = μ := by decide) : Touch μ o (instruction c pc len next trap s) := by
  refine h.step hm ?_
  unfold instruction; split <;> simp only [haltsDue_touch, coreExecutes_touch, Touch.refl, Nat.reduceOr]

/-! Firmware. -/

theorem fwReject_touch {μ : Nat} {o s : State} (slot status : Nat) (h : Touch μ o s) (hm : 0x69000000000004000000480 ||| μ = μ := by decide) : Touch μ o (fwReject slot status s) := by
  refine h.step hm ?_
  unfold fwReject; simp (maxDischargeDepth := 80) only [note_touch, set_touch, ok_CTL_FW_RESULT_STATUS, Touch.refl, Nat.reduceOr]

theorem releaseCores_touch {μ : Nat} {o s : State} (k : Nat) (img : List Byte) (a0 a1 : Nat) (h : Touch μ o s) (hm : 0xe900000000000e800040480 ||| μ = μ := by decide) : Touch μ o (releaseCores k img a0 a1 s) := by
  refine h.step hm ?_
  unfold releaseCores; simp (maxDischargeDepth := 80) only [setCtl_touch, ltnRelease_touch, set_touch, runCores_touch, ok_CTL_STATUS_FW_STATE, ok_CTL_STATUS_RUNNING, touch_mk, Touch.refl, Nat.reduceOr, true_or, or_true]

theorem fwStart_touch {μ : Nat} {o s : State} (slot : Nat) (img : List Byte) (h : Touch μ o s) (hm : 0x1000000000000000edccf80000000e9a75f1680 ||| μ = μ := by decide) : Touch μ o (fwStart slot img s) := by
  refine h.step hm ?_
  unfold fwStart; simp (maxDischargeDepth := 80) only [wr_touch, fwPut_touch, cwServe_touch, releaseCores_touch, ok_CTL_FW_INFO_SLOT, Touch.refl, Nat.reduceOr, wr_touch]

theorem firmwareLoad_touch {μ : Nat} {o s : State} (a b : Option (List Byte)) (h : Touch μ o s) (hm : 0x1000000000000002edccf80000000e9a75f1684 ||| μ = μ := by decide) : Touch μ o (firmwareLoad a b s) := by
  refine h.step hm ?_
  unfold firmwareLoad; repeat' first | (simp (maxDischargeDepth := 80) only [fwStart_touch, fwReject_touch, set_touch, loaderFree_touch, ok_CTL_STATUS_FW_STATE, Touch.refl, ite_touch, Nat.reduceOr]; done) | split

theorem ctlPost_touch {μ : Nat} {o s : State} (a seq status : Nat) (h : Touch μ o s) (ha : InPages μ a) (hm : 0x60000000000004000040400 ||| μ = μ := by decide) : Touch μ o (ctlPost a seq status s) := by
  have e0 : 0x40000 ||| μ = μ := or_sub hm (by decide)
  have e1 : 0x20000000000000000000000 ||| μ = μ := or_sub hm (by decide)
  have e2 : 0x40000000000000000000000 ||| μ = μ := or_sub hm (by decide)
  have e3 : 0x60000000000004000000400 ||| μ = μ := or_sub hm (by decide)
  unfold ctlPost; simp only [setCtl_touch, post_touch, ite_touch, e0, e3, ha, h]

theorem ctlConsume_touch {μ : Nat} {o s : State} (a : Nat) (acc : Acc) (h : Touch μ o s) (ha : InPages μ a) (hm : 0x63000000000004000040580 ||| μ = μ := by decide) : Touch μ o (ctlConsume a acc s) := by
  have e0 : 0x40000 ||| μ = μ := or_sub hm (by decide)
  have e1 : 0x1000000000000000000000 ||| μ = μ := or_sub hm (by decide)
  have e2 : 0x2000000000000000000000 ||| μ = μ := or_sub hm (by decide)
  have e3 : 0x20000000000000000000000 ||| μ = μ := or_sub hm (by decide)
  have e4 : 0x40000000000000000000000 ||| μ = μ := or_sub hm (by decide)
  have e5 : 0x60000000000004000040400 ||| μ = μ := or_sub hm (by decide)
  have e6 : 0x63000000000004000000580 ||| μ = μ := or_sub hm (by decide)
  unfold ctlConsume; repeat' first | (simp (maxDischargeDepth := 80) only [consume_touch, ctlPost_touch, setCtl_touch, e0, e5, e6, ha, h]; done) | with_reducible (refine ite_touch ?_ ?_) | with_reducible (refine foldl_touch (fun _ _ => ?_) ?_) | split

theorem fwPost_touch {μ : Nat} {o s : State} (seq status : Nat) (h : Touch μ o s) (hm : 0x68000000000004000040400 ||| μ = μ := by decide) : Touch μ o (fwPost seq status s) := by
  refine h.step hm ?_
  unfold fwPost; simp (maxDischargeDepth := 80) only [ctlPost_touch, set_touch, ok_CTL_FW_RESULT_SEQ, ok_CTL_FW_CMD_START, Touch.refl, Nat.reduceOr]

theorem fwStage_touch {μ : Nat} {o s : State} (h : Touch μ o s) (hm : 0x268000000000004000040400 ||| μ = μ := by decide) : Touch μ o (fwStage s) := by
  refine h.step hm ?_
  unfold fwStage; simp (maxDischargeDepth := 80) only [fwPost_touch, setCtl_touch, loaderTake_touch, set_touch, ok_CTL_FW_CMD_START, Touch.refl, ite_touch, Nat.reduceOr]

theorem fwRequest_touch {μ : Nat} {o s : State} (h : Touch μ o s) (hm : 0x8000000000000000040000 ||| μ = μ := by decide) : Touch μ o (fwRequest s) := by
  refine h.step hm ?_
  unfold fwRequest; split <;> simp only [set_touch, setCtl_touch, ok_CTL_STATUS_SWITCH_REQ, Touch.refl, Nat.reduceOr]

theorem fwFinish_touch {μ : Nat} {o s : State} (h : Touch μ o s) (hm : 0x1000000000000000edccf80000000e9a71f1680 ||| μ = μ := by decide) : Touch μ o (fwFinish s) := by
  refine h.step hm ?_
  unfold fwFinish; repeat' first | (simp (maxDischargeDepth := 80) only [set_touch, setCtl_touch, releaseCores_touch, fwPost_touch, cwServe_touch, note_touch, ok_CTL_FW_INFO_STAGED, ok_CTL_FW_INFO_SLOT, ok_CTL_FW_INFO_AREA, ok_CTL_STATUS_SWITCH_REQ, Touch.refl, ite_touch, Nat.reduceOr]; done) | split

theorem fwSwitch_touch {μ : Nat} {o s : State} (h : Touch μ o s) (hm : 0x1000000000000000edccf80000000e9a71f1680 ||| μ = μ := by decide) : Touch μ o (fwSwitch s) := by
  refine h.step hm ?_
  unfold fwSwitch; simp (maxDischargeDepth := 80) only [fwPost_touch, setCtl_touch, set_touch, fwFinish_touch, fwRequest_touch, ok_CTL_STATUS_FW_STATE, ok_CTL_FW_CMD_START, Touch.refl, ite_touch, Nat.reduceOr]

theorem fwCommand_touch {μ : Nat} {o s : State} (h : Touch μ o s) (hm : 0x1000000000000002edccf80000000e9a71f1680 ||| μ = μ := by decide) : Touch μ o (fwCommand s) := by
  refine h.step hm ?_
  unfold fwCommand; repeat' first | (simp only [fwStage_touch, fwSwitch_touch, fwPost_touch, undefinedField_touch, Touch.refl, Nat.reduceOr]; done) | split

theorem stageDone_touch {μ : Nat} {o s : State} (img : Option (List Byte)) (h : Touch μ o s) (hm : 0x269000000000004000440484 ||| μ = μ := by decide) : Touch μ o (stageDone img s) := by
  refine h.step hm ?_
  unfold stageDone; repeat' first | (simp (maxDischargeDepth := 80) only [loaderFree_touch, setCtl_touch, fwPost_touch, set_touch, fwPut_touch, note_touch, ok_CTL_FW_INFO_STAGED, Touch.refl, ite_touch, Nat.reduceOr]; done) | split

theorem switchReq_touch {μ : Nat} {o s : State} (h : Touch μ o s) (hm : 0x1000000000000000edccf80000000e9a71f1680 ||| μ = μ := by decide) : Touch μ o (switchReq s) := by
  refine h.step hm ?_
  unfold switchReq; repeat' first | (simp (maxDischargeDepth := 80) only [fwFinish_touch, fwRequest_touch, reachBase_touch, Touch.refl, ite_touch, Nat.reduceOr]; done) | split

theorem fwReady_touch {μ : Nat} {o s : State} (acc : Acc) (h : Touch μ o s) (hm : 0x1000000000000000edccf80000000e9a71f1680 ||| μ = μ := by decide) : Touch μ o (fwReady acc s) := by
  refine h.step hm ?_
  unfold fwReady; repeat' first | (simp only [fwFinish_touch, setCtl_touch, Touch.refl, Nat.reduceOr]; done) | split

theorem switchTimeout_touch {μ : Nat} {o s : State} (h : Touch μ o s) (hm : 0x10000000000000006dccf8000000041a71f1680 ||| μ = μ := by decide) : Touch μ o (switchTimeout s) := by
  refine h.step hm ?_
  unfold switchTimeout; repeat' first | (simp (maxDischargeDepth := 80) only [reachBase_touch, setCtl_touch, set_touch, cwServe_touch, note_touch, fwPost_touch, ok_CTL_STATUS_FW_STATE, ok_CTL_STATUS_SWITCH_REQ, Touch.refl, ite_touch, Nat.reduceOr]; done) | split

theorem coreHaltEcc_touch {μ : Nat} {o s : State} (c : Nat) (h : Touch μ o s) (hm : 0x1000000000000000edccf80000000e9a71f1680 ||| μ = μ := by decide) : Touch μ o (coreHaltEcc c s) := by
  refine h.step hm ?_
  unfold coreHaltEcc; simp (maxDischargeDepth := 80) only [fwFinish_touch, note_touch, setBit_touch, ok_CTL_STATUS_RUNNING, ok_CTL_STATUS_HALTED, Touch.refl, ite_touch, Nat.reduceOr]

theorem modePost_touch {μ : Nat} {o s : State} (seq status : Nat) (h : Touch μ o s) (hm : 0x68000000000004000040400 ||| μ = μ := by decide) : Touch μ o (modePost seq status s) := by
  refine h.step hm ?_
  unfold modePost; simp (maxDischargeDepth := 80) only [ctlPost_touch, set_touch, ok_CTL_MODE_RESULT_SEQ, ok_CTL_MODE_CMD_START, Touch.refl, Nat.reduceOr]

theorem modeRefuse_touch {μ : Nat} {o s : State} (seq func status : Nat) (h : Touch μ o s) (hm : 0x69000000000004000040480 ||| μ = μ := by decide) : Touch μ o (modeRefuse seq func status s) := by
  refine h.step hm ?_
  unfold modeRefuse; simp only [modePost_touch, note_touch, Touch.refl, Nat.reduceOr]

theorem modeHand_touch {μ : Nat} {o s : State} (h : Touch μ o s) (hm : 0x41000 ||| μ = μ := by decide) : Touch μ o (modeHand s) := by
  refine h.step hm ?_
  unfold modeHand; repeat' first | (simp only [handOver_touch, setCtl_touch, Touch.refl, Nat.reduceOr]; done) | split

theorem modeCommand_touch {μ : Nat} {o s : State} (acc : Acc) (h : Touch μ o s) (hm : 0x69000000000004000041480 ||| μ = μ := by decide) : Touch μ o (modeCommand acc s) := by
  refine h.step hm ?_
  unfold modeCommand; simp (maxDischargeDepth := 80) only [modePost_touch, undefinedField_touch, modeRefuse_touch, set_touch, setCtl_touch, modeHand_touch, holdUnits_touch, ok_CTL_MODE_CMD_START, Touch.refl, ite_touch, Nat.reduceOr]

theorem modeFlip_touch {μ : Nat} {o s0 : State} (buf : Option (List Byte)) (h : Touch μ o s0) (hm : 0x6b480010000004280053580 ||| μ = μ := by decide) : Touch μ o (modeFlip buf s0) := by
  refine h.step hm ?_
  unfold modeFlip; repeat' first | (simp (maxDischargeDepth := 80) only [modeHand_touch, flipMode_touch, setCtl_touch, note_touch, modePost_touch, releaseUnits_touch, Touch.refl, ite_touch, Nat.reduceOr]; done) | with_reducible (refine ite_touch ?_ ?_) | with_reducible (refine foldl_touch (fun _ _ => ?_) ?_) | split | (dsimp only; with_reducible (refine ite_touch ?_ ?_)) | (dsimp only; split)

theorem modeTimeout_touch {μ : Nat} {o s : State} (h : Touch μ o s) (hm : 0x69400000000004200071480 ||| μ = μ := by decide) : Touch μ o (modeTimeout s) := by
  refine h.step hm ?_
  unfold modeTimeout; repeat' first | (simp (maxDischargeDepth := 80) only [reachBase_touch, modeRefuse_touch, releaseUnits_touch, setCtl_touch, Touch.refl, ite_touch, Nat.reduceOr]; done) | split

theorem ctlWrite_touch {μ : Nat} {o s : State} (a : Nat) (acc : Acc) (h : Touch μ o s) (ha : InPages μ a) (hm : 0x1000000000000002efccf80000000e9a71f1780 ||| μ = μ := by decide) : Touch μ o (ctlWrite a acc s) := by
  have e0 : 0x800000000000000000 ||| μ = μ := or_sub hm (by decide)
  have e1 : 0x1000000000000000000 ||| μ = μ := or_sub hm (by decide)
  have e2 : 0x2000000000000000000 ||| μ = μ := or_sub hm (by decide)
  have e3 : 0x4000000000000000000 ||| μ = μ := or_sub hm (by decide)
  have e4 : 0x8000000000000000000 ||| μ = μ := or_sub hm (by decide)
  have e5 : 0x40000000000000000000 ||| μ = μ := or_sub hm (by decide)
  have e6 : 0x80000000000000000000 ||| μ = μ := or_sub hm (by decide)
  have e7 : 0x400000000000000000000 ||| μ = μ := or_sub hm (by decide)
  have e8 : 0x800000000000000000000 ||| μ = μ := or_sub hm (by decide)
  have e9 : 0x1000000000000000000000 ||| μ = μ := or_sub hm (by decide)
  have e10 : 0x2000000000000000000000 ||| μ = μ := or_sub hm (by decide)
  have e11 : 0x4000000000000000000000 ||| μ = μ := or_sub hm (by decide)
  have e12 : 0x8000000000000000000000 ||| μ = μ := or_sub hm (by decide)
  have e13 : 0x20000000000000000000000 ||| μ = μ := or_sub hm (by decide)
  have e14 : 0x40000000000000000000000 ||| μ = μ := or_sub hm (by decide)
  have e15 : 0x62000000000004000000500 ||| μ = μ := or_sub hm (by decide)
  have e16 : 0x63000000000004000040580 ||| μ = μ := or_sub hm (by decide)
  have e17 : 0x69000000000004000041480 ||| μ = μ := or_sub hm (by decide)
  have e18 : 0x80000000000000000000000 ||| μ = μ := or_sub hm (by decide)
  have e19 : 0x200000000000000000000000 ||| μ = μ := or_sub hm (by decide)
  have e20 : 0x100000000000000000000000000000000000000 ||| μ = μ := or_sub hm (by decide)
  have e21 : 0x1000000000000000edccf80000000e9a71f1680 ||| μ = μ := or_sub hm (by decide)
  have e22 : 0x1000000000000002edccf80000000e9a71f1680 ||| μ = μ := or_sub hm (by decide)
  unfold ctlWrite; simp (maxDischargeDepth := 80) only [ctlConsume_touch, fwReady_touch, perform_touch, fwCommand_touch, modeCommand_touch, ite_touch, e15, e16, e17, e21, e22, ha, h]

/-! Guestbook. -/

theorem setGbk_touch {μ : Nat} {o s : State} (g : GbkSt) (h : Touch μ o s) (hm : 0x80 ||| μ = μ := by decide) : Touch μ o (setGbk g s) := by
  refine h.step hm ?_
  unfold setGbk; simp only [touch_mk, Touch.refl, Nat.reduceOr, true_or, or_true]

theorem gbkMap_touch {μ : Nat} {o s : State} (f : GRec → GRec) (h : Touch μ o s) (hm : 0x80 ||| μ = μ := by decide) : Touch μ o (gbkMap f s) := by
  refine h.step hm ?_
  unfold gbkMap; simp only [setGbk_touch, Touch.refl, Nat.reduceOr]

theorem gbkFlush_touch {μ : Nat} {o s : State} (h : Touch μ o s) (hm : 0x80 ||| μ = μ := by decide) : Touch μ o (gbkFlush s) := by
  refine h.step hm ?_
  unfold gbkFlush; simp only [gbkMap_touch, Touch.refl, ite_touch, Nat.reduceOr]

theorem gbkMerge_touch {μ : Nat} {o s : State} (n : Nat) (h : Touch μ o s) (hm : 0x61000000000004000000480 ||| μ = μ := by decide) : Touch μ o (gbkMerge n s) := by
  refine h.step hm ?_
  unfold gbkMerge; simp (maxDischargeDepth := 80) only [flag_touch, gbkMap_touch, ok_GBK_ERR_REPEAT_SAT, Touch.refl, ite_touch, Nat.reduceOr]

theorem gbkNew_touch {μ : Nat} {o s : State} (r : Raised) (h : Touch μ o s) (hm : 0x1000000000000000000080 ||| μ = μ := by decide) : Touch μ o (gbkNew r s) := by
  refine h.step hm ?_
  unfold gbkNew; simp only [setGbk_touch, set_touch, ok_GBK_HEAD_HEAD, Touch.refl, Nat.reduceOr]

theorem gbkTable_touch {μ : Nat} {o s : State} (r : Raised) (n : Nat) (h : Touch μ o s) (hm : 0x80 ||| μ = μ := by decide) : Touch μ o (gbkTable r n s) := by
  refine h.step hm ?_
  unfold gbkTable; simp only [setGbk_touch, Touch.refl, Nat.reduceOr]

theorem gbkPlace_touch {μ : Nat} {o s : State} (r : Raised) (h : Touch μ o s) (hm : 0x61000000000004000000480 ||| μ = μ := by decide) : Touch μ o (gbkPlace r s) := by
  refine h.step hm ?_
  unfold gbkPlace; repeat' first | (simp only [gbkMerge_touch, gbkNew_touch, gbkTable_touch, Touch.refl, Nat.reduceOr]; done) | split

theorem capture_touch {μ : Nat} {o s : State} (r : Raised) (h : Touch μ o s) (hm : 0x800000000 ||| μ = μ := by decide) : Touch μ o (capture r s) := by
  refine h.step hm ?_
  unfold capture; simp (maxDischargeDepth := 80) only [touch_mk, implies_true, Touch.refl, foldl_touch, ite_touch, Nat.reduceOr, true_or, or_true]

theorem gbkTrigger_touch {μ : Nat} {o s : State} (r : Raised) (h : Touch μ o s) (hm : 0x61401000000004000020480 ||| μ = μ := by decide) : Touch μ o (gbkTrigger r s) := by
  refine h.step hm ?_
  unfold gbkTrigger; split <;> simp only [wbTrigger_touch, Touch.refl, ite_touch, Nat.reduceOr]

theorem gbkAccept_touch {μ : Nat} {o s : State} (h : Touch μ o s) (hm : 0x6140100000000c800020480 ||| μ = μ := by decide) : Touch μ o (gbkAccept s) := by
  refine h.step hm ?_
  unfold gbkAccept; repeat' first | (simp (maxDischargeDepth := 80) only [gbkFlush_touch, set_touch, setGbk_touch, gbkPlace_touch, ltnGbk_touch, capture_touch, gbkTrigger_touch, ok_GBK_STATUS_QUEUED, Touch.refl, ite_touch, Nat.reduceOr]; done) | split

theorem gbkStart_touch {μ : Nat} {o s : State} (h : Touch μ o s) (hm : 0x1000000000000000000080 ||| μ = μ := by decide) : Touch μ o (gbkStart s) := by
  refine h.step hm ?_
  unfold gbkStart; simp (maxDischargeDepth := 80) only [set_touch, setGbk_touch, gbkNew_touch, ok_GBK_HEAD_HEAD, ok_GBK_STATUS_SIZE_LOG, ok_GBK_STATUS_RUNNING, Touch.refl, ite_touch, Nat.reduceOr]

theorem ldgStart_touch {μ : Nat} {o s : State} (h : Touch μ o s) (hm : 0x2000000000000000000100 ||| μ = μ := by decide) : Touch μ o (ldgStart s) := by
  refine h.step hm ?_
  unfold ldgStart; simp (maxDischargeDepth := 80) only [set_touch, ok_LDG_STATUS_SIZE, ok_LDG_STATUS_RUNNING, touch_mk, Touch.refl, Nat.reduceOr, true_or, or_true]

theorem expGap_touch {μ : Nat} {o s : State} (h : Touch μ o s) (hm : 0x61000000000004000000480 ||| μ = μ := by decide) : Touch μ o (expGap s) := by
  refine h.step hm ?_
  unfold expGap; simp (maxDischargeDepth := 80) only [report_touch, set_touch, ok_GBK_ERR_EXP_GAP, ok_GBK_EXP_NEXT_NEXT, Touch.refl, ite_touch, Nat.reduceOr]

theorem gbkExport_touch {μ : Nat} {o s0 : State} (h : Touch μ o s0) (hm : 0x61400000000004000001480 ||| μ = μ := by decide) : Touch μ o (gbkExport s0) := by
  refine h.step hm ?_
  unfold gbkExport; repeat' first | (simp (maxDischargeDepth := 80) only [expGap_touch, gbkFlush_touch, memRequest_touch, cmpChecked_touch, setGbk_touch, Touch.refl, ite_touch, Nat.reduceOr]; done) | with_reducible (refine ite_touch ?_ ?_) | with_reducible (refine foldl_touch (fun _ _ => ?_) ?_) | split | (dsimp only; with_reducible (refine ite_touch ?_ ?_)) | (dsimp only; split)

theorem gbkExported_touch {μ : Nat} {o s : State} (h : Touch μ o s) (hm : 0x61000000000004000001480 ||| μ = μ := by decide) : Touch μ o (gbkExported s) := by
  refine h.step hm ?_
  unfold gbkExported; repeat' first | (simp (maxDischargeDepth := 80) only [memForget_touch, set_touch, setGbk_touch, report_touch, ok_GBK_EXP_CTL_FLUSH, ok_GBK_EXP_NEXT_NEXT, ok_GBK_EXP_WRPTR_WRPTR, ok_GBK_ERR_EXP_MEM, Touch.refl, ite_touch, Nat.reduceOr]; done) | split

theorem gbkWrite_touch {μ : Nat} {o s : State} (a : Nat) (acc : Acc) (h : Touch μ o s) (ha : InPages μ a) (hm : 0x63000000000004000000500 ||| μ = μ := by decide) : Touch μ o (gbkWrite a acc s) := by
  have e0 : 0x1000000000000000000000 ||| μ = μ := or_sub hm (by decide)
  have e1 : 0x2000000000000000000000 ||| μ = μ := or_sub hm (by decide)
  have e2 : 0x20000000000000000000000 ||| μ = μ := or_sub hm (by decide)
  have e3 : 0x40000000000000000000000 ||| μ = μ := or_sub hm (by decide)
  have e4 : 0x62000000000004000000500 ||| μ = μ := or_sub hm (by decide)
  unfold gbkWrite; simp (maxDischargeDepth := 80) only [perform_touch, set_touch, ok_GBK_EXP_CTL_FLUSH, ite_touch, e0, e4, ha, h]

/-! Strongbox. -/

theorem setSbx_touch {μ : Nat} {o s : State} (b : SbxSt) (h : Touch μ o s) (hm : 0x200 ||| μ = μ := by decide) : Touch μ o (setSbx b s) := by
  refine h.step hm ?_
  unfold setSbx; simp only [touch_mk, Touch.refl, Nat.reduceOr, true_or, or_true]

theorem verdictAck_touch {μ : Nat} {o s : State} (q : Nat) (h : Touch μ o s) (hm : 0x4000000000000000000200 ||| μ = μ := by decide) : Touch μ o (verdictAck q s) := by
  refine h.step hm ?_
  unfold verdictAck; simp only [set_touch, setSbx_touch, ok_SBX_VSTORE_COUNT, Touch.refl, Nat.reduceOr]

theorem sbxWrite_touch {μ : Nat} {o s : State} (a : Nat) (acc : Acc) (h : Touch μ o s) (ha : InPages μ a) (hm : 0x66000000000004000000700 ||| μ = μ := by decide) : Touch μ o (sbxWrite a acc s) := by
  have e0 : 0x2000000000000000000000 ||| μ = μ := or_sub hm (by decide)
  have e1 : 0x4000000000000000000000 ||| μ = μ := or_sub hm (by decide)
  have e2 : 0x4000000000000000000200 ||| μ = μ := or_sub hm (by decide)
  have e3 : 0x20000000000000000000000 ||| μ = μ := or_sub hm (by decide)
  have e4 : 0x40000000000000000000000 ||| μ = μ := or_sub hm (by decide)
  have e5 : 0x62000000000004000000500 ||| μ = μ := or_sub hm (by decide)
  unfold sbxWrite; split <;> simp only [perform_touch, verdictAck_touch, e2, e5, ha, h]

theorem pfwLadder_touch {μ : Nat} {o s : State} (h : Touch μ o s) (hm : 0x61000000000004000000480 ||| μ = μ := by decide) : Touch μ o (pfwLadder s) := by
  refine h.step hm ?_
  unfold pfwLadder; split <;> simp only [note_touch, tickFree_touch, Touch.refl, Nat.reduceOr, tickFree_touch]

theorem drainQueues_touch {μ : Nat} {o s : State} (n : Nat) (h : Touch μ o s) (hm : 0x6340100000000c800020580 ||| μ = μ := by decide) : Touch μ o (drainQueues n s) := by
  have aux {o s : State} (n : Nat) (h : Touch 0x6340100000000c800020580 o s) : Touch 0x6340100000000c800020580 o (drainQueues n s) := by
    induction n generalizing s with
    | zero => exact h
    | succ n ih =>
      unfold drainQueues
      split
      · exact h
      · exact ih (ledgerPass_touch (gbkAccept_touch h))
  exact h.step hm (aux _ (Touch.refl 0x6340100000000c800020580 _))

theorem saveStart_touch {μ : Nat} {o s : State} (a b : List Byte) (h : Touch μ o s) (hm : 0x26740100000000c8000287c4 ||| μ = μ := by decide) : Touch μ o (saveStart a b s) := by
  refine h.step hm ?_
  unfold saveStart; simp (maxDischargeDepth := 80) only [kspPreempt_touch, set_touch, drainQueues_touch, setSbx_touch, ok_SBX_STATUS_NEXT_SLOT, touch_mk, Touch.refl, ite_touch, Nat.reduceOr, true_or, or_true]

theorem dropEntry_touch {μ : Nat} {o s : State} (h : Touch μ o s) (hm : 0x40000000000004000000000 ||| μ = μ := by decide) : Touch μ o (dropEntry s) := by
  refine h.step hm ?_
  unfold dropEntry; simp only [set_touch, ok_PWR_STATUS_PHASE, touch_mk, Touch.refl, Nat.reduceOr, true_or, or_true]

theorem powerFail_touch {μ : Nat} {o s : State} (a b : List Byte) (h : Touch μ o s) (hm : 0x26740100000000c8000287c4 ||| μ = μ := by decide) : Touch μ o (powerFail a b s) := by
  refine h.step hm ?_
  unfold powerFail; simp (maxDischargeDepth := 80) only [set_touch, pfwLadder_touch, saveStart_touch, dropEntry_touch, lastWake_touch, ok_PHU_STATUS_SAVE_PG, ok_PHU_STATUS_PFW_N, Touch.refl, ite_touch, Nat.reduceOr]

theorem savePage_touch {μ : Nat} {o s : State} (slot : Nat) (b : List Byte) (p : Nat) (h : Touch μ o s) (hm : 4 ||| μ = μ := by decide) : Touch μ o (savePage slot b s p) := by
  refine h.step hm ?_
  unfold savePage; simp only [emit_touch, Touch.refl, Nat.reduceOr, emit_touch]

theorem saveDone_touch {μ : Nat} {o s : State} (h : Touch μ o s) (hm : 0x44000000000000000008244 ||| μ = μ := by decide) : Touch μ o (saveDone s) := by
  refine h.step hm ?_
  unfold saveDone; repeat' first | (simp (maxDischargeDepth := 80) only [set_touch, savePage_touch, setSbx_touch, ok_PHU_STATUS_SAVE_DONE, ok_SBX_STATUS_LAST_SEQ, ok_SBX_STATUS_NEXT_SLOT, touch_mk, implies_true, Touch.refl, foldl_touch, Nat.reduceOr, true_or, or_true]; done) | split

theorem savePgFall_touch {μ : Nat} {o s : State} (h : Touch μ o s) (hm : 0x40000000000000000008200 ||| μ = μ := by decide) : Touch μ o (savePgFall s) := by
  refine h.step hm ?_
  unfold savePgFall; simp (maxDischargeDepth := 80) only [set_touch, setSbx_touch, ok_PHU_STATUS_SAVE_PG, touch_mk, Touch.refl, ite_touch, Nat.reduceOr, true_or, or_true]

theorem restoreStart_touch {μ : Nat} {o s : State} (h : Touch μ o s) (hm : 0x204000000000000000000200 ||| μ = μ := by decide) : Touch μ o (restoreStart s) := by
  refine h.step hm ?_
  unfold restoreStart; simp (maxDischargeDepth := 80) only [set_touch, setSbx_touch, ok_SBX_STATUS_RESTORE, ok_KSP_STATUS_OWNER, Touch.refl, ite_touch, Nat.reduceOr]

theorem restoreDone_touch {μ : Nat} {o s : State} (a b : List Byte) (h : Touch μ o s) (hm : 0x267000000000004000000784 ||| μ = μ := by decide) : Touch μ o (restoreDone a b s) := by
  refine h.step hm ?_
  unfold restoreDone; repeat' first | (simp (maxDischargeDepth := 80) only [portRelease_touch, note_touch, report_touch, set_touch, setSbx_touch, ledger_touch, ok_KSP_ERR_ABSENT, ok_KSP_STATUS_CS0_PRESENT, ok_SBX_STATUS_RESTORE, ok_SBX_STATUS_LAST_SEQ, ok_SBX_STATUS_NEXT_SLOT, ok_SBX_STATUS_RESTORED_SLOT, Touch.refl, ite_touch, Nat.reduceOr]; done) | with_reducible (refine ite_touch ?_ ?_) | with_reducible (refine foldl_touch (fun _ _ => ?_) ?_) | split

/-! Power. -/

theorem setPwr_touch {μ : Nat} {o s : State} (p : PwrSt) (h : Touch μ o s) (hm : 0x4000000000 ||| μ = μ := by decide) : Touch μ o (setPwr p s) := by
  refine h.step hm ?_
  unfold setPwr; simp only [touch_mk, Touch.refl, Nat.reduceOr, true_or, or_true]

theorem pwrPost_touch {μ : Nat} {o s : State} (seq rest : Nat) (h : Touch μ o s) (hm : 0x60000000000004000000400 ||| μ = μ := by decide) : Touch μ o (pwrPost seq rest s) := by
  refine h.step hm ?_
  unfold pwrPost; simp (maxDischargeDepth := 80) only [set_touch, setPwr_touch, post_touch, ok_PWR_CMD_START, ok_PWR_RESULT_SEQ, Touch.refl, ite_touch, Nat.reduceOr]

theorem pwrConsume_touch {μ : Nat} {o s : State} (acc : Acc) (h : Touch μ o s) (hm : 0x63000000000004000000580 ||| μ = μ := by decide) : Touch μ o (pwrConsume acc s) := by
  refine h.step hm ?_
  unfold pwrConsume; repeat' first | (simp (maxDischargeDepth := 80) only [consume_touch, pwrPost_touch, setPwr_touch, ok_PWR_RESULT_SEQ, Touch.refl, ite_touch, Nat.reduceOr]; done) | with_reducible (refine ite_touch ?_ ?_) | with_reducible (refine foldl_touch (fun _ _ => ?_) ?_) | split | (dsimp only; with_reducible (refine ite_touch ?_ ?_)) | (dsimp only; split)

theorem phase_touch {μ : Nat} {o s : State} (n : Nat) (h : Touch μ o s) (hm : 0x40000000000000000000000 ||| μ = μ := by decide) : Touch μ o (phase n s) := by
  refine h.step hm ?_
  unfold phase; simp only [set_touch, ok_PWR_STATUS_PHASE, Touch.refl, Nat.reduceOr]

theorem holdCores_touch {μ : Nat} {o s : State} (h : Touch μ o s) (hm : 0xe900000000000c000000480 ||| μ = μ := by decide) : Touch μ o (holdCores s) := by
  refine h.step hm ?_
  unfold holdCores; simp (maxDischargeDepth := 80) only [set_touch, setPwr_touch, ltnSleep_touch, ok_CTL_STATUS_RUNNING, Touch.refl, Nat.reduceOr]

theorem startCores_touch {μ : Nat} {o s : State} (h : Touch μ o s) (hm : 0xe900000000000c800000480 ||| μ = μ := by decide) : Touch μ o (startCores s) := by
  refine h.step hm ?_
  unfold startCores; simp (maxDischargeDepth := 80) only [runCores_touch, setPwr_touch, ltnRelease_touch, Touch.refl, Nat.reduceOr]

theorem entryEnd_touch {μ : Nat} {o s : State} (h : Touch μ o s) (hm : 0x1000000000000000edccf80000000cba71f1680 ||| μ = μ := by decide) : Touch μ o (entryEnd s) := by
  refine h.step hm ?_
  unfold entryEnd; simp (maxDischargeDepth := 80) only [releaseUnits_touch, phase_touch, setPwr_touch, cwServe_touch, startCores_touch, Touch.refl, ite_touch, Nat.reduceOr]

theorem entryFail_touch {μ : Nat} {o s : State} (f : Field) (status page reason : Nat) (e : PwrEntry) (h : Touch μ o s) (hf : InPages μ f.addr) (hm : 0x1000000000000000edccf80000000cba71f1680 ||| μ = μ := by decide) : Touch μ o (entryFail f status page reason e s) := by
  have e0 : 0x800000000000000000 ||| μ = μ := or_sub hm (by decide)
  have e1 : 0x1000000000000000000 ||| μ = μ := or_sub hm (by decide)
  have e2 : 0x2000000000000000000 ||| μ = μ := or_sub hm (by decide)
  have e3 : 0x4000000000000000000 ||| μ = μ := or_sub hm (by decide)
  have e4 : 0x8000000000000000000 ||| μ = μ := or_sub hm (by decide)
  have e5 : 0x40000000000000000000 ||| μ = μ := or_sub hm (by decide)
  have e6 : 0x80000000000000000000 ||| μ = μ := or_sub hm (by decide)
  have e7 : 0x400000000000000000000 ||| μ = μ := or_sub hm (by decide)
  have e8 : 0x800000000000000000000 ||| μ = μ := or_sub hm (by decide)
  have e9 : 0x1000000000000000000000 ||| μ = μ := or_sub hm (by decide)
  have e10 : 0x4000000000000000000000 ||| μ = μ := or_sub hm (by decide)
  have e11 : 0x8000000000000000000000 ||| μ = μ := or_sub hm (by decide)
  have e12 : 0x20000000000000000000000 ||| μ = μ := or_sub hm (by decide)
  have e13 : 0x40000000000000000000000 ||| μ = μ := or_sub hm (by decide)
  have e14 : 0x60000000000004000000400 ||| μ = μ := or_sub hm (by decide)
  have e15 : 0x61000000000004000000480 ||| μ = μ := or_sub hm (by decide)
  have e16 : 0x80000000000000000000000 ||| μ = μ := or_sub hm (by decide)
  have e17 : 0x100000000000000000000000000000000000000 ||| μ = μ := or_sub hm (by decide)
  have e18 : 0x1000000000000000edccf80000000cba71f1680 ||| μ = μ := or_sub hm (by decide)
  unfold entryFail; simp (maxDischargeDepth := 80) only [report_touch, entryEnd_touch, pwrPost_touch, ite_touch, e14, e15, e18, hf, h]

theorem entryAbort_touch {μ : Nat} {o s : State} (e : PwrEntry) (h : Touch μ o s) (hm : 0x1000000000000000edccf80000000cba71f1680 ||| μ = μ := by decide) : Touch μ o (entryAbort e s) := by
  refine h.step hm ?_
  unfold entryAbort; repeat' first | (simp (maxDischargeDepth := 80) only [note_touch, flag_touch, lastWake_touch, entryEnd_touch, pwrPost_touch, setPwr_touch, ok_PWR_ERR_ABORTED, Touch.refl, ite_touch, Nat.reduceOr]; done) | split

theorem gate_touch {μ : Nat} {o s : State} (e : PwrEntry) (h : Touch μ o s) (hm : 0x26740104000000c8000687c4 ||| μ = μ := by decide) : Touch μ o (gate e s) := by
  refine h.step hm ?_
  unfold gate; simp (maxDischargeDepth := 80) only [saveStart_touch, phase_touch, setPwr_touch, setCtl_touch, set_touch, bump_touch, pwrPost_touch, note_touch, ok_PWR_STATUS_STATE, ok_PWR_STATUS_ENTRIES, ok_CLK_GATE_STATUS_TREE, ok_CLK_GATE_STATUS_ARRAYS, ok_CLK_GATE_STATUS_CMP, ok_PHU_STATUS_RET_EN, ok_CLK_GATE_STATUS_SCLK, ok_CLK_GATE_STATUS_FCLK_FAB, Touch.refl, ite_touch, Nat.reduceOr]

theorem holdDone_touch {μ : Nat} {o s : State} (h : Touch μ o s) (hm : 0x1000000000000002efccf84000000cba71f97c4 ||| μ = μ := by decide) : Touch μ o (holdDone s) := by
  refine h.step hm ?_
  unfold holdDone; repeat' first | (simp only [entryAbort_touch, gate_touch, Touch.refl, ite_touch, Nat.reduceOr]; done) | split

theorem beginHold_touch {μ : Nat} {o s : State} (e : PwrEntry) (h : Touch μ o s) (hm : 0xe900000000000c000040480 ||| μ = μ := by decide) : Touch μ o (beginHold e s) := by
  refine h.step hm ?_
  unfold beginHold; simp (maxDischargeDepth := 80) only [phase_touch, holdUnits_touch, holdCores_touch, Touch.refl, ite_touch, Nat.reduceOr]

theorem ask_touch {μ : Nat} {o s : State} (last : Bool) (h : Touch μ o s) (hm : 0x1000000000000000edccf80000000cba71f1680 ||| μ = μ := by decide) : Touch μ o (ask last s) := by
  refine h.step hm ?_
  unfold ask; repeat' first | (simp (maxDischargeDepth := 80) only [entryFail_touch, setPwr_touch, entryAbort_touch, beginHold_touch, ok_PWR_ERR_REFUSED, ok_PWR_ERR_TIMEOUT, Touch.refl, ite_touch, Nat.reduceOr]; done) | split

theorem askCores_touch {μ : Nat} {o s : State} (target : Nat) (h : Touch μ o s) (hm : 0x60000000000004000000400 ||| μ = μ := by decide) : Touch μ o (askCores target s) := by
  refine h.step hm ?_
  unfold askCores; split <;> simp only [raiseIrq_touch, setPwr_touch, Touch.refl, Nat.reduceOr]

theorem pwrCommand_touch {μ : Nat} {o s : State} (h : Touch μ o s) (hm : 0x1000000000000000edccf80000000cba71f1680 ||| μ = μ := by decide) : Touch μ o (pwrCommand s) := by
  refine h.step hm ?_
  unfold pwrCommand; simp (maxDischargeDepth := 80) only [pwrPost_touch, undefinedField_touch, wake_touch, set_touch, setPwr_touch, phase_touch, ask_touch, askCores_touch, ok_PWR_CMD_START, Touch.refl, ite_touch, Nat.reduceOr]

theorem askRetry_touch {μ : Nat} {o s : State} (h : Touch μ o s) (hm : 0x1000000000000000edccf80000000cba71f1680 ||| μ = μ := by decide) : Touch μ o (askRetry s) := by
  refine h.step hm ?_
  unfold askRetry; repeat' first | (simp only [ask_touch, reachBase_touch, Touch.refl, Nat.reduceOr]; done) | split

theorem entryTimeout_touch {μ : Nat} {o s : State} (h : Touch μ o s) (hm : 0x1000000000000000edccf80000000cba71f1680 ||| μ = μ := by decide) : Touch μ o (entryTimeout s) := by
  refine h.step hm ?_
  unfold entryTimeout; repeat' first | (simp only [ask_touch, reachBase_touch, Touch.refl, Nat.reduceOr]; done) | split

theorem coreAck_touch {μ : Nat} {o s : State} (acc : Acc) (h : Touch μ o s) (hm : 0x4000000000 ||| μ = μ := by decide) : Touch μ o (coreAck acc s) := by
  refine h.step hm ?_
  unfold coreAck; split <;> simp only [setPwr_touch, Touch.refl, ite_touch, Nat.reduceOr]

theorem wakeTimer_touch {μ : Nat} {o s : State} (h : Touch μ o s) (hm : 0x40000000000004000030000 ||| μ = μ := by decide) : Touch μ o (wakeTimer s) := by
  refine h.step hm ?_
  unfold wakeTimer; simp (maxDischargeDepth := 80) only [wake_touch, reachBase_touch, Touch.refl, ite_touch, Nat.reduceOr]

theorem stepPost_touch {μ : Nat} {o s : State} (ans reason : Nat) (h : Touch μ o s) (hm : 0x60000000000004000000400 ||| μ = μ := by decide) : Touch μ o (stepPost ans reason s) := by
  refine h.step hm ?_
  unfold stepPost; simp (maxDischargeDepth := 80) only [post_touch, set_touch, ok_PWR_STEP_RESULT_SEQ, ok_PWR_STEP_START, Touch.refl, Nat.reduceOr]

theorem stepAsk_touch {μ : Nat} {o s : State} (page t : Nat) (h : Touch μ o s) (hm : 0x1000000000000000edccf80000000cba71f1680 ||| μ = μ := by decide) : Touch μ o (stepAsk page t s) := by
  refine h.step hm ?_
  unfold stepAsk; repeat' first | (simp (maxDischargeDepth := 80) only [setPwr_touch, phase_touch, askCores_touch, stepPost_touch, entryFail_touch, ok_PWR_ERR_REFUSED, Touch.refl, ite_touch, Nat.reduceOr]; done) | with_reducible (refine ite_touch ?_ ?_) | with_reducible (refine foldl_touch (fun _ _ => ?_) ?_) | split | (dsimp only; with_reducible (refine ite_touch ?_ ?_)) | (dsimp only; split)

theorem stepHold_touch {μ : Nat} {o s : State} (page t : Nat) (h : Touch μ o s) (hm : 0x1000000000000000edccf80000000cba71f1680 ||| μ = μ := by decide) : Touch μ o (stepHold page t s) := by
  refine h.step hm ?_
  unfold stepHold; simp (maxDischargeDepth := 80) only [stepPost_touch, entryAbort_touch, phase_touch, setPwr_touch, holdUnits_touch, holdCores_touch, Touch.refl, ite_touch, Nat.reduceOr]

theorem stepGate_touch {μ : Nat} {o s : State} (t : Nat) (h : Touch μ o s) (hm : 0x1000000000000002efccf84000000cba71f97c4 ||| μ = μ := by decide) : Touch μ o (stepGate t s) := by
  refine h.step hm ?_
  unfold stepGate; simp (maxDischargeDepth := 80) only [stepPost_touch, entryAbort_touch, gate_touch, Touch.refl, ite_touch, Nat.reduceOr]

theorem stepRelease_touch {μ : Nat} {o s : State} (page : Nat) (h : Touch μ o s) (hm : 0x1000000000000000edccf80000000cba71f1680 ||| μ = μ := by decide) : Touch μ o (stepRelease page s) := by
  refine h.step hm ?_
  unfold stepRelease; simp (maxDischargeDepth := 80) only [cmpKick_touch, setCtl_touch, cwServe_touch, startCores_touch, phase_touch, setPwr_touch, stepPost_touch, Touch.refl, ite_touch, Nat.reduceOr]

theorem pwrStep_touch {μ : Nat} {o s : State} (h : Touch μ o s) (hm : 0x1000000000000002efccf84000000cba71f97c4 ||| μ = μ := by decide) : Touch μ o (pwrStep s) := by
  refine h.step hm ?_
  unfold pwrStep; repeat' first | (simp (maxDischargeDepth := 80) only [stepPost_touch, undefinedField_touch, stepAsk_touch, stepHold_touch, stepGate_touch, stepRelease_touch, Touch.refl, Nat.reduceOr]; done) | with_reducible (refine ite_touch ?_ ?_) | with_reducible (refine foldl_touch (fun _ _ => ?_) ?_) | split

theorem pwrWrite_touch {μ : Nat} {o s : State} (a : Nat) (acc : Acc) (h : Touch μ o s) (ha : InPages μ a) (hm : 0x1000000000000002efccf84000000cba71f97c4 ||| μ = μ := by decide) : Touch μ o (pwrWrite a acc s) := by
  have e0 : 0x4000000000 ||| μ = μ := or_sub hm (by decide)
  have e1 : 0x40000000000000000 ||| μ = μ := or_sub hm (by decide)
  have e2 : 0x800000000000000000 ||| μ = μ := or_sub hm (by decide)
  have e3 : 0x1000000000000000000 ||| μ = μ := or_sub hm (by decide)
  have e4 : 0x2000000000000000000 ||| μ = μ := or_sub hm (by decide)
  have e5 : 0x4000000000000000000 ||| μ = μ := or_sub hm (by decide)
  have e6 : 0x8000000000000000000 ||| μ = μ := or_sub hm (by decide)
  have e7 : 0x40000000000000000000 ||| μ = μ := or_sub hm (by decide)
  have e8 : 0x80000000000000000000 ||| μ = μ := or_sub hm (by decide)
  have e9 : 0x400000000000000000000 ||| μ = μ := or_sub hm (by decide)
  have e10 : 0x800000000000000000000 ||| μ = μ := or_sub hm (by decide)
  have e11 : 0x1000000000000000000000 ||| μ = μ := or_sub hm (by decide)
  have e12 : 0x2000000000000000000000 ||| μ = μ := or_sub hm (by decide)
  have e13 : 0x4000000000000000000000 ||| μ = μ := or_sub hm (by decide)
  have e14 : 0x8000000000000000000000 ||| μ = μ := or_sub hm (by decide)
  have e15 : 0x20000000000000000000000 ||| μ = μ := or_sub hm (by decide)
  have e16 : 0x40000000000000000000000 ||| μ = μ := or_sub hm (by decide)
  have e17 : 0x62000000000004000000500 ||| μ = μ := or_sub hm (by decide)
  have e18 : 0x63000000000004000000580 ||| μ = μ := or_sub hm (by decide)
  have e19 : 0x80000000000000000000000 ||| μ = μ := or_sub hm (by decide)
  have e20 : 0x200000000000000000000000 ||| μ = μ := or_sub hm (by decide)
  have e21 : 0x100000000000000000000000000000000000000 ||| μ = μ := or_sub hm (by decide)
  have e22 : 0x1000000000000000edccf80000000cba71f1680 ||| μ = μ := or_sub hm (by decide)
  have e23 : 0x1000000000000002efccf84000000cba71f97c4 ||| μ = μ := or_sub hm (by decide)
  unfold pwrWrite; simp (maxDischargeDepth := 80) only [pwrConsume_touch, consume_touch, coreAck_touch, perform_touch, pwrCommand_touch, pwrStep_touch, ite_touch, e0, e17, e18, e22, e23, ha, h]

theorem stepWrite_touch {μ : Nat} {o s : State} (act : Nat) (acc : Acc) (h : Touch μ o s) (hm : 0x1000000000000002efccf85000000cba71f97f4 ||| μ = μ := by decide) : Touch μ o (stepWrite act acc s) := by
  refine h.step hm ?_
  unfold stepWrite; repeat' first | (simp (maxDischargeDepth := 80) only [portWrite_touch, pwrWrite_touch, off_PWR_STEP_START, implies_true, Touch.refl, Nat.reduceOr]; done) | with_reducible (refine ite_touch ?_ ?_) | with_reducible (refine foldl_touch (fun _ _ => ?_) ?_) | split | (dsimp only; with_reducible (refine ite_touch ?_ ?_)) | (dsimp only; split) | ((try dsimp only); first | with_reducible (apply portWrite_touch) | with_reducible (apply pwrWrite_touch) | with_reducible (apply touch_mk))

/-! Itinerary. -/

theorem setItnState_touch {μ : Nat} {o s : State} (n : Nat) (h : Touch μ o s) (hm : 0x20000000000000000 ||| μ = μ := by decide) : Touch μ o (setItnState n s) := by
  refine h.step hm ?_
  unfold setItnState; simp only [set_touch, ok_ITN_STATUS_STATE, Touch.refl, Nat.reduceOr]

theorem setOvlState_touch {μ : Nat} {o s : State} (n : Nat) (h : Touch μ o s) (hm : 0x20000000000000000 ||| μ = μ := by decide) : Touch μ o (setOvlState n s) := by
  refine h.step hm ?_
  unfold setOvlState; simp only [set_touch, ok_ITN_OVL_STATUS_STATE, Touch.refl, Nat.reduceOr]

theorem itnReject_touch {μ : Nat} {o s : State} (code : Nat) (h : Touch μ o s) (hm : 0x20000000000000000 ||| μ = μ := by decide) : Touch μ o (itnReject code s) := by
  refine h.step hm ?_
  unfold itnReject; simp only [set_touch, ok_ITN_STATUS_ERR_CODE, Touch.refl, Nat.reduceOr]

theorem waitPush_touch {μ : Nat} {o s : State} (h : Touch μ o s) (hm : 0x200000020000000000800004 ||| μ = μ := by decide) : Touch μ o (waitPush s) := by
  refine h.step hm ?_
  unfold waitPush; simp (maxDischargeDepth := 80) only [setItnState_touch, setItn_touch, loaderFree_touch, Touch.refl, Nat.reduceOr]

theorem loadStart_touch {μ : Nat} {o s : State} (present : Bool) (a b : Option (List Byte)) (h : Touch μ o s) (hm : 0x261000020000004000830484 ||| μ = μ := by decide) : Touch μ o (loadStart present a b s) := by
  refine h.step hm ?_
  unfold loadStart; simp (maxDischargeDepth := 80) only [reachBase_touch, set_touch, report_touch, waitPush_touch, setItnState_touch, setItn_touch, loaderTake_touch, ok_KSP_STATUS_CS1_PRESENT, ok_KSP_ERR_ABSENT, Touch.refl, ite_touch, Nat.reduceOr]

theorem acceptBase_touch {μ : Nat} {o s : State} (i : BaseImg) (h : Touch μ o s) (hm : 0x20000000000800000 ||| μ = μ := by decide) : Touch μ o (acceptBase i s) := by
  refine h.step hm ?_
  unfold acceptBase; simp only [setItnState_touch, setItn_touch, Touch.refl, Nat.reduceOr]

theorem slotDone_touch {μ : Nat} {o s : State} (img : Option (List Byte)) (h : Touch μ o s) (hm : 0x261000020000004000800484 ||| μ = μ := by decide) : Touch μ o (slotDone img s) := by
  refine h.step hm ?_
  unfold slotDone; repeat' first | (simp (maxDischargeDepth := 80) only [acceptBase_touch, setItn_touch, noteLater_touch, flag_touch, itnReject_touch, waitPush_touch, ok_ITN_ERR_BOOT_A_FAILED, ok_ITN_ERR_BOOT_B_FAILED, Touch.refl, ite_touch, Nat.reduceOr]; done) | split

theorem showStore_touch {μ : Nat} {o s : State} (h : Touch μ o s) (hm : 0x20000000000000000 ||| μ = μ := by decide) : Touch μ o (showStore s) := by
  refine h.step hm ?_
  unfold showStore; simp only [set_touch, ok_ITN_OVL_STATUS_STORE_USED, Touch.refl, Nat.reduceOr]

theorem showImage_touch {μ : Nat} {o s : State} (i : BaseImg) (h : Touch μ o s) (hm : 0x20000000000000000 ||| μ = μ := by decide) : Touch μ o (showImage i s) := by
  refine h.step hm ?_
  unfold showImage; simp (maxDischargeDepth := 80) only [wr_touch, set_touch, ok_ITN_IMAGE_INFO_SEQUENCE, ok_ITN_DIGEST_DIGEST, ok_ITN_STATUS_BOOT_SLOT, ok_ITN_SIGNER_KEY_ID, implies_true, Touch.refl, foldl_touch, Nat.reduceOr, wr_touch]

theorem storeCheck_touch {μ : Nat} {o s : State} (digest : List Byte) (h : Touch μ o s) (hm : 0x61000000000004000800480 ||| μ = μ := by decide) : Touch μ o (storeCheck digest s) := by
  refine h.step hm ?_
  unfold storeCheck; split <;> simp only [noteLater_touch, setItn_touch, Touch.refl, Nat.reduceOr]

theorem applyAll_touch {μ : Nat} {o s : State} (p : Nat) (cfg : List (Nat × List Byte)) (h : Touch μ o s) (hm : 0x63cb97500000040029a15c0 ||| μ = μ := by decide) : Touch μ o (applyAll p cfg s) := by
  refine h.step hm ?_
  unfold applyAll; simp (maxDischargeDepth := 80) only [applyClock_touch, applyStructure_touch, setItn_touch, gbkStart_touch, ldgStart_touch, unitDefaults_touch, applyIdentity_touch, applyInstance_touch, applyDomains_touch, fillBuckets_touch, set_touch, ok_GLB_FUNC_MODE_MODE, implies_true, Touch.refl, foldl_touch, Nat.reduceOr]

theorem applyDone_touch {μ : Nat} {o s : State} (h : Touch μ o s) (hm : 0x26bcb97700000040029a15c0 ||| μ = μ := by decide) : Touch μ o (applyDone s) := by
  refine h.step hm ?_
  unfold applyDone; repeat' first | (simp (maxDischargeDepth := 80) only [storeCheck_touch, setItn_touch, showImage_touch, applyAll_touch, ledger_touch, showStore_touch, set_touch, note_touch, loaderTake_touch, setItnState_touch, ok_ITN_OVL_STATUS_PENDING_WARM, ok_ITN_OVL_STATUS_LAST_SEQ, ok_CTL_STATUS_FW_STATE, implies_true, Touch.refl, foldl_touch, ite_touch, Nat.reduceOr]; done) | split

theorem ovlReject_touch {μ : Nat} {o s : State} (code : Nat) (h : Touch μ o s) (hm : 0x61000020000004000000480 ||| μ = μ := by decide) : Touch μ o (ovlReject code s) := by
  refine h.step hm ?_
  unfold ovlReject; simp only [report_touch, itnReject_touch, ok_ITN_ERR_OVL_REFUSED, Touch.refl, Nat.reduceOr]

theorem pushRefuse_touch {μ : Nat} {o s : State} (kind code : Nat) (h : Touch μ o s) (hm : 0x61000020000004000000480 ||| μ = μ := by decide) : Touch μ o (pushRefuse kind code s) := by
  refine h.step hm ?_
  unfold pushRefuse; simp (maxDischargeDepth := 80) only [flag_touch, startDone_touch, ovlReject_touch, itnReject_touch, ok_ITN_ERR_PUSH_REFUSED, ok_ITN_PUSH_CTL_START, Touch.refl, ite_touch, Nat.reduceOr]

theorem pushBegin_touch {μ : Nat} {o s : State} (acc : Acc) (h : Touch μ o s) (hm : 0x61000020000004000800480 ||| μ = μ := by decide) : Touch μ o (pushBegin acc s) := by
  refine h.step hm ?_
  unfold pushBegin; simp (maxDischargeDepth := 80) only [pushRefuse_touch, set_touch, setItn_touch, setOvlState_touch, setItnState_touch, ok_ITN_PUSH_CTL_START, Touch.refl, ite_touch, Nat.reduceOr]

theorem pushDrop_touch {μ : Nat} {o s : State} (h : Touch μ o s) (hm : 0x20000000000800000 ||| μ = μ := by decide) : Touch μ o (pushDrop s) := by
  refine h.step hm ?_
  unfold pushDrop; repeat' first | (simp (maxDischargeDepth := 80) only [startDone_touch, setItn_touch, setOvlState_touch, setItnState_touch, ok_ITN_PUSH_CTL_START, Touch.refl, ite_touch, Nat.reduceOr]; done) | split

theorem pushWord_touch {μ : Nat} {o s : State} (w : Word) (h : Touch μ o s) (hm : 0x60000020000004000800400 ||| μ = μ := by decide) : Touch μ o (pushWord w s) := by
  refine h.step hm ?_
  unfold pushWord; repeat' first | (simp (maxDischargeDepth := 80) only [flag_touch, setItn_touch, startDone_touch, setOvlState_touch, setItnState_touch, ok_ITN_ERR_PUSH_REFUSED, ok_ITN_PUSH_CTL_START, Touch.refl, ite_touch, Nat.reduceOr]; done) | split

theorem itnWrite_touch {μ : Nat} {o s : State} (a : Nat) (acc : Acc) (h : Touch μ o s) (ha : InPages μ a) (hm : 0x63000020000004000800580 ||| μ = μ := by decide) : Touch μ o (itnWrite a acc s) := by
  have e0 : 0x20000000000000000 ||| μ = μ := or_sub hm (by decide)
  have e1 : 0x20000000000800000 ||| μ = μ := or_sub hm (by decide)
  have e2 : 0x1000000000000000000000 ||| μ = μ := or_sub hm (by decide)
  have e3 : 0x2000000000000000000000 ||| μ = μ := or_sub hm (by decide)
  have e4 : 0x20000000000000000000000 ||| μ = μ := or_sub hm (by decide)
  have e5 : 0x40000000000000000000000 ||| μ = μ := or_sub hm (by decide)
  have e6 : 0x60000020000004000800400 ||| μ = μ := or_sub hm (by decide)
  have e7 : 0x61000020000004000800480 ||| μ = μ := or_sub hm (by decide)
  have e8 : 0x62000000000004000000500 ||| μ = μ := or_sub hm (by decide)
  unfold itnWrite; simp (maxDischargeDepth := 80) only [pushWord_touch, perform_touch, pushDrop_touch, pushBegin_touch, ite_touch, e1, e6, e7, e8, ha, h]

theorem storeOverlay_touch {μ : Nat} {o s : State} (seq digest : Nat) (secs : List (Nat × List Byte)) (h : Touch μ o s) (hm : 0x20000000000800000 ||| μ = μ := by decide) : Touch μ o (storeOverlay seq digest secs s) := by
  refine h.step hm ?_
  unfold storeOverlay; simp (maxDischargeDepth := 80) only [showStore_touch, set_touch, setItn_touch, ok_ITN_OVL_STATUS_LAST_SEQ, Touch.refl, Nat.reduceOr]

theorem pushVerified_touch {μ : Nat} {o s : State} (h : Touch μ o s) (hm : 0x61000020000004000800480 ||| μ = μ := by decide) : Touch μ o (pushVerified s) := by
  refine h.step hm ?_
  unfold pushVerified; repeat' first | (simp (maxDischargeDepth := 80) only [setItn_touch, acceptBase_touch, setItnState_touch, itnReject_touch, setOvlState_touch, ovlReject_touch, set_touch, storeOverlay_touch, ok_ITN_OVL_STATUS_PENDING_WARM, Touch.refl, ite_touch, Nat.reduceOr]; done) | split

theorem ovlAccept_touch {μ : Nat} {o s : State} (v : Ovl) (h : Touch μ o s) (hm : 0x2000020000000000800100 ||| μ = μ := by decide) : Touch μ o (ovlAccept v s) := by
  refine h.step hm ?_
  unfold ovlAccept; simp (maxDischargeDepth := 80) only [storeOverlay_touch, ledger_touch, setItn_touch, Touch.refl, Nat.reduceOr]

theorem liveApply_touch {μ : Nat} {o s : State} (h : Touch μ o s) (hm : 0x638090200000040029a1580 ||| μ = μ := by decide) : Touch μ o (liveApply s) := by
  refine h.step hm ?_
  unfold liveApply; repeat' first | (simp (maxDischargeDepth := 80) only [ovlAccept_touch, applyInstance_touch, applyDomains_touch, setOvlState_touch, setItn_touch, implies_true, Touch.refl, foldl_touch, ite_touch, Nat.reduceOr]; done) | split

theorem quiesceStart_touch {μ : Nat} {o s : State} (h : Touch μ o s) (hm : 0x200000000008c0000 ||| μ = μ := by decide) : Touch μ o (quiesceStart s) := by
  refine h.step hm ?_
  unfold quiesceStart; repeat' first | (simp (maxDischargeDepth := 80) only [setItn_touch, holdUnits_touch, setOvlState_touch, touch_mk, Touch.refl, ite_touch, Nat.reduceOr, true_or, or_true]; done) | split

theorem quiesceEnd_touch {μ : Nat} {o s : State} (h : Touch μ o s) (hm : 0x4000200000002008c1000 ||| μ = μ := by decide) : Touch μ o (quiesceEnd s) := by
  refine h.step hm ?_
  unfold quiesceEnd; simp (maxDischargeDepth := 80) only [releaseUnits_touch, setOvlState_touch, setItn_touch, touch_mk, Touch.refl, Nat.reduceOr, true_or, or_true]

theorem quiesceWrite_touch {μ : Nat} {o s : State} (buf : Option (List Byte)) (h : Touch μ o s) (hm : 0x63c890300000042829f3580 ||| μ = μ := by decide) : Touch μ o (quiesceWrite buf s) := by
  refine h.step hm ?_
  unfold quiesceWrite; repeat' first | (simp (maxDischargeDepth := 80) only [ovlAccept_touch, setOvlState_touch, applyDomains_touch, applyInstance_touch, flipMode_touch, handOver_touch, quiesceEnd_touch, implies_true, Touch.refl, foldl_touch, ite_touch, Nat.reduceOr]; done) | split

theorem quiesceTimeout_touch {μ : Nat} {o s : State} (h : Touch μ o s) (hm : 0x614000200000042008f1480 ||| μ = μ := by decide) : Touch μ o (quiesceTimeout s) := by
  refine h.step hm ?_
  unfold quiesceTimeout; repeat' first | (simp (maxDischargeDepth := 80) only [quiesceEnd_touch, ovlReject_touch, reachBase_touch, Touch.refl, ite_touch, Nat.reduceOr]; done) | split

theorem holdTimeout_touch {μ : Nat} {o s : State} (h : Touch μ o s) (hm : 0x61000020000004000830480 ||| μ = μ := by decide) : Touch μ o (holdTimeout s) := by
  refine h.step hm ?_
  unfold holdTimeout; repeat' first | (simp (maxDischargeDepth := 80) only [reachBase_touch, setOvlState_touch, ovlReject_touch, setItn_touch, Touch.refl, ite_touch, Nat.reduceOr]; done) | split

/-! FieldTest. -/

theorem spareTested_touch {μ : Nat} {o s : State} (a b : Nat) (differ : Bool) (h : Touch μ o s) (hm : 0x659a80000000040420a1680 ||| μ = μ := by decide) : Touch μ o (spareTested a b differ s) := by
  refine h.step hm ?_
  unfold spareTested; repeat' first | (simp (maxDischargeDepth := 80) only [retire_touch, setFlt_touch, setBit_touch, showCapacity_touch, note_touch, ok_ARR_AVAIL_AVAIL, Touch.refl, ite_touch, Nat.reduceOr]; done) | with_reducible (refine ite_touch ?_ ?_) | with_reducible (refine foldl_touch (fun _ _ => ?_) ?_) | split

theorem testMarks_touch {μ : Nat} {o s : State} (a b : Nat) (da db : Bool) (h : Touch μ o s) (hm : 0x100000000000040000000 ||| μ = μ := by decide) : Touch μ o (testMarks a b da db s) := by
  refine h.step hm ?_
  unfold testMarks; repeat' first | (simp (maxDischargeDepth := 80) only [mark_touch, Touch.refl, ite_touch, id_eq, Nat.reduceOr]; done) | split

theorem fieldTest_touch {μ : Nat} {o s : State} (a b cycles : Nat) (differ da db : Bool) (residue : Option (Nat × Bool)) (ecc : Option (Nat × Nat)) (h : Touch μ o s) (hm : 0x659a80000000040520a1680 ||| μ = μ := by decide) : Touch μ o (fieldTest a b cycles differ da db residue ecc s) := by
  refine h.step hm ?_
  unfold fieldTest; repeat' first | (simp (maxDischargeDepth := 80) only [serve_touch, prod_touch, set_touch, residueError_touch, eccError_touch, testMarks_touch, report_touch, bump_touch, showArr_touch, retireCheck_touch, spareTested_touch, ok_FLT_STATUS_TESTS, ok_FLT_ERR_FT_FAIL, ok_FLT_STATUS_FAILS, Touch.refl, ite_touch, Nat.reduceOr]; done) | split

theorem campaignEnd_touch {μ : Nat} {o s : State} (status : Nat) (h : Touch μ o s) (hm : 0x61100000000004040000480 ||| μ = μ := by decide) : Touch μ o (campaignEnd status s) := by
  refine h.step hm ?_
  unfold campaignEnd; repeat' first | (simp (maxDischargeDepth := 80) only [set_touch, setFlt_touch, note_touch, post_touch, ok_FLT_PROBE_CMD_START, ok_FLT_PROBE_RESULT_SEQ, Touch.refl, Nat.reduceOr]; done) | split

theorem probeOver_touch {μ : Nat} {o s : State} (h : Touch μ o s) (hm : 0x61100000000004040000480 ||| μ = μ := by decide) : Touch μ o (probeOver s) := by
  refine h.step hm ?_
  unfold probeOver; repeat' first | (simp (maxDischargeDepth := 80) only [setFlt_touch, campaignEnd_touch, Touch.refl, ite_touch, Nat.reduceOr]; done) | with_reducible (refine ite_touch ?_ ?_) | with_reducible (refine foldl_touch (fun _ _ => ?_) ?_) | split | (dsimp only; with_reducible (refine ite_touch ?_ ?_)) | (dsimp only; split)

theorem probeStat_touch {μ : Nat} {o s : State} (p : Probe) (f : Field) (h : Touch μ o s) (hf : InPages μ f.addr) : Touch μ o (probeStat p f s) := by
  unfold probeStat; simp only [bump_touch, ite_touch, hf, h]

theorem probeStart_touch {μ : Nat} {o s : State} (h : Touch μ o s) (hm : 0x60100000000004040000400 ||| μ = μ := by decide) : Touch μ o (probeStart s) := by
  refine h.step hm ?_
  unfold probeStart; simp (maxDischargeDepth := 80) only [set_touch, post_touch, setFlt_touch, wr_touch, ok_FLT_PROBE_CMD_START, ok_FLT_PROBE_RESULT_SEQ, ok_FLT_PROBE_STATS_PASSED, Touch.refl, ite_touch, Nat.reduceOr, wr_touch]

theorem probeAbort_touch {μ : Nat} {o s : State} (h : Touch μ o s) (hm : 0x61100000000004040000480 ||| μ = μ := by decide) : Touch μ o (probeAbort s) := by
  refine h.step hm ?_
  unfold probeAbort; repeat' first | (simp only [setFlt_touch, campaignEnd_touch, Touch.refl, Nat.reduceOr]; done) | split

theorem probeIssue_touch {μ : Nat} {o s : State} (errs : List (Nat × Nat × Nat)) (h : Touch μ o s) (hm : 0x40020004 ||| μ = μ := by decide) : Touch μ o (probeIssue errs s) := by
  refine h.step hm ?_
  unfold probeIssue; repeat' first | (simp (maxDischargeDepth := 80) only [setFlt_touch, emit_touch, prod_touch, implies_true, Touch.refl, foldl_touch, ite_touch, Nat.reduceOr, emit_touch]; done) | with_reducible (refine ite_touch ?_ ?_) | with_reducible (refine foldl_touch (fun _ _ => ?_) ?_) | split | (dsimp only; with_reducible (refine ite_touch ?_ ?_)) | (dsimp only; split)

theorem engineFail_touch {μ : Nat} {o s : State} (p : Probe) (t : Tile) (e : Nat) (h : Touch μ o s) (hm : 0x659880000000040220a1680 ||| μ = μ := by decide) : Touch μ o (engineFail p t s e) := by
  refine h.step hm ?_
  unfold engineFail; simp (maxDischargeDepth := 80) only [subjFail_touch, probeStat_touch, flag_touch, prod_touch, ok_FLT_PROBE_STATS_FAILED, ok_FLT_ERR_PROBE_FAIL, Touch.refl, Nat.reduceOr]

theorem probeJudge_touch {μ : Nat} {o s : State} (p : Probe) (h : Touch μ o s) (hm : 0x659880000000040620a1680 ||| μ = μ := by decide) : Touch μ o (probeJudge p s) := by
  refine h.step hm ?_
  unfold probeJudge; simp (maxDischargeDepth := 80) only [probeOver_touch, subjPass_touch, probeStat_touch, prod_touch, setFlt_touch, engineFail_touch, ok_FLT_PROBE_STATS_PASSED, implies_true, Touch.refl, foldl_touch, ite_touch, Nat.reduceOr]

theorem probeResult_touch {μ : Nat} {o s : State} (engine : Nat) (b : List Byte) (h : Touch μ o s) (hm : 0x659880000000040620a1680 ||| μ = μ := by decide) : Touch μ o (probeResult engine b s) := by
  refine h.step hm ?_
  unfold probeResult; repeat' first | (simp (maxDischargeDepth := 80) only [verDiscard_touch, setFlt_touch, runOver_touch, probeJudge_touch, Touch.refl, ite_touch, Nat.reduceOr]; done) | split

theorem probeConfirm_touch {μ : Nat} {o s : State} (errs : List (Nat × Nat × Nat)) (arrays : List Nat) (h : Touch μ o s) (hm : 0x659a80000000040620a1680 ||| μ = μ := by decide) : Touch μ o (probeConfirm errs arrays s) := by
  refine h.step hm ?_
  unfold probeConfirm; repeat' first | (simp (maxDischargeDepth := 80) only [probeOver_touch, retireCheck_touch, ownError_touch, mark_touch, engineFail_touch, implies_true, Touch.refl, foldl_touch, ite_touch, Nat.reduceOr]; done) | split

theorem probeTimeout_touch {μ : Nat} {o s : State} (h : Touch μ o s) (hm : 0x61100000000004040030480 ||| μ = μ := by decide) : Touch μ o (probeTimeout s) := by
  refine h.step hm ?_
  unfold probeTimeout; repeat' first | (simp (maxDischargeDepth := 80) only [reachBase_touch, probeOver_touch, report_touch, probeStat_touch, ok_FLT_ERR_PROBE_NOANS, ok_FLT_PROBE_STATS_NOANSWER, Touch.refl, ite_touch, Nat.reduceOr]; done) | split

theorem witnessRecord_touch {μ : Nat} {o s : State} (engine : Nat) (beats : List (BitVec 512)) (cut : Bool) (h : Touch μ o s) (hm : 0x659a80800000040620a1680 ||| μ = μ := by decide) : Touch μ o (witnessRecord engine beats cut s) := by
  have aux {o s : State} (engine : Nat) (beats : List (BitVec 512)) (cut : Bool) (h : Touch 0x659a80800000040620a1680 o s) : Touch 0x659a80800000040620a1680 o (witnessRecord engine beats cut s) := by
    unfold witnessRecord
    have k := witnessIn_touch beats cut h
    split
    · next e => exact touch_fst e k
    · next e =>
      split
      · exact probeResult_touch _ _ (touch_fst e k)
      · exact hostRecord_touch _ _ (touch_fst e k)
  exact h.step hm (aux _ _ _ (Touch.refl 0x659a80800000040620a1680 _))

theorem fltWrite_touch {μ : Nat} {o s : State} (a : Nat) (acc : Acc) (h : Touch μ o s) (ha : InPages μ a) (hm : 0x63100000000004040000580 ||| μ = μ := by decide) : Touch μ o (fltWrite a acc s) := by
  have e0 : 0x100000000000000000000 ||| μ = μ := or_sub hm (by decide)
  have e1 : 0x1000000000000000000000 ||| μ = μ := or_sub hm (by decide)
  have e2 : 0x2000000000000000000000 ||| μ = μ := or_sub hm (by decide)
  have e3 : 0x20000000000000000000000 ||| μ = μ := or_sub hm (by decide)
  have e4 : 0x40000000000000000000000 ||| μ = μ := or_sub hm (by decide)
  have e5 : 0x60100000000004040000400 ||| μ = μ := or_sub hm (by decide)
  have e6 : 0x61100000000004040000480 ||| μ = μ := or_sub hm (by decide)
  have e7 : 0x62000000000004000000500 ||| μ = μ := or_sub hm (by decide)
  have e8 : 0x63000000000004000000580 ||| μ = μ := or_sub hm (by decide)
  unfold fltWrite; simp (maxDischargeDepth := 80) only [consume_touch, perform_touch, probeStart_touch, set_touch, probeAbort_touch, ok_FLT_PROBE_CMD_START, ite_touch, e0, e5, e6, e7, e8, ha, h]

theorem verifierReset_touch {μ : Nat} {o s : State} (h : Touch μ o s) (hm : 0x61100000000004060000480 ||| μ = μ := by decide) : Touch μ o (verifierReset s) := by
  refine h.step hm ?_
  unfold verifierReset; simp (maxDischargeDepth := 80) only [setVer_touch, campaignEnd_touch, setFlt_touch, note_touch, Touch.refl, ite_touch, Nat.reduceOr]

/-! Fence. -/

theorem setRcv_touch {μ : Nat} {o s : State} (r : RcvSt) (h : Touch μ o s) (hm : 0x800000000 ||| μ = μ := by decide) : Touch μ o (setRcv r s) := by
  refine h.step hm ?_
  unfold setRcv; simp only [touch_mk, Touch.refl, Nat.reduceOr, true_or, or_true]

theorem setFence_touch {μ : Nat} {o s : State} (t st : Nat) (forced : Bool) (h : Touch μ o s) (hm : 0x800000000000000000000 ||| μ = μ := by decide) : Touch μ o (setFence t st forced s) := by
  refine h.step hm ?_
  unfold setFence; simp only [set_touch, ok_fenceField, Touch.refl, Nat.reduceOr]

theorem showOrders_touch {μ : Nat} {o s : State} (h : Touch μ o s) (hm : 0x800000000000000000000 ||| μ = μ := by decide) : Touch μ o (showOrders s) := by
  refine h.step hm ?_
  unfold showOrders; simp only [set_touch, ok_RCV_STATUS_ORDERS, Touch.refl, Nat.reduceOr]

theorem putOrd_touch {μ : Nat} {o_ s : State} (k : Nat) (o : RcvOrd) (h : Touch μ o_ s) (hm : 0x800000000 ||| μ = μ := by decide) : Touch μ o_ (putOrd k o s) := by
  refine h.step hm ?_
  unfold putOrd; simp only [setRcv_touch, Touch.refl, Nat.reduceOr]

theorem rcvPost_touch {μ : Nat} {o s : State} (k seq status flags : Nat) (h : Touch μ o s) (hm : 0x60800000000004800000400 ||| μ = μ := by decide) : Touch μ o (rcvPost k seq status flags s) := by
  refine h.step hm ?_
  unfold rcvPost; repeat' first | (simp (maxDischargeDepth := 80) only [setRcv_touch, post_touch, set_touch, ok_RCV_ORD_CMD_START, ok_RCV_ORD_RESULT_SEQ, Touch.refl, ite_touch, Nat.reduceOr]; done) | with_reducible (refine ite_touch ?_ ?_) | with_reducible (refine foldl_touch (fun _ _ => ?_) ?_) | split | (dsimp only; with_reducible (refine ite_touch ?_ ?_)) | (dsimp only; split) | ((try dsimp only); first | with_reducible (apply setRcv_touch) | with_reducible (apply post_touch) | with_reducible (apply set_touch) | with_reducible (apply touch_mk))

theorem ordDone_touch {μ : Nat} {o s : State} (k status : Nat) (h : Touch μ o s) (hm : 0x60800000000004800000400 ||| μ = μ := by decide) : Touch μ o (ordDone k status s) := by
  refine h.step hm ?_
  unfold ordDone; repeat' first | (simp (maxDischargeDepth := 80) only [rcvPost_touch, showOrders_touch, setRcv_touch, Touch.refl, Nat.reduceOr]; done) | split

/-! Reset. -/

theorem setClk_touch {μ : Nat} {o s : State} (c : ClkSt) (h : Touch μ o s) (hm : 0x40 ||| μ = μ := by decide) : Touch μ o (setClk c s) := by
  refine h.step hm ?_
  unfold setClk; simp only [touch_mk, Touch.refl, Nat.reduceOr, true_or, or_true]

theorem keepField_touch {μ : Nat} {o t : State} (s : State) (f : Field) (h : Touch μ o t) (hf : InPages μ f.addr) : Touch μ o (keepField s t f) :=
  set_touch _ _ h hf

theorem setPhase_touch {μ : Nat} {o s : State} (x n : Nat) (h : Touch μ o s) (hm : 0x40000000000000040 ||| μ = μ := by decide) : Touch μ o (setPhase x n s) := by
  refine h.step hm ?_
  unfold setPhase; simp only [setBit_touch, setClk_touch, ok_CLK_DOMAIN_STATUS_XRST_BUSY, Touch.refl, Nat.reduceOr]

theorem closeCrossing_touch {μ : Nat} {o s : State} (x : Nat) (h : Touch μ o s) (hm : 0x7c0000000000006840 ||| μ = μ := by decide) : Touch μ o (closeCrossing s x) := by
  refine h.step hm ?_
  unfold closeCrossing; simp (maxDischargeDepth := 80) only [set_touch, setPhase_touch, wr_touch, ok_linkField, ok_FBP_TX_CREDIT_VC0, touch_mk, implies_true, Touch.refl, foldl_touch, ite_touch, Nat.reduceOr, true_or, or_true, wr_touch]

theorem dropUsers_touch {μ : Nat} {o s : State} (us : List MemUser) (h : Touch μ o s) (hm : 0x81000 ||| μ = μ := by decide) : Touch μ o (dropUsers us s) := by
  refine h.step hm ?_
  unfold dropUsers; simp only [touch_mk, Touch.refl, Nat.reduceOr, true_or, or_true]

theorem loseCtrl_touch {μ : Nat} {o s : State} (h : Touch μ o s) (hm : 0xffffffff01000000000000002b800102000001b8008e1404 ||| μ = μ := by decide) : Touch μ o (loseCtrl s) := by
  refine h.step hm ?_
  unfold loseCtrl; simp (maxDischargeDepth := 80) only [loaderFree_touch, dropUsers_touch, resetRegs_touch, setOvlState_touch, setItnState_touch, itnShown_touch, ofDomain_0, touch_mk, Touch.refl, ite_touch, Nat.reduceOr, true_or, or_true]

theorem loseCalc_touch {μ : Nat} {o s : State} (h : Touch μ o s) (hm : 0x711f00000000040fc081480 ||| μ = μ := by decide) : Touch μ o (loseCalc s) := by
  refine h.step hm ?_
  unfold loseCalc; repeat' first | (simp (maxDischargeDepth := 80) only [dropUsers_touch, verifierReset_touch, resetRegs_touch, post_touch, note_touch, treeAbort_touch, arrayAbort_touch, ok_FLT_PROBE_RESULT_SEQ, ofDomain_1, touch_mk, Touch.refl, Nat.reduceOr, true_or, or_true]; done) | with_reducible (refine ite_touch ?_ ?_) | with_reducible (refine foldl_touch (fun _ _ => ?_) ?_) | split | (dsimp only; with_reducible (refine ite_touch ?_ ?_)) | (dsimp only; split)

theorem loseMove_touch {μ : Nat} {o s : State} (h : Touch μ o s) (hm : 0x71600100000004700081484 ||| μ = μ := by decide) : Touch μ o (loseMove s) := by
  refine h.step hm ?_
  unfold loseMove; simp (maxDischargeDepth := 80) only [curReset_touch, linkReset_touch, resetRegs_touch, dropUsers_touch, prtReset_touch, cmpReset_touch, ofDomain_2, Touch.refl, Nat.reduceOr]

theorem loseNet_touch {μ : Nat} {o s : State} (h : Touch μ o s) (hm : 0x1ff000000000007161c6000000045087a7480 ||| μ = μ := by decide) : Touch μ o (loseNet s) := by
  refine h.step hm ?_
  unfold loseNet
  dsimp only
  refine memFollow_touch ?_
  simp only [List.foldl_cons, List.foldl_nil]
  refine keepField_touch _ _ (keepField_touch _ _ (resetRegs_touch _ ?_ (ofDomain_3 (by decide))) (ok_FBP_STATUS_LANE_UP (by decide))) (ok_SEP_STATUS_PCS_UP (by decide))
  refine touch_mk _ _ _ _ _ _ _ _ _ _ _ _ _ _ _ _ _ _ _ _ _ _ _ _ _ _ _ _ _ _ _ _ _ _ _ _ _ _ _ (foldl_touch (fun t i => ?_) (Touch.refl _ _))
  split
  · exact endReq_touch _ _ _ _ (Touch.refl _ _)
  · exact Touch.refl _ _

theorem loseTime_touch {μ : Nat} {o s : State} (h : Touch μ o s) (hm : 0x2800000000001010000 ||| μ = μ := by decide) : Touch μ o (loseTime s) := by
  refine h.step hm ?_
  unfold loseTime; simp (maxDischargeDepth := 80) only [resetRegs_touch, keepField_touch, ok_TIM_TB_FREQ_INTEG, ok_TIM_TB_STATUS_CAUSE, ok_TIM_TB_STATUS_STATE, ofDomain_4, List.foldl_cons, List.foldl_nil, touch_mk, Touch.refl, Nat.reduceOr, true_or, or_true]

theorem loseEop_touch {μ : Nat} {o s : State} (h : Touch μ o s) (hm : 0x80000000000000800 ||| μ = μ := by decide) : Touch μ o (loseEop s) := by
  refine h.step hm ?_
  unfold loseEop; simp only [resetRegs_touch, ofDomain_5, touch_mk, Touch.refl, Nat.reduceOr, true_or, or_true]

theorem loseMmp_touch {μ : Nat} {o s : State} (h : Touch μ o s) (hm : 0x716181000000045086a1484 ||| μ = μ := by decide) : Touch μ o (loseMmp s) := by
  refine h.step hm ?_
  unfold loseMmp; simp (maxDischargeDepth := 80) only [resetRegs_touch, memFollow_touch, linkReset_touch, curLinkLost_touch, ofDomain_6, Touch.refl, Nat.reduceOr]

theorem enterReset_touch {μ : Nat} {o s : State} (d : Nat) (h : Touch μ o s) (hm : 0xffffffff0101ff00000000002f97fffe000001fffdff7cc4 ||| μ = μ := by decide) : Touch μ o (enterReset d s) := by
  refine h.step hm ?_
  unfold enterReset; repeat' first | (simp (maxDischargeDepth := 80) only [loseCtrl_touch, loseCalc_touch, loseMove_touch, loseNet_touch, loseTime_touch, loseEop_touch, loseMmp_touch, setBit_touch, closeCrossing_touch, ok_CLK_RST_CTL_CTRL, ok_CLK_DOMAIN_STATUS_IN_RESET, implies_true, Touch.refl, foldl_touch, Nat.reduceOr]; done) | split

theorem rstRefused_touch {μ : Nat} {o s : State} (d : Nat) (h : Touch μ o s) (hm : 0x61000040000004000000480 ||| μ = μ := by decide) : Touch μ o (rstRefused d s) := by
  refine h.step hm ?_
  unfold rstRefused; simp only [report_touch, ok_CLK_ERR_DOM_RST_REFUSED, Touch.refl, Nat.reduceOr]

theorem serveReset_touch {μ : Nat} {o s : State} (h : Touch μ o s) (hm : 0xffffffff0101ff00000000002f97fffe000001fffdff7cc4 ||| μ = μ := by decide) : Touch μ o (serveReset s) := by
  refine h.step hm ?_
  unfold serveReset; repeat' first | (simp (maxDischargeDepth := 80) only [enterReset_touch, rstRefused_touch, setBit_touch, ok_rstBits, Touch.refl, ite_touch, Nat.reduceOr]; done) | split

theorem requestResets_touch {μ : Nat} {o s : State} (mask : Nat) (h : Touch μ o s) (hm : 0xffffffff0101ff00000000002f97fffe000001fffdff7cc4 ||| μ = μ := by decide) : Touch μ o (requestResets mask s) := by
  refine h.step hm ?_
  unfold requestResets; simp (maxDischargeDepth := 80) only [serveReset_touch, setBit_touch, rstRefused_touch, ok_rstBits, implies_true, Touch.refl, foldl_touch, ite_touch, Nat.reduceOr]

theorem rearmScheds_touch {μ : Nat} {o s : State} (h : Touch μ o s) (hm : 0x61001000000004000020480 ||| μ = μ := by decide) : Touch μ o (rearmScheds s) := by
  refine h.step hm ?_
  unfold rearmScheds; simp (maxDischargeDepth := 80) only [schedArm_touch, wr_touch, setTly_touch, note_touch, ok_TLY_SCHED_RANGE_FIRST, ok_TLY_SCHED_START_START, ok_TLY_SCHED_CTL_EN, implies_true, Touch.refl, foldl_touch, Nat.reduceOr, wr_touch]

theorem netLost_touch {μ : Nat} {o s : State} (h : Touch μ o s) (hm : 0x61000000000004000880480 ||| μ = μ := by decide) : Touch μ o (netLost s) := by
  refine h.step hm ?_
  unfold netLost; simp only [noteLater_touch, touch_mk, Touch.refl, Nat.reduceOr, true_or, or_true]

theorem baseAfterReset_touch {μ : Nat} {o s : State} (n : Nat) (h : Touch μ o s) (hm : 0x61002000000004000820480 ||| μ = μ := by decide) : Touch μ o (baseAfterReset s n) := by
  refine h.step hm ?_
  unfold baseAfterReset; simp (maxDischargeDepth := 80) only [set_touch, prod_touch, freezeF_touch, tbEnter_touch, noteLater_touch, flag_touch, ok_TIM_TB_FREQ_APPLIED, ok_TIM_TB_FREQ_INTEG, ok_tbHeld, Touch.refl, ite_touch, Nat.reduceOr]

theorem firmwareAgain_touch {μ : Nat} {o s : State} (h : Touch μ o s) (hm : 0x208000000000000000000000 ||| μ = μ := by decide) : Touch μ o (firmwareAgain s) := by
  refine h.step hm ?_
  unfold firmwareAgain; simp (maxDischargeDepth := 80) only [loaderTake_touch, set_touch, ok_CTL_STATUS_FW_STATE, Touch.refl, ite_touch, Nat.reduceOr]

theorem leaveReset_touch {μ : Nat} {o s : State} (d : Nat) (h : Touch μ o s) (hm : 0x269cbb7400000040029a3484 ||| μ = μ := by decide) : Touch μ o (leaveReset d s) := by
  refine h.step hm ?_
  unfold leaveReset; repeat' first | (simp (maxDischargeDepth := 80) only [reapply_touch, setBit_touch, firmwareAgain_touch, rearmScheds_touch, grantAll_touch, netLost_touch, baseAfterReset_touch, ok_rstBits, ok_CLK_DOMAIN_STATUS_IN_RESET, implies_true, Touch.refl, foldl_touch, Nat.reduceOr]; done) | split

theorem resetDone_touch {μ : Nat} {o s : State} (d : Nat) (h : Touch μ o s) (hm : 0xffffffff0101ff00000000002f9ffffe000001ffffff7cc4 ||| μ = μ := by decide) : Touch μ o (resetDone d s) := by
  refine h.step hm ?_
  unfold resetDone; repeat' first | (simp (maxDischargeDepth := 80) only [prod_touch, leaveReset_touch, setFence_touch, serveReset_touch, ordDone_touch, Touch.refl, ite_touch, Nat.reduceOr]; done) | with_reducible (refine ite_touch ?_ ?_) | with_reducible (refine foldl_touch (fun _ _ => ?_) ?_) | split | (dsimp only; with_reducible (refine ite_touch ?_ ?_)) | (dsimp only; split)

theorem domainRelease_touch {μ : Nat} {o s : State} (d : Nat) (h : Touch μ o s) (hm : 0xffffffff0101ff00000000002f9ffffe000001ffffff7cc4 ||| μ = μ := by decide) : Touch μ o (domainRelease d s) := by
  refine h.step hm ?_
  unfold domainRelease; simp only [resetDone_touch, Touch.refl, ite_touch, Nat.reduceOr]

theorem hostReset_touch {μ : Nat} {o s : State} (x : Nat) (h : Touch μ o s) (hm : 0x716187c00000045086a7cc4 ||| μ = μ := by decide) : Touch μ o (hostReset x s) := by
  refine h.step hm ?_
  unfold hostReset; repeat' first | (simp (maxDischargeDepth := 80) only [closeCrossing_touch, memFollow_touch, linkReset_touch, curLinkLost_touch, Touch.refl, ite_touch, Nat.reduceOr]; done) | split

theorem ackSeen_touch {μ : Nat} {o s : State} (x : Nat) (h : Touch μ o s) (hm : 0x40000000000000040 ||| μ = μ := by decide) : Touch μ o (ackSeen x s) := by
  refine h.step hm ?_
  unfold ackSeen; simp only [setPhase_touch, Touch.refl, ite_touch, Nat.reduceOr]

theorem handshakeDone_touch {μ : Nat} {o s : State} (x : Nat) (h : Touch μ o s) (hm : 0x61cb97c00000040029a3cc4 ||| μ = μ := by decide) : Touch μ o (handshakeDone x s) := by
  refine h.step hm ?_
  unfold handshakeDone; repeat' first | (simp (maxDischargeDepth := 80) only [noteLater_touch, bump_touch, set_touch, setPhase_touch, reapply_touch, setBit_touch, grantAll_touch, ok_resyncField, ok_linkField, ok_CLK_DOMAIN_STATUS_IN_RESET, touch_mk, Touch.refl, ite_touch, Nat.reduceOr, true_or, or_true]; done) | split

theorem rcvWarm_touch {μ : Nat} {o s : State} (h : Touch μ o s) (hm : 0x61800000000004800800480 ||| μ = μ := by decide) : Touch μ o (rcvWarm s) := by
  refine h.step hm ?_
  unfold rcvWarm; simp (maxDischargeDepth := 80) only [ordDone_touch, set_touch, noteLater_touch, flag_touch, setRcv_touch, ok_RCV_FENCE_HOST1_STATE, ok_RCV_FENCE_HOST0_STATE, ok_RCV_FENCE_BLK_STATE, ok_RCV_ERR_DUMP_ABANDONED, ok_RCV_STATUS_DBUF_HELD, ok_RCV_STATUS_DUMP_BUSY, implies_true, Touch.refl, foldl_touch, ite_touch, Nat.reduceOr]

theorem absentWaiting_touch {μ : Nat} {o s : State} (h : Touch μ o s) (hm : 0x4000000110 ||| μ = μ := by decide) : Touch μ o (absentWaiting s) := by
  refine h.step hm ?_
  unfold absentWaiting; simp only [touch_mk, Touch.refl, ite_touch, Nat.reduceOr, true_or, or_true]

theorem warmUnits_touch {μ : Nat} {o s : State} (h : Touch μ o s) (hm : 0x280000001ffff9f7c80 ||| μ = μ := by decide) : Touch μ o (warmUnits s) := by
  refine h.step hm ?_
  unfold warmUnits; simp only [loseTime_touch, touch_mk, Touch.refl, Nat.reduceOr, true_or, or_true]

theorem warmRegs_touch {μ : Nat} {o s : State} (h : Touch μ o s) (hm : 0xffffffff0101ff00000000000f87fd7e0000000000000000 ||| μ = μ := by decide) : Touch μ o (warmRegs s) := by
  refine h.step hm ?_
  unfold warmRegs; simp (maxDischargeDepth := 80) only [resetRegs_touch, keepField_touch, set_touch, ok_rstBits, ok_CLK_GATE_STATUS_ARRAYS, ok_PHU_STATUS_SAVE_DONE, ok_PHU_STATUS_RET_EN, ok_PWR_STATUS_PHASE, ok_PWR_STATUS_STATE, ok_FBP_STATUS_LANE_UP, ok_ITN_OVL_STATUS_LAST_SEQ, ok_ITN_OVL_STATUS_PENDING_WARM, ok_ITN_OVL_STATUS_STORE_USED, ok_SEP_STATUS_PCS_UP, warm_pages, List.foldl_cons, List.foldl_nil, Touch.refl, Nat.reduceOr]

theorem warmReset_touch {μ : Nat} {o s : State} (why : Nat) (h : Touch μ o s) (hm : 0xffffffff0101ff00000000003fdffffe000001ffff9f7fd4 ||| μ = μ := by decide) : Touch μ o (warmReset why s) := by
  refine h.step hm ?_
  unfold warmReset; simp (maxDischargeDepth := 80) only [loaderFree_touch, absentWaiting_touch, setClk_touch, authLapse_touch, linkReset_touch, answerAll_touch, rcvWarm_touch, warmRegs_touch, warmUnits_touch, set_touch, baseAfterReset_touch, netLost_touch, ok_GBK_STATUS_RUNNING, ok_CLK_DOMAIN_STATUS_XRST_BUSY, ok_CLK_DOMAIN_STATUS_IN_RESET, ok_CLK_STATUS_LAST_RESET, ok_SBX_STATUS_RESTORE, touch_mk, implies_true, Touch.refl, foldl_touch, ite_touch, Nat.reduceOr, true_or, or_true]

theorem clkWrite_touch {μ : Nat} {o s : State} (a : Nat) (acc : Acc) (h : Touch μ o s) (ha : InPages μ a) (hm : 0xffffffff0101ff00000000003ffffffe000001ffffff7fd4 ||| μ = μ := by decide) : Touch μ o (clkWrite a acc s) := by
  have e0 : 0x20000000000000000 ||| μ = μ := or_sub hm (by decide)
  have e1 : 0x40000000000000000 ||| μ = μ := or_sub hm (by decide)
  have e2 : 0x80000000000000000 ||| μ = μ := or_sub hm (by decide)
  have e3 : 0x100000000000000000 ||| μ = μ := or_sub hm (by decide)
  have e4 : 0x200000000000000000 ||| μ = μ := or_sub hm (by decide)
  have e5 : 0x400000000000000000 ||| μ = μ := or_sub hm (by decide)
  have e6 : 0x800000000000000000 ||| μ = μ := or_sub hm (by decide)
  have e7 : 0x1000000000000000000 ||| μ = μ := or_sub hm (by decide)
  have e8 : 0x2000000000000000000 ||| μ = μ := or_sub hm (by decide)
  have e9 : 0x4000000000000000000 ||| μ = μ := or_sub hm (by decide)
  have e10 : 0x8000000000000000000 ||| μ = μ := or_sub hm (by decide)
  have e11 : 0x10000000000000000000 ||| μ = μ := or_sub hm (by decide)
  have e12 : 0x20000000000000000000 ||| μ = μ := or_sub hm (by decide)
  have e13 : 0x40000000000000000000 ||| μ = μ := or_sub hm (by decide)
  have e14 : 0x80000000000000000000 ||| μ = μ := or_sub hm (by decide)
  have e15 : 0x100000000000000000000 ||| μ = μ := or_sub hm (by decide)
  have e16 : 0x200000000000000000000 ||| μ = μ := or_sub hm (by decide)
  have e17 : 0x400000000000000000000 ||| μ = μ := or_sub hm (by decide)
  have e18 : 0x800000000000000000000 ||| μ = μ := or_sub hm (by decide)
  have e19 : 0x1000000000000000000000 ||| μ = μ := or_sub hm (by decide)
  have e20 : 0x2000000000000000000000 ||| μ = μ := or_sub hm (by decide)
  have e21 : 0x4000000000000000000000 ||| μ = μ := or_sub hm (by decide)
  have e22 : 0x8000000000000000000000 ||| μ = μ := or_sub hm (by decide)
  have e23 : 0x10000000000000000000000 ||| μ = μ := or_sub hm (by decide)
  have e24 : 0x20000000000000000000000 ||| μ = μ := or_sub hm (by decide)
  have e25 : 0x40000000000000000000000 ||| μ = μ := or_sub hm (by decide)
  have e26 : 0x62000000000004000000500 ||| μ = μ := or_sub hm (by decide)
  have e27 : 0x80000000000000000000000 ||| μ = μ := or_sub hm (by decide)
  have e28 : 0x100000000000000000000000 ||| μ = μ := or_sub hm (by decide)
  have e29 : 0x200000000000000000000000 ||| μ = μ := or_sub hm (by decide)
  have e30 : 0x10000000000000000000000000000000000 ||| μ = μ := or_sub hm (by decide)
  have e31 : 0x20000000000000000000000000000000000 ||| μ = μ := or_sub hm (by decide)
  have e32 : 0x40000000000000000000000000000000000 ||| μ = μ := or_sub hm (by decide)
  have e33 : 0x80000000000000000000000000000000000 ||| μ = μ := or_sub hm (by decide)
  have e34 : 0x100000000000000000000000000000000000 ||| μ = μ := or_sub hm (by decide)
  have e35 : 0x200000000000000000000000000000000000 ||| μ = μ := or_sub hm (by decide)
  have e36 : 0x400000000000000000000000000000000000 ||| μ = μ := or_sub hm (by decide)
  have e37 : 0x800000000000000000000000000000000000 ||| μ = μ := or_sub hm (by decide)
  have e38 : 0x1000000000000000000000000000000000000 ||| μ = μ := or_sub hm (by decide)
  have e39 : 0x100000000000000000000000000000000000000 ||| μ = μ := or_sub hm (by decide)
  have e40 : 0x10000000000000000000000000000000000000000 ||| μ = μ := or_sub hm (by decide)
  have e41 : 0x20000000000000000000000000000000000000000 ||| μ = μ := or_sub hm (by decide)
  have e42 : 0x40000000000000000000000000000000000000000 ||| μ = μ := or_sub hm (by decide)
  have e43 : 0x80000000000000000000000000000000000000000 ||| μ = μ := or_sub hm (by decide)
  have e44 : 0x100000000000000000000000000000000000000000 ||| μ = μ := or_sub hm (by decide)
  have e45 : 0x200000000000000000000000000000000000000000 ||| μ = μ := or_sub hm (by decide)
  have e46 : 0x400000000000000000000000000000000000000000 ||| μ = μ := or_sub hm (by decide)
  have e47 : 0x800000000000000000000000000000000000000000 ||| μ = μ := or_sub hm (by decide)
  have e48 : 0x1000000000000000000000000000000000000000000 ||| μ = μ := or_sub hm (by decide)
  have e49 : 0x2000000000000000000000000000000000000000000 ||| μ = μ := or_sub hm (by decide)
  have e50 : 0x4000000000000000000000000000000000000000000 ||| μ = μ := or_sub hm (by decide)
  have e51 : 0x8000000000000000000000000000000000000000000 ||| μ = μ := or_sub hm (by decide)
  have e52 : 0x10000000000000000000000000000000000000000000 ||| μ = μ := or_sub hm (by decide)
  have e53 : 0x20000000000000000000000000000000000000000000 ||| μ = μ := or_sub hm (by decide)
  have e54 : 0x40000000000000000000000000000000000000000000 ||| μ = μ := or_sub hm (by decide)
  have e55 : 0x80000000000000000000000000000000000000000000 ||| μ = μ := or_sub hm (by decide)
  have e56 : 0x100000000000000000000000000000000000000000000 ||| μ = μ := or_sub hm (by decide)
  have e57 : 0x200000000000000000000000000000000000000000000 ||| μ = μ := or_sub hm (by decide)
  have e58 : 0x400000000000000000000000000000000000000000000 ||| μ = μ := or_sub hm (by decide)
  have e59 : 0x800000000000000000000000000000000000000000000 ||| μ = μ := or_sub hm (by decide)
  have e60 : 0x1000000000000000000000000000000000000000000000 ||| μ = μ := or_sub hm (by decide)
  have e61 : 0x2000000000000000000000000000000000000000000000 ||| μ = μ := or_sub hm (by decide)
  have e62 : 0x4000000000000000000000000000000000000000000000 ||| μ = μ := or_sub hm (by decide)
  have e63 : 0x8000000000000000000000000000000000000000000000 ||| μ = μ := or_sub hm (by decide)
  have e64 : 0x10000000000000000000000000000000000000000000000 ||| μ = μ := or_sub hm (by decide)
  have e65 : 0x20000000000000000000000000000000000000000000000 ||| μ = μ := or_sub hm (by decide)
  have e66 : 0x40000000000000000000000000000000000000000000000 ||| μ = μ := or_sub hm (by decide)
  have e67 : 0x80000000000000000000000000000000000000000000000 ||| μ = μ := or_sub hm (by decide)
  have e68 : 0x100000000000000000000000000000000000000000000000 ||| μ = μ := or_sub hm (by decide)
  have e69 : 0x200000000000000000000000000000000000000000000000 ||| μ = μ := or_sub hm (by decide)
  have e70 : 0x400000000000000000000000000000000000000000000000 ||| μ = μ := or_sub hm (by decide)
  have e71 : 0x800000000000000000000000000000000000000000000000 ||| μ = μ := or_sub hm (by decide)
  have e72 : 0xffffffff0101ff00000000002f97fffe000001fffdff7cc4 ||| μ = μ := or_sub hm (by decide)
  have e73 : 0xffffffff0101ff00000000003fdffffe000001ffff9f7fd4 ||| μ = μ := or_sub hm (by decide)
  unfold clkWrite; simp (maxDischargeDepth := 80) only [perform_touch, warmReset_touch, requestResets_touch, ite_touch, e26, e72, e73, ha, h]

theorem monWindow_touch {μ : Nat} {o s : State} (count : Nat) (h : Touch μ o s) (hm : 0x61000040000004000000480 ||| μ = μ := by decide) : Touch μ o (monWindow count s) := by
  refine h.step hm ?_
  unfold monWindow; simp (maxDischargeDepth := 80) only [set_touch, report_touch, ok_CLK_MON_COUNT, ok_CLK_ERR_MON_ALARM, Touch.refl, ite_touch, Nat.reduceOr]

theorem branchGate_touch {μ : Nat} {o s : State} (b : Nat) (h : Touch μ o s) (hm : 0x40000000000000000 ||| μ = μ := by decide) : Touch μ o (branchGate b s) := by
  refine h.step hm ?_
  unfold branchGate; split <;> simp only [set_touch, ok_gateField, Touch.refl, Nat.reduceOr]

theorem branchRestart_touch {μ : Nat} {o s : State} (b : Nat) (h : Touch μ o s) (hm : 0x40000000000000000 ||| μ = μ := by decide) : Touch μ o (branchRestart b s) := by
  refine h.step hm ?_
  unfold branchRestart; split <;> simp only [set_touch, ok_gateField, Touch.refl, Nat.reduceOr]

/-! Tga. -/

theorem showTga_touch {μ : Nat} {o s : State} (h : Touch μ o s) (hm : 0x4000000000000000000 ||| μ = μ := by decide) : Touch μ o (showTga s) := by
  refine h.step hm ?_
  unfold showTga; simp only [set_touch, ok_CRV_STATUS_TGA_PENDING, Touch.refl, Nat.reduceOr]

theorem tgaDeliver_touch {μ : Nat} {o_ s : State} (o : TgaFrom) (x : TgaAns) (h : Touch μ o_ s) (hm : 0x100000000000006100c0000000040000a0480 ||| μ = μ := by decide) : Touch μ o_ (tgaDeliver o x s) := by
  refine h.step hm ?_
  unfold tgaDeliver; repeat' first | (simp (maxDischargeDepth := 80) only [sendPkt_touch, wr_touch, post_touch, ok_TGAW_DATA_VALUE, ok_TGAW_EPOCH_EPOCH, ok_TGAW_FROM_ANSWERER, ok_TGAW_RESULT_SEQ, Touch.refl, Nat.reduceOr, wr_touch]; done) | split

theorem useCache_touch {μ : Nat} {o s : State} (t : TgaCache) (h : Touch μ o s) (hm : 0x100000 ||| μ = μ := by decide) : Touch μ o (useCache t s) := by
  refine h.step hm ?_
  unfold useCache; simp only [setCrv_touch, Touch.refl, Nat.reduceOr]

theorem tgaAns_touch {μ : Nat} {o s : State} (h : Touch μ o s) (hm : 0x100000000000006100c0000000040001a2480 ||| μ = μ := by decide) : Touch μ o (tgaAns s) := by
  refine h.step hm ?_
  unfold tgaAns; repeat' first | (rename_i heq; replace heq := takePkt_touch (Touch.refl 0x100000000000006100c0000000040001a2480 _) heq) | (simp (maxDischargeDepth := 80) only [showTga_touch, setCrv_touch, tgaDeliver_touch, useCache_touch, Touch.refl, ite_touch, Nat.reduceOr, *]; done) | with_reducible (refine ite_touch ?_ ?_) | with_reducible (refine foldl_touch (fun _ _ => ?_) ?_) | split | (dsimp only; with_reducible (refine ite_touch ?_ ?_)) | (dsimp only; split)

theorem tgaTmo_touch {μ : Nat} {o s : State} (h : Touch μ o s) (hm : 0x100000000000006100c0000000040001b0480 ||| μ = μ := by decide) : Touch μ o (tgaTmo s) := by
  refine h.step hm ?_
  unfold tgaTmo; repeat' first | (simp (maxDischargeDepth := 80) only [reachBase_touch, showTga_touch, setCrv_touch, tgaDeliver_touch, report_touch, ok_CRV_ERR_TGA_TMO, Touch.refl, ite_touch, Nat.reduceOr]; done) | split

theorem tgaFence_touch {μ : Nat} {o s : State} (h : Touch μ o s) (hm : 0x100000000000006100c0000000040001a0480 ||| μ = μ := by decide) : Touch μ o (tgaFence s) := by
  refine h.step hm ?_
  unfold tgaFence; simp (maxDischargeDepth := 80) only [tgaDeliver_touch, showTga_touch, setCrv_touch, implies_true, Touch.refl, foldl_touch, Nat.reduceOr]

/-! Recovery. -/

theorem putFence_touch {μ : Nat} {o s : State} (t : Nat) (v : FenceRec) (h : Touch μ o s) (hm : 0x800000000 ||| μ = μ := by decide) : Touch μ o (putFence t v s) := by
  refine h.step hm ?_
  unfold putFence; simp only [setRcv_touch, Touch.refl, Nat.reduceOr]

theorem showNotices_touch {μ : Nat} {o s : State} (h : Touch μ o s) (hm : 0x800000000000000000000 ||| μ = μ := by decide) : Touch μ o (showNotices s) := by
  refine h.step hm ?_
  unfold showNotices; simp only [set_touch, ok_RCV_STATUS_NOTICES, Touch.refl, Nat.reduceOr]

theorem noticeQueue_touch {μ : Nat} {o s : State} (t : Nat) (b : List Byte) (h : Touch μ o s) (hm : 0x61800000000004800000480 ||| μ = μ := by decide) : Touch μ o (noticeQueue t b s) := by
  refine h.step hm ?_
  unfold noticeQueue; split <;> simp only [report_touch, showNotices_touch, setRcv_touch, ok_RCV_ERR_NOTICE_DROP, Touch.refl, Nat.reduceOr]

theorem noticeSend_touch {μ : Nat} {o s : State} (h : Touch μ o s) (hm : 0x618080000000048000a0480 ||| μ = μ := by decide) : Touch μ o (noticeSend s) := by
  refine h.step hm ?_
  unfold noticeSend; repeat' first | (simp (maxDischargeDepth := 80) only [sendFm_touch, showNotices_touch, setRcv_touch, Touch.refl, ite_touch, Nat.reduceOr]; done) | split

theorem fenceEnd_touch {μ : Nat} {o s : State} (k status : Nat) (d : Option Dump) (held : Bool) (h : Touch μ o s) (hm : 0x61800000000004800000480 ||| μ = μ := by decide) : Touch μ o (fenceEnd k status d held s) := by
  refine h.step hm ?_
  unfold fenceEnd; repeat' first | (simp (maxDischargeDepth := 80) only [noticeQueue_touch, ordDone_touch, putOrd_touch, Touch.refl, ite_touch, Nat.reduceOr]; done) | split

theorem dumpNext_touch {μ : Nat} {o s : State} (h : Touch μ o s) (hm : 0x800000000000800000000 ||| μ = μ := by decide) : Touch μ o (dumpNext s) := by
  refine h.step hm ?_
  unfold dumpNext; repeat' first | (simp (maxDischargeDepth := 80) only [putOrd_touch, setRcv_touch, set_touch, ok_RCV_STATUS_DUMP_BUSY, ok_RCV_DUMP_LAST_DUMP_ID, Touch.refl, Nat.reduceOr]; done) | split

theorem dumpProbe_touch {μ : Nat} {o s : State} (p : Nat) (shadow : Bool) (h : Touch μ o s) (hm : 0x61800000000004800000480 ||| μ = μ := by decide) : Touch μ o (dumpProbe p shadow s) := by
  refine h.step hm ?_
  unfold dumpProbe; repeat' first | (simp only [report_touch, setRcv_touch, ok_RCV_ERR_UNRESPONSIVE, Touch.refl, Nat.reduceOr]; done) | split

theorem dumpWrite_touch {μ : Nat} {o s : State} (d : Dump) (h : Touch μ o s) (hm : 0x800001000 ||| μ = μ := by decide) : Touch μ o (dumpWrite d s) := by
  refine h.step hm ?_
  unfold dumpWrite; simp only [memRequest_touch, setRcv_touch, Touch.refl, Nat.reduceOr]

theorem dumpHold_touch {μ : Nat} {o s : State} (d : Dump) (h : Touch μ o s) (hm : 0x61800000000004800000480 ||| μ = μ := by decide) : Touch μ o (dumpHold d s) := by
  refine h.step hm ?_
  unfold dumpHold; split <;> simp only [setRcv_touch, fenceEnd_touch, Touch.refl, Nat.reduceOr]

theorem dumpBuilt_touch {μ : Nat} {o s : State} (h : Touch μ o s) (hm : 0x61800000000004800001480 ||| μ = μ := by decide) : Touch μ o (dumpBuilt s) := by
  refine h.step hm ?_
  unfold dumpBuilt; repeat' first | (simp (maxDischargeDepth := 80) only [setRcv_touch, set_touch, report_touch, dumpWrite_touch, dumpHold_touch, ok_RCV_DUMP_LAST_LENGTH, ok_RCV_STATUS_DBUF_HELD, ok_RCV_STATUS_DUMP_BUSY, ok_RCV_ERR_DUMP_TRUNC, Touch.refl, ite_touch, Nat.reduceOr]; done) | split

theorem dumpWritten_touch {μ : Nat} {o s : State} (h : Touch μ o s) (hm : 0x61800000000004800001480 ||| μ = μ := by decide) : Touch μ o (dumpWritten s) := by
  refine h.step hm ?_
  unfold dumpWritten; repeat' first | (simp (maxDischargeDepth := 80) only [memForget_touch, dumpHold_touch, set_touch, setRcv_touch, note_touch, dumpNext_touch, fenceEnd_touch, ok_RCV_STATUS_DBUF_HELD, Touch.refl, Nat.reduceOr]; done) | split

theorem heldWrite_touch {μ : Nat} {o s : State} (h : Touch μ o s) (hm : 0x800001000 ||| μ = μ := by decide) : Touch μ o (heldWrite s) := by
  refine h.step hm ?_
  unfold heldWrite; split <;> simp only [dumpWrite_touch, Touch.refl, ite_touch, Nat.reduceOr]

theorem dumpDiscard_touch {μ : Nat} {o s : State} (h : Touch μ o s) (hm : 0x800000000000800000000 ||| μ = μ := by decide) : Touch μ o (dumpDiscard s) := by
  refine h.step hm ?_
  unfold dumpDiscard; repeat' first | (simp (maxDischargeDepth := 80) only [dumpNext_touch, set_touch, setRcv_touch, ok_RCV_STATUS_DBUF_HELD, Touch.refl, ite_touch, Nat.reduceOr]; done) | split

theorem probeFenced_touch {μ : Nat} {o s : State} (h : Touch μ o s) (hm : 0x61100000000004040000480 ||| μ = μ := by decide) : Touch μ o (probeFenced s) := by
  refine h.step hm ?_
  unfold probeFenced; repeat' first | (simp (maxDischargeDepth := 80) only [probeOver_touch, report_touch, probeStat_touch, ok_FLT_ERR_PROBE_NOANS, ok_FLT_PROBE_STATS_NOANSWER, Touch.refl, ite_touch, Nat.reduceOr]; done) | split

theorem fenceNow_touch {μ : Nat} {o s : State} (t : Nat) (h : Touch μ o s) (hm : 0x10100000000000007930c1800000049401e1c84 ||| μ = μ := by decide) : Touch μ o (fenceNow t s) := by
  refine h.step hm ?_
  unfold fenceNow; repeat' first | (simp (maxDischargeDepth := 80) only [setRcv_touch, cwFence_touch, set_touch, curAbort_touch, tgaFence_touch, snapEnd_touch, probeFenced_touch, setBit_touch, ok_CTL_STATUS_RUNNING, ok_EOP_FENCE_STATE0_REQ, touch_mk, Touch.refl, ite_touch, Nat.reduceOr, true_or, or_true]; done) | split

theorem fenceStart_touch {μ : Nat} {o s : State} (t reason : Nat) (h : Touch μ o s) (hm : 0x101000000000000079b0c1800000049401e1c84 ||| μ = μ := by decide) : Touch μ o (fenceStart t reason s) := by
  refine h.step hm ?_
  unfold fenceStart; simp (maxDischargeDepth := 80) only [prod_touch, fenceNow_touch, putFence_touch, setFence_touch, note_touch, Touch.refl, Nat.reduceOr]

theorem fenceReached_touch {μ : Nat} {o s : State} (t : Nat) (forced errResp : Bool) (h : Touch μ o s) (hm : 0x61800000000004800000480 ||| μ = μ := by decide) : Touch μ o (fenceReached t forced errResp s) := by
  refine h.step hm ?_
  unfold fenceReached; repeat' first | (simp (maxDischargeDepth := 80) only [putFence_touch, setFence_touch, dumpNext_touch, putOrd_touch, fenceEnd_touch, Touch.refl, ite_touch, Nat.reduceOr]; done) | with_reducible (refine ite_touch ?_ ?_) | with_reducible (refine foldl_touch (fun _ _ => ?_) ?_) | split | (dsimp only; with_reducible (refine ite_touch ?_ ?_)) | (dsimp only; split)

theorem fenceDrained_touch {μ : Nat} {o s : State} (t : Nat) (h : Touch μ o s) (hm : 0x61800000000004800000480 ||| μ = μ := by decide) : Touch μ o (fenceDrained t s) := by
  refine h.step hm ?_
  unfold fenceDrained; simp only [fenceReached_touch, Touch.refl, ite_touch, Nat.reduceOr]

theorem fenceForce_touch {μ : Nat} {o s : State} (t units : Nat) (h : Touch μ o s) (hm : 0x716381000000045186a1480 ||| μ = μ := by decide) : Touch μ o (fenceForce t units s) := by
  refine h.step hm ?_
  unfold fenceForce; repeat' first | (simp (maxDischargeDepth := 80) only [jobPost_touch, setTre_touch, arrPost_touch, memFollow_touch, linkReset_touch, implies_true, Touch.refl, foldl_touch, ite_touch, Nat.reduceOr]; done) | with_reducible (refine ite_touch ?_ ?_) | with_reducible (refine foldl_touch (fun _ _ => ?_) ?_) | split

theorem drainTmo_touch {μ : Nat} {o s : State} (t stuck : Nat) (h : Touch μ o s) (hm : 0x71e38100000004d186b1480 ||| μ = μ := by decide) : Touch μ o (drainTmo t stuck s) := by
  refine h.step hm ?_
  unfold drainTmo; simp (maxDischargeDepth := 80) only [reachBase_touch, fenceReached_touch, report_touch, fenceForce_touch, ok_RCV_ERR_FORCED, Touch.refl, ite_touch, Nat.reduceOr]

theorem fenceOpen_touch {μ : Nat} {o s : State} (t : Nat) (h : Touch μ o s) (hm : 0x69c00000000004a00001480 ||| μ = μ := by decide) : Touch μ o (fenceOpen t s) := by
  refine h.step hm ?_
  unfold fenceOpen; repeat' first | (simp (maxDischargeDepth := 80) only [setRcv_touch, setFence_touch, note_touch, runCores_touch, cmpKick_touch, Touch.refl, Nat.reduceOr]; done) | split

theorem ackHigh_touch {μ : Nat} {o s : State} (d : Nat) (h : Touch μ o s) (hm : 0x800080000000800000000 ||| μ = μ := by decide) : Touch μ o (ackHigh d s) := by
  refine h.step hm ?_
  unfold ackHigh; simp (maxDischargeDepth := 80) only [setBit_touch, setFence_touch, putFence_touch, ok_EOP_FENCE_STATE0_ACK, Touch.refl, ite_touch, Nat.reduceOr]

theorem drainDone_touch {μ : Nat} {o s : State} (d : Nat) (errResp : Bool) (h : Touch μ o s) (hm : 0x61800080000004800000480 ||| μ = μ := by decide) : Touch μ o (drainDone d errResp s) := by
  refine h.step hm ?_
  unfold drainDone; simp (maxDischargeDepth := 80) only [setBit_touch, fenceReached_touch, ok_EOP_FENCE_STATE1_ERR_RESP, ok_EOP_FENCE_STATE1_DRAIN_DONE, Touch.refl, ite_touch, Nat.reduceOr]

theorem linesLow_touch {μ : Nat} {o s : State} (d : Nat) (h : Touch μ o s) (hm : 0x69c00080000004a00001480 ||| μ = μ := by decide) : Touch μ o (linesLow d s) := by
  refine h.step hm ?_
  unfold linesLow; repeat' first | (simp (maxDischargeDepth := 80) only [setBit_touch, fenceOpen_touch, ordDone_touch, ok_EOP_FENCE_STATE1_ERR_RESP, ok_EOP_FENCE_STATE1_DRAIN_DONE, ok_EOP_FENCE_STATE0_ACK, Touch.refl, Nat.reduceOr]; done) | with_reducible (refine ite_touch ?_ ?_) | with_reducible (refine foldl_touch (fun _ _ => ?_) ?_) | split | (dsimp only; with_reducible (refine ite_touch ?_ ?_)) | (dsimp only; split)

theorem hostTimeout_touch {μ : Nat} {o s : State} (t : Nat) (h : Touch μ o s) (hm : 0x61800000000004800000480 ||| μ = μ := by decide) : Touch μ o (hostTimeout t s) := by
  refine h.step hm ?_
  unfold hostTimeout; repeat' first | (simp (maxDischargeDepth := 80) only [setFence_touch, fenceEnd_touch, Touch.refl, Nat.reduceOr]; done) | with_reducible (refine ite_touch ?_ ?_) | with_reducible (refine foldl_touch (fun _ _ => ?_) ?_) | split | (dsimp only; with_reducible (refine ite_touch ?_ ?_)) | (dsimp only; split)

theorem ackTmo_touch {μ : Nat} {o s : State} (d : Nat) (h : Touch μ o s) (hm : 0x61800080000004800030480 ||| μ = μ := by decide) : Touch μ o (ackTmo d s) := by
  refine h.step hm ?_
  unfold ackTmo; simp (maxDischargeDepth := 80) only [reachBase_touch, hostTimeout_touch, report_touch, ok_EOP_ERR_FENCE_ACK_TMO, Touch.refl, ite_touch, Nat.reduceOr]

theorem doneTmo_touch {μ : Nat} {o s : State} (d : Nat) (h : Touch μ o s) (hm : 0x61800080000004800030480 ||| μ = μ := by decide) : Touch μ o (doneTmo d s) := by
  refine h.step hm ?_
  unfold doneTmo; repeat' first | (simp (maxDischargeDepth := 80) only [reachBase_touch, hostTimeout_touch, report_touch, ok_EOP_ERR_FENCE_DRAIN_TMO, Touch.refl, ite_touch, Nat.reduceOr]; done) | with_reducible (refine ite_touch ?_ ?_) | with_reducible (refine foldl_touch (fun _ _ => ?_) ?_) | split | (dsimp only; with_reducible (refine ite_touch ?_ ?_)) | (dsimp only; split)

theorem fenceProto_touch {μ : Nat} {o s : State} (d line : Nat) (h : Touch μ o s) (hm : 0x61000080000004000000c80 ||| μ = μ := by decide) : Touch μ o (fenceProto d line s) := by
  refine h.step hm ?_
  unfold fenceProto; split <;> simp only [report_touch, ok_EOP_ERR_FENCE_PROTO, touch_mk, Touch.refl, Nat.reduceOr, true_or, or_true]

theorem tearSched_touch {μ : Nat} {o s : State} (k : Nat) (h : Touch μ o s) (hm : 0x1000000000000020000 ||| μ = μ := by decide) : Touch μ o (tearSched k s) := by
  refine h.step hm ?_
  unfold tearSched; simp (maxDischargeDepth := 80) only [schedIdle_touch, setSchedState_touch, set_touch, ok_TLY_SCHED_CTL_EN, Touch.refl, ite_touch, Nat.reduceOr]

theorem tearBegin_touch {μ : Nat} {o_ s : State} (o : RcvOrd) (step : Nat) (h : Touch μ o_ s) (hm : 0x101000000000000079b0d1800000049401e1c84 ||| μ = μ := by decide) : Touch μ o_ (tearBegin o step s) := by
  refine h.step hm ?_
  unfold tearBegin; repeat' first | (simp (maxDischargeDepth := 80) only [tearSched_touch, fenceStart_touch, drainDomain_touch, touch_mk, implies_true, Touch.refl, foldl_touch, ite_touch, Nat.reduceOr, true_or, or_true]; done) | split

theorem tearNext_touch {μ : Nat} {o s : State} (k : Nat) (h : Touch μ o s) (hm : 0x101000000000000079b0d1800000049401e1c84 ||| μ = μ := by decide) : Touch μ o (tearNext k s) := by
  refine h.step hm ?_
  unfold tearNext; repeat' first | (simp only [ordDone_touch, note_touch, tearBegin_touch, putOrd_touch, Touch.refl, Nat.reduceOr]; done) | split

theorem tearTmo_touch {μ : Nat} {o s : State} (k : Nat) (h : Touch μ o s) (hm : 0x61800000000004800030480 ||| μ = μ := by decide) : Touch μ o (tearTmo k s) := by
  refine h.step hm ?_
  unfold tearTmo; repeat' first | (simp (maxDischargeDepth := 80) only [reachBase_touch, ordDone_touch, note_touch, Touch.refl, ite_touch, Nat.reduceOr]; done) | split

theorem ordAdd_touch {μ : Nat} {o_ s : State} (k : Nat) (o : RcvOrd) (h : Touch μ o_ s) (hm : 0x800000000000800000000 ||| μ = μ := by decide) : Touch μ o_ (ordAdd k o s) := by
  refine h.step hm ?_
  unfold ordAdd; simp (maxDischargeDepth := 80) only [showOrders_touch, set_touch, setRcv_touch, ok_RCV_ORD_CMD_START, Touch.refl, Nat.reduceOr]

theorem fenceOrd_touch {μ : Nat} {o_ s : State} (k : Nat) (o : RcvOrd) (h : Touch μ o_ s) (hm : 0x101000000000000079b0c1800000049401e1c84 ||| μ = μ := by decide) : Touch μ o_ (fenceOrd k o s) := by
  refine h.step hm ?_
  unfold fenceOrd; simp (maxDischargeDepth := 80) only [rcvPost_touch, fenceStart_touch, ordAdd_touch, Touch.refl, ite_touch, Nat.reduceOr]

theorem dumpOrd_touch {μ : Nat} {o_ s : State} (k : Nat) (o : RcvOrd) (h : Touch μ o_ s) (hm : 0x61800000000004800000480 ||| μ = μ := by decide) : Touch μ o_ (dumpOrd k o s) := by
  refine h.step hm ?_
  unfold dumpOrd; simp (maxDischargeDepth := 80) only [rcvPost_touch, fenceEnd_touch, ordAdd_touch, dumpNext_touch, Touch.refl, ite_touch, Nat.reduceOr]

theorem resetOrd_touch {μ : Nat} {o_ s : State} (k : Nat) (o : RcvOrd) (h : Touch μ o_ s) (hm : 0xffffffff0101ff00000000002f9ffffe000001fffdff7cc4 ||| μ = μ := by decide) : Touch μ o_ (resetOrd k o s) := by
  refine h.step hm ?_
  unfold resetOrd; simp (maxDischargeDepth := 80) only [rcvPost_touch, rstRefused_touch, requestResets_touch, setFence_touch, ordAdd_touch, Touch.refl, ite_touch, Nat.reduceOr]

theorem releaseOrd_touch {μ : Nat} {o_ s : State} (k : Nat) (o : RcvOrd) (h : Touch μ o_ s) (hm : 0x69c00080000004a00001480 ||| μ = μ := by decide) : Touch μ o_ (releaseOrd k o s) := by
  refine h.step hm ?_
  unfold releaseOrd; simp (maxDischargeDepth := 80) only [rcvPost_touch, ordDone_touch, fenceOpen_touch, ordAdd_touch, setBit_touch, setFence_touch, ok_EOP_FENCE_STATE0_REQ, Touch.refl, ite_touch, Nat.reduceOr]

theorem forceOrd_touch {μ : Nat} {o_ s : State} (k : Nat) (o : RcvOrd) (h : Touch μ o_ s) (hm : 0x60800000000004800000400 ||| μ = μ := by decide) : Touch μ o_ (forceOrd k o s) := by
  refine h.step hm ?_
  unfold forceOrd; simp (maxDischargeDepth := 80) only [rcvPost_touch, putFence_touch, setFence_touch, ordDone_touch, ordAdd_touch, Touch.refl, ite_touch, Nat.reduceOr]

theorem tearOrd_touch {μ : Nat} {o_ s : State} (k : Nat) (o : RcvOrd) (h : Touch μ o_ s) (hm : 0x101000000000000079b0d1800000049401e1c84 ||| μ = μ := by decide) : Touch μ o_ (tearOrd k o s) := by
  refine h.step hm ?_
  unfold tearOrd; split <;> simp only [rcvPost_touch, tearBegin_touch, ordAdd_touch, Touch.refl, Nat.reduceOr]

theorem rcvStart_touch {μ : Nat} {o s : State} (k : Nat) (h : Touch μ o s) (hm : 0xffffffff0101ff00000000002f9ffffe000001fffdff7cc4 ||| μ = μ := by decide) : Touch μ o (rcvStart k s) := by
  refine h.step hm ?_
  unfold rcvStart; repeat' first | (simp (maxDischargeDepth := 80) only [rcvPost_touch, undefinedField_touch, tearOrd_touch, fenceOrd_touch, dumpOrd_touch, resetOrd_touch, releaseOrd_touch, forceOrd_touch, Touch.refl, Nat.reduceOr]; done) | with_reducible (refine ite_touch ?_ ?_) | with_reducible (refine foldl_touch (fun _ _ => ?_) ?_) | split

theorem releaseTmo_touch {μ : Nat} {o s : State} (d : Nat) (h : Touch μ o s) (hm : 0x60800000000004800030400 ||| μ = μ := by decide) : Touch μ o (releaseTmo d s) := by
  refine h.step hm ?_
  unfold releaseTmo; repeat' first | (simp only [ordDone_touch, reachBase_touch, Touch.refl, Nat.reduceOr]; done) | split

theorem holdEnter_touch {μ : Nat} {o s : State} (cause : Nat) (h : Touch μ o s) (hm : 0x61800000000004000000480 ||| μ = μ := by decide) : Touch μ o (holdEnter cause s) := by
  refine h.step hm ?_
  unfold holdEnter; simp (maxDischargeDepth := 80) only [note_touch, set_touch, ok_RCV_HOLD_STATUS_CAUSE, ok_RCV_HOLD_STATUS_STATE, Touch.refl, ite_touch, Nat.reduceOr]

theorem holdLink_touch {μ : Nat} {o s : State} (h : Touch μ o s) (hm : 0x61800000000004000030480 ||| μ = μ := by decide) : Touch μ o (holdLink s) := by
  refine h.step hm ?_
  unfold holdLink; split <;> simp only [holdEnter_touch, reachBase_touch, Touch.refl, Nat.reduceOr]

theorem holdExit_touch {μ : Nat} {o s : State} (h : Touch μ o s) (hm : 0x618080000000040021a1480 ||| μ = μ := by decide) : Touch μ o (holdExit s) := by
  refine h.step hm ?_
  unfold holdExit; repeat' first | (simp (maxDischargeDepth := 80) only [set_touch, setMode_touch, tellParent_touch, ok_RCV_HOLD_STATUS_STATE, touch_mk, implies_true, Touch.refl, foldl_touch, ite_touch, Nat.reduceOr, true_or, or_true]; done) | split

theorem holdEnd_touch {μ : Nat} {o s : State} (h : Touch μ o s) (hm : 0x61800000000004002000480 ||| μ = μ := by decide) : Touch μ o (holdEnd s) := by
  refine h.step hm ?_
  unfold holdEnd; simp (maxDischargeDepth := 80) only [note_touch, set_touch, ok_RCV_HOLD_STATUS_CAUSE, ok_RCV_HOLD_STATUS_STATE, touch_mk, Touch.refl, Nat.reduceOr, true_or, or_true]

theorem holdDrain_touch {μ : Nat} {o s : State} (h : Touch μ o s) (hm : 0x618080000000040020a1480 ||| μ = μ := by decide) : Touch μ o (holdDrain s) := by
  refine h.step hm ?_
  unfold holdDrain; repeat' first | (simp (maxDischargeDepth := 80) only [holdEnd_touch, memRequest_touch, memForget_touch, set_touch, sendPkt_touch, bump_touch, ok_RCV_HOLD_RDPTR_RDPTR, ok_RCV_HOLD_LOST_LOST, touch_mk, Touch.refl, ite_touch, Nat.reduceOr, true_or, or_true]; done) | with_reducible (refine ite_touch ?_ ?_) | with_reducible (refine foldl_touch (fun _ _ => ?_) ?_) | split

theorem drainReceive_touch {μ : Nat} {o s : State} (h : Touch μ o s) (hm : 0x610080000000040000a2480 ||| μ = μ := by decide) : Touch μ o (drainReceive s) := by
  refine h.step hm ?_
  unfold drainReceive; repeat' first | (rename_i heq; replace heq := takePkt_touch (Touch.refl 0x610080000000040000a2480 _) heq) | (simp (maxDischargeDepth := 80) only [sendPkt_touch, Touch.refl, Nat.reduceOr, *]; done) | with_reducible (refine ite_touch ?_ ?_) | with_reducible (refine foldl_touch (fun _ _ => ?_) ?_) | split

theorem coreBeat_touch {μ : Nat} {o s : State} (c : Nat) (h : Touch μ o s) (hm : 0x800000000000000000000 ||| μ = μ := by decide) : Touch μ o (coreBeat c s) := by
  refine h.step hm ?_
  unfold coreBeat; simp (maxDischargeDepth := 80) only [set_touch, ok_RCV_HB_CORE_LAST_US, ok_RCV_HB_CORE_COUNT, Touch.refl, Nat.reduceOr]

theorem rcvConsume_touch {μ : Nat} {o s : State} (k a : Nat) (acc : Acc) (h : Touch μ o s) (ha : InPages μ a) (hm : 0x63800000000004800000580 ||| μ = μ := by decide) : Touch μ o (rcvConsume k a acc s) := by
  have e0 : 0x800000000 ||| μ = μ := or_sub hm (by decide)
  have e1 : 0x800000000000000000000 ||| μ = μ := or_sub hm (by decide)
  have e2 : 0x1000000000000000000000 ||| μ = μ := or_sub hm (by decide)
  have e3 : 0x2000000000000000000000 ||| μ = μ := or_sub hm (by decide)
  have e4 : 0x20000000000000000000000 ||| μ = μ := or_sub hm (by decide)
  have e5 : 0x40000000000000000000000 ||| μ = μ := or_sub hm (by decide)
  have e6 : 0x60800000000004800000400 ||| μ = μ := or_sub hm (by decide)
  have e7 : 0x63000000000004000000580 ||| μ = μ := or_sub hm (by decide)
  unfold rcvConsume; repeat' first | (simp (maxDischargeDepth := 80) only [consume_touch, rcvPost_touch, setRcv_touch, ite_touch, e0, e6, e7, ha, h]; done) | with_reducible (refine ite_touch ?_ ?_) | with_reducible (refine foldl_touch (fun _ _ => ?_) ?_) | split | (dsimp only; with_reducible (refine ite_touch ?_ ?_)) | (dsimp only; split)

theorem rcvWrite_touch {μ : Nat} {o s : State} (a : Nat) (acc : Acc) (h : Touch μ o s) (ha : InPages μ a) (hm : 0xffffffff0101ff00000000002fbffffe000001ffffff7dc4 ||| μ = μ := by decide) : Touch μ o (rcvWrite a acc s) := by
  have e0 : 0x20000000000000000 ||| μ = μ := or_sub hm (by decide)
  have e1 : 0x40000000000000000 ||| μ = μ := or_sub hm (by decide)
  have e2 : 0x80000000000000000 ||| μ = μ := or_sub hm (by decide)
  have e3 : 0x100000000000000000 ||| μ = μ := or_sub hm (by decide)
  have e4 : 0x200000000000000000 ||| μ = μ := or_sub hm (by decide)
  have e5 : 0x400000000000000000 ||| μ = μ := or_sub hm (by decide)
  have e6 : 0x800000000000000000 ||| μ = μ := or_sub hm (by decide)
  have e7 : 0x1000000000000000000 ||| μ = μ := or_sub hm (by decide)
  have e8 : 0x2000000000000000000 ||| μ = μ := or_sub hm (by decide)
  have e9 : 0x4000000000000000000 ||| μ = μ := or_sub hm (by decide)
  have e10 : 0x8000000000000000000 ||| μ = μ := or_sub hm (by decide)
  have e11 : 0x10000000000000000000 ||| μ = μ := or_sub hm (by decide)
  have e12 : 0x20000000000000000000 ||| μ = μ := or_sub hm (by decide)
  have e13 : 0x40000000000000000000 ||| μ = μ := or_sub hm (by decide)
  have e14 : 0x80000000000000000000 ||| μ = μ := or_sub hm (by decide)
  have e15 : 0x100000000000000000000 ||| μ = μ := or_sub hm (by decide)
  have e16 : 0x200000000000000000000 ||| μ = μ := or_sub hm (by decide)
  have e17 : 0x400000000000000000000 ||| μ = μ := or_sub hm (by decide)
  have e18 : 0x800000000000000000000 ||| μ = μ := or_sub hm (by decide)
  have e19 : 0x800000000000800000000 ||| μ = μ := or_sub hm (by decide)
  have e20 : 0x1000000000000000000000 ||| μ = μ := or_sub hm (by decide)
  have e21 : 0x2000000000000000000000 ||| μ = μ := or_sub hm (by decide)
  have e22 : 0x8000000000000000000000 ||| μ = μ := or_sub hm (by decide)
  have e23 : 0x10000000000000000000000 ||| μ = μ := or_sub hm (by decide)
  have e24 : 0x20000000000000000000000 ||| μ = μ := or_sub hm (by decide)
  have e25 : 0x40000000000000000000000 ||| μ = μ := or_sub hm (by decide)
  have e26 : 0x61800000000004000000480 ||| μ = μ := or_sub hm (by decide)
  have e27 : 0x618080000000040021a1480 ||| μ = μ := or_sub hm (by decide)
  have e28 : 0x62000000000004000000500 ||| μ = μ := or_sub hm (by decide)
  have e29 : 0x63800000000004800000580 ||| μ = μ := or_sub hm (by decide)
  have e30 : 0x80000000000000000000000 ||| μ = μ := or_sub hm (by decide)
  have e31 : 0x200000000000000000000000 ||| μ = μ := or_sub hm (by decide)
  have e32 : 0x10000000000000000000000000000000000 ||| μ = μ := or_sub hm (by decide)
  have e33 : 0x20000000000000000000000000000000000 ||| μ = μ := or_sub hm (by decide)
  have e34 : 0x40000000000000000000000000000000000 ||| μ = μ := or_sub hm (by decide)
  have e35 : 0x80000000000000000000000000000000000 ||| μ = μ := or_sub hm (by decide)
  have e36 : 0x100000000000000000000000000000000000 ||| μ = μ := or_sub hm (by decide)
  have e37 : 0x200000000000000000000000000000000000 ||| μ = μ := or_sub hm (by decide)
  have e38 : 0x400000000000000000000000000000000000 ||| μ = μ := or_sub hm (by decide)
  have e39 : 0x800000000000000000000000000000000000 ||| μ = μ := or_sub hm (by decide)
  have e40 : 0x1000000000000000000000000000000000000 ||| μ = μ := or_sub hm (by decide)
  have e41 : 0x100000000000000000000000000000000000000 ||| μ = μ := or_sub hm (by decide)
  have e42 : 0x10000000000000000000000000000000000000000 ||| μ = μ := or_sub hm (by decide)
  have e43 : 0x20000000000000000000000000000000000000000 ||| μ = μ := or_sub hm (by decide)
  have e44 : 0x40000000000000000000000000000000000000000 ||| μ = μ := or_sub hm (by decide)
  have e45 : 0x80000000000000000000000000000000000000000 ||| μ = μ := or_sub hm (by decide)
  have e46 : 0x100000000000000000000000000000000000000000 ||| μ = μ := or_sub hm (by decide)
  have e47 : 0x200000000000000000000000000000000000000000 ||| μ = μ := or_sub hm (by decide)
  have e48 : 0x400000000000000000000000000000000000000000 ||| μ = μ := or_sub hm (by decide)
  have e49 : 0x800000000000000000000000000000000000000000 ||| μ = μ := or_sub hm (by decide)
  have e50 : 0x1000000000000000000000000000000000000000000 ||| μ = μ := or_sub hm (by decide)
  have e51 : 0x2000000000000000000000000000000000000000000 ||| μ = μ := or_sub hm (by decide)
  have e52 : 0x4000000000000000000000000000000000000000000 ||| μ = μ := or_sub hm (by decide)
  have e53 : 0x8000000000000000000000000000000000000000000 ||| μ = μ := or_sub hm (by decide)
  have e54 : 0x10000000000000000000000000000000000000000000 ||| μ = μ := or_sub hm (by decide)
  have e55 : 0x20000000000000000000000000000000000000000000 ||| μ = μ := or_sub hm (by decide)
  have e56 : 0x40000000000000000000000000000000000000000000 ||| μ = μ := or_sub hm (by decide)
  have e57 : 0x80000000000000000000000000000000000000000000 ||| μ = μ := or_sub hm (by decide)
  have e58 : 0x100000000000000000000000000000000000000000000 ||| μ = μ := or_sub hm (by decide)
  have e59 : 0x200000000000000000000000000000000000000000000 ||| μ = μ := or_sub hm (by decide)
  have e60 : 0x400000000000000000000000000000000000000000000 ||| μ = μ := or_sub hm (by decide)
  have e61 : 0x800000000000000000000000000000000000000000000 ||| μ = μ := or_sub hm (by decide)
  have e62 : 0x1000000000000000000000000000000000000000000000 ||| μ = μ := or_sub hm (by decide)
  have e63 : 0x2000000000000000000000000000000000000000000000 ||| μ = μ := or_sub hm (by decide)
  have e64 : 0x4000000000000000000000000000000000000000000000 ||| μ = μ := or_sub hm (by decide)
  have e65 : 0x8000000000000000000000000000000000000000000000 ||| μ = μ := or_sub hm (by decide)
  have e66 : 0x10000000000000000000000000000000000000000000000 ||| μ = μ := or_sub hm (by decide)
  have e67 : 0x20000000000000000000000000000000000000000000000 ||| μ = μ := or_sub hm (by decide)
  have e68 : 0x40000000000000000000000000000000000000000000000 ||| μ = μ := or_sub hm (by decide)
  have e69 : 0x80000000000000000000000000000000000000000000000 ||| μ = μ := or_sub hm (by decide)
  have e70 : 0x100000000000000000000000000000000000000000000000 ||| μ = μ := or_sub hm (by decide)
  have e71 : 0x200000000000000000000000000000000000000000000000 ||| μ = μ := or_sub hm (by decide)
  have e72 : 0x400000000000000000000000000000000000000000000000 ||| μ = μ := or_sub hm (by decide)
  have e73 : 0x800000000000000000000000000000000000000000000000 ||| μ = μ := or_sub hm (by decide)
  have e74 : 0xffffffff0101ff00000000002f9ffffe000001fffdff7cc4 ||| μ = μ := or_sub hm (by decide)
  unfold rcvWrite; repeat' first | (simp (maxDischargeDepth := 80) only [rcvConsume_touch, perform_touch, rcvStart_touch, coreBeat_touch, dumpDiscard_touch, holdExit_touch, holdEnter_touch, ite_touch, e18, e19, e26, e27, e28, e29, e74, ha, h]; done) | split

theorem ordRow_touch {μ : Nat} {o s : State} (op k : Nat) (acc : Acc) (h : Touch μ o s) (hm : 0xffffffff0101ff00000000002fbfffff000001ffffff7df4 ||| μ = μ := by decide) : Touch μ o (ordRow op k acc s) := by
  refine h.step hm ?_
  unfold ordRow; simp (maxDischargeDepth := 80) only [portWrite_touch, rcvWrite_touch, off_RCV_ORD_CMD_START, implies_true, Touch.refl, Nat.reduceOr]

/-! Epochs. -/

theorem stepMarks_touch {μ : Nat} {o s : State} (input n : Nat) (h : Touch μ o s) (hm : 0x61001000000004000020480 ||| μ = μ := by decide) : Touch μ o (stepMarks input n s) := by
  refine h.step hm ?_
  unfold stepMarks; simp (maxDischargeDepth := 80) only [countInput_touch, Touch.refl, ite_touch, Nat.reduceOr]

theorem eopEvent_touch {μ : Nat} {o s : State} (input n : Nat) (h : Touch μ o s) (hm : 0x61801000000004000020480 ||| μ = μ := by decide) : Touch μ o (eopEvent input n s) := by
  refine h.step hm ?_
  unfold eopEvent; simp (maxDischargeDepth := 80) only [stepMarks_touch, countInput_touch, hostBeat_touch, implies_true, Touch.refl, foldl_touch, ite_touch, Nat.reduceOr]

theorem exportSketches_touch {μ : Nat} {o s : State} (d : Nat) (h : Touch μ o s) (hm : 0x100000 ||| μ = μ := by decide) : Touch μ o (exportSketches d s) := by
  refine h.step hm ?_
  unfold exportSketches; simp (maxDischargeDepth := 80) only [setCrv_touch, implies_true, Touch.refl, foldl_touch, ite_touch, Nat.reduceOr]

theorem sketchBoundary_touch {μ : Nat} {o s : State} (k n : Nat) (h : Touch μ o s) (hm : 0x180000 ||| μ = μ := by decide) : Touch μ o (sketchBoundary k n s) := by
  refine h.step hm ?_
  unfold sketchBoundary; split <;> simp only [exportSketches_touch, closeSketches_touch, Touch.refl, Nat.reduceOr]

theorem epochBegins_touch {μ : Nat} {o s : State} (k n : Nat) (h : Touch μ o s) (hm : 0x618480800000040a29a1c80 ||| μ = μ := by decide) : Touch μ o (epochBegins k n s) := by
  refine h.step hm ?_
  unfold epochBegins; simp (maxDischargeDepth := 80) only [seedBoundary_touch, markBoundary_touch, tellRoutes_touch, takeRefs_touch, beginEpoch_touch, Touch.refl, ite_touch, Nat.reduceOr]

theorem epochCut_touch {μ : Nat} {o s : State} (k : Nat) (h : Touch μ o s) (hm : 0x618490800000040a29b1c80 ||| μ = μ := by decide) : Touch μ o (epochCut k s) := by
  refine h.step hm ?_
  unfold epochCut; repeat' first | (rename_i heq; replace heq := boundaryReached_touch (Touch.refl 0x618490800000040a29b1c80 _) heq) | (simp (maxDischargeDepth := 80) only [epochBegins_touch, sketchBoundary_touch, strobe_touch, Touch.refl, ite_touch, Nat.reduceOr, *]; done) | with_reducible (refine ite_touch ?_ ?_) | with_reducible (refine foldl_touch (fun _ _ => ?_) ?_) | split

theorem cutComplete_touch {μ : Nat} {o s : State} (h : Touch μ o s) (hm : 0x61c0d0000000040061a1480 ||| μ = μ := by decide) : Touch μ o (cutComplete s) := by
  refine h.step hm ?_
  unfold cutComplete; repeat' first | (simp (maxDischargeDepth := 80) only [wbCut_touch, setTly_touch, handSample_touch, schedIdle_touch, Touch.refl, ite_touch, Nat.reduceOr]; done) | split

theorem shadowPass_touch {μ : Nat} {o s : State} (p : Nat) (answered : Bool) (h : Touch μ o s) (hm : 0x61001000000004000020480 ||| μ = μ := by decide) : Touch μ o (shadowPass p answered s) := by
  refine h.step hm ?_
  unfold shadowPass; simp (maxDischargeDepth := 80) only [setTly_touch, report_touch, ok_TLY_ERR_SHADOW_STALE, Touch.refl, ite_touch, Nat.reduceOr]

/-! Sync. -/

theorem setSyn_touch {μ : Nat} {o s : State} (y : SynSt) (h : Touch μ o s) (hm : 0x1000000000 ||| μ = μ := by decide) : Touch μ o (setSyn y s) := by
  refine h.step hm ?_
  unfold setSyn; simp only [touch_mk, Touch.refl, Nat.reduceOr, true_or, or_true]

theorem showWaiters_touch {μ : Nat} {o_ s : State} (o : Nat) (h : Touch μ o_ s) (hm : 0x10000000000000000000000 ||| μ = μ := by decide) : Touch μ o_ (showWaiters o s) := by
  refine h.step hm ?_
  unfold showWaiters; simp (maxDischargeDepth := 80) only [set_touch, ok_SYN_OBJ_VIEW0_HEAD, ok_SYN_OBJ_VIEW0_WAITERS, Touch.refl, Nat.reduceOr]

theorem signalWrite_touch {μ : Nat} {o s : State} (acc : Acc) (h : Touch μ o s) (hm : 0x71000000000004000000480 ||| μ = μ := by decide) : Touch μ o (signalWrite acc s) := by
  refine h.step hm ?_
  unfold signalWrite; split <;> simp only [syncSignal_touch, report_touch, ok_SYN_ERR_EXT_SIGNAL, Touch.refl, Nat.reduceOr]

theorem violationWrite_touch {μ : Nat} {o s : State} (acc : Acc) (h : Touch μ o s) (hm : 0x71000000000004000000480 ||| μ = μ := by decide) : Touch μ o (violationWrite acc s) := by
  refine h.step hm ?_
  unfold violationWrite; split <;> simp only [report_touch, tickFree_touch, ok_SYN_ERR_TASK_END, Touch.refl, Nat.reduceOr, tickFree_touch]

theorem setWrite_touch {μ : Nat} {o_ s : State} (o : Nat) (acc : Acc) (h : Touch μ o_ s) (hm : 0x72000000000004000000500 ||| μ = μ := by decide) : Touch μ o_ (setWrite o acc s) := by
  refine h.step hm ?_
  unfold setWrite; simp (maxDischargeDepth := 80) only [set_touch, perform_touch, ledger_touch, ok_SYN_OBJ_VIEW2_SET, ok_SYN_OBJ_VIEW1_LAST_TIME, ok_SYN_OBJ_VIEW1_LAST_AGENT, ok_SYN_OBJ_VIEW0_VALUE, Touch.refl, Nat.reduceOr]

theorem synWrite_touch {μ : Nat} {o s : State} (a : Nat) (acc : Acc) (h : Touch μ o s) (ha : InPages μ a) (hm : 0x73000000000004000000580 ||| μ = μ := by decide) : Touch μ o (synWrite a acc s) := by
  have e0 : 0x1000000000000000000000 ||| μ = μ := or_sub hm (by decide)
  have e1 : 0x2000000000000000000000 ||| μ = μ := or_sub hm (by decide)
  have e2 : 0x10000000000000000000000 ||| μ = μ := or_sub hm (by decide)
  have e3 : 0x20000000000000000000000 ||| μ = μ := or_sub hm (by decide)
  have e4 : 0x40000000000000000000000 ||| μ = μ := or_sub hm (by decide)
  have e5 : 0x62000000000004000000500 ||| μ = μ := or_sub hm (by decide)
  have e6 : 0x71000000000004000000480 ||| μ = μ := or_sub hm (by decide)
  have e7 : 0x72000000000004000000500 ||| μ = μ := or_sub hm (by decide)
  unfold synWrite; simp (maxDischargeDepth := 80) only [signalWrite_touch, violationWrite_touch, setWrite_touch, perform_touch, ite_touch, e5, e6, e7, ha, h]

theorem synWait_touch {μ : Nat} {o s : State} (c : Nat) (port : Port) (h : Touch μ o s) (hm : 0x10000000000001000000010 ||| μ = μ := by decide) : Touch μ o (synWait c port s) := by
  refine h.step hm ?_
  unfold synWait; simp (maxDischargeDepth := 80) only [showWaiters_touch, setSyn_touch, touch_mk, Touch.refl, ite_touch, Nat.reduceOr, true_or, or_true]

theorem waitEnd_touch {μ : Nat} {o s : State} (w : SynWait) (granted : Nat) (h : Touch μ o s) (hm : 0x10000000000001000000010 ||| μ = μ := by decide) : Touch μ o (waitEnd w granted s) := by
  refine h.step hm ?_
  unfold waitEnd; simp (maxDischargeDepth := 80) only [set_touch, showWaiters_touch, setSyn_touch, ok_SYN_WAIT_GO_GRANTED, touch_mk, Touch.refl, Nat.reduceOr, true_or, or_true]

theorem synGrant_touch {μ : Nat} {o_ s : State} (o : Nat) (h : Touch μ o_ s) (hm : 0x10000000000001000000010 ||| μ = μ := by decide) : Touch μ o_ (synGrant o s) := by
  refine h.step hm ?_
  unfold synGrant; repeat' first | (simp (maxDischargeDepth := 80) only [waitEnd_touch, set_touch, ok_SYN_OBJ_VIEW0_VALUE, Touch.refl, Nat.reduceOr]; done) | split

theorem synTimeout_touch {μ : Nat} {o s : State} (c : Nat) (h : Touch μ o s) (hm : 0x71000000000005000030490 ||| μ = μ := by decide) : Touch μ o (synTimeout c s) := by
  refine h.step hm ?_
  unfold synTimeout; repeat' first | (simp (maxDischargeDepth := 80) only [note_touch, waitEnd_touch, reachBase_touch, Touch.refl, ite_touch, Nat.reduceOr]; done) | split

/-! Interrupt. -/

theorem setIrq_touch {μ : Nat} {o s : State} (i : IrqSt) (h : Touch μ o s) (hm : 0x400 ||| μ = μ := by decide) : Touch μ o (setIrq i s) := by
  refine h.step hm ?_
  unfold setIrq; simp only [touch_mk, Touch.refl, Nat.reduceOr, true_or, or_true]

theorem updateSources_touch {μ : Nat} {o s : State} (ns : List Nat) (h : Touch μ o s) (hm : 0x60000000000004000000400 ||| μ = μ := by decide) : Touch μ o (updateSources ns s) := by
  refine h.step hm ?_
  unfold updateSources; simp only [groupUpdate_touch, implies_true, Touch.refl, foldl_touch, Nat.reduceOr]

theorem pendWrite_touch {μ : Nat} {o s : State} (w : Nat) (acc : Acc) (h : Touch μ o s) (hm : 0x62000000000004000000500 ||| μ = μ := by decide) : Touch μ o (pendWrite w acc s) := by
  refine h.step hm ?_
  unfold pendWrite; repeat' first | (simp (maxDischargeDepth := 80) only [perform_touch, updateSources_touch, wr_touch, ok_IRQ_ACTIVE_ACTIVE, ok_IRQ_PEND_PEND, Touch.refl, Nat.reduceOr, wr_touch]; done) | with_reducible (refine ite_touch ?_ ?_) | with_reducible (refine foldl_touch (fun _ _ => ?_) ?_) | split | (dsimp only; with_reducible (refine ite_touch ?_ ?_)) | (dsimp only; split) | ((try dsimp only); first | with_reducible (apply perform_touch) | with_reducible (apply updateSources_touch) | with_reducible (apply wr_touch) | with_reducible (apply touch_mk))

theorem doneWrite_touch {μ : Nat} {o s : State} (n : Nat) (h : Touch μ o s) (hm : 0x60000000000004000000400 ||| μ = μ := by decide) : Touch μ o (doneWrite n s) := by
  refine h.step hm ?_
  unfold doneWrite; simp (maxDischargeDepth := 80) only [setBit_touch, groupUpdate_touch, ok_IRQ_ACTIVE_ACTIVE, Touch.refl, ite_touch, Nat.reduceOr]

theorem swSet_touch {μ : Nat} {o s : State} (n : Nat) (h : Touch μ o s) (hm : 0x60000000000004000000400 ||| μ = μ := by decide) : Touch μ o (swSet n s) := by
  refine h.step hm ?_
  unfold swSet; simp only [raiseIrq_touch, Touch.refl, ite_touch, Nat.reduceOr]

theorem settleMasks_touch {μ : Nat} {o s : State} (h : Touch μ o s) (hm : 0x60000000000004000000400 ||| μ = μ := by decide) : Touch μ o (settleMasks s) := by
  refine h.step hm ?_
  unfold settleMasks; simp (maxDischargeDepth := 80) only [setIrq_touch, updateSources_touch, Touch.refl, ite_touch, Nat.reduceOr]

theorem maskWrite_touch {μ : Nat} {o s : State} (w : Nat) (acc : Acc) (h : Touch μ o s) (hm : 0x62000000000004000000500 ||| μ = μ := by decide) : Touch μ o (maskWrite w acc s) := by
  refine h.step hm ?_
  unfold maskWrite; simp (maxDischargeDepth := 80) only [settleMasks_touch, perform_touch, setIrq_touch, ok_IRQ_MASK_MASK, Touch.refl, Nat.reduceOr]

theorem irqWrite_touch {μ : Nat} {o s : State} (a : Nat) (acc : Acc) (h : Touch μ o s) (ha : InPages μ a) (hm : 0x62000000000004000000500 ||| μ = μ := by decide) : Touch μ o (irqWrite a acc s) := by
  have e0 : 0x2000000000000000000000 ||| μ = μ := or_sub hm (by decide)
  have e1 : 0x20000000000000000000000 ||| μ = μ := or_sub hm (by decide)
  have e2 : 0x40000000000000000000000 ||| μ = μ := or_sub hm (by decide)
  have e3 : 0x60000000000004000000400 ||| μ = μ := or_sub hm (by decide)
  have e4 : 0x62000000000004000000500 ||| μ = μ := or_sub hm (by decide)
  unfold irqWrite; simp (maxDischargeDepth := 80) only [swSet_touch, doneWrite_touch, pendWrite_touch, maskWrite_touch, perform_touch, ite_touch, e3, e4, ha, h]

theorem holdoffExpire_touch {μ : Nat} {o s : State} (g : Nat) (h : Touch μ o s) (hm : 0x60000000000004000030400 ||| μ = μ := by decide) : Touch μ o (holdoffExpire g s) := by
  refine h.step hm ?_
  unfold holdoffExpire; repeat' first | (simp (maxDischargeDepth := 80) only [groupUpdate_touch, settleMasks_touch, reachBase_touch, Touch.refl, ite_touch, Nat.reduceOr]; done) | split

end Sys2Proof.Machine
end

