-- ==== Sys2Proof/Laws/Effects.lean ====
section
/-!
SUPPORT. What the shared operations leave alone, as equations: a part of the state, or a field of a register of another page; and what an access that
the port admits comes to.
-/
namespace Sys2Proof.Machine
set_option Elab.async false

theorem Touch.get {μ : Nat} {o s : State} (h : Touch μ o s) (f : Field) (e : μ.testBit (64 + f.addr / 65536) = false) :
    get s f = Machine.get o f := by
  unfold Machine.get; rw [h.regs _ e]

theorem bit_page {m p : Nat} {l : List Nat} (h : p ∉ l) (k : ∀ q, m.testBit (64 + q) = true → q ∈ l) : m.testBit (64 + p) = false := by
  cases e : m.testBit (64 + p) with
  | false => rfl
  | true => exact absurd (k p e) h

theorem bits_in {m : Nat} {l : List Nat} (hm : m < 2 ^ 192) (h : ∀ q < 128, m.testBit (64 + q) = true → q ∈ l) (q : Nat)
    (e : m.testBit (64 + q) = true) : q ∈ l := by
  by_cases k : q < 128
  · exact h q k e
  · rw [Nat.testBit_lt_two_pow (lt_of_lt_of_le hm (Nat.pow_le_pow_right (by decide) (by omega)))] at e; cases e

/-! raiseIrq. -/

@[simp] theorem raiseIrq_outbox (s : State) (n : Nat) : (raiseIrq n s).outbox = s.outbox := (raiseIrq_touch _ (Touch.refl 0x60000000000004000000400 s)).outbox rfl
@[simp] theorem raiseIrq_rsp (s : State) (n : Nat) : (raiseIrq n s).rsp = s.rsp := (raiseIrq_touch _ (Touch.refl 0x60000000000004000000400 s)).rsp rfl
@[simp] theorem raiseIrq_rspTag (s : State) (n : Nat) : (raiseIrq n s).rspTag = s.rspTag := (raiseIrq_touch _ (Touch.refl 0x60000000000004000000400 s)).rspTag rfl
@[simp] theorem raiseIrq_clk (s : State) (n : Nat) : (raiseIrq n s).clk = s.clk := (raiseIrq_touch _ (Touch.refl 0x60000000000004000000400 s)).clk rfl
@[simp] theorem raiseIrq_gbk (s : State) (n : Nat) : (raiseIrq n s).gbk = s.gbk := (raiseIrq_touch _ (Touch.refl 0x60000000000004000000400 s)).gbk rfl
@[simp] theorem raiseIrq_ldg (s : State) (n : Nat) : (raiseIrq n s).ldg = s.ldg := (raiseIrq_touch _ (Touch.refl 0x60000000000004000000400 s)).ldg rfl
@[simp] theorem raiseIrq_sbx (s : State) (n : Nat) : (raiseIrq n s).sbx = s.sbx := (raiseIrq_touch _ (Touch.refl 0x60000000000004000000400 s)).sbx rfl
@[simp] theorem raiseIrq_eop (s : State) (n : Nat) : (raiseIrq n s).eop = s.eop := (raiseIrq_touch _ (Touch.refl 0x60000000000004000000400 s)).eop rfl
@[simp] theorem raiseIrq_mmp (s : State) (n : Nat) : (raiseIrq n s).mmp = s.mmp := (raiseIrq_touch _ (Touch.refl 0x60000000000004000000400 s)).mmp rfl
@[simp] theorem raiseIrq_fbp (s : State) (n : Nat) : (raiseIrq n s).fbp = s.fbp := (raiseIrq_touch _ (Touch.refl 0x60000000000004000000400 s)).fbp rfl
@[simp] theorem raiseIrq_sep (s : State) (n : Nat) : (raiseIrq n s).sep = s.sep := (raiseIrq_touch _ (Touch.refl 0x60000000000004000000400 s)).sep rfl
@[simp] theorem raiseIrq_ksp (s : State) (n : Nat) : (raiseIrq n s).ksp = s.ksp := (raiseIrq_touch _ (Touch.refl 0x60000000000004000000400 s)).ksp rfl
@[simp] theorem raiseIrq_tim (s : State) (n : Nat) : (raiseIrq n s).tim = s.tim := (raiseIrq_touch _ (Touch.refl 0x60000000000004000000400 s)).tim rfl
@[simp] theorem raiseIrq_tly (s : State) (n : Nat) : (raiseIrq n s).tly = s.tly := (raiseIrq_touch _ (Touch.refl 0x60000000000004000000400 s)).tly rfl
@[simp] theorem raiseIrq_ctl (s : State) (n : Nat) : (raiseIrq n s).ctl = s.ctl := (raiseIrq_touch _ (Touch.refl 0x60000000000004000000400 s)).ctl rfl
@[simp] theorem raiseIrq_ink (s : State) (n : Nat) : (raiseIrq n s).ink = s.ink := (raiseIrq_touch _ (Touch.refl 0x60000000000004000000400 s)).ink rfl
@[simp] theorem raiseIrq_crv (s : State) (n : Nat) : (raiseIrq n s).crv = s.crv := (raiseIrq_touch _ (Touch.refl 0x60000000000004000000400 s)).crv rfl
@[simp] theorem raiseIrq_sram (s : State) (n : Nat) : (raiseIrq n s).sram = s.sram := (raiseIrq_touch _ (Touch.refl 0x60000000000004000000400 s)).sram rfl
@[simp] theorem raiseIrq_fwSram (s : State) (n : Nat) : (raiseIrq n s).fwSram = s.fwSram := (raiseIrq_touch _ (Touch.refl 0x60000000000004000000400 s)).fwSram rfl
@[simp] theorem raiseIrq_itn (s : State) (n : Nat) : (raiseIrq n s).itn = s.itn := (raiseIrq_touch _ (Touch.refl 0x60000000000004000000400 s)).itn rfl
@[simp] theorem raiseIrq_tpi (s : State) (n : Nat) : (raiseIrq n s).tpi = s.tpi := (raiseIrq_touch _ (Touch.refl 0x60000000000004000000400 s)).tpi rfl
@[simp] theorem raiseIrq_hld (s : State) (n : Nat) : (raiseIrq n s).hld = s.hld := (raiseIrq_touch _ (Touch.refl 0x60000000000004000000400 s)).hld rfl
@[simp] theorem raiseIrq_due (s : State) (n : Nat) : (raiseIrq n s).due = s.due := (raiseIrq_touch _ (Touch.refl 0x60000000000004000000400 s)).due rfl
@[simp] theorem raiseIrq_tre (s : State) (n : Nat) : (raiseIrq n s).tre = s.tre := (raiseIrq_touch _ (Touch.refl 0x60000000000004000000400 s)).tre rfl
@[simp] theorem raiseIrq_arr (s : State) (n : Nat) : (raiseIrq n s).arr = s.arr := (raiseIrq_touch _ (Touch.refl 0x60000000000004000000400 s)).arr rfl
@[simp] theorem raiseIrq_ver (s : State) (n : Nat) : (raiseIrq n s).ver = s.ver := (raiseIrq_touch _ (Touch.refl 0x60000000000004000000400 s)).ver rfl
@[simp] theorem raiseIrq_flt (s : State) (n : Nat) : (raiseIrq n s).flt = s.flt := (raiseIrq_touch _ (Touch.refl 0x60000000000004000000400 s)).flt rfl
@[simp] theorem raiseIrq_det (s : State) (n : Nat) : (raiseIrq n s).det = s.det := (raiseIrq_touch _ (Touch.refl 0x60000000000004000000400 s)).det rfl
@[simp] theorem raiseIrq_cur (s : State) (n : Nat) : (raiseIrq n s).cur = s.cur := (raiseIrq_touch _ (Touch.refl 0x60000000000004000000400 s)).cur rfl
@[simp] theorem raiseIrq_cmp (s : State) (n : Nat) : (raiseIrq n s).cmp = s.cmp := (raiseIrq_touch _ (Touch.refl 0x60000000000004000000400 s)).cmp rfl
@[simp] theorem raiseIrq_prt (s : State) (n : Nat) : (raiseIrq n s).prt = s.prt := (raiseIrq_touch _ (Touch.refl 0x60000000000004000000400 s)).prt rfl
@[simp] theorem raiseIrq_rcv (s : State) (n : Nat) : (raiseIrq n s).rcv = s.rcv := (raiseIrq_touch _ (Touch.refl 0x60000000000004000000400 s)).rcv rfl
@[simp] theorem raiseIrq_syn (s : State) (n : Nat) : (raiseIrq n s).syn = s.syn := (raiseIrq_touch _ (Touch.refl 0x60000000000004000000400 s)).syn rfl
@[simp] theorem raiseIrq_cores (s : State) (n : Nat) : (raiseIrq n s).cores = s.cores := (raiseIrq_touch _ (Touch.refl 0x60000000000004000000400 s)).cores rfl
@[simp] theorem raiseIrq_ltn (s : State) (n : Nat) : (raiseIrq n s).ltn = s.ltn := (raiseIrq_touch _ (Touch.refl 0x60000000000004000000400 s)).ltn rfl
@[simp] theorem raiseIrq_dbg (s : State) (n : Nat) : (raiseIrq n s).dbg = s.dbg := (raiseIrq_touch _ (Touch.refl 0x60000000000004000000400 s)).dbg rfl
theorem rd_raiseIrq (s : State) (n : Nat) (b : Nat) (h : b / 65536 ∉ [25, 26]) : rd (raiseIrq n s) b = rd s b :=
  (raiseIrq_touch _ (Touch.refl 0x60000000000004000000400 s)).regs b (bit_page h (bits_in (by decide) (by decide)))
theorem get_raiseIrq (s : State) (n : Nat) (g : Field) (h : g.addr / 65536 ∉ [25, 26]) : get (raiseIrq n s) g = get s g := by
  unfold get; rw [rd_raiseIrq _ _ _ h]

/-! flag. -/

@[simp] theorem flag_outbox (s : State) (f : Field) : (flag f s).outbox = s.outbox := by unfold flag; split <;> simp
@[simp] theorem flag_rsp (s : State) (f : Field) : (flag f s).rsp = s.rsp := by unfold flag; split <;> simp
@[simp] theorem flag_rspTag (s : State) (f : Field) : (flag f s).rspTag = s.rspTag := by unfold flag; split <;> simp
@[simp] theorem flag_clk (s : State) (f : Field) : (flag f s).clk = s.clk := by unfold flag; split <;> simp
@[simp] theorem flag_gbk (s : State) (f : Field) : (flag f s).gbk = s.gbk := by unfold flag; split <;> simp
@[simp] theorem flag_ldg (s : State) (f : Field) : (flag f s).ldg = s.ldg := by unfold flag; split <;> simp
@[simp] theorem flag_sbx (s : State) (f : Field) : (flag f s).sbx = s.sbx := by unfold flag; split <;> simp
@[simp] theorem flag_eop (s : State) (f : Field) : (flag f s).eop = s.eop := by unfold flag; split <;> simp
@[simp] theorem flag_mmp (s : State) (f : Field) : (flag f s).mmp = s.mmp := by unfold flag; split <;> simp
@[simp] theorem flag_fbp (s : State) (f : Field) : (flag f s).fbp = s.fbp := by unfold flag; split <;> simp
@[simp] theorem flag_sep (s : State) (f : Field) : (flag f s).sep = s.sep := by unfold flag; split <;> simp
@[simp] theorem flag_ksp (s : State) (f : Field) : (flag f s).ksp = s.ksp := by unfold flag; split <;> simp
@[simp] theorem flag_tim (s : State) (f : Field) : (flag f s).tim = s.tim := by unfold flag; split <;> simp
@[simp] theorem flag_tly (s : State) (f : Field) : (flag f s).tly = s.tly := by unfold flag; split <;> simp
@[simp] theorem flag_ctl (s : State) (f : Field) : (flag f s).ctl = s.ctl := by unfold flag; split <;> simp
@[simp] theorem flag_ink (s : State) (f : Field) : (flag f s).ink = s.ink := by unfold flag; split <;> simp
@[simp] theorem flag_crv (s : State) (f : Field) : (flag f s).crv = s.crv := by unfold flag; split <;> simp
@[simp] theorem flag_sram (s : State) (f : Field) : (flag f s).sram = s.sram := by unfold flag; split <;> simp
@[simp] theorem flag_fwSram (s : State) (f : Field) : (flag f s).fwSram = s.fwSram := by unfold flag; split <;> simp
@[simp] theorem flag_itn (s : State) (f : Field) : (flag f s).itn = s.itn := by unfold flag; split <;> simp
@[simp] theorem flag_tpi (s : State) (f : Field) : (flag f s).tpi = s.tpi := by unfold flag; split <;> simp
@[simp] theorem flag_hld (s : State) (f : Field) : (flag f s).hld = s.hld := by unfold flag; split <;> simp
@[simp] theorem flag_due (s : State) (f : Field) : (flag f s).due = s.due := by unfold flag; split <;> simp
@[simp] theorem flag_tre (s : State) (f : Field) : (flag f s).tre = s.tre := by unfold flag; split <;> simp
@[simp] theorem flag_arr (s : State) (f : Field) : (flag f s).arr = s.arr := by unfold flag; split <;> simp
@[simp] theorem flag_ver (s : State) (f : Field) : (flag f s).ver = s.ver := by unfold flag; split <;> simp
@[simp] theorem flag_flt (s : State) (f : Field) : (flag f s).flt = s.flt := by unfold flag; split <;> simp
@[simp] theorem flag_det (s : State) (f : Field) : (flag f s).det = s.det := by unfold flag; split <;> simp
@[simp] theorem flag_cur (s : State) (f : Field) : (flag f s).cur = s.cur := by unfold flag; split <;> simp
@[simp] theorem flag_cmp (s : State) (f : Field) : (flag f s).cmp = s.cmp := by unfold flag; split <;> simp
@[simp] theorem flag_prt (s : State) (f : Field) : (flag f s).prt = s.prt := by unfold flag; split <;> simp
@[simp] theorem flag_rcv (s : State) (f : Field) : (flag f s).rcv = s.rcv := by unfold flag; split <;> simp
@[simp] theorem flag_syn (s : State) (f : Field) : (flag f s).syn = s.syn := by unfold flag; split <;> simp
@[simp] theorem flag_cores (s : State) (f : Field) : (flag f s).cores = s.cores := by unfold flag; split <;> simp
@[simp] theorem flag_ltn (s : State) (f : Field) : (flag f s).ltn = s.ltn := by unfold flag; split <;> simp
@[simp] theorem flag_dbg (s : State) (f : Field) : (flag f s).dbg = s.dbg := by unfold flag; split <;> simp
/-! flagBit. -/

@[simp] theorem flagBit_outbox (s : State) (f : Field) (i : Nat) : (flagBit f i s).outbox = s.outbox := by unfold flagBit; split <;> simp
@[simp] theorem flagBit_rsp (s : State) (f : Field) (i : Nat) : (flagBit f i s).rsp = s.rsp := by unfold flagBit; split <;> simp
@[simp] theorem flagBit_rspTag (s : State) (f : Field) (i : Nat) : (flagBit f i s).rspTag = s.rspTag := by unfold flagBit; split <;> simp
@[simp] theorem flagBit_clk (s : State) (f : Field) (i : Nat) : (flagBit f i s).clk = s.clk := by unfold flagBit; split <;> simp
@[simp] theorem flagBit_gbk (s : State) (f : Field) (i : Nat) : (flagBit f i s).gbk = s.gbk := by unfold flagBit; split <;> simp
@[simp] theorem flagBit_ldg (s : State) (f : Field) (i : Nat) : (flagBit f i s).ldg = s.ldg := by unfold flagBit; split <;> simp
@[simp] theorem flagBit_sbx (s : State) (f : Field) (i : Nat) : (flagBit f i s).sbx = s.sbx := by unfold flagBit; split <;> simp
@[simp] theorem flagBit_eop (s : State) (f : Field) (i : Nat) : (flagBit f i s).eop = s.eop := by unfold flagBit; split <;> simp
@[simp] theorem flagBit_mmp (s : State) (f : Field) (i : Nat) : (flagBit f i s).mmp = s.mmp := by unfold flagBit; split <;> simp
@[simp] theorem flagBit_fbp (s : State) (f : Field) (i : Nat) : (flagBit f i s).fbp = s.fbp := by unfold flagBit; split <;> simp
@[simp] theorem flagBit_sep (s : State) (f : Field) (i : Nat) : (flagBit f i s).sep = s.sep := by unfold flagBit; split <;> simp
@[simp] theorem flagBit_ksp (s : State) (f : Field) (i : Nat) : (flagBit f i s).ksp = s.ksp := by unfold flagBit; split <;> simp
@[simp] theorem flagBit_tim (s : State) (f : Field) (i : Nat) : (flagBit f i s).tim = s.tim := by unfold flagBit; split <;> simp
@[simp] theorem flagBit_tly (s : State) (f : Field) (i : Nat) : (flagBit f i s).tly = s.tly := by unfold flagBit; split <;> simp
@[simp] theorem flagBit_ctl (s : State) (f : Field) (i : Nat) : (flagBit f i s).ctl = s.ctl := by unfold flagBit; split <;> simp
@[simp] theorem flagBit_ink (s : State) (f : Field) (i : Nat) : (flagBit f i s).ink = s.ink := by unfold flagBit; split <;> simp
@[simp] theorem flagBit_crv (s : State) (f : Field) (i : Nat) : (flagBit f i s).crv = s.crv := by unfold flagBit; split <;> simp
@[simp] theorem flagBit_sram (s : State) (f : Field) (i : Nat) : (flagBit f i s).sram = s.sram := by unfold flagBit; split <;> simp
@[simp] theorem flagBit_fwSram (s : State) (f : Field) (i : Nat) : (flagBit f i s).fwSram = s.fwSram := by unfold flagBit; split <;> simp
@[simp] theorem flagBit_itn (s : State) (f : Field) (i : Nat) : (flagBit f i s).itn = s.itn := by unfold flagBit; split <;> simp
@[simp] theorem flagBit_tpi (s : State) (f : Field) (i : Nat) : (flagBit f i s).tpi = s.tpi := by unfold flagBit; split <;> simp
@[simp] theorem flagBit_hld (s : State) (f : Field) (i : Nat) : (flagBit f i s).hld = s.hld := by unfold flagBit; split <;> simp
@[simp] theorem flagBit_due (s : State) (f : Field) (i : Nat) : (flagBit f i s).due = s.due := by unfold flagBit; split <;> simp
@[simp] theorem flagBit_tre (s : State) (f : Field) (i : Nat) : (flagBit f i s).tre = s.tre := by unfold flagBit; split <;> simp
@[simp] theorem flagBit_arr (s : State) (f : Field) (i : Nat) : (flagBit f i s).arr = s.arr := by unfold flagBit; split <;> simp
@[simp] theorem flagBit_ver (s : State) (f : Field) (i : Nat) : (flagBit f i s).ver = s.ver := by unfold flagBit; split <;> simp
@[simp] theorem flagBit_flt (s : State) (f : Field) (i : Nat) : (flagBit f i s).flt = s.flt := by unfold flagBit; split <;> simp
@[simp] theorem flagBit_det (s : State) (f : Field) (i : Nat) : (flagBit f i s).det = s.det := by unfold flagBit; split <;> simp
@[simp] theorem flagBit_cur (s : State) (f : Field) (i : Nat) : (flagBit f i s).cur = s.cur := by unfold flagBit; split <;> simp
@[simp] theorem flagBit_cmp (s : State) (f : Field) (i : Nat) : (flagBit f i s).cmp = s.cmp := by unfold flagBit; split <;> simp
@[simp] theorem flagBit_prt (s : State) (f : Field) (i : Nat) : (flagBit f i s).prt = s.prt := by unfold flagBit; split <;> simp
@[simp] theorem flagBit_rcv (s : State) (f : Field) (i : Nat) : (flagBit f i s).rcv = s.rcv := by unfold flagBit; split <;> simp
@[simp] theorem flagBit_syn (s : State) (f : Field) (i : Nat) : (flagBit f i s).syn = s.syn := by unfold flagBit; split <;> simp
@[simp] theorem flagBit_cores (s : State) (f : Field) (i : Nat) : (flagBit f i s).cores = s.cores := by unfold flagBit; split <;> simp
@[simp] theorem flagBit_ltn (s : State) (f : Field) (i : Nat) : (flagBit f i s).ltn = s.ltn := by unfold flagBit; split <;> simp
@[simp] theorem flagBit_dbg (s : State) (f : Field) (i : Nat) : (flagBit f i s).dbg = s.dbg := by unfold flagBit; split <;> simp
/-! record. -/

@[simp] theorem record_outbox (s : State) (r : Raised) : (record r s).outbox = s.outbox := (record_touch _ (Touch.refl 0x61000000000004000000480 s)).outbox rfl
@[simp] theorem record_rsp (s : State) (r : Raised) : (record r s).rsp = s.rsp := (record_touch _ (Touch.refl 0x61000000000004000000480 s)).rsp rfl
@[simp] theorem record_rspTag (s : State) (r : Raised) : (record r s).rspTag = s.rspTag := (record_touch _ (Touch.refl 0x61000000000004000000480 s)).rspTag rfl
@[simp] theorem record_clk (s : State) (r : Raised) : (record r s).clk = s.clk := (record_touch _ (Touch.refl 0x61000000000004000000480 s)).clk rfl
@[simp] theorem record_ldg (s : State) (r : Raised) : (record r s).ldg = s.ldg := (record_touch _ (Touch.refl 0x61000000000004000000480 s)).ldg rfl
@[simp] theorem record_sbx (s : State) (r : Raised) : (record r s).sbx = s.sbx := (record_touch _ (Touch.refl 0x61000000000004000000480 s)).sbx rfl
@[simp] theorem record_eop (s : State) (r : Raised) : (record r s).eop = s.eop := (record_touch _ (Touch.refl 0x61000000000004000000480 s)).eop rfl
@[simp] theorem record_mmp (s : State) (r : Raised) : (record r s).mmp = s.mmp := (record_touch _ (Touch.refl 0x61000000000004000000480 s)).mmp rfl
@[simp] theorem record_fbp (s : State) (r : Raised) : (record r s).fbp = s.fbp := (record_touch _ (Touch.refl 0x61000000000004000000480 s)).fbp rfl
@[simp] theorem record_sep (s : State) (r : Raised) : (record r s).sep = s.sep := (record_touch _ (Touch.refl 0x61000000000004000000480 s)).sep rfl
@[simp] theorem record_ksp (s : State) (r : Raised) : (record r s).ksp = s.ksp := (record_touch _ (Touch.refl 0x61000000000004000000480 s)).ksp rfl
@[simp] theorem record_tim (s : State) (r : Raised) : (record r s).tim = s.tim := (record_touch _ (Touch.refl 0x61000000000004000000480 s)).tim rfl
@[simp] theorem record_tly (s : State) (r : Raised) : (record r s).tly = s.tly := (record_touch _ (Touch.refl 0x61000000000004000000480 s)).tly rfl
@[simp] theorem record_ctl (s : State) (r : Raised) : (record r s).ctl = s.ctl := (record_touch _ (Touch.refl 0x61000000000004000000480 s)).ctl rfl
@[simp] theorem record_ink (s : State) (r : Raised) : (record r s).ink = s.ink := (record_touch _ (Touch.refl 0x61000000000004000000480 s)).ink rfl
@[simp] theorem record_crv (s : State) (r : Raised) : (record r s).crv = s.crv := (record_touch _ (Touch.refl 0x61000000000004000000480 s)).crv rfl
@[simp] theorem record_sram (s : State) (r : Raised) : (record r s).sram = s.sram := (record_touch _ (Touch.refl 0x61000000000004000000480 s)).sram rfl
@[simp] theorem record_fwSram (s : State) (r : Raised) : (record r s).fwSram = s.fwSram := (record_touch _ (Touch.refl 0x61000000000004000000480 s)).fwSram rfl
@[simp] theorem record_itn (s : State) (r : Raised) : (record r s).itn = s.itn := (record_touch _ (Touch.refl 0x61000000000004000000480 s)).itn rfl
@[simp] theorem record_tpi (s : State) (r : Raised) : (record r s).tpi = s.tpi := (record_touch _ (Touch.refl 0x61000000000004000000480 s)).tpi rfl
@[simp] theorem record_hld (s : State) (r : Raised) : (record r s).hld = s.hld := (record_touch _ (Touch.refl 0x61000000000004000000480 s)).hld rfl
@[simp] theorem record_due (s : State) (r : Raised) : (record r s).due = s.due := (record_touch _ (Touch.refl 0x61000000000004000000480 s)).due rfl
@[simp] theorem record_tre (s : State) (r : Raised) : (record r s).tre = s.tre := (record_touch _ (Touch.refl 0x61000000000004000000480 s)).tre rfl
@[simp] theorem record_arr (s : State) (r : Raised) : (record r s).arr = s.arr := (record_touch _ (Touch.refl 0x61000000000004000000480 s)).arr rfl
@[simp] theorem record_ver (s : State) (r : Raised) : (record r s).ver = s.ver := (record_touch _ (Touch.refl 0x61000000000004000000480 s)).ver rfl
@[simp] theorem record_flt (s : State) (r : Raised) : (record r s).flt = s.flt := (record_touch _ (Touch.refl 0x61000000000004000000480 s)).flt rfl
@[simp] theorem record_det (s : State) (r : Raised) : (record r s).det = s.det := (record_touch _ (Touch.refl 0x61000000000004000000480 s)).det rfl
@[simp] theorem record_cur (s : State) (r : Raised) : (record r s).cur = s.cur := (record_touch _ (Touch.refl 0x61000000000004000000480 s)).cur rfl
@[simp] theorem record_cmp (s : State) (r : Raised) : (record r s).cmp = s.cmp := (record_touch _ (Touch.refl 0x61000000000004000000480 s)).cmp rfl
@[simp] theorem record_prt (s : State) (r : Raised) : (record r s).prt = s.prt := (record_touch _ (Touch.refl 0x61000000000004000000480 s)).prt rfl
@[simp] theorem record_rcv (s : State) (r : Raised) : (record r s).rcv = s.rcv := (record_touch _ (Touch.refl 0x61000000000004000000480 s)).rcv rfl
@[simp] theorem record_syn (s : State) (r : Raised) : (record r s).syn = s.syn := (record_touch _ (Touch.refl 0x61000000000004000000480 s)).syn rfl
@[simp] theorem record_cores (s : State) (r : Raised) : (record r s).cores = s.cores := (record_touch _ (Touch.refl 0x61000000000004000000480 s)).cores rfl
@[simp] theorem record_ltn (s : State) (r : Raised) : (record r s).ltn = s.ltn := (record_touch _ (Touch.refl 0x61000000000004000000480 s)).ltn rfl
@[simp] theorem record_dbg (s : State) (r : Raised) : (record r s).dbg = s.dbg := (record_touch _ (Touch.refl 0x61000000000004000000480 s)).dbg rfl
theorem rd_record (s : State) (r : Raised) (b : Nat) (h : b / 65536 ∉ [20, 25, 26]) : rd (record r s) b = rd s b :=
  (record_touch _ (Touch.refl 0x61000000000004000000480 s)).regs b (bit_page h (bits_in (by decide) (by decide)))
theorem get_record (s : State) (r : Raised) (g : Field) (h : g.addr / 65536 ∉ [20, 25, 26]) : get (record r s) g = get s g := by
  unfold get; rw [rd_record _ _ _ h]

/-! note. -/

@[simp] theorem note_outbox (s : State) (c k p : Nat) : (note c k p s).outbox = s.outbox := (note_touch _ _ _ (Touch.refl 0x61000000000004000000480 s)).outbox rfl
@[simp] theorem note_rsp (s : State) (c k p : Nat) : (note c k p s).rsp = s.rsp := (note_touch _ _ _ (Touch.refl 0x61000000000004000000480 s)).rsp rfl
@[simp] theorem note_rspTag (s : State) (c k p : Nat) : (note c k p s).rspTag = s.rspTag := (note_touch _ _ _ (Touch.refl 0x61000000000004000000480 s)).rspTag rfl
@[simp] theorem note_clk (s : State) (c k p : Nat) : (note c k p s).clk = s.clk := (note_touch _ _ _ (Touch.refl 0x61000000000004000000480 s)).clk rfl
@[simp] theorem note_ldg (s : State) (c k p : Nat) : (note c k p s).ldg = s.ldg := (note_touch _ _ _ (Touch.refl 0x61000000000004000000480 s)).ldg rfl
@[simp] theorem note_sbx (s : State) (c k p : Nat) : (note c k p s).sbx = s.sbx := (note_touch _ _ _ (Touch.refl 0x61000000000004000000480 s)).sbx rfl
@[simp] theorem note_eop (s : State) (c k p : Nat) : (note c k p s).eop = s.eop := (note_touch _ _ _ (Touch.refl 0x61000000000004000000480 s)).eop rfl
@[simp] theorem note_mmp (s : State) (c k p : Nat) : (note c k p s).mmp = s.mmp := (note_touch _ _ _ (Touch.refl 0x61000000000004000000480 s)).mmp rfl
@[simp] theorem note_fbp (s : State) (c k p : Nat) : (note c k p s).fbp = s.fbp := (note_touch _ _ _ (Touch.refl 0x61000000000004000000480 s)).fbp rfl
@[simp] theorem note_sep (s : State) (c k p : Nat) : (note c k p s).sep = s.sep := (note_touch _ _ _ (Touch.refl 0x61000000000004000000480 s)).sep rfl
@[simp] theorem note_ksp (s : State) (c k p : Nat) : (note c k p s).ksp = s.ksp := (note_touch _ _ _ (Touch.refl 0x61000000000004000000480 s)).ksp rfl
@[simp] theorem note_tim (s : State) (c k p : Nat) : (note c k p s).tim = s.tim := (note_touch _ _ _ (Touch.refl 0x61000000000004000000480 s)).tim rfl
@[simp] theorem note_tly (s : State) (c k p : Nat) : (note c k p s).tly = s.tly := (note_touch _ _ _ (Touch.refl 0x61000000000004000000480 s)).tly rfl
@[simp] theorem note_ctl (s : State) (c k p : Nat) : (note c k p s).ctl = s.ctl := (note_touch _ _ _ (Touch.refl 0x61000000000004000000480 s)).ctl rfl
@[simp] theorem note_ink (s : State) (c k p : Nat) : (note c k p s).ink = s.ink := (note_touch _ _ _ (Touch.refl 0x61000000000004000000480 s)).ink rfl
@[simp] theorem note_crv (s : State) (c k p : Nat) : (note c k p s).crv = s.crv := (note_touch _ _ _ (Touch.refl 0x61000000000004000000480 s)).crv rfl
@[simp] theorem note_sram (s : State) (c k p : Nat) : (note c k p s).sram = s.sram := (note_touch _ _ _ (Touch.refl 0x61000000000004000000480 s)).sram rfl
@[simp] theorem note_fwSram (s : State) (c k p : Nat) : (note c k p s).fwSram = s.fwSram := (note_touch _ _ _ (Touch.refl 0x61000000000004000000480 s)).fwSram rfl
@[simp] theorem note_itn (s : State) (c k p : Nat) : (note c k p s).itn = s.itn := (note_touch _ _ _ (Touch.refl 0x61000000000004000000480 s)).itn rfl
@[simp] theorem note_tpi (s : State) (c k p : Nat) : (note c k p s).tpi = s.tpi := (note_touch _ _ _ (Touch.refl 0x61000000000004000000480 s)).tpi rfl
@[simp] theorem note_hld (s : State) (c k p : Nat) : (note c k p s).hld = s.hld := (note_touch _ _ _ (Touch.refl 0x61000000000004000000480 s)).hld rfl
@[simp] theorem note_due (s : State) (c k p : Nat) : (note c k p s).due = s.due := (note_touch _ _ _ (Touch.refl 0x61000000000004000000480 s)).due rfl
@[simp] theorem note_tre (s : State) (c k p : Nat) : (note c k p s).tre = s.tre := (note_touch _ _ _ (Touch.refl 0x61000000000004000000480 s)).tre rfl
@[simp] theorem note_arr (s : State) (c k p : Nat) : (note c k p s).arr = s.arr := (note_touch _ _ _ (Touch.refl 0x61000000000004000000480 s)).arr rfl
@[simp] theorem note_ver (s : State) (c k p : Nat) : (note c k p s).ver = s.ver := (note_touch _ _ _ (Touch.refl 0x61000000000004000000480 s)).ver rfl
@[simp] theorem note_flt (s : State) (c k p : Nat) : (note c k p s).flt = s.flt := (note_touch _ _ _ (Touch.refl 0x61000000000004000000480 s)).flt rfl
@[simp] theorem note_det (s : State) (c k p : Nat) : (note c k p s).det = s.det := (note_touch _ _ _ (Touch.refl 0x61000000000004000000480 s)).det rfl
@[simp] theorem note_cur (s : State) (c k p : Nat) : (note c k p s).cur = s.cur := (note_touch _ _ _ (Touch.refl 0x61000000000004000000480 s)).cur rfl
@[simp] theorem note_cmp (s : State) (c k p : Nat) : (note c k p s).cmp = s.cmp := (note_touch _ _ _ (Touch.refl 0x61000000000004000000480 s)).cmp rfl
@[simp] theorem note_prt (s : State) (c k p : Nat) : (note c k p s).prt = s.prt := (note_touch _ _ _ (Touch.refl 0x61000000000004000000480 s)).prt rfl
@[simp] theorem note_rcv (s : State) (c k p : Nat) : (note c k p s).rcv = s.rcv := (note_touch _ _ _ (Touch.refl 0x61000000000004000000480 s)).rcv rfl
@[simp] theorem note_syn (s : State) (c k p : Nat) : (note c k p s).syn = s.syn := (note_touch _ _ _ (Touch.refl 0x61000000000004000000480 s)).syn rfl
@[simp] theorem note_cores (s : State) (c k p : Nat) : (note c k p s).cores = s.cores := (note_touch _ _ _ (Touch.refl 0x61000000000004000000480 s)).cores rfl
@[simp] theorem note_ltn (s : State) (c k p : Nat) : (note c k p s).ltn = s.ltn := (note_touch _ _ _ (Touch.refl 0x61000000000004000000480 s)).ltn rfl
@[simp] theorem note_dbg (s : State) (c k p : Nat) : (note c k p s).dbg = s.dbg := (note_touch _ _ _ (Touch.refl 0x61000000000004000000480 s)).dbg rfl
theorem rd_note (s : State) (c k p : Nat) (b : Nat) (h : b / 65536 ∉ [20, 25, 26]) : rd (note c k p s) b = rd s b :=
  (note_touch _ _ _ (Touch.refl 0x61000000000004000000480 s)).regs b (bit_page h (bits_in (by decide) (by decide)))
theorem get_note (s : State) (c k p : Nat) (g : Field) (h : g.addr / 65536 ∉ [20, 25, 26]) : get (note c k p s) g = get s g := by
  unfold get; rw [rd_note _ _ _ _ _ h]

/-! report. -/

@[simp] theorem report_outbox (s : State) (f : Field) (c k p : Nat) : (report f c k p s).outbox = s.outbox := (note_outbox _ _ _ _).trans (flag_outbox _ _)
@[simp] theorem report_rsp (s : State) (f : Field) (c k p : Nat) : (report f c k p s).rsp = s.rsp := (note_rsp _ _ _ _).trans (flag_rsp _ _)
@[simp] theorem report_rspTag (s : State) (f : Field) (c k p : Nat) : (report f c k p s).rspTag = s.rspTag := (note_rspTag _ _ _ _).trans (flag_rspTag _ _)
@[simp] theorem report_clk (s : State) (f : Field) (c k p : Nat) : (report f c k p s).clk = s.clk := (note_clk _ _ _ _).trans (flag_clk _ _)
@[simp] theorem report_ldg (s : State) (f : Field) (c k p : Nat) : (report f c k p s).ldg = s.ldg := (note_ldg _ _ _ _).trans (flag_ldg _ _)
@[simp] theorem report_sbx (s : State) (f : Field) (c k p : Nat) : (report f c k p s).sbx = s.sbx := (note_sbx _ _ _ _).trans (flag_sbx _ _)
@[simp] theorem report_eop (s : State) (f : Field) (c k p : Nat) : (report f c k p s).eop = s.eop := (note_eop _ _ _ _).trans (flag_eop _ _)
@[simp] theorem report_mmp (s : State) (f : Field) (c k p : Nat) : (report f c k p s).mmp = s.mmp := (note_mmp _ _ _ _).trans (flag_mmp _ _)
@[simp] theorem report_fbp (s : State) (f : Field) (c k p : Nat) : (report f c k p s).fbp = s.fbp := (note_fbp _ _ _ _).trans (flag_fbp _ _)
@[simp] theorem report_sep (s : State) (f : Field) (c k p : Nat) : (report f c k p s).sep = s.sep := (note_sep _ _ _ _).trans (flag_sep _ _)
@[simp] theorem report_ksp (s : State) (f : Field) (c k p : Nat) : (report f c k p s).ksp = s.ksp := (note_ksp _ _ _ _).trans (flag_ksp _ _)
@[simp] theorem report_tim (s : State) (f : Field) (c k p : Nat) : (report f c k p s).tim = s.tim := (note_tim _ _ _ _).trans (flag_tim _ _)
@[simp] theorem report_tly (s : State) (f : Field) (c k p : Nat) : (report f c k p s).tly = s.tly := (note_tly _ _ _ _).trans (flag_tly _ _)
@[simp] theorem report_ctl (s : State) (f : Field) (c k p : Nat) : (report f c k p s).ctl = s.ctl := (note_ctl _ _ _ _).trans (flag_ctl _ _)
@[simp] theorem report_ink (s : State) (f : Field) (c k p : Nat) : (report f c k p s).ink = s.ink := (note_ink _ _ _ _).trans (flag_ink _ _)
@[simp] theorem report_crv (s : State) (f : Field) (c k p : Nat) : (report f c k p s).crv = s.crv := (note_crv _ _ _ _).trans (flag_crv _ _)
@[simp] theorem report_sram (s : State) (f : Field) (c k p : Nat) : (report f c k p s).sram = s.sram := (note_sram _ _ _ _).trans (flag_sram _ _)
@[simp] theorem report_fwSram (s : State) (f : Field) (c k p : Nat) : (report f c k p s).fwSram = s.fwSram := (note_fwSram _ _ _ _).trans (flag_fwSram _ _)
@[simp] theorem report_itn (s : State) (f : Field) (c k p : Nat) : (report f c k p s).itn = s.itn := (note_itn _ _ _ _).trans (flag_itn _ _)
@[simp] theorem report_tpi (s : State) (f : Field) (c k p : Nat) : (report f c k p s).tpi = s.tpi := (note_tpi _ _ _ _).trans (flag_tpi _ _)
@[simp] theorem report_hld (s : State) (f : Field) (c k p : Nat) : (report f c k p s).hld = s.hld := (note_hld _ _ _ _).trans (flag_hld _ _)
@[simp] theorem report_due (s : State) (f : Field) (c k p : Nat) : (report f c k p s).due = s.due := (note_due _ _ _ _).trans (flag_due _ _)
@[simp] theorem report_tre (s : State) (f : Field) (c k p : Nat) : (report f c k p s).tre = s.tre := (note_tre _ _ _ _).trans (flag_tre _ _)
@[simp] theorem report_arr (s : State) (f : Field) (c k p : Nat) : (report f c k p s).arr = s.arr := (note_arr _ _ _ _).trans (flag_arr _ _)
@[simp] theorem report_ver (s : State) (f : Field) (c k p : Nat) : (report f c k p s).ver = s.ver := (note_ver _ _ _ _).trans (flag_ver _ _)
@[simp] theorem report_flt (s : State) (f : Field) (c k p : Nat) : (report f c k p s).flt = s.flt := (note_flt _ _ _ _).trans (flag_flt _ _)
@[simp] theorem report_det (s : State) (f : Field) (c k p : Nat) : (report f c k p s).det = s.det := (note_det _ _ _ _).trans (flag_det _ _)
@[simp] theorem report_cur (s : State) (f : Field) (c k p : Nat) : (report f c k p s).cur = s.cur := (note_cur _ _ _ _).trans (flag_cur _ _)
@[simp] theorem report_cmp (s : State) (f : Field) (c k p : Nat) : (report f c k p s).cmp = s.cmp := (note_cmp _ _ _ _).trans (flag_cmp _ _)
@[simp] theorem report_prt (s : State) (f : Field) (c k p : Nat) : (report f c k p s).prt = s.prt := (note_prt _ _ _ _).trans (flag_prt _ _)
@[simp] theorem report_rcv (s : State) (f : Field) (c k p : Nat) : (report f c k p s).rcv = s.rcv := (note_rcv _ _ _ _).trans (flag_rcv _ _)
@[simp] theorem report_syn (s : State) (f : Field) (c k p : Nat) : (report f c k p s).syn = s.syn := (note_syn _ _ _ _).trans (flag_syn _ _)
@[simp] theorem report_cores (s : State) (f : Field) (c k p : Nat) : (report f c k p s).cores = s.cores := (note_cores _ _ _ _).trans (flag_cores _ _)
@[simp] theorem report_ltn (s : State) (f : Field) (c k p : Nat) : (report f c k p s).ltn = s.ltn := (note_ltn _ _ _ _).trans (flag_ltn _ _)
@[simp] theorem report_dbg (s : State) (f : Field) (c k p : Nat) : (report f c k p s).dbg = s.dbg := (note_dbg _ _ _ _).trans (flag_dbg _ _)
/-! post. -/

@[simp] theorem post_outbox (s : State) (a n : Nat) (v : Word) : (post a n v s).outbox = s.outbox := raiseIrq_outbox _ _
@[simp] theorem post_rsp (s : State) (a n : Nat) (v : Word) : (post a n v s).rsp = s.rsp := raiseIrq_rsp _ _
@[simp] theorem post_rspTag (s : State) (a n : Nat) (v : Word) : (post a n v s).rspTag = s.rspTag := raiseIrq_rspTag _ _
@[simp] theorem post_clk (s : State) (a n : Nat) (v : Word) : (post a n v s).clk = s.clk := raiseIrq_clk _ _
@[simp] theorem post_gbk (s : State) (a n : Nat) (v : Word) : (post a n v s).gbk = s.gbk := raiseIrq_gbk _ _
@[simp] theorem post_ldg (s : State) (a n : Nat) (v : Word) : (post a n v s).ldg = s.ldg := raiseIrq_ldg _ _
@[simp] theorem post_sbx (s : State) (a n : Nat) (v : Word) : (post a n v s).sbx = s.sbx := raiseIrq_sbx _ _
@[simp] theorem post_eop (s : State) (a n : Nat) (v : Word) : (post a n v s).eop = s.eop := raiseIrq_eop _ _
@[simp] theorem post_mmp (s : State) (a n : Nat) (v : Word) : (post a n v s).mmp = s.mmp := raiseIrq_mmp _ _
@[simp] theorem post_fbp (s : State) (a n : Nat) (v : Word) : (post a n v s).fbp = s.fbp := raiseIrq_fbp _ _
@[simp] theorem post_sep (s : State) (a n : Nat) (v : Word) : (post a n v s).sep = s.sep := raiseIrq_sep _ _
@[simp] theorem post_ksp (s : State) (a n : Nat) (v : Word) : (post a n v s).ksp = s.ksp := raiseIrq_ksp _ _
@[simp] theorem post_tim (s : State) (a n : Nat) (v : Word) : (post a n v s).tim = s.tim := raiseIrq_tim _ _
@[simp] theorem post_tly (s : State) (a n : Nat) (v : Word) : (post a n v s).tly = s.tly := raiseIrq_tly _ _
@[simp] theorem post_ctl (s : State) (a n : Nat) (v : Word) : (post a n v s).ctl = s.ctl := raiseIrq_ctl _ _
@[simp] theorem post_ink (s : State) (a n : Nat) (v : Word) : (post a n v s).ink = s.ink := raiseIrq_ink _ _
@[simp] theorem post_crv (s : State) (a n : Nat) (v : Word) : (post a n v s).crv = s.crv := raiseIrq_crv _ _
@[simp] theorem post_sram (s : State) (a n : Nat) (v : Word) : (post a n v s).sram = s.sram := raiseIrq_sram _ _
@[simp] theorem post_fwSram (s : State) (a n : Nat) (v : Word) : (post a n v s).fwSram = s.fwSram := raiseIrq_fwSram _ _
@[simp] theorem post_itn (s : State) (a n : Nat) (v : Word) : (post a n v s).itn = s.itn := raiseIrq_itn _ _
@[simp] theorem post_tpi (s : State) (a n : Nat) (v : Word) : (post a n v s).tpi = s.tpi := raiseIrq_tpi _ _
@[simp] theorem post_hld (s : State) (a n : Nat) (v : Word) : (post a n v s).hld = s.hld := raiseIrq_hld _ _
@[simp] theorem post_due (s : State) (a n : Nat) (v : Word) : (post a n v s).due = s.due := raiseIrq_due _ _
@[simp] theorem post_tre (s : State) (a n : Nat) (v : Word) : (post a n v s).tre = s.tre := raiseIrq_tre _ _
@[simp] theorem post_arr (s : State) (a n : Nat) (v : Word) : (post a n v s).arr = s.arr := raiseIrq_arr _ _
@[simp] theorem post_ver (s : State) (a n : Nat) (v : Word) : (post a n v s).ver = s.ver := raiseIrq_ver _ _
@[simp] theorem post_flt (s : State) (a n : Nat) (v : Word) : (post a n v s).flt = s.flt := raiseIrq_flt _ _
@[simp] theorem post_det (s : State) (a n : Nat) (v : Word) : (post a n v s).det = s.det := raiseIrq_det _ _
@[simp] theorem post_cur (s : State) (a n : Nat) (v : Word) : (post a n v s).cur = s.cur := raiseIrq_cur _ _
@[simp] theorem post_cmp (s : State) (a n : Nat) (v : Word) : (post a n v s).cmp = s.cmp := raiseIrq_cmp _ _
@[simp] theorem post_prt (s : State) (a n : Nat) (v : Word) : (post a n v s).prt = s.prt := raiseIrq_prt _ _
@[simp] theorem post_rcv (s : State) (a n : Nat) (v : Word) : (post a n v s).rcv = s.rcv := raiseIrq_rcv _ _
@[simp] theorem post_syn (s : State) (a n : Nat) (v : Word) : (post a n v s).syn = s.syn := raiseIrq_syn _ _
@[simp] theorem post_cores (s : State) (a n : Nat) (v : Word) : (post a n v s).cores = s.cores := raiseIrq_cores _ _
@[simp] theorem post_ltn (s : State) (a n : Nat) (v : Word) : (post a n v s).ltn = s.ltn := raiseIrq_ltn _ _
@[simp] theorem post_dbg (s : State) (a n : Nat) (v : Word) : (post a n v s).dbg = s.dbg := raiseIrq_dbg _ _
/-! prod. -/

@[simp] theorem prod_outbox (s : State) (i n : Nat) : (prod i n s).outbox = s.outbox := (prod_touch _ _ (Touch.refl 0x20000 s)).outbox rfl
@[simp] theorem prod_rsp (s : State) (i n : Nat) : (prod i n s).rsp = s.rsp := (prod_touch _ _ (Touch.refl 0x20000 s)).rsp rfl
@[simp] theorem prod_rspTag (s : State) (i n : Nat) : (prod i n s).rspTag = s.rspTag := (prod_touch _ _ (Touch.refl 0x20000 s)).rspTag rfl
@[simp] theorem prod_clk (s : State) (i n : Nat) : (prod i n s).clk = s.clk := (prod_touch _ _ (Touch.refl 0x20000 s)).clk rfl
@[simp] theorem prod_gbk (s : State) (i n : Nat) : (prod i n s).gbk = s.gbk := (prod_touch _ _ (Touch.refl 0x20000 s)).gbk rfl
@[simp] theorem prod_ldg (s : State) (i n : Nat) : (prod i n s).ldg = s.ldg := (prod_touch _ _ (Touch.refl 0x20000 s)).ldg rfl
@[simp] theorem prod_sbx (s : State) (i n : Nat) : (prod i n s).sbx = s.sbx := (prod_touch _ _ (Touch.refl 0x20000 s)).sbx rfl
@[simp] theorem prod_irq (s : State) (i n : Nat) : (prod i n s).irq = s.irq := (prod_touch _ _ (Touch.refl 0x20000 s)).irq rfl
@[simp] theorem prod_eop (s : State) (i n : Nat) : (prod i n s).eop = s.eop := (prod_touch _ _ (Touch.refl 0x20000 s)).eop rfl
@[simp] theorem prod_mmp (s : State) (i n : Nat) : (prod i n s).mmp = s.mmp := (prod_touch _ _ (Touch.refl 0x20000 s)).mmp rfl
@[simp] theorem prod_fbp (s : State) (i n : Nat) : (prod i n s).fbp = s.fbp := (prod_touch _ _ (Touch.refl 0x20000 s)).fbp rfl
@[simp] theorem prod_sep (s : State) (i n : Nat) : (prod i n s).sep = s.sep := (prod_touch _ _ (Touch.refl 0x20000 s)).sep rfl
@[simp] theorem prod_ksp (s : State) (i n : Nat) : (prod i n s).ksp = s.ksp := (prod_touch _ _ (Touch.refl 0x20000 s)).ksp rfl
@[simp] theorem prod_tim (s : State) (i n : Nat) : (prod i n s).tim = s.tim := (prod_touch _ _ (Touch.refl 0x20000 s)).tim rfl
@[simp] theorem prod_ctl (s : State) (i n : Nat) : (prod i n s).ctl = s.ctl := (prod_touch _ _ (Touch.refl 0x20000 s)).ctl rfl
@[simp] theorem prod_ink (s : State) (i n : Nat) : (prod i n s).ink = s.ink := (prod_touch _ _ (Touch.refl 0x20000 s)).ink rfl
@[simp] theorem prod_crv (s : State) (i n : Nat) : (prod i n s).crv = s.crv := (prod_touch _ _ (Touch.refl 0x20000 s)).crv rfl
@[simp] theorem prod_sram (s : State) (i n : Nat) : (prod i n s).sram = s.sram := (prod_touch _ _ (Touch.refl 0x20000 s)).sram rfl
@[simp] theorem prod_fwSram (s : State) (i n : Nat) : (prod i n s).fwSram = s.fwSram := (prod_touch _ _ (Touch.refl 0x20000 s)).fwSram rfl
@[simp] theorem prod_itn (s : State) (i n : Nat) : (prod i n s).itn = s.itn := (prod_touch _ _ (Touch.refl 0x20000 s)).itn rfl
@[simp] theorem prod_tpi (s : State) (i n : Nat) : (prod i n s).tpi = s.tpi := (prod_touch _ _ (Touch.refl 0x20000 s)).tpi rfl
@[simp] theorem prod_hld (s : State) (i n : Nat) : (prod i n s).hld = s.hld := (prod_touch _ _ (Touch.refl 0x20000 s)).hld rfl
@[simp] theorem prod_due (s : State) (i n : Nat) : (prod i n s).due = s.due := (prod_touch _ _ (Touch.refl 0x20000 s)).due rfl
@[simp] theorem prod_tre (s : State) (i n : Nat) : (prod i n s).tre = s.tre := (prod_touch _ _ (Touch.refl 0x20000 s)).tre rfl
@[simp] theorem prod_arr (s : State) (i n : Nat) : (prod i n s).arr = s.arr := (prod_touch _ _ (Touch.refl 0x20000 s)).arr rfl
@[simp] theorem prod_ver (s : State) (i n : Nat) : (prod i n s).ver = s.ver := (prod_touch _ _ (Touch.refl 0x20000 s)).ver rfl
@[simp] theorem prod_flt (s : State) (i n : Nat) : (prod i n s).flt = s.flt := (prod_touch _ _ (Touch.refl 0x20000 s)).flt rfl
@[simp] theorem prod_det (s : State) (i n : Nat) : (prod i n s).det = s.det := (prod_touch _ _ (Touch.refl 0x20000 s)).det rfl
@[simp] theorem prod_cur (s : State) (i n : Nat) : (prod i n s).cur = s.cur := (prod_touch _ _ (Touch.refl 0x20000 s)).cur rfl
@[simp] theorem prod_cmp (s : State) (i n : Nat) : (prod i n s).cmp = s.cmp := (prod_touch _ _ (Touch.refl 0x20000 s)).cmp rfl
@[simp] theorem prod_prt (s : State) (i n : Nat) : (prod i n s).prt = s.prt := (prod_touch _ _ (Touch.refl 0x20000 s)).prt rfl
@[simp] theorem prod_rcv (s : State) (i n : Nat) : (prod i n s).rcv = s.rcv := (prod_touch _ _ (Touch.refl 0x20000 s)).rcv rfl
@[simp] theorem prod_syn (s : State) (i n : Nat) : (prod i n s).syn = s.syn := (prod_touch _ _ (Touch.refl 0x20000 s)).syn rfl
@[simp] theorem prod_cores (s : State) (i n : Nat) : (prod i n s).cores = s.cores := (prod_touch _ _ (Touch.refl 0x20000 s)).cores rfl
@[simp] theorem prod_pwr (s : State) (i n : Nat) : (prod i n s).pwr = s.pwr := (prod_touch _ _ (Touch.refl 0x20000 s)).pwr rfl
@[simp] theorem prod_ltn (s : State) (i n : Nat) : (prod i n s).ltn = s.ltn := (prod_touch _ _ (Touch.refl 0x20000 s)).ltn rfl
@[simp] theorem prod_dbg (s : State) (i n : Nat) : (prod i n s).dbg = s.dbg := (prod_touch _ _ (Touch.refl 0x20000 s)).dbg rfl
@[simp] theorem rd_prod (s : State) (i n : Nat) (b : Nat) : rd (prod i n s) b = rd s b :=
  (prod_touch _ _ (Touch.refl 0x20000 s)).regs b (bit_page (l := []) (by simp) (bits_in (by decide) (by decide)))
@[simp] theorem get_prod (s : State) (i n : Nat) (g : Field) : get (prod i n s) g = get s g := by
  unfold get; rw [rd_prod]

/-! wake. -/

@[simp] theorem wake_outbox (s : State) (n : Nat) : (wake n s).outbox = s.outbox := (wake_touch _ (Touch.refl 0x40000000000004000000000 s)).outbox rfl
@[simp] theorem wake_rsp (s : State) (n : Nat) : (wake n s).rsp = s.rsp := (wake_touch _ (Touch.refl 0x40000000000004000000000 s)).rsp rfl
@[simp] theorem wake_rspTag (s : State) (n : Nat) : (wake n s).rspTag = s.rspTag := (wake_touch _ (Touch.refl 0x40000000000004000000000 s)).rspTag rfl
@[simp] theorem wake_clk (s : State) (n : Nat) : (wake n s).clk = s.clk := (wake_touch _ (Touch.refl 0x40000000000004000000000 s)).clk rfl
@[simp] theorem wake_gbk (s : State) (n : Nat) : (wake n s).gbk = s.gbk := (wake_touch _ (Touch.refl 0x40000000000004000000000 s)).gbk rfl
@[simp] theorem wake_ldg (s : State) (n : Nat) : (wake n s).ldg = s.ldg := (wake_touch _ (Touch.refl 0x40000000000004000000000 s)).ldg rfl
@[simp] theorem wake_sbx (s : State) (n : Nat) : (wake n s).sbx = s.sbx := (wake_touch _ (Touch.refl 0x40000000000004000000000 s)).sbx rfl
@[simp] theorem wake_irq (s : State) (n : Nat) : (wake n s).irq = s.irq := (wake_touch _ (Touch.refl 0x40000000000004000000000 s)).irq rfl
@[simp] theorem wake_eop (s : State) (n : Nat) : (wake n s).eop = s.eop := (wake_touch _ (Touch.refl 0x40000000000004000000000 s)).eop rfl
@[simp] theorem wake_mmp (s : State) (n : Nat) : (wake n s).mmp = s.mmp := (wake_touch _ (Touch.refl 0x40000000000004000000000 s)).mmp rfl
@[simp] theorem wake_fbp (s : State) (n : Nat) : (wake n s).fbp = s.fbp := (wake_touch _ (Touch.refl 0x40000000000004000000000 s)).fbp rfl
@[simp] theorem wake_sep (s : State) (n : Nat) : (wake n s).sep = s.sep := (wake_touch _ (Touch.refl 0x40000000000004000000000 s)).sep rfl
@[simp] theorem wake_ksp (s : State) (n : Nat) : (wake n s).ksp = s.ksp := (wake_touch _ (Touch.refl 0x40000000000004000000000 s)).ksp rfl
@[simp] theorem wake_tim (s : State) (n : Nat) : (wake n s).tim = s.tim := (wake_touch _ (Touch.refl 0x40000000000004000000000 s)).tim rfl
@[simp] theorem wake_tly (s : State) (n : Nat) : (wake n s).tly = s.tly := (wake_touch _ (Touch.refl 0x40000000000004000000000 s)).tly rfl
@[simp] theorem wake_ctl (s : State) (n : Nat) : (wake n s).ctl = s.ctl := (wake_touch _ (Touch.refl 0x40000000000004000000000 s)).ctl rfl
@[simp] theorem wake_ink (s : State) (n : Nat) : (wake n s).ink = s.ink := (wake_touch _ (Touch.refl 0x40000000000004000000000 s)).ink rfl
@[simp] theorem wake_crv (s : State) (n : Nat) : (wake n s).crv = s.crv := (wake_touch _ (Touch.refl 0x40000000000004000000000 s)).crv rfl
@[simp] theorem wake_sram (s : State) (n : Nat) : (wake n s).sram = s.sram := (wake_touch _ (Touch.refl 0x40000000000004000000000 s)).sram rfl
@[simp] theorem wake_fwSram (s : State) (n : Nat) : (wake n s).fwSram = s.fwSram := (wake_touch _ (Touch.refl 0x40000000000004000000000 s)).fwSram rfl
@[simp] theorem wake_itn (s : State) (n : Nat) : (wake n s).itn = s.itn := (wake_touch _ (Touch.refl 0x40000000000004000000000 s)).itn rfl
@[simp] theorem wake_tpi (s : State) (n : Nat) : (wake n s).tpi = s.tpi := (wake_touch _ (Touch.refl 0x40000000000004000000000 s)).tpi rfl
@[simp] theorem wake_hld (s : State) (n : Nat) : (wake n s).hld = s.hld := (wake_touch _ (Touch.refl 0x40000000000004000000000 s)).hld rfl
@[simp] theorem wake_due (s : State) (n : Nat) : (wake n s).due = s.due := (wake_touch _ (Touch.refl 0x40000000000004000000000 s)).due rfl
@[simp] theorem wake_tre (s : State) (n : Nat) : (wake n s).tre = s.tre := (wake_touch _ (Touch.refl 0x40000000000004000000000 s)).tre rfl
@[simp] theorem wake_arr (s : State) (n : Nat) : (wake n s).arr = s.arr := (wake_touch _ (Touch.refl 0x40000000000004000000000 s)).arr rfl
@[simp] theorem wake_ver (s : State) (n : Nat) : (wake n s).ver = s.ver := (wake_touch _ (Touch.refl 0x40000000000004000000000 s)).ver rfl
@[simp] theorem wake_flt (s : State) (n : Nat) : (wake n s).flt = s.flt := (wake_touch _ (Touch.refl 0x40000000000004000000000 s)).flt rfl
@[simp] theorem wake_det (s : State) (n : Nat) : (wake n s).det = s.det := (wake_touch _ (Touch.refl 0x40000000000004000000000 s)).det rfl
@[simp] theorem wake_cur (s : State) (n : Nat) : (wake n s).cur = s.cur := (wake_touch _ (Touch.refl 0x40000000000004000000000 s)).cur rfl
@[simp] theorem wake_cmp (s : State) (n : Nat) : (wake n s).cmp = s.cmp := (wake_touch _ (Touch.refl 0x40000000000004000000000 s)).cmp rfl
@[simp] theorem wake_prt (s : State) (n : Nat) : (wake n s).prt = s.prt := (wake_touch _ (Touch.refl 0x40000000000004000000000 s)).prt rfl
@[simp] theorem wake_rcv (s : State) (n : Nat) : (wake n s).rcv = s.rcv := (wake_touch _ (Touch.refl 0x40000000000004000000000 s)).rcv rfl
@[simp] theorem wake_syn (s : State) (n : Nat) : (wake n s).syn = s.syn := (wake_touch _ (Touch.refl 0x40000000000004000000000 s)).syn rfl
@[simp] theorem wake_cores (s : State) (n : Nat) : (wake n s).cores = s.cores := (wake_touch _ (Touch.refl 0x40000000000004000000000 s)).cores rfl
@[simp] theorem wake_ltn (s : State) (n : Nat) : (wake n s).ltn = s.ltn := (wake_touch _ (Touch.refl 0x40000000000004000000000 s)).ltn rfl
@[simp] theorem wake_dbg (s : State) (n : Nat) : (wake n s).dbg = s.dbg := (wake_touch _ (Touch.refl 0x40000000000004000000000 s)).dbg rfl
theorem rd_wake (s : State) (n : Nat) (b : Nat) (h : b / 65536 ∉ [26]) : rd (wake n s) b = rd s b :=
  (wake_touch _ (Touch.refl 0x40000000000004000000000 s)).regs b (bit_page h (bits_in (by decide) (by decide)))
theorem get_wake (s : State) (n : Nat) (g : Field) (h : g.addr / 65536 ∉ [26]) : get (wake n s) g = get s g := by
  unfold get; rw [rd_wake _ _ _ h]

/-! workWake. -/

@[simp] theorem workWake_outbox (s : State) (n : Nat) : (workWake n s).outbox = s.outbox := (workWake_touch _ (Touch.refl 0x40000000000004000000000 s)).outbox rfl
@[simp] theorem workWake_rsp (s : State) (n : Nat) : (workWake n s).rsp = s.rsp := (workWake_touch _ (Touch.refl 0x40000000000004000000000 s)).rsp rfl
@[simp] theorem workWake_rspTag (s : State) (n : Nat) : (workWake n s).rspTag = s.rspTag := (workWake_touch _ (Touch.refl 0x40000000000004000000000 s)).rspTag rfl
@[simp] theorem workWake_clk (s : State) (n : Nat) : (workWake n s).clk = s.clk := (workWake_touch _ (Touch.refl 0x40000000000004000000000 s)).clk rfl
@[simp] theorem workWake_gbk (s : State) (n : Nat) : (workWake n s).gbk = s.gbk := (workWake_touch _ (Touch.refl 0x40000000000004000000000 s)).gbk rfl
@[simp] theorem workWake_ldg (s : State) (n : Nat) : (workWake n s).ldg = s.ldg := (workWake_touch _ (Touch.refl 0x40000000000004000000000 s)).ldg rfl
@[simp] theorem workWake_sbx (s : State) (n : Nat) : (workWake n s).sbx = s.sbx := (workWake_touch _ (Touch.refl 0x40000000000004000000000 s)).sbx rfl
@[simp] theorem workWake_irq (s : State) (n : Nat) : (workWake n s).irq = s.irq := (workWake_touch _ (Touch.refl 0x40000000000004000000000 s)).irq rfl
@[simp] theorem workWake_eop (s : State) (n : Nat) : (workWake n s).eop = s.eop := (workWake_touch _ (Touch.refl 0x40000000000004000000000 s)).eop rfl
@[simp] theorem workWake_mmp (s : State) (n : Nat) : (workWake n s).mmp = s.mmp := (workWake_touch _ (Touch.refl 0x40000000000004000000000 s)).mmp rfl
@[simp] theorem workWake_fbp (s : State) (n : Nat) : (workWake n s).fbp = s.fbp := (workWake_touch _ (Touch.refl 0x40000000000004000000000 s)).fbp rfl
@[simp] theorem workWake_sep (s : State) (n : Nat) : (workWake n s).sep = s.sep := (workWake_touch _ (Touch.refl 0x40000000000004000000000 s)).sep rfl
@[simp] theorem workWake_ksp (s : State) (n : Nat) : (workWake n s).ksp = s.ksp := (workWake_touch _ (Touch.refl 0x40000000000004000000000 s)).ksp rfl
@[simp] theorem workWake_tim (s : State) (n : Nat) : (workWake n s).tim = s.tim := (workWake_touch _ (Touch.refl 0x40000000000004000000000 s)).tim rfl
@[simp] theorem workWake_tly (s : State) (n : Nat) : (workWake n s).tly = s.tly := (workWake_touch _ (Touch.refl 0x40000000000004000000000 s)).tly rfl
@[simp] theorem workWake_ctl (s : State) (n : Nat) : (workWake n s).ctl = s.ctl := (workWake_touch _ (Touch.refl 0x40000000000004000000000 s)).ctl rfl
@[simp] theorem workWake_ink (s : State) (n : Nat) : (workWake n s).ink = s.ink := (workWake_touch _ (Touch.refl 0x40000000000004000000000 s)).ink rfl
@[simp] theorem workWake_crv (s : State) (n : Nat) : (workWake n s).crv = s.crv := (workWake_touch _ (Touch.refl 0x40000000000004000000000 s)).crv rfl
@[simp] theorem workWake_sram (s : State) (n : Nat) : (workWake n s).sram = s.sram := (workWake_touch _ (Touch.refl 0x40000000000004000000000 s)).sram rfl
@[simp] theorem workWake_fwSram (s : State) (n : Nat) : (workWake n s).fwSram = s.fwSram := (workWake_touch _ (Touch.refl 0x40000000000004000000000 s)).fwSram rfl
@[simp] theorem workWake_itn (s : State) (n : Nat) : (workWake n s).itn = s.itn := (workWake_touch _ (Touch.refl 0x40000000000004000000000 s)).itn rfl
@[simp] theorem workWake_tpi (s : State) (n : Nat) : (workWake n s).tpi = s.tpi := (workWake_touch _ (Touch.refl 0x40000000000004000000000 s)).tpi rfl
@[simp] theorem workWake_hld (s : State) (n : Nat) : (workWake n s).hld = s.hld := (workWake_touch _ (Touch.refl 0x40000000000004000000000 s)).hld rfl
@[simp] theorem workWake_due (s : State) (n : Nat) : (workWake n s).due = s.due := (workWake_touch _ (Touch.refl 0x40000000000004000000000 s)).due rfl
@[simp] theorem workWake_tre (s : State) (n : Nat) : (workWake n s).tre = s.tre := (workWake_touch _ (Touch.refl 0x40000000000004000000000 s)).tre rfl
@[simp] theorem workWake_arr (s : State) (n : Nat) : (workWake n s).arr = s.arr := (workWake_touch _ (Touch.refl 0x40000000000004000000000 s)).arr rfl
@[simp] theorem workWake_ver (s : State) (n : Nat) : (workWake n s).ver = s.ver := (workWake_touch _ (Touch.refl 0x40000000000004000000000 s)).ver rfl
@[simp] theorem workWake_flt (s : State) (n : Nat) : (workWake n s).flt = s.flt := (workWake_touch _ (Touch.refl 0x40000000000004000000000 s)).flt rfl
@[simp] theorem workWake_det (s : State) (n : Nat) : (workWake n s).det = s.det := (workWake_touch _ (Touch.refl 0x40000000000004000000000 s)).det rfl
@[simp] theorem workWake_cur (s : State) (n : Nat) : (workWake n s).cur = s.cur := (workWake_touch _ (Touch.refl 0x40000000000004000000000 s)).cur rfl
@[simp] theorem workWake_cmp (s : State) (n : Nat) : (workWake n s).cmp = s.cmp := (workWake_touch _ (Touch.refl 0x40000000000004000000000 s)).cmp rfl
@[simp] theorem workWake_prt (s : State) (n : Nat) : (workWake n s).prt = s.prt := (workWake_touch _ (Touch.refl 0x40000000000004000000000 s)).prt rfl
@[simp] theorem workWake_rcv (s : State) (n : Nat) : (workWake n s).rcv = s.rcv := (workWake_touch _ (Touch.refl 0x40000000000004000000000 s)).rcv rfl
@[simp] theorem workWake_syn (s : State) (n : Nat) : (workWake n s).syn = s.syn := (workWake_touch _ (Touch.refl 0x40000000000004000000000 s)).syn rfl
@[simp] theorem workWake_cores (s : State) (n : Nat) : (workWake n s).cores = s.cores := (workWake_touch _ (Touch.refl 0x40000000000004000000000 s)).cores rfl
@[simp] theorem workWake_ltn (s : State) (n : Nat) : (workWake n s).ltn = s.ltn := (workWake_touch _ (Touch.refl 0x40000000000004000000000 s)).ltn rfl
@[simp] theorem workWake_dbg (s : State) (n : Nat) : (workWake n s).dbg = s.dbg := (workWake_touch _ (Touch.refl 0x40000000000004000000000 s)).dbg rfl
theorem rd_workWake (s : State) (n : Nat) (b : Nat) (h : b / 65536 ∉ [26]) : rd (workWake n s) b = rd s b :=
  (workWake_touch _ (Touch.refl 0x40000000000004000000000 s)).regs b (bit_page h (bits_in (by decide) (by decide)))
theorem get_workWake (s : State) (n : Nat) (g : Field) (h : g.addr / 65536 ∉ [26]) : get (workWake n s) g = get s g := by
  unfold get; rw [rd_workWake _ _ _ h]

/-! syncEvent. -/

@[simp] theorem syncEvent_outbox (s : State) (e a : Nat) : (syncEvent e a s).outbox = s.outbox := (syncEvent_touch _ _ (Touch.refl 0x71000000000004000000480 s)).outbox rfl
@[simp] theorem syncEvent_rsp (s : State) (e a : Nat) : (syncEvent e a s).rsp = s.rsp := (syncEvent_touch _ _ (Touch.refl 0x71000000000004000000480 s)).rsp rfl
@[simp] theorem syncEvent_rspTag (s : State) (e a : Nat) : (syncEvent e a s).rspTag = s.rspTag := (syncEvent_touch _ _ (Touch.refl 0x71000000000004000000480 s)).rspTag rfl
@[simp] theorem syncEvent_clk (s : State) (e a : Nat) : (syncEvent e a s).clk = s.clk := (syncEvent_touch _ _ (Touch.refl 0x71000000000004000000480 s)).clk rfl
@[simp] theorem syncEvent_ldg (s : State) (e a : Nat) : (syncEvent e a s).ldg = s.ldg := (syncEvent_touch _ _ (Touch.refl 0x71000000000004000000480 s)).ldg rfl
@[simp] theorem syncEvent_sbx (s : State) (e a : Nat) : (syncEvent e a s).sbx = s.sbx := (syncEvent_touch _ _ (Touch.refl 0x71000000000004000000480 s)).sbx rfl
@[simp] theorem syncEvent_eop (s : State) (e a : Nat) : (syncEvent e a s).eop = s.eop := (syncEvent_touch _ _ (Touch.refl 0x71000000000004000000480 s)).eop rfl
@[simp] theorem syncEvent_mmp (s : State) (e a : Nat) : (syncEvent e a s).mmp = s.mmp := (syncEvent_touch _ _ (Touch.refl 0x71000000000004000000480 s)).mmp rfl
@[simp] theorem syncEvent_fbp (s : State) (e a : Nat) : (syncEvent e a s).fbp = s.fbp := (syncEvent_touch _ _ (Touch.refl 0x71000000000004000000480 s)).fbp rfl
@[simp] theorem syncEvent_sep (s : State) (e a : Nat) : (syncEvent e a s).sep = s.sep := (syncEvent_touch _ _ (Touch.refl 0x71000000000004000000480 s)).sep rfl
@[simp] theorem syncEvent_ksp (s : State) (e a : Nat) : (syncEvent e a s).ksp = s.ksp := (syncEvent_touch _ _ (Touch.refl 0x71000000000004000000480 s)).ksp rfl
@[simp] theorem syncEvent_tim (s : State) (e a : Nat) : (syncEvent e a s).tim = s.tim := (syncEvent_touch _ _ (Touch.refl 0x71000000000004000000480 s)).tim rfl
@[simp] theorem syncEvent_tly (s : State) (e a : Nat) : (syncEvent e a s).tly = s.tly := (syncEvent_touch _ _ (Touch.refl 0x71000000000004000000480 s)).tly rfl
@[simp] theorem syncEvent_ctl (s : State) (e a : Nat) : (syncEvent e a s).ctl = s.ctl := (syncEvent_touch _ _ (Touch.refl 0x71000000000004000000480 s)).ctl rfl
@[simp] theorem syncEvent_ink (s : State) (e a : Nat) : (syncEvent e a s).ink = s.ink := (syncEvent_touch _ _ (Touch.refl 0x71000000000004000000480 s)).ink rfl
@[simp] theorem syncEvent_crv (s : State) (e a : Nat) : (syncEvent e a s).crv = s.crv := (syncEvent_touch _ _ (Touch.refl 0x71000000000004000000480 s)).crv rfl
@[simp] theorem syncEvent_sram (s : State) (e a : Nat) : (syncEvent e a s).sram = s.sram := (syncEvent_touch _ _ (Touch.refl 0x71000000000004000000480 s)).sram rfl
@[simp] theorem syncEvent_fwSram (s : State) (e a : Nat) : (syncEvent e a s).fwSram = s.fwSram := (syncEvent_touch _ _ (Touch.refl 0x71000000000004000000480 s)).fwSram rfl
@[simp] theorem syncEvent_itn (s : State) (e a : Nat) : (syncEvent e a s).itn = s.itn := (syncEvent_touch _ _ (Touch.refl 0x71000000000004000000480 s)).itn rfl
@[simp] theorem syncEvent_tpi (s : State) (e a : Nat) : (syncEvent e a s).tpi = s.tpi := (syncEvent_touch _ _ (Touch.refl 0x71000000000004000000480 s)).tpi rfl
@[simp] theorem syncEvent_hld (s : State) (e a : Nat) : (syncEvent e a s).hld = s.hld := (syncEvent_touch _ _ (Touch.refl 0x71000000000004000000480 s)).hld rfl
@[simp] theorem syncEvent_due (s : State) (e a : Nat) : (syncEvent e a s).due = s.due := (syncEvent_touch _ _ (Touch.refl 0x71000000000004000000480 s)).due rfl
@[simp] theorem syncEvent_tre (s : State) (e a : Nat) : (syncEvent e a s).tre = s.tre := (syncEvent_touch _ _ (Touch.refl 0x71000000000004000000480 s)).tre rfl
@[simp] theorem syncEvent_arr (s : State) (e a : Nat) : (syncEvent e a s).arr = s.arr := (syncEvent_touch _ _ (Touch.refl 0x71000000000004000000480 s)).arr rfl
@[simp] theorem syncEvent_ver (s : State) (e a : Nat) : (syncEvent e a s).ver = s.ver := (syncEvent_touch _ _ (Touch.refl 0x71000000000004000000480 s)).ver rfl
@[simp] theorem syncEvent_flt (s : State) (e a : Nat) : (syncEvent e a s).flt = s.flt := (syncEvent_touch _ _ (Touch.refl 0x71000000000004000000480 s)).flt rfl
@[simp] theorem syncEvent_det (s : State) (e a : Nat) : (syncEvent e a s).det = s.det := (syncEvent_touch _ _ (Touch.refl 0x71000000000004000000480 s)).det rfl
@[simp] theorem syncEvent_cur (s : State) (e a : Nat) : (syncEvent e a s).cur = s.cur := (syncEvent_touch _ _ (Touch.refl 0x71000000000004000000480 s)).cur rfl
@[simp] theorem syncEvent_cmp (s : State) (e a : Nat) : (syncEvent e a s).cmp = s.cmp := (syncEvent_touch _ _ (Touch.refl 0x71000000000004000000480 s)).cmp rfl
@[simp] theorem syncEvent_prt (s : State) (e a : Nat) : (syncEvent e a s).prt = s.prt := (syncEvent_touch _ _ (Touch.refl 0x71000000000004000000480 s)).prt rfl
@[simp] theorem syncEvent_rcv (s : State) (e a : Nat) : (syncEvent e a s).rcv = s.rcv := (syncEvent_touch _ _ (Touch.refl 0x71000000000004000000480 s)).rcv rfl
@[simp] theorem syncEvent_syn (s : State) (e a : Nat) : (syncEvent e a s).syn = s.syn := (syncEvent_touch _ _ (Touch.refl 0x71000000000004000000480 s)).syn rfl
@[simp] theorem syncEvent_cores (s : State) (e a : Nat) : (syncEvent e a s).cores = s.cores := (syncEvent_touch _ _ (Touch.refl 0x71000000000004000000480 s)).cores rfl
@[simp] theorem syncEvent_ltn (s : State) (e a : Nat) : (syncEvent e a s).ltn = s.ltn := (syncEvent_touch _ _ (Touch.refl 0x71000000000004000000480 s)).ltn rfl
@[simp] theorem syncEvent_dbg (s : State) (e a : Nat) : (syncEvent e a s).dbg = s.dbg := (syncEvent_touch _ _ (Touch.refl 0x71000000000004000000480 s)).dbg rfl
theorem rd_syncEvent (s : State) (e a : Nat) (b : Nat) (h : b / 65536 ∉ [20, 24, 25, 26]) : rd (syncEvent e a s) b = rd s b :=
  (syncEvent_touch _ _ (Touch.refl 0x71000000000004000000480 s)).regs b (bit_page h (bits_in (by decide) (by decide)))
theorem get_syncEvent (s : State) (e a : Nat) (g : Field) (h : g.addr / 65536 ∉ [20, 24, 25, 26]) : get (syncEvent e a s) g = get s g := by
  unfold get; rw [rd_syncEvent _ _ _ _ h]

/-! busyFor. -/

@[simp] theorem busyFor_outbox (s : State) (i : Nat) : (busyFor i s).outbox = s.outbox := (busyFor_touch _ (Touch.refl 0x20000 s)).outbox rfl
@[simp] theorem busyFor_rsp (s : State) (i : Nat) : (busyFor i s).rsp = s.rsp := (busyFor_touch _ (Touch.refl 0x20000 s)).rsp rfl
@[simp] theorem busyFor_rspTag (s : State) (i : Nat) : (busyFor i s).rspTag = s.rspTag := (busyFor_touch _ (Touch.refl 0x20000 s)).rspTag rfl
@[simp] theorem busyFor_clk (s : State) (i : Nat) : (busyFor i s).clk = s.clk := (busyFor_touch _ (Touch.refl 0x20000 s)).clk rfl
@[simp] theorem busyFor_gbk (s : State) (i : Nat) : (busyFor i s).gbk = s.gbk := (busyFor_touch _ (Touch.refl 0x20000 s)).gbk rfl
@[simp] theorem busyFor_ldg (s : State) (i : Nat) : (busyFor i s).ldg = s.ldg := (busyFor_touch _ (Touch.refl 0x20000 s)).ldg rfl
@[simp] theorem busyFor_sbx (s : State) (i : Nat) : (busyFor i s).sbx = s.sbx := (busyFor_touch _ (Touch.refl 0x20000 s)).sbx rfl
@[simp] theorem busyFor_irq (s : State) (i : Nat) : (busyFor i s).irq = s.irq := (busyFor_touch _ (Touch.refl 0x20000 s)).irq rfl
@[simp] theorem busyFor_eop (s : State) (i : Nat) : (busyFor i s).eop = s.eop := (busyFor_touch _ (Touch.refl 0x20000 s)).eop rfl
@[simp] theorem busyFor_mmp (s : State) (i : Nat) : (busyFor i s).mmp = s.mmp := (busyFor_touch _ (Touch.refl 0x20000 s)).mmp rfl
@[simp] theorem busyFor_fbp (s : State) (i : Nat) : (busyFor i s).fbp = s.fbp := (busyFor_touch _ (Touch.refl 0x20000 s)).fbp rfl
@[simp] theorem busyFor_sep (s : State) (i : Nat) : (busyFor i s).sep = s.sep := (busyFor_touch _ (Touch.refl 0x20000 s)).sep rfl
@[simp] theorem busyFor_ksp (s : State) (i : Nat) : (busyFor i s).ksp = s.ksp := (busyFor_touch _ (Touch.refl 0x20000 s)).ksp rfl
@[simp] theorem busyFor_tim (s : State) (i : Nat) : (busyFor i s).tim = s.tim := (busyFor_touch _ (Touch.refl 0x20000 s)).tim rfl
@[simp] theorem busyFor_ctl (s : State) (i : Nat) : (busyFor i s).ctl = s.ctl := (busyFor_touch _ (Touch.refl 0x20000 s)).ctl rfl
@[simp] theorem busyFor_ink (s : State) (i : Nat) : (busyFor i s).ink = s.ink := (busyFor_touch _ (Touch.refl 0x20000 s)).ink rfl
@[simp] theorem busyFor_crv (s : State) (i : Nat) : (busyFor i s).crv = s.crv := (busyFor_touch _ (Touch.refl 0x20000 s)).crv rfl
@[simp] theorem busyFor_sram (s : State) (i : Nat) : (busyFor i s).sram = s.sram := (busyFor_touch _ (Touch.refl 0x20000 s)).sram rfl
@[simp] theorem busyFor_fwSram (s : State) (i : Nat) : (busyFor i s).fwSram = s.fwSram := (busyFor_touch _ (Touch.refl 0x20000 s)).fwSram rfl
@[simp] theorem busyFor_itn (s : State) (i : Nat) : (busyFor i s).itn = s.itn := (busyFor_touch _ (Touch.refl 0x20000 s)).itn rfl
@[simp] theorem busyFor_tpi (s : State) (i : Nat) : (busyFor i s).tpi = s.tpi := (busyFor_touch _ (Touch.refl 0x20000 s)).tpi rfl
@[simp] theorem busyFor_hld (s : State) (i : Nat) : (busyFor i s).hld = s.hld := (busyFor_touch _ (Touch.refl 0x20000 s)).hld rfl
@[simp] theorem busyFor_due (s : State) (i : Nat) : (busyFor i s).due = s.due := (busyFor_touch _ (Touch.refl 0x20000 s)).due rfl
@[simp] theorem busyFor_tre (s : State) (i : Nat) : (busyFor i s).tre = s.tre := (busyFor_touch _ (Touch.refl 0x20000 s)).tre rfl
@[simp] theorem busyFor_arr (s : State) (i : Nat) : (busyFor i s).arr = s.arr := (busyFor_touch _ (Touch.refl 0x20000 s)).arr rfl
@[simp] theorem busyFor_ver (s : State) (i : Nat) : (busyFor i s).ver = s.ver := (busyFor_touch _ (Touch.refl 0x20000 s)).ver rfl
@[simp] theorem busyFor_flt (s : State) (i : Nat) : (busyFor i s).flt = s.flt := (busyFor_touch _ (Touch.refl 0x20000 s)).flt rfl
@[simp] theorem busyFor_det (s : State) (i : Nat) : (busyFor i s).det = s.det := (busyFor_touch _ (Touch.refl 0x20000 s)).det rfl
@[simp] theorem busyFor_cur (s : State) (i : Nat) : (busyFor i s).cur = s.cur := (busyFor_touch _ (Touch.refl 0x20000 s)).cur rfl
@[simp] theorem busyFor_cmp (s : State) (i : Nat) : (busyFor i s).cmp = s.cmp := (busyFor_touch _ (Touch.refl 0x20000 s)).cmp rfl
@[simp] theorem busyFor_prt (s : State) (i : Nat) : (busyFor i s).prt = s.prt := (busyFor_touch _ (Touch.refl 0x20000 s)).prt rfl
@[simp] theorem busyFor_rcv (s : State) (i : Nat) : (busyFor i s).rcv = s.rcv := (busyFor_touch _ (Touch.refl 0x20000 s)).rcv rfl
@[simp] theorem busyFor_syn (s : State) (i : Nat) : (busyFor i s).syn = s.syn := (busyFor_touch _ (Touch.refl 0x20000 s)).syn rfl
@[simp] theorem busyFor_cores (s : State) (i : Nat) : (busyFor i s).cores = s.cores := (busyFor_touch _ (Touch.refl 0x20000 s)).cores rfl
@[simp] theorem busyFor_pwr (s : State) (i : Nat) : (busyFor i s).pwr = s.pwr := (busyFor_touch _ (Touch.refl 0x20000 s)).pwr rfl
@[simp] theorem busyFor_ltn (s : State) (i : Nat) : (busyFor i s).ltn = s.ltn := (busyFor_touch _ (Touch.refl 0x20000 s)).ltn rfl
@[simp] theorem busyFor_dbg (s : State) (i : Nat) : (busyFor i s).dbg = s.dbg := (busyFor_touch _ (Touch.refl 0x20000 s)).dbg rfl
@[simp] theorem rd_busyFor (s : State) (i : Nat) (b : Nat) : rd (busyFor i s) b = rd s b :=
  (busyFor_touch _ (Touch.refl 0x20000 s)).regs b (bit_page (l := []) (by simp) (bits_in (by decide) (by decide)))
@[simp] theorem get_busyFor (s : State) (i : Nat) (g : Field) : get (busyFor i s) g = get s g := by
  unfold get; rw [rd_busyFor]

/-! noteLater. -/

@[simp] theorem noteLater_outbox (s : State) (c k p : Nat) : (noteLater c k p s).outbox = s.outbox := (noteLater_touch _ _ _ (Touch.refl 0x61000000000004000800480 s)).outbox rfl
@[simp] theorem noteLater_rsp (s : State) (c k p : Nat) : (noteLater c k p s).rsp = s.rsp := (noteLater_touch _ _ _ (Touch.refl 0x61000000000004000800480 s)).rsp rfl
@[simp] theorem noteLater_rspTag (s : State) (c k p : Nat) : (noteLater c k p s).rspTag = s.rspTag := (noteLater_touch _ _ _ (Touch.refl 0x61000000000004000800480 s)).rspTag rfl
@[simp] theorem noteLater_clk (s : State) (c k p : Nat) : (noteLater c k p s).clk = s.clk := (noteLater_touch _ _ _ (Touch.refl 0x61000000000004000800480 s)).clk rfl
@[simp] theorem noteLater_ldg (s : State) (c k p : Nat) : (noteLater c k p s).ldg = s.ldg := (noteLater_touch _ _ _ (Touch.refl 0x61000000000004000800480 s)).ldg rfl
@[simp] theorem noteLater_sbx (s : State) (c k p : Nat) : (noteLater c k p s).sbx = s.sbx := (noteLater_touch _ _ _ (Touch.refl 0x61000000000004000800480 s)).sbx rfl
@[simp] theorem noteLater_eop (s : State) (c k p : Nat) : (noteLater c k p s).eop = s.eop := (noteLater_touch _ _ _ (Touch.refl 0x61000000000004000800480 s)).eop rfl
@[simp] theorem noteLater_mmp (s : State) (c k p : Nat) : (noteLater c k p s).mmp = s.mmp := (noteLater_touch _ _ _ (Touch.refl 0x61000000000004000800480 s)).mmp rfl
@[simp] theorem noteLater_fbp (s : State) (c k p : Nat) : (noteLater c k p s).fbp = s.fbp := (noteLater_touch _ _ _ (Touch.refl 0x61000000000004000800480 s)).fbp rfl
@[simp] theorem noteLater_sep (s : State) (c k p : Nat) : (noteLater c k p s).sep = s.sep := (noteLater_touch _ _ _ (Touch.refl 0x61000000000004000800480 s)).sep rfl
@[simp] theorem noteLater_ksp (s : State) (c k p : Nat) : (noteLater c k p s).ksp = s.ksp := (noteLater_touch _ _ _ (Touch.refl 0x61000000000004000800480 s)).ksp rfl
@[simp] theorem noteLater_tim (s : State) (c k p : Nat) : (noteLater c k p s).tim = s.tim := (noteLater_touch _ _ _ (Touch.refl 0x61000000000004000800480 s)).tim rfl
@[simp] theorem noteLater_tly (s : State) (c k p : Nat) : (noteLater c k p s).tly = s.tly := (noteLater_touch _ _ _ (Touch.refl 0x61000000000004000800480 s)).tly rfl
@[simp] theorem noteLater_ctl (s : State) (c k p : Nat) : (noteLater c k p s).ctl = s.ctl := (noteLater_touch _ _ _ (Touch.refl 0x61000000000004000800480 s)).ctl rfl
@[simp] theorem noteLater_ink (s : State) (c k p : Nat) : (noteLater c k p s).ink = s.ink := (noteLater_touch _ _ _ (Touch.refl 0x61000000000004000800480 s)).ink rfl
@[simp] theorem noteLater_crv (s : State) (c k p : Nat) : (noteLater c k p s).crv = s.crv := (noteLater_touch _ _ _ (Touch.refl 0x61000000000004000800480 s)).crv rfl
@[simp] theorem noteLater_sram (s : State) (c k p : Nat) : (noteLater c k p s).sram = s.sram := (noteLater_touch _ _ _ (Touch.refl 0x61000000000004000800480 s)).sram rfl
@[simp] theorem noteLater_fwSram (s : State) (c k p : Nat) : (noteLater c k p s).fwSram = s.fwSram := (noteLater_touch _ _ _ (Touch.refl 0x61000000000004000800480 s)).fwSram rfl
@[simp] theorem noteLater_tpi (s : State) (c k p : Nat) : (noteLater c k p s).tpi = s.tpi := (noteLater_touch _ _ _ (Touch.refl 0x61000000000004000800480 s)).tpi rfl
@[simp] theorem noteLater_hld (s : State) (c k p : Nat) : (noteLater c k p s).hld = s.hld := (noteLater_touch _ _ _ (Touch.refl 0x61000000000004000800480 s)).hld rfl
@[simp] theorem noteLater_due (s : State) (c k p : Nat) : (noteLater c k p s).due = s.due := (noteLater_touch _ _ _ (Touch.refl 0x61000000000004000800480 s)).due rfl
@[simp] theorem noteLater_tre (s : State) (c k p : Nat) : (noteLater c k p s).tre = s.tre := (noteLater_touch _ _ _ (Touch.refl 0x61000000000004000800480 s)).tre rfl
@[simp] theorem noteLater_arr (s : State) (c k p : Nat) : (noteLater c k p s).arr = s.arr := (noteLater_touch _ _ _ (Touch.refl 0x61000000000004000800480 s)).arr rfl
@[simp] theorem noteLater_ver (s : State) (c k p : Nat) : (noteLater c k p s).ver = s.ver := (noteLater_touch _ _ _ (Touch.refl 0x61000000000004000800480 s)).ver rfl
@[simp] theorem noteLater_flt (s : State) (c k p : Nat) : (noteLater c k p s).flt = s.flt := (noteLater_touch _ _ _ (Touch.refl 0x61000000000004000800480 s)).flt rfl
@[simp] theorem noteLater_det (s : State) (c k p : Nat) : (noteLater c k p s).det = s.det := (noteLater_touch _ _ _ (Touch.refl 0x61000000000004000800480 s)).det rfl
@[simp] theorem noteLater_cur (s : State) (c k p : Nat) : (noteLater c k p s).cur = s.cur := (noteLater_touch _ _ _ (Touch.refl 0x61000000000004000800480 s)).cur rfl
@[simp] theorem noteLater_cmp (s : State) (c k p : Nat) : (noteLater c k p s).cmp = s.cmp := (noteLater_touch _ _ _ (Touch.refl 0x61000000000004000800480 s)).cmp rfl
@[simp] theorem noteLater_prt (s : State) (c k p : Nat) : (noteLater c k p s).prt = s.prt := (noteLater_touch _ _ _ (Touch.refl 0x61000000000004000800480 s)).prt rfl
@[simp] theorem noteLater_rcv (s : State) (c k p : Nat) : (noteLater c k p s).rcv = s.rcv := (noteLater_touch _ _ _ (Touch.refl 0x61000000000004000800480 s)).rcv rfl
@[simp] theorem noteLater_syn (s : State) (c k p : Nat) : (noteLater c k p s).syn = s.syn := (noteLater_touch _ _ _ (Touch.refl 0x61000000000004000800480 s)).syn rfl
@[simp] theorem noteLater_cores (s : State) (c k p : Nat) : (noteLater c k p s).cores = s.cores := (noteLater_touch _ _ _ (Touch.refl 0x61000000000004000800480 s)).cores rfl
@[simp] theorem noteLater_ltn (s : State) (c k p : Nat) : (noteLater c k p s).ltn = s.ltn := (noteLater_touch _ _ _ (Touch.refl 0x61000000000004000800480 s)).ltn rfl
@[simp] theorem noteLater_dbg (s : State) (c k p : Nat) : (noteLater c k p s).dbg = s.dbg := (noteLater_touch _ _ _ (Touch.refl 0x61000000000004000800480 s)).dbg rfl
theorem rd_noteLater (s : State) (c k p : Nat) (b : Nat) (h : b / 65536 ∉ [20, 25, 26]) : rd (noteLater c k p s) b = rd s b :=
  (noteLater_touch _ _ _ (Touch.refl 0x61000000000004000800480 s)).regs b (bit_page h (bits_in (by decide) (by decide)))
theorem get_noteLater (s : State) (c k p : Nat) (g : Field) (h : g.addr / 65536 ∉ [20, 25, 26]) : get (noteLater c k p s) g = get s g := by
  unfold get; rw [rd_noteLater _ _ _ _ _ h]

/-! ledgerPass. -/

@[simp] theorem ledgerPass_outbox (s : State) : (ledgerPass s).outbox = s.outbox := (ledgerPass_touch (Touch.refl 0x63000000000004000000580 s)).outbox rfl
@[simp] theorem ledgerPass_rsp (s : State) : (ledgerPass s).rsp = s.rsp := (ledgerPass_touch (Touch.refl 0x63000000000004000000580 s)).rsp rfl
@[simp] theorem ledgerPass_rspTag (s : State) : (ledgerPass s).rspTag = s.rspTag := (ledgerPass_touch (Touch.refl 0x63000000000004000000580 s)).rspTag rfl
@[simp] theorem ledgerPass_clk (s : State) : (ledgerPass s).clk = s.clk := (ledgerPass_touch (Touch.refl 0x63000000000004000000580 s)).clk rfl
@[simp] theorem ledgerPass_sbx (s : State) : (ledgerPass s).sbx = s.sbx := (ledgerPass_touch (Touch.refl 0x63000000000004000000580 s)).sbx rfl
@[simp] theorem ledgerPass_eop (s : State) : (ledgerPass s).eop = s.eop := (ledgerPass_touch (Touch.refl 0x63000000000004000000580 s)).eop rfl
@[simp] theorem ledgerPass_mmp (s : State) : (ledgerPass s).mmp = s.mmp := (ledgerPass_touch (Touch.refl 0x63000000000004000000580 s)).mmp rfl
@[simp] theorem ledgerPass_fbp (s : State) : (ledgerPass s).fbp = s.fbp := (ledgerPass_touch (Touch.refl 0x63000000000004000000580 s)).fbp rfl
@[simp] theorem ledgerPass_sep (s : State) : (ledgerPass s).sep = s.sep := (ledgerPass_touch (Touch.refl 0x63000000000004000000580 s)).sep rfl
@[simp] theorem ledgerPass_ksp (s : State) : (ledgerPass s).ksp = s.ksp := (ledgerPass_touch (Touch.refl 0x63000000000004000000580 s)).ksp rfl
@[simp] theorem ledgerPass_tim (s : State) : (ledgerPass s).tim = s.tim := (ledgerPass_touch (Touch.refl 0x63000000000004000000580 s)).tim rfl
@[simp] theorem ledgerPass_tly (s : State) : (ledgerPass s).tly = s.tly := (ledgerPass_touch (Touch.refl 0x63000000000004000000580 s)).tly rfl
@[simp] theorem ledgerPass_ctl (s : State) : (ledgerPass s).ctl = s.ctl := (ledgerPass_touch (Touch.refl 0x63000000000004000000580 s)).ctl rfl
@[simp] theorem ledgerPass_ink (s : State) : (ledgerPass s).ink = s.ink := (ledgerPass_touch (Touch.refl 0x63000000000004000000580 s)).ink rfl
@[simp] theorem ledgerPass_crv (s : State) : (ledgerPass s).crv = s.crv := (ledgerPass_touch (Touch.refl 0x63000000000004000000580 s)).crv rfl
@[simp] theorem ledgerPass_sram (s : State) : (ledgerPass s).sram = s.sram := (ledgerPass_touch (Touch.refl 0x63000000000004000000580 s)).sram rfl
@[simp] theorem ledgerPass_fwSram (s : State) : (ledgerPass s).fwSram = s.fwSram := (ledgerPass_touch (Touch.refl 0x63000000000004000000580 s)).fwSram rfl
@[simp] theorem ledgerPass_itn (s : State) : (ledgerPass s).itn = s.itn := (ledgerPass_touch (Touch.refl 0x63000000000004000000580 s)).itn rfl
@[simp] theorem ledgerPass_tpi (s : State) : (ledgerPass s).tpi = s.tpi := (ledgerPass_touch (Touch.refl 0x63000000000004000000580 s)).tpi rfl
@[simp] theorem ledgerPass_hld (s : State) : (ledgerPass s).hld = s.hld := (ledgerPass_touch (Touch.refl 0x63000000000004000000580 s)).hld rfl
@[simp] theorem ledgerPass_due (s : State) : (ledgerPass s).due = s.due := (ledgerPass_touch (Touch.refl 0x63000000000004000000580 s)).due rfl
@[simp] theorem ledgerPass_tre (s : State) : (ledgerPass s).tre = s.tre := (ledgerPass_touch (Touch.refl 0x63000000000004000000580 s)).tre rfl
@[simp] theorem ledgerPass_arr (s : State) : (ledgerPass s).arr = s.arr := (ledgerPass_touch (Touch.refl 0x63000000000004000000580 s)).arr rfl
@[simp] theorem ledgerPass_ver (s : State) : (ledgerPass s).ver = s.ver := (ledgerPass_touch (Touch.refl 0x63000000000004000000580 s)).ver rfl
@[simp] theorem ledgerPass_flt (s : State) : (ledgerPass s).flt = s.flt := (ledgerPass_touch (Touch.refl 0x63000000000004000000580 s)).flt rfl
@[simp] theorem ledgerPass_det (s : State) : (ledgerPass s).det = s.det := (ledgerPass_touch (Touch.refl 0x63000000000004000000580 s)).det rfl
@[simp] theorem ledgerPass_cur (s : State) : (ledgerPass s).cur = s.cur := (ledgerPass_touch (Touch.refl 0x63000000000004000000580 s)).cur rfl
@[simp] theorem ledgerPass_cmp (s : State) : (ledgerPass s).cmp = s.cmp := (ledgerPass_touch (Touch.refl 0x63000000000004000000580 s)).cmp rfl
@[simp] theorem ledgerPass_prt (s : State) : (ledgerPass s).prt = s.prt := (ledgerPass_touch (Touch.refl 0x63000000000004000000580 s)).prt rfl
@[simp] theorem ledgerPass_rcv (s : State) : (ledgerPass s).rcv = s.rcv := (ledgerPass_touch (Touch.refl 0x63000000000004000000580 s)).rcv rfl
@[simp] theorem ledgerPass_syn (s : State) : (ledgerPass s).syn = s.syn := (ledgerPass_touch (Touch.refl 0x63000000000004000000580 s)).syn rfl
@[simp] theorem ledgerPass_cores (s : State) : (ledgerPass s).cores = s.cores := (ledgerPass_touch (Touch.refl 0x63000000000004000000580 s)).cores rfl
@[simp] theorem ledgerPass_ltn (s : State) : (ledgerPass s).ltn = s.ltn := (ledgerPass_touch (Touch.refl 0x63000000000004000000580 s)).ltn rfl
@[simp] theorem ledgerPass_dbg (s : State) : (ledgerPass s).dbg = s.dbg := (ledgerPass_touch (Touch.refl 0x63000000000004000000580 s)).dbg rfl
theorem rd_ledgerPass (s : State) (b : Nat) (h : b / 65536 ∉ [20, 21, 25, 26]) : rd (ledgerPass s) b = rd s b :=
  (ledgerPass_touch (Touch.refl 0x63000000000004000000580 s)).regs b (bit_page h (bits_in (by decide) (by decide)))
theorem get_ledgerPass (s : State) (g : Field) (h : g.addr / 65536 ∉ [20, 21, 25, 26]) : get (ledgerPass s) g = get s g := by
  unfold get; rw [rd_ledgerPass _ _ h]

/-! undefinedField. -/

@[simp] theorem undefinedField_outbox (s : State) (a v : Nat) : (undefinedField a v s).outbox = s.outbox := (undefinedField_touch _ _ (Touch.refl 0x61000000000004000000480 s)).outbox rfl
@[simp] theorem undefinedField_rsp (s : State) (a v : Nat) : (undefinedField a v s).rsp = s.rsp := (undefinedField_touch _ _ (Touch.refl 0x61000000000004000000480 s)).rsp rfl
@[simp] theorem undefinedField_rspTag (s : State) (a v : Nat) : (undefinedField a v s).rspTag = s.rspTag := (undefinedField_touch _ _ (Touch.refl 0x61000000000004000000480 s)).rspTag rfl
@[simp] theorem undefinedField_clk (s : State) (a v : Nat) : (undefinedField a v s).clk = s.clk := (undefinedField_touch _ _ (Touch.refl 0x61000000000004000000480 s)).clk rfl
@[simp] theorem undefinedField_ldg (s : State) (a v : Nat) : (undefinedField a v s).ldg = s.ldg := (undefinedField_touch _ _ (Touch.refl 0x61000000000004000000480 s)).ldg rfl
@[simp] theorem undefinedField_sbx (s : State) (a v : Nat) : (undefinedField a v s).sbx = s.sbx := (undefinedField_touch _ _ (Touch.refl 0x61000000000004000000480 s)).sbx rfl
@[simp] theorem undefinedField_eop (s : State) (a v : Nat) : (undefinedField a v s).eop = s.eop := (undefinedField_touch _ _ (Touch.refl 0x61000000000004000000480 s)).eop rfl
@[simp] theorem undefinedField_mmp (s : State) (a v : Nat) : (undefinedField a v s).mmp = s.mmp := (undefinedField_touch _ _ (Touch.refl 0x61000000000004000000480 s)).mmp rfl
@[simp] theorem undefinedField_fbp (s : State) (a v : Nat) : (undefinedField a v s).fbp = s.fbp := (undefinedField_touch _ _ (Touch.refl 0x61000000000004000000480 s)).fbp rfl
@[simp] theorem undefinedField_sep (s : State) (a v : Nat) : (undefinedField a v s).sep = s.sep := (undefinedField_touch _ _ (Touch.refl 0x61000000000004000000480 s)).sep rfl
@[simp] theorem undefinedField_ksp (s : State) (a v : Nat) : (undefinedField a v s).ksp = s.ksp := (undefinedField_touch _ _ (Touch.refl 0x61000000000004000000480 s)).ksp rfl
@[simp] theorem undefinedField_tim (s : State) (a v : Nat) : (undefinedField a v s).tim = s.tim := (undefinedField_touch _ _ (Touch.refl 0x61000000000004000000480 s)).tim rfl
@[simp] theorem undefinedField_tly (s : State) (a v : Nat) : (undefinedField a v s).tly = s.tly := (undefinedField_touch _ _ (Touch.refl 0x61000000000004000000480 s)).tly rfl
@[simp] theorem undefinedField_ctl (s : State) (a v : Nat) : (undefinedField a v s).ctl = s.ctl := (undefinedField_touch _ _ (Touch.refl 0x61000000000004000000480 s)).ctl rfl
@[simp] theorem undefinedField_ink (s : State) (a v : Nat) : (undefinedField a v s).ink = s.ink := (undefinedField_touch _ _ (Touch.refl 0x61000000000004000000480 s)).ink rfl
@[simp] theorem undefinedField_crv (s : State) (a v : Nat) : (undefinedField a v s).crv = s.crv := (undefinedField_touch _ _ (Touch.refl 0x61000000000004000000480 s)).crv rfl
@[simp] theorem undefinedField_sram (s : State) (a v : Nat) : (undefinedField a v s).sram = s.sram := (undefinedField_touch _ _ (Touch.refl 0x61000000000004000000480 s)).sram rfl
@[simp] theorem undefinedField_fwSram (s : State) (a v : Nat) : (undefinedField a v s).fwSram = s.fwSram := (undefinedField_touch _ _ (Touch.refl 0x61000000000004000000480 s)).fwSram rfl
@[simp] theorem undefinedField_itn (s : State) (a v : Nat) : (undefinedField a v s).itn = s.itn := (undefinedField_touch _ _ (Touch.refl 0x61000000000004000000480 s)).itn rfl
@[simp] theorem undefinedField_tpi (s : State) (a v : Nat) : (undefinedField a v s).tpi = s.tpi := (undefinedField_touch _ _ (Touch.refl 0x61000000000004000000480 s)).tpi rfl
@[simp] theorem undefinedField_hld (s : State) (a v : Nat) : (undefinedField a v s).hld = s.hld := (undefinedField_touch _ _ (Touch.refl 0x61000000000004000000480 s)).hld rfl
@[simp] theorem undefinedField_due (s : State) (a v : Nat) : (undefinedField a v s).due = s.due := (undefinedField_touch _ _ (Touch.refl 0x61000000000004000000480 s)).due rfl
@[simp] theorem undefinedField_tre (s : State) (a v : Nat) : (undefinedField a v s).tre = s.tre := (undefinedField_touch _ _ (Touch.refl 0x61000000000004000000480 s)).tre rfl
@[simp] theorem undefinedField_arr (s : State) (a v : Nat) : (undefinedField a v s).arr = s.arr := (undefinedField_touch _ _ (Touch.refl 0x61000000000004000000480 s)).arr rfl
@[simp] theorem undefinedField_ver (s : State) (a v : Nat) : (undefinedField a v s).ver = s.ver := (undefinedField_touch _ _ (Touch.refl 0x61000000000004000000480 s)).ver rfl
@[simp] theorem undefinedField_flt (s : State) (a v : Nat) : (undefinedField a v s).flt = s.flt := (undefinedField_touch _ _ (Touch.refl 0x61000000000004000000480 s)).flt rfl
@[simp] theorem undefinedField_det (s : State) (a v : Nat) : (undefinedField a v s).det = s.det := (undefinedField_touch _ _ (Touch.refl 0x61000000000004000000480 s)).det rfl
@[simp] theorem undefinedField_cur (s : State) (a v : Nat) : (undefinedField a v s).cur = s.cur := (undefinedField_touch _ _ (Touch.refl 0x61000000000004000000480 s)).cur rfl
@[simp] theorem undefinedField_cmp (s : State) (a v : Nat) : (undefinedField a v s).cmp = s.cmp := (undefinedField_touch _ _ (Touch.refl 0x61000000000004000000480 s)).cmp rfl
@[simp] theorem undefinedField_prt (s : State) (a v : Nat) : (undefinedField a v s).prt = s.prt := (undefinedField_touch _ _ (Touch.refl 0x61000000000004000000480 s)).prt rfl
@[simp] theorem undefinedField_rcv (s : State) (a v : Nat) : (undefinedField a v s).rcv = s.rcv := (undefinedField_touch _ _ (Touch.refl 0x61000000000004000000480 s)).rcv rfl
@[simp] theorem undefinedField_syn (s : State) (a v : Nat) : (undefinedField a v s).syn = s.syn := (undefinedField_touch _ _ (Touch.refl 0x61000000000004000000480 s)).syn rfl
@[simp] theorem undefinedField_cores (s : State) (a v : Nat) : (undefinedField a v s).cores = s.cores := (undefinedField_touch _ _ (Touch.refl 0x61000000000004000000480 s)).cores rfl
@[simp] theorem undefinedField_ltn (s : State) (a v : Nat) : (undefinedField a v s).ltn = s.ltn := (undefinedField_touch _ _ (Touch.refl 0x61000000000004000000480 s)).ltn rfl
@[simp] theorem undefinedField_dbg (s : State) (a v : Nat) : (undefinedField a v s).dbg = s.dbg := (undefinedField_touch _ _ (Touch.refl 0x61000000000004000000480 s)).dbg rfl
theorem rd_undefinedField (s : State) (a v : Nat) (b : Nat) (h : b / 65536 ∉ [20, 25, 26]) : rd (undefinedField a v s) b = rd s b :=
  (undefinedField_touch _ _ (Touch.refl 0x61000000000004000000480 s)).regs b (bit_page h (bits_in (by decide) (by decide)))
theorem get_undefinedField (s : State) (a v : Nat) (g : Field) (h : g.addr / 65536 ∉ [20, 25, 26]) : get (undefinedField a v s) g = get s g := by
  unfold get; rw [rd_undefinedField _ _ _ _ h]

/-! wrongSeq. -/

@[simp] theorem wrongSeq_outbox (s : State) (a : Nat) : (wrongSeq a s).outbox = s.outbox := (wrongSeq_touch _ (Touch.refl 0x61000000000004000000480 s)).outbox rfl
@[simp] theorem wrongSeq_rsp (s : State) (a : Nat) : (wrongSeq a s).rsp = s.rsp := (wrongSeq_touch _ (Touch.refl 0x61000000000004000000480 s)).rsp rfl
@[simp] theorem wrongSeq_rspTag (s : State) (a : Nat) : (wrongSeq a s).rspTag = s.rspTag := (wrongSeq_touch _ (Touch.refl 0x61000000000004000000480 s)).rspTag rfl
@[simp] theorem wrongSeq_clk (s : State) (a : Nat) : (wrongSeq a s).clk = s.clk := (wrongSeq_touch _ (Touch.refl 0x61000000000004000000480 s)).clk rfl
@[simp] theorem wrongSeq_ldg (s : State) (a : Nat) : (wrongSeq a s).ldg = s.ldg := (wrongSeq_touch _ (Touch.refl 0x61000000000004000000480 s)).ldg rfl
@[simp] theorem wrongSeq_sbx (s : State) (a : Nat) : (wrongSeq a s).sbx = s.sbx := (wrongSeq_touch _ (Touch.refl 0x61000000000004000000480 s)).sbx rfl
@[simp] theorem wrongSeq_eop (s : State) (a : Nat) : (wrongSeq a s).eop = s.eop := (wrongSeq_touch _ (Touch.refl 0x61000000000004000000480 s)).eop rfl
@[simp] theorem wrongSeq_mmp (s : State) (a : Nat) : (wrongSeq a s).mmp = s.mmp := (wrongSeq_touch _ (Touch.refl 0x61000000000004000000480 s)).mmp rfl
@[simp] theorem wrongSeq_fbp (s : State) (a : Nat) : (wrongSeq a s).fbp = s.fbp := (wrongSeq_touch _ (Touch.refl 0x61000000000004000000480 s)).fbp rfl
@[simp] theorem wrongSeq_sep (s : State) (a : Nat) : (wrongSeq a s).sep = s.sep := (wrongSeq_touch _ (Touch.refl 0x61000000000004000000480 s)).sep rfl
@[simp] theorem wrongSeq_ksp (s : State) (a : Nat) : (wrongSeq a s).ksp = s.ksp := (wrongSeq_touch _ (Touch.refl 0x61000000000004000000480 s)).ksp rfl
@[simp] theorem wrongSeq_tim (s : State) (a : Nat) : (wrongSeq a s).tim = s.tim := (wrongSeq_touch _ (Touch.refl 0x61000000000004000000480 s)).tim rfl
@[simp] theorem wrongSeq_tly (s : State) (a : Nat) : (wrongSeq a s).tly = s.tly := (wrongSeq_touch _ (Touch.refl 0x61000000000004000000480 s)).tly rfl
@[simp] theorem wrongSeq_ctl (s : State) (a : Nat) : (wrongSeq a s).ctl = s.ctl := (wrongSeq_touch _ (Touch.refl 0x61000000000004000000480 s)).ctl rfl
@[simp] theorem wrongSeq_ink (s : State) (a : Nat) : (wrongSeq a s).ink = s.ink := (wrongSeq_touch _ (Touch.refl 0x61000000000004000000480 s)).ink rfl
@[simp] theorem wrongSeq_crv (s : State) (a : Nat) : (wrongSeq a s).crv = s.crv := (wrongSeq_touch _ (Touch.refl 0x61000000000004000000480 s)).crv rfl
@[simp] theorem wrongSeq_sram (s : State) (a : Nat) : (wrongSeq a s).sram = s.sram := (wrongSeq_touch _ (Touch.refl 0x61000000000004000000480 s)).sram rfl
@[simp] theorem wrongSeq_fwSram (s : State) (a : Nat) : (wrongSeq a s).fwSram = s.fwSram := (wrongSeq_touch _ (Touch.refl 0x61000000000004000000480 s)).fwSram rfl
@[simp] theorem wrongSeq_itn (s : State) (a : Nat) : (wrongSeq a s).itn = s.itn := (wrongSeq_touch _ (Touch.refl 0x61000000000004000000480 s)).itn rfl
@[simp] theorem wrongSeq_tpi (s : State) (a : Nat) : (wrongSeq a s).tpi = s.tpi := (wrongSeq_touch _ (Touch.refl 0x61000000000004000000480 s)).tpi rfl
@[simp] theorem wrongSeq_hld (s : State) (a : Nat) : (wrongSeq a s).hld = s.hld := (wrongSeq_touch _ (Touch.refl 0x61000000000004000000480 s)).hld rfl
@[simp] theorem wrongSeq_due (s : State) (a : Nat) : (wrongSeq a s).due = s.due := (wrongSeq_touch _ (Touch.refl 0x61000000000004000000480 s)).due rfl
@[simp] theorem wrongSeq_tre (s : State) (a : Nat) : (wrongSeq a s).tre = s.tre := (wrongSeq_touch _ (Touch.refl 0x61000000000004000000480 s)).tre rfl
@[simp] theorem wrongSeq_arr (s : State) (a : Nat) : (wrongSeq a s).arr = s.arr := (wrongSeq_touch _ (Touch.refl 0x61000000000004000000480 s)).arr rfl
@[simp] theorem wrongSeq_ver (s : State) (a : Nat) : (wrongSeq a s).ver = s.ver := (wrongSeq_touch _ (Touch.refl 0x61000000000004000000480 s)).ver rfl
@[simp] theorem wrongSeq_flt (s : State) (a : Nat) : (wrongSeq a s).flt = s.flt := (wrongSeq_touch _ (Touch.refl 0x61000000000004000000480 s)).flt rfl
@[simp] theorem wrongSeq_det (s : State) (a : Nat) : (wrongSeq a s).det = s.det := (wrongSeq_touch _ (Touch.refl 0x61000000000004000000480 s)).det rfl
@[simp] theorem wrongSeq_cur (s : State) (a : Nat) : (wrongSeq a s).cur = s.cur := (wrongSeq_touch _ (Touch.refl 0x61000000000004000000480 s)).cur rfl
@[simp] theorem wrongSeq_cmp (s : State) (a : Nat) : (wrongSeq a s).cmp = s.cmp := (wrongSeq_touch _ (Touch.refl 0x61000000000004000000480 s)).cmp rfl
@[simp] theorem wrongSeq_prt (s : State) (a : Nat) : (wrongSeq a s).prt = s.prt := (wrongSeq_touch _ (Touch.refl 0x61000000000004000000480 s)).prt rfl
@[simp] theorem wrongSeq_rcv (s : State) (a : Nat) : (wrongSeq a s).rcv = s.rcv := (wrongSeq_touch _ (Touch.refl 0x61000000000004000000480 s)).rcv rfl
@[simp] theorem wrongSeq_syn (s : State) (a : Nat) : (wrongSeq a s).syn = s.syn := (wrongSeq_touch _ (Touch.refl 0x61000000000004000000480 s)).syn rfl
@[simp] theorem wrongSeq_cores (s : State) (a : Nat) : (wrongSeq a s).cores = s.cores := (wrongSeq_touch _ (Touch.refl 0x61000000000004000000480 s)).cores rfl
@[simp] theorem wrongSeq_ltn (s : State) (a : Nat) : (wrongSeq a s).ltn = s.ltn := (wrongSeq_touch _ (Touch.refl 0x61000000000004000000480 s)).ltn rfl
@[simp] theorem wrongSeq_dbg (s : State) (a : Nat) : (wrongSeq a s).dbg = s.dbg := (wrongSeq_touch _ (Touch.refl 0x61000000000004000000480 s)).dbg rfl
theorem rd_wrongSeq (s : State) (a : Nat) (b : Nat) (h : b / 65536 ∉ [20, 25, 26]) : rd (wrongSeq a s) b = rd s b :=
  (wrongSeq_touch _ (Touch.refl 0x61000000000004000000480 s)).regs b (bit_page h (bits_in (by decide) (by decide)))
theorem get_wrongSeq (s : State) (a : Nat) (g : Field) (h : g.addr / 65536 ∉ [20, 25, 26]) : get (wrongSeq a s) g = get s g := by
  unfold get; rw [rd_wrongSeq _ _ _ h]

/-! Registers after a flag, a report or a posted result. -/

theorem rd_flag (s : State) (f : Field) (a : Nat) (h : a / 65536 ∉ [25, 26]) (k : a ≠ f.addr) : rd (flag f s) a = rd s a := by
  unfold flag
  split
  · rfl
  · rw [rd_raiseIrq _ _ _ h, rd_set_other k]

theorem get_flag (s : State) (f g : Field) (h : g.addr / 65536 ∉ [25, 26]) (k : g.addr ≠ f.addr ∨ g.lo + g.w ≤ f.lo ∨ f.lo + f.w ≤ g.lo)
    (h64 : g.lo + g.w ≤ 64) : get (flag f s) g = get s g := by
  unfold flag
  split
  · rfl
  · rw [get_raiseIrq _ _ _ h, get_set_other _ _ k h64]

theorem get_flag_same (s : State) (f : Field) (h : f.addr / 65536 ∉ [25, 26]) (h64 : f.lo + f.w ≤ 64) : get (flag f s) f = 2 ^ f.w - 1 := by
  unfold flag
  split
  · assumption
  · rw [get_raiseIrq _ _ _ h, get_set_same _ _ _ h64, Nat.mod_eq_of_lt (Nat.sub_lt (Nat.two_pow_pos _) (by decide))]

theorem get_report (s : State) (f g : Field) (c q p : Nat) (h : g.addr / 65536 ∉ [20, 25, 26])
    (k : g.addr ≠ f.addr ∨ g.lo + g.w ≤ f.lo ∨ f.lo + f.w ≤ g.lo) (h64 : g.lo + g.w ≤ 64) : get (report f c q p s) g = get s g := by
  unfold report
  rw [get_note _ _ _ _ _ h, get_flag _ _ _ (by simp at h ⊢; tauto) k h64]

theorem get_report_same (s : State) (f : Field) (c q p : Nat) (h : f.addr / 65536 ∉ [20, 25, 26]) (h64 : f.lo + f.w ≤ 64) :
    get (report f c q p s) f = 2 ^ f.w - 1 := by
  unfold report
  rw [get_note _ _ _ _ _ h, get_flag_same _ _ (by simp at h ⊢; tauto) h64]

theorem rd_post (s : State) (a n : Nat) (v : Word) (h : a / 65536 ∉ [25, 26]) : rd (post a n v s) a = putAt (putAt v 48 16 n) 32 1 1 := by
  unfold post; rw [rd_raiseIrq _ _ _ h, rd_wr_same]

theorem rd_post_other (s : State) (a n : Nat) (v : Word) (b : Nat) (h : b / 65536 ∉ [25, 26]) (k : b ≠ a) : rd (post a n v s) b = rd s b := by
  unfold post; rw [rd_raiseIrq _ _ _ h, rd_wr_other k]

theorem get_post_other (s : State) (a n : Nat) (v : Word) (g : Field) (h : g.addr / 65536 ∉ [25, 26]) (k : g.addr ≠ a) :
    get (post a n v s) g = get s g := by
  unfold get; rw [rd_post_other _ _ _ _ _ h k]

/-! Records. -/

theorem note_records (c k p : Nat) (s : State) : Records s (note c k p s) c k p := by
  intro hr hq
  unfold note record
  have : ¬ (256 ≤ s.gbk.queue.length) := by omega
  have h2 : ¬ (192 < s.gbk.queue.length) := by omega
  simp only [hr, Bool.not_true, Bool.false_eq_true, if_false, this, h2, decide_false, Bool.false_and, Bool.or_false]
  exact ⟨_, rfl, rfl, rfl, rfl⟩

/-- A record that `s` would take is taken by a state that agrees with `s` on the Guestbook. -/
theorem Records.of {s s' t : State} {c k p : Nat} (h : Records s' t c k p) (h1 : get s' F.GBK_STATUS_RUNNING = get s F.GBK_STATUS_RUNNING)
    (h2 : s'.gbk = s.gbk) : Records s t c k p := by
  intro hr hq
  rw [← h2]
  exact h (by unfold on at *; rw [h1]; exact hr) (by rw [h2]; exact hq)

/-- Later changes that leave the queue alone leave the record there. -/
theorem Records.then {s t t' : State} {c k p : Nat} (h : Records s t c k p) (e : t'.gbk = t.gbk) : Records s t' c k p := by
  intro hr hq; rw [e]; exact h hr hq

theorem report_records (f : Field) (c k p : Nat) (s : State) (h : f.addr ≠ F.GBK_STATUS_RUNNING.addr) : Records s (report f c k p s) c k p :=
  (note_records c k p (flag f s)).of (get_flag _ _ _ (by decide) (.inl h.symm) (by decide)) (by simp)

theorem get_foldl {α : Type} {f : State → α → State} {g : Field} (l : List α) (s : State) (h : ∀ t, ∀ x ∈ l, get (f t x) g = get t g) :
    get (l.foldl f s) g = get s g := by
  induction l generalizing s with
  | nil => rfl
  | cons x t ih => rw [List.foldl_cons, ih _ fun u y hy => h u y (List.mem_cons_of_mem _ hy), h _ _ (List.mem_cons_self ..)]

theorem part_foldl {α β : Type} {f : State → α → State} {π : State → β} (l : List α) (s : State) (h : ∀ t, ∀ x ∈ l, π (f t x) = π t) :
    π (l.foldl f s) = π s := by
  induction l generalizing s with
  | nil => rfl
  | cons x t ih => rw [List.foldl_cons, ih _ fun u y hy => h u y (List.mem_cons_of_mem _ hy), h _ _ (List.mem_cons_self ..)]

/-! Single bits of a field. -/

theorem get_lt (s : State) (f : Field) : get s f < 2 ^ f.w := by unfold get bitsAt; exact Nat.mod_lt _ (Nat.two_pow_pos _)

theorem testBit_clear (i v j : Nat) (h : v.testBit i = true) : (v - 2 ^ i).testBit j = (decide (j ≠ i) && v.testBit j) := by
  induction i generalizing v j with
  | zero =>
    simp only [Nat.testBit_zero, decide_eq_true_eq] at h
    cases j with
    | zero => simp; omega
    | succ j =>
      have : (v - 1) / 2 = v / 2 := by omega
      simp [Nat.testBit_succ, this]
  | succ i ih =>
    rw [Nat.testBit_succ] at h
    have hle := Nat.ge_two_pow_of_testBit h
    cases j with
    | zero =>
      have : (v - 2 ^ (i + 1)) % 2 = v % 2 := by rw [Nat.pow_succ]; omega
      simp [Nat.testBit_zero, this]
    | succ j =>
      have : (v - 2 ^ (i + 1)) / 2 = v / 2 - 2 ^ i := by rw [Nat.pow_succ]; omega
      rw [Nat.testBit_succ, this, ih _ _ h, Nat.testBit_succ]
      by_cases e : j = i <;> simp [e]

theorem bitOn_setBit (s : State) (f : Field) (i j : Nat) (b : Bool) (hj : j < f.w) (h64 : f.lo + f.w ≤ 64) :
    bitOn (setBit s f i b) f j = if j = i then b else bitOn s f j := by
  unfold bitOn setBit
  rw [get_set_same _ _ _ h64, Nat.testBit_mod_two_pow]
  cases b with
  | true =>
    simp only [if_true, Nat.testBit_or, Nat.testBit_two_pow, hj, decide_true, Bool.true_and]
    by_cases e : j = i
    · simp [e]
    · simp [e, Ne.symm e]
  | false =>
    simp only [Bool.false_eq_true, if_false, hj, decide_true, Bool.true_and]
    split
    · next h => rw [testBit_clear _ _ _ h]; by_cases e : j = i <;> simp [e]
    · next h => by_cases e : j = i
                · subst e; simpa using h
                · simp [e]

theorem rd_setBit_other (s : State) (f : Field) (i : Nat) (b : Bool) (a : Nat) (h : a ≠ f.addr) : rd (setBit s f i b) a = rd s a := rd_set_other h _ _

theorem get_setBit_other (s : State) (f g : Field) (i : Nat) (b : Bool) (h : g.addr ≠ f.addr ∨ g.lo + g.w ≤ f.lo ∨ f.lo + f.w ≤ g.lo) (h64 : g.lo + g.w ≤ 64) :
    get (setBit s f i b) g = get s g := get_set_other _ _ h h64

theorem bitOn_congr {s t : State} {f : Field} (h : get t f = get s f) (i : Nat) : bitOn t f i = bitOn s f i := by unfold bitOn; rw [h]

/-! An access that the port admits. -/

/-- The unit has the access after its answer, and posted work wakes a unit that the power controller holds. -/
theorem portWrite_admitted {s : State} {a : Nat} {acc p : Acc} (h : Admitted s a acc p) (unit : Nat → Acc → State → State) :
    portWrite unit a acc s = (let t := unit (offset a) p (answer 0 p (atEdge s p))
      if postsWork (offset a) p then workWake (pageOf (offset a)) t else t) := by
  obtain ⟨h1, h2, h3, h4, h5, h6⟩ := h
  have h7 : (recorded (offset a) && decide (64 ≤ (atEdge s p).ldg.queue.length)) = false := by
    cases hr : recorded (offset a) with
    | false => rfl
    | true => have := h6 hr; simp; omega
  have he : (if p.sameCycle then s else ledgerPass s) = atEdge s p := rfl
  unfold portWrite
  simp only [h1, h2, h3, h4, Bool.false_or, Bool.not_true, Bool.false_eq_true, if_false, he]
  simp only [h5, h7, Bool.false_eq_true, if_false]

/-! What an admitted access meets. -/

theorem presented_eq {s : State} {acc p : Acc} (h : presented s acc = some p) : p = { acc with priv := p.priv } := by
  unfold presented at h
  repeat' split at h
  all_goals first | (cases h; rfl) | cases h

theorem Admitted.eq {s : State} {a : Nat} {acc p : Acc} (h : Admitted s a acc p) : p = { acc with priv := p.priv } := presented_eq h.2.2.1

theorem Admitted.wdata {s : State} {a : Nat} {acc p : Acc} (h : Admitted s a acc p) : wdata p = Machine.wdata acc := by
  rw [h.eq]; rfl

theorem Admitted.half {s : State} {a : Nat} {acc p : Acc} (h : Admitted s a acc p) : p.half = acc.half := by rw [h.eq]

theorem Admitted.port {s : State} {a : Nat} {acc p : Acc} (h : Admitted s a acc p) : p.port = acc.port := by rw [h.eq]

@[simp] theorem wdata_force (f : Field) (x : Nat) (acc : Acc) : wdata (force f x acc) = putAt acc.data f.lo f.w x := rfl

/-- The bit of a forced field that an admitted access writes. -/
theorem Admitted.wrote1 {s : State} {a : Nat} {acc p : Acc} {f : Field} {x : Nat} (h : Admitted s a (force f x acc) p) (hl : f.lo < 64) (hw : 0 < f.w) :
    wrote1 p f = x.testBit 0 := by
  unfold Machine.wrote1; rw [h.wdata, wdata_force, putAt_bit _ _ _ _ _ hl]; simp [hw]

theorem rd_atEdge (s : State) (acc : Acc) (b : Nat) (h : b / 65536 ∉ [20, 21, 25, 26]) : rd (atEdge s acc) b = rd s b := by
  unfold atEdge
  split
  · rfl
  · exact rd_ledgerPass _ _ h

theorem get_atEdge (s : State) (acc : Acc) (g : Field) (h : g.addr / 65536 ∉ [20, 21, 25, 26]) : get (atEdge s acc) g = get s g := by
  unfold get; rw [rd_atEdge _ _ _ h]
@[simp] theorem atEdge_outbox (s : State) (acc : Acc) : (atEdge s acc).outbox = s.outbox := by unfold atEdge; split <;> simp
@[simp] theorem atEdge_rsp (s : State) (acc : Acc) : (atEdge s acc).rsp = s.rsp := by unfold atEdge; split <;> simp
@[simp] theorem atEdge_rspTag (s : State) (acc : Acc) : (atEdge s acc).rspTag = s.rspTag := by unfold atEdge; split <;> simp
@[simp] theorem atEdge_clk (s : State) (acc : Acc) : (atEdge s acc).clk = s.clk := by unfold atEdge; split <;> simp
@[simp] theorem atEdge_sbx (s : State) (acc : Acc) : (atEdge s acc).sbx = s.sbx := by unfold atEdge; split <;> simp
@[simp] theorem atEdge_eop (s : State) (acc : Acc) : (atEdge s acc).eop = s.eop := by unfold atEdge; split <;> simp
@[simp] theorem atEdge_mmp (s : State) (acc : Acc) : (atEdge s acc).mmp = s.mmp := by unfold atEdge; split <;> simp
@[simp] theorem atEdge_fbp (s : State) (acc : Acc) : (atEdge s acc).fbp = s.fbp := by unfold atEdge; split <;> simp
@[simp] theorem atEdge_sep (s : State) (acc : Acc) : (atEdge s acc).sep = s.sep := by unfold atEdge; split <;> simp
@[simp] theorem atEdge_ksp (s : State) (acc : Acc) : (atEdge s acc).ksp = s.ksp := by unfold atEdge; split <;> simp
@[simp] theorem atEdge_tim (s : State) (acc : Acc) : (atEdge s acc).tim = s.tim := by unfold atEdge; split <;> simp
@[simp] theorem atEdge_tly (s : State) (acc : Acc) : (atEdge s acc).tly = s.tly := by unfold atEdge; split <;> simp
@[simp] theorem atEdge_ctl (s : State) (acc : Acc) : (atEdge s acc).ctl = s.ctl := by unfold atEdge; split <;> simp
@[simp] theorem atEdge_ink (s : State) (acc : Acc) : (atEdge s acc).ink = s.ink := by unfold atEdge; split <;> simp
@[simp] theorem atEdge_crv (s : State) (acc : Acc) : (atEdge s acc).crv = s.crv := by unfold atEdge; split <;> simp
@[simp] theorem atEdge_sram (s : State) (acc : Acc) : (atEdge s acc).sram = s.sram := by unfold atEdge; split <;> simp
@[simp] theorem atEdge_fwSram (s : State) (acc : Acc) : (atEdge s acc).fwSram = s.fwSram := by unfold atEdge; split <;> simp
@[simp] theorem atEdge_itn (s : State) (acc : Acc) : (atEdge s acc).itn = s.itn := by unfold atEdge; split <;> simp
@[simp] theorem atEdge_tpi (s : State) (acc : Acc) : (atEdge s acc).tpi = s.tpi := by unfold atEdge; split <;> simp
@[simp] theorem atEdge_hld (s : State) (acc : Acc) : (atEdge s acc).hld = s.hld := by unfold atEdge; split <;> simp
@[simp] theorem atEdge_due (s : State) (acc : Acc) : (atEdge s acc).due = s.due := by unfold atEdge; split <;> simp
@[simp] theorem atEdge_tre (s : State) (acc : Acc) : (atEdge s acc).tre = s.tre := by unfold atEdge; split <;> simp
@[simp] theorem atEdge_arr (s : State) (acc : Acc) : (atEdge s acc).arr = s.arr := by unfold atEdge; split <;> simp
@[simp] theorem atEdge_ver (s : State) (acc : Acc) : (atEdge s acc).ver = s.ver := by unfold atEdge; split <;> simp
@[simp] theorem atEdge_flt (s : State) (acc : Acc) : (atEdge s acc).flt = s.flt := by unfold atEdge; split <;> simp
@[simp] theorem atEdge_det (s : State) (acc : Acc) : (atEdge s acc).det = s.det := by unfold atEdge; split <;> simp
@[simp] theorem atEdge_cur (s : State) (acc : Acc) : (atEdge s acc).cur = s.cur := by unfold atEdge; split <;> simp
@[simp] theorem atEdge_cmp (s : State) (acc : Acc) : (atEdge s acc).cmp = s.cmp := by unfold atEdge; split <;> simp
@[simp] theorem atEdge_prt (s : State) (acc : Acc) : (atEdge s acc).prt = s.prt := by unfold atEdge; split <;> simp
@[simp] theorem atEdge_rcv (s : State) (acc : Acc) : (atEdge s acc).rcv = s.rcv := by unfold atEdge; split <;> simp
@[simp] theorem atEdge_syn (s : State) (acc : Acc) : (atEdge s acc).syn = s.syn := by unfold atEdge; split <;> simp
@[simp] theorem atEdge_cores (s : State) (acc : Acc) : (atEdge s acc).cores = s.cores := by unfold atEdge; split <;> simp
@[simp] theorem atEdge_ltn (s : State) (acc : Acc) : (atEdge s acc).ltn = s.ltn := by unfold atEdge; split <;> simp
@[simp] theorem atEdge_dbg (s : State) (acc : Acc) : (atEdge s acc).dbg = s.dbg := by unfold atEdge; split <;> simp


/-- The record that a change leaves at the end of the Ledger queue (R613). -/
theorem ledger_queue (kind port priv flags init target detail : Nat) (old new : Word) (s : State) :
    ∃ r, (ledger kind port priv flags init target detail old new s).ldg.queue = s.ldg.queue ++ [r] ∧ r.kind = kind ∧ r.port = port ∧ r.priv = priv
      ∧ r.flags = flags ∧ r.init = init ∧ r.target = target ∧ r.detail = detail ∧ r.old = old ∧ r.new = new ∧ r.seq = get s F.LDG_SEQ_SEQ
      ∧ r.time = ns0 s ∧ r.tb2 = ns2 s := by
  unfold ledger
  generalize lrecChain _ _ = c
  exact ⟨_, rfl, rfl, rfl, rfl, rfl, rfl, rfl, rfl, rfl, rfl, rfl, rfl, rfl⟩

theorem rd_ledger (kind port priv flags init target detail : Nat) (old new : Word) (s : State) (b : Nat) (h : b / 65536 ∉ [21]) :
    rd (ledger kind port priv flags init target detail old new s) b = rd s b :=
  (ledger_touch _ _ _ _ _ _ _ _ _ (Touch.refl 0x2000000000000000000100 s)).regs b (bit_page h (bits_in (by decide) (by decide)))

theorem get_ledger (kind port priv flags init target detail : Nat) (old new : Word) (s : State) (g : Field) (h : g.addr / 65536 ∉ [21]) :
    get (ledger kind port priv flags init target detail old new s) g = get s g := by
  unfold get; rw [rd_ledger _ _ _ _ _ _ _ _ _ _ _ h]

theorem rd_ledgerReg (s : State) (a : Nat) (acc : Acc) (old : Word) (b : Nat) (h : b / 65536 ∉ [21]) : rd (ledgerReg a acc old s) b = rd s b :=
  (ledgerReg_touch _ _ _ (Touch.refl 0x2000000000000000000100 s)).regs b (bit_page h (bits_in (by decide) (by decide)))

theorem rd_overrun (s : State) (p n b : Nat) (h : b ≠ 65536 * p + 0xFFF8) : rd (overrun p n s) b = rd s b := by
  unfold overrun
  split
  · rfl
  · exact rd_set_other h _ _

/-- The register that a write is performed on, after it. -/
theorem rd_perform {s : State} {a : Nat} {acc : Acc} {r : RegRow} (hr : findRow a = some r) (h : a / 65536 ∉ [21, 25, 26]) (k : a ≠ 65536 * pageOf a + 0xFFF8) :
    rd (perform a acc s) a = regAfter (rd s a) acc r := by
  have h2 : a / 65536 ∉ [25, 26] := by simp at h ⊢; tauto
  have h3 : a / 65536 ∉ [21] := by simp at h ⊢; tauto
  unfold perform
  rw [hr]
  simp only []
  split <;> [rw [rd_ledgerReg _ _ _ _ _ h3, rd_overrun _ _ _ _ k]; rw [rd_overrun _ _ _ _ k]] <;> split <;>
    simp [rd_raiseIrq _ _ _ h2]

/-- Any other register is unchanged, but for the Ledger's, those of an interrupt that rises, and the count of overruns of the page. -/
theorem rd_perform_other (s : State) {a b : Nat} (acc : Acc) (h : b / 65536 ∉ [21, 25, 26]) (k : b ≠ 65536 * pageOf a + 0xFFF8) (ne : b ≠ a) :
    rd (perform a acc s) b = rd s b := by
  have h2 : b / 65536 ∉ [25, 26] := by simp at h ⊢; tauto
  have h3 : b / 65536 ∉ [21] := by simp at h ⊢; tauto
  unfold perform
  split
  · rfl
  · simp only []
    split <;> [rw [rd_ledgerReg _ _ _ _ _ h3, rd_overrun _ _ _ _ k]; rw [rd_overrun _ _ _ _ k]] <;> split <;>
      simp [rd_raiseIrq _ _ _ h2, rd_wr_other ne]

theorem get_perform_other (s : State) {a : Nat} (acc : Acc) (g : Field) (h : g.addr / 65536 ∉ [21, 25, 26]) (k : g.addr ≠ 65536 * pageOf a + 0xFFF8)
    (ne : g.addr ≠ a) : get (perform a acc s) g = get s g := by
  unfold get; rw [rd_perform_other _ _ h k ne]

theorem foldl_putAt_other {α : Type} (lo w : α → Nat) (x : α → Nat) (l : List α) (v : Word) (a b : Nat)
    (h : ∀ f ∈ l, a + b ≤ lo f ∨ lo f + w f ≤ a) (h64 : a + b ≤ 64) :
    bitsAt (l.foldl (fun v f => putAt v (lo f) (w f) (x f)) v) a b = bitsAt v a b := by
  induction l generalizing v with
  | nil => rfl
  | cons f t ih =>
    rw [List.foldl_cons, ih _ fun g hg => h g (List.mem_cons_of_mem _ hg), bitsAt_putAt_other _ _ _ _ _ _ (h f (List.mem_cons_self ..)) h64]

/-- The fields of a row lie beside one another. -/
def Apart (l : List RegField) : Prop := l.Pairwise (fun f g => f.lo + f.w ≤ g.lo ∨ g.lo + g.w ≤ f.lo) ∧ ∀ f ∈ l, f.lo + f.w ≤ 64

/-- A field of a register after a write is performed on it. -/
theorem bitsAt_regAfter {r : RegRow} (old : Word) (acc : Acc) (ha : Apart r.fields) {f : RegField} (hf : f ∈ r.fields) :
    bitsAt (regAfter old acc r) f.lo f.w = fieldAfter old acc f := by
  unfold regAfter
  obtain ⟨hp, h64⟩ := ha
  obtain ⟨l1, l2, e⟩ := List.append_of_mem hf
  rw [e] at hp ⊢
  rw [List.foldl_append, List.foldl_cons, foldl_putAt_other (fun f => f.lo) (fun f => f.w) (fun f => fieldAfter old acc f) l2,
    bitsAt_putAt_same _ _ _ _ (h64 f hf)]
  · unfold fieldAfter bitsAt; simp
  · intro g hg
    have := (List.pairwise_cons.1 (List.pairwise_append.1 hp).2.1).1 g hg
    exact this
  · exact h64 f hf
theorem bitsAt_ofNat (x lo w : Nat) (hx : x < 2 ^ w) (h64 : lo + w ≤ 64) : bitsAt (BitVec.ofNat 64 (x * 2 ^ lo)) lo w = x := by
  have : x * 2 ^ lo < 2 ^ 64 := calc
    x * 2 ^ lo < 2 ^ w * 2 ^ lo := Nat.mul_lt_mul_of_pos_right hx (Nat.two_pow_pos _)
    _ = 2 ^ (lo + w) := by rw [← Nat.pow_add, Nat.add_comm]
    _ ≤ 2 ^ 64 := Nat.pow_le_pow_right (by decide) h64
  unfold bitsAt
  rw [BitVec.toNat_ofNat, Nat.mod_eq_of_lt this, Nat.mul_div_cancel _ (Nat.two_pow_pos _), Nat.mod_eq_of_lt hx]

theorem bitsAt_lt (v : Word) (lo w : Nat) : bitsAt v lo w < 2 ^ w := Nat.mod_lt _ (Nat.two_pow_pos _)

theorem fieldWritten_lt (old : Word) (acc : Acc) (f : RegField) : fieldWritten old acc f < 2 ^ f.w := by
  unfold fieldWritten
  split <;> first | exact bitsAt_lt _ _ _ | exact Nat.two_pow_pos _

/-- Without a hardware update at the same edge a field holds what the write leaves in it. -/
theorem fieldAfter_soft (old : Word) (acc : Acc) (f : RegField) (hw : acc.hwMask = 0) (h64 : f.lo + f.w ≤ 64) :
    fieldAfter old acc f = fieldWritten old acc f := by
  unfold fieldAfter
  have h0 : (if swKept f = true then acc.hwMask &&& ~~~wmask acc else acc.hwMask) = 0#64 := by rw [hw]; split <;> simp
  simp only [h0, BitVec.and_zero, BitVec.or_zero, BitVec.not_zero, BitVec.and_allOnes]
  exact bitsAt_ofNat _ _ _ (fieldWritten_lt _ _ _) h64

@[simp] theorem perform_outbox (s : State) (a : Nat) (acc : Acc) : (perform a acc s).outbox = s.outbox := by
  unfold perform ledgerReg ledger overrun
  split
  · rfl
  · dsimp only; repeat' split
    all_goals simp
@[simp] theorem perform_rsp (s : State) (a : Nat) (acc : Acc) : (perform a acc s).rsp = s.rsp := by
  unfold perform ledgerReg ledger overrun
  split
  · rfl
  · dsimp only; repeat' split
    all_goals simp
@[simp] theorem perform_rspTag (s : State) (a : Nat) (acc : Acc) : (perform a acc s).rspTag = s.rspTag := by
  unfold perform ledgerReg ledger overrun
  split
  · rfl
  · dsimp only; repeat' split
    all_goals simp
@[simp] theorem perform_clk (s : State) (a : Nat) (acc : Acc) : (perform a acc s).clk = s.clk := by
  unfold perform ledgerReg ledger overrun
  split
  · rfl
  · dsimp only; repeat' split
    all_goals simp
@[simp] theorem perform_gbk (s : State) (a : Nat) (acc : Acc) : (perform a acc s).gbk = s.gbk := by
  unfold perform ledgerReg ledger overrun
  split
  · rfl
  · dsimp only; repeat' split
    all_goals simp
@[simp] theorem perform_sbx (s : State) (a : Nat) (acc : Acc) : (perform a acc s).sbx = s.sbx := by
  unfold perform ledgerReg ledger overrun
  split
  · rfl
  · dsimp only; repeat' split
    all_goals simp
@[simp] theorem perform_eop (s : State) (a : Nat) (acc : Acc) : (perform a acc s).eop = s.eop := by
  unfold perform ledgerReg ledger overrun
  split
  · rfl
  · dsimp only; repeat' split
    all_goals simp
@[simp] theorem perform_mmp (s : State) (a : Nat) (acc : Acc) : (perform a acc s).mmp = s.mmp := by
  unfold perform ledgerReg ledger overrun
  split
  · rfl
  · dsimp only; repeat' split
    all_goals simp
@[simp] theorem perform_fbp (s : State) (a : Nat) (acc : Acc) : (perform a acc s).fbp = s.fbp := by
  unfold perform ledgerReg ledger overrun
  split
  · rfl
  · dsimp only; repeat' split
    all_goals simp
@[simp] theorem perform_sep (s : State) (a : Nat) (acc : Acc) : (perform a acc s).sep = s.sep := by
  unfold perform ledgerReg ledger overrun
  split
  · rfl
  · dsimp only; repeat' split
    all_goals simp
@[simp] theorem perform_ksp (s : State) (a : Nat) (acc : Acc) : (perform a acc s).ksp = s.ksp := by
  unfold perform ledgerReg ledger overrun
  split
  · rfl
  · dsimp only; repeat' split
    all_goals simp
@[simp] theorem perform_tim (s : State) (a : Nat) (acc : Acc) : (perform a acc s).tim = s.tim := by
  unfold perform ledgerReg ledger overrun
  split
  · rfl
  · dsimp only; repeat' split
    all_goals simp
@[simp] theorem perform_tly (s : State) (a : Nat) (acc : Acc) : (perform a acc s).tly = s.tly := by
  unfold perform ledgerReg ledger overrun
  split
  · rfl
  · dsimp only; repeat' split
    all_goals simp
@[simp] theorem perform_ctl (s : State) (a : Nat) (acc : Acc) : (perform a acc s).ctl = s.ctl := by
  unfold perform ledgerReg ledger overrun
  split
  · rfl
  · dsimp only; repeat' split
    all_goals simp
@[simp] theorem perform_ink (s : State) (a : Nat) (acc : Acc) : (perform a acc s).ink = s.ink := by
  unfold perform ledgerReg ledger overrun
  split
  · rfl
  · dsimp only; repeat' split
    all_goals simp
@[simp] theorem perform_crv (s : State) (a : Nat) (acc : Acc) : (perform a acc s).crv = s.crv := by
  unfold perform ledgerReg ledger overrun
  split
  · rfl
  · dsimp only; repeat' split
    all_goals simp
@[simp] theorem perform_sram (s : State) (a : Nat) (acc : Acc) : (perform a acc s).sram = s.sram := by
  unfold perform ledgerReg ledger overrun
  split
  · rfl
  · dsimp only; repeat' split
    all_goals simp
@[simp] theorem perform_fwSram (s : State) (a : Nat) (acc : Acc) : (perform a acc s).fwSram = s.fwSram := by
  unfold perform ledgerReg ledger overrun
  split
  · rfl
  · dsimp only; repeat' split
    all_goals simp
@[simp] theorem perform_itn (s : State) (a : Nat) (acc : Acc) : (perform a acc s).itn = s.itn := by
  unfold perform ledgerReg ledger overrun
  split
  · rfl
  · dsimp only; repeat' split
    all_goals simp
@[simp] theorem perform_tpi (s : State) (a : Nat) (acc : Acc) : (perform a acc s).tpi = s.tpi := by
  unfold perform ledgerReg ledger overrun
  split
  · rfl
  · dsimp only; repeat' split
    all_goals simp
@[simp] theorem perform_hld (s : State) (a : Nat) (acc : Acc) : (perform a acc s).hld = s.hld := by
  unfold perform ledgerReg ledger overrun
  split
  · rfl
  · dsimp only; repeat' split
    all_goals simp
@[simp] theorem perform_due (s : State) (a : Nat) (acc : Acc) : (perform a acc s).due = s.due := by
  unfold perform ledgerReg ledger overrun
  split
  · rfl
  · dsimp only; repeat' split
    all_goals simp
@[simp] theorem perform_tre (s : State) (a : Nat) (acc : Acc) : (perform a acc s).tre = s.tre := by
  unfold perform ledgerReg ledger overrun
  split
  · rfl
  · dsimp only; repeat' split
    all_goals simp
@[simp] theorem perform_arr (s : State) (a : Nat) (acc : Acc) : (perform a acc s).arr = s.arr := by
  unfold perform ledgerReg ledger overrun
  split
  · rfl
  · dsimp only; repeat' split
    all_goals simp
@[simp] theorem perform_ver (s : State) (a : Nat) (acc : Acc) : (perform a acc s).ver = s.ver := by
  unfold perform ledgerReg ledger overrun
  split
  · rfl
  · dsimp only; repeat' split
    all_goals simp
@[simp] theorem perform_flt (s : State) (a : Nat) (acc : Acc) : (perform a acc s).flt = s.flt := by
  unfold perform ledgerReg ledger overrun
  split
  · rfl
  · dsimp only; repeat' split
    all_goals simp
@[simp] theorem perform_det (s : State) (a : Nat) (acc : Acc) : (perform a acc s).det = s.det := by
  unfold perform ledgerReg ledger overrun
  split
  · rfl
  · dsimp only; repeat' split
    all_goals simp
@[simp] theorem perform_cur (s : State) (a : Nat) (acc : Acc) : (perform a acc s).cur = s.cur := by
  unfold perform ledgerReg ledger overrun
  split
  · rfl
  · dsimp only; repeat' split
    all_goals simp
@[simp] theorem perform_cmp (s : State) (a : Nat) (acc : Acc) : (perform a acc s).cmp = s.cmp := by
  unfold perform ledgerReg ledger overrun
  split
  · rfl
  · dsimp only; repeat' split
    all_goals simp
@[simp] theorem perform_prt (s : State) (a : Nat) (acc : Acc) : (perform a acc s).prt = s.prt := by
  unfold perform ledgerReg ledger overrun
  split
  · rfl
  · dsimp only; repeat' split
    all_goals simp
@[simp] theorem perform_rcv (s : State) (a : Nat) (acc : Acc) : (perform a acc s).rcv = s.rcv := by
  unfold perform ledgerReg ledger overrun
  split
  · rfl
  · dsimp only; repeat' split
    all_goals simp
@[simp] theorem perform_syn (s : State) (a : Nat) (acc : Acc) : (perform a acc s).syn = s.syn := by
  unfold perform ledgerReg ledger overrun
  split
  · rfl
  · dsimp only; repeat' split
    all_goals simp
@[simp] theorem perform_cores (s : State) (a : Nat) (acc : Acc) : (perform a acc s).cores = s.cores := by
  unfold perform ledgerReg ledger overrun
  split
  · rfl
  · dsimp only; repeat' split
    all_goals simp
@[simp] theorem perform_ltn (s : State) (a : Nat) (acc : Acc) : (perform a acc s).ltn = s.ltn := by
  unfold perform ledgerReg ledger overrun
  split
  · rfl
  · dsimp only; repeat' split
    all_goals simp
@[simp] theorem perform_dbg (s : State) (a : Nat) (acc : Acc) : (perform a acc s).dbg = s.dbg := by
  unfold perform ledgerReg ledger overrun
  split
  · rfl
  · dsimp only; repeat' split
    all_goals simp

/-! An admitted access to a register that no posted work goes with. -/

theorem portWrite_at {s : State} {a : Nat} {acc p : Acc} (h : Admitted s a acc p) {unit : Nat → Acc → State → State} (ho : offset a = a)
    (hw : postsWork a p = false) : portWrite unit a acc s = unit a p (answer 0 p (atEdge s p)) := by
  rw [portWrite_admitted h]; simp only [ho, hw, Bool.false_eq_true, if_false]

/-- The address of a register is its own offset. -/
theorem offset_self {a : Nat} (h8 : a % 8 = 0) (hl : a < 2 ^ 24) : offset a = a := by unfold offset; omega

theorem postsWork_page {a : Nat} (acc : Acc) (h : a / 65536 ∉ [12, 13, 17, 18, 88]) : postsWork a acc = false := by
  simp only [List.mem_cons, List.not_mem_nil, or_false, not_or] at h
  unfold postsWork
  simp only [Bool.or_eq_false_iff, Bool.and_eq_false_iff, decide_eq_false_iff_not, F.CUR_SNAP_CMD_START, beq_eq_false_iff_ne, Nat.not_le, Nat.not_lt]
  omega

/-- An admitted access to a page to which no work is posted. -/
theorem portWrite_page {s : State} {a : Nat} {acc p : Acc} (h : Admitted s a acc p) {unit : Nat → Acc → State → State} (h8 : a % 8 = 0) (hl : a < 2 ^ 24)
    (hp : a / 65536 ∉ [12, 13, 17, 18, 88]) : portWrite unit a acc s = unit a p (answer 0 p (atEdge s p)) :=
  portWrite_at h (offset_self h8 hl) (postsWork_page p hp)

@[simp] theorem rd_answer (n : Nat) (p : Acc) (s : State) (b : Nat) : rd (answer n p s) b = rd s b := rfl
@[simp] theorem get_answer (n : Nat) (p : Acc) (s : State) (g : Field) : get (answer n p s) g = get s g := rfl

/-- The domain of the page of an admitted access runs. -/
theorem Admitted.runs {s : State} {a : Nat} {acc p : Acc} (h : Admitted s a acc p) (hb : offset a / 65536 < 0x1E) (hv : offset a / 65536 ≠ 0x0F)
    (haon : aonReg (offset a) = false) : pageInReset (atEdge s p) (pageOf (offset a)) = false := by
  have h5 := h.2.2.2.2.1
  unfold writeCheck at h5
  cases c : pageInReset (atEdge s p) (pageOf (offset a)) with
  | false => rfl
  | true =>
    have : pageBuilt (atEdge s p) (offset a / 65536) = true := by unfold pageBuilt; simp [hb, hv]
    rw [this, c, haon] at h5
    simp at h5

theorem inReset_atEdge (s : State) (acc : Acc) (d : Nat) : inReset (atEdge s acc) d = inReset s d := by
  unfold inReset bitOn; rw [get_atEdge _ _ _ (by decide), atEdge_clk]

/-! Every row of the register map. -/

def apartB (l : List RegField) : Bool :=
  decide (l.Pairwise (fun f g => f.lo + f.w ≤ g.lo ∨ g.lo + g.w ≤ f.lo)) && l.all fun f => decide (f.lo + f.w ≤ 64)

set_option maxRecDepth 100000 in
theorem pages_apart : ∀ k < 89, (regPage k).all (fun r => apartB r.fields) = true := by decide

theorem regPage_high (k : Nat) (h : 89 ≤ k) : regPage k = [] := by
  unfold regPage
  split <;> first | omega | rfl

/-- The fields of every register lie beside one another. -/
theorem rows_apart {a : Nat} {r : RegRow} (h : findRow a = some r) : Apart r.fields := by
  have hm : r ∈ regPage (a / 65536) := List.mem_of_find?_eq_some h
  by_cases hk : a / 65536 < 89
  · have := List.all_eq_true.1 (pages_apart _ hk) r hm
    simp only [apartB, Bool.and_eq_true, decide_eq_true_eq, List.all_eq_true] at this
    exact this
  · rw [regPage_high _ (Nat.le_of_not_lt hk)] at hm; cases hm

/-! Requests that wait for SCLK are no one's to drop but the power controller's. -/

theorem wake_waiting (n : Nat) (s : State) : (wake n s).pwr.waiting = s.pwr.waiting := by
  unfold wake lastWake; repeat' split
  all_goals simp
theorem groupRise_waiting (s : State) (g : Nat) : (groupRise s g).pwr.waiting = s.pwr.waiting := by
  unfold groupRise; repeat' split
  all_goals simp [wake_waiting]
theorem raiseIrq_waiting (n : Nat) (s : State) : (raiseIrq n s).pwr.waiting = s.pwr.waiting := by
  unfold raiseIrq; repeat' split
  all_goals first | rfl | (dsimp only; split <;> simp [groupRise_waiting])
theorem flag_waiting (f : Field) (s : State) : (flag f s).pwr.waiting = s.pwr.waiting := by
  unfold flag; split <;> simp [raiseIrq_waiting]
theorem record_waiting (r : Raised) (s : State) : (record r s).pwr.waiting = s.pwr.waiting := by
  unfold record; repeat' split
  all_goals first | rfl | (dsimp only; split <;> simp [flag_waiting])
theorem note_waiting (c k p : Nat) (s : State) : (note c k p s).pwr.waiting = s.pwr.waiting := record_waiting _ _
theorem ledgerPass_waiting (s : State) : (ledgerPass s).pwr.waiting = s.pwr.waiting := by
  unfold ledgerPass; split
  · rfl
  · dsimp only; repeat' split
    all_goals simp [note_waiting]
theorem atEdge_waiting (s : State) (acc : Acc) : (atEdge s acc).pwr.waiting = s.pwr.waiting := by
  unfold atEdge; split
  · rfl
  · exact ledgerPass_waiting s

/-! The interrupt controller. -/

theorem rd_wake_other (n : Nat) (s : State) (b : Nat) (h : b / 65536 ≠ 26) : rd (wake n s) b = rd s b := rd_wake _ _ _ (by simpa using h)

theorem rd_groupRise (s : State) (g : Nat) (b : Nat) (h : b / 65536 ≠ 26) (k : b ≠ F.IRQ_GRP_OUT_OUT.addr) : rd (groupRise s g) b = rd s b := by
  unfold groupRise
  split
  · rfl
  · dsimp only
    split
    · rw [rd_wake_other _ _ _ h]; simp [rd_setBit_other _ _ _ _ _ k]
    · simp [rd_setBit_other _ _ _ _ _ k]

theorem rd_raiseIrq_pend (n : Nat) (s : State) (b : Nat) (h : b / 65536 ≠ 26) (k : b ≠ F.IRQ_GRP_OUT_OUT.addr) (hr : inReset s 0 = false) (hn : n < nSources s) :
    rd (raiseIrq n s) b = rd (setBit s (F.IRQ_PEND_PEND (n / 64)) (n % 64) true) b := by
  unfold raiseIrq
  rw [hr, decide_eq_false (Nat.not_le_of_lt hn)]
  simp only [Bool.or_self, Bool.false_eq_true, if_false]
  split
  · exact rd_groupRise _ _ _ h k
  · rfl

theorem nSources_le (s : State) : nSources s ≤ 1024 := by unfold nSources; split <;> omega

theorem pend_addr (w : Nat) : (F.IRQ_PEND_PEND w).addr / 65536 = 25 ∧ (F.IRQ_PEND_PEND w).addr ≠ F.IRQ_GRP_OUT_OUT.addr := by
  simp only [F.IRQ_PEND_PEND, F.IRQ_GRP_OUT_OUT]; omega

/-- A raised source is pending, and no other source becomes so. -/
theorem irqPend_raiseIrq (n m : Nat) (s : State) (hr : inReset s 0 = false) (hn : n < nSources s) (hm : m < 1024) :
    irqPend (raiseIrq n s) m = (decide (m = n) || irqPend s m) := by
  have h16 := nSources_le s
  unfold irqPend get
  rw [rd_raiseIrq_pend _ _ _ (by rw [(pend_addr _).1]; decide) (pend_addr _).2 hr hn]
  by_cases e : m / 64 = n / 64
  · have := bitOn_setBit s (F.IRQ_PEND_PEND (n / 64)) (n % 64) (m % 64) true (Nat.mod_lt _ (by decide)) (by simp [F.IRQ_PEND_PEND])
    unfold bitOn get at this
    rw [e, this]
    by_cases e2 : m % 64 = n % 64
    · have : m = n := by omega
      simp [this]
    · have : m ≠ n := by intro c; subst c; exact e2 rfl
      simp [this, e2]
  · have hne : (F.IRQ_PEND_PEND (m / 64)).addr ≠ (F.IRQ_PEND_PEND (n / 64)).addr := by simp only [F.IRQ_PEND_PEND]; omega
    have : m ≠ n := by intro c; subst c; exact e rfl
    rw [rd_setBit_other _ _ _ _ _ hne]; simp [this]

end Sys2Proof.Machine
end

