-- ==== Sys2Proof/Laws/TouchCommands.lean ====
section
/-!
SUPPORT. What a command can change: one lemma for each command whose effect does not depend on a register that its operands name, and that is no reset.
-/
namespace Sys2Proof.Machine
set_option Elab.async false
set_option linter.unusedSimpArgs false
set_option linter.unusedTactic false
set_option linter.unreachableTactic false

/-! Innkeeper. -/

theorem execQueueRoomResume_touch (q : Nat) {s s' : State} (e : execQueueRoomResume q s = .next s') : Touch 0x8000000000000080000 s s' := by
  unfold execQueueRoomResume at e; injection e with e; rw [← e]; simp only [roomResume_touch, Touch.refl, Nat.reduceOr]

theorem execLadderPause_touch (q : Nat) (wr : Bool) {s s' : State} (e : execLadderPause q wr s = .next s') : Touch 0x61008000000004000080480 s s' := by
  unfold execLadderPause at e; injection e with e; rw [← e]; simp only [ladderPause_touch, Touch.refl, Nat.reduceOr]

theorem execShaperRefill_touch {s s' : State} (e : execShaperRefill s = .next s') : Touch 0x80000 s s' := by
  unfold execShaperRefill at e; injection e with e; rw [← e]; simp only [refill_touch, Touch.refl, Nat.reduceOr]

theorem execQueueCfgWrite_touch (q : Nat) (acc : Acc) {s s' : State} (e : execQueueCfgWrite q acc s = .next s') : Touch 0x630080100000040000005b0 s s' := by
  unfold execQueueCfgWrite at e; injection e with e; rw [← e]; simp (maxDischargeDepth := 80) only [portWrite_touch, inkWrite_touch, off_INK_Q_CFG_PORT, implies_true, Touch.refl, Nat.reduceOr]

theorem execInkSelect_touch (kind : Nat) (n : Nat) {s s' : State} (e : execInkSelect kind n s = .next s') : Touch 0x610083000000040000b3484 s s' := by
  unfold execInkSelect at e; injection e with e; rw [← e]; simp only [inkSelect_touch, Touch.refl, Nat.reduceOr]

/-! Fabric. -/

theorem execTxCreditReturn_touch (lane : Nat) (vc : Nat) (cnt : Nat) {s s' : State} (e : execTxCreditReturn lane vc cnt s = .next s') : Touch 0x61000200000004000000480 s s' := by
  unfold execTxCreditReturn at e; injection e with e; rw [← e]; simp only [txCreditReturn_touch, Touch.refl, Nat.reduceOr]

theorem execRxCreditReturn_touch (lane : Nat) (vc : Nat) (beats : Nat) {s s' : State} (e : execRxCreditReturn lane vc beats s = .next s') : Touch 0x2004 s s' := by
  unfold execRxCreditReturn at e; injection e with e; rw [← e]; simp only [rxCreditReturn_touch, Touch.refl, Nat.reduceOr]

theorem execLaneLinkUp_touch (lane : Nat) {s s' : State} (e : execLaneLinkUp lane s = .next s') : Touch 0x40000200000004000002004 s s' := by
  unfold execLaneLinkUp at e; injection e with e; rw [← e]; simp only [laneLinkUp_touch, Touch.refl, Nat.reduceOr]

theorem execLaneLinkDown_touch (lane : Nat) {s s' : State} (e : execLaneLinkDown lane s = .next s') : Touch 0x61000200000004002002480 s s' := by
  unfold execLaneLinkDown at e; injection e with e; rw [← e]; simp only [laneLinkDown_touch, Touch.refl, Nat.reduceOr]

theorem execFbpRxPartWrite_touch (acc : Acc) {s s' : State} (e : execFbpRxPartWrite acc s = .next s') : Touch 0x630002100000040000025b4 s s' := by
  unfold execFbpRxPartWrite at e; injection e with e; rw [← e]; repeat' first | (simp (maxDischargeDepth := 80) only [portWrite_touch, fbpWrite_touch, off_FBP_RX_PART_VC0, implies_true, Touch.refl, Nat.reduceOr]; done) | with_reducible (refine ite_touch ?_ ?_) | with_reducible (refine foldl_touch (fun _ _ => ?_) ?_) | split | (dsimp only; with_reducible (refine ite_touch ?_ ?_)) | (dsimp only; split) | ((try dsimp only); first | with_reducible (apply portWrite_touch) | with_reducible (apply fbpWrite_touch) | with_reducible (apply touch_mk))

theorem execFrpPacketReceive_touch (lane : Nat) (p : Pkt) {s s' : State} (e : execFrpPacketReceive lane p s = .next s') : Touch 0x6100c2000000040000a2484 s s' := by
  unfold execFrpPacketReceive at e; injection e with e; rw [← e]; simp only [receivePkt_touch, Touch.refl, Nat.reduceOr]

/-! Mmp. -/

theorem execMmpWriteResponse_touch (ch : Nat) (id : Nat) (st : MemStatus) {s s' : State} (e : execMmpWriteResponse ch id st s = .next s') : Touch 0x61080100000004020001480 s s' := by
  unfold execMmpWriteResponse at e; injection e with e; rw [← e]; simp only [writeResponse_touch, haAdvance_touch, Touch.refl, Nat.reduceOr]

/-! Waybill. -/

theorem execWaybillRecordWrite_touch {s s' : State} (e : execWaybillRecordWrite s = .next s') : Touch 0x61001000000004000021480 s s' := by
  unfold execWaybillRecordWrite at e; injection e with e; rw [← e]; simp only [waybillRecordWrite_touch, Touch.refl, Nat.reduceOr]

theorem execWaybillWriteComplete_touch {s s' : State} (e : execWaybillWriteComplete s = .next s') : Touch 0x61001000000004000021480 s s' := by
  unfold execWaybillWriteComplete at e; injection e with e; rw [← e]; simp only [waybillWriteComplete_touch, Touch.refl, Nat.reduceOr]

/-! Tally. -/

theorem execTagTransfer_touch (engine : Nat) (ctx : Nat) (layer : Nat) (op : Nat) {s s' : State} (e : execTagTransfer engine ctx layer op s = .next s') : Touch 0x800000000000800000800 s s' := by
  unfold execTagTransfer at e; injection e with e; rw [← e]; simp only [tagTransfer_touch, Touch.refl, Nat.reduceOr]

theorem execSnapshotRecord_touch (engine : Nat) (beats : List (BitVec 256)) (cut : Bool) {s s' : State} (e : execSnapshotRecord engine beats cut s = .next s') : Touch 0x61000080000004000020480 s s' := by
  unfold execSnapshotRecord at e; injection e with e; rw [← e]; simp only [snapshotRecord_touch, Touch.refl, Nat.reduceOr]

theorem execScheduleEnable_touch (k : Nat) (acc : Acc) {s s' : State} (e : execScheduleEnable k acc s = .next s') : Touch 0x634010100000040000205b0 s s' := by
  unfold execScheduleEnable at e; injection e with e; rw [← e]; simp (maxDischargeDepth := 80) only [portWrite_touch, tlyWrite_touch, off_TLY_SCHED_CTL_EN, implies_true, Touch.refl, Nat.reduceOr]

theorem execScheduleDisable_touch (k : Nat) (acc : Acc) {s s' : State} (e : execScheduleDisable k acc s = .next s') : Touch 0x634010100000040000205b0 s s' := by
  unfold execScheduleDisable at e; injection e with e; rw [← e]; simp (maxDischargeDepth := 80) only [portWrite_touch, tlyWrite_touch, off_TLY_SCHED_CTL_EN, implies_true, Touch.refl, Nat.reduceOr]

theorem execScheduleRegisterWrite_touch (k : Nat) (reg : Nat) (acc : Acc) {s s' : State} (e : execScheduleRegisterWrite k reg acc s = .next s') : Touch 0x634010100000040000205b0 s s' := by
  unfold execScheduleRegisterWrite at e; injection e with e; rw [← e]; simp (maxDischargeDepth := 80) only [portWrite_touch, tlyWrite_touch, off_sched, implies_true, Touch.refl, Nat.reduceOr]

theorem execBinFlush_touch (acc : Acc) {s s' : State} (e : execBinFlush acc s = .next s') : Touch 0x634010100000040000205b0 s s' := by
  unfold execBinFlush at e; injection e with e; rw [← e]; simp (maxDischargeDepth := 80) only [portWrite_touch, tlyWrite_touch, off_TLY_BIN_CTL_FLUSH, implies_true, Touch.refl, Nat.reduceOr]

theorem execWaybillTrigger_touch (acc : Acc) {s s' : State} (e : execWaybillTrigger acc s = .next s') : Touch 0x634010100000040000205b0 s s' := by
  unfold execWaybillTrigger at e; injection e with e; rw [← e]; simp (maxDischargeDepth := 80) only [portWrite_touch, tlyWrite_touch, off_TLY_WB_CTL_TRIG, implies_true, Touch.refl, Nat.reduceOr]

theorem execWaybillArm_touch (acc : Acc) {s s' : State} (e : execWaybillArm acc s = .next s') : Touch 0x634010100000040000205b0 s s' := by
  unfold execWaybillArm at e; injection e with e; rw [← e]; simp (maxDischargeDepth := 80) only [portWrite_touch, tlyWrite_touch, off_TLY_WB_CTL_ARM, implies_true, Touch.refl, Nat.reduceOr]

theorem execLateCut_touch {s s' : State} (e : execLateCut s = .next s') : Touch 0x61001000000004000020480 s s' := by
  unfold execLateCut at e; injection e with e; rw [← e]; simp only [lateCut_touch, Touch.refl, Nat.reduceOr]

theorem execWaybillProdTick_touch {s s' : State} (e : execWaybillProdTick s = .next s') : Touch 0x61401000000004000030480 s s' := by
  unfold execWaybillProdTick at e; injection e with e; rw [← e]; simp only [waybillProdTick_touch, Touch.refl, Nat.reduceOr]

/-! Caravan. -/

theorem execDeltaReceive_touch {s s' : State} (e : execDeltaReceive s = .next s') : Touch 0x6580c0000000040861a3680 s s' := by
  unfold execDeltaReceive at e; injection e with e; rw [← e]; simp only [fromChild_touch, dataPkt_touch, implies_true, Touch.refl, Nat.reduceOr]

theorem execAggReceive_touch {s s' : State} (e : execAggReceive s = .next s') : Touch 0x6580c0000000040861a3680 s s' := by
  unfold execAggReceive at e; injection e with e; rw [← e]; simp only [fromChild_touch, dataPkt_touch, implies_true, Touch.refl, Nat.reduceOr]

theorem execSketchReceive_touch {s s' : State} (e : execSketchReceive s = .next s') : Touch 0x6580c0000000040861a3680 s s' := by
  unfold execSketchReceive at e; injection e with e; rw [← e]; simp only [fromChild_touch, dataPkt_touch, implies_true, Touch.refl, Nat.reduceOr]

theorem execVerdictReceive_touch {s s' : State} (e : execVerdictReceive s = .next s') : Touch 0x6580c0000000040861a3680 s s' := by
  unfold execVerdictReceive at e; injection e with e; rw [← e]; simp only [fromChild_touch, dataPkt_touch, implies_true, Touch.refl, Nat.reduceOr]

theorem execMissingReceive_touch {s s' : State} (e : execMissingReceive s = .next s') : Touch 0x6580c0000000040861a3680 s s' := by
  unfold execMissingReceive at e; injection e with e; rw [← e]; simp only [fromChild_touch, dataPkt_touch, implies_true, Touch.refl, Nat.reduceOr]

theorem execClosedReceive_touch {s s' : State} (e : execClosedReceive s = .next s') : Touch 0x6180c0000000040861a3480 s s' := by
  unfold execClosedReceive at e; injection e with e; rw [← e]; simp only [fromChild_touch, closedPkt_touch, implies_true, Touch.refl, Nat.reduceOr]

theorem execDetourReceive_touch {s s' : State} (e : execDetourReceive s = .next s') : Touch 0x6180c0000000040861a3480 s s' := by
  unfold execDetourReceive at e; injection e with e; rw [← e]; simp only [fromChild_touch, detourPkt_touch, implies_true, Touch.refl, Nat.reduceOr]

theorem execJoinReceive_touch {s s' : State} (e : execJoinReceive s = .next s') : Touch 0x6180c0000000040861a3480 s s' := by
  unfold execJoinReceive at e; injection e with e; rw [← e]; simp only [joinReceive_touch, Touch.refl, Nat.reduceOr]

theorem execEpochDeadline_touch (k : Nat) (n : Nat) {s s' : State} (e : execEpochDeadline k n s = .next s') : Touch 0x6180c0000000040061b1480 s s' := by
  unfold execEpochDeadline at e; injection e with e; rw [← e]; simp only [epochDeadline_touch, Touch.refl, Nat.reduceOr]

theorem execEpochGraceEnd_touch (k : Nat) (n : Nat) {s s' : State} (e : execEpochGraceEnd k n s = .next s') : Touch 0x6180c0000000040861b1480 s s' := by
  unfold execEpochGraceEnd at e; injection e with e; rw [← e]; simp only [epochGrace_touch, Touch.refl, Nat.reduceOr]

theorem execCoarsenReceive_touch {s s' : State} (e : execCoarsenReceive s = .next s') : Touch 0x61004000000004000122480 s s' := by
  unfold execCoarsenReceive at e; injection e with e; rw [← e]; simp only [coarsenReceive_touch, Touch.refl, Nat.reduceOr]

theorem execSaturatedEpochClose_touch (k : Nat) (full : Nat) (delay : Nat) {s s' : State} (e : execSaturatedEpochClose k full delay s = .next s') : Touch 0x6180c0000000040021a1480 s s' := by
  unfold execSaturatedEpochClose at e; injection e with e; rw [← e]; simp only [saturatedEpoch_touch, Touch.refl, Nat.reduceOr]

theorem execSlotOpen_touch (acc : Acc) {s s' : State} (e : execSlotOpen acc s = .next s') : Touch 0x6380c0100000040861a15b0 s s' := by
  unfold execSlotOpen at e; injection e with e; rw [← e]; simp only [slotRow_touch, Touch.refl, Nat.reduceOr]

theorem execSlotDrain_touch (acc : Acc) {s s' : State} (e : execSlotDrain acc s = .next s') : Touch 0x6380c0100000040861a15b0 s s' := by
  unfold execSlotDrain at e; injection e with e; rw [← e]; simp only [slotRow_touch, Touch.refl, Nat.reduceOr]

theorem execSlotRetire_touch (acc : Acc) {s s' : State} (e : execSlotRetire acc s = .next s') : Touch 0x6380c0100000040861a15b0 s s' := by
  unfold execSlotRetire at e; injection e with e; rw [← e]; simp only [slotRow_touch, Touch.refl, Nat.reduceOr]

theorem execRouteModeWrite_touch (acc : Acc) {s s' : State} (e : execRouteModeWrite acc s = .next s') : Touch 0x6380c0100000040861a15b0 s s' := by
  unfold execRouteModeWrite at e; injection e with e; rw [← e]; simp (maxDischargeDepth := 80) only [portWrite_touch, crvWrite_touch, off_CRV_ROUTE_MODE, implies_true, Touch.refl, Nat.reduceOr]

/-! Sep. -/

theorem execSepFrameReceive_touch (port : Nat) (frame : List Byte) (phase : Nat) {s s' : State} (e : execSepFrameReceive port frame phase s = .next s') : Touch 0x61000400000004000024480 s s' := by
  unfold execSepFrameReceive at e; injection e with e; rw [← e]; simp only [receiveFrame_touch, Touch.refl, Nat.reduceOr]

theorem execSepFrameTransmit_touch (port : Nat) (placed : List (List Byte)) {s s' : State} (e : execSepFrameTransmit port placed s = .next s') : Touch 0x4004 s s' := by
  unfold execSepFrameTransmit at e; injection e with e; rw [← e]; simp only [transmitFrame_touch, Touch.refl, Nat.reduceOr]

theorem execTcForward_touch (phase : Nat) {s s' : State} (e : execTcForward phase s = .next s') : Touch 0x24004 s s' := by
  unfold execTcForward at e; injection e with e; rw [← e]; simp only [tcForward_touch, Touch.refl, Nat.reduceOr]

theorem execSepPcsDown_touch (port : Nat) (inRx : Bool) (stampLost : Bool) {s s' : State} (e : execSepPcsDown port inRx stampLost s = .next s') : Touch 0x61000400000004000024480 s s' := by
  unfold execSepPcsDown at e; injection e with e; rw [← e]; simp only [pcsDown_touch, Touch.refl, Nat.reduceOr]

theorem execSepPcsUp_touch (port : Nat) {s s' : State} (e : execSepPcsUp port s = .next s') : Touch 0x40000400000004000000000 s s' := by
  unfold execSepPcsUp at e; injection e with e; rw [← e]; simp only [pcsUp_touch, Touch.refl, Nat.reduceOr]

/-! Pulse. -/

theorem execPulseEdge_touch (n : Nat) {s s' : State} (e : execPulseEdge n s = .next s') : Touch 0x1030000 s s' := by
  unfold execPulseEdge at e; injection e with e; rw [← e]; simp only [pulseEdge_touch, Touch.refl, Nat.reduceOr]

theorem execPulseFall_touch (n : Nat) {s s' : State} (e : execPulseFall n s = .next s') : Touch 0x1030000 s s' := by
  unfold execPulseFall at e; injection e with e; rw [← e]; simp only [pulseFall_touch, Touch.refl, Nat.reduceOr]

theorem execPpsOutRise_touch {s s' : State} (e : execPpsOutRise s = .next s') : Touch 0x1030000 s s' := by
  unfold execPpsOutRise at e; injection e with e; rw [← e]; simp only [ppsRise_touch, Touch.refl, Nat.reduceOr]

theorem execPpsOutFall_touch {s s' : State} (e : execPpsOutFall s = .next s') : Touch 0x1030000 s s' := by
  unfold execPpsOutFall at e; injection e with e; rw [← e]; simp only [ppsFall_touch, Touch.refl, Nat.reduceOr]

theorem execCaptureEdge_touch (ch : Nat) (phase : Nat) {s s' : State} (e : execCaptureEdge ch phase s = .next s') : Touch 0x61000800000004001020480 s s' := by
  unfold execCaptureEdge at e; injection e with e; rw [← e]; simp only [captureEdge_touch, Touch.refl, Nat.reduceOr]

theorem execPulseEnable_touch (n : Nat) (acc : Acc) {s s' : State} (e : execPulseEnable n acc s = .next s') : Touch 0x630008100000040010205b0 s s' := by
  unfold execPulseEnable at e; injection e with e; rw [← e]; simp (maxDischargeDepth := 80) only [portWrite_touch, tpiWrite_touch, off_TPI_PULSE_CTL_EN, implies_true, Touch.refl, Nat.reduceOr]

theorem execCaptureConsume_touch (ch : Nat) (acc : Acc) {s s' : State} (e : execCaptureConsume ch acc s = .next s') : Touch 0x630008100000040010205b0 s s' := by
  unfold execCaptureConsume at e; injection e with e; rw [← e]; simp (maxDischargeDepth := 80) only [portWrite_touch, tpiWrite_touch, off_TPI_CAP_RESULT_SEQ, implies_true, Touch.refl, Nat.reduceOr]

/-! Time. -/

theorem execServoTimeout_touch (n : Nat) {s s' : State} (e : execServoTimeout n s = .next s') : Touch 0x61002000000004000030480 s s' := by
  unfold execServoTimeout at e; injection e with e; rw [← e]; simp only [servoTimeout_touch, Touch.refl, Nat.reduceOr]

theorem execPtpSyncReceive_touch (m : List Byte) (phase : Nat) {s s' : State} (e : execPtpSyncReceive m phase s = .next s') : Touch 0x61002800000004001030480 s s' := by
  unfold execPtpSyncReceive at e; injection e with e; rw [← e]; simp only [ptpSync_touch, Touch.refl, Nat.reduceOr]

theorem execPtpFollowUpReceive_touch (m : List Byte) {s s' : State} (e : execPtpFollowUpReceive m s = .next s') : Touch 0x61002800000004001030480 s s' := by
  unfold execPtpFollowUpReceive at e; injection e with e; rw [← e]; simp only [ptpFollowUp_touch, Touch.refl, Nat.reduceOr]

theorem execPtpDelayRespReceive_touch (m : List Byte) {s s' : State} (e : execPtpDelayRespReceive m s = .next s') : Touch 0x2000000000000010000 s s' := by
  unfold execPtpDelayRespReceive at e; injection e with e; rw [← e]; simp only [ptpDelayResp_touch, Touch.refl, Nat.reduceOr]

theorem execDelayReqSend_touch (phase : Nat) {s s' : State} (e : execDelayReqSend phase s = .next s') : Touch 0x30004 s s' := by
  unfold execDelayReqSend at e; injection e with e; rw [← e]; simp only [delayReqSend_touch, Touch.refl, Nat.reduceOr]

theorem execPtpAnnounceReceive_touch (f : List Byte) {s s' : State} (e : execPtpAnnounceReceive f s = .next s') : Touch 0x61002400000004000004480 s s' := by
  unfold execPtpAnnounceReceive at e; injection e with e; rw [← e]; simp only [ptpOther_touch, Touch.refl, Nat.reduceOr]

theorem execJumpAccept_touch (n : Nat) (acc : Acc) {s s' : State} (e : execJumpAccept n acc s = .next s') : Touch 0x630028100000040010305b0 s s' := by
  unfold execJumpAccept at e; injection e with e; rw [← e]; simp (maxDischargeDepth := 80) only [portWrite_touch, timWrite_touch, off_TIM_TB_JUMP_ACCEPT, implies_true, Touch.refl, Nat.reduceOr]

theorem execJumpDismiss_touch (n : Nat) (acc : Acc) {s s' : State} (e : execJumpDismiss n acc s = .next s') : Touch 0x630028100000040010305b0 s s' := by
  unfold execJumpDismiss at e; injection e with e; rw [← e]; simp (maxDischargeDepth := 80) only [portWrite_touch, timWrite_touch, off_TIM_TB_JUMP_ACCEPT, implies_true, Touch.refl, Nat.reduceOr]

theorem execTimeSnapshot_touch (acc : Acc) {s s' : State} (e : execTimeSnapshot acc s = .next s') : Touch 0x630028100000040010305b0 s s' := by
  unfold execTimeSnapshot at e; injection e with e; rw [← e]; simp (maxDischargeDepth := 80) only [portWrite_touch, timWrite_touch, off_TIM_SNAP_CTL_GO, implies_true, Touch.refl, Nat.reduceOr]

/-! FabricTime. -/

theorem execFabricDreqSend_touch {s s' : State} (e : execFabricDreqSend s = .next s') : Touch 0x610080000000040000b0480 s s' := by
  unfold execFabricDreqSend at e; injection e with e; rw [← e]; simp only [fabricDreqSend_touch, Touch.refl, Nat.reduceOr]

theorem execFabricDreqReceive_touch {s s' : State} (e : execFabricDreqReceive s = .next s') : Touch 0x610080000000040000b2480 s s' := by
  unfold execFabricDreqReceive at e; injection e with e; rw [← e]; simp only [fabricDreq_touch, Touch.refl, Nat.reduceOr]

theorem execFabricDrespReceive_touch {s s' : State} (e : execFabricDrespReceive s = .next s') : Touch 0x32000 s s' := by
  unfold execFabricDrespReceive at e; injection e with e; rw [← e]; simp only [fabricDresp_touch, Touch.refl, Nat.reduceOr]

theorem execFabricDrespFupReceive_touch {s s' : State} (e : execFabricDrespFupReceive s = .next s') : Touch 0x61002800000004001032480 s s' := by
  unfold execFabricDrespFupReceive at e; injection e with e; rw [← e]; simp only [fabricFup_touch, Touch.refl, Nat.reduceOr]

/-! Tree. -/

theorem execModelBindDone_touch (ecc : Option Nat) {s s' : State} (e : execModelBindDone ecc s = .next s') : Touch 0x61010000000004008000480 s s' := by
  unfold execModelBindDone at e; injection e with e; rw [← e]; simp only [bindDone_touch, Touch.refl, Nat.reduceOr]

theorem execTreeJobStart_touch (e : Nat) {s s' : State} (e : execTreeJobStart e s = .next s') : Touch 0x10000000000008000000 s s' := by
  unfold execTreeJobStart at e; injection e with e; rw [← e]; simp only [treeStart_touch, Touch.refl, Nat.reduceOr]

theorem execTreeJobDone_touch (e : Nat) (cycles : Nat) (ecc : Option (Nat × Bool × Nat)) {s s' : State} (e : execTreeJobDone e cycles ecc s = .next s') : Touch 0x71010000000004008220480 s s' := by
  unfold execTreeJobDone at e; injection e with e; rw [← e]; simp only [treeDone_touch, Touch.refl, Nat.reduceOr]

theorem execModelBind_touch (acc : Acc) {s s' : State} (e : execModelBind acc s = .next s') : Touch 0x730100100000040080005b0 s s' := by
  unfold execModelBind at e; injection e with e; rw [← e]; simp (maxDischargeDepth := 80) only [portWrite_touch, treWrite_touch, off_TRE_MODEL_CMD_START, implies_true, Touch.refl, Nat.reduceOr]

theorem execModelUnbind_touch (acc : Acc) {s s' : State} (e : execModelUnbind acc s = .next s') : Touch 0x730100100000040080005b0 s s' := by
  unfold execModelUnbind at e; injection e with e; rw [← e]; simp (maxDischargeDepth := 80) only [portWrite_touch, treWrite_touch, off_TRE_MODEL_CMD_START, implies_true, Touch.refl, Nat.reduceOr]

theorem execTreeJobGo_touch (i : Nat) (acc : Acc) {s s' : State} (e : execTreeJobGo i acc s = .next s') : Touch 0x730100100000040080005b0 s s' := by
  unfold execTreeJobGo at e; injection e with e; rw [← e]; simp (maxDischargeDepth := 80) only [portWrite_touch, treWrite_touch, off_TRE_JOB_CTL_GO, implies_true, Touch.refl, Nat.reduceOr]

/-! Courier. -/

theorem execCommitRecordValidate_touch {s s' : State} (e : execCommitRecordValidate s = .next s') : Touch 0x712080000000041000a1480 s s' := by
  unfold execCommitRecordValidate at e; injection e with e; rw [← e]; split <;> simp only [rxStep_touch, implies_true, Touch.refl, foldl_touch, Nat.reduceOr]

theorem execStripeSend_touch {s s' : State} (e : execStripeSend s = .next s') : Touch 0x712081000000041000a1484 s s' := by
  unfold execStripeSend at e; injection e with e; rw [← e]; simp only [stripeSend_touch, Touch.refl, Nat.reduceOr]

theorem execWriteIntent_touch (granule : Nat) (tag : Nat) {s s' : State} (e : execWriteIntent granule tag s = .next s') : Touch 0x61000100000004100001484 s s' := by
  unfold execWriteIntent at e; injection e with e; rw [← e]; simp only [writeIntent_touch, Touch.refl, Nat.reduceOr]

theorem execIntentStallTimeout_touch (tag : Nat) {s s' : State} (e : execIntentStallTimeout tag s = .next s') : Touch 0x712081000000041000b1484 s s' := by
  unfold execIntentStallTimeout at e; injection e with e; rw [← e]; simp only [intentStall_touch, Touch.refl, Nat.reduceOr]

theorem execGranuleCopied_touch {s s' : State} (e : execGranuleCopied s = .next s') : Touch 0x712081000000041000a1484 s s' := by
  unfold execGranuleCopied at e; injection e with e; rw [← e]; simp only [granuleCopied_touch, Touch.refl, Nat.reduceOr]

theorem execCkptDataReceive_touch {s s' : State} (e : execCkptDataReceive s = .next s') : Touch 0x61200000000004100083480 s s' := by
  unfold execCkptDataReceive at e; injection e with e; rw [← e]; repeat' first | (rename_i heq; replace heq := takeCkpt_touch (Touch.refl 0x61200000000004100083480 _) heq) | (simp (maxDischargeDepth := 80) only [rxData_touch, Touch.refl, ite_touch, Nat.reduceOr, *]; done) | with_reducible (refine ite_touch ?_ ?_) | with_reducible (refine foldl_touch (fun _ _ => ?_) ?_) | split

theorem execCkptCommitReceive_touch {s s' : State} (e : execCkptCommitReceive s = .next s') : Touch 0x712080000000041000a3480 s s' := by
  unfold execCkptCommitReceive at e; injection e with e; rw [← e]; repeat' first | (rename_i heq; replace heq := takeCkpt_touch (Touch.refl 0x712080000000041000a3480 _) heq) | (simp (maxDischargeDepth := 80) only [rxCommit_touch, Touch.refl, ite_touch, Nat.reduceOr, *]; done) | with_reducible (refine ite_touch ?_ ?_) | with_reducible (refine foldl_touch (fun _ _ => ?_) ?_) | split

theorem execRestorePacketReceive_touch {s s' : State} (e : execRestorePacketReceive s = .next s') : Touch 0x71210000000004108203480 s s' := by
  unfold execRestorePacketReceive at e; injection e with e; rw [← e]; repeat' first | (rename_i heq; replace heq := takeCkpt_touch (Touch.refl 0x71210000000004108203480 _) heq) | (simp (maxDischargeDepth := 80) only [restTake_touch, Touch.refl, ite_touch, Nat.reduceOr, *]; done) | with_reducible (refine ite_touch ?_ ?_) | with_reducible (refine foldl_touch (fun _ _ => ?_) ?_) | split

theorem execCkptAckReceive_touch {s s' : State} (e : execCkptAckReceive s = .next s') : Touch 0x71200000000004100002480 s s' := by
  unfold execCkptAckReceive at e; injection e with e; rw [← e]; repeat' first | (rename_i heq; replace heq := takeCkpt_touch (Touch.refl 0x71200000000004100002480 _) heq) | (simp (maxDischargeDepth := 80) only [ackTake_touch, Touch.refl, ite_touch, Nat.reduceOr, *]; done) | with_reducible (refine ite_touch ?_ ?_) | with_reducible (refine foldl_touch (fun _ _ => ?_) ?_) | split

theorem execSnapshotArm_touch (acc : Acc) {s s' : State} (e : execSnapshotArm acc s = .next s') : Touch 0x732081100000041000a15b4 s s' := by
  unfold execSnapshotArm at e; injection e with e; rw [← e]; simp only [snapCmd_touch, Touch.refl, Nat.reduceOr]

theorem execSnapshotSeal_touch (acc : Acc) {s s' : State} (e : execSnapshotSeal acc s = .next s') : Touch 0x732081100000041000a15b4 s s' := by
  unfold execSnapshotSeal at e; injection e with e; rw [← e]; simp only [snapCmd_touch, Touch.refl, Nat.reduceOr]

theorem execSnapshotAbort_touch (acc : Acc) {s s' : State} (e : execSnapshotAbort acc s = .next s') : Touch 0x732081100000041000a15b4 s s' := by
  unfold execSnapshotAbort at e; injection e with e; rw [← e]; simp only [snapCmd_touch, Touch.refl, Nat.reduceOr]

theorem execCkptSend_touch (acc : Acc) {s s' : State} (e : execCkptSend acc s = .next s') : Touch 0x732081100000041000a15b4 s s' := by
  unfold execCkptSend at e; injection e with e; rw [← e]; simp only [snapCmd_touch, Touch.refl, Nat.reduceOr]

theorem execCkptRestore_touch (acc : Acc) {s s' : State} (e : execCkptRestore acc s = .next s') : Touch 0x732081100000041000a15b4 s s' := by
  unfold execCkptRestore at e; injection e with e; rw [← e]; simp only [snapCmd_touch, Touch.refl, Nat.reduceOr]

theorem execCommitTimeout_touch {s s' : State} (e : execCommitTimeout s = .next s') : Touch 0x71200000000004100030480 s s' := by
  unfold execCommitTimeout at e; injection e with e; rw [← e]; repeat' first | (simp only [snapFinish_touch, reachBase_touch, Touch.refl, Nat.reduceOr]; done) | split

theorem execCheckpointDeadline_touch {s s' : State} (e : execCheckpointDeadline s = .next s') : Touch 0x61200000000004100030480 s s' := by
  unfold execCheckpointDeadline at e; injection e with e; rw [← e]; repeat' first | (simp (maxDischargeDepth := 80) only [report_touch, setSnap_touch, reachBase_touch, ok_CUR_ERR_DEADLINE, Touch.refl, ite_touch, Nat.reduceOr]; done) | split

theorem execRestoreTimeout_touch {s s' : State} (e : execRestoreTimeout s = .next s') : Touch 0x71210000000004108231480 s s' := by
  unfold execRestoreTimeout at e; injection e with e; rw [← e]; split <;> simp only [restFinish_touch, reachBase_touch, Touch.refl, Nat.reduceOr]

/-! Compress. -/

theorem execEncodeBlockDone_touch (ok : Bool) (ecc : Option Nat) {s s' : State} (e : execEncodeBlockDone ok ecc s = .next s') : Touch 0x61410000000004208201480 s s' := by
  unfold execEncodeBlockDone at e; injection e with e; rw [← e]; simp only [encodeBlock_touch, Touch.refl, Nat.reduceOr]

theorem execDecodeBlockDone_touch (ecc : Option Nat) {s s' : State} (e : execDecodeBlockDone ecc s = .next s') : Touch 0x61410000000004208201480 s s' := by
  unfold execDecodeBlockDone at e; injection e with e; rw [← e]; simp only [decodeBlock_touch, Touch.refl, Nat.reduceOr]

theorem execCmpJobComplete_touch (slot : Nat) {s s' : State} (e : execCmpJobComplete slot s = .next s') : Touch 0x71400000000004200001480 s s' := by
  unfold execCmpJobComplete at e; injection e with e; rw [← e]; simp only [cmpComplete_touch, Touch.refl, ite_touch, Nat.reduceOr]

/-! Porter. -/

theorem execPorterDescriptorStart_touch (c : Nat) (ecc : Bool) {s s' : State} (e : execPorterDescriptorStart c ecc s = .next s') : Touch 0x71410000000004408601480 s s' := by
  unfold execPorterDescriptorStart at e; injection e with e; rw [← e]; simp only [prtStart_touch, Touch.refl, Nat.reduceOr]

theorem execMmpRequestIssue_touch {s s' : State} (e : execMmpRequestIssue s = .next s') : Touch 0x716181000000045086a1480 s s' := by
  unfold execMmpRequestIssue at e; injection e with e; rw [← e]; simp only [memFollow_touch, requestIssue_touch, Touch.refl, Nat.reduceOr]

theorem execMmpReadData_touch (ch : Nat) (id : Nat) (beats : List (MemStatus × BitVec 512)) {s s' : State} (e : execMmpReadData ch id beats s = .next s') : Touch 0x716181000000045086a1480 s s' := by
  unfold execMmpReadData at e; injection e with e; rw [← e]; simp only [memFollow_touch, readData_touch, Touch.refl, Nat.reduceOr]

theorem execPorterDescriptorDone_touch (c : Nat) {s s' : State} (e : execPorterDescriptorDone c s = .next s') : Touch 0x71400000000004400401480 s s' := by
  unfold execPorterDescriptorDone at e; injection e with e; rw [← e]; simp only [prtFinish_touch, Touch.refl, Nat.reduceOr]

theorem execEncodeJobGo_touch (i : Nat) (acc : Acc) {s s' : State} (e : execEncodeJobGo i acc s = .next s') : Touch 0x734000100000042000015b0 s s' := by
  unfold execEncodeJobGo at e; injection e with e; rw [← e]; simp only [cmpGoCmd_touch, Touch.refl, Nat.reduceOr]

theorem execDecodeJobGo_touch (i : Nat) (acc : Acc) {s s' : State} (e : execDecodeJobGo i acc s = .next s') : Touch 0x734000100000042000015b0 s s' := by
  unfold execDecodeJobGo at e; injection e with e; rw [← e]; simp only [cmpGoCmd_touch, Touch.refl, Nat.reduceOr]

theorem execPorterHeadWrite_touch (c : Nat) (acc : Acc) {s s' : State} (e : execPorterHeadWrite c acc s = .next s') : Touch 0x734000100000042000015b0 s s' := by
  unfold execPorterHeadWrite at e; injection e with e; rw [← e]; simp (maxDischargeDepth := 80) only [portWrite_touch, cmpWrite_touch, off_PRT_CH_HEAD_HEAD, implies_true, Touch.refl, Nat.reduceOr]

theorem execPorterChannelConfigWrite_touch (c : Nat) (size : Bool) (acc : Acc) {s s' : State} (e : execPorterChannelConfigWrite c size acc s = .next s') : Touch 0x734000100000042000015b0 s s' := by
  unfold execPorterChannelConfigWrite at e; injection e with e; rw [← e]; repeat' first | (simp (maxDischargeDepth := 80) only [portWrite_touch, cmpWrite_touch, off_PRT_CH_SIZE_ENTRIES, off_PRT_CH_BASE_ADDR, implies_true, Touch.refl, Nat.reduceOr]; done) | split

theorem execPorterResume_touch (c : Nat) (acc : Acc) {s s' : State} (e : execPorterResume c acc s = .next s') : Touch 0x734000100000042000015b0 s s' := by
  unfold execPorterResume at e; injection e with e; rw [← e]; simp (maxDischargeDepth := 80) only [portWrite_touch, cmpWrite_touch, off_PRT_CH_CTL_RESUME, implies_true, Touch.refl, Nat.reduceOr]

/-! Health. -/

theorem execFaultMarkExpire_touch (a : Nat) {s s' : State} (e : execFaultMarkExpire a s = .next s') : Touch 0x659a80000000040420b1680 s s' := by
  unfold execFaultMarkExpire at e; injection e with e; rw [← e]; simp only [markExpire_touch, Touch.refl, Nat.reduceOr]

/-! Detect. -/

theorem execDetectorEvaluate_touch {s s' : State} (e : execDetectorEvaluate s = .next s') : Touch 0x6584c0000000040861a1680 s s' := by
  unfold execDetectorEvaluate at e; injection e with e; rw [← e]; simp only [detEval_touch, Touch.refl, Nat.reduceOr]

theorem execBcastReceive_touch {s s' : State} (e : execBcastReceive s = .next s') : Touch 0x610480000000040800a2480 s s' := by
  unfold execBcastReceive at e; injection e with e; rw [← e]; simp only [bcastReceive_touch, Touch.refl, Nat.reduceOr]

theorem execDetectorRefWrite_touch (d : Nat) (acc : Acc) {s s' : State} (e : execDetectorRefWrite d acc s = .next s') : Touch 0x630400100000040800005b0 s s' := by
  unfold execDetectorRefWrite at e; injection e with e; rw [← e]; simp (maxDischargeDepth := 80) only [portWrite_touch, detWrite_touch, off_DET_D_REF_SRC, implies_true, Touch.refl, Nat.reduceOr]

/-! Arrays. -/

theorem execArrayPassDone_touch (a : Nat) (cycles : Nat) (residue : Option Bool) (ecc : Option Nat) {s s' : State} (e : execArrayPassDone a cycles residue ecc s = .next s') : Touch 0x759b800000000407a2a1680 s s' := by
  unfold execArrayPassDone at e; injection e with e; rw [← e]; simp only [passDone_touch, Touch.refl, Nat.reduceOr]

theorem execArrayJobGo_touch (i : Nat) (acc : Acc) {s s' : State} (e : execArrayJobGo i acc s = .next s') : Touch 0x730a00100000040100005b0 s s' := by
  unfold execArrayJobGo at e; injection e with e; rw [← e]; simp (maxDischargeDepth := 80) only [portWrite_touch, arrWrite_touch, off_ARR_JOB_CTL_GO, implies_true, Touch.refl, Nat.reduceOr]

/-! Verify. -/

theorem execSeedBundleSend_touch {s s' : State} (e : execSeedBundleSend s = .next s') : Touch 0x61080000000004020000c80 s s' := by
  unfold execSeedBundleSend at e; injection e with e; rw [← e]; simp only [seedSend_touch, Touch.refl, Nat.reduceOr]

theorem execSeedAck_touch {s s' : State} (e : execSeedAck s = .next s') : Touch 0x80000000020000800 s s' := by
  unfold execSeedAck at e; injection e with e; rw [← e]; simp only [seedAck_touch, Touch.refl, Nat.reduceOr]

theorem execSeedAckTimeout_touch {s s' : State} (e : execSeedAckTimeout s = .next s') : Touch 0x61000080000004020030c80 s s' := by
  unfold execSeedAckTimeout at e; injection e with e; rw [← e]; simp only [seedAckTimeout_touch, Touch.refl, Nat.reduceOr]

theorem execVerifyReferenceDone_touch (errs : List (Nat × Nat × Nat)) {s s' : State} (e : execVerifyReferenceDone errs s = .next s') : Touch 0x658a80000000040220a1680 s s' := by
  unfold execVerifyReferenceDone at e; injection e with e; rw [← e]; simp only [referenceDone_touch, Touch.refl, Nat.reduceOr]

theorem execWitnessAccountingClose_touch {s s' : State} (e : execWitnessAccountingClose s = .next s') : Touch 0x71080000000004020030480 s s' := by
  unfold execWitnessAccountingClose at e; injection e with e; rw [← e]; simp only [accountClose_touch, Touch.refl, Nat.reduceOr]

theorem execWitnessReceive_touch {s s' : State} (e : execWitnessReceive s = .next s') : Touch 0x610a0000000004020023480 s s' := by
  unfold execWitnessReceive at e; injection e with e; rw [← e]; simp only [witnessReceive_touch, Touch.refl, Nat.reduceOr]

theorem execSubjectObserve_touch (i : Nat) (acc : Acc) {s s' : State} (e : execSubjectObserve i acc s = .next s') : Touch 0x630a00100000040000205b0 s s' := by
  unfold execSubjectObserve at e; injection e with e; rw [← e]; simp (maxDischargeDepth := 80) only [portWrite_touch, verWrite_touch, off_VER_SUBJ_STATE_OBSERVE, implies_true, Touch.refl, Nat.reduceOr]

theorem execSubjectClear_touch (i : Nat) (acc : Acc) {s s' : State} (e : execSubjectClear i acc s = .next s') : Touch 0x630a00100000040000205b0 s s' := by
  unfold execSubjectClear at e; injection e with e; rw [← e]; simp (maxDischargeDepth := 80) only [portWrite_touch, verWrite_touch, off_VER_SUBJ_STATE_CLEAR, implies_true, Touch.refl, Nat.reduceOr]

/-! Window. -/

theorem execAttentionPulse_touch {s s' : State} (e : execAttentionPulse s = .next s') : Touch 0x40000000000004000000800 s s' := by
  unfold execAttentionPulse at e; injection e with e; rw [← e]; split <;> simp only [attention_touch, wake_touch, Touch.refl, Nat.reduceOr]

theorem execTallySample_touch (slot : Nat) (acc : Acc) (buf : Option (List Byte)) {s s' : State} (e : execTallySample slot acc buf s = .next s') : Touch 0x10000000000000006fccf8100000041a71f1fb0 s s' := by
  unfold execTallySample at e; injection e with e; rw [← e]; simp only [cwRow_touch, Touch.refl, Nat.reduceOr]

theorem execCaravanPayload_touch (slot : Nat) (acc : Acc) (buf : Option (List Byte)) {s s' : State} (e : execCaravanPayload slot acc buf s = .next s') : Touch 0x10000000000000006fccf8100000041a71f1fb0 s s' := by
  unfold execCaravanPayload at e; injection e with e; rw [← e]; simp only [cwRow_touch, Touch.refl, Nat.reduceOr]

theorem execPtpStamps_touch (slot : Nat) (acc : Acc) {s s' : State} (e : execPtpStamps slot acc s = .next s') : Touch 0x10000000000000006fccf8100000041a71f1fb0 s s' := by
  unfold execPtpStamps at e; injection e with e; rw [← e]; simp only [cwRow_touch, Touch.refl, Nat.reduceOr]

theorem execScores_touch (slot : Nat) (acc : Acc) {s s' : State} (e : execScores slot acc s = .next s') : Touch 0x10000000000000006fccf8100000041a71f1fb0 s s' := by
  unfold execScores at e; injection e with e; rw [← e]; simp only [cwRow_touch, Touch.refl, Nat.reduceOr]

theorem execVerifyOutcome_touch (slot : Nat) (acc : Acc) {s s' : State} (e : execVerifyOutcome slot acc s = .next s') : Touch 0x10000000000000006fccf8100000041a71f1fb0 s s' := by
  unfold execVerifyOutcome at e; injection e with e; rw [← e]; simp only [cwRow_touch, Touch.refl, Nat.reduceOr]

theorem execParityReady_touch (slot : Nat) (acc : Acc) {s s' : State} (e : execParityReady slot acc s = .next s') : Touch 0x10000000000000006fccf8100000041a71f1fb0 s s' := by
  unfold execParityReady at e; injection e with e; rw [← e]; simp only [cwRow_touch, Touch.refl, Nat.reduceOr]

theorem execCwBadOp_touch (slot : Nat) (acc : Acc) {s s' : State} (e : execCwBadOp slot acc s = .next s') : Touch 0x10000000000000006fccf8100000041a71f1fb0 s s' := by
  unfold execCwBadOp at e; injection e with e; rw [← e]; simp only [cwRow_touch, Touch.refl, Nat.reduceOr]

theorem execCwFirmwareOp_touch (slot : Nat) (acc : Option Acc) (ans : Option (Nat × Word × Word × Word)) {s s' : State} (e : execCwFirmwareOp slot acc ans s = .next s') : Touch 0x10000000000000006fccf8100000041a71f1fb0 s s' := by
  unfold execCwFirmwareOp at e; injection e with e; rw [← e]; repeat' first | (simp only [cwRow_touch, cwAnswer_touch, Touch.refl, Nat.reduceOr]; done) | split

/-! Keepsake. -/

theorem execKspRead_touch (acc : Acc) {s s' : State} (e : execKspRead acc s = .next s') : Touch 0x2630000100000040000085b4 s s' := by
  unfold execKspRead at e; injection e with e; rw [← e]; simp only [kspRow_touch, Touch.refl, Nat.reduceOr]

theorem execKspPageProgram_touch (acc : Acc) {s s' : State} (e : execKspPageProgram acc s = .next s') : Touch 0x2630000100000040000085b4 s s' := by
  unfold execKspPageProgram at e; injection e with e; rw [← e]; simp only [kspRow_touch, Touch.refl, Nat.reduceOr]

theorem execKspSectorErase_touch (acc : Acc) {s s' : State} (e : execKspSectorErase acc s = .next s') : Touch 0x2630000100000040000085b4 s s' := by
  unfold execKspSectorErase at e; injection e with e; rw [← e]; simp only [kspRow_touch, Touch.refl, Nat.reduceOr]

theorem execKspReadStatus_touch (acc : Acc) {s s' : State} (e : execKspReadStatus acc s = .next s') : Touch 0x2630000100000040000085b4 s s' := by
  unfold execKspReadStatus at e; injection e with e; rw [← e]; simp only [kspRow_touch, Touch.refl, Nat.reduceOr]

theorem execKspCmdDone_touch (present : Bool) (bytes : List Byte) {s s' : State} (e : execKspCmdDone present bytes s = .next s') : Touch 0x261000000000004000008484 s s' := by
  unfold execKspCmdDone at e; injection e with e; rw [← e]; simp only [kspDone_touch, Touch.refl, Nat.reduceOr]

theorem execKspPollDone_touch (err : Bool) {s s' : State} (e : execKspPollDone err s = .next s') : Touch 0x261000000000004000008484 s s' := by
  unfold execKspPollDone at e; injection e with e; rw [← e]; simp only [kspPoll_touch, Touch.refl, Nat.reduceOr]

theorem execKspPollTimeout_touch {s s' : State} (e : execKspPollTimeout s = .next s') : Touch 0x261000000000004000008484 s s' := by
  unfold execKspPollTimeout at e; injection e with e; rw [← e]; simp only [kspPollTimeout_touch, Touch.refl, Nat.reduceOr]

theorem execKspResetRelease_touch {s s' : State} (e : execKspResetRelease s = .next s') : Touch 0x40 s s' := by
  unfold execKspResetRelease at e; injection e with e; rw [← e]; simp only [kspResetRelease_touch, Touch.refl, Nat.reduceOr]

/-! Lantern. -/

theorem execTraceArm_touch (acc : Acc) {s s' : State} (e : execTraceArm acc s = .next s') : Touch 0xe300001000000c0000005b0 s s' := by
  unfold execTraceArm at e; injection e with e; rw [← e]; simp (maxDischargeDepth := 80) only [portWrite_touch, ltnWrite_touch, off_LTN_CTL_ARM, implies_true, Touch.refl, Nat.reduceOr]

theorem execTraceSoft_touch (acc : Acc) {s s' : State} (e : execTraceSoft acc s = .next s') : Touch 0xe300001000000c0000005b0 s s' := by
  unfold execTraceSoft at e; injection e with e; rw [← e]; simp (maxDischargeDepth := 80) only [portWrite_touch, ltnWrite_touch, off_LTN_CTL_SOFT, implies_true, Touch.refl, Nat.reduceOr]

theorem execTraceTimeComparator_touch (x : Nat) {s s' : State} (e : execTraceTimeComparator x s = .next s') : Touch 0x8000030000 s s' := by
  unfold execTraceTimeComparator at e; injection e with e; rw [← e]; simp only [timeComparator_touch, Touch.refl, Nat.reduceOr]

/-! Debug. -/

theorem execAuthVerifyDone_touch {s s' : State} (e : execAuthVerifyDone s = .next s') : Touch 0x161000000000014000000480 s s' := by
  unfold execAuthVerifyDone at e; injection e with e; rw [← e]; simp only [authDone_touch, Touch.refl, Nat.reduceOr]

theorem execAuthLapse_touch {s s' : State} (e : execAuthLapse s = .next s') : Touch 0x161000000000014000030480 s s' := by
  unfold execAuthLapse at e; injection e with e; rw [← e]; simp only [authTime_touch, Touch.refl, Nat.reduceOr]

theorem execAuthInstallStart_touch (acc : Acc) {s s' : State} (e : execAuthInstallStart acc s = .next s') : Touch 0x1eb00001000001e8000005b0 s s' := by
  unfold execAuthInstallStart at e; injection e with e; rw [← e]; simp (maxDischargeDepth := 80) only [portWrite_touch, dbgWrite_touch, off_DBG_AUTH_CTL_START, implies_true, Touch.refl, Nat.reduceOr]

theorem execAuthData_touch (acc : Acc) {s s' : State} (e : execAuthData acc s = .next s') : Touch 0x1eb00001000001e8000005b0 s s' := by
  unfold execAuthData at e; injection e with e; rw [← e]; simp (maxDischargeDepth := 80) only [portWrite_touch, dbgWrite_touch, off_DBG_AUTH_DATA_DATA, implies_true, Touch.refl, Nat.reduceOr]

theorem execAuthRevoke_touch (acc : Acc) {s s' : State} (e : execAuthRevoke acc s = .next s') : Touch 0x1eb00001000001e8000005b0 s s' := by
  unfold execAuthRevoke at e; injection e with e; rw [← e]; simp (maxDischargeDepth := 80) only [portWrite_touch, dbgWrite_touch, off_DBG_AUTH_CTL_REVOKE, implies_true, Touch.refl, Nat.reduceOr]

theorem execCoreHalt_touch (acc : Acc) {s s' : State} (e : execCoreHalt acc s = .next s') : Touch 0x1eb00001000001e8000005b0 s s' := by
  unfold execCoreHalt at e; injection e with e; rw [← e]; simp (maxDischargeDepth := 80) only [portWrite_touch, dbgWrite_touch, off_DBG_CORE_CTL_HALT, implies_true, Touch.refl, Nat.reduceOr]

theorem execCoreStep_touch (acc : Acc) (len : Nat) (next : Nat) (trap : Option (Word × Word)) (xs : List (Nat × Word)) {s s' : State} (e : execCoreStep acc len next trap xs s = .next s') : Touch 0x1eb00001000001e8000005b0 s s' := by
  unfold execCoreStep at e; injection e with e; rw [← e]; simp (maxDischargeDepth := 80) only [bringing_touch, portWrite_touch, dbgWrite_touch, off_DBG_CORE_CTL_STEP, implies_true, Touch.refl, Nat.reduceOr]

theorem execCoreResume_touch (acc : Acc) {s s' : State} (e : execCoreResume acc s = .next s') : Touch 0x1eb00001000001e8000005b0 s s' := by
  unfold execCoreResume at e; injection e with e; rw [← e]; simp (maxDischargeDepth := 80) only [portWrite_touch, dbgWrite_touch, off_DBG_CORE_CTL_RESUME, implies_true, Touch.refl, Nat.reduceOr]

theorem execTraceInstruction_touch (c : Nat) (pc : Nat) (len : Nat) (next : Nat) (trap : Option (Word × Word)) {s s' : State} (e : execTraceInstruction c pc len next trap s = .next s') : Touch 0x1e900000000001e000000480 s s' := by
  unfold execTraceInstruction at e; injection e with e; rw [← e]; simp only [instruction_touch, Touch.refl, Nat.reduceOr]

/-! Firmware. -/

theorem execFirmwareLoad_touch (slotA : Option (List Byte)) (slotB : Option (List Byte)) {s s' : State} (e : execFirmwareLoad slotA slotB s = .next s') : Touch 0x1000000000000002edccf80000000e9a75f1684 s s' := by
  unfold execFirmwareLoad at e; injection e with e; rw [← e]; simp only [firmwareLoad_touch, Touch.refl, Nat.reduceOr]

theorem execFirmwareStageDone_touch (img : Option (List Byte)) {s s' : State} (e : execFirmwareStageDone img s = .next s') : Touch 0x269000000000004000440484 s s' := by
  unfold execFirmwareStageDone at e; injection e with e; rw [← e]; simp only [stageDone_touch, Touch.refl, Nat.reduceOr]

theorem execSwitchReq_touch {s s' : State} (e : execSwitchReq s = .next s') : Touch 0x1000000000000000edccf80000000e9a71f1680 s s' := by
  unfold execSwitchReq at e; injection e with e; rw [← e]; simp only [switchReq_touch, Touch.refl, Nat.reduceOr]

theorem execFirmwareSwitchTimeout_touch {s s' : State} (e : execFirmwareSwitchTimeout s = .next s') : Touch 0x10000000000000006dccf8000000041a71f1680 s s' := by
  unfold execFirmwareSwitchTimeout at e; injection e with e; rw [← e]; simp only [switchTimeout_touch, Touch.refl, Nat.reduceOr]

theorem execCoreHaltEcc_touch (c : Nat) {s s' : State} (e : execCoreHaltEcc c s = .next s') : Touch 0x1000000000000000edccf80000000e9a71f1680 s s' := by
  unfold execCoreHaltEcc at e; injection e with e; rw [← e]; simp only [coreHaltEcc_touch, Touch.refl, Nat.reduceOr]

theorem execModeSwitchFlip_touch (buf : Option (List Byte)) {s s' : State} (e : execModeSwitchFlip buf s = .next s') : Touch 0x6b480010000004280053580 s s' := by
  unfold execModeSwitchFlip at e; injection e with e; rw [← e]; simp only [modeFlip_touch, Touch.refl, Nat.reduceOr]

theorem execModeSwitchTimeout_touch {s s' : State} (e : execModeSwitchTimeout s = .next s') : Touch 0x69400000000004200071480 s s' := by
  unfold execModeSwitchTimeout at e; injection e with e; rw [← e]; simp only [modeTimeout_touch, Touch.refl, Nat.reduceOr]

theorem execFirmwareStage_touch (acc : Acc) {s s' : State} (e : execFirmwareStage acc s = .next s') : Touch 0x1000000000000002efccf81000000e9a71f17b0 s s' := by
  unfold execFirmwareStage at e; injection e with e; rw [← e]; simp (maxDischargeDepth := 80) only [portWrite_touch, ctlWrite_touch, off_CTL_FW_CMD_START, implies_true, Touch.refl, Nat.reduceOr]

theorem execFirmwareSwitch_touch (acc : Acc) {s s' : State} (e : execFirmwareSwitch acc s = .next s') : Touch 0x1000000000000002efccf81000000e9a71f17b0 s s' := by
  unfold execFirmwareSwitch at e; injection e with e; rw [← e]; simp (maxDischargeDepth := 80) only [portWrite_touch, ctlWrite_touch, off_CTL_FW_CMD_START, implies_true, Touch.refl, Nat.reduceOr]

theorem execFirmwareReady_touch (acc : Acc) {s s' : State} (e : execFirmwareReady acc s = .next s') : Touch 0x1000000000000002efccf81000000e9a71f17b0 s s' := by
  unfold execFirmwareReady at e; injection e with e; rw [← e]; simp (maxDischargeDepth := 80) only [portWrite_touch, ctlWrite_touch, off_CTL_FW_READY_READY, implies_true, Touch.refl, Nat.reduceOr]

theorem execModeSwitch_touch (acc : Acc) {s s' : State} (e : execModeSwitch acc s = .next s') : Touch 0x1000000000000002efccf81000000e9a71f17b0 s s' := by
  unfold execModeSwitch at e; injection e with e; rw [← e]; simp (maxDischargeDepth := 80) only [portWrite_touch, ctlWrite_touch, off_CTL_MODE_CMD_START, implies_true, Touch.refl, Nat.reduceOr]

/-! Guestbook. -/

theorem execGuestbookExport_touch {s s' : State} (e : execGuestbookExport s = .next s') : Touch 0x61400000000004000001480 s s' := by
  unfold execGuestbookExport at e; injection e with e; rw [← e]; simp only [gbkExport_touch, Touch.refl, Nat.reduceOr]

theorem execGuestbookExportDone_touch {s s' : State} (e : execGuestbookExportDone s = .next s') : Touch 0x61000000000004000001480 s s' := by
  unfold execGuestbookExportDone at e; injection e with e; rw [← e]; simp only [gbkExported_touch, Touch.refl, Nat.reduceOr]

theorem execGuestbookFlush_touch (acc : Acc) {s s' : State} (e : execGuestbookFlush acc s = .next s') : Touch 0x630000100000040000005b0 s s' := by
  unfold execGuestbookFlush at e; injection e with e; rw [← e]; simp (maxDischargeDepth := 80) only [portWrite_touch, gbkWrite_touch, off_GBK_EXP_CTL_FLUSH, implies_true, Touch.refl, Nat.reduceOr]

/-! Strongbox. -/

theorem execVerdictAck_touch (acc : Acc) {s s' : State} (e : execVerdictAck acc s = .next s') : Touch 0x670000100000040000007b0 s s' := by
  unfold execVerdictAck at e; injection e with e; rw [← e]; simp (maxDischargeDepth := 80) only [portWrite_touch, sbxWrite_touch, off_SBX_VACK_SEQ, implies_true, Touch.refl, Nat.reduceOr]

theorem execPowerFailWarning_touch (slotA : List Byte) (slotB : List Byte) {s s' : State} (e : execPowerFailWarning slotA slotB s = .next s') : Touch 0x26740100000000c8000287c4 s s' := by
  unfold execPowerFailWarning at e; injection e with e; rw [← e]; simp only [powerFail_touch, Touch.refl, Nat.reduceOr]

theorem execStrongboxSaveDone_touch {s s' : State} (e : execStrongboxSaveDone s = .next s') : Touch 0x44000000000000000008244 s s' := by
  unfold execStrongboxSaveDone at e; injection e with e; rw [← e]; simp only [saveDone_touch, Touch.refl, Nat.reduceOr]

theorem execSavePgFall_touch {s s' : State} (e : execSavePgFall s = .next s') : Touch 0x40000000000000000008200 s s' := by
  unfold execSavePgFall at e; injection e with e; rw [← e]; simp only [savePgFall_touch, Touch.refl, Nat.reduceOr]

theorem execStrongboxRestore_touch {s s' : State} (e : execStrongboxRestore s = .next s') : Touch 0x204000000000000000000200 s s' := by
  unfold execStrongboxRestore at e; injection e with e; rw [← e]; simp only [restoreStart_touch, Touch.refl, Nat.reduceOr]

theorem execStrongboxRestoreDone_touch (slotA : List Byte) (slotB : List Byte) {s s' : State} (e : execStrongboxRestoreDone slotA slotB s = .next s') : Touch 0x267000000000004000000784 s s' := by
  unfold execStrongboxRestoreDone at e; injection e with e; rw [← e]; simp only [restoreDone_touch, Touch.refl, Nat.reduceOr]

/-! Power. -/

theorem execPowerHoldComplete_touch {s s' : State} (e : execPowerHoldComplete s = .next s') : Touch 0x1000000000000002efccf84000000cba71f97c4 s s' := by
  unfold execPowerHoldComplete at e; injection e with e; rw [← e]; simp only [holdDone_touch, Touch.refl, Nat.reduceOr]

theorem execPowerAskRetry_touch {s s' : State} (e : execPowerAskRetry s = .next s') : Touch 0x1000000000000000edccf80000000cba71f1680 s s' := by
  unfold execPowerAskRetry at e; injection e with e; rw [← e]; simp only [askRetry_touch, Touch.refl, Nat.reduceOr]

theorem execPowerEntryTimeout_touch {s s' : State} (e : execPowerEntryTimeout s = .next s') : Touch 0x1000000000000000edccf80000000cba71f1680 s s' := by
  unfold execPowerEntryTimeout at e; injection e with e; rw [← e]; simp only [entryTimeout_touch, Touch.refl, Nat.reduceOr]

theorem execWakeEvent_touch (src : Nat) {s s' : State} (e : execWakeEvent src s = .next s') : Touch 0x40000000000004000000000 s s' := by
  unfold execWakeEvent at e; injection e with e; rw [← e]; simp only [wake_touch, Touch.refl, ite_touch, Nat.reduceOr]

theorem execWakeTimer_touch {s s' : State} (e : execWakeTimer s = .next s') : Touch 0x40000000000004000030000 s s' := by
  unfold execWakeTimer at e; injection e with e; rw [← e]; simp only [wakeTimer_touch, Touch.refl, Nat.reduceOr]

theorem execPowerStateRequest_touch (acc : Acc) {s s' : State} (e : execPowerStateRequest acc s = .next s') : Touch 0x1000000000000002efccf85000000cba71f97f4 s s' := by
  unfold execPowerStateRequest at e; injection e with e; rw [← e]; simp (maxDischargeDepth := 80) only [portWrite_touch, pwrWrite_touch, off_PWR_CMD_START, implies_true, Touch.refl, Nat.reduceOr]

theorem execCoreAck_touch (acc : Acc) {s s' : State} (e : execCoreAck acc s = .next s') : Touch 0x1000000000000002efccf85000000cba71f97f4 s s' := by
  unfold execCoreAck at e; injection e with e; rw [← e]; simp (maxDischargeDepth := 80) only [portWrite_touch, pwrWrite_touch, off_PWR_CORE_ACK_ANSWER, implies_true, Touch.refl, Nat.reduceOr]

theorem execStepAsk_touch (acc : Acc) {s s' : State} (e : execStepAsk acc s = .next s') : Touch 0x1000000000000002efccf85000000cba71f97f4 s s' := by
  unfold execStepAsk at e; injection e with e; rw [← e]; simp only [stepWrite_touch, Touch.refl, Nat.reduceOr]

theorem execStepHold_touch (acc : Acc) {s s' : State} (e : execStepHold acc s = .next s') : Touch 0x1000000000000002efccf85000000cba71f97f4 s s' := by
  unfold execStepHold at e; injection e with e; rw [← e]; simp only [stepWrite_touch, Touch.refl, Nat.reduceOr]

theorem execStepGate_touch (acc : Acc) {s s' : State} (e : execStepGate acc s = .next s') : Touch 0x1000000000000002efccf85000000cba71f97f4 s s' := by
  unfold execStepGate at e; injection e with e; rw [← e]; simp only [stepWrite_touch, Touch.refl, Nat.reduceOr]

theorem execStepRelease_touch (acc : Acc) {s s' : State} (e : execStepRelease acc s = .next s') : Touch 0x1000000000000002efccf85000000cba71f97f4 s s' := by
  unfold execStepRelease at e; injection e with e; rw [← e]; simp only [stepWrite_touch, Touch.refl, Nat.reduceOr]

/-! Itinerary. -/

theorem execItineraryLoadStart_touch (present : Bool) (hdrA : Option (List Byte)) (hdrB : Option (List Byte)) {s s' : State} (e : execItineraryLoadStart present hdrA hdrB s = .next s') : Touch 0x261000020000004000830484 s s' := by
  unfold execItineraryLoadStart at e; injection e with e; rw [← e]; simp only [loadStart_touch, Touch.refl, Nat.reduceOr]

theorem execSlotReadDone_touch (img : Option (List Byte)) {s s' : State} (e : execSlotReadDone img s = .next s') : Touch 0x261000020000004000800484 s s' := by
  unfold execSlotReadDone at e; injection e with e; rw [← e]; simp only [slotDone_touch, Touch.refl, Nat.reduceOr]

theorem execItineraryApplyDone_touch {s s' : State} (e : execItineraryApplyDone s = .next s') : Touch 0x26bcb97700000040029a15c0 s s' := by
  unfold execItineraryApplyDone at e; injection e with e; rw [← e]; simp only [applyDone_touch, Touch.refl, Nat.reduceOr]

theorem execPushStart_touch (acc : Acc) {s s' : State} (e : execPushStart acc s = .next s') : Touch 0x630000300000040008005b0 s s' := by
  unfold execPushStart at e; injection e with e; rw [← e]; simp (maxDischargeDepth := 80) only [portWrite_touch, itnWrite_touch, off_ITN_PUSH_CTL_START, implies_true, Touch.refl, Nat.reduceOr]

theorem execPushAbort_touch (acc : Acc) {s s' : State} (e : execPushAbort acc s = .next s') : Touch 0x630000300000040008005b0 s s' := by
  unfold execPushAbort at e; injection e with e; rw [← e]; simp (maxDischargeDepth := 80) only [portWrite_touch, itnWrite_touch, off_ITN_PUSH_CTL_START, implies_true, Touch.refl, Nat.reduceOr]

theorem execPushData_touch (acc : Acc) {s s' : State} (e : execPushData acc s = .next s') : Touch 0x630000300000040008005b0 s s' := by
  unfold execPushData at e; injection e with e; rw [← e]; simp (maxDischargeDepth := 80) only [portWrite_touch, itnWrite_touch, off_ITN_PUSH_DATA_DATA, implies_true, Touch.refl, Nat.reduceOr]

theorem execPushVerifyDone_touch {s s' : State} (e : execPushVerifyDone s = .next s') : Touch 0x61000020000004000800480 s s' := by
  unfold execPushVerifyDone at e; injection e with e; rw [← e]; simp only [pushVerified_touch, Touch.refl, Nat.reduceOr]

theorem execLiveOverlayApply_touch {s s' : State} (e : execLiveOverlayApply s = .next s') : Touch 0x638090200000040029a1580 s s' := by
  unfold execLiveOverlayApply at e; injection e with e; rw [← e]; simp only [liveApply_touch, Touch.refl, Nat.reduceOr]

theorem execQuiesceOverlayStart_touch {s s' : State} (e : execQuiesceOverlayStart s = .next s') : Touch 0x200000000008c0000 s s' := by
  unfold execQuiesceOverlayStart at e; injection e with e; rw [← e]; simp only [quiesceStart_touch, Touch.refl, Nat.reduceOr]

theorem execQuiesceOverlayWrite_touch (buf : Option (List Byte)) {s s' : State} (e : execQuiesceOverlayWrite buf s = .next s') : Touch 0x63c890300000042829f3580 s s' := by
  unfold execQuiesceOverlayWrite at e; injection e with e; rw [← e]; simp only [quiesceWrite_touch, Touch.refl, Nat.reduceOr]

theorem execQuiesceOverlayTimeout_touch {s s' : State} (e : execQuiesceOverlayTimeout s = .next s') : Touch 0x614000200000042008f1480 s s' := by
  unfold execQuiesceOverlayTimeout at e; injection e with e; rw [← e]; simp only [quiesceTimeout_touch, Touch.refl, Nat.reduceOr]

theorem execOverlayHoldTimeout_touch {s s' : State} (e : execOverlayHoldTimeout s = .next s') : Touch 0x61000020000004000830480 s s' := by
  unfold execOverlayHoldTimeout at e; injection e with e; rw [← e]; simp only [holdTimeout_touch, Touch.refl, Nat.reduceOr]

/-! FieldTest. -/

theorem execFieldTestDone_touch (a : Nat) (b : Nat) (cycles : Nat) (differ : Bool) (da : Bool) (db : Bool) (residue : Option (Nat × Bool)) (ecc : Option (Nat × Nat)) {s s' : State} (e : execFieldTestDone a b cycles differ da db residue ecc s = .next s') : Touch 0x659a80000000040520a1680 s s' := by
  unfold execFieldTestDone at e; injection e with e; rw [← e]; simp only [fieldTest_touch, Touch.refl, Nat.reduceOr]

theorem execProbeIssue_touch (errs : List (Nat × Nat × Nat)) {s s' : State} (e : execProbeIssue errs s = .next s') : Touch 0x40020004 s s' := by
  unfold execProbeIssue at e; injection e with e; rw [← e]; simp only [probeIssue_touch, Touch.refl, Nat.reduceOr]

theorem execVerifyConfirmDone_touch (probe : Bool) (errs : List (Nat × Nat × Nat)) (arrays : List Nat) {s s' : State} (e : execVerifyConfirmDone probe errs arrays s = .next s') : Touch 0x659a80000000040620a1680 s s' := by
  unfold execVerifyConfirmDone at e; injection e with e; rw [← e]; split <;> simp only [probeConfirm_touch, confirmDone_touch, Touch.refl, ite_touch, Nat.reduceOr]

theorem execProbeTimeout_touch {s s' : State} (e : execProbeTimeout s = .next s') : Touch 0x61100000000004040030480 s s' := by
  unfold execProbeTimeout at e; injection e with e; rw [← e]; simp only [probeTimeout_touch, Touch.refl, Nat.reduceOr]

theorem execWitnessRecord_touch (engine : Nat) (beats : List (BitVec 512)) (cut : Bool) {s s' : State} (e : execWitnessRecord engine beats cut s = .next s') : Touch 0x659a80800000040620a1680 s s' := by
  unfold execWitnessRecord at e; injection e with e; rw [← e]; simp only [witnessRecord_touch, Touch.refl, Nat.reduceOr]

theorem execProbeResultRecord_touch (engine : Nat) (beats : List (BitVec 512)) (cut : Bool) {s s' : State} (e : execProbeResultRecord engine beats cut s = .next s') : Touch 0x659a80800000040620a1680 s s' := by
  unfold execProbeResultRecord at e; injection e with e; rw [← e]; simp only [witnessRecord_touch, Touch.refl, Nat.reduceOr]

theorem execProbeCampaignStart_touch (acc : Acc) {s s' : State} (e : execProbeCampaignStart acc s = .next s') : Touch 0x631000100000040400005b0 s s' := by
  unfold execProbeCampaignStart at e; injection e with e; rw [← e]; simp (maxDischargeDepth := 80) only [portWrite_touch, fltWrite_touch, off_FLT_PROBE_CMD_START, implies_true, Touch.refl, Nat.reduceOr]

theorem execProbeCampaignAbort_touch (acc : Acc) {s s' : State} (e : execProbeCampaignAbort acc s = .next s') : Touch 0x631000100000040400005b0 s s' := by
  unfold execProbeCampaignAbort at e; injection e with e; rw [← e]; simp (maxDischargeDepth := 80) only [portWrite_touch, fltWrite_touch, off_FLT_PROBE_CMD_START, implies_true, Touch.refl, Nat.reduceOr]

/-! Reset. -/

theorem execDomainResetRelease_touch (d : Nat) {s s' : State} (e : execDomainResetRelease d s = .next s') : Touch 0xffffffff0101ff00000000002f9ffffe000001ffffff7cc4 s s' := by
  unfold execDomainResetRelease at e; injection e with e; rw [← e]; simp only [domainRelease_touch, Touch.refl, ite_touch, Nat.reduceOr]

theorem execHostSideReset_touch (x : Nat) {s s' : State} (e : execHostSideReset x s = .next s') : Touch 0x716187c00000045086a7cc4 s s' := by
  unfold execHostSideReset at e; injection e with e; rw [← e]; simp only [hostReset_touch, Touch.refl, Nat.reduceOr]

theorem execXrstAckSeen_touch (x : Nat) {s s' : State} (e : execXrstAckSeen x s = .next s') : Touch 0x40000000000000040 s s' := by
  unfold execXrstAckSeen at e; injection e with e; rw [← e]; simp only [ackSeen_touch, Touch.refl, Nat.reduceOr]

theorem execXrstHandshakeDone_touch (x : Nat) {s s' : State} (e : execXrstHandshakeDone x s = .next s') : Touch 0x61cb97c00000040029a3cc4 s s' := by
  unfold execXrstHandshakeDone at e; injection e with e; rw [← e]; simp only [handshakeDone_touch, Touch.refl, Nat.reduceOr]

theorem execWarmReset_touch {s s' : State} (e : execWarmReset s = .next s') : Touch 0xffffffff0101ff00000000003fdffffe000001ffff9f7fd4 s s' := by
  unfold execWarmReset at e; injection e with e; rw [← e]; simp only [warmReset_touch, Touch.refl, Nat.reduceOr]

theorem execClkRstWarm_touch (acc : Acc) {s s' : State} (e : execClkRstWarm acc s = .next s') : Touch 0xffffffff0101ff00000000003fffffff000001ffffff7ff4 s s' := by
  unfold execClkRstWarm at e; injection e with e; rw [← e]; simp (maxDischargeDepth := 80) only [portWrite_touch, clkWrite_touch, off_CLK_RST_CTL_WARM, implies_true, Touch.refl, Nat.reduceOr]

theorem execDomainResetRequest_touch (acc : Acc) {s s' : State} (e : execDomainResetRequest acc s = .next s') : Touch 0xffffffff0101ff00000000003fffffff000001ffffff7ff4 s s' := by
  unfold execDomainResetRequest at e; injection e with e; rw [← e]; simp (maxDischargeDepth := 80) only [portWrite_touch, clkWrite_touch, off_CLK_RST_CTL_WARM, implies_true, Touch.refl, Nat.reduceOr]

theorem execClkMonWindowEnd_touch (count : Nat) {s s' : State} (e : execClkMonWindowEnd count s = .next s') : Touch 0x61000040000004000000480 s s' := by
  unfold execClkMonWindowEnd at e; injection e with e; rw [← e]; simp only [monWindow_touch, Touch.refl, Nat.reduceOr]

theorem execClockBranchGate_touch (b : Nat) {s s' : State} (e : execClockBranchGate b s = .next s') : Touch 0x40000000000000000 s s' := by
  unfold execClockBranchGate at e; injection e with e; rw [← e]; simp only [branchGate_touch, Touch.refl, Nat.reduceOr]

theorem execClockBranchRestart_touch (b : Nat) {s s' : State} (e : execClockBranchRestart b s = .next s') : Touch 0x40000000000000000 s s' := by
  unfold execClockBranchRestart at e; injection e with e; rw [← e]; simp only [branchRestart_touch, Touch.refl, Nat.reduceOr]

/-! Tga. -/

theorem execTgaAnsReceive_touch {s s' : State} (e : execTgaAnsReceive s = .next s') : Touch 0x100000000000006100c0000000040001a2480 s s' := by
  unfold execTgaAnsReceive at e; injection e with e; rw [← e]; simp only [tgaAns_touch, Touch.refl, Nat.reduceOr]

theorem execTgaTimeout_touch {s s' : State} (e : execTgaTimeout s = .next s') : Touch 0x100000000000006100c0000000040001b0480 s s' := by
  unfold execTgaTimeout at e; injection e with e; rw [← e]; simp only [tgaTmo_touch, Touch.refl, Nat.reduceOr]

/-! Recovery. -/

theorem execFaultNoticeSend_touch {s s' : State} (e : execFaultNoticeSend s = .next s') : Touch 0x618080000000048000a0480 s s' := by
  unfold execFaultNoticeSend at e; injection e with e; rw [← e]; simp only [noticeSend_touch, Touch.refl, Nat.reduceOr]

theorem execDumpProbeTimeout_touch (page : Nat) (shadow : Bool) {s s' : State} (e : execDumpProbeTimeout page shadow s = .next s') : Touch 0x61800000000004800000480 s s' := by
  unfold execDumpProbeTimeout at e; injection e with e; rw [← e]; simp only [dumpProbe_touch, Touch.refl, Nat.reduceOr]

theorem execDumpBuildDone_touch {s s' : State} (e : execDumpBuildDone s = .next s') : Touch 0x61800000000004800001480 s s' := by
  unfold execDumpBuildDone at e; injection e with e; rw [← e]; simp only [dumpBuilt_touch, Touch.refl, ite_touch, Nat.reduceOr]

theorem execDumpWriteDone_touch {s s' : State} (e : execDumpWriteDone s = .next s') : Touch 0x61800000000004800001480 s s' := by
  unfold execDumpWriteDone at e; injection e with e; rw [← e]; simp only [dumpWritten_touch, Touch.refl, Nat.reduceOr]

theorem execHeldDumpWrite_touch {s s' : State} (e : execHeldDumpWrite s = .next s') : Touch 0x800001000 s s' := by
  unfold execHeldDumpWrite at e; injection e with e; rw [← e]; simp only [heldWrite_touch, Touch.refl, Nat.reduceOr]

theorem execFenceDrained_touch (t : Nat) {s s' : State} (e : execFenceDrained t s = .next s') : Touch 0x61800000000004800000480 s s' := by
  unfold execFenceDrained at e; injection e with e; rw [← e]; repeat' first | (simp (maxDischargeDepth := 80) only [fenceDrained_touch, Touch.refl, ite_touch, Nat.reduceOr]; done) | with_reducible (refine ite_touch ?_ ?_) | with_reducible (refine foldl_touch (fun _ _ => ?_) ?_) | split | (dsimp only; with_reducible (refine ite_touch ?_ ?_)) | (dsimp only; split) | ((try dsimp only); first | with_reducible (apply fenceDrained_touch) | with_reducible (apply touch_mk))

theorem execRcvDrainTmo_touch (t : Nat) (stuck : Nat) {s s' : State} (e : execRcvDrainTmo t stuck s = .next s') : Touch 0x71e38100000004d186b1480 s s' := by
  unfold execRcvDrainTmo at e; injection e with e; rw [← e]; repeat' first | (simp (maxDischargeDepth := 80) only [drainTmo_touch, Touch.refl, ite_touch, Nat.reduceOr]; done) | with_reducible (refine ite_touch ?_ ?_) | with_reducible (refine foldl_touch (fun _ _ => ?_) ?_) | split | (dsimp only; with_reducible (refine ite_touch ?_ ?_)) | (dsimp only; split) | ((try dsimp only); first | with_reducible (apply drainTmo_touch) | with_reducible (apply touch_mk))

theorem execFenceAckSeen_touch (d : Nat) {s s' : State} (e : execFenceAckSeen d s = .next s') : Touch 0x800080000000800000000 s s' := by
  unfold execFenceAckSeen at e; injection e with e; rw [← e]; simp only [ackHigh_touch, Touch.refl, Nat.reduceOr]

theorem execFenceDrainDone_touch (d : Nat) (errResp : Bool) {s s' : State} (e : execFenceDrainDone d errResp s = .next s') : Touch 0x61800080000004800000480 s s' := by
  unfold execFenceDrainDone at e; injection e with e; rw [← e]; simp only [drainDone_touch, Touch.refl, Nat.reduceOr]

theorem execFenceLinesLow_touch (d : Nat) {s s' : State} (e : execFenceLinesLow d s = .next s') : Touch 0x69c00080000004a00001480 s s' := by
  unfold execFenceLinesLow at e; injection e with e; rw [← e]; simp only [linesLow_touch, Touch.refl, Nat.reduceOr]

theorem execFenceAckTmo_touch (d : Nat) {s s' : State} (e : execFenceAckTmo d s = .next s') : Touch 0x61800080000004800030480 s s' := by
  unfold execFenceAckTmo at e; injection e with e; rw [← e]; simp only [ackTmo_touch, Touch.refl, ite_touch, Nat.reduceOr]

theorem execFenceDrainTmo_touch (d : Nat) {s s' : State} (e : execFenceDrainTmo d s = .next s') : Touch 0x61800080000004800030480 s s' := by
  unfold execFenceDrainTmo at e; injection e with e; rw [← e]; simp only [doneTmo_touch, Touch.refl, ite_touch, Nat.reduceOr]

theorem execFenceProto_touch (d : Nat) (line : Nat) {s s' : State} (e : execFenceProto d line s = .next s') : Touch 0x61000080000004000000c80 s s' := by
  unfold execFenceProto at e; injection e with e; rw [← e]; simp only [fenceProto_touch, Touch.refl, Nat.reduceOr]

theorem execTeardownStepComplete_touch (k : Nat) {s s' : State} (e : execTeardownStepComplete k s = .next s') : Touch 0x101000000000000079b0d1800000049401e1c84 s s' := by
  unfold execTeardownStepComplete at e; injection e with e; rw [← e]; simp only [tearNext_touch, Touch.refl, ite_touch, Nat.reduceOr]

theorem execTeardownTimeout_touch (k : Nat) {s s' : State} (e : execTeardownTimeout k s = .next s') : Touch 0x61800000000004800030480 s s' := by
  unfold execTeardownTimeout at e; injection e with e; rw [← e]; simp only [tearTmo_touch, Touch.refl, ite_touch, Nat.reduceOr]

theorem execReleaseTimeout_touch (d : Nat) {s s' : State} (e : execReleaseTimeout d s = .next s') : Touch 0x60800000000004800030400 s s' := by
  unfold execReleaseTimeout at e; injection e with e; rw [← e]; simp only [releaseTmo_touch, Touch.refl, ite_touch, Nat.reduceOr]

theorem execHoldoverLinkTimeout_touch {s s' : State} (e : execHoldoverLinkTimeout s = .next s') : Touch 0x61800000000004000030480 s s' := by
  unfold execHoldoverLinkTimeout at e; injection e with e; rw [← e]; simp only [holdLink_touch, Touch.refl, Nat.reduceOr]

theorem execHoldoverDrainSend_touch {s s' : State} (e : execHoldoverDrainSend s = .next s') : Touch 0x618080000000040020a1480 s s' := by
  unfold execHoldoverDrainSend at e; injection e with e; rw [← e]; simp only [holdDrain_touch, Touch.refl, Nat.reduceOr]

theorem execDrainReceive_touch {s s' : State} (e : execDrainReceive s = .next s') : Touch 0x610080000000040000a2480 s s' := by
  unfold execDrainReceive at e; injection e with e; rw [← e]; simp only [drainReceive_touch, Touch.refl, Nat.reduceOr]

theorem execFenceOrder_touch (k : Nat) (acc : Acc) {s s' : State} (e : execFenceOrder k acc s = .next s') : Touch 0xffffffff0101ff00000000002fbfffff000001ffffff7df4 s s' := by
  unfold execFenceOrder at e; injection e with e; rw [← e]; simp only [ordRow_touch, Touch.refl, Nat.reduceOr]

theorem execDumpOrder_touch (k : Nat) (acc : Acc) {s s' : State} (e : execDumpOrder k acc s = .next s') : Touch 0xffffffff0101ff00000000002fbfffff000001ffffff7df4 s s' := by
  unfold execDumpOrder at e; injection e with e; rw [← e]; simp only [ordRow_touch, Touch.refl, Nat.reduceOr]

theorem execResetOrder_touch (k : Nat) (acc : Acc) {s s' : State} (e : execResetOrder k acc s = .next s') : Touch 0xffffffff0101ff00000000002fbfffff000001ffffff7df4 s s' := by
  unfold execResetOrder at e; injection e with e; rw [← e]; simp only [ordRow_touch, Touch.refl, Nat.reduceOr]

theorem execReleaseOrder_touch (k : Nat) (acc : Acc) {s s' : State} (e : execReleaseOrder k acc s = .next s') : Touch 0xffffffff0101ff00000000002fbfffff000001ffffff7df4 s s' := by
  unfold execReleaseOrder at e; injection e with e; rw [← e]; simp only [ordRow_touch, Touch.refl, Nat.reduceOr]

theorem execForceOrder_touch (k : Nat) (acc : Acc) {s s' : State} (e : execForceOrder k acc s = .next s') : Touch 0xffffffff0101ff00000000002fbfffff000001ffffff7df4 s s' := by
  unfold execForceOrder at e; injection e with e; rw [← e]; simp only [ordRow_touch, Touch.refl, Nat.reduceOr]

theorem execTeardownOrder_touch (k : Nat) (acc : Acc) {s s' : State} (e : execTeardownOrder k acc s = .next s') : Touch 0xffffffff0101ff00000000002fbfffff000001ffffff7df4 s s' := by
  unfold execTeardownOrder at e; injection e with e; rw [← e]; simp only [ordRow_touch, Touch.refl, Nat.reduceOr]

theorem execDumpDiscard_touch (acc : Acc) {s t : State} (e : execDumpDiscard acc s = .next t) : Touch 0x638000100000048000005b0 s t := by
  unfold execDumpDiscard at e; injection e with e; rw [← e]
  refine portWrite_touch _ _ _ (fun x t => ?_) (Touch.refl _ _)
  unfold rcvWrite; rw [if_neg (by decide), if_neg (by decide)]; dsimp only; rw [if_pos (by decide)]
  repeat' first | (simp (maxDischargeDepth := 80) only [perform_touch, dumpDiscard_touch, off_RCV_DUMP_CTL_DISCARD, ite_touch, Touch.refl, Nat.reduceOr]; done) | split

theorem execHeartbeatPulse_touch (c : Nat) (acc : Acc) {s t : State} (e : execHeartbeatPulse c acc s = .next t) : Touch 0x638000100000040000005b0 s t := by
  unfold execHeartbeatPulse at e; injection e with e; rw [← e]
  refine portWrite_touch _ _ _ (fun x t => ?_) (Touch.refl _ _)
  unfold rcvWrite; rw [if_neg (by decide), if_pos (by decide)]
  repeat' first | (simp (maxDischargeDepth := 80) only [perform_touch, coreBeat_touch, off_RCV_HB_PULSE_PULSE, ite_touch, Touch.refl, Nat.reduceOr]; done) | split

theorem execHoldoverEnter_touch (acc : Acc) {s t : State} (e : execHoldoverEnter acc s = .next t) : Touch 0x638080100000040021a15b0 s t := by
  unfold execHoldoverEnter at e; injection e with e; rw [← e]
  refine portWrite_touch _ _ _ (fun x t => ?_) (Touch.refl _ _)
  unfold rcvWrite; rw [if_neg (by decide), if_neg (by decide)]; dsimp only; rw [if_neg (by decide), if_pos (by decide)]
  repeat' first | (simp (maxDischargeDepth := 80) only [perform_touch, holdEnter_touch, holdExit_touch, off_RCV_HOLD_CTL_ENTER, ite_touch, Touch.refl, Nat.reduceOr]; done) | split

theorem execHoldoverExit_touch (acc : Acc) {s t : State} (e : execHoldoverExit acc s = .next t) : Touch 0x638080100000040021a15b0 s t := by
  unfold execHoldoverExit at e; injection e with e; rw [← e]
  refine portWrite_touch _ _ _ (fun x t => ?_) (Touch.refl _ _)
  unfold rcvWrite; rw [if_neg (by decide), if_neg (by decide)]; dsimp only; rw [if_neg (by decide), if_pos (by decide)]
  repeat' first | (simp (maxDischargeDepth := 80) only [perform_touch, holdEnter_touch, holdExit_touch, off_RCV_HOLD_CTL_ENTER, ite_touch, Touch.refl, Nat.reduceOr]; done) | split

/-! Epochs. -/

theorem execEopEvent_touch (input : Nat) (n : Nat) {s s' : State} (e : execEopEvent input n s = .next s') : Touch 0x61801000000004000020480 s s' := by
  unfold execEopEvent at e; injection e with e; rw [← e]; simp only [eopEvent_touch, Touch.refl, Nat.reduceOr]

theorem execEpochCut_touch (k : Nat) {s s' : State} (e : execEpochCut k s = .next s') : Touch 0x618490800000040a29b1c80 s s' := by
  unfold execEpochCut at e; injection e with e; rw [← e]; simp only [epochCut_touch, Touch.refl, ite_touch, Nat.reduceOr]

theorem execCutComplete_touch {s s' : State} (e : execCutComplete s = .next s') : Touch 0x61c0d0000000040061a1480 s s' := by
  unfold execCutComplete at e; injection e with e; rw [← e]; simp only [cutComplete_touch, Touch.refl, ite_touch, Nat.reduceOr]

theorem execShadowPass_touch (page : Nat) (answered : Bool) {s s' : State} (e : execShadowPass page answered s = .next s') : Touch 0x61001000000004000020480 s s' := by
  unfold execShadowPass at e; injection e with e; rw [← e]; simp only [shadowPass_touch, Touch.refl, Nat.reduceOr]

/-! Sync. -/

theorem execSyncSignal_touch (acc : Acc) {s s' : State} (e : execSyncSignal acc s = .next s') : Touch 0x730000100000040000005b0 s s' := by
  unfold execSyncSignal at e; injection e with e; rw [← e]; simp (maxDischargeDepth := 80) only [portWrite_touch, synWrite_touch, off_SYN_SIGNAL_OBJECT, implies_true, Touch.refl, Nat.reduceOr]

theorem execSyncSet_touch (o : Nat) (acc : Acc) {s s' : State} (e : execSyncSet o acc s = .next s') : Touch 0x730000100000040000005b0 s s' := by
  unfold execSyncSet at e; injection e with e; rw [← e]; simp (maxDischargeDepth := 80) only [portWrite_touch, synWrite_touch, off_SYN_OBJ_VIEW2_SET, implies_true, Touch.refl, Nat.reduceOr]

theorem execSyncViolation_touch (acc : Acc) {s s' : State} (e : execSyncViolation acc s = .next s') : Touch 0x730000100000040000005b0 s s' := by
  unfold execSyncViolation at e; injection e with e; rw [← e]; simp (maxDischargeDepth := 80) only [portWrite_touch, synWrite_touch, off_SYN_VIOLATION_OBJECT, implies_true, Touch.refl, Nat.reduceOr]

theorem execSyncWait_touch (c : Nat) (port : Port) {s s' : State} (e : execSyncWait c port s = .next s') : Touch 0x10000000000001000000010 s s' := by
  unfold execSyncWait at e; injection e with e; rw [← e]; simp only [synWait_touch, Touch.refl, Nat.reduceOr]

theorem execSyncWaitGrant_touch (o : Nat) {s s' : State} (e : execSyncWaitGrant o s = .next s') : Touch 0x10000000000001000000010 s s' := by
  unfold execSyncWaitGrant at e; injection e with e; rw [← e]; simp only [synGrant_touch, Touch.refl, Nat.reduceOr]

theorem execSyncWaitTimeout_touch (c : Nat) {s s' : State} (e : execSyncWaitTimeout c s = .next s') : Touch 0x71000000000005000030490 s s' := by
  unfold execSyncWaitTimeout at e; injection e with e; rw [← e]; simp only [synTimeout_touch, Touch.refl, Nat.reduceOr]

/-! Interrupt. -/

theorem execIrqPendAck_touch (w : Nat) (acc : Acc) {s s' : State} (e : execIrqPendAck w acc s = .next s') : Touch 0x630000100000040000005b0 s s' := by
  unfold execIrqPendAck at e; injection e with e; rw [← e]; simp (maxDischargeDepth := 80) only [portWrite_touch, irqWrite_touch, off_IRQ_PEND_PEND, implies_true, Touch.refl, Nat.reduceOr]

theorem execIrqDone_touch (acc : Acc) {s s' : State} (e : execIrqDone acc s = .next s') : Touch 0x630000100000040000005b0 s s' := by
  unfold execIrqDone at e; injection e with e; rw [← e]; simp (maxDischargeDepth := 80) only [portWrite_touch, irqWrite_touch, off_IRQ_DONE_SOURCE, implies_true, Touch.refl, Nat.reduceOr]

theorem execIrqSwSet_touch (acc : Acc) {s s' : State} (e : execIrqSwSet acc s = .next s') : Touch 0x630000100000040000005b0 s s' := by
  unfold execIrqSwSet at e; injection e with e; rw [← e]; simp (maxDischargeDepth := 80) only [portWrite_touch, irqWrite_touch, off_IRQ_SW_SET_SOURCE, implies_true, Touch.refl, Nat.reduceOr]

theorem execIrqMaskWrite_touch (w : Nat) (acc : Acc) {s s' : State} (e : execIrqMaskWrite w acc s = .next s') : Touch 0x630000100000040000005b0 s s' := by
  unfold execIrqMaskWrite at e; injection e with e; rw [← e]; simp (maxDischargeDepth := 80) only [portWrite_touch, irqWrite_touch, off_IRQ_MASK_MASK, implies_true, Touch.refl, Nat.reduceOr]

theorem execIrqHoldoffExpire_touch (g : Nat) {s s' : State} (e : execIrqHoldoffExpire g s = .next s') : Touch 0x60000000000004000030400 s s' := by
  unfold execIrqHoldoffExpire at e; injection e with e; rw [← e]; simp only [holdoffExpire_touch, Touch.refl, Nat.reduceOr]

/-! Registers. -/

theorem execGuestbookAccept_touch {s s' : State} (e : execGuestbookAccept s = .next s') : Touch 0x6140100000000c800020480 s s' := by
  unfold execGuestbookAccept at e; injection e with e; rw [← e]; simp only [gbkAccept_touch, Touch.refl, Nat.reduceOr]

end Sys2Proof.Machine
end

