-- ==== Sys2Proof/Laws/Footprint.lean ====
section
/-!
SUPPORT. From the mask of `Touch` to the footprint of a command (Safety.lean).
-/
namespace Sys2Proof.Machine

/-- The bit of a part in a mask. -/
def StatePart.bit : StatePart → Nat
  | .outbox => 2
  | .rsp => 4
  | .rspTag => 5
  | .clk => 6
  | .gbk => 7
  | .ldg => 8
  | .sbx => 9
  | .irq => 10
  | .eop => 11
  | .mmp => 12
  | .fbp => 13
  | .sep => 14
  | .ksp => 15
  | .tim => 16
  | .tly => 17
  | .ctl => 18
  | .ink => 19
  | .crv => 20
  | .sram => 21
  | .fwSram => 22
  | .itn => 23
  | .tpi => 24
  | .hld => 25
  | .due => 26
  | .tre => 27
  | .arr => 28
  | .ver => 29
  | .flt => 30
  | .det => 31
  | .cur => 32
  | .cmp => 33
  | .prt => 34
  | .rcv => 35
  | .syn => 36
  | .cores => 37
  | .pwr => 38
  | .ltn => 39
  | .dbg => 40

/-- A footprint names all that a mask does. -/
def Footprint.covers (f : Footprint) (m : Nat) : Bool :=
  decide (m < 2 ^ 192) && ((List.range 128).all fun p => !m.testBit (64 + p) || f.pages.contains p)
    && ([.outbox, .rsp, .rspTag, .clk, .gbk, .ldg, .sbx, .irq, .eop, .mmp, .fbp, .sep, .ksp, .tim, .tly, .ctl, .ink, .crv, .sram, .fwSram, .itn, .tpi, .hld, .due, .tre, .arr, .ver, .flt, .det, .cur, .cmp, .prt, .rcv, .syn, .cores, .pwr, .ltn, .dbg].all fun p : StatePart => !m.testBit p.bit || f.parts.contains p)

theorem same_of_touch {m : Nat} {s t : State} (h : Touch m s t) (p : StatePart) (e : m.testBit p.bit = false) : p.same s t := by
  cases p
  exacts [h.outbox e, h.rsp e, h.rspTag e, h.clk e, h.gbk e, h.ldg e, h.sbx e, h.irq e, h.eop e, h.mmp e, h.fbp e, h.sep e, h.ksp e, h.tim e, h.tly e, h.ctl e, h.ink e, h.crv e, h.sram e, h.fwSram e, h.itn e, h.tpi e, h.hld e, h.due e, h.tre e, h.arr e, h.ver e, h.flt e, h.det e, h.cur e, h.cmp e, h.prt e, h.rcv e, h.syn e, h.cores e, h.pwr e, h.ltn e, h.dbg e]

theorem outside_of_touch {m : Nat} {s t : State} {f : Footprint} (h : Touch m s t) (c : f.covers m = true) : Outside f s t := by
  simp only [Footprint.covers, Bool.and_eq_true, decide_eq_true_eq, List.all_eq_true, List.mem_range, Bool.or_eq_true, Bool.not_eq_true',
    List.contains_iff_mem] at c
  obtain ⟨⟨hm, hp⟩, hq⟩ := c
  refine ⟨fun a ha => h.regs a ?_, fun p hp' => same_of_touch h p ?_⟩
  · by_cases k : a / 65536 < 128
    · exact (hp _ k).resolve_right ha
    · exact Nat.testBit_lt_two_pow (lt_of_lt_of_le hm (Nat.pow_le_pow_right (by decide) (by omega)))
  · exact (hq p (by cases p <;> decide)).resolve_right hp'

end Sys2Proof.Machine
end

