-- ==== Sys2Proof/Laws/KeepsPorts.lean ====
section
/-!
SUPPORT. What the shared operations and the ports keep: one lemma for each operation.
-/
namespace Sys2Proof.Machine
set_option linter.unusedSimpArgs false
set_option linter.unusedTactic false
set_option linter.unreachableTactic false

/-! Ops. -/

theorem set_keeps {o s : State} (f : Field) (x : Nat) (h : Keeps o s) : Keeps o (set s f x) := by
  unfold set; simp only [wr_keeps, keeps_mk, implies_true, Keeps.refl, foldl_keeps, ite_keeps, foldl1_keeps, id_eq, h]

theorem bump_keeps {o s : State} (f : Field) (n : Nat) (h : Keeps o s) : Keeps o (bump s f n) := by
  unfold bump; simp only [set_keeps, keeps_mk, implies_true, Keeps.refl, foldl_keeps, ite_keeps, foldl1_keeps, id_eq, h]

theorem setBit_keeps {o s : State} (f : Field) (i : Nat) (b : Bool) (h : Keeps o s) : Keeps o (setBit s f i b) := by
  unfold setBit; simp only [set_keeps, keeps_mk, implies_true, Keeps.refl, foldl_keeps, ite_keeps, foldl1_keeps, id_eq, h]

theorem lastWake_keeps {o s : State} (src src_us phase : Nat) (h : Keeps o s) : Keeps o (lastWake src src_us phase s) := by
  unfold lastWake; simp only [wr_keeps, keeps_mk, implies_true, Keeps.refl, foldl_keeps, ite_keeps, foldl1_keeps, id_eq, h]

theorem wake_keeps {o s : State} (src : Nat) (h : Keeps o s) : Keeps o (wake src s) := by
  unfold wake; simp (maxDischargeDepth := 60) only [lastWake_keeps, keeps_mk, implies_true, Keeps.refl, foldl_keeps, ite_keeps, foldl1_keeps, id_eq, h]

theorem workWake_keeps {o s : State} (page : Nat) (h : Keeps o s) : Keeps o (workWake page s) := by
  unfold workWake; simp only [wake_keeps, keeps_mk, implies_true, Keeps.refl, foldl_keeps, ite_keeps, foldl1_keeps, id_eq, h]

theorem groupRise_keeps {o s : State} (g : Nat) (h : Keeps o s) : Keeps o (groupRise s g) := by
  unfold groupRise; simp (maxDischargeDepth := 60) only [setBit_keeps, wake_keeps, keeps_mk, implies_true, Keeps.refl, foldl_keeps, ite_keeps, foldl1_keeps, id_eq, h]

theorem groupUpdate_keeps {o s : State} (free : Bool) (g : Nat) (h : Keeps o s) : Keeps o (groupUpdate free g s) := by
  unfold groupUpdate; split <;> simp only [groupRise_keeps, setBit_keeps, keeps_mk, implies_true, Keeps.refl, foldl_keeps, ite_keeps, foldl1_keeps, id_eq, h]

theorem raiseIrq_keeps {o s : State} (n : Nat) (h : Keeps o s) : Keeps o (raiseIrq n s) := by
  unfold raiseIrq; simp (maxDischargeDepth := 60) only [setBit_keeps, groupRise_keeps, keeps_mk, implies_true, Keeps.refl, foldl_keeps, ite_keeps, foldl1_keeps, id_eq, h]

theorem flag_keeps {o s : State} (f : Field) (h : Keeps o s) : Keeps o (flag f s) := by
  unfold flag; split <;> simp only [raiseIrq_keeps, set_keeps, keeps_mk, implies_true, Keeps.refl, foldl_keeps, ite_keeps, foldl1_keeps, id_eq, h]

theorem flagBit_keeps {o s : State} (f : Field) (i : Nat) (h : Keeps o s) : Keeps o (flagBit f i s) := by
  unfold flagBit; split <;> simp only [raiseIrq_keeps, setBit_keeps, keeps_mk, implies_true, Keeps.refl, foldl_keeps, ite_keeps, foldl1_keeps, id_eq, h]

theorem record_keeps {o s : State} (r : Raised) (h : Keeps o s) : Keeps o (record r s) := by
  unfold record; simp (maxDischargeDepth := 60) only [flag_keeps, bump_keeps, set_keeps, keeps_mk, implies_true, Keeps.refl, foldl_keeps, ite_keeps, foldl1_keeps, id_eq, h]

theorem note_keeps {o s : State} (code cls payload : Nat) (h : Keeps o s) : Keeps o (note code cls payload s) := by
  unfold note; simp only [record_keeps, keeps_mk, implies_true, Keeps.refl, foldl_keeps, ite_keeps, foldl1_keeps, id_eq, h]

theorem report_keeps {o s : State} (f : Field) (code cls payload : Nat) (h : Keeps o s) : Keeps o (report f code cls payload s) := by
  unfold report; simp only [note_keeps, flag_keeps, keeps_mk, implies_true, Keeps.refl, foldl_keeps, ite_keeps, foldl1_keeps, id_eq, h]

theorem countUp_keeps {o s : State} (i n : Nat) (h : Keeps o s) : Keeps o (countUp i n s) := by
  unfold countUp; simp only [keeps_mk, implies_true, Keeps.refl, foldl_keeps, ite_keeps, foldl1_keeps, id_eq, h]

theorem prod_keeps {o s : State} (i n : Nat) (h : Keeps o s) : Keeps o (prod i n s) := by
  unfold prod; simp only [countUp_keeps, keeps_mk, implies_true, Keeps.refl, foldl_keeps, ite_keeps, foldl1_keeps, id_eq, h]

theorem ledger_keeps {o s : State} (kind port priv flags init target detail : Nat) (old new : Word) (h : Keeps o s) : Keeps o (ledger kind port priv flags init target detail old new s) := by
  unfold ledger; simp (maxDischargeDepth := 60) only [set_keeps, keeps_mk, implies_true, Keeps.refl, foldl_keeps, ite_keeps, foldl1_keeps, id_eq, h]

theorem ledgerPass_keeps {o s : State} (h : Keeps o s) : Keeps o (ledgerPass s) := by
  unfold ledgerPass; repeat' first | (simp (maxDischargeDepth := 60) only [set_keeps, bump_keeps, note_keeps, keeps_mk, implies_true, Keeps.refl, foldl_keeps, ite_keeps, foldl1_keeps, id_eq, h]; done) | split

theorem post_keeps {o s : State} (a seq : Nat) (rest : Word) (h : Keeps o s) : Keeps o (post a seq rest s) := by
  unfold post; simp only [raiseIrq_keeps, wr_keeps, keeps_mk, implies_true, Keeps.refl, foldl_keeps, ite_keeps, foldl1_keeps, id_eq, h]

theorem wrongSeq_keeps {o s : State} (a : Nat) (h : Keeps o s) : Keeps o (wrongSeq a s) := by
  unfold wrongSeq; simp only [record_keeps, keeps_mk, implies_true, Keeps.refl, foldl_keeps, ite_keeps, foldl1_keeps, id_eq, h]

theorem undefinedField_keeps {o s : State} (a v : Nat) (h : Keeps o s) : Keeps o (undefinedField a v s) := by
  unfold undefinedField; simp only [record_keeps, keeps_mk, implies_true, Keeps.refl, foldl_keeps, ite_keeps, foldl1_keeps, id_eq, h]

theorem syncSignal_keeps {o_ s : State} (o amount agent : Nat) (h : Keeps o_ s) : Keeps o_ (syncSignal o amount agent s) := by
  unfold syncSignal; simp (maxDischargeDepth := 60) only [report_keeps, set_keeps, keeps_mk, implies_true, Keeps.refl, foldl_keeps, ite_keeps, foldl1_keeps, id_eq, h]

theorem syncEvent_keeps {o s : State} (e agent : Nat) (h : Keeps o s) : Keeps o (syncEvent e agent s) := by
  unfold syncEvent; simp (maxDischargeDepth := 60) only [syncSignal_keeps, keeps_mk, implies_true, Keeps.refl, foldl_keeps, ite_keeps, foldl1_keeps, id_eq, h]

theorem busyFor_keeps {o s : State} (i : Nat) (h : Keeps o s) : Keeps o (busyFor i s) := by
  unfold busyFor; simp only [prod_keeps, tickFree_keeps, keeps_mk, implies_true, Keeps.refl, foldl_keeps, ite_keeps, foldl1_keeps, id_eq, h]

/-! Flags. -/

theorem overrun_keeps {o s : State} (page n : Nat) (h : Keeps o s) : Keeps o (overrun page n s) := by
  unfold overrun; simp only [bump_keeps, keeps_mk, implies_true, Keeps.refl, foldl_keeps, ite_keeps, foldl1_keeps, id_eq, h]

theorem accessRecord_keeps {o s : State} (code a : Nat) (acc : Acc) (h : Keeps o s) : Keeps o (accessRecord code a acc s) := by
  unfold accessRecord; simp only [record_keeps, keeps_mk, implies_true, Keeps.refl, foldl_keeps, ite_keeps, foldl1_keeps, id_eq, h]

theorem loadErrAddr_keeps {o s : State} (a : Nat) (acc : Acc) (h : Keeps o s) : Keeps o (loadErrAddr a acc s) := by
  unfold loadErrAddr; simp only [wr_keeps, keeps_mk, implies_true, Keeps.refl, foldl_keeps, ite_keeps, foldl1_keeps, id_eq, h]

theorem answer_keeps {o s : State} (st : Nat) (acc : Acc) (h : Keeps o s) : Keeps o (answer st acc s) := by
  unfold answer; simp only [keeps_mk, implies_true, Keeps.refl, foldl_keeps, ite_keeps, foldl1_keeps, id_eq, h]

theorem refuseWrite_keeps {o s : State} (c a : Nat) (acc : Acc) (h : Keeps o s) : Keeps o (refuseWrite c a acc s) := by
  unfold refuseWrite; repeat' first | (simp (maxDischargeDepth := 60) only [answer_keeps, loadErrAddr_keeps, flag_keeps, accessRecord_keeps, keeps_mk, implies_true, Keeps.refl, foldl_keeps, ite_keeps, foldl1_keeps, id_eq, h]; done) | with_reducible (refine ite_keeps ?_ ?_) | with_reducible (refine foldl_keeps (fun _ _ => ?_) ?_) | split

/-! Access. -/

theorem ledgerReg_keeps {o s : State} (a : Nat) (acc : Acc) (old : Word) (h : Keeps o s) : Keeps o (ledgerReg a acc old s) := by
  unfold ledgerReg; simp only [ledger_keeps, keeps_mk, implies_true, Keeps.refl, foldl_keeps, ite_keeps, foldl1_keeps, id_eq, h]

theorem perform_keeps {o s : State} (a : Nat) (acc : Acc) (h : Keeps o s) : Keeps o (perform a acc s) := by
  unfold perform; repeat' first | (simp (maxDischargeDepth := 60) only [wr_keeps, raiseIrq_keeps, overrun_keeps, ledgerReg_keeps, keeps_mk, implies_true, Keeps.refl, foldl_keeps, ite_keeps, foldl1_keeps, id_eq, h]; done) | with_reducible (refine ite_keeps ?_ ?_) | with_reducible (refine foldl_keeps (fun _ _ => ?_) ?_) | split

theorem portWrite_keeps {o s : State} (unit : Nat → Acc → State → State) (a0 : Nat) (acc0 : Acc) (hunit : ∀ x0 x1 t, Keeps t (unit x0 x1 t)) (h : Keeps o s) : Keeps o (portWrite unit a0 acc0 s) := by
  have kunit {o t : State} (h : Keeps o t) (x0 : Nat) (x1 : Acc) : Keeps o (unit x0 x1 t) := h.trans (hunit _ _ _)
  unfold portWrite; repeat' first | (simp (maxDischargeDepth := 60) only [wake_keeps, ledgerPass_keeps, answer_keeps, workWake_keeps, refuseWrite_keeps, keeps_mk, implies_true, Keeps.refl, foldl_keeps, ite_keeps, foldl1_keeps, id_eq, h, kunit]; done) | with_reducible (refine ite_keeps ?_ ?_) | with_reducible (refine foldl_keeps (fun _ _ => ?_) ?_) | split | (dsimp only; with_reducible (refine ite_keeps ?_ ?_)) | (dsimp only; split) | ((try dsimp only); first | with_reducible (apply wake_keeps) | with_reducible (apply ledgerPass_keeps) | with_reducible (apply answer_keeps) | with_reducible (apply workWake_keeps) | with_reducible (apply refuseWrite_keeps) | with_reducible (apply keeps_mk))

theorem bringing_keeps {o s : State} (buf : Option (List Byte)) (step : Option StepEffect) (f : State → State) (hf : ∀  t, Keeps t (f  t)) (h : Keeps o s) : Keeps o (bringing buf step f s) := by
  have kf {o t : State} (h : Keeps o t) : Keeps o (f  t) := h.trans (hf  _)
  unfold bringing; simp (maxDischargeDepth := 60) only [keeps_mk, implies_true, Keeps.refl, foldl_keeps, ite_keeps, foldl1_keeps, id_eq, h, kf]

theorem consume_keeps {o s : State} (a : Nat) (acc : Acc) (h : Keeps o s) : Keeps o (consume a acc s) := by
  unfold consume; simp (maxDischargeDepth := 60) only [wr_keeps, ledgerReg_keeps, wrongSeq_keeps, keeps_mk, implies_true, Keeps.refl, foldl_keeps, ite_keeps, foldl1_keeps, id_eq, h]

theorem startDone_keeps {o s : State} (f : Field) (h : Keeps o s) : Keeps o (startDone f s) := by
  unfold startDone; simp only [set_keeps, keeps_mk, implies_true, Keeps.refl, foldl_keeps, ite_keeps, foldl1_keeps, id_eq, h]

/-! Innkeeper. -/

theorem setInkQ_keeps {o s : State} (q : Nat) (v : InkQ) (h : Keeps o s) : Keeps o (setInkQ q v s) := by
  unfold setInkQ; simp only [keeps_mk, implies_true, Keeps.refl, foldl_keeps, ite_keeps, foldl1_keeps, id_eq, h]

theorem showDepth_keeps {o s : State} (q : Nat) (h : Keeps o s) : Keeps o (showDepth q s) := by
  unfold showDepth; simp only [set_keeps, keeps_mk, implies_true, Keeps.refl, foldl_keeps, ite_keeps, foldl1_keeps, id_eq, h]

theorem pushItem_keeps {o s : State} (q : Nat) (it : InkItem) (h : Keeps o s) : Keeps o (pushItem q it s) := by
  unfold pushItem; simp only [wr_keeps, showDepth_keeps, setInkQ_keeps, keeps_mk, implies_true, Keeps.refl, foldl_keeps, ite_keeps, foldl1_keeps, id_eq, h]

theorem lose_keeps {o s : State} (cls : Nat) (h : Keeps o s) : Keeps o (lose cls s) := by
  unfold lose; simp only [keeps_mk, implies_true, Keeps.refl, foldl_keeps, ite_keeps, foldl1_keeps, id_eq, h]

theorem sendPkt_keeps {o s : State} (p : Pkt) (dstLevel dst : Nat) (child : Option Nat) (restore : Bool) (h : Keeps o s) : Keeps o (sendPkt p dstLevel dst child restore s) := by
  unfold sendPkt; repeat' first | (simp (maxDischargeDepth := 60) only [lose_keeps, prod_keeps, workWake_keeps, report_keeps, pushItem_keeps, keeps_mk, implies_true, Keeps.refl, foldl_keeps, ite_keeps, foldl1_keeps, id_eq, h]; done) | with_reducible (refine ite_keeps ?_ ?_) | with_reducible (refine foldl_keeps (fun _ _ => ?_) ?_) | split

theorem roomResume_keeps {o s : State} (q : Nat) (h : Keeps o s) : Keeps o (roomResume q s) := by
  unfold roomResume; repeat' first | (simp only [pushItem_keeps, keeps_mk, implies_true, Keeps.refl, foldl_keeps, ite_keeps, foldl1_keeps, id_eq, h]; done) | split

theorem showPause_keeps {o s : State} (key : Nat) (h : Keeps o s) : Keeps o (showPause key s) := by
  unfold showPause; simp only [setBit_keeps, keeps_mk, implies_true, Keeps.refl, foldl_keeps, ite_keeps, foldl1_keeps, id_eq, h]

theorem ladderPause_keeps {o s : State} (q : Nat) (wr : Bool) (h : Keeps o s) : Keeps o (ladderPause q wr s) := by
  unfold ladderPause; repeat' first | (simp (maxDischargeDepth := 60) only [showPause_keeps, record_keeps, flag_keeps, bump_keeps, keeps_mk, implies_true, Keeps.refl, foldl_keeps, ite_keeps, foldl1_keeps, id_eq, h]; done) | with_reducible (refine ite_keeps ?_ ?_) | with_reducible (refine foldl_keeps (fun _ _ => ?_) ?_) | split | (dsimp only; with_reducible (refine ite_keeps ?_ ?_)) | (dsimp only; split)

theorem endRisk_keeps {o s : State} (r : InkRisk) (h : Keeps o s) : Keeps o (endRisk s r) := by
  unfold endRisk; simp (maxDischargeDepth := 60) only [showPause_keeps, note_keeps, keeps_mk, implies_true, Keeps.refl, foldl_keeps, ite_keeps, foldl1_keeps, id_eq, h]

theorem endRisks_keeps {o s : State} (key : Nat) (h : Keeps o s) : Keeps o (endRisks key s) := by
  unfold endRisks; simp only [endRisk_keeps, keeps_mk, implies_true, Keeps.refl, foldl_keeps, ite_keeps, foldl1_keeps, id_eq, h]

theorem popHead_keeps {o s : State} (key q : Nat) (h : Keeps o s) : Keeps o (popHead key q s) := by
  unfold popHead; simp (maxDischargeDepth := 60) only [wr_keeps, setInkQ_keeps, showDepth_keeps, keeps_mk, implies_true, Keeps.refl, foldl_keeps, ite_keeps, foldl1_keeps, id_eq, h]

theorem advanceSeq_keeps {o s : State} (k : Nat × Nat × Nat) (n : Nat) (h : Keeps o s) : Keeps o (advanceSeq k n s) := by
  unfold advanceSeq; simp only [keeps_mk, implies_true, Keeps.refl, foldl_keeps, ite_keeps, foldl1_keeps, id_eq, h]

theorem setAnnounce_keeps {o s : State} (a : Announce) (h : Keeps o s) : Keeps o (setAnnounce a s) := by
  unfold setAnnounce; simp only [keeps_mk, implies_true, Keeps.refl, foldl_keeps, ite_keeps, foldl1_keeps, id_eq, h]

theorem countAnnounce_keeps {o s : State} (p : Pkt) (dst seq : Nat) (h : Keeps o s) : Keeps o (countAnnounce p dst seq s) := by
  unfold countAnnounce; simp only [setAnnounce_keeps, keeps_mk, implies_true, Keeps.refl, foldl_keeps, ite_keeps, foldl1_keeps, id_eq, h]

theorem timeSent_keeps {o s : State} (lane : Nat) (p : Pkt) (dstLevel dst : Nat) (h : Keeps o s) : Keeps o (timeSent lane p dstLevel dst s) := by
  unfold timeSent; repeat' first | (simp (maxDischargeDepth := 60) only [prod_keeps, sendPkt_keeps, keeps_mk, implies_true, Keeps.refl, foldl_keeps, ite_keeps, foldl1_keeps, id_eq, h]; done) | with_reducible (refine ite_keeps ?_ ?_) | with_reducible (refine foldl_keeps (fun _ _ => ?_) ?_) | split | (dsimp only; with_reducible (refine ite_keeps ?_ ?_)) | (dsimp only; split)

theorem sendSelected_keeps {o s : State} (lane q : Nat) (it : InkItem) (p : Pkt) (dstLevel dst : Nat) (h : Keeps o s) : Keeps o (sendSelected lane q it p dstLevel dst s) := by
  unfold sendSelected; simp (maxDischargeDepth := 60) only [popHead_keeps, countAnnounce_keeps, advanceSeq_keeps, set_keeps, emit_keeps, prod_keeps, timeSent_keeps, keeps_mk, implies_true, Keeps.refl, foldl_keeps, ite_keeps, foldl1_keeps, id_eq, h]

theorem showMmp_keeps {o s : State} (h : Keeps o s) : Keeps o (showMmp s) := by
  unfold showMmp; simp only [set_keeps, keeps_mk, implies_true, Keeps.refl, foldl_keeps, ite_keeps, foldl1_keeps, id_eq, h]

theorem issueSelected_keeps {o s : State} (key q : Nat) (r : MemReq) (h : Keeps o s) : Keeps o (issueSelected key q r s) := by
  unfold issueSelected; simp (maxDischargeDepth := 60) only [popHead_keeps, emit_keeps, showMmp_keeps, keeps_mk, implies_true, Keeps.refl, foldl_keeps, ite_keeps, foldl1_keeps, id_eq, h]

theorem inkSelect_keeps {o s : State} (key : Nat) (h : Keeps o s) : Keeps o (inkSelect key s) := by
  unfold inkSelect; repeat' first | (simp only [endRisks_keeps, sendSelected_keeps, issueSelected_keeps, keeps_mk, implies_true, Keeps.refl, foldl_keeps, ite_keeps, foldl1_keeps, id_eq, h]; done) | split

theorem refill_keeps {o s : State} (h : Keeps o s) : Keeps o (refill s) := by
  unfold refill; simp (maxDischargeDepth := 60) only [setInkQ_keeps, keeps_mk, implies_true, Keeps.refl, foldl_keeps, ite_keeps, foldl1_keeps, id_eq, h]

theorem fillBuckets_keeps {o s : State} (h : Keeps o s) : Keeps o (fillBuckets s) := by
  unfold fillBuckets; simp (maxDischargeDepth := 60) only [setInkQ_keeps, keeps_mk, implies_true, Keeps.refl, foldl_keeps, ite_keeps, foldl1_keeps, id_eq, h]

theorem closeSketches_keeps {o s : State} (epoch : Nat) (h : Keeps o s) : Keeps o (closeSketches epoch s) := by
  unfold closeSketches; simp only [keeps_mk, implies_true, Keeps.refl, foldl_keeps, ite_keeps, foldl1_keeps, id_eq, h]

theorem police_keeps {o s : State} (lane vc beats : Nat) (h : Keeps o s) : Keeps o (police lane vc beats s).1 := by
  unfold police; repeat' first | (simp (maxDischargeDepth := 60) only [setInkQ_keeps, record_keeps, flag_keeps, prod_keeps, keeps_mk, implies_true, Keeps.refl, foldl_keeps, ite_keeps, h]; done) | with_reducible (refine ite_keeps ?_ ?_) | with_reducible (refine foldl_keeps (fun _ _ => ?_) ?_) | split | (dsimp only; with_reducible (refine ite_keeps ?_ ?_)) | (dsimp only; split)

theorem inkWrite_keeps {o s : State} (a : Nat) (acc : Acc) (h : Keeps o s) : Keeps o (inkWrite a acc s) := by
  unfold inkWrite; simp (maxDischargeDepth := 60) only [report_keeps, perform_keeps, set_keeps, keeps_mk, implies_true, Keeps.refl, foldl_keeps, ite_keeps, foldl1_keeps, id_eq, h]

/-! Fabric. -/

theorem setRx_keeps {o s : State} (lane vc : Nat) (v : RxVc) (h : Keeps o s) : Keeps o (setRx lane vc v s) := by
  unfold setRx; simp only [keeps_mk, implies_true, Keeps.refl, foldl_keeps, ite_keeps, foldl1_keeps, id_eq, h]

theorem giveCredit_keeps {o s : State} (lane vc n : Nat) (h : Keeps o s) : Keeps o (giveCredit lane vc n s) := by
  unfold giveCredit; split <;> simp only [emit_keeps, setRx_keeps, keeps_mk, implies_true, Keeps.refl, foldl_keeps, ite_keeps, foldl1_keeps, id_eq, h]

theorem grantVc_keeps {o s : State} (lane vc : Nat) (h : Keeps o s) : Keeps o (grantVc lane s vc) := by
  unfold grantVc; simp only [giveCredit_keeps, keeps_mk, implies_true, Keeps.refl, foldl_keeps, ite_keeps, foldl1_keeps, id_eq, h]

theorem grantLane_keeps {o s : State} (lane : Nat) (h : Keeps o s) : Keeps o (grantLane lane s) := by
  unfold grantLane; simp only [grantVc_keeps, keeps_mk, implies_true, Keeps.refl, foldl_keeps, ite_keeps, foldl1_keeps, id_eq, h]

theorem grantAll_keeps {o s : State} (h : Keeps o s) : Keeps o (grantAll s) := by
  unfold grantAll; simp (maxDischargeDepth := 60) only [grantLane_keeps, keeps_mk, implies_true, Keeps.refl, foldl_keeps, ite_keeps, foldl1_keeps, id_eq, h]

theorem loadFbpErr_keeps {o s : State} (src lvl lane vc code : Nat) (h : Keeps o s) : Keeps o (loadFbpErr src lvl lane vc code s) := by
  unfold loadFbpErr; simp only [wr_keeps, keeps_mk, implies_true, Keeps.refl, foldl_keeps, ite_keeps, foldl1_keeps, id_eq, h]

theorem txCreditReturn_keeps {o s : State} (lane vc cnt : Nat) (h : Keeps o s) : Keeps o (txCreditReturn lane vc cnt s) := by
  unfold txCreditReturn; simp (maxDischargeDepth := 60) only [set_keeps, report_keeps, loadFbpErr_keeps, keeps_mk, implies_true, Keeps.refl, foldl_keeps, ite_keeps, foldl1_keeps, id_eq, h]

theorem moveOut_keeps {o s : State} (lane vc : Nat) (h : Keeps o s) : Keeps o (moveOut lane vc s) := by
  unfold moveOut; simp (maxDischargeDepth := 60) only [setRx_keeps, giveCredit_keeps, keeps_mk, implies_true, Keeps.refl, foldl_keeps, ite_keeps, foldl1_keeps, id_eq, h]

theorem moveOutN_keeps {o s : State} (lane vc n : Nat) (h : Keeps o s) : Keeps o (moveOutN lane vc n s) := by
  induction n generalizing s with
  | zero => exact h
  | succ n ih => exact ih (moveOut_keeps _ _ h)

theorem rxCreditReturn_keeps {o s : State} (lane vc beats : Nat) (h : Keeps o s) : Keeps o (rxCreditReturn lane vc beats s) := by
  unfold rxCreditReturn; simp (maxDischargeDepth := 60) only [moveOutN_keeps, grantLane_keeps, keeps_mk, implies_true, Keeps.refl, foldl_keeps, ite_keeps, foldl1_keeps, id_eq, h]

theorem clearRx_keeps {o s : State} (lane : Nat) (h : Keeps o s) : Keeps o (clearRx lane s) := by
  unfold clearRx; simp only [keeps_mk, implies_true, Keeps.refl, foldl_keeps, ite_keeps, foldl1_keeps, id_eq, h]

theorem laneLinkUp_keeps {o s : State} (lane : Nat) (h : Keeps o s) : Keeps o (laneLinkUp lane s) := by
  unfold laneLinkUp; simp (maxDischargeDepth := 60) only [wake_keeps, clearRx_keeps, setBit_keeps, grantLane_keeps, keeps_mk, implies_true, Keeps.refl, foldl_keeps, ite_keeps, foldl1_keeps, id_eq, h]

theorem laneLinkDown_keeps {o s0 : State} (lane : Nat) (h : Keeps o s0) : Keeps o (laneLinkDown lane s0) := by
  unfold laneLinkDown; simp (maxDischargeDepth := 60) only [wr_keeps, setBit_keeps, wake_keeps, report_keeps, loadFbpErr_keeps, clearRx_keeps, keeps_mk, implies_true, Keeps.refl, foldl_keeps, ite_keeps, foldl1_keeps, id_eq, h]

theorem fbpWrite_keeps {o s : State} (a : Nat) (acc : Acc) (h : Keeps o s) : Keeps o (fbpWrite a acc s) := by
  unfold fbpWrite; simp (maxDischargeDepth := 60) only [flag_keeps, grantAll_keeps, perform_keeps, keeps_mk, implies_true, Keeps.refl, foldl_keeps, ite_keeps, foldl1_keeps, id_eq, h]

theorem discardPkt_keeps {o s : State} (f cnt : Field) (prodN code cls src lvl vc lane : Nat) (h : Keeps o s) : Keeps o (discardPkt f cnt prodN code cls src lvl vc lane s) := by
  unfold discardPkt; simp (maxDischargeDepth := 60) only [report_keeps, loadFbpErr_keeps, prod_keeps, bump_keeps, keeps_mk, implies_true, Keeps.refl, foldl_keeps, ite_keeps, foldl1_keeps, id_eq, h]

theorem useStream_keeps {o s : State} (k : Nat × Nat × Nat) (e : Nat) (h : Keeps o s) : Keeps o (useStream k e s) := by
  unfold useStream; simp only [keeps_mk, implies_true, Keeps.refl, foldl_keeps, ite_keeps, foldl1_keeps, id_eq, h]

theorem seqCheck_keeps {o s : State} (p : Pkt) (lane : Nat) (h : Keeps o s) : Keeps o (seqCheck p lane s).1 := by
  unfold seqCheck; repeat' first | (simp (maxDischargeDepth := 60) only [useStream_keeps, note_keeps, report_keeps, loadFbpErr_keeps, prod_keeps, bump_keeps, discardPkt_keeps, keeps_mk, implies_true, Keeps.refl, foldl_keeps, ite_keeps, h]; done) | with_reducible (refine ite_keeps ?_ ?_) | with_reducible (refine foldl_keeps (fun _ _ => ?_) ?_) | split | (dsimp only; with_reducible (refine ite_keeps ?_ ?_)) | (dsimp only; split)

theorem acceptPkt_keeps {o s : State} (lane : Nat) (p : Pkt) (h : Keeps o s) : Keeps o (acceptPkt lane p s) := by
  unfold acceptPkt; simp (maxDischargeDepth := 60) only [seqCheck_keeps, police_keeps, moveOutN_keeps, prod_keeps, report_keeps, wake_keeps, keeps_mk, implies_true, Keeps.refl, foldl_keeps, ite_keeps, foldl1_keeps, id_eq, h]

theorem receivePkt_keeps {o s : State} (lane : Nat) (p : Pkt) (h : Keeps o s) : Keeps o (receivePkt lane p s) := by
  unfold receivePkt; simp (maxDischargeDepth := 60) only [emit_keeps, report_keeps, loadFbpErr_keeps, bump_keeps, setRx_keeps, moveOutN_keeps, discardPkt_keeps, acceptPkt_keeps, keeps_mk, implies_true, Keeps.refl, foldl_keeps, ite_keeps, foldl1_keeps, id_eq, h]

theorem takePkt_keeps {o s : State} {types : List Nat} {l : Nat} {p : Pkt} {t : State} (h : Keeps o s) (e : takePkt types s = some (l, p, t)) : Keeps o t := by
  unfold takePkt at e
  repeat' first | (cases e; done) | (cases e; exact h) | split at e

/-! Encode. -/

theorem cmpChecked_keeps {o s : State} (n : Nat) (h : Keeps o s) : Keeps o (cmpChecked n s) := by
  unfold cmpChecked; simp only [bump_keeps, keeps_mk, implies_true, Keeps.refl, foldl_keeps, ite_keeps, foldl1_keeps, id_eq, h]

/-! Mmp. -/

theorem memRequest_keeps {o s : State} (user : MemUser) (cls region : Nat) (write : Bool) (addr len : Nat) (data : List Byte) (h : Keeps o s) : Keeps o (memRequest user cls region write addr len data s) := by
  unfold memRequest; simp only [keeps_mk, implies_true, Keeps.refl, foldl_keeps, ite_keeps, foldl1_keeps, id_eq, h]

theorem endReq_keeps {o s : State} (r : MemReq) (ok : Bool) (data : List Byte) (cause : Nat) (h : Keeps o s) : Keeps o (endReq r ok data cause s) := by
  unfold endReq; simp only [keeps_mk, implies_true, Keeps.refl, foldl_keeps, ite_keeps, foldl1_keeps, id_eq, h]

theorem loadMmpErr_keeps {o s : State} (ch status kind addr : Nat) (h : Keeps o s) : Keeps o (loadMmpErr ch status kind addr s) := by
  unfold loadMmpErr; simp only [wr_keeps, keeps_mk, implies_true, Keeps.refl, foldl_keeps, ite_keeps, foldl1_keeps, id_eq, h]

theorem regionViolation_keeps {o s : State} (r : MemReq) (h : Keeps o s) : Keeps o (regionViolation r s) := by
  unfold regionViolation; simp (maxDischargeDepth := 60) only [endReq_keeps, report_keeps, loadMmpErr_keeps, keeps_mk, implies_true, Keeps.refl, foldl_keeps, ite_keeps, foldl1_keeps, id_eq, h]

theorem requestIssue_keeps {o s : State} (h : Keeps o s) : Keeps o (requestIssue s) := by
  unfold requestIssue; repeat' first | (simp (maxDischargeDepth := 60) only [endReq_keeps, regionViolation_keeps, prod_keeps, pushItem_keeps, keeps_mk, implies_true, Keeps.refl, foldl_keeps, ite_keeps, foldl1_keeps, id_eq, h]; done) | with_reducible (refine ite_keeps ?_ ?_) | with_reducible (refine foldl_keeps (fun _ _ => ?_) ?_) | split | (dsimp only; with_reducible (refine ite_keeps ?_ ?_)) | (dsimp only; split)

theorem dropOut_keeps {o s : State} (r : MemReq) (h : Keeps o s) : Keeps o (dropOut r s) := by
  unfold dropOut; simp only [showMmp_keeps, keeps_mk, implies_true, Keeps.refl, foldl_keeps, ite_keeps, foldl1_keeps, id_eq, h]

theorem readData_keeps {o s : State} (ch id : Nat) (beats : List (MemStatus × BitVec 512)) (h : Keeps o s) : Keeps o (readData ch id beats s) := by
  unfold readData; repeat' first | (simp (maxDischargeDepth := 60) only [dropOut_keeps, loadMmpErr_keeps, endReq_keeps, report_keeps, keeps_mk, implies_true, Keeps.refl, foldl_keeps, ite_keeps, foldl1_keeps, id_eq, h]; done) | split

theorem writeResponse_keeps {o s : State} (ch id : Nat) (st : MemStatus) (h : Keeps o s) : Keeps o (writeResponse ch id st s) := by
  unfold writeResponse; repeat' first | (simp (maxDischargeDepth := 60) only [dropOut_keeps, endReq_keeps, report_keeps, loadMmpErr_keeps, keeps_mk, implies_true, Keeps.refl, foldl_keeps, ite_keeps, foldl1_keeps, id_eq, h]; done) | split

theorem memForget_keeps {o s : State} (u : MemUser) (x : Nat) (h : Keeps o s) : Keeps o (memForget u x s) := by
  unfold memForget; simp only [keeps_mk, implies_true, Keeps.refl, foldl_keeps, ite_keeps, foldl1_keeps, id_eq, h]

theorem memCancel_keeps {o s : State} (u : MemUser) (x : Nat) (h : Keeps o s) : Keeps o (memCancel u x s) := by
  unfold memCancel; simp only [memForget_keeps, keeps_mk, implies_true, Keeps.refl, foldl_keeps, ite_keeps, foldl1_keeps, id_eq, h]

theorem haAdvance_keeps {o s : State} (n : Nat) (h : Keeps o s) : Keeps o (haAdvance n s) := by
  induction n generalizing s with
  | zero => exact h
  | succ n ih =>
    unfold haAdvance
    repeat' first | exact h | exact ih (wr_keeps _ _ (keeps_ver _ (memForget_keeps _ _ h))) | split

theorem linkReset_keeps {o s : State} (h : Keeps o s) : Keeps o (linkReset s) := by
  unfold linkReset; simp (maxDischargeDepth := 60) only [showMmp_keeps, endReq_keeps, report_keeps, keeps_mk, implies_true, Keeps.refl, foldl_keeps, ite_keeps, foldl1_keeps, id_eq, h]

theorem mmpWrite_keeps {o s : State} (a : Nat) (acc : Acc) (h : Keeps o s) : Keeps o (mmpWrite a acc s) := by
  unfold mmpWrite; simp only [perform_keeps, keeps_mk, implies_true, Keeps.refl, foldl_keeps, ite_keeps, foldl1_keeps, id_eq, h]

end Sys2Proof.Machine
end

