-- ==== Sys2Proof/Laws/KeepsTally.lean ====
section
/-!
SUPPORT. What the Tally, its epochs and the Caravan keep: one lemma for each operation.
-/
namespace Sys2Proof.Machine
set_option linter.unusedSimpArgs false
set_option linter.unusedTactic false
set_option linter.unreachableTactic false

/-! Waybill. -/

theorem setWb_keeps {o s : State} (w : WbSt) (h : Keeps o s) : Keeps o (setWb w s) := by
  unfold setWb; simp only [keeps_mk, implies_true, Keeps.refl, foldl_keeps, ite_keeps, foldl1_keeps, id_eq, h]

theorem wbDrop_keeps {o s : State} (h : Keeps o s) : Keeps o (wbDrop s) := by
  unfold wbDrop; simp (maxDischargeDepth := 60) only [setWb_keeps, record_keeps, prod_keeps, bump_keeps, keeps_mk, implies_true, Keeps.refl, foldl_keeps, ite_keeps, foldl1_keeps, id_eq, h]

theorem wbDisplace_keeps {o s : State} (n m : Nat) (h : Keeps o s) : Keeps o (wbDisplace s n m) := by
  induction n generalizing s with
  | zero => exact h
  | succ n ih =>
    unfold wbDisplace
    repeat' first | exact h | exact ih (wbDrop_keeps (setWb_keeps _ h)) | split

theorem wbStage_keeps {o s : State} (type epoch sched : Nat) (body : List Byte) (h : Keeps o s) : Keeps o (wbStage type epoch sched body s) := by
  unfold wbStage; repeat' first | (simp (maxDischargeDepth := 60) only [wbDrop_keeps, cmpChecked_keeps, wbDisplace_keeps, setWb_keeps, keeps_mk, implies_true, Keeps.refl, foldl_keeps, ite_keeps, foldl1_keeps, id_eq, h]; done) | split

theorem wbTrigger_keeps {o s : State} (source : Nat) (h : Keeps o s) : Keeps o (wbTrigger source s) := by
  unfold wbTrigger; simp (maxDischargeDepth := 60) only [note_keeps, prod_keeps, set_keeps, wbStage_keeps, setWb_keeps, keeps_mk, implies_true, Keeps.refl, foldl_keeps, ite_keeps, foldl1_keeps, id_eq, h]

theorem wbIssue_keeps {o s : State} (type : Nat) (bs : List Byte) (h : Keeps o s) : Keeps o (wbIssue type bs s) := by
  unfold wbIssue; simp only [setWb_keeps, memRequest_keeps, keeps_mk, implies_true, Keeps.refl, foldl_keeps, ite_keeps, foldl1_keeps, id_eq, h]

theorem wbWrite_keeps {o s : State} (r : WbRec) (h : Keeps o s) : Keeps o (wbWrite r s) := by
  unfold wbWrite; simp (maxDischargeDepth := 60) only [wbIssue_keeps, set_keeps, setWb_keeps, keeps_mk, implies_true, Keeps.refl, foldl_keeps, ite_keeps, foldl1_keeps, id_eq, h]

theorem wbFreeze_keeps {o s : State} (h : Keeps o s) : Keeps o (wbFreeze s) := by
  unfold wbFreeze; simp (maxDischargeDepth := 60) only [note_keeps, prod_keeps, set_keeps, keeps_mk, implies_true, Keeps.refl, foldl_keeps, ite_keeps, foldl1_keeps, id_eq, h]

theorem wbNext_keeps {o s : State} (r : WbRec) (h : Keeps o s) : Keeps o (wbNext r s) := by
  unfold wbNext; simp (maxDischargeDepth := 60) only [wbDrop_keeps, setWb_keeps, wbFreeze_keeps, wbWrite_keeps, set_keeps, keeps_mk, implies_true, Keeps.refl, foldl_keeps, ite_keeps, foldl1_keeps, id_eq, h]

theorem waybillRecordWrite_keeps {o s : State} (h : Keeps o s) : Keeps o (waybillRecordWrite s) := by
  unfold waybillRecordWrite; repeat' first | (simp only [wbDrop_keeps, setWb_keeps, wbNext_keeps, keeps_mk, implies_true, Keeps.refl, foldl_keeps, ite_keeps, foldl1_keeps, id_eq, h]; done) | split

theorem waybillWriteComplete_keeps {o s : State} (h : Keeps o s) : Keeps o (waybillWriteComplete s) := by
  unfold waybillWriteComplete; repeat' first | (simp (maxDischargeDepth := 60) only [memForget_keeps, setWb_keeps, set_keeps, prod_keeps, report_keeps, keeps_mk, implies_true, Keeps.refl, foldl_keeps, ite_keeps, foldl1_keeps, id_eq, h]; done) | split

theorem wbArm_keeps {o s : State} (h : Keeps o s) : Keeps o (wbArm s) := by
  unfold wbArm; simp (maxDischargeDepth := 60) only [flag_keeps, setWb_keeps, set_keeps, keeps_mk, implies_true, Keeps.refl, foldl_keeps, ite_keeps, foldl1_keeps, id_eq, h]

theorem wbCtlWrite_keeps {o s : State} (acc : Acc) (h : Keeps o s) : Keeps o (wbCtlWrite acc s) := by
  unfold wbCtlWrite; simp (maxDischargeDepth := 60) only [perform_keeps, set_keeps, wbArm_keeps, wbTrigger_keeps, keeps_mk, implies_true, Keeps.refl, foldl_keeps, ite_keeps, foldl1_keeps, id_eq, h]

/-! Advance. -/

theorem elapse_keeps {o s : State} (c : Nat) (h : Keeps o s) : Keeps o (elapse c s) := by
  unfold elapse; split <;> simp only [prod_keeps, keeps_mk, implies_true, Keeps.refl, foldl_keeps, ite_keeps, foldl1_keeps, id_eq, h]

theorem reachTb0_keeps {o s : State} (t : Nat) (h : Keeps o s) : Keeps o (reachTb0 t s) := by
  unfold reachTb0; simp only [elapse_keeps, keeps_mk, implies_true, Keeps.refl, foldl_keeps, ite_keeps, foldl1_keeps, id_eq, h]

theorem reachBase_keeps {o s : State} (n t : Nat) (h : Keeps o s) : Keeps o (reachBase n t s) := by
  unfold reachBase; split <;> simp only [reachTb0_keeps, elapse_keeps, keeps_mk, implies_true, Keeps.refl, foldl_keeps, ite_keeps, foldl1_keeps, id_eq, h]

/-! Tally. -/

theorem setTly_keeps {o s : State} (t : TlySt) (h : Keeps o s) : Keeps o (setTly t s) := by
  unfold setTly; simp only [keeps_mk, implies_true, Keeps.refl, foldl_keeps, ite_keeps, foldl1_keeps, id_eq, h]

theorem binPut_keeps {o s : State} (b slot n : Nat) (key : Option (Nat × Nat × Nat)) (h : Keeps o s) : Keeps o (binPut b slot n key s) := by
  unfold binPut; simp only [setTly_keeps, keeps_mk, implies_true, Keeps.refl, foldl_keeps, ite_keeps, foldl1_keeps, id_eq, h]

theorem binMiss_keeps {o s : State} (h : Keeps o s) : Keeps o (binMiss s) := by
  unfold binMiss; simp (maxDischargeDepth := 60) only [bump_keeps, record_keeps, flag_keeps, setTly_keeps, keeps_mk, implies_true, Keeps.refl, foldl_keeps, ite_keeps, foldl1_keeps, id_eq, h]

theorem binAdd_keeps {o s : State} (e slot n : Nat) (h : Keeps o s) : Keeps o (binAdd e slot n s) := by
  unfold binAdd; repeat' first | (simp (maxDischargeDepth := 60) only [binPut_keeps, set_keeps, binMiss_keeps, keeps_mk, implies_true, Keeps.refl, foldl_keeps, ite_keeps, foldl1_keeps, id_eq, h]; done) | split

theorem countInput_keeps {o s : State} (input n : Nat) (h : Keeps o s) : Keeps o (countInput input n s) := by
  unfold countInput; repeat' first | (simp (maxDischargeDepth := 60) only [countUp_keeps, binAdd_keeps, keeps_mk, implies_true, Keeps.refl, foldl_keeps, ite_keeps, foldl1_keeps, id_eq, h]; done) | with_reducible (refine ite_keeps ?_ ?_) | with_reducible (refine foldl_keeps (fun _ _ => ?_) ?_) | split

theorem internalEvent_keeps {o s : State} (code : Nat) (h : Keeps o s) : Keeps o (internalEvent code s) := by
  unfold internalEvent; simp only [countInput_keeps, keeps_mk, implies_true, Keeps.refl, foldl_keeps, ite_keeps, foldl1_keeps, id_eq, h]

theorem hostBeat_keeps {o s : State} (d n : Nat) (h : Keeps o s) : Keeps o (hostBeat d n s) := by
  unfold hostBeat; split <;> simp only [set_keeps, keeps_mk, implies_true, Keeps.refl, foldl_keeps, ite_keeps, foldl1_keeps, id_eq, h]

theorem tagTransfer_keeps {o s : State} (engine ctx layer op : Nat) (h : Keeps o s) : Keeps o (tagTransfer engine ctx layer op s) := by
  unfold tagTransfer; split <;> simp only [hostBeat_keeps, keeps_mk, implies_true, Keeps.refl, foldl_keeps, ite_keeps, foldl1_keeps, id_eq, h]

theorem snapshotRecord_keeps {o s : State} (engine : Nat) (beats : List (BitVec 256)) (cut : Bool) (h : Keeps o s) : Keeps o (snapshotRecord engine beats cut s) := by
  unfold snapshotRecord; simp (maxDischargeDepth := 60) only [report_keeps, setTly_keeps, keeps_mk, implies_true, Keeps.refl, foldl_keeps, ite_keeps, foldl1_keeps, id_eq, h]

theorem setSched_keeps {o s : State} (k : Nat) (v : Sched) (h : Keeps o s) : Keeps o (setSched k v s) := by
  unfold setSched; simp only [setTly_keeps, keeps_mk, implies_true, Keeps.refl, foldl_keeps, ite_keeps, foldl1_keeps, id_eq, h]

theorem showRunning_keeps {o s : State} (h : Keeps o s) : Keeps o (showRunning s) := by
  unfold showRunning; simp only [set_keeps, keeps_mk, implies_true, Keeps.refl, foldl_keeps, ite_keeps, foldl1_keeps, id_eq, h]

theorem setSchedState_keeps {o s : State} (k st : Nat) (h : Keeps o s) : Keeps o (setSchedState k st s) := by
  unfold setSchedState; simp only [showRunning_keeps, set_keeps, keeps_mk, implies_true, Keeps.refl, foldl_keeps, ite_keeps, foldl1_keeps, id_eq, h]

theorem schedArm_keeps {o s : State} (k : Nat) (reset : Bool) (h : Keeps o s) : Keeps o (schedArm k reset s) := by
  unfold schedArm; simp (maxDischargeDepth := 60) only [flag_keeps, set_keeps, report_keeps, setSchedState_keeps, setSched_keeps, keeps_mk, implies_true, Keeps.refl, foldl_keeps, ite_keeps, foldl1_keeps, id_eq, h]

theorem schedIdle_keeps {o s : State} (k : Nat) (h : Keeps o s) : Keeps o (schedIdle k s) := by
  unfold schedIdle; simp (maxDischargeDepth := 60) only [setSchedState_keeps, set_keeps, setTly_keeps, keeps_mk, implies_true, Keeps.refl, foldl_keeps, ite_keeps, foldl1_keeps, id_eq, h]

theorem schedBusy_keeps {o s : State} (k a : Nat) (h : Keeps o s) : Keeps o (schedBusy k a s) := by
  unfold schedBusy; simp only [report_keeps, keeps_mk, implies_true, Keeps.refl, foldl_keeps, ite_keeps, foldl1_keeps, id_eq, h]

theorem schedWrite_keeps {o s : State} (k a : Nat) (acc : Acc) (h : Keeps o s) : Keeps o (schedWrite k a acc s) := by
  unfold schedWrite; simp (maxDischargeDepth := 60) only [perform_keeps, schedBusy_keeps, schedArm_keeps, schedIdle_keeps, setSchedState_keeps, keeps_mk, implies_true, Keeps.refl, foldl_keeps, ite_keeps, foldl1_keeps, id_eq, h]

theorem tlyWrite_keeps {o s : State} (a : Nat) (acc : Acc) (h : Keeps o s) : Keeps o (tlyWrite a acc s) := by
  unfold tlyWrite; simp (maxDischargeDepth := 60) only [schedWrite_keeps, wbCtlWrite_keeps, perform_keeps, set_keeps, keeps_mk, implies_true, Keeps.refl, foldl_keeps, ite_keeps, foldl1_keeps, id_eq, h]

theorem freeBins_keeps {o s : State} (h : Keeps o s) : Keeps o (freeBins s) := by
  unfold freeBins; simp (maxDischargeDepth := 60) only [set_keeps, setTly_keeps, keeps_mk, implies_true, Keeps.refl, foldl_keeps, ite_keeps, foldl1_keeps, id_eq, h]

theorem takeCut_keeps {o s : State} (k n fl span : Nat) (h : Keeps o s) : Keeps o (takeCut k n fl span s) := by
  unfold takeCut; repeat' first | (simp (maxDischargeDepth := 60) only [setTly_keeps, set_keeps, setSchedState_keeps, freeBins_keeps, keeps_mk, implies_true, Keeps.refl, foldl_keeps, ite_keeps, foldl1_keeps, id_eq, h]; done) | split

theorem boundaryReached_keeps {o s : State} {k n m : Nat} {t : State} (h : Keeps o s) (e : boundaryReached k s = some (t, n, m)) : Keeps o t := by
  unfold boundaryReached at e
  repeat' first | (cases e; done) | (cases e; exact reachTb0_keeps _ h) | split at e

theorem strobe_keeps {o s : State} (k n span : Nat) (h : Keeps o s) : Keeps o (strobe k n span s) := by
  unfold strobe; repeat' first | (simp (maxDischargeDepth := 60) only [setSchedState_keeps, takeCut_keeps, setSched_keeps, setTly_keeps, keeps_mk, implies_true, Keeps.refl, foldl_keeps, ite_keeps, foldl1_keeps, id_eq, h]; done) | split

theorem lateCut_keeps {o s : State} (h : Keeps o s) : Keeps o (lateCut s) := by
  unfold lateCut; repeat' first | (simp (maxDischargeDepth := 60) only [takeCut_keeps, setTly_keeps, report_keeps, keeps_mk, implies_true, Keeps.refl, foldl_keeps, ite_keeps, foldl1_keeps, id_eq, h]; done) | split

theorem wbCut_keeps {o s : State} (c : Cut) (h : Keeps o s) : Keeps o (wbCut c s) := by
  unfold wbCut; repeat' first | (simp (maxDischargeDepth := 60) only [wbStage_keeps, keeps_mk, implies_true, Keeps.refl, foldl_keeps, ite_keeps, foldl1_keeps, id_eq, h]; done) | split

theorem tallyStep_keeps {o s : State} (old new : Nat) (h : Keeps o s) : Keeps o (tallyStep old new s) := by
  unfold tallyStep; repeat' first | (simp (maxDischargeDepth := 60) only [note_keeps, setSched_keeps, keeps_mk, implies_true, Keeps.refl, foldl_keeps, ite_keeps, foldl1_keeps, id_eq, h]; done) | with_reducible (refine ite_keeps ?_ ?_) | with_reducible (refine foldl_keeps (fun _ _ => ?_) ?_) | split

theorem waybillProdTick_keeps {o s : State} (h : Keeps o s) : Keeps o (waybillProdTick s) := by
  unfold waybillProdTick; simp (maxDischargeDepth := 60) only [reachTb0_keeps, wbStage_keeps, setWb_keeps, keeps_mk, implies_true, Keeps.refl, foldl_keeps, ite_keeps, foldl1_keeps, id_eq, h]

/-! Route. -/

theorem setCrv_keeps {o s : State} (c : CrvSt) (h : Keeps o s) : Keeps o (setCrv c s) := by
  unfold setCrv; simp only [keeps_mk, implies_true, Keeps.refl, foldl_keeps, ite_keeps, foldl1_keeps, id_eq, h]

theorem storeVerdict_keeps {o s : State} (v : List Byte) (h : Keeps o s) : Keeps o (storeVerdict v s) := by
  unfold storeVerdict; simp (maxDischargeDepth := 60) only [set_keeps, note_keeps, bump_keeps, keeps_mk, implies_true, Keeps.refl, foldl_keeps, ite_keeps, foldl1_keeps, id_eq, h]

theorem holdDrop_keeps {o s : State} (h : Keeps o s) : Keeps o (holdDrop s) := by
  unfold holdDrop; simp (maxDischargeDepth := 60) only [bump_keeps, report_keeps, keeps_mk, implies_true, Keeps.refl, foldl_keeps, ite_keeps, foldl1_keeps, id_eq, h]

theorem holdWrite_keeps {o s : State} (p : Pkt) (h : Keeps o s) : Keeps o (holdWrite p s) := by
  unfold holdWrite; simp (maxDischargeDepth := 60) only [holdDrop_keeps, memRequest_keeps, set_keeps, keeps_mk, implies_true, Keeps.refl, foldl_keeps, ite_keeps, foldl1_keeps, id_eq, h]

theorem sendFm_keeps {o s : State} (type flags d n : Nat) (bs : List Byte) (h : Keeps o s) : Keeps o (sendFm type flags d n bs s) := by
  unfold sendFm; simp only [sendPkt_keeps, keeps_mk, implies_true, Keeps.refl, foldl_keeps, ite_keeps, foldl1_keeps, id_eq, h]

theorem sendParent_keeps {o s : State} (dst : Nat × Nat × Nat) (type flags d epoch : Nat) (n : Option Nat) (bs : List Byte) (h : Keeps o s) : Keeps o (sendParent dst type flags d epoch n bs s) := by
  unfold sendParent; simp (maxDischargeDepth := 60) only [holdWrite_keeps, sendFm_keeps, sendPkt_keeps, keeps_mk, implies_true, Keeps.refl, foldl_keeps, ite_keeps, foldl1_keeps, id_eq, h]

theorem sendUp_keeps {o s : State} (type flags d n via : Nat) (bs : List Byte) (h : Keeps o s) : Keeps o (sendUp type flags d n via bs s) := by
  unfold sendUp; split <;> simp only [sendParent_keeps, keeps_mk, implies_true, Keeps.refl, foldl_keeps, ite_keeps, foldl1_keeps, id_eq, h]

theorem tellParent_keeps {o s : State} (d : Nat) (old : Option Route) (new : Route) (i : Nat) (h : Keeps o s) : Keeps o (tellParent d old new s i) := by
  unfold tellParent; simp (maxDischargeDepth := 60) only [sendParent_keeps, keeps_mk, implies_true, Keeps.refl, foldl_keeps, ite_keeps, foldl1_keeps, id_eq, h]

theorem tellOldest_keeps {o s : State} (d n : Nat) (h : Keeps o s) : Keeps o (tellOldest d s n) := by
  induction n generalizing s with
  | zero => exact h
  | succ n ih =>
    unfold tellOldest
    split
    · exact h
    · exact ih (setCrv_keeps _ (foldl_keeps (fun t _ => tellParent_keeps _ _ _ _ (Keeps.refl t)) h))

theorem tellRoutes_keeps {o s : State} (h : Keeps o s) : Keeps o (tellRoutes s) := by
  unfold tellRoutes; simp (maxDischargeDepth := 60) only [tellOldest_keeps, keeps_mk, implies_true, Keeps.refl, foldl_keeps, ite_keeps, foldl1_keeps, id_eq, h]

theorem pushRoute_keeps {o s : State} (d : Nat) (entry : Sign) (mode : Nat) (h : Keeps o s) : Keeps o (pushRoute d entry mode s) := by
  unfold pushRoute; simp only [tellRoutes_keeps, setCrv_keeps, keeps_mk, implies_true, Keeps.refl, foldl_keeps, ite_keeps, foldl1_keeps, id_eq, h]

theorem setMode_keeps {o s : State} (d mode : Nat) (h : Keeps o s) : Keeps o (setMode d mode s) := by
  unfold setMode; repeat' first | (simp (maxDischargeDepth := 60) only [note_keeps, prod_keeps, pushRoute_keeps, keeps_mk, implies_true, Keeps.refl, foldl_keeps, ite_keeps, foldl1_keeps, id_eq, h]; done) | split

theorem setSign_keeps {o s : State} (e : Sign) (h : Keeps o s) : Keeps o (setSign e s) := by
  unfold setSign; repeat' first | (simp (maxDischargeDepth := 60) only [pushRoute_keeps, note_keeps, prod_keeps, keeps_mk, implies_true, Keeps.refl, foldl_keeps, ite_keeps, foldl1_keeps, id_eq, h]; done) | split

/-! Caravan. -/

theorem putSlot_keeps {o s : State} (k : Nat) (v : CrvSlot) (h : Keeps o s) : Keeps o (putSlot k v s) := by
  unfold putSlot; simp only [setCrv_keeps, keeps_mk, implies_true, Keeps.refl, foldl_keeps, ite_keeps, foldl1_keeps, id_eq, h]

theorem showSlot_keeps {o s : State} (h : Keeps o s) : Keeps o (showSlot s) := by
  unfold showSlot; simp (maxDischargeDepth := 60) only [wr_keeps, set_keeps, keeps_mk, implies_true, Keeps.refl, foldl_keeps, ite_keeps, foldl1_keeps, id_eq, h]

theorem slotState_keeps {o s : State} (k st : Nat) (h : Keeps o s) : Keeps o (slotState k st s) := by
  unfold slotState; simp only [note_keeps, putSlot_keeps, keeps_mk, implies_true, Keeps.refl, foldl_keeps, ite_keeps, foldl1_keeps, id_eq, h]

theorem pwPut_keeps {o s : State} (pos st slot epoch present : Nat) (res : Option Result) (v : List Byte) (h : Keeps o s) : Keeps o (pwPut pos st slot epoch present res v s) := by
  unfold pwPut; simp only [setCrv_keeps, keeps_mk, implies_true, Keeps.refl, foldl_keeps, ite_keeps, foldl1_keeps, id_eq, h]

theorem pwAppend_keeps {o s : State} (st slot epoch present : Nat) (res : Option Result) (v : List Byte) (h : Keeps o s) : Keeps o (pwAppend st slot epoch present res v s) := by
  unfold pwAppend; simp (maxDischargeDepth := 60) only [pwPut_keeps, set_keeps, setCrv_keeps, bump_keeps, keeps_mk, implies_true, Keeps.refl, foldl_keeps, ite_keeps, foldl1_keeps, id_eq, h]

theorem pwMark_keeps {o s : State} (st slot epoch : Nat) (r : PwRef) (h : Keeps o s) : Keeps o (pwMark st slot epoch r s) := by
  unfold pwMark; simp only [pwPut_keeps, pwAppend_keeps, keeps_mk, implies_true, Keeps.refl, foldl_keeps, ite_keeps, foldl1_keeps, id_eq, h]

theorem pwSettle_keeps {o s : State} (slot epoch : Nat) (same : Bool) (r : PwRef) (h : Keeps o s) : Keeps o (pwSettle slot epoch same r s) := by
  unfold pwSettle; simp (maxDischargeDepth := 60) only [pwMark_keeps, note_keeps, prod_keeps, keeps_mk, implies_true, Keeps.refl, foldl_keeps, ite_keeps, foldl1_keeps, id_eq, h]

theorem viewAdd_keeps {o s : State} (slot epoch : Nat) (res : Result) (h : Keeps o s) : Keeps o (viewAdd slot epoch res s) := by
  unfold viewAdd; simp only [putSlot_keeps, keeps_mk, implies_true, Keeps.refl, foldl_keeps, ite_keeps, foldl1_keeps, id_eq, h]

theorem beginEpoch_keeps {o s : State} (d n : Nat) (h : Keeps o s) : Keeps o (beginEpoch d n s) := by
  unfold beginEpoch; repeat' first | (simp only [putSlot_keeps, keeps_mk, implies_true, Keeps.refl, foldl_keeps, ite_keeps, foldl1_keeps, id_eq, h]; done) | split

theorem putDet_keeps {o s : State} (d : Nat) (v : DetSt) (h : Keeps o s) : Keeps o (putDet d v s) := by
  unfold putDet; simp only [keeps_mk, implies_true, Keeps.refl, foldl_keeps, ite_keeps, foldl1_keeps, id_eq, h]

theorem captureRefs_keeps {o s : State} (k dom n : Nat) (res : List (Nat × Bool × Sketch)) (h : Keeps o s) : Keeps o (captureRefs k dom n res s) := by
  unfold captureRefs; repeat' first | (simp (maxDischargeDepth := 60) only [putDet_keeps, keeps_mk, implies_true, Keeps.refl, foldl_keeps, ite_keeps, foldl1_keeps, id_eq, h]; done) | with_reducible (refine ite_keeps ?_ ?_) | with_reducible (refine foldl_keeps (fun _ _ => ?_) ?_) | split

theorem queueDue_keeps {o s : State} (k : Nat) (v : CrvSlot) (e : EpSt) (prov : Bool) (res : List Result) (h : Keeps o s) : Keeps o (queueDue k v e prov res s) := by
  unfold queueDue; simp only [keeps_mk, implies_true, Keeps.refl, foldl_keeps, ite_keeps, foldl1_keeps, id_eq, h]

theorem confirmNote_keeps {o s : State} (n : Nat) (pw : Option Nat) (h : Keeps o s) : Keeps o (confirmNote n pw s) := by
  unfold confirmNote; split <;> simp only [note_keeps, tickFree_keeps, keeps_mk, implies_true, Keeps.refl, foldl_keeps, ite_keeps, foldl1_keeps, id_eq, h]

theorem closeOne_keeps {o s : State} (c : Closing) (h : Keeps o s) : Keeps o (closeOne c s) := by
  unfold closeOne; repeat' first | (simp (maxDischargeDepth := 60) only [pwSettle_keeps, setCrv_keeps, sendUp_keeps, keeps_mk, implies_true, Keeps.refl, foldl_keeps, ite_keeps, foldl1_keeps, id_eq, h]; done) | with_reducible (refine ite_keeps ?_ ?_) | with_reducible (refine foldl_keeps (fun _ _ => ?_) ?_) | split | (dsimp only; with_reducible (refine ite_keeps ?_ ?_)) | (dsimp only; split)

theorem closeReady_keeps {o s : State} (h : Keeps o s) : Keeps o (closeReady s) := by
  unfold closeReady; simp only [closeOne_keeps, keeps_mk, implies_true, Keeps.refl, foldl_keeps, ite_keeps, foldl1_keeps, id_eq, h]

theorem publishOne_keeps {o : State} {r : State × List PwRef} (k n present : Nat) (x : Result) (h : Keeps o r.1) : Keeps o (publishOne k n present r x).1 :=
  note_keeps _ _ _ (prod_keeps _ _ (pwAppend_keeps _ _ _ _ _ _ (viewAdd_keeps _ _ _ h)))

theorem publishVerdict_keeps {o : State} {r : State × List PwRef} (k n present : Nat) (v : List Byte) (h : Keeps o r.1) : Keeps o (publishVerdict k n present r v).1 :=
  note_keeps _ _ _ (prod_keeps _ _ (pwAppend_keeps _ _ _ _ _ _ h))

theorem sendResult_keeps {o s : State} (d n flags : Nat) (res : Result) (h : Keeps o s) : Keeps o (sendResult d n flags res s) := by
  unfold sendResult; simp only [sendUp_keeps, keeps_mk, implies_true, Keeps.refl, foldl_keeps, ite_keeps, foldl1_keeps, id_eq, h]

theorem publish_keeps {o s : State} (k n : Nat) (h : Keeps o s) : Keeps o (publish k n s) := by
  unfold publish; repeat' first | (simp (maxDischargeDepth := 60) only [publishOne_keeps, publishVerdict_keeps, putSlot_keeps, sendUp_keeps, sendResult_keeps, queueDue_keeps, keeps_mk, implies_true, Keeps.refl, foldl_keeps, ite_keeps, foldl1_keeps, id_eq, h]; done) | with_reducible (refine ite_keeps ?_ ?_) | with_reducible (refine foldl_keeps (fun _ _ => ?_) ?_) | split | (dsimp only; with_reducible (refine ite_keeps ?_ ?_)) | (dsimp only; split)

theorem dropEpoch_keeps {o s : State} (k n : Nat) (h : Keeps o s) : Keeps o (dropEpoch k n s) := by
  unfold dropEpoch; simp only [putSlot_keeps, keeps_mk, implies_true, Keeps.refl, foldl_keeps, ite_keeps, foldl1_keeps, id_eq, h]

theorem drainIfLast_keeps {o s : State} (k : Nat) (last : Bool) (h : Keeps o s) : Keeps o (drainIfLast k last s) := by
  unfold drainIfLast; simp only [slotState_keeps, keeps_mk, implies_true, Keeps.refl, foldl_keeps, ite_keeps, foldl1_keeps, id_eq, h]

theorem confirm_keeps {o s : State} (k n : Nat) (full : Bool) (h : Keeps o s) : Keeps o (confirm k n full s) := by
  unfold confirm; repeat' first | (simp (maxDischargeDepth := 60) only [sendResult_keeps, sendUp_keeps, note_keeps, prod_keeps, pwSettle_keeps, putSlot_keeps, setCrv_keeps, captureRefs_keeps, closeReady_keeps, drainIfLast_keeps, queueDue_keeps, dropEpoch_keeps, keeps_mk, implies_true, Keeps.refl, foldl_keeps, ite_keeps, foldl1_keeps, id_eq, h]; done) | with_reducible (refine ite_keeps ?_ ?_) | with_reducible (refine foldl_keeps (fun _ _ => ?_) ?_) | split | (dsimp only; with_reducible (refine ite_keeps ?_ ?_)) | (dsimp only; split) | ((try dsimp only); first | with_reducible (apply sendResult_keeps) | with_reducible (apply sendUp_keeps) | with_reducible (apply note_keeps) | with_reducible (apply prod_keeps) | with_reducible (apply pwSettle_keeps) | with_reducible (apply putSlot_keeps) | with_reducible (apply setCrv_keeps) | with_reducible (apply captureRefs_keeps) | with_reducible (apply closeReady_keeps) | with_reducible (apply drainIfLast_keeps) | with_reducible (apply queueDue_keeps) | with_reducible (apply dropEpoch_keeps) | with_reducible (apply keeps_mk))

theorem loseEpoch_keeps {o s : State} (k n : Nat) (h : Keeps o s) : Keeps o (loseEpoch k n s) := by
  unfold loseEpoch; repeat' first | (simp (maxDischargeDepth := 60) only [pwSettle_keeps, report_keeps, putSlot_keeps, drainIfLast_keeps, dropEpoch_keeps, keeps_mk, implies_true, Keeps.refl, foldl_keeps, ite_keeps, foldl1_keeps, id_eq, h]; done) | with_reducible (refine ite_keeps ?_ ?_) | with_reducible (refine foldl_keeps (fun _ _ => ?_) ?_) | split | (dsimp only; with_reducible (refine ite_keeps ?_ ?_)) | (dsimp only; split) | ((try dsimp only); first | with_reducible (apply pwSettle_keeps) | with_reducible (apply report_keeps) | with_reducible (apply putSlot_keeps) | with_reducible (apply drainIfLast_keeps) | with_reducible (apply dropEpoch_keeps) | with_reducible (apply keeps_mk))

theorem progress_keeps {o s : State} (k n : Nat) (h : Keeps o s) : Keeps o (progress k s n) := by
  unfold progress; repeat' first | (simp (maxDischargeDepth := 60) only [confirm_keeps, publish_keeps, keeps_mk, implies_true, Keeps.refl, foldl_keeps, ite_keeps, foldl1_keeps, id_eq, h]; done) | with_reducible (refine ite_keeps ?_ ?_) | with_reducible (refine foldl_keeps (fun _ _ => ?_) ?_) | split | (dsimp only; with_reducible (refine ite_keeps ?_ ?_)) | (dsimp only; split)

theorem recheck_keeps {o s : State} (k : Nat) (h : Keeps o s) : Keeps o (recheck k s) := by
  unfold recheck; simp only [progress_keeps, keeps_mk, implies_true, Keeps.refl, foldl_keeps, ite_keeps, foldl1_keeps, id_eq, h]

theorem markSpanned_keeps {o s : State} (k bit src lvl m : Nat) (h : Keeps o s) : Keeps o (markSpanned k bit src lvl s m) := by
  unfold markSpanned; simp (maxDischargeDepth := 60) only [progress_keeps, putSlot_keeps, keeps_mk, implies_true, Keeps.refl, foldl_keeps, ite_keeps, foldl1_keeps, id_eq, h]

theorem releaseOne_keeps {o s : State} (k n : Nat) (c : KidEp) (g : ClosedSig) (h : Keeps o s) : Keeps o (releaseOne k n c g s) := by
  unfold releaseOne; simp (maxDischargeDepth := 60) only [putSlot_keeps, setCrv_keeps, markSpanned_keeps, progress_keeps, keeps_mk, implies_true, Keeps.refl, foldl_keeps, ite_keeps, foldl1_keeps, id_eq, h]

theorem releaseAll_keeps {o s : State} (h : Keeps o s) : Keeps o (releaseAll s) := by
  unfold releaseAll; simp (maxDischargeDepth := 60) only [releaseOne_keeps, keeps_mk, implies_true, Keeps.refl, foldl_keeps, ite_keeps, foldl1_keeps, id_eq, h]

theorem childFinal_keeps {o s : State} (k bit n : Nat) (h : Keeps o s) : Keeps o (childFinal k bit n s) := by
  unfold childFinal; repeat' first | (simp (maxDischargeDepth := 60) only [putSlot_keeps, slotState_keeps, keeps_mk, implies_true, Keeps.refl, foldl_keeps, ite_keeps, foldl1_keeps, id_eq, h]; done) | with_reducible (refine ite_keeps ?_ ?_) | with_reducible (refine foldl_keeps (fun _ _ => ?_) ?_) | split | (dsimp only; with_reducible (refine ite_keeps ?_ ?_)) | (dsimp only; split)

theorem fromChild_keeps {o s : State} (types : List Nat) (f : Nat → Pkt → Child → State → State) (hf : ∀ x0 x1 x2 t, Keeps t (f x0 x1 x2 t)) (h : Keeps o s) : Keeps o (fromChild types f s) := by
  have kf {o t : State} (h : Keeps o t) (x0 : Nat) (x1 : Pkt) (x2 : Child) : Keeps o (f x0 x1 x2 t) := h.trans (hf _ _ _ _)
  unfold fromChild; repeat' first | (rename_i heq; replace heq := takePkt_keeps h heq) | (simp (maxDischargeDepth := 60) only [report_keeps, showSlot_keeps, releaseAll_keeps, keeps_mk, implies_true, Keeps.refl, foldl_keeps, ite_keeps, foldl1_keeps, id_eq, h, kf, *]; done) | with_reducible (refine ite_keeps ?_ ?_) | with_reducible (refine foldl_keeps (fun _ _ => ?_) ?_) | split

theorem checkPart_keeps {o s : State} (k n : Nat) (p : Part) (h : Keeps o s) : Keeps o (checkPart k n p s) := by
  unfold checkPart; repeat' first | (simp (maxDischargeDepth := 60) only [report_keeps, putSlot_keeps, keeps_mk, implies_true, Keeps.refl, foldl_keeps, ite_keeps, foldl1_keeps, id_eq, h]; done) | with_reducible (refine ite_keeps ?_ ?_) | with_reducible (refine foldl_keeps (fun _ _ => ?_) ?_) | split

theorem lateNote_keeps {o s : State} (c : Child) (n : Nat) (h : Keeps o s) : Keeps o (lateNote c n s) := by
  unfold lateNote; simp only [report_keeps, keeps_mk, implies_true, Keeps.refl, foldl_keeps, ite_keeps, foldl1_keeps, id_eq, h]

theorem cacheAdvance_keeps {o s : State} (p : Pkt) (parts : List Part) (h : Keeps o s) : Keeps o (cacheAdvance p parts s) := by
  unfold cacheAdvance; simp only [setCrv_keeps, keeps_mk, implies_true, Keeps.refl, foldl_keeps, ite_keeps, foldl1_keeps, id_eq, h]

theorem dataPkt_keeps {o s : State} (k : Nat) (p : Pkt) (c : Child) (h : Keeps o s) : Keeps o (dataPkt k p c s) := by
  unfold dataPkt; repeat' first | (simp (maxDischargeDepth := 60) only [lateNote_keeps, putSlot_keeps, checkPart_keeps, childFinal_keeps, cacheAdvance_keeps, sendUp_keeps, storeVerdict_keeps, confirmNote_keeps, keeps_mk, implies_true, Keeps.refl, foldl_keeps, ite_keeps, foldl1_keeps, id_eq, h]; done) | with_reducible (refine ite_keeps ?_ ?_) | with_reducible (refine foldl_keeps (fun _ _ => ?_) ?_) | split

theorem closedPkt_keeps {o s : State} (k : Nat) (p : Pkt) (c : Child) (h : Keeps o s) : Keeps o (closedPkt k p c s) := by
  unfold closedPkt; simp (maxDischargeDepth := 60) only [lateNote_keeps, putSlot_keeps, childFinal_keeps, prod_keeps, keeps_mk, implies_true, Keeps.refl, foldl_keeps, ite_keeps, foldl1_keeps, id_eq, h]

theorem detourPkt_keeps {o s : State} (k : Nat) (p : Pkt) (c : Child) (h : Keeps o s) : Keeps o (detourPkt k p c s) := by
  unfold detourPkt; simp only [recheck_keeps, putSlot_keeps, keeps_mk, implies_true, Keeps.refl, foldl_keeps, ite_keeps, foldl1_keeps, id_eq, h]

theorem recordDesc_keeps {o s : State} (lvl idx b : Nat) (leave : Bool) (h : Keeps o s) : Keeps o (recordDesc lvl idx b leave s) := by
  unfold recordDesc; split <;> simp only [setCrv_keeps, report_keeps, keeps_mk, implies_true, Keeps.refl, foldl_keeps, ite_keeps, foldl1_keeps, id_eq, h]

theorem joinReceive_keeps {o s : State} (h : Keeps o s) : Keeps o (joinReceive s) := by
  unfold joinReceive; repeat' first | (rename_i heq; replace heq := takePkt_keeps h heq) | (simp (maxDischargeDepth := 60) only [report_keeps, putSlot_keeps, recordDesc_keeps, sendParent_keeps, showSlot_keeps, recheck_keeps, keeps_mk, implies_true, Keeps.refl, foldl_keeps, ite_keeps, foldl1_keeps, id_eq, h, *]; done) | with_reducible (refine ite_keeps ?_ ?_) | with_reducible (refine foldl_keeps (fun _ _ => ?_) ?_) | split | (dsimp only; with_reducible (refine ite_keeps ?_ ?_)) | (dsimp only; split)

theorem epochDeadline_keeps {o s : State} (k n : Nat) (h : Keeps o s) : Keeps o (epochDeadline k n s) := by
  unfold epochDeadline; repeat' first | (simp (maxDischargeDepth := 60) only [showSlot_keeps, publish_keeps, reachTb0_keeps, keeps_mk, implies_true, Keeps.refl, foldl_keeps, ite_keeps, foldl1_keeps, id_eq, h]; done) | with_reducible (refine ite_keeps ?_ ?_) | with_reducible (refine foldl_keeps (fun _ _ => ?_) ?_) | split

theorem overtake_keeps {o s : State} (v : CrvSlot) (q : KidEp) (h : Keeps o s) : Keeps o (overtake v s q) := by
  unfold overtake; split <;> simp only [report_keeps, keeps_mk, implies_true, Keeps.refl, foldl_keeps, ite_keeps, foldl1_keeps, id_eq, h]

theorem epochGrace_keeps {o s : State} (k n : Nat) (h : Keeps o s) : Keeps o (epochGrace k n s) := by
  unfold epochGrace; repeat' first | (simp (maxDischargeDepth := 60) only [overtake_keeps, reachTb0_keeps, showSlot_keeps, confirm_keeps, loseEpoch_keeps, keeps_mk, implies_true, Keeps.refl, foldl_keeps, ite_keeps, foldl1_keeps, id_eq, h]; done) | with_reducible (refine ite_keeps ?_ ?_) | with_reducible (refine foldl_keeps (fun _ _ => ?_) ?_) | split

theorem coarsenReceive_keeps {o s : State} (h : Keeps o s) : Keeps o (coarsenReceive s) := by
  unfold coarsenReceive; repeat' first | (rename_i heq; replace heq := takePkt_keeps h heq) | (simp (maxDischargeDepth := 60) only [showSlot_keeps, note_keeps, prod_keeps, setCrv_keeps, keeps_mk, implies_true, Keeps.refl, foldl_keeps, ite_keeps, foldl1_keeps, id_eq, h, *]; done) | with_reducible (refine ite_keeps ?_ ?_) | with_reducible (refine foldl_keeps (fun _ _ => ?_) ?_) | split

theorem sendChild_keeps {o s : State} (c : Child) (type d n : Nat) (bs : List Byte) (h : Keeps o s) : Keeps o (sendChild c type d n bs s) := by
  unfold sendChild; simp only [sendPkt_keeps, keeps_mk, implies_true, Keeps.refl, foldl_keeps, ite_keeps, foldl1_keeps, id_eq, h]

theorem sendCoarsen_keeps {o s : State} (k c : Nat) (h : Keeps o s) : Keeps o (sendCoarsen k c s) := by
  unfold sendCoarsen; simp (maxDischargeDepth := 60) only [sendChild_keeps, putSlot_keeps, note_keeps, prod_keeps, keeps_mk, implies_true, Keeps.refl, foldl_keeps, ite_keeps, foldl1_keeps, id_eq, h]

theorem saturation_keeps {o s : State} (k : Nat) (sat : Bool) (h : Keeps o s) : Keeps o (saturation k sat s) := by
  unfold saturation; simp (maxDischargeDepth := 60) only [putSlot_keeps, note_keeps, sendCoarsen_keeps, keeps_mk, implies_true, Keeps.refl, foldl_keeps, ite_keeps, foldl1_keeps, id_eq, h]

theorem splitMove_keeps {o s : State} (k delay : Nat) (h : Keeps o s) : Keeps o (splitMove k delay s) := by
  unfold splitMove; repeat' first | (simp (maxDischargeDepth := 60) only [setMode_keeps, putSlot_keeps, keeps_mk, implies_true, Keeps.refl, foldl_keeps, ite_keeps, foldl1_keeps, id_eq, h]; done) | with_reducible (refine ite_keeps ?_ ?_) | with_reducible (refine foldl_keeps (fun _ _ => ?_) ?_) | split | (dsimp only; with_reducible (refine ite_keeps ?_ ?_)) | (dsimp only; split)

theorem saturatedEpoch_keeps {o s : State} (k full delay : Nat) (h : Keeps o s) : Keeps o (saturatedEpoch k full delay s) := by
  unfold saturatedEpoch; simp (maxDischargeDepth := 60) only [saturation_keeps, showSlot_keeps, splitMove_keeps, keeps_mk, implies_true, Keeps.refl, foldl_keeps, ite_keeps, foldl1_keeps, id_eq, h]

theorem sendSample_keeps {o s : State} (c : Cut) (h : Keeps o s) : Keeps o (sendSample c s) := by
  unfold sendSample; simp (maxDischargeDepth := 60) only [sendUp_keeps, setCrv_keeps, keeps_mk, implies_true, Keeps.refl, foldl_keeps, ite_keeps, foldl1_keeps, id_eq, h]

theorem sampleDue_keeps {o s : State} (c : Cut) (h : Keeps o s) : Keeps o (sampleDue c s) := by
  unfold sampleDue; simp only [keeps_mk, implies_true, Keeps.refl, foldl_keeps, ite_keeps, foldl1_keeps, id_eq, h]

theorem handSample_keeps {o s : State} (c : Cut) (h : Keeps o s) : Keeps o (handSample c s) := by
  unfold handSample; simp (maxDischargeDepth := 60) only [sampleDue_keeps, sendSample_keeps, closeReady_keeps, setCrv_keeps, keeps_mk, implies_true, Keeps.refl, foldl_keeps, ite_keeps, foldl1_keeps, id_eq, h]

theorem slotPost_keeps {o s : State} (seq slot status : Nat) (h : Keeps o s) : Keeps o (slotPost seq slot status s) := by
  unfold slotPost; simp (maxDischargeDepth := 60) only [showSlot_keeps, post_keeps, set_keeps, keeps_mk, implies_true, Keeps.refl, foldl_keeps, ite_keeps, foldl1_keeps, id_eq, h]

theorem drainDomain_keeps {o s : State} (d : Nat) (h : Keeps o s) : Keeps o (drainDomain d s) := by
  unfold drainDomain; split <;> simp only [slotState_keeps, keeps_mk, implies_true, Keeps.refl, foldl_keeps, ite_keeps, foldl1_keeps, id_eq, h]

theorem clearSteps_keeps {o s : State} (k : Nat) (h : Keeps o s) : Keeps o (clearSteps k s) := by
  unfold clearSteps; simp only [keeps_mk, implies_true, Keeps.refl, foldl_keeps, ite_keeps, foldl1_keeps, id_eq, h]

theorem slotCmd_keeps {o s : State} (h : Keeps o s) : Keeps o (slotCmd s) := by
  unfold slotCmd; repeat' first | (simp (maxDischargeDepth := 60) only [set_keeps, slotPost_keeps, tellRoutes_keeps, slotState_keeps, clearSteps_keeps, putSlot_keeps, undefinedField_keeps, keeps_mk, implies_true, Keeps.refl, foldl_keeps, ite_keeps, foldl1_keeps, id_eq, h]; done) | with_reducible (refine ite_keeps ?_ ?_) | with_reducible (refine foldl_keeps (fun _ _ => ?_) ?_) | split | (dsimp only; with_reducible (refine ite_keeps ?_ ?_)) | (dsimp only; split)

theorem routeWrite_keeps {o s : State} (acc : Acc) (h : Keeps o s) : Keeps o (routeWrite acc s) := by
  unfold routeWrite; simp (maxDischargeDepth := 60) only [report_keeps, undefinedField_keeps, perform_keeps, showSlot_keeps, setMode_keeps, putSlot_keeps, keeps_mk, implies_true, Keeps.refl, foldl_keeps, ite_keeps, foldl1_keeps, id_eq, h]

theorem childWrite_keeps {o s : State} (acc : Acc) (h : Keeps o s) : Keeps o (childWrite acc s) := by
  unfold childWrite; simp (maxDischargeDepth := 60) only [perform_keeps, showSlot_keeps, recheck_keeps, putSlot_keeps, keeps_mk, implies_true, Keeps.refl, foldl_keeps, ite_keeps, foldl1_keeps, id_eq, h]

theorem crvWrite_keeps {o s : State} (a : Nat) (acc : Acc) (h : Keeps o s) : Keeps o (crvWrite a acc s) := by
  unfold crvWrite; simp (maxDischargeDepth := 60) only [consume_keeps, routeWrite_keeps, childWrite_keeps, perform_keeps, slotCmd_keeps, set_keeps, putSlot_keeps, showSlot_keeps, tellRoutes_keeps, keeps_mk, implies_true, Keeps.refl, foldl_keeps, ite_keeps, foldl1_keeps, id_eq, h]

theorem slotRow_keeps {o s : State} (op : Nat) (acc : Acc) (h : Keeps o s) : Keeps o (slotRow op acc s) := by
  unfold slotRow; simp only [portWrite_keeps, crvWrite_keeps, keeps_mk, implies_true, Keeps.refl, foldl_keeps, ite_keeps, foldl1_keeps, id_eq, h]

end Sys2Proof.Machine
end

