-- ==== Sys2Proof/Laws/KeepsWork.lean ====
section
/-!
SUPPORT. What time, the tree engine, the Courier, compression and the Porter keep: one lemma for each operation.
-/
namespace Sys2Proof.Machine
set_option linter.unusedSimpArgs false
set_option linter.unusedTactic false
set_option linter.unreachableTactic false

/-! Sep. -/

theorem dropFrame_keeps {o s : State} (f cnt : Field) (code cls : Nat) (h : Keeps o s) : Keeps o (dropFrame f cnt code cls s) := by
  unfold dropFrame; simp only [report_keeps, bump_keeps, keeps_mk, implies_true, Keeps.refl, foldl_keeps, ite_keeps, foldl1_keeps, id_eq, h]

theorem toFirmware_keeps {o s : State} (f : List Byte) (h : Keeps o s) : Keeps o (toFirmware f s) := by
  unfold toFirmware; simp only [dropFrame_keeps, keeps_mk, implies_true, Keeps.refl, foldl_keeps, ite_keeps, foldl1_keeps, id_eq, h]

theorem receiveFrame_keeps {o s : State} (port : Nat) (f : List Byte) (phase : Nat) (h : Keeps o s) : Keeps o (receiveFrame port f phase s) := by
  unfold receiveFrame; simp (maxDischargeDepth := 60) only [dropFrame_keeps, prod_keeps, toFirmware_keeps, keeps_mk, implies_true, Keeps.refl, foldl_keeps, ite_keeps, foldl1_keeps, id_eq, h]

theorem sendFrame_keeps {o s : State} (port : Nat) (b : List Byte) (h : Keeps o s) : Keeps o (sendFrame port b s) := by
  unfold sendFrame; simp only [emit_keeps, keeps_mk, implies_true, Keeps.refl, foldl_keeps, ite_keeps, foldl1_keeps, id_eq, h]

theorem transmitFrame_keeps {o s : State} (port : Nat) (placed : List (List Byte)) (h : Keeps o s) : Keeps o (transmitFrame port placed s) := by
  unfold transmitFrame; repeat' first | (simp (maxDischargeDepth := 60) only [sendFrame_keeps, keeps_mk, implies_true, Keeps.refl, foldl_keeps, ite_keeps, foldl1_keeps, id_eq, h]; done) | with_reducible (refine ite_keeps ?_ ?_) | with_reducible (refine foldl_keeps (fun _ _ => ?_) ?_) | split

theorem tcForward_keeps {o s : State} (phase : Nat) (h : Keeps o s) : Keeps o (tcForward phase s) := by
  unfold tcForward; repeat' first | (simp (maxDischargeDepth := 60) only [sendFrame_keeps, prod_keeps, keeps_mk, implies_true, Keeps.refl, foldl_keeps, ite_keeps, foldl1_keeps, id_eq, h]; done) | split

theorem pcsDown_keeps {o s : State} (port : Nat) (inRx stampLost : Bool) (h : Keeps o s) : Keeps o (pcsDown port inRx stampLost s) := by
  unfold pcsDown; simp (maxDischargeDepth := 60) only [wake_keeps, setBit_keeps, bump_keeps, report_keeps, prod_keeps, keeps_mk, implies_true, Keeps.refl, foldl_keeps, ite_keeps, foldl1_keeps, id_eq, h]

theorem pcsUp_keeps {o s : State} (port : Nat) (h : Keeps o s) : Keeps o (pcsUp port s) := by
  unfold pcsUp; simp (maxDischargeDepth := 60) only [setBit_keeps, wake_keeps, keeps_mk, implies_true, Keeps.refl, foldl_keeps, ite_keeps, foldl1_keeps, id_eq, h]

theorem sepWrite_keeps {o s : State} (a : Nat) (acc : Acc) (h : Keeps o s) : Keeps o (sepWrite a acc s) := by
  unfold sepWrite; simp only [perform_keeps, keeps_mk, implies_true, Keeps.refl, foldl_keeps, ite_keeps, foldl1_keeps, id_eq, h]

/-! Pulse. -/

theorem setTpi_keeps {o s : State} (t : TpiSt) (h : Keeps o s) : Keeps o (setTpi t s) := by
  unfold setTpi; simp only [keeps_mk, implies_true, Keeps.refl, foldl_keeps, ite_keeps, foldl1_keeps, id_eq, h]

theorem reachVal_keeps {o s : State} (b k t : Nat) (h : Keeps o s) : Keeps o (reachVal b k t s) := by
  unfold reachVal; simp only [reachBase_keeps, reachTb0_keeps, keeps_mk, implies_true, Keeps.refl, foldl_keeps, ite_keeps, foldl1_keeps, id_eq, h]

theorem pulseRise_keeps {o s : State} (n : Nat) (p : Pulse) (h : Keeps o s) : Keeps o (pulseRise n p s) := by
  unfold pulseRise; simp only [prod_keeps, setTpi_keeps, keeps_mk, implies_true, Keeps.refl, foldl_keeps, ite_keeps, foldl1_keeps, id_eq, h]

theorem pulseLate_keeps {o s : State} (n : Nat) (p : Pulse) (h : Keeps o s) : Keeps o (pulseLate n p s) := by
  unfold pulseLate; simp (maxDischargeDepth := 60) only [note_keeps, flagBit_keeps, pulseRise_keeps, keeps_mk, implies_true, Keeps.refl, foldl_keeps, ite_keeps, foldl1_keeps, id_eq, h]

theorem pulseEnable_keeps {o s : State} (n : Nat) (h : Keeps o s) : Keeps o (pulseEnable n s) := by
  unfold pulseEnable; simp (maxDischargeDepth := 60) only [flag_keeps, set_keeps, setTpi_keeps, pulseLate_keeps, keeps_mk, implies_true, Keeps.refl, foldl_keeps, ite_keeps, foldl1_keeps, id_eq, h]

theorem pulseEdge_keeps {o s : State} (n : Nat) (h : Keeps o s) : Keeps o (pulseEdge n s) := by
  unfold pulseEdge; repeat' first | (simp only [pulseRise_keeps, reachVal_keeps, keeps_mk, implies_true, Keeps.refl, foldl_keeps, ite_keeps, foldl1_keeps, id_eq, h]; done) | split

theorem pulseFall_keeps {o s : State} (n : Nat) (h : Keeps o s) : Keeps o (pulseFall n s) := by
  unfold pulseFall; split <;> simp only [reachBase_keeps, setTpi_keeps, keeps_mk, implies_true, Keeps.refl, foldl_keeps, ite_keeps, foldl1_keeps, id_eq, h]

theorem pulseStep_keeps {o s : State} (old : State) (n : Nat) (h : Keeps o s) : Keeps o (pulseStep old n s) := by
  unfold pulseStep; repeat' first | (simp (maxDischargeDepth := 60) only [note_keeps, setTpi_keeps, pulseLate_keeps, keeps_mk, implies_true, Keeps.refl, foldl_keeps, ite_keeps, h]; done) | with_reducible (refine ite_keeps ?_ ?_) | with_reducible (refine foldl_keeps (fun _ _ => ?_) ?_) | split | (dsimp only; with_reducible (refine ite_keeps ?_ ?_)) | (dsimp only; split)

theorem ppsRise_keeps {o s : State} (h : Keeps o s) : Keeps o (ppsRise s) := by
  unfold ppsRise; split <;> simp only [reachVal_keeps, setTpi_keeps, keeps_mk, implies_true, Keeps.refl, foldl_keeps, ite_keeps, foldl1_keeps, id_eq, h]

theorem ppsFall_keeps {o s : State} (h : Keeps o s) : Keeps o (ppsFall s) := by
  unfold ppsFall; split <;> simp only [reachBase_keeps, setTpi_keeps, keeps_mk, implies_true, Keeps.refl, foldl_keeps, ite_keeps, foldl1_keeps, id_eq, h]

theorem ppsStep_keeps {o s : State} (old : State) (n : Nat) (h : Keeps o s) : Keeps o (ppsStep old n s) := by
  unfold ppsStep; repeat' first | (simp (maxDischargeDepth := 60) only [note_keeps, keeps_mk, implies_true, Keeps.refl, foldl_keeps, ite_keeps, h]; done) | with_reducible (refine ite_keeps ?_ ?_) | with_reducible (refine foldl_keeps (fun _ _ => ?_) ?_) | split | (dsimp only; with_reducible (refine ite_keeps ?_ ?_)) | (dsimp only; split)

theorem setCap_keeps {o s : State} (ch : Nat) (c : Capture) (h : Keeps o s) : Keeps o (setCap ch c s) := by
  unfold setCap; simp only [setTpi_keeps, keeps_mk, implies_true, Keeps.refl, foldl_keeps, ite_keeps, foldl1_keeps, id_eq, h]

theorem showCap_keeps {o s : State} (ch : Nat) (fresh : Bool) (h : Keeps o s) : Keeps o (showCap ch fresh s) := by
  unfold showCap; repeat' first | (simp (maxDischargeDepth := 60) only [set_keeps, post_keeps, wr_keeps, keeps_mk, implies_true, Keeps.refl, foldl_keeps, ite_keeps, foldl1_keeps, id_eq, h]; done) | with_reducible (refine ite_keeps ?_ ?_) | with_reducible (refine foldl_keeps (fun _ _ => ?_) ?_) | split | (dsimp only; with_reducible (refine ite_keeps ?_ ?_)) | (dsimp only; split)

theorem captureEdge_keeps {o s : State} (ch phase : Nat) (h : Keeps o s) : Keeps o (captureEdge ch phase s) := by
  unfold captureEdge; simp (maxDischargeDepth := 60) only [flagBit_keeps, bump_keeps, setCap_keeps, note_keeps, wake_keeps, prod_keeps, showCap_keeps, keeps_mk, implies_true, Keeps.refl, foldl_keeps, ite_keeps, foldl1_keeps, id_eq, h]

theorem captureConsume_keeps {o s : State} (ch : Nat) (acc : Acc) (h : Keeps o s) : Keeps o (captureConsume ch acc s) := by
  unfold captureConsume; simp (maxDischargeDepth := 60) only [consume_keeps, showCap_keeps, setCap_keeps, keeps_mk, implies_true, Keeps.refl, foldl_keeps, ite_keeps, foldl1_keeps, id_eq, h]

theorem tpiWrite_keeps {o s : State} (a : Nat) (acc : Acc) (h : Keeps o s) : Keeps o (tpiWrite a acc s) := by
  unfold tpiWrite; simp (maxDischargeDepth := 60) only [captureConsume_keeps, perform_keeps, pulseEnable_keeps, setTpi_keeps, keeps_mk, implies_true, Keeps.refl, foldl_keeps, ite_keeps, foldl1_keeps, id_eq, h]

/-! Time. -/

theorem setTim_keeps {o s : State} (t : TimSt) (h : Keeps o s) : Keeps o (setTim t s) := by
  unfold setTim; simp only [keeps_mk, implies_true, Keeps.refl, foldl_keeps, ite_keeps, foldl1_keeps, id_eq, h]

theorem setServo_keeps {o s : State} (n : Nat) (v : Servo) (h : Keeps o s) : Keeps o (setServo n v s) := by
  unfold setServo; simp only [setTim_keeps, keeps_mk, implies_true, Keeps.refl, foldl_keeps, ite_keeps, foldl1_keeps, id_eq, h]

theorem showRoot_keeps {o s : State} (h : Keeps o s) : Keeps o (showRoot s) := by
  unfold showRoot; simp only [set_keeps, keeps_mk, implies_true, Keeps.refl, foldl_keeps, ite_keeps, foldl1_keeps, id_eq, h]

theorem tbEnter_keeps {o s : State} (n st cause : Nat) (h : Keeps o s) : Keeps o (tbEnter n st cause s) := by
  unfold tbEnter; simp (maxDischargeDepth := 60) only [showRoot_keeps, set_keeps, keeps_mk, implies_true, Keeps.refl, foldl_keeps, ite_keeps, foldl1_keeps, id_eq, h]

theorem stepBase_keeps {o s : State} (n : Nat) (d : Int) (h : Keeps o s) : Keeps o (stepBase n d s) := by
  unfold stepBase; simp (maxDischargeDepth := 60) only [setTim_keeps, tallyStep_keeps, ppsStep_keeps, pulseStep_keeps, keeps_mk, implies_true, Keeps.refl, foldl_keeps, ite_keeps, foldl1_keeps, id_eq, h]

theorem freezeF_keeps {o s : State} (n : Nat) (h : Keeps o s) : Keeps o (freezeF n s) := by
  unfold freezeF; simp only [set_keeps, keeps_mk, implies_true, Keeps.refl, foldl_keeps, ite_keeps, foldl1_keeps, id_eq, h]

theorem enterHoldover_keeps {o s : State} (n cause : Nat) (h : Keeps o s) : Keeps o (enterHoldover n cause s) := by
  unfold enterHoldover; simp (maxDischargeDepth := 60) only [report_keeps, prod_keeps, freezeF_keeps, tbEnter_keeps, keeps_mk, implies_true, Keeps.refl, foldl_keeps, ite_keeps, foldl1_keeps, id_eq, h]

theorem refuse_keeps {o_ s : State} (n : Nat) (o : Int) (h : Keeps o_ s) : Keeps o_ (refuse n o s) := by
  unfold refuse; simp (maxDischargeDepth := 60) only [freezeF_keeps, tbEnter_keeps, set_keeps, report_keeps, prod_keeps, keeps_mk, implies_true, Keeps.refl, foldl_keeps, ite_keeps, foldl1_keeps, id_eq, h]

theorem servoStep_keeps {o_ s : State} (n : Nat) (o : Int) (t : Nat) (h : Keeps o_ s) : Keeps o_ (servoStep n o t s) := by
  unfold servoStep; simp (maxDischargeDepth := 60) only [set_keeps, keeps_mk, implies_true, Keeps.refl, foldl_keeps, ite_keeps, foldl1_keeps, id_eq, h]

theorem lockRun_keeps {o_ s : State} (n : Nat) (o : Int) (h : Keeps o_ s) : Keeps o_ (lockRun n o s) := by
  unfold lockRun; simp (maxDischargeDepth := 60) only [setServo_keeps, note_keeps, tbEnter_keeps, keeps_mk, implies_true, Keeps.refl, foldl_keeps, ite_keeps, foldl1_keeps, id_eq, h]

theorem applied_keeps {o_ s : State} (n : Nat) (o : Int) (h : Keeps o_ s) : Keeps o_ (applied n o s) := by
  unfold applied; simp (maxDischargeDepth := 60) only [bump_keeps, set_keeps, prod_keeps, setServo_keeps, keeps_mk, implies_true, Keeps.refl, foldl_keeps, ite_keeps, foldl1_keeps, id_eq, h]

theorem applyMeas_keeps {o_ s : State} (n : Nat) (o : Int) (h : Keeps o_ s) : Keeps o_ (applyMeas n o s) := by
  unfold applyMeas; repeat' first | (simp (maxDischargeDepth := 60) only [servoStep_keeps, applied_keeps, lockRun_keeps, keeps_mk, implies_true, Keeps.refl, foldl_keeps, ite_keeps, foldl1_keeps, id_eq, h]; done) | split

theorem measure_keeps {o_ s : State} (n : Nat) (o : Int) (fab : Bool) (h : Keeps o_ s) : Keeps o_ (measure n o fab s) := by
  unfold measure; simp (maxDischargeDepth := 60) only [set_keeps, stepBase_keeps, note_keeps, applied_keeps, tbEnter_keeps, refuse_keeps, applyMeas_keeps, setServo_keeps, keeps_mk, implies_true, Keeps.refl, foldl_keeps, ite_keeps, foldl1_keeps, id_eq, h]

theorem jumpStale_keeps {o s : State} (n seq why : Nat) (h : Keeps o s) : Keeps o (jumpStale n seq why s) := by
  unfold jumpStale; simp only [report_keeps, keeps_mk, implies_true, Keeps.refl, foldl_keeps, ite_keeps, foldl1_keeps, id_eq, h]

theorem jumpDone_keeps {o s : State} (n which : Nat) (h : Keeps o s) : Keeps o (jumpDone n which s) := by
  unfold jumpDone; simp (maxDischargeDepth := 60) only [note_keeps, setServo_keeps, tbEnter_keeps, keeps_mk, implies_true, Keeps.refl, foldl_keeps, ite_keeps, foldl1_keeps, id_eq, h]

theorem jumpWrite_keeps {o s : State} (n : Nat) (acc : Acc) (h : Keeps o s) : Keeps o (jumpWrite n acc s) := by
  unfold jumpWrite; simp (maxDischargeDepth := 60) only [jumpStale_keeps, ledgerReg_keeps, jumpDone_keeps, stepBase_keeps, keeps_mk, implies_true, Keeps.refl, foldl_keeps, ite_keeps, foldl1_keeps, id_eq, h]

theorem servoTimeout_keeps {o s : State} (n : Nat) (h : Keeps o s) : Keeps o (servoTimeout n s) := by
  unfold servoTimeout; repeat' first | (simp (maxDischargeDepth := 60) only [reachBase_keeps, note_keeps, tbEnter_keeps, enterHoldover_keeps, keeps_mk, implies_true, Keeps.refl, foldl_keeps, ite_keeps, foldl1_keeps, id_eq, h]; done) | split

theorem latch_keeps {o s : State} (i v : Nat) (h : Keeps o s) : Keeps o (latch i v s) := by
  unfold latch; simp (maxDischargeDepth := 60) only [set_keeps, keeps_mk, implies_true, Keeps.refl, foldl_keeps, ite_keeps, foldl1_keeps, id_eq, h]

theorem timeSnapshot_keeps {o s : State} (h : Keeps o s) : Keeps o (timeSnapshot s) := by
  unfold timeSnapshot; simp (maxDischargeDepth := 60) only [flag_keeps, latch_keeps, post_keeps, keeps_mk, implies_true, Keeps.refl, foldl_keeps, ite_keeps, foldl1_keeps, id_eq, h]

theorem setPtp_keeps {o s : State} (p : PtpSt) (h : Keeps o s) : Keeps o (setPtp p s) := by
  unfold setPtp; simp only [setTim_keeps, keeps_mk, implies_true, Keeps.refl, foldl_keeps, ite_keeps, foldl1_keeps, id_eq, h]

theorem foreign_keeps {o s : State} (h : Keeps o s) : Keeps o (foreign s) := by
  unfold foreign; simp only [bump_keeps, keeps_mk, implies_true, Keeps.refl, foldl_keeps, ite_keeps, foldl1_keeps, id_eq, h]

theorem invalidPtp_keeps {o s : State} (h : Keeps o s) : Keeps o (invalidPtp s) := by
  unfold invalidPtp; simp only [bump_keeps, keeps_mk, implies_true, Keeps.refl, foldl_keeps, ite_keeps, foldl1_keeps, id_eq, h]

theorem syncKnown_keeps {o s : State} (seq : Nat) (x : Int) (h : Keeps o s) : Keeps o (syncKnown seq x s) := by
  unfold syncKnown; repeat' first | (simp (maxDischargeDepth := 60) only [setPtp_keeps, measure_keeps, keeps_mk, implies_true, Keeps.refl, foldl_keeps, ite_keeps, foldl1_keeps, id_eq, h]; done) | with_reducible (refine ite_keeps ?_ ?_) | with_reducible (refine foldl_keeps (fun _ _ => ?_) ?_) | split | (dsimp only; with_reducible (refine ite_keeps ?_ ?_)) | (dsimp only; split)

theorem ptpSync_keeps {o s : State} (m : List Byte) (phase : Nat) (h : Keeps o s) : Keeps o (ptpSync m phase s) := by
  unfold ptpSync; simp (maxDischargeDepth := 60) only [foreign_keeps, invalidPtp_keeps, setPtp_keeps, syncKnown_keeps, keeps_mk, implies_true, Keeps.refl, foldl_keeps, ite_keeps, foldl1_keeps, id_eq, h]

theorem ptpFollowUp_keeps {o s : State} (m : List Byte) (h : Keeps o s) : Keeps o (ptpFollowUp m s) := by
  unfold ptpFollowUp; repeat' first | (simp only [foreign_keeps, syncKnown_keeps, setPtp_keeps, keeps_mk, implies_true, Keeps.refl, foldl_keeps, ite_keeps, foldl1_keeps, id_eq, h]; done) | split

theorem newDelay_keeps {o s : State} (x y : Int) (h : Keeps o s) : Keeps o (newDelay x y s) := by
  unfold newDelay; simp (maxDischargeDepth := 60) only [invalidPtp_keeps, set_keeps, setPtp_keeps, keeps_mk, implies_true, Keeps.refl, foldl_keeps, ite_keeps, foldl1_keeps, id_eq, h]

theorem ptpDelayResp_keeps {o s : State} (m : List Byte) (h : Keeps o s) : Keeps o (ptpDelayResp m s) := by
  unfold ptpDelayResp; repeat' first | (simp only [foreign_keeps, invalidPtp_keeps, setPtp_keeps, newDelay_keeps, keeps_mk, implies_true, Keeps.refl, foldl_keeps, ite_keeps, foldl1_keeps, id_eq, h]; done) | split

theorem delayReqSend_keeps {o s : State} (phase : Nat) (h : Keeps o s) : Keeps o (delayReqSend phase s) := by
  unfold delayReqSend; repeat' first | (simp (maxDischargeDepth := 60) only [reachBase_keeps, sendFrame_keeps, prod_keeps, setPtp_keeps, keeps_mk, implies_true, Keeps.refl, foldl_keeps, ite_keeps, foldl1_keeps, id_eq, h]; done) | with_reducible (refine ite_keeps ?_ ?_) | with_reducible (refine foldl_keeps (fun _ _ => ?_) ?_) | split

theorem ptpOther_keeps {o s : State} (f : List Byte) (h : Keeps o s) : Keeps o (ptpOther f s) := by
  unfold ptpOther; repeat' first | (simp (maxDischargeDepth := 60) only [toFirmware_keeps, note_keeps, foreign_keeps, keeps_mk, implies_true, Keeps.refl, foldl_keeps, ite_keeps, foldl1_keeps, id_eq, h]; done) | split

theorem ptpStamps_keeps {o s : State} (t1 t2 t3 t4 cSync cDelay : Int) (h : Keeps o s) : Keeps o (ptpStamps t1 t2 t3 t4 cSync cDelay s) := by
  unfold ptpStamps; split <;> simp only [measure_keeps, newDelay_keeps, keeps_mk, implies_true, Keeps.refl, foldl_keeps, ite_keeps, foldl1_keeps, id_eq, h]

theorem ptpFresh_keeps {o s : State} (h : Keeps o s) : Keeps o (ptpFresh s) := by
  unfold ptpFresh; simp only [setPtp_keeps, keeps_mk, implies_true, Keeps.refl, foldl_keeps, ite_keeps, foldl1_keeps, id_eq, h]

theorem timWrite_keeps {o s : State} (a : Nat) (acc : Acc) (h : Keeps o s) : Keeps o (timWrite a acc s) := by
  unfold timWrite; repeat' first | (simp (maxDischargeDepth := 60) only [jumpWrite_keeps, consume_keeps, perform_keeps, timeSnapshot_keeps, ptpFresh_keeps, undefinedField_keeps, showRoot_keeps, setTim_keeps, keeps_mk, implies_true, Keeps.refl, foldl_keeps, ite_keeps, foldl1_keeps, id_eq, h]; done) | split

/-! FabricTime. -/

theorem setFab_keeps {o s : State} (f : FabSt) (h : Keeps o s) : Keeps o (setFab f s) := by
  unfold setFab; simp only [setTim_keeps, keeps_mk, implies_true, Keeps.refl, foldl_keeps, ite_keeps, foldl1_keeps, id_eq, h]

theorem fabricDreqSend_keeps {o s : State} (h : Keeps o s) : Keeps o (fabricDreqSend s) := by
  unfold fabricDreqSend; repeat' first | (simp (maxDischargeDepth := 60) only [reachBase_keeps, setFab_keeps, sendPkt_keeps, keeps_mk, implies_true, Keeps.refl, foldl_keeps, ite_keeps, foldl1_keeps, id_eq, h]; done) | split

theorem replyFull_keeps {o s : State} (part : Nat) (h : Keeps o s) : Keeps o (replyFull part s) := by
  unfold replyFull; simp only [report_keeps, keeps_mk, implies_true, Keeps.refl, foldl_keeps, ite_keeps, foldl1_keeps, id_eq, h]

theorem takeTime_keeps {o s : State} {m l : Nat} {p : Pkt} {t : State} (h : Keeps o s) (e : takeTime m s = some (l, p, t)) : Keeps o t := by
  unfold takeTime at e
  repeat' first | (cases e; done) | (cases e; exact prod_keeps _ _ h) | split at e

theorem fabricDreq_keeps {o s : State} (h : Keeps o s) : Keeps o (fabricDreq s) := by
  unfold fabricDreq; repeat' first | (rename_i heq; replace heq := takeTime_keeps h heq) | (simp (maxDischargeDepth := 60) only [replyFull_keeps, setFab_keeps, sendPkt_keeps, keeps_mk, implies_true, Keeps.refl, foldl_keeps, ite_keeps, foldl1_keeps, id_eq, h, *]; done) | with_reducible (refine ite_keeps ?_ ?_) | with_reducible (refine foldl_keeps (fun _ _ => ?_) ?_) | split

theorem fabricDresp_keeps {o s : State} (h : Keeps o s) : Keeps o (fabricDresp s) := by
  unfold fabricDresp; repeat' first | (rename_i heq; replace heq := takeTime_keeps h heq) | (simp (maxDischargeDepth := 60) only [setFab_keeps, keeps_mk, implies_true, Keeps.refl, foldl_keeps, ite_keeps, foldl1_keeps, id_eq, h, *]; done) | with_reducible (refine ite_keeps ?_ ?_) | with_reducible (refine foldl_keeps (fun _ _ => ?_) ?_) | split

theorem fabricMeasure_keeps {o s : State} (t1 t2 t3 t4 : Int) (h : Keeps o s) : Keeps o (fabricMeasure t1 t2 t3 t4 s) := by
  unfold fabricMeasure; simp (maxDischargeDepth := 60) only [set_keeps, measure_keeps, keeps_mk, implies_true, Keeps.refl, foldl_keeps, ite_keeps, foldl1_keeps, id_eq, h]

theorem fabricFup_keeps {o s : State} (h : Keeps o s) : Keeps o (fabricFup s) := by
  unfold fabricFup; repeat' first | (rename_i heq; replace heq := takeTime_keeps h heq) | (simp (maxDischargeDepth := 60) only [setFab_keeps, fabricMeasure_keeps, keeps_mk, implies_true, Keeps.refl, foldl_keeps, ite_keeps, foldl1_keeps, id_eq, h, *]; done) | with_reducible (refine ite_keeps ?_ ?_) | with_reducible (refine foldl_keeps (fun _ _ => ?_) ?_) | split | (dsimp only; with_reducible (refine ite_keeps ?_ ?_)) | (dsimp only; split)

/-! Tree. -/

theorem setTre_keeps {o s : State} (t : TreSt) (h : Keeps o s) : Keeps o (setTre t s) := by
  unfold setTre; simp only [keeps_mk, implies_true, Keeps.refl, foldl_keeps, ite_keeps, foldl1_keeps, id_eq, h]

theorem showTre_keeps {o s : State} (h : Keeps o s) : Keeps o (showTre s) := by
  unfold showTre; simp (maxDischargeDepth := 60) only [set_keeps, keeps_mk, implies_true, Keeps.refl, foldl_keeps, ite_keeps, foldl1_keeps, id_eq, h]

theorem protWrite_keeps {o s : State} (slot : Nat) (h : Keeps o s) : Keeps o (protWrite slot s) := by
  unfold protWrite; simp (maxDischargeDepth := 60) only [record_keeps, flag_keeps, setTre_keeps, keeps_mk, implies_true, Keeps.refl, foldl_keeps, ite_keeps, foldl1_keeps, id_eq, h]

theorem sramWrite_keeps {o s : State} (a : Nat) (bs : List Byte) (h : Keeps o s) : Keeps o (sramWrite a bs s) := by
  have put (t : State) (m : List Host.Cell) (hm : Memory.wf t.sram = true → Memory.wf m = true) : Keeps t { t with sram := m } :=
    ⟨rfl, List.prefix_rfl, le_rfl, fun w => ⟨w.1, hm w.2.1, w.2.2⟩⟩
  have some_wf (c : Nat × Byte → Bool) (l : List (Nat × Byte)) : ∀ m, Memory.wf m = true →
      Memory.wf (l.foldl (fun m e => if c e then putCell (a + e.1) e.2 m else m) m) = true := by
    induction l with
    | nil => exact fun _ h => h
    | cons e t ih =>
      intro m hm
      simp only [List.foldl_cons]
      exact ih _ (by split; exacts [putCell_wf _ _ hm, hm])
  have k {t : State} {l : List (Nat × Nat × Nat)} (h : Keeps o t) : Keeps o (l.foldl (fun s m => protWrite m.1 s) t) :=
    foldl_keeps (fun t _ => protWrite_keeps _ (Keeps.refl t)) h
  unfold sramWrite
  dsimp only
  split
  · exact (k h).trans (put _ _ fun w => putCells_wf _ _ w)
  · exact (k h).trans (put _ _ fun w => some_wf _ _ _ w)

theorem partWrite_keeps {o s : State} (id off : Nat) (bs : List Byte) (h : Keeps o s) : Keeps o (partWrite id off bs s) := by
  unfold partWrite; simp only [sramWrite_keeps, keeps_mk, implies_true, Keeps.refl, foldl_keeps, ite_keeps, foldl1_keeps, id_eq, h]

theorem modelPost_keeps {o s : State} (seq slot status pos : Nat) (h : Keeps o s) : Keeps o (modelPost seq slot status pos s) := by
  unfold modelPost; simp (maxDischargeDepth := 60) only [report_keeps, showTre_keeps, post_keeps, set_keeps, keeps_mk, implies_true, Keeps.refl, foldl_keeps, ite_keeps, foldl1_keeps, id_eq, h]

theorem showModel_keeps {o s : State} (slot : Nat) (m : Option Model) (failed : Bool) (h : Keeps o s) : Keeps o (showModel slot m failed s) := by
  unfold showModel; simp only [wr_keeps, keeps_mk, implies_true, Keeps.refl, foldl_keeps, ite_keeps, foldl1_keeps, id_eq, h]

theorem unbind_keeps {o s : State} (slot : Nat) (failed : Bool) (h : Keeps o s) : Keeps o (unbind slot failed s) := by
  unfold unbind; simp (maxDischargeDepth := 60) only [showTre_keeps, showModel_keeps, setTre_keeps, keeps_mk, implies_true, Keeps.refl, foldl_keeps, ite_keeps, foldl1_keeps, id_eq, h]

theorem modelCmd_keeps {o s : State} (h : Keeps o s) : Keeps o (modelCmd s) := by
  unfold modelCmd; repeat' first | (simp (maxDischargeDepth := 60) only [set_keeps, modelPost_keeps, setTre_keeps, unbind_keeps, undefinedField_keeps, keeps_mk, implies_true, Keeps.refl, foldl_keeps, ite_keeps, foldl1_keeps, id_eq, h]; done) | split

theorem bindDone_keeps {o s : State} (ecc : Option Nat) (h : Keeps o s) : Keeps o (bindDone ecc s) := by
  unfold bindDone; repeat' first | (simp (maxDischargeDepth := 60) only [setTre_keeps, modelPost_keeps, showModel_keeps, note_keeps, keeps_mk, implies_true, Keeps.refl, foldl_keeps, ite_keeps, foldl1_keeps, id_eq, h]; done) | split

theorem evalRow_keeps {o : State} {a : State × Nat} (m : Model) (j : TreJob) (r : Nat) (h : Keeps o a.1) : Keeps o (evalRow m j a r).1 :=
  partWrite_keeps _ _ _ h

theorem jobPost_keeps {o s : State} (j : TreJob) (status rows nonfin cycles : Nat) (h : Keeps o s) : Keeps o (jobPost j status rows nonfin cycles s) := by
  unfold jobPost; simp (maxDischargeDepth := 60) only [wr_keeps, report_keeps, post_keeps, syncEvent_keeps, showTre_keeps, keeps_mk, implies_true, Keeps.refl, foldl_keeps, ite_keeps, foldl1_keeps, id_eq, h]

theorem treeGo_keeps {o s : State} (i : Nat) (h : Keeps o s) : Keeps o (treeGo i s) := by
  unfold treeGo; repeat' first | (simp (maxDischargeDepth := 60) only [flag_keeps, jobPost_keeps, showTre_keeps, setTre_keeps, keeps_mk, implies_true, Keeps.refl, foldl_keeps, ite_keeps, foldl1_keeps, id_eq, h]; done) | with_reducible (refine ite_keeps ?_ ?_) | with_reducible (refine foldl_keeps (fun _ _ => ?_) ?_) | split | (dsimp only; with_reducible (refine ite_keeps ?_ ?_)) | (dsimp only; split)

theorem treeStart_keeps {o s : State} (e : Nat) (h : Keeps o s) : Keeps o (treeStart e s) := by
  unfold treeStart; repeat' first | (simp only [showTre_keeps, setTre_keeps, keeps_mk, implies_true, Keeps.refl, foldl_keeps, ite_keeps, foldl1_keeps, id_eq, h]; done) | split

theorem treeDone_keeps {o s : State} (e cycles : Nat) (ecc : Option (Nat × Bool × Nat)) (h : Keeps o s) : Keeps o (treeDone e cycles ecc s) := by
  unfold treeDone; repeat' first | (simp (maxDischargeDepth := 60) only [evalRow_keeps, prod_keeps, setTre_keeps, jobPost_keeps, note_keeps, flag_keeps, unbind_keeps, keeps_mk, implies_true, Keeps.refl, foldl_keeps, ite_keeps, foldl1_keeps, id_eq, h]; done) | split

theorem treeAbort_keeps {o s : State} (h : Keeps o s) : Keeps o (treeAbort s) := by
  unfold treeAbort; simp only [jobPost_keeps, setTre_keeps, keeps_mk, implies_true, Keeps.refl, foldl_keeps, ite_keeps, foldl1_keeps, id_eq, h]

theorem treWrite_keeps {o s : State} (a : Nat) (acc : Acc) (h : Keeps o s) : Keeps o (treWrite a acc s) := by
  unfold treWrite; simp (maxDischargeDepth := 60) only [consume_keeps, perform_keeps, modelCmd_keeps, treeGo_keeps, keeps_mk, implies_true, Keeps.refl, foldl_keeps, ite_keeps, foldl1_keeps, id_eq, h]

/-! Courier. -/

theorem setCur_keeps {o s : State} (c : CurSt) (h : Keeps o s) : Keeps o (setCur c s) := by
  unfold setCur; simp only [keeps_mk, implies_true, Keeps.refl, foldl_keeps, ite_keeps, foldl1_keeps, id_eq, h]

theorem setSnap_keeps {o s : State} (p : CurSnap) (h : Keeps o s) : Keeps o (setSnap p s) := by
  unfold setSnap; simp only [setCur_keeps, keeps_mk, implies_true, Keeps.refl, foldl_keeps, ite_keeps, foldl1_keeps, id_eq, h]

theorem curEnter_keeps {o s : State} (n : Nat) (h : Keeps o s) : Keeps o (curEnter n s) := by
  unfold curEnter; simp only [set_keeps, keeps_mk, implies_true, Keeps.refl, foldl_keeps, ite_keeps, foldl1_keeps, id_eq, h]

theorem showStart_keeps {o s : State} (h : Keeps o s) : Keeps o (showStart s) := by
  unfold showStart; simp only [set_keeps, keeps_mk, implies_true, Keeps.refl, foldl_keeps, ite_keeps, foldl1_keeps, id_eq, h]

theorem curPost_keeps {o s : State} (seq status : Nat) (h : Keeps o s) : Keeps o (curPost seq status s) := by
  unfold curPost; split <;> simp only [showStart_keeps, setCur_keeps, post_keeps, keeps_mk, implies_true, Keeps.refl, foldl_keeps, ite_keeps, foldl1_keeps, id_eq, h]

theorem curOwed_keeps {o s : State} (h : Keeps o s) : Keeps o (curOwed s) := by
  unfold curOwed; repeat' first | (simp only [curPost_keeps, setCur_keeps, keeps_mk, implies_true, Keeps.refl, foldl_keeps, ite_keeps, foldl1_keeps, id_eq, h]; done) | split

theorem curOut_keeps {o s : State} (seq outcome detail : Nat) (h : Keeps o s) : Keeps o (curOut seq outcome detail s) := by
  unfold curOut; simp only [syncEvent_keeps, post_keeps, keeps_mk, implies_true, Keeps.refl, foldl_keeps, ite_keeps, foldl1_keeps, id_eq, h]

theorem showIntents_keeps {o s : State} (h : Keeps o s) : Keeps o (showIntents s) := by
  unfold showIntents; simp only [set_keeps, keeps_mk, implies_true, Keeps.refl, foldl_keeps, ite_keeps, foldl1_keeps, id_eq, h]

theorem answerOne_keeps {o s : State} (code : Nat) (i : Nat × Nat × Nat) (h : Keeps o s) : Keeps o (answerOne code s i) := by
  unfold answerOne; simp (maxDischargeDepth := 60) only [emit_keeps, set_keeps, bump_keeps, keeps_mk, implies_true, Keeps.refl, foldl_keeps, ite_keeps, foldl1_keeps, id_eq, h]

theorem answerPage_keeps {o s : State} (page code : Nat) (h : Keeps o s) : Keeps o (answerPage page code s) := by
  unfold answerPage; simp (maxDischargeDepth := 60) only [showIntents_keeps, answerOne_keeps, keeps_mk, implies_true, Keeps.refl, foldl_keeps, ite_keeps, foldl1_keeps, id_eq, h]

theorem answerAll_keeps {o s : State} (code : Nat) (h : Keeps o s) : Keeps o (answerAll code s) := by
  unfold answerAll; simp (maxDischargeDepth := 60) only [showIntents_keeps, answerOne_keeps, keeps_mk, implies_true, Keeps.refl, foldl_keeps, ite_keeps, foldl1_keeps, id_eq, h]

theorem stopSnap_keeps {o s : State} (code : Nat) (p : CurSnap) (h : Keeps o s) : Keeps o (stopSnap code p s) := by
  unfold stopSnap; repeat' first | (simp (maxDischargeDepth := 60) only [memCancel_keeps, set_keeps, answerAll_keeps, keeps_mk, implies_true, Keeps.refl, foldl_keeps, ite_keeps, foldl1_keeps, id_eq, h]; done) | with_reducible (refine ite_keeps ?_ ?_) | with_reducible (refine foldl_keeps (fun _ _ => ?_) ?_) | split | (dsimp only; with_reducible (refine ite_keeps ?_ ?_)) | (dsimp only; split) | ((try dsimp only); first | with_reducible (apply memCancel_keeps) | with_reducible (apply set_keeps) | with_reducible (apply answerAll_keeps) | with_reducible (apply keeps_mk))

theorem endSnap_keeps {o s : State} (outcome detail : Nat) (p : CurSnap) (h : Keeps o s) : Keeps o (endSnap outcome detail p s) := by
  unfold endSnap; simp (maxDischargeDepth := 60) only [curEnter_keeps, showStart_keeps, setCur_keeps, curOut_keeps, keeps_mk, implies_true, Keeps.refl, foldl_keeps, ite_keeps, foldl1_keeps, id_eq, h]

theorem snapFinish_keeps {o s : State} (p : CurSnap) (h : Keeps o s) : Keeps o (snapFinish p s) := by
  unfold snapFinish; simp (maxDischargeDepth := 60) only [flag_keeps, endSnap_keeps, note_keeps, wr_keeps, keeps_mk, implies_true, Keeps.refl, foldl_keeps, ite_keeps, foldl1_keeps, id_eq, h]

theorem snapEnd_keeps {o s : State} (outcome : Nat) (p : CurSnap) (h : Keeps o s) : Keeps o (snapEnd outcome p s) := by
  unfold snapEnd; simp only [endSnap_keeps, stopSnap_keeps, keeps_mk, implies_true, Keeps.refl, foldl_keeps, ite_keeps, foldl1_keeps, id_eq, h]

theorem snapFail_keeps {o s : State} (p : CurSnap) (h : Keeps o s) : Keeps o (snapFail p s) := by
  unfold snapFail; simp only [snapEnd_keeps, note_keeps, keeps_mk, implies_true, Keeps.refl, foldl_keeps, ite_keeps, foldl1_keeps, id_eq, h]

theorem sendCkpt_keeps {o s : State} (lvl idx : Nat) (restore : Bool) (b : List Byte) (h : Keeps o s) : Keeps o (sendCkpt lvl idx restore b s) := by
  unfold sendCkpt; simp only [sendPkt_keeps, keeps_mk, implies_true, Keeps.refl, foldl_keeps, ite_keeps, foldl1_keeps, id_eq, h]

theorem ackTake_keeps {o s : State} (slot col id status : Nat) (h : Keeps o s) : Keeps o (ackTake slot col id status s) := by
  unfold ackTake; repeat' first | (simp (maxDischargeDepth := 60) only [set_keeps, setSnap_keeps, flag_keeps, snapFinish_keeps, keeps_mk, implies_true, Keeps.refl, foldl_keeps, ite_keeps, foldl1_keeps, id_eq, h]; done) | split

theorem sendAck_keeps {o s : State} (lvl idx slot col id origin status : Nat) (h : Keeps o s) : Keeps o (sendAck lvl idx slot col id origin status s) := by
  unfold sendAck; simp only [ackTake_keeps, sendCkpt_keeps, keeps_mk, implies_true, Keeps.refl, foldl_keeps, ite_keeps, foldl1_keeps, id_eq, h]

theorem putCurRx_keeps {o s : State} (r : CurRx) (h : Keeps o s) : Keeps o (putCurRx r s) := by
  unfold putCurRx; simp only [setCur_keeps, keeps_mk, implies_true, Keeps.refl, foldl_keeps, ite_keeps, foldl1_keeps, id_eq, h]

theorem discardCkpt_keeps {o s : State} (origin status : Nat) (h : Keeps o s) : Keeps o (discardCkpt origin status s) := by
  unfold discardCkpt; simp only [report_keeps, keeps_mk, implies_true, Keeps.refl, foldl_keeps, ite_keeps, foldl1_keeps, id_eq, h]

theorem rxMem_keeps {o s : State} (addr : Nat) (b : List Byte) (h : Keeps o s) : Keeps o (rxMem addr b s) := by
  unfold rxMem; simp only [memRequest_keeps, keeps_mk, implies_true, Keeps.refl, foldl_keeps, ite_keeps, foldl1_keeps, id_eq, h]

theorem rxFor_keeps {o s : State} (e k id col src lvl : Nat) (h : Keeps o s) : Keeps o (rxFor e k id col src lvl s).2 := by
  unfold rxFor; repeat' first | (simp (maxDischargeDepth := 60) only [rxMem_keeps, memCancel_keeps, keeps_mk, implies_true, Keeps.refl, foldl_keeps, ite_keeps, h]; done) | with_reducible (refine ite_keeps ?_ ?_) | with_reducible (refine foldl_keeps (fun _ _ => ?_) ?_) | split | (dsimp only; with_reducible (refine ite_keeps ?_ ?_)) | (dsimp only; split)

theorem keepCol_keeps {o s : State} (e k col : Nat) (h : Keeps o s) : Keeps o (keepCol e k col s) := by
  unfold keepCol; simp only [setCur_keeps, keeps_mk, implies_true, Keeps.refl, foldl_keeps, ite_keeps, foldl1_keeps, id_eq, h]

theorem refuseData_keeps {o s : State} (origin slot id status : Nat) (h : Keeps o s) : Keeps o (refuseData origin slot id status s) := by
  unfold refuseData; simp only [discardCkpt_keeps, setCur_keeps, keeps_mk, implies_true, Keeps.refl, foldl_keeps, ite_keeps, foldl1_keeps, id_eq, h]

theorem rxData_keeps {o s : State} (src lvl : Nat) (b : List Byte) (h : Keeps o s) : Keeps o (rxData src lvl b s) := by
  unfold rxData; repeat' first | (simp (maxDischargeDepth := 60) only [refuse_keeps, refuseData_keeps, rxFor_keeps, keepCol_keeps, putCurRx_keeps, rxMem_keeps, keeps_mk, implies_true, Keeps.refl, foldl_keeps, ite_keeps, foldl1_keeps, id_eq, h]; done) | with_reducible (refine ite_keeps ?_ ?_) | with_reducible (refine foldl_keeps (fun _ _ => ?_) ?_) | split | (dsimp only; with_reducible (refine ite_keeps ?_ ?_)) | (dsimp only; split) | ((try dsimp only); first | with_reducible (apply refuse_keeps) | with_reducible (apply refuseData_keeps) | with_reducible (apply rxFor_keeps) | with_reducible (apply keepCol_keeps) | with_reducible (apply putCurRx_keeps) | with_reducible (apply rxMem_keeps) | with_reducible (apply keeps_mk))

theorem rxCommit_keeps {o s : State} (src lvl : Nat) (b : List Byte) (h : Keeps o s) : Keeps o (rxCommit src lvl b s) := by
  unfold rxCommit; repeat' first | (simp (maxDischargeDepth := 60) only [answer_keeps, sendAck_keeps, setCur_keeps, refuse_keeps, discardCkpt_keeps, rxFor_keeps, rxMem_keeps, keepCol_keeps, putCurRx_keeps, keeps_mk, implies_true, Keeps.refl, foldl_keeps, ite_keeps, foldl1_keeps, id_eq, h]; done) | with_reducible (refine ite_keeps ?_ ?_) | with_reducible (refine foldl_keeps (fun _ _ => ?_) ?_) | split | (dsimp only; with_reducible (refine ite_keeps ?_ ?_)) | (dsimp only; split) | ((try dsimp only); first | with_reducible (apply answer_keeps) | with_reducible (apply sendAck_keeps) | with_reducible (apply setCur_keeps) | with_reducible (apply refuse_keeps) | with_reducible (apply discardCkpt_keeps) | with_reducible (apply rxFor_keeps) | with_reducible (apply rxMem_keeps) | with_reducible (apply keepCol_keeps) | with_reducible (apply putCurRx_keeps) | with_reducible (apply keeps_mk))

theorem rxJudge_keeps {o s : State} (r : CurRx) (n : Nat) (h : Keeps o s) : Keeps o (rxJudge r n s) := by
  unfold rxJudge; simp (maxDischargeDepth := 60) only [putCurRx_keeps, rxMem_keeps, sendAck_keeps, keeps_mk, implies_true, Keeps.refl, foldl_keeps, ite_keeps, foldl1_keeps, id_eq, h]

theorem rxStep_keeps {o s : State} (r0 : CurRx) (h : Keeps o s) : Keeps o (rxStep s r0) := by
  unfold rxStep; repeat' first | (simp (maxDischargeDepth := 60) only [memForget_keeps, putCurRx_keeps, rxMem_keeps, sendAck_keeps, rxJudge_keeps, keeps_mk, implies_true, Keeps.refl, foldl_keeps, ite_keeps, foldl1_keeps, id_eq, h]; done) | with_reducible (refine ite_keeps ?_ ?_) | with_reducible (refine foldl_keeps (fun _ _ => ?_) ?_) | split | (dsimp only; with_reducible (refine ite_keeps ?_ ?_)) | (dsimp only; split)

theorem toColumn_keeps {o s : State} (p : CurSnap) (kind col flags stripe : Nat) (f : Nat × List Byte) (h : Keeps o s) : Keeps o (toColumn p kind col flags stripe s f) := by
  unfold toColumn; split <;> simp only [rxData_keeps, rxCommit_keeps, sendCkpt_keeps, keeps_mk, implies_true, Keeps.refl, foldl_keeps, ite_keeps, foldl1_keeps, id_eq, h]

theorem tryCommit_keeps {o s : State} (h : Keeps o s) : Keeps o (tryCommit s) := by
  unfold tryCommit; repeat' first | (simp (maxDischargeDepth := 60) only [toColumn_keeps, setSnap_keeps, keeps_mk, implies_true, Keeps.refl, foldl_keeps, ite_keeps, foldl1_keeps, id_eq, h]; done) | split

theorem stripeSend_keeps {o s : State} (h : Keeps o s) : Keeps o (stripeSend s) := by
  unfold stripeSend; repeat' first | (simp (maxDischargeDepth := 60) only [snapFail_keeps, memForget_keeps, setSnap_keeps, tryCommit_keeps, toColumn_keeps, keeps_mk, implies_true, Keeps.refl, foldl_keeps, ite_keeps, foldl1_keeps, id_eq, h]; done) | with_reducible (refine ite_keeps ?_ ?_) | with_reducible (refine foldl_keeps (fun _ _ => ?_) ?_) | split | (dsimp only; with_reducible (refine ite_keeps ?_ ?_)) | (dsimp only; split) | ((try dsimp only); first | with_reducible (apply snapFail_keeps) | with_reducible (apply memForget_keeps) | with_reducible (apply setSnap_keeps) | with_reducible (apply tryCommit_keeps) | with_reducible (apply toColumn_keeps) | with_reducible (apply keeps_mk))

theorem parityPost_keeps {o s : State} (n : Nat) (h : Keeps o s) : Keeps o (parityPost n s).1 := by
  unfold parityPost; repeat' first | (simp (maxDischargeDepth := 60) only [setSnap_keeps, memRequest_keeps, keeps_mk, implies_true, Keeps.refl, foldl_keeps, ite_keeps, h]; done) | with_reducible (refine ite_keeps ?_ ?_) | with_reducible (refine foldl_keeps (fun _ _ => ?_) ?_) | split | (dsimp only; with_reducible (refine ite_keeps ?_ ?_)) | (dsimp only; split)

theorem granCopied_keeps {o s : State} (g page : Nat) (b : List Byte) (p : CurSnap) (h : Keeps o s) : Keeps o (granCopied g page b p s) := by
  unfold granCopied; simp (maxDischargeDepth := 60) only [answerPage_keeps, set_keeps, setSnap_keeps, keeps_mk, implies_true, Keeps.refl, foldl_keeps, ite_keeps, foldl1_keeps, id_eq, h]

theorem copyEnd_keeps {o s : State} (p : CurSnap) (h : Keeps o s) : Keeps o (copyEnd p s) := by
  unfold copyEnd; simp (maxDischargeDepth := 60) only [tryCommit_keeps, curEnter_keeps, set_keeps, keeps_mk, implies_true, Keeps.refl, foldl_keeps, ite_keeps, foldl1_keeps, id_eq, h]

theorem copyNext_keeps {o s : State} (n : Nat) (h : Keeps o s) : Keeps o (copyNext n s) := by
  induction n generalizing s with
  | zero => exact h
  | succ n ih =>
    unfold copyNext
    dsimp only
    repeat' first | exact h | exact copyEnd_keeps _ h | exact ih (granCopied_keeps _ _ _ _ h) | exact memRequest_keeps _ _ _ _ _ _ _ (setSnap_keeps _ h) | split

theorem copyRun_keeps {o s : State} (h : Keeps o s) : Keeps o (copyRun s) := by
  unfold copyRun; simp only [copyNext_keeps, keeps_mk, implies_true, Keeps.refl, foldl_keeps, ite_keeps, foldl1_keeps, id_eq, h]

theorem earlyStart_keeps {o s : State} (i : Nat × Nat × Nat) (h : Keeps o s) : Keeps o (earlyStart s i) := by
  unfold earlyStart; repeat' first | (simp (maxDischargeDepth := 60) only [memRequest_keeps, setSnap_keeps, keeps_mk, implies_true, Keeps.refl, foldl_keeps, ite_keeps, foldl1_keeps, id_eq, h]; done) | split

theorem earlyFill_keeps {o s : State} (h : Keeps o s) : Keeps o (earlyFill s) := by
  unfold earlyFill; simp only [earlyStart_keeps, keeps_mk, implies_true, Keeps.refl, foldl_keeps, ite_keeps, foldl1_keeps, id_eq, h]

theorem writeIntent_keeps {o s : State} (page tag : Nat) (h : Keeps o s) : Keeps o (writeIntent page tag s) := by
  unfold writeIntent; repeat' first | (simp (maxDischargeDepth := 60) only [emit_keeps, bump_keeps, report_keeps, earlyFill_keeps, showIntents_keeps, keeps_mk, implies_true, Keeps.refl, foldl_keeps, ite_keeps, foldl1_keeps, id_eq, h]; done) | split

theorem intentStall_keeps {o s : State} (tag : Nat) (h : Keeps o s) : Keeps o (intentStall tag s) := by
  unfold intentStall; repeat' first | (simp (maxDischargeDepth := 60) only [reachBase_keeps, snapEnd_keeps, note_keeps, flag_keeps, memCancel_keeps, copyRun_keeps, earlyFill_keeps, record_keeps, answerPage_keeps, set_keeps, setSnap_keeps, keeps_mk, implies_true, Keeps.refl, foldl_keeps, ite_keeps, foldl1_keeps, id_eq, h]; done) | with_reducible (refine ite_keeps ?_ ?_) | with_reducible (refine foldl_keeps (fun _ _ => ?_) ?_) | split | (dsimp only; with_reducible (refine ite_keeps ?_ ?_)) | (dsimp only; split) | ((try dsimp only); first | with_reducible (apply reachBase_keeps) | with_reducible (apply snapEnd_keeps) | with_reducible (apply note_keeps) | with_reducible (apply flag_keeps) | with_reducible (apply memCancel_keeps) | with_reducible (apply copyRun_keeps) | with_reducible (apply earlyFill_keeps) | with_reducible (apply record_keeps) | with_reducible (apply answerPage_keeps) | with_reducible (apply set_keeps) | with_reducible (apply setSnap_keeps) | with_reducible (apply keeps_mk))

theorem earlyEnds_keeps {o s : State} (e : Nat × Nat × Option Nat × Bool) (h : Keeps o s) : Keeps o (earlyEnds s e) := by
  unfold earlyEnds; repeat' first | (simp (maxDischargeDepth := 60) only [snapFail_keeps, memForget_keeps, setSnap_keeps, answerPage_keeps, memRequest_keeps, keeps_mk, implies_true, Keeps.refl, foldl_keeps, ite_keeps, foldl1_keeps, id_eq, h]; done) | split

theorem sealNext_keeps {o s : State} (g : Nat) (p : CurSnap) (h : Keeps o s) : Keeps o (sealNext g p s) := by
  unfold sealNext; repeat' first | (simp (maxDischargeDepth := 60) only [memRequest_keeps, setSnap_keeps, tryCommit_keeps, curPost_keeps, curEnter_keeps, keeps_mk, implies_true, Keeps.refl, foldl_keeps, ite_keeps, foldl1_keeps, id_eq, h]; done) | with_reducible (refine ite_keeps ?_ ?_) | with_reducible (refine foldl_keeps (fun _ _ => ?_) ?_) | split | (dsimp only; with_reducible (refine ite_keeps ?_ ?_)) | (dsimp only; split)

theorem copyEnds_keeps {o s : State} (h : Keeps o s) : Keeps o (copyEnds s) := by
  unfold copyEnds; repeat' first | (simp only [snapFail_keeps, memForget_keeps, sealNext_keeps, granCopied_keeps, keeps_mk, implies_true, Keeps.refl, foldl_keeps, ite_keeps, foldl1_keeps, id_eq, h]; done) | split

theorem granuleCopied_keeps {o s : State} (h : Keeps o s) : Keeps o (granuleCopied s) := by
  unfold granuleCopied; repeat' first | (simp (maxDischargeDepth := 60) only [earlyEnds_keeps, earlyFill_keeps, copyRun_keeps, copyEnds_keeps, keeps_mk, implies_true, Keeps.refl, foldl_keeps, ite_keeps, foldl1_keeps, id_eq, h]; done) | split

theorem sweep_keeps {o s : State} (h : Keeps o s) : Keeps o (sweep s) := by
  unfold sweep; simp only [keeps_mk, implies_true, Keeps.refl, foldl_keeps, ite_keeps, foldl1_keeps, id_eq, h]

theorem endRest_keeps {o s : State} (outcome detail : Nat) (r : CurRest) (h : Keeps o s) : Keeps o (endRest outcome detail r s) := by
  unfold endRest; simp (maxDischargeDepth := 60) only [sweep_keeps, curEnter_keeps, setCur_keeps, curOut_keeps, keeps_mk, implies_true, Keeps.refl, foldl_keeps, ite_keeps, foldl1_keeps, id_eq, h]

theorem streamPut_keeps {o s : State} (g off : Nat) (b : List Byte) (h : Keeps o s) : Keeps o (streamPut g off b s) := by
  unfold streamPut; repeat' first | (simp only [partWrite_keeps, memRequest_keeps, sweep_keeps, keeps_mk, implies_true, Keeps.refl, foldl_keeps, ite_keeps, foldl1_keeps, id_eq, h]; done) | split

theorem streamWrite_keeps {o s : State} (off : Nat) (b : List Byte) (n : Nat) (h : Keeps o s) : Keeps o (streamWrite off b n s) := by
  induction n generalizing s off b with
  | zero => exact h
  | succ n ih =>
    unfold streamWrite
    repeat' first | exact h | exact ih _ _ (streamPut_keeps _ _ _ h) | split

theorem shardWrite_keeps {o s : State} (r : List Byte) (stripe col off : Nat) (b : List Byte) (h : Keeps o s) : Keeps o (shardWrite r stripe col off b s) := by
  unfold shardWrite; split <;> simp only [streamWrite_keeps, memRequest_keeps, sweep_keeps, keeps_mk, implies_true, Keeps.refl, foldl_keeps, ite_keeps, foldl1_keeps, id_eq, h]

theorem restStripe_keeps {o s : State} {c : CurRest} {r : List Byte} {n m : Nat} {t : State} {x : List (Nat × List Byte)} (h : Keeps o s)
    (e : restStripe c r n s = some (t, m, x)) : Keeps o t := by
  unfold restStripe at e
  dsimp only at e
  split at e
  · cases e
  · split at e
    · cases e
    · replace e := congrArg (fun z => z.map Prod.fst) e
      simp only [Option.map_some, Option.some.injEq] at e
      subst e
      exact foldl_keeps (fun t _ => note_keeps _ _ _ (Keeps.refl t)) (foldl_keeps (fun t _ => shardWrite_keeps _ _ _ _ _ (Keeps.refl t)) h)

theorem restStripes_keeps {o : State} (c : CurRest) (r : List Byte) (l : List Nat) : ∀ (a : State × Nat × List Byte), Keeps o a.1 →
    (∀ x, restStripes c r l a = .error x → Keeps o x.1) ∧ ∀ x, restStripes c r l a = .ok x → Keeps o x.1 := by
  induction l with
  | nil => intro a h; exact ⟨fun x e => (by cases e), fun x e => (by cases e; exact h)⟩
  | cons n t ih =>
    rintro ⟨s, m, st⟩ h
    unfold restStripes
    split
    · exact ⟨fun x e => (by cases e; exact h), fun x e => (by cases e)⟩
    · next hs => exact ih _ (restStripe_keeps h hs)

theorem restFinish_keeps {o s : State} (c : CurRest) (h : Keeps o s) : Keeps o (restFinish c s) := by
  unfold restFinish
  dsimp only
  split
  · exact endRest_keeps _ _ _ (report_keeps _ _ _ _ h)
  · next r _ =>
    have k := restStripes_keeps c r (List.range (recStripes r)) (s, 0, []) h
    split
    · next e => exact endRest_keeps _ _ _ (report_keeps _ _ _ _ (k.1 _ e))
    · next e => exact endRest_keeps _ _ _ (note_keeps _ _ _ (foldl_keeps (fun t _ => streamPut_keeps _ _ _ (Keeps.refl t)) (k.2 _ e)))

theorem restTake_keeps {o s : State} (b : List Byte) (h : Keeps o s) : Keeps o (restTake b s) := by
  unfold restTake; repeat' first | (simp (maxDischargeDepth := 60) only [discardCkpt_keeps, setCur_keeps, endRest_keeps, shardWrite_keeps, restFinish_keeps, keeps_mk, implies_true, Keeps.refl, foldl_keeps, ite_keeps, foldl1_keeps, id_eq, h]; done) | with_reducible (refine ite_keeps ?_ ?_) | with_reducible (refine foldl_keeps (fun _ _ => ?_) ?_) | split | (dsimp only; with_reducible (refine ite_keeps ?_ ?_)) | (dsimp only; split)

theorem takeCkpt_keeps {o s : State} {f : Nat → Bool → Bool} {p : Pkt} {t : State} (h : Keeps o s) (e : takeCkpt f s = some (p, t)) : Keeps o t := by
  unfold takeCkpt at e
  repeat' first | (cases e; done) | (cases e; exact h) | split at e

theorem sendEnd_keeps {o s : State} (d : CurSend) (h : Keeps o s) : Keeps o (sendEnd d s) := by
  unfold sendEnd; simp (maxDischargeDepth := 60) only [memCancel_keeps, showStart_keeps, curEnter_keeps, set_keeps, setCur_keeps, keeps_mk, implies_true, Keeps.refl, foldl_keeps, ite_keeps, foldl1_keeps, id_eq, h]

theorem sendRestore_keeps {o s : State} (d : CurSend) (kind flags stripe : Nat) (f : Nat × List Byte) (h : Keeps o s) : Keeps o (sendRestore d kind flags stripe s f) := by
  unfold sendRestore; simp only [restTake_keeps, sendCkpt_keeps, keeps_mk, implies_true, Keeps.refl, foldl_keeps, ite_keeps, foldl1_keeps, id_eq, h]

theorem sendShard_keeps {o s : State} (n : Nat) (d : CurSend) (h : Keeps o s) : Keeps o (sendShard n d s) := by
  induction n generalizing d with
  | zero => exact sendEnd_keeps _ h
  | succ n ih =>
    unfold sendShard
    dsimp only
    split
    · exact sendEnd_keeps _ h
    · split
      · exact ih _
      · exact memRequest_keeps _ _ _ _ _ _ _ (setCur_keeps _ h)

theorem sendProgress_keeps {o s : State} (h : Keeps o s) : Keeps o (sendProgress s) := by
  unfold sendProgress; repeat' first | (simp (maxDischargeDepth := 60) only [memForget_keeps, memRequest_keeps, curPost_keeps, curEnter_keeps, set_keeps, setCur_keeps, sendEnd_keeps, sendShard_keeps, sendRestore_keeps, keeps_mk, implies_true, Keeps.refl, foldl_keeps, ite_keeps, foldl1_keeps, id_eq, h]; done) | split

theorem armSnap_keeps {o s : State} (seq : Nat) (h : Keeps o s) : Keeps o (armSnap seq s) := by
  unfold armSnap; simp (maxDischargeDepth := 60) only [set_keeps, curEnter_keeps, setSnap_keeps, copyRun_keeps, curPost_keeps, note_keeps, keeps_mk, implies_true, Keeps.refl, foldl_keeps, ite_keeps, foldl1_keeps, id_eq, h]

theorem curAbort_keeps {o s : State} (h : Keeps o s) : Keeps o (curAbort s) := by
  unfold curAbort; repeat' first | (simp (maxDischargeDepth := 60) only [snapEnd_keeps, sendEnd_keeps, endRest_keeps, keeps_mk, implies_true, Keeps.refl, foldl_keeps, ite_keeps, foldl1_keeps, id_eq, h]; done) | with_reducible (refine ite_keeps ?_ ?_) | with_reducible (refine foldl_keeps (fun _ _ => ?_) ?_) | split | (dsimp only; with_reducible (refine ite_keeps ?_ ?_)) | (dsimp only; split)

theorem sendStart_keeps {o s : State} (seq : Nat) (h : Keeps o s) : Keeps o (sendStart seq s) := by
  unfold sendStart; repeat' first | (simp (maxDischargeDepth := 60) only [curPost_keeps, showStart_keeps, memRequest_keeps, setCur_keeps, keeps_mk, implies_true, Keeps.refl, foldl_keeps, ite_keeps, foldl1_keeps, id_eq, h]; done) | with_reducible (refine ite_keeps ?_ ?_) | with_reducible (refine foldl_keeps (fun _ _ => ?_) ?_) | split | (dsimp only; with_reducible (refine ite_keeps ?_ ?_)) | (dsimp only; split)

theorem curCommand_keeps {o s : State} (h : Keeps o s) : Keeps o (curCommand s) := by
  unfold curCommand; repeat' first | (simp (maxDischargeDepth := 60) only [curPost_keeps, armSnap_keeps, showStart_keeps, sealNext_keeps, curEnter_keeps, curAbort_keeps, sendStart_keeps, setCur_keeps, undefinedField_keeps, keeps_mk, implies_true, Keeps.refl, foldl_keeps, ite_keeps, foldl1_keeps, id_eq, h]; done) | with_reducible (refine ite_keeps ?_ ?_) | with_reducible (refine foldl_keeps (fun _ _ => ?_) ?_) | split

theorem curWrite_keeps {o s : State} (a : Nat) (acc : Acc) (h : Keeps o s) : Keeps o (curWrite a acc s) := by
  unfold curWrite; simp (maxDischargeDepth := 60) only [curOwed_keeps, consume_keeps, report_keeps, perform_keeps, curCommand_keeps, set_keeps, keeps_mk, implies_true, Keeps.refl, foldl_keeps, ite_keeps, foldl1_keeps, id_eq, h]

theorem snapCmd_keeps {o s : State} (op : Nat) (acc : Acc) (h : Keeps o s) : Keeps o (snapCmd op acc s) := by
  unfold snapCmd; simp only [portWrite_keeps, curWrite_keeps, keeps_mk, implies_true, Keeps.refl, foldl_keeps, ite_keeps, foldl1_keeps, id_eq, h]

theorem curReset_keeps {o s : State} (h : Keeps o s) : Keeps o (curReset s) := by
  unfold curReset; repeat' first | (simp (maxDischargeDepth := 60) only [stopSnap_keeps, setCur_keeps, keeps_mk, implies_true, Keeps.refl, foldl_keeps, ite_keeps, foldl1_keeps, id_eq, h]; done) | split

theorem curLinkLost_keeps {o s : State} (hostSide : Bool) (h : Keeps o s) : Keeps o (curLinkLost hostSide s) := by
  unfold curLinkLost; repeat' first | (simp (maxDischargeDepth := 60) only [set_keeps, showIntents_keeps, answerAll_keeps, snapEnd_keeps, keeps_mk, implies_true, Keeps.refl, foldl_keeps, ite_keeps, foldl1_keeps, id_eq, h]; done) | with_reducible (refine ite_keeps ?_ ?_) | with_reducible (refine foldl_keeps (fun _ _ => ?_) ?_) | split | (dsimp only; with_reducible (refine ite_keeps ?_ ?_)) | (dsimp only; split)

/-! Compress. -/

theorem setCmp_keeps {o s : State} (c : CmpSt) (h : Keeps o s) : Keeps o (setCmp c s) := by
  unfold setCmp; simp only [keeps_mk, implies_true, Keeps.refl, foldl_keeps, ite_keeps, foldl1_keeps, id_eq, h]

theorem showCmp_keeps {o s : State} (h : Keeps o s) : Keeps o (showCmp s) := by
  unfold showCmp; simp (maxDischargeDepth := 60) only [set_keeps, keeps_mk, implies_true, Keeps.refl, foldl_keeps, ite_keeps, foldl1_keeps, id_eq, h]

theorem cmpPost_keeps {o s : State} (j : CmpJob) (status out used : Nat) (h : Keeps o s) : Keeps o (cmpPost j status out used s) := by
  unfold cmpPost; simp (maxDischargeDepth := 60) only [wr_keeps, syncEvent_keeps, post_keeps, keeps_mk, implies_true, Keeps.refl, foldl_keeps, ite_keeps, foldl1_keeps, id_eq, h]

theorem putCmpJob_keeps {o s : State} (j : CmpJob) (h : Keeps o s) : Keeps o (putCmpJob j s) := by
  unfold putCmpJob; simp only [setCmp_keeps, keeps_mk, implies_true, Keeps.refl, foldl_keeps, ite_keeps, foldl1_keeps, id_eq, h]

theorem cmpStart_keeps {o s : State} (decode : Bool) (h : Keeps o s) : Keeps o (cmpStart decode s) := by
  unfold cmpStart; repeat' first | (simp only [putCmpJob_keeps, memRequest_keeps, keeps_mk, implies_true, Keeps.refl, foldl_keeps, ite_keeps, foldl1_keeps, id_eq, h]; done) | split

theorem cmpKick_keeps {o s : State} (h : Keeps o s) : Keeps o (cmpKick s) := by
  unfold cmpKick; simp (maxDischargeDepth := 60) only [showCmp_keeps, cmpStart_keeps, keeps_mk, implies_true, Keeps.refl, foldl_keeps, ite_keeps, foldl1_keeps, id_eq, h]

theorem cmpGo_keeps {o s : State} (i : Nat) (h : Keeps o s) : Keeps o (cmpGo i s) := by
  unfold cmpGo; repeat' first | (simp (maxDischargeDepth := 60) only [flag_keeps, cmpKick_keeps, setCmp_keeps, cmpPost_keeps, keeps_mk, implies_true, Keeps.refl, foldl_keeps, ite_keeps, foldl1_keeps, id_eq, h]; done) | with_reducible (refine ite_keeps ?_ ?_) | with_reducible (refine foldl_keeps (fun _ _ => ?_) ?_) | split | (dsimp only; with_reducible (refine ite_keeps ?_ ?_)) | (dsimp only; split)

theorem cmpEnd_keeps {o s : State} (j : CmpJob) (status : Nat) (h : Keeps o s) : Keeps o (cmpEnd j status s) := by
  unfold cmpEnd; split <;> simp only [putCmpJob_keeps, report_keeps, keeps_mk, implies_true, Keeps.refl, foldl_keeps, ite_keeps, foldl1_keeps, id_eq, h]

theorem cmpOutput_keeps {o s : State} (j : CmpJob) (b : List Byte) (used : Nat) (last : Bool) (h : Keeps o s) : Keeps o (cmpOutput j b used last s).2 := by
  unfold cmpOutput; repeat' first | (simp (maxDischargeDepth := 60) only [partWrite_keeps, memRequest_keeps, keeps_mk, implies_true, Keeps.refl, foldl_keeps, ite_keeps, h]; done) | with_reducible (refine ite_keeps ?_ ?_) | with_reducible (refine foldl_keeps (fun _ _ => ?_) ?_) | split | (dsimp only; with_reducible (refine ite_keeps ?_ ?_)) | (dsimp only; split)

theorem cmpInput_keeps {o s : State} {j j' : CmpJob} {t : State} (h : Keeps o s) (e : cmpInput j s = some (j', t)) : Keeps o t := by
  unfold cmpInput at e
  split at e
  · cases e; exact h
  · split at e
    · cases e
    · dsimp only at e
      split at e
      · cases e; exact memForget_keeps _ _ h
      · cases e; exact cmpEnd_keeps _ _ (cmpOutput_keeps _ _ _ _ (memForget_keeps _ _ h))
  · cases e

theorem cmpEcc_keeps {o s : State} (j : CmpJob) (word : Nat) (h : Keeps o s) : Keeps o (cmpEcc j word s) := by
  unfold cmpEcc; simp (maxDischargeDepth := 60) only [cmpOutput_keeps, cmpEnd_keeps, report_keeps, keeps_mk, implies_true, Keeps.refl, foldl_keeps, ite_keeps, foldl1_keeps, id_eq, h]

theorem encodeBlock_keeps {o s : State} (ok : Bool) (ecc : Option Nat) (h : Keeps o s) : Keeps o (encodeBlock ok ecc s) := by
  unfold encodeBlock; repeat' first | (rename_i heq; replace heq := cmpInput_keeps h heq) | (simp (maxDischargeDepth := 60) only [cmpKick_keeps, cmpEcc_keeps, bump_keeps, report_keeps, cmpOutput_keeps, cmpEnd_keeps, putCmpJob_keeps, keeps_mk, implies_true, Keeps.refl, foldl_keeps, ite_keeps, foldl1_keeps, id_eq, h, *]; done) | with_reducible (refine ite_keeps ?_ ?_) | with_reducible (refine foldl_keeps (fun _ _ => ?_) ?_) | split

theorem decodeEnd_keeps {o s : State} (j : CmpJob) (status : Nat) (h : Keeps o s) : Keeps o (decodeEnd j status s) := by
  unfold decodeEnd; split <;> simp only [cmpEnd_keeps, cmpOutput_keeps, keeps_mk, implies_true, Keeps.refl, foldl_keeps, ite_keeps, foldl1_keeps, id_eq, h]

theorem decodeGo_keeps {o s : State} (n : Nat) (j : CmpJob) (h : Keeps o s) : Keeps o (decodeGo n j s) := by
  induction n generalizing j with
  | zero => exact putCmpJob_keeps _ h
  | succ n ih =>
    unfold decodeGo
    split
    · exact decodeEnd_keeps _ _ h
    · exact decodeEnd_keeps _ _ h
    · split
      · split
        · exact decodeEnd_keeps _ _ h
        · exact ih _
      · exact ih _
    · next out used t _ =>
      split
      · exact decodeEnd_keeps _ _ (report_keeps _ _ _ _ h)
      · dsimp only
        have k := cmpOutput_keeps { j with plan := some t } out used false h
        split
        · exact decodeEnd_keeps _ _ k
        · exact putCmpJob_keeps _ k

theorem decodeBlock_keeps {o s : State} (ecc : Option Nat) (h : Keeps o s) : Keeps o (decodeBlock ecc s) := by
  unfold decodeBlock; repeat' first | (rename_i heq; replace heq := cmpInput_keeps h heq) | (simp (maxDischargeDepth := 60) only [cmpKick_keeps, cmpEcc_keeps, decodeGo_keeps, keeps_mk, implies_true, Keeps.refl, foldl_keeps, ite_keeps, foldl1_keeps, id_eq, h, *]; done) | with_reducible (refine ite_keeps ?_ ?_) | with_reducible (refine foldl_keeps (fun _ _ => ?_) ?_) | split

theorem cmpComplete_keeps {o s : State} (slot : Nat) (h : Keeps o s) : Keeps o (cmpComplete s slot) := by
  unfold cmpComplete; repeat' first | (simp (maxDischargeDepth := 60) only [memForget_keeps, report_keeps, cmpKick_keeps, cmpPost_keeps, setCmp_keeps, keeps_mk, implies_true, Keeps.refl, foldl_keeps, ite_keeps, foldl1_keeps, id_eq, h]; done) | split

theorem cmpReset_keeps {o s : State} (h : Keeps o s) : Keeps o (cmpReset s) := by
  unfold cmpReset; simp (maxDischargeDepth := 60) only [cmpPost_keeps, note_keeps, setCmp_keeps, keeps_mk, implies_true, Keeps.refl, foldl_keeps, ite_keeps, foldl1_keeps, id_eq, h]

/-! Porter. -/

theorem setPrt_keeps {o s : State} (p : PrtSt) (h : Keeps o s) : Keeps o (setPrt p s) := by
  unfold setPrt; simp only [keeps_mk, implies_true, Keeps.refl, foldl_keeps, ite_keeps, foldl1_keeps, id_eq, h]

theorem setPrtJob_keeps {o s : State} (c : Nat) (j : PrtJob) (h : Keeps o s) : Keeps o (setPrtJob c j s) := by
  unfold setPrtJob; simp only [setPrt_keeps, keeps_mk, implies_true, Keeps.refl, foldl_keeps, ite_keeps, foldl1_keeps, id_eq, h]

theorem showPrt_keeps {o s : State} (c : Nat) (h : Keeps o s) : Keeps o (showPrt c s) := by
  unfold showPrt; simp only [setBit_keeps, set_keeps, keeps_mk, implies_true, Keeps.refl, foldl_keeps, ite_keeps, foldl1_keeps, id_eq, h]

theorem prtDone_keeps {o s : State} (c : Nat) (j : PrtJob) (h : Keeps o s) : Keeps o (prtDone c j s) := by
  unfold prtDone; simp (maxDischargeDepth := 60) only [setPrt_keeps, set_keeps, bump_keeps, raiseIrq_keeps, report_keeps, setBit_keeps, syncEvent_keeps, showPrt_keeps, keeps_mk, implies_true, Keeps.refl, foldl_keeps, ite_keeps, foldl1_keeps, id_eq, h]

theorem prtWriteBack_keeps {o s : State} (c : Nat) (j : PrtJob) (status : Nat) (h : Keeps o s) : Keeps o (prtWriteBack c j status s) := by
  unfold prtWriteBack; split <;> simp only [setPrtJob_keeps, memRequest_keeps, prtDone_keeps, fwPut_keeps, keeps_mk, implies_true, Keeps.refl, foldl_keeps, ite_keeps, foldl1_keeps, id_eq, h]

theorem prtStore_keeps {o s : State} (c : Nat) (j : PrtJob) (b : List Byte) (h : Keeps o s) : Keeps o (prtStore c j b s) := by
  unfold prtStore; repeat' first | (simp (maxDischargeDepth := 60) only [setPrtJob_keeps, memRequest_keeps, partWrite_keeps, fwPut_keeps, keeps_mk, implies_true, Keeps.refl, foldl_keeps, ite_keeps, foldl1_keeps, id_eq, h]; done) | with_reducible (refine ite_keeps ?_ ?_) | with_reducible (refine foldl_keeps (fun _ _ => ?_) ?_) | split | (dsimp only; with_reducible (refine ite_keeps ?_ ?_)) | (dsimp only; split)

theorem prtBegin_keeps {o s : State} (c : Nat) (j : PrtJob) (ecc : Bool) (h : Keeps o s) : Keeps o (prtBegin c j ecc s) := by
  unfold prtBegin; repeat' first | (simp (maxDischargeDepth := 60) only [prtStore_keeps, setPrtJob_keeps, memRequest_keeps, prtWriteBack_keeps, keeps_mk, implies_true, Keeps.refl, foldl_keeps, ite_keeps, foldl1_keeps, id_eq, h]; done) | with_reducible (refine ite_keeps ?_ ?_) | with_reducible (refine foldl_keeps (fun _ _ => ?_) ?_) | split | (dsimp only; with_reducible (refine ite_keeps ?_ ?_)) | (dsimp only; split)

theorem prtStart_keeps {o s : State} (c : Nat) (ecc : Bool) (h : Keeps o s) : Keeps o (prtStart c ecc s) := by
  unfold prtStart; repeat' first | (simp (maxDischargeDepth := 60) only [memForget_keeps, prtDone_keeps, prtBegin_keeps, showPrt_keeps, setPrtJob_keeps, memRequest_keeps, keeps_mk, implies_true, Keeps.refl, foldl_keeps, ite_keeps, foldl1_keeps, id_eq, h]; done) | split

theorem prtRead_keeps {o s : State} (c : Nat) (h : Keeps o s) : Keeps o (prtRead s c) := by
  unfold prtRead; repeat' first | (simp only [memForget_keeps, prtStore_keeps, prtWriteBack_keeps, keeps_mk, implies_true, Keeps.refl, foldl_keeps, ite_keeps, foldl1_keeps, id_eq, h]; done) | split

theorem memFollow_keeps {o s : State} (h : Keeps o s) : Keeps o (memFollow s) := by
  unfold memFollow; simp only [prtRead_keeps, sendProgress_keeps, keeps_mk, implies_true, Keeps.refl, foldl_keeps, ite_keeps, foldl1_keeps, id_eq, h]

theorem prtFinish_keeps {o s : State} (c : Nat) (h : Keeps o s) : Keeps o (prtFinish c s) := by
  unfold prtFinish; repeat' first | (simp only [prtWriteBack_keeps, memForget_keeps, prtDone_keeps, keeps_mk, implies_true, Keeps.refl, foldl_keeps, ite_keeps, foldl1_keeps, id_eq, h]; done) | split

theorem prtReset_keeps {o s : State} (h : Keeps o s) : Keeps o (prtReset s) := by
  unfold prtReset; simp (maxDischargeDepth := 60) only [note_keeps, setPrt_keeps, keeps_mk, implies_true, Keeps.refl, foldl_keeps, ite_keeps, foldl1_keeps, id_eq, h]

theorem prtWrite_keeps {o s : State} (c reg : Nat) (acc : Acc) (h : Keeps o s) : Keeps o (prtWrite c reg acc s) := by
  unfold prtWrite; repeat' first | (simp (maxDischargeDepth := 60) only [perform_keeps, flag_keeps, showPrt_keeps, setBit_keeps, keeps_mk, implies_true, Keeps.refl, foldl_keeps, ite_keeps, foldl1_keeps, id_eq, h]; done) | split

theorem cmpWrite_keeps {o s : State} (a : Nat) (acc : Acc) (h : Keeps o s) : Keeps o (cmpWrite a acc s) := by
  unfold cmpWrite; repeat' first | (simp (maxDischargeDepth := 60) only [consume_keeps, perform_keeps, cmpGo_keeps, prtWrite_keeps, cmpKick_keeps, keeps_mk, implies_true, Keeps.refl, foldl_keeps, ite_keeps, foldl1_keeps, id_eq, h]; done) | split

theorem cmpGoCmd_keeps {o s : State} (decode : Bool) (i : Nat) (acc : Acc) (h : Keeps o s) : Keeps o (cmpGoCmd decode i acc s) := by
  unfold cmpGoCmd; split <;> simp only [portWrite_keeps, cmpWrite_keeps, keeps_mk, implies_true, Keeps.refl, foldl_keeps, ite_keeps, foldl1_keeps, id_eq, h]

end Sys2Proof.Machine
end

