-- ==== Sys2Proof/Laws/KeepsCheck.lean ====
section
/-!
SUPPORT. What quiesce, detectors, arrays, the verifier and the Command Window keep: one lemma for each operation.
-/
namespace Sys2Proof.Machine
set_option linter.unusedSimpArgs false
set_option linter.unusedTactic false
set_option linter.unreachableTactic false

/-! Health. -/

theorem setArr_keeps {o s : State} (a : ArrSt) (h : Keeps o s) : Keeps o (setArr a s) := by
  unfold setArr; simp only [keeps_mk, implies_true, Keeps.refl, foldl_keeps, ite_keeps, foldl1_keeps, id_eq, h]

theorem setVer_keeps {o s : State} (v : VerSt) (h : Keeps o s) : Keeps o (setVer v s) := by
  unfold setVer; simp only [keeps_mk, implies_true, Keeps.refl, foldl_keeps, ite_keeps, foldl1_keeps, id_eq, h]

theorem setFlt_keeps {o s : State} (f : FltSt) (h : Keeps o s) : Keeps o (setFlt f s) := by
  unfold setFlt; simp only [keeps_mk, implies_true, Keeps.refl, foldl_keeps, ite_keeps, foldl1_keeps, id_eq, h]

theorem issueVerdict_keeps {o s : State} (d n via : Nat) (pw : Option Nat) (b : List Byte) (h : Keeps o s) : Keeps o (issueVerdict d n via pw b s) := by
  unfold issueVerdict; simp (maxDischargeDepth := 60) only [storeVerdict_keeps, confirmNote_keeps, sendUp_keeps, keeps_mk, implies_true, Keeps.refl, foldl_keeps, ite_keeps, foldl1_keeps, id_eq, h]

theorem verVerdict_keeps {o s : State} (d n kind sev subjIdx subjLvl : Nat) (rest : List Byte) (h : Keeps o s) : Keeps o (verVerdict d n kind sev subjIdx subjLvl rest s) := by
  unfold verVerdict; split <;> simp only [issueVerdict_keeps, raiseIrq_keeps, keeps_mk, implies_true, Keeps.refl, foldl_keeps, ite_keeps, foldl1_keeps, id_eq, h]

theorem showCapacity_keeps {o s : State} (h : Keeps o s) : Keeps o (showCapacity s) := by
  unfold showCapacity; simp (maxDischargeDepth := 60) only [wr_keeps, keeps_mk, implies_true, Keeps.refl, foldl_keeps, ite_keeps, foldl1_keeps, id_eq, h]

theorem showVer_keeps {o s : State} (h : Keeps o s) : Keeps o (showVer s) := by
  unfold showVer; split <;> simp only [set_keeps, keeps_mk, implies_true, Keeps.refl, foldl_keeps, ite_keeps, foldl1_keeps, id_eq, h]

theorem showMarks_keeps {o s : State} (a : Nat) (h : Keeps o s) : Keeps o (showMarks a s) := by
  unfold showMarks; simp only [set_keeps, keeps_mk, implies_true, Keeps.refl, foldl_keeps, ite_keeps, foldl1_keeps, id_eq, h]

theorem mark_keeps {o s : State} (a : Nat) (h : Keeps o s) : Keeps o (mark a s) := by
  unfold mark; simp (maxDischargeDepth := 60) only [showMarks_keeps, set_keeps, setFlt_keeps, keeps_mk, implies_true, Keeps.refl, foldl_keeps, ite_keeps, foldl1_keeps, id_eq, h]

theorem startSpare_keeps {o s : State} (h : Keeps o s) : Keeps o (startSpare s) := by
  unfold startSpare; repeat' first | (simp only [flag_keeps, setFlt_keeps, setBit_keeps, keeps_mk, implies_true, Keeps.refl, foldl_keeps, ite_keeps, foldl1_keeps, id_eq, h]; done) | split

theorem retire_keeps {o s : State} (a : Nat) (h : Keeps o s) : Keeps o (retire a s) := by
  unfold retire; simp (maxDischargeDepth := 60) only [setBit_keeps, startSpare_keeps, verVerdict_keeps, showCapacity_keeps, report_keeps, prod_keeps, keeps_mk, implies_true, Keeps.refl, foldl_keeps, ite_keeps, foldl1_keeps, id_eq, h]

theorem retireCheck_keeps {o s : State} (h : Keeps o s) : Keeps o (retireCheck s) := by
  unfold retireCheck; simp only [retire_keeps, keeps_mk, implies_true, Keeps.refl, foldl_keeps, ite_keeps, foldl1_keeps, id_eq, h]

theorem markExpire_keeps {o s : State} (a : Nat) (h : Keeps o s) : Keeps o (markExpire a s) := by
  unfold markExpire; repeat' first | (simp (maxDischargeDepth := 60) only [reachBase_keeps, retireCheck_keeps, showMarks_keeps, setFlt_keeps, keeps_mk, implies_true, Keeps.refl, foldl_keeps, ite_keeps, foldl1_keeps, id_eq, h]; done) | split

theorem residueHit_keeps {o s : State} (a : Nat) (h : Keeps o s) : Keeps o (residueHit a s) := by
  unfold residueHit; simp (maxDischargeDepth := 60) only [mark_keeps, bump_keeps, prod_keeps, keeps_mk, implies_true, Keeps.refl, foldl_keeps, ite_keeps, foldl1_keeps, id_eq, h]

theorem residueError_keeps {o s : State} (a user : Nat) (rerunOk : Bool) (h : Keeps o s) : Keeps o (residueError a user rerunOk s) := by
  unfold residueError; simp (maxDischargeDepth := 60) only [residueHit_keeps, report_keeps, keeps_mk, implies_true, Keeps.refl, foldl_keeps, ite_keeps, foldl1_keeps, id_eq, h]

theorem eccError_keeps {o s : State} (a word : Nat) (h : Keeps o s) : Keeps o (eccError a word s) := by
  unfold eccError; simp (maxDischargeDepth := 60) only [report_keeps, mark_keeps, bump_keeps, keeps_mk, implies_true, Keeps.refl, foldl_keeps, ite_keeps, foldl1_keeps, id_eq, h]

/-! Apply. -/

theorem setItn_keeps {o s : State} (i : ItnSt) (h : Keeps o s) : Keeps o (setItn i s) := by
  unfold setItn; simp only [keeps_mk, implies_true, Keeps.refl, foldl_keeps, ite_keeps, foldl1_keeps, id_eq, h]

theorem noteLater_keeps {o s : State} (code cls payload : Nat) (h : Keeps o s) : Keeps o (noteLater code cls payload s) := by
  unfold noteLater; simp only [note_keeps, setItn_keeps, keeps_mk, implies_true, Keeps.refl, foldl_keeps, ite_keeps, foldl1_keeps, id_eq, h]

theorem applyStructure_keeps {o s : State} (p : Nat) (b : List Byte) (h : Keeps o s) : Keeps o (applyStructure p b s) := by
  unfold applyStructure; simp only [wr_keeps, setItn_keeps, keeps_mk, implies_true, Keeps.refl, foldl_keeps, ite_keeps, foldl1_keeps, id_eq, h]

theorem applyClock_keeps {o s : State} (b : List Byte) (h : Keeps o s) : Keeps o (applyClock b s) := by
  unfold applyClock; simp (maxDischargeDepth := 60) only [set_keeps, keeps_mk, implies_true, Keeps.refl, foldl_keeps, ite_keeps, foldl1_keeps, id_eq, h]

theorem applyIdentity_keeps {o s : State} (cfg : List (Nat × List Byte)) (h : Keeps o s) : Keeps o (applyIdentity cfg s) := by
  unfold applyIdentity; split <;> simp only [wr_keeps, keeps_mk, implies_true, Keeps.refl, foldl_keeps, ite_keeps, foldl1_keeps, id_eq, h]

theorem xbarEntry_keeps {o s : State} (b : List Byte) (h : Keeps o s) : Keeps o (xbarEntry s b) := by
  unfold xbarEntry; simp only [report_keeps, keeps_mk, implies_true, Keeps.refl, foldl_keeps, ite_keeps, foldl1_keeps, id_eq, h]

theorem applyXbar_keeps {o s : State} (es : List (List Byte)) (h : Keeps o s) : Keeps o (applyXbar es s) := by
  unfold applyXbar; simp only [xbarEntry_keeps, keeps_mk, implies_true, Keeps.refl, foldl_keeps, ite_keeps, foldl1_keeps, id_eq, h]

theorem applyIrq_keeps {o s : State} (es : List (List Byte)) (h : Keeps o s) : Keeps o (applyIrq es s) := by
  unfold applyIrq; simp (maxDischargeDepth := 60) only [set_keeps, groupUpdate_keeps, keeps_mk, implies_true, Keeps.refl, foldl_keeps, ite_keeps, foldl1_keeps, id_eq, h]

theorem applyQueues_keeps {o s : State} (es : List (List Byte)) (h : Keeps o s) : Keeps o (applyQueues es s) := by
  unfold applyQueues; simp only [wr_keeps, keeps_mk, implies_true, Keeps.refl, foldl_keeps, ite_keeps, foldl1_keeps, id_eq, h]

theorem applyShapers_keeps {o s : State} (es : List (List Byte)) (h : Keeps o s) : Keeps o (applyShapers es s) := by
  unfold applyShapers; simp (maxDischargeDepth := 60) only [wr_keeps, keeps_mk, implies_true, Keeps.refl, foldl_keeps, ite_keeps, foldl1_keeps, id_eq, h]

theorem applySigns_keeps {o s : State} (p : Nat → Bool) (es : List (List Byte)) (h : Keeps o s) : Keeps o (applySigns p es s) := by
  unfold applySigns; simp (maxDischargeDepth := 60) only [setSign_keeps, keeps_mk, implies_true, Keeps.refl, foldl_keeps, ite_keeps, foldl1_keeps, id_eq, h]

theorem applyRules_keeps {o s : State} (p : Nat → Bool) (es : List (List Byte)) (h : Keeps o s) : Keeps o (applyRules p es s) := by
  unfold applyRules; simp only [setCrv_keeps, keeps_mk, implies_true, Keeps.refl, foldl_keeps, ite_keeps, foldl1_keeps, id_eq, h]

theorem applyInstance_keeps {o s : State} (cfg : List (Nat × List Byte)) (t : Nat) (h : Keeps o s) : Keeps o (applyInstance cfg t s) := by
  unfold applyInstance; split <;> simp only [applyXbar_keeps, applyIrq_keeps, applyQueues_keeps, applyShapers_keeps, keeps_mk, implies_true, Keeps.refl, foldl_keeps, ite_keeps, foldl1_keeps, id_eq, h]

theorem applyDomains_keeps {o s : State} (cfg : List (Nat × List Byte)) (p : Nat → Bool) (t : Nat) (h : Keeps o s) : Keeps o (applyDomains cfg p t s) := by
  unfold applyDomains; split <;> simp only [applySigns_keeps, applyRules_keeps, keeps_mk, implies_true, Keeps.refl, foldl_keeps, ite_keeps, foldl1_keeps, id_eq, h]

theorem arrayMaps_keeps {o s : State} (h : Keeps o s) : Keeps o (arrayMaps s) := by
  unfold arrayMaps; simp (maxDischargeDepth := 60) only [setBit_keeps, keeps_mk, implies_true, Keeps.refl, foldl_keeps, ite_keeps, foldl1_keeps, id_eq, h]

theorem unitDefaults_keeps {o s : State} (d : Nat) (h : Keeps o s) : Keeps o (unitDefaults d s) := by
  unfold unitDefaults; repeat' first | (simp (maxDischargeDepth := 60) only [arrayMaps_keeps, set_keeps, showVer_keeps, showCapacity_keeps, showCmp_keeps, keeps_mk, implies_true, Keeps.refl, foldl_keeps, ite_keeps, foldl1_keeps, id_eq, h]; done) | split

theorem reapply_keeps {o s : State} (d : Nat) (h : Keeps o s) : Keeps o (reapply d s) := by
  unfold reapply; repeat' first | (simp (maxDischargeDepth := 60) only [unitDefaults_keeps, applyInstance_keeps, applyDomains_keeps, fillBuckets_keeps, keeps_mk, implies_true, Keeps.refl, foldl_keeps, ite_keeps, foldl1_keeps, id_eq, h]; done) | split

/-! Quiesce. -/

theorem setCtl_keeps {o s : State} (c : CtlSt) (h : Keeps o s) : Keeps o (setCtl c s) := by
  unfold setCtl; simp only [keeps_mk, implies_true, Keeps.refl, foldl_keeps, ite_keeps, foldl1_keeps, id_eq, h]

theorem markBoundary_keeps {o s : State} (d : Nat) (h : Keeps o s) : Keeps o (markBoundary d s) := by
  unfold markBoundary; simp only [setItn_keeps, keeps_mk, implies_true, Keeps.refl, foldl_keeps, ite_keeps, foldl1_keeps, id_eq, h]

theorem holdUnits_keeps {o s : State} (who : Nat) (pages : List Nat) (h : Keeps o s) : Keeps o (holdUnits who pages s) := by
  unfold holdUnits; simp only [setCtl_keeps, keeps_mk, implies_true, Keeps.refl, foldl_keeps, ite_keeps, foldl1_keeps, id_eq, h]

theorem releaseUnits_keeps {o s : State} (who : Nat) (h : Keeps o s) : Keeps o (releaseUnits who s) := by
  unfold releaseUnits; simp only [cmpKick_keeps, setCtl_keeps, keeps_mk, implies_true, Keeps.refl, foldl_keeps, ite_keeps, foldl1_keeps, id_eq, h]

theorem takeCont_keeps {o s : State} (f : Nat) (b : List Byte) (h : Keeps o s) : Keeps o (takeCont f b s) := by
  unfold takeCont; split <;> simp only [set_keeps, keeps_mk, implies_true, Keeps.refl, foldl_keeps, ite_keeps, foldl1_keeps, id_eq, h]

theorem handOver_keeps {o s : State} (f mode : Nat) (h : Keeps o s) : Keeps o (handOver f mode s) := by
  unfold handOver; simp only [memRequest_keeps, keeps_mk, implies_true, Keeps.refl, foldl_keeps, ite_keeps, foldl1_keeps, id_eq, h]

theorem flipMode_keeps {o s : State} (f mode port priv init : Nat) (buf : Option (List Byte)) (h : Keeps o s) : Keeps o (flipMode f mode port priv init buf s) := by
  unfold flipMode; repeat' first | (simp (maxDischargeDepth := 60) only [takeCont_keeps, setBit_keeps, ledger_keeps, keeps_mk, implies_true, Keeps.refl, foldl_keeps, ite_keeps, foldl1_keeps, id_eq, h]; done) | split

/-! Detect. -/

theorem takeRef_keeps {o s : State} (d : Nat) (h : Keeps o s) : Keeps o (takeRef s d) := by
  unfold takeRef; repeat' first | (simp (maxDischargeDepth := 60) only [note_keeps, putDet_keeps, set_keeps, keeps_mk, implies_true, Keeps.refl, foldl_keeps, ite_keeps, foldl1_keeps, id_eq, h]; done) | with_reducible (refine ite_keeps ?_ ?_) | with_reducible (refine foldl_keeps (fun _ _ => ?_) ?_) | split | (dsimp only; with_reducible (refine ite_keeps ?_ ?_)) | (dsimp only; split)

theorem takeRefs_keeps {o s : State} (h : Keeps o s) : Keeps o (takeRefs s) := by
  unfold takeRefs; split <;> simp only [takeRef_keeps, keeps_mk, implies_true, Keeps.refl, foldl_keeps, ite_keeps, foldl1_keeps, id_eq, h]

theorem issueProv_keeps {o s : State} (e : Due) (b : List Byte) (h : Keeps o s) : Keeps o (issueProv e b s) := by
  unfold issueProv; repeat' first | (simp (maxDischargeDepth := 60) only [publishVerdict_keeps, putSlot_keeps, sendUp_keeps, keeps_mk, implies_true, Keeps.refl, foldl_keeps, ite_keeps, foldl1_keeps, id_eq, h]; done) | with_reducible (refine ite_keeps ?_ ?_) | with_reducible (refine foldl_keeps (fun _ _ => ?_) ?_) | split | (dsimp only; with_reducible (refine ite_keeps ?_ ?_)) | (dsimp only; split)

theorem issueConf_keeps {o s : State} (e : Due) (b : List Byte) (h : Keeps o s) : Keeps o (issueConf e b s) := by
  unfold issueConf; simp (maxDischargeDepth := 60) only [issueVerdict_keeps, setCrv_keeps, raiseIrq_keeps, keeps_mk, implies_true, Keeps.refl, foldl_keeps, ite_keeps, foldl1_keeps, id_eq, h]

theorem issueOne_keeps {o s : State} (e : Due) (f : Finding) (h : Keeps o s) : Keeps o (issueOne e s f) := by
  unfold issueOne; simp (maxDischargeDepth := 60) only [bump_keeps, issueProv_keeps, issueConf_keeps, keeps_mk, implies_true, Keeps.refl, foldl_keeps, ite_keeps, foldl1_keeps, id_eq, h]

theorem detEval_keeps {o s0 : State} (h : Keeps o s0) : Keeps o (detEval s0) := by
  unfold detEval; repeat' first | (simp (maxDischargeDepth := 60) only [takeRefs_keeps, closeReady_keeps, busyFor_keeps, bump_keeps, putDet_keeps, report_keeps, issueOne_keeps, keeps_mk, implies_true, Keeps.refl, foldl_keeps, ite_keeps, foldl1_keeps, id_eq, h]; done) | with_reducible (refine ite_keeps ?_ ?_) | with_reducible (refine foldl_keeps (fun _ _ => ?_) ?_) | split

theorem armRef_keeps {o s : State} (d : Nat) (h : Keeps o s) : Keeps o (armRef d s) := by
  unfold armRef; repeat' first | (simp (maxDischargeDepth := 60) only [putDet_keeps, captureRefs_keeps, keeps_mk, implies_true, Keeps.refl, foldl_keeps, ite_keeps, foldl1_keeps, id_eq, h]; done) | with_reducible (refine ite_keeps ?_ ?_) | with_reducible (refine foldl_keeps (fun _ _ => ?_) ?_) | split | (dsimp only; with_reducible (refine ite_keeps ?_ ?_)) | (dsimp only; split)

theorem bcastTo_keeps {o s : State} (bs : List Byte) (d : Nat) (h : Keeps o s) : Keeps o (bcastTo bs s d) := by
  unfold bcastTo; repeat' first | (simp (maxDischargeDepth := 60) only [putDet_keeps, keeps_mk, implies_true, Keeps.refl, foldl_keeps, ite_keeps, foldl1_keeps, id_eq, h]; done) | split

theorem bcastReceive_keeps {o s : State} (h : Keeps o s) : Keeps o (bcastReceive s) := by
  unfold bcastReceive; repeat' first | (rename_i heq; replace heq := takePkt_keeps h heq) | (simp (maxDischargeDepth := 60) only [sendChild_keeps, takeRefs_keeps, bcastTo_keeps, keeps_mk, implies_true, Keeps.refl, foldl_keeps, ite_keeps, foldl1_keeps, id_eq, h, *]; done) | with_reducible (refine ite_keeps ?_ ?_) | with_reducible (refine foldl_keeps (fun _ _ => ?_) ?_) | split

theorem takeScores_keeps {o s : State} (w : Nat → Word) (h : Keeps o s) : Keeps o (takeScores w s).1 := by
  unfold takeScores; repeat' first | (simp (maxDischargeDepth := 60) only [report_keeps, putDet_keeps, keeps_mk, implies_true, Keeps.refl, foldl_keeps, ite_keeps, h]; done) | with_reducible (refine ite_keeps ?_ ?_) | with_reducible (refine foldl_keeps (fun _ _ => ?_) ?_) | split | (dsimp only; with_reducible (refine ite_keeps ?_ ?_)) | (dsimp only; split)

theorem detWrite_keeps {o s : State} (a : Nat) (acc : Acc) (h : Keeps o s) : Keeps o (detWrite a acc s) := by
  unfold detWrite; simp (maxDischargeDepth := 60) only [perform_keeps, report_keeps, set_keeps, armRef_keeps, keeps_mk, implies_true, Keeps.refl, foldl_keeps, ite_keeps, foldl1_keeps, id_eq, h]

/-! Arrays. -/

theorem sketchCell_keeps {o s : State} (j : ArrJob) (v : Nat) (h : Keeps o s) : Keeps o (sketchCell j v s) := by
  unfold sketchCell; split <;> simp only [partWrite_keeps, keeps_mk, implies_true, Keeps.refl, foldl_keeps, ite_keeps, foldl1_keeps, id_eq, h]

theorem writePass_keeps {o s : State} (j : ArrJob) (p : Nat) (h : Keeps o s) : Keeps o (writePass j p s).1 := by
  unfold writePass; repeat' first | (simp (maxDischargeDepth := 60) only [sketchCell_keeps, partWrite_keeps, keeps_mk, implies_true, Keeps.refl, foldl_keeps, ite_keeps, h]; done) | with_reducible (refine ite_keeps ?_ ?_) | with_reducible (refine foldl_keeps (fun _ _ => ?_) ?_) | split | (dsimp only; with_reducible (refine ite_keeps ?_ ?_)) | (dsimp only; split)

theorem serve_keeps {o s : State} (a u cycles : Nat) (h : Keeps o s) : Keeps o (serve a u cycles s) := by
  unfold serve; simp (maxDischargeDepth := 60) only [setArr_keeps, prod_keeps, bump_keeps, keeps_mk, implies_true, Keeps.refl, foldl_keeps, ite_keeps, foldl1_keeps, id_eq, h]

theorem showArr_keeps {o s : State} (h : Keeps o s) : Keeps o (showArr s) := by
  unfold showArr; simp only [set_keeps, keeps_mk, implies_true, Keeps.refl, foldl_keeps, ite_keeps, foldl1_keeps, id_eq, h]

theorem floorBreach_keeps {o s : State} (a : Nat) (h : Keeps o s) : Keeps o (floorBreach a s) := by
  unfold floorBreach; simp (maxDischargeDepth := 60) only [setArr_keeps, record_keeps, flag_keeps, bump_keeps, keeps_mk, implies_true, Keeps.refl, foldl_keeps, ite_keeps, foldl1_keeps, id_eq, h]

theorem arrPost_keeps {o s : State} (j : ArrJob) (status a : Nat) (h : Keeps o s) : Keeps o (arrPost j status a s) := by
  unfold arrPost; simp (maxDischargeDepth := 60) only [wr_keeps, report_keeps, post_keeps, showArr_keeps, syncEvent_keeps, setArr_keeps, keeps_mk, implies_true, Keeps.refl, foldl_keeps, ite_keeps, foldl1_keeps, id_eq, h]

theorem arrayGo_keeps {o s : State} (i : Nat) (h : Keeps o s) : Keeps o (arrayGo i s) := by
  unfold arrayGo; repeat' first | (simp (maxDischargeDepth := 60) only [flag_keeps, arrPost_keeps, showArr_keeps, setArr_keeps, keeps_mk, implies_true, Keeps.refl, foldl_keeps, ite_keeps, foldl1_keeps, id_eq, h]; done) | with_reducible (refine ite_keeps ?_ ?_) | with_reducible (refine foldl_keeps (fun _ _ => ?_) ?_) | split | (dsimp only; with_reducible (refine ite_keeps ?_ ?_)) | (dsimp only; split)

theorem putJob_keeps {o s : State} (j : ArrJob) (h : Keeps o s) : Keeps o (putJob j s) := by
  unfold putJob; simp only [setArr_keeps, keeps_mk, implies_true, Keeps.refl, foldl_keeps, ite_keeps, foldl1_keeps, id_eq, h]

theorem scoringPass_keeps {o s : State} (j : ArrJob) (a cycles : Nat) (residue : Option Bool) (ecc : Option Nat) (h : Keeps o s) : Keeps o (scoringPass j a cycles residue ecc s) := by
  unfold scoringPass; repeat' first | (simp (maxDischargeDepth := 60) only [serve_keeps, floorBreach_keeps, arrPost_keeps, eccError_keeps, residueError_keeps, writePass_keeps, busyFor_keeps, showArr_keeps, putJob_keeps, keeps_mk, implies_true, Keeps.refl, foldl_keeps, ite_keeps, foldl1_keeps, id_eq, h]; done) | with_reducible (refine ite_keeps ?_ ?_) | with_reducible (refine foldl_keeps (fun _ _ => ?_) ?_) | split

theorem verifyPassDone_keeps {o s : State} (r : VRec) (p : Option Nat) (a cycles : Nat) (residue : Option Bool) (ecc : Option Nat) (h : Keeps o s) : Keeps o (verifyPassDone r p a cycles residue ecc s) := by
  unfold verifyPassDone; repeat' first | (simp (maxDischargeDepth := 60) only [serve_keeps, eccError_keeps, residueError_keeps, showArr_keeps, setVer_keeps, keeps_mk, implies_true, Keeps.refl, foldl_keeps, ite_keeps, foldl1_keeps, id_eq, h]; done) | split

theorem passDone_keeps {o s : State} (a cycles : Nat) (residue : Option Bool) (ecc : Option Nat) (h : Keeps o s) : Keeps o (passDone a cycles residue ecc s) := by
  unfold passDone; repeat' first | (simp (maxDischargeDepth := 60) only [showArr_keeps, retireCheck_keeps, scoringPass_keeps, verifyPassDone_keeps, keeps_mk, implies_true, Keeps.refl, foldl_keeps, ite_keeps, foldl1_keeps, id_eq, h]; done) | split

theorem arrayAbort_keeps {o s : State} (h : Keeps o s) : Keeps o (arrayAbort s) := by
  unfold arrayAbort; simp only [arrPost_keeps, keeps_mk, implies_true, Keeps.refl, foldl_keeps, ite_keeps, foldl1_keeps, id_eq, h]

theorem arrWrite_keeps {o s : State} (a : Nat) (acc : Acc) (h : Keeps o s) : Keeps o (arrWrite a acc s) := by
  unfold arrWrite; simp (maxDischargeDepth := 60) only [consume_keeps, perform_keeps, arrayGo_keeps, showArr_keeps, showCapacity_keeps, keeps_mk, implies_true, Keeps.refl, foldl_keeps, ite_keeps, foldl1_keeps, id_eq, h]

/-! Verify. -/

theorem setEop_keeps {o s : State} (e : EopSt) (h : Keeps o s) : Keeps o (setEop e s) := by
  unfold setEop; simp only [keeps_mk, implies_true, Keeps.refl, foldl_keeps, ite_keeps, foldl1_keeps, id_eq, h]

theorem clampNote_keeps {o s : State} (kind v : Nat) (h : Keeps o s) : Keeps o (clampNote kind v s) := by
  unfold clampNote; split <;> simp only [note_keeps, setVer_keeps, keeps_mk, implies_true, Keeps.refl, foldl_keeps, ite_keeps, foldl1_keeps, id_eq, h]

theorem clampOver_keeps {o s : State} (kind : Nat) (h : Keeps o s) : Keeps o (clampOver kind s) := by
  unfold clampOver; simp only [setVer_keeps, keeps_mk, implies_true, Keeps.refl, foldl_keeps, ite_keeps, foldl1_keeps, id_eq, h]

theorem bundleThresh_keeps {o s : State}  (h : Keeps o s) : Keeps o (bundleThresh  s).2 := by
  unfold bundleThresh; repeat' first | (simp (maxDischargeDepth := 60) only [clampOver_keeps, clampNote_keeps, flag_keeps, set_keeps, keeps_mk, implies_true, Keeps.refl, foldl_keeps, ite_keeps, h]; done) | with_reducible (refine ite_keeps ?_ ?_) | with_reducible (refine foldl_keeps (fun _ _ => ?_) ?_) | split | (dsimp only; with_reducible (refine ite_keeps ?_ ?_)) | (dsimp only; split)

theorem showSeed_keeps {o s : State} (h : Keeps o s) : Keeps o (showSeed s) := by
  unfold showSeed; simp (maxDischargeDepth := 60) only [set_keeps, wr_keeps, keeps_mk, implies_true, Keeps.refl, foldl_keeps, ite_keeps, foldl1_keeps, id_eq, h]

theorem seedSend_keeps {o s : State} (h : Keeps o s) : Keeps o (seedSend s) := by
  unfold seedSend; split <;> simp only [bundleThresh_keeps, setEop_keeps, keeps_mk, implies_true, Keeps.refl, foldl_keeps, ite_keeps, foldl1_keeps, id_eq, h]

theorem markEpoch_keeps {o s : State} (e : Nat) (h : Keeps o s) : Keeps o (markEpoch e s) := by
  unfold markEpoch; simp (maxDischargeDepth := 60) only [setVer_keeps, setEop_keeps, keeps_mk, implies_true, Keeps.refl, foldl_keeps, ite_keeps, foldl1_keeps, id_eq, h]

theorem seedAck_keeps {o s : State} (h : Keeps o s) : Keeps o (seedAck s) := by
  unfold seedAck; repeat' first | (simp (maxDischargeDepth := 60) only [setEop_keeps, showSeed_keeps, setVer_keeps, keeps_mk, implies_true, Keeps.refl, foldl_keeps, ite_keeps, foldl1_keeps, id_eq, h]; done) | split

theorem seedAckTimeout_keeps {o s : State} (h : Keeps o s) : Keeps o (seedAckTimeout s) := by
  unfold seedAckTimeout; repeat' first | (simp (maxDischargeDepth := 60) only [markEpoch_keeps, report_keeps, reachTb0_keeps, keeps_mk, implies_true, Keeps.refl, foldl_keeps, ite_keeps, foldl1_keeps, id_eq, h]; done) | with_reducible (refine ite_keeps ?_ ?_) | with_reducible (refine foldl_keeps (fun _ _ => ?_) ?_) | split | (dsimp only; with_reducible (refine ite_keeps ?_ ?_)) | (dsimp only; split)

theorem seedBoundary_keeps {o s : State} (e : Nat) (h : Keeps o s) : Keeps o (seedBoundary e s) := by
  unfold seedBoundary; simp (maxDischargeDepth := 60) only [showSeed_keeps, setEop_keeps, setVer_keeps, keeps_mk, implies_true, Keeps.refl, foldl_keeps, ite_keeps, foldl1_keeps, id_eq, h]

theorem verDiscard_keeps {o s : State} (cause who key : Nat) (h : Keeps o s) : Keeps o (verDiscard cause who key s) := by
  unfold verDiscard; simp (maxDischargeDepth := 60) only [record_keeps, flag_keeps, prod_keeps, setVer_keeps, keeps_mk, implies_true, Keeps.refl, foldl_keeps, ite_keeps, foldl1_keeps, id_eq, h]

theorem runOver_keeps {o s : State} (h : Keeps o s) : Keeps o (runOver s) := by
  unfold runOver; simp only [setVer_keeps, keeps_mk, implies_true, Keeps.refl, foldl_keeps, ite_keeps, foldl1_keeps, id_eq, h]

theorem haWrite_keeps {o s : State} (r : VRec) (h : Keeps o s) : Keeps o (haWrite r s) := by
  unfold haWrite; simp (maxDischargeDepth := 60) only [memRequest_keeps, setVer_keeps, keeps_mk, implies_true, Keeps.refl, foldl_keeps, ite_keeps, foldl1_keeps, id_eq, h]

theorem stage_keeps {o s : State} (r : VRec) (h : Keeps o s) : Keeps o (stage r s).1 := by
  unfold stage; repeat' first | (simp (maxDischargeDepth := 60) only [haWrite_keeps, showArr_keeps, showVer_keeps, setVer_keeps, keeps_mk, implies_true, Keeps.refl, foldl_keeps, ite_keeps, h]; done) | with_reducible (refine ite_keeps ?_ ?_) | with_reducible (refine foldl_keeps (fun _ _ => ?_) ?_) | split | (dsimp only; with_reducible (refine ite_keeps ?_ ?_)) | (dsimp only; split)

theorem sendFragments_keeps {o s : State} (dst : Nat × Nat × Nat) (d e key : Nat) (l : List (Nat × List Byte × Nat)) (h : Keeps o s) :
    Keeps o (sendFragments dst d e key l s).1 := by
  induction l generalizing s with
  | nil => exact h
  | cons f t ih =>
    unfold sendFragments
    repeat' first | exact sendPkt_keeps _ _ _ _ _ h | exact ih (sendPkt_keeps _ _ _ _ _ h) | split | (dsimp only; split)

theorem tileSeen_keeps {o s : State} (e engine tile : Nat) (h : Keeps o s) : Keeps o (tileSeen e engine tile s) := by
  unfold tileSeen; simp only [setVer_keeps, keeps_mk, implies_true, Keeps.refl, foldl_keeps, ite_keeps, foldl1_keeps, id_eq, h]

theorem takePath_keeps {o s : State} (v : VEpoch) (b : List Byte) (h : Keeps o s) : Keeps o (takePath v b s) := by
  unfold takePath
  dsimp only
  generalize decide (b.length ≤ stageSize s) = fits
  have here : Keeps o (if (!fits) = true then verDiscard 5 (wEngine b) (wKey b) s
    else match stage { kid := none, domain := seedDomain s, epoch := v.n, bytes := b } s with
      | (s1, true) => runOver (tileSeen v.n (wEngine b) (wTile b) s1)
      | (s1, false) => verDiscard 4 (wEngine b) (wKey b) s1) := by
    split
    · exact verDiscard_keeps _ _ _ h
    · have k := stage_keeps { kid := none, domain := seedDomain s, epoch := v.n, bytes := b } h
      split
      · next e => exact runOver_keeps (tileSeen_keeps _ _ _ (keeps_fst e k))
      · next e => exact verDiscard_keeps _ _ _ (keeps_fst e k)
  split
  · exact here
  · split
    · exact here
    · next dst _ =>
      have k := sendFragments_keeps dst (seedDomain s) v.n (wKey b) (fragments b) h
      split
      · next e => exact runOver_keeps (tileSeen_keeps _ _ _ (prod_keeps _ _ (keeps_fst e k)))
      · next e => exact verDiscard_keeps _ _ _ (keeps_fst e k)

theorem hostRecord_keeps {o s : State} (engine : Nat) (b : List Byte) (h : Keeps o s) : Keeps o (hostRecord engine b s) := by
  unfold hostRecord; repeat' first | (simp only [verDiscard_keeps, setVer_keeps, takePath_keeps, keeps_mk, implies_true, Keeps.refl, foldl_keeps, ite_keeps, foldl1_keeps, id_eq, h]; done) | split

theorem witnessIn_keeps {o s : State} (beats : List (BitVec 512)) (cut : Bool) (h : Keeps o s) : Keeps o (witnessIn beats cut s).1 := by
  unfold witnessIn; repeat' first | (simp (maxDischargeDepth := 60) only [bump_keeps, report_keeps, keeps_mk, implies_true, Keeps.refl, foldl_keeps, ite_keeps, h]; done) | with_reducible (refine ite_keeps ?_ ?_) | with_reducible (refine foldl_keeps (fun _ _ => ?_) ?_) | split | (dsimp only; with_reducible (refine ite_keeps ?_ ?_)) | (dsimp only; split)

theorem subjMove_keeps {o s : State} (i st obs : Nat) (h : Keeps o s) : Keeps o (subjMove i st obs s) := by
  unfold subjMove; simp (maxDischargeDepth := 60) only [set_keeps, prod_keeps, showVer_keeps, note_keeps, keeps_mk, implies_true, Keeps.refl, foldl_keeps, ite_keeps, foldl1_keeps, id_eq, h]

theorem subjFail_keeps {o s : State} (i dom n kind sev : Nat) (layout : List Byte) (h : Keeps o s) : Keeps o (subjFail i dom n kind sev layout s) := by
  unfold subjFail; simp (maxDischargeDepth := 60) only [set_keeps, setVer_keeps, verVerdict_keeps, subjMove_keeps, prod_keeps, keeps_mk, implies_true, Keeps.refl, foldl_keeps, ite_keeps, foldl1_keeps, id_eq, h]

theorem subjPass_keeps {o s : State} (i dom n : Nat) (h : Keeps o s) : Keeps o (subjPass i dom n s) := by
  unfold subjPass; simp (maxDischargeDepth := 60) only [bump_keeps, subjMove_keeps, verVerdict_keeps, keeps_mk, implies_true, Keeps.refl, foldl_keeps, ite_keeps, foldl1_keeps, id_eq, h]

theorem checked_keeps {o s : State} (r : VRec) (h : Keeps o s) : Keeps o (checked r s) := by
  unfold checked; split <;> simp only [prod_keeps, keeps_mk, implies_true, Keeps.refl, foldl_keeps, ite_keeps, foldl1_keeps, id_eq, h]

theorem recPass_keeps {o s : State} (r : VRec) (h : Keeps o s) : Keeps o (recPass r s) := by
  unfold recPass; simp (maxDischargeDepth := 60) only [subjPass_keeps, checked_keeps, prod_keeps, keeps_mk, implies_true, Keeps.refl, foldl_keeps, ite_keeps, foldl1_keeps, id_eq, h]

theorem recFail_keeps {o s : State} (r : VRec) (tol : Bool) (m n cnt host ref : Nat) (h : Keeps o s) : Keeps o (recFail r tol m n cnt host ref s) := by
  unfold recFail; simp (maxDischargeDepth := 60) only [flag_keeps, prod_keeps, subjFail_keeps, checked_keeps, keeps_mk, implies_true, Keeps.refl, foldl_keeps, ite_keeps, foldl1_keeps, id_eq, h]

theorem popRecord_keeps {o s : State} (h : Keeps o s) : Keeps o (popRecord s) := by
  unfold popRecord; simp only [setVer_keeps, keeps_mk, implies_true, Keeps.refl, foldl_keeps, ite_keeps, foldl1_keeps, id_eq, h]

theorem ownError_keeps {o s : State} (kind : Nat) (arrays : List Nat) (h : Keeps o s) : Keeps o (ownError kind arrays s) := by
  unfold ownError; simp only [report_keeps, keeps_mk, implies_true, Keeps.refl, foldl_keeps, ite_keeps, foldl1_keeps, id_eq, h]

theorem judgeFail_keeps {o s : State} (r : VRec) (fails : List (Nat × Nat × Nat)) (h : Keeps o s) : Keeps o (judgeFail r fails s) := by
  unfold judgeFail; simp only [recFail_keeps, keeps_mk, implies_true, Keeps.refl, foldl_keeps, ite_keeps, foldl1_keeps, id_eq, h]

theorem referenceDone_keeps {o s : State} (errs : List (Nat × Nat × Nat)) (h : Keeps o s) : Keeps o (referenceDone errs s) := by
  unfold referenceDone; repeat' first | (simp (maxDischargeDepth := 60) only [showArr_keeps, showVer_keeps, ownError_keeps, popRecord_keeps, recPass_keeps, setVer_keeps, judgeFail_keeps, keeps_mk, implies_true, Keeps.refl, foldl_keeps, ite_keeps, foldl1_keeps, id_eq, h]; done) | split

theorem confirmDone_keeps {o s : State} (errs : List (Nat × Nat × Nat)) (h : Keeps o s) : Keeps o (confirmDone errs s) := by
  unfold confirmDone; repeat' first | (simp (maxDischargeDepth := 60) only [showArr_keeps, showVer_keeps, ownError_keeps, popRecord_keeps, judgeFail_keeps, retireCheck_keeps, mark_keeps, keeps_mk, implies_true, Keeps.refl, foldl_keeps, ite_keeps, foldl1_keeps, id_eq, h]; done) | split

theorem takeOutcome_keeps {o s : State} (w : Nat → Word) (h : Keeps o s) : Keeps o (takeOutcome w s).1 := by
  unfold takeOutcome; repeat' first | (simp (maxDischargeDepth := 60) only [setVer_keeps, recPass_keeps, recFail_keeps, keeps_mk, implies_true, Keeps.refl, foldl_keeps, ite_keeps, h]; done) | with_reducible (refine ite_keeps ?_ ?_) | with_reducible (refine foldl_keeps (fun _ _ => ?_) ?_) | split | (dsimp only; with_reducible (refine ite_keeps ?_ ?_)) | (dsimp only; split)

theorem accountClose_keeps {o s : State} (h : Keeps o s) : Keeps o (accountClose s) := by
  unfold accountClose; repeat' first | (simp (maxDischargeDepth := 60) only [reachTb0_keeps, setVer_keeps, syncEvent_keeps, report_keeps, prod_keeps, keeps_mk, implies_true, Keeps.refl, foldl_keeps, ite_keeps, foldl1_keeps, id_eq, h]; done) | split

theorem putAsm_keeps {o s : State} (b : Nat) (a : Option VAsm) (h : Keeps o s) : Keeps o (putAsm b a s) := by
  unfold putAsm; simp only [showVer_keeps, setVer_keeps, keeps_mk, implies_true, Keeps.refl, foldl_keeps, ite_keeps, foldl1_keeps, id_eq, h]

theorem asmDrop_keeps {o s : State} (b cause key : Nat) (last : Bool) (h : Keeps o s) : Keeps o (asmDrop b cause key last s) := by
  unfold asmDrop; simp only [putAsm_keeps, verDiscard_keeps, keeps_mk, implies_true, Keeps.refl, foldl_keeps, ite_keeps, foldl1_keeps, id_eq, h]

theorem asmFirst_keeps {o s : State} (p : Pkt) (b key : Nat) (last : Bool) (body : List Byte) (h : Keeps o s) : Keeps o (asmFirst p b key last body s) := by
  unfold asmFirst; simp (maxDischargeDepth := 60) only [asmDrop_keeps, putAsm_keeps, keeps_mk, implies_true, Keeps.refl, foldl_keeps, ite_keeps, foldl1_keeps, id_eq, h]

theorem asmEnd_keeps {o s : State} (b key : Nat) (last : Bool) (h : Keeps o s) : Keeps o (asmEnd b key last s) := by
  unfold asmEnd
  split
  · exact h
  · next a _ =>
    split
    · split
      · exact putAsm_keeps _ _ h
      · exact h
    · split
      · split
        · exact h
        · exact asmDrop_keeps _ _ _ _ h
      · split
        · exact asmDrop_keeps _ _ _ _ h
        · have k := stage_keeps { kid := some b, domain := a.domain, epoch := a.epoch, bytes := a.bytes } (putAsm_keeps b none h)
          split
          · next e => exact runOver_keeps (keeps_fst e k)
          · next e => exact verDiscard_keeps _ _ _ (keeps_fst e k)

theorem witnessReceive_keeps {o s : State} (h : Keeps o s) : Keeps o (witnessReceive s) := by
  unfold witnessReceive; repeat' first | (rename_i heq; replace heq := takePkt_keeps h heq) | (simp (maxDischargeDepth := 60) only [asmEnd_keeps, asmFirst_keeps, asmDrop_keeps, putAsm_keeps, verDiscard_keeps, keeps_mk, implies_true, Keeps.refl, foldl_keeps, ite_keeps, foldl1_keeps, id_eq, h, *]; done) | with_reducible (refine ite_keeps ?_ ?_) | with_reducible (refine foldl_keeps (fun _ _ => ?_) ?_) | split | (dsimp only; with_reducible (refine ite_keeps ?_ ?_)) | (dsimp only; split)

theorem subjCommand_keeps {o s : State} (i : Nat) (acc : Acc) (h : Keeps o s) : Keeps o (subjCommand i acc s) := by
  unfold subjCommand; simp (maxDischargeDepth := 60) only [subjMove_keeps, keeps_mk, implies_true, Keeps.refl, foldl_keeps, ite_keeps, foldl1_keeps, id_eq, h]

theorem verWrite_keeps {o s : State} (a : Nat) (acc : Acc) (h : Keeps o s) : Keeps o (verWrite a acc s) := by
  unfold verWrite; simp (maxDischargeDepth := 60) only [perform_keeps, subjCommand_keeps, showArr_keeps, showVer_keeps, showCapacity_keeps, keeps_mk, implies_true, Keeps.refl, foldl_keeps, ite_keeps, foldl1_keeps, id_eq, h]

/-! Window. -/

theorem attention_keeps {o s : State} (h : Keeps o s) : Keeps o (attention s) := by
  unfold attention; simp only [keeps_mk, implies_true, Keeps.refl, foldl_keeps, ite_keeps, foldl1_keeps, id_eq, h]

theorem cwResult_keeps {o s : State} (n status : Nat) (d0 d1 d2 : Word) (h : Keeps o s) : Keeps o (cwResult n status d0 d1 d2 s) := by
  unfold cwResult; simp (maxDischargeDepth := 60) only [setBit_keeps, wr_keeps, post_keeps, setCtl_keeps, keeps_mk, implies_true, Keeps.refl, foldl_keeps, ite_keeps, foldl1_keeps, id_eq, h]

theorem cwStatus_keeps {o s : State} (n status : Nat) (h : Keeps o s) : Keeps o (cwStatus n status s) := by
  unfold cwStatus; simp only [cwResult_keeps, keeps_mk, implies_true, Keeps.refl, foldl_keeps, ite_keeps, foldl1_keeps, id_eq, h]

theorem cwTally_keeps {o s : State} (n : Nat) (buf : Option (List Byte)) (h : Keeps o s) : Keeps o (cwTally n buf s) := by
  unfold cwTally; repeat' first | (simp (maxDischargeDepth := 60) only [cwStatus_keeps, report_keeps, cwResult_keeps, handSample_keeps, wbStage_keeps, keeps_mk, implies_true, Keeps.refl, foldl_keeps, ite_keeps, foldl1_keeps, id_eq, h]; done) | with_reducible (refine ite_keeps ?_ ?_) | with_reducible (refine foldl_keeps (fun _ _ => ?_) ?_) | split | (dsimp only; with_reducible (refine ite_keeps ?_ ?_)) | (dsimp only; split)

theorem cwCaravan_keeps {o s : State} (n : Nat) (buf : Option (List Byte)) (h : Keeps o s) : Keeps o (cwCaravan n buf s) := by
  unfold cwCaravan; repeat' first | (simp (maxDischargeDepth := 60) only [cwStatus_keeps, cwResult_keeps, sendUp_keeps, keeps_mk, implies_true, Keeps.refl, foldl_keeps, ite_keeps, foldl1_keeps, id_eq, h]; done) | with_reducible (refine ite_keeps ?_ ?_) | with_reducible (refine foldl_keeps (fun _ _ => ?_) ?_) | split

theorem cwStamps_keeps {o s : State} (n : Nat) (h : Keeps o s) : Keeps o (cwStamps n s) := by
  unfold cwStamps; simp only [ptpStamps_keeps, cwResult_keeps, keeps_mk, implies_true, Keeps.refl, foldl_keeps, ite_keeps, foldl1_keeps, id_eq, h]

theorem cwExec_keeps {o s : State} (n : Nat) (buf : Option (List Byte)) (h : Keeps o s) : Keeps o (cwExec n buf s) := by
  unfold cwExec
  split
  · exact cwTally_keeps _ _ h
  · exact cwCaravan_keeps _ _ h
  · exact cwStamps_keeps _ h
  · dsimp only
    split
    · exact cwStatus_keeps _ _ h
    · split
      · exact cwStatus_keeps _ _ (takeScores_keeps _ h)
      · exact cwResult_keeps _ _ _ _ _ (takeScores_keeps _ h)
  · have k := takeOutcome_keeps (cwArg s n) h
    split
    · next e => exact cwResult_keeps _ _ _ _ _ (keeps_fst e k)
    · exact cwStatus_keeps _ _ h
  · have k := parityPost_keeps (cwArg s n 1).toNat h
    split
    · next e => exact cwStatus_keeps _ _ (keeps_fst e k)
    · exact cwStatus_keeps _ _ h

theorem cwServe_keeps {o s : State} (h : Keeps o s) : Keeps o (cwServe s) := by
  unfold cwServe; split <;> simp only [cwExec_keeps, keeps_mk, implies_true, Keeps.refl, foldl_keeps, ite_keeps, foldl1_keeps, id_eq, h]

theorem cwPost_keeps {o s : State} (n : Nat) (acc : Acc) (buf : Option (List Byte)) (h : Keeps o s) : Keeps o (cwPost n acc buf s) := by
  unfold cwPost; simp (maxDischargeDepth := 60) only [attention_keeps, setBit_keeps, cwStatus_keeps, cwServe_keeps, setCtl_keeps, keeps_mk, implies_true, Keeps.refl, foldl_keeps, ite_keeps, foldl1_keeps, id_eq, h]

theorem cwBusy_keeps {o s : State} (h : Keeps o s) : Keeps o (cwBusy s) := by
  unfold cwBusy; simp only [flag_keeps, keeps_mk, implies_true, Keeps.refl, foldl_keeps, ite_keeps, foldl1_keeps, id_eq, h]

theorem cwWrite_keeps {o s : State} (buf : Option (List Byte)) (a : Nat) (acc : Acc) (h : Keeps o s) : Keeps o (cwWrite buf a acc s) := by
  unfold cwWrite; simp (maxDischargeDepth := 60) only [consume_keeps, setBit_keeps, cwBusy_keeps, cwPost_keeps, perform_keeps, keeps_mk, implies_true, Keeps.refl, foldl_keeps, ite_keeps, foldl1_keeps, id_eq, h]

theorem cwFence_keeps {o s : State} (h : Keeps o s) : Keeps o (cwFence s) := by
  unfold cwFence; simp (maxDischargeDepth := 60) only [cwStatus_keeps, keeps_mk, implies_true, Keeps.refl, foldl_keeps, ite_keeps, foldl1_keeps, id_eq, h]

theorem cwRow_keeps {o s : State} (p : Nat → Bool) (n : Nat) (acc : Acc) (buf : Option (List Byte)) (h : Keeps o s) : Keeps o (cwRow p n acc buf s) := by
  unfold cwRow; simp (maxDischargeDepth := 60) only [bringing_keeps, portWrite_keeps, cwWrite_keeps, keeps_mk, implies_true, Keeps.refl, foldl_keeps, ite_keeps, foldl1_keeps, id_eq, h]

theorem cwAnswer_keeps {o s : State} (n status : Nat) (d0 d1 d2 : Word) (h : Keeps o s) : Keeps o (cwAnswer n status d0 d1 d2 s) := by
  unfold cwAnswer; simp only [cwResult_keeps, keeps_mk, implies_true, Keeps.refl, foldl_keeps, ite_keeps, foldl1_keeps, id_eq, h]

end Sys2Proof.Machine
end

