-- ==== Sys2Proof/Laws/KeepsControl.lean ====
section
/-!
SUPPORT. What Keepsake, Lantern, debug, firmware, Guestbook, Strongbox, power and the Itinerary keep: one lemma for each operation.
-/
namespace Sys2Proof.Machine
set_option linter.unusedSimpArgs false
set_option linter.unusedTactic false
set_option linter.unreachableTactic false

/-! Keepsake. -/

theorem kspSend_keeps {o s : State} (c : KspCmd) (h : Keeps o s) : Keeps o (kspSend c s) := by
  unfold kspSend; simp only [emit_keeps, keeps_mk, implies_true, Keeps.refl, foldl_keeps, ite_keeps, foldl1_keeps, id_eq, h]

theorem loaderTake_keeps {o s : State} (h : Keeps o s) : Keeps o (loaderTake s) := by
  unfold loaderTake; simp only [set_keeps, keeps_mk, implies_true, Keeps.refl, foldl_keeps, ite_keeps, foldl1_keeps, id_eq, h]

theorem portRelease_keeps {o s : State} (loader : Bool) (h : Keeps o s) : Keeps o (portRelease loader s) := by
  unfold portRelease; repeat' first | (simp only [set_keeps, kspSend_keeps, keeps_mk, implies_true, Keeps.refl, foldl_keeps, ite_keeps, foldl1_keeps, id_eq, h]; done) | split

theorem loaderFree_keeps {o s : State} (h : Keeps o s) : Keeps o (loaderFree s) := by
  unfold loaderFree; split <;> simp only [portRelease_keeps, keeps_mk, implies_true, Keeps.refl, foldl_keeps, ite_keeps, foldl1_keeps, id_eq, h]

theorem kspEnd_keeps {o s : State} (seq st : Nat) (h : Keeps o s) : Keeps o (kspEnd seq st s) := by
  unfold kspEnd; repeat' first | (simp (maxDischargeDepth := 60) only [portRelease_keeps, post_keeps, startDone_keeps, keeps_mk, implies_true, Keeps.refl, foldl_keeps, ite_keeps, foldl1_keeps, id_eq, h]; done) | split

theorem kspStart_keeps {o s : State} (priv : Priv) (h : Keeps o s) : Keeps o (kspStart priv s) := by
  unfold kspStart; repeat' first | (simp (maxDischargeDepth := 60) only [post_keeps, kspEnd_keeps, flag_keeps, set_keeps, portRelease_keeps, keeps_mk, implies_true, Keeps.refl, foldl_keeps, ite_keeps, foldl1_keeps, id_eq, h]; done) | with_reducible (refine ite_keeps ?_ ?_) | with_reducible (refine foldl_keeps (fun _ _ => ?_) ?_) | split

theorem kspWrite_keeps {o s : State} (a : Nat) (acc : Acc) (h : Keeps o s) : Keeps o (kspWrite a acc s) := by
  unfold kspWrite; simp (maxDischargeDepth := 60) only [consume_keeps, perform_keeps, kspStart_keeps, keeps_mk, implies_true, Keeps.refl, foldl_keeps, ite_keeps, foldl1_keeps, id_eq, h]

theorem kspRow_keeps {o s : State} (op : Nat) (acc : Acc) (h : Keeps o s) : Keeps o (kspRow op acc s) := by
  unfold kspRow; simp only [portWrite_keeps, kspWrite_keeps, keeps_mk, implies_true, Keeps.refl, foldl_keeps, ite_keeps, foldl1_keeps, id_eq, h]

theorem putKspData_keeps {o s : State} (bs : List Byte) (h : Keeps o s) : Keeps o (putKspData bs s) := by
  unfold putKspData; simp (maxDischargeDepth := 60) only [wr_keeps, keeps_mk, implies_true, Keeps.refl, foldl_keeps, ite_keeps, foldl1_keeps, id_eq, h]

theorem kspDone_keeps {o s : State} (present : Bool) (bytes : List Byte) (h : Keeps o s) : Keeps o (kspDone present bytes s) := by
  unfold kspDone; repeat' first | (simp (maxDischargeDepth := 60) only [kspEnd_keeps, report_keeps, set_keeps, putKspData_keeps, keeps_mk, implies_true, Keeps.refl, foldl_keeps, ite_keeps, foldl1_keeps, id_eq, h]; done) | split

theorem kspPoll_keeps {o s : State} (err : Bool) (h : Keeps o s) : Keeps o (kspPoll err s) := by
  unfold kspPoll; repeat' first | (simp only [kspEnd_keeps, report_keeps, keeps_mk, implies_true, Keeps.refl, foldl_keeps, ite_keeps, foldl1_keeps, id_eq, h]; done) | split

theorem kspPollTimeout_keeps {o s : State} (h : Keeps o s) : Keeps o (kspPollTimeout s) := by
  unfold kspPollTimeout; repeat' first | (simp only [kspEnd_keeps, report_keeps, keeps_mk, implies_true, Keeps.refl, foldl_keeps, ite_keeps, foldl1_keeps, id_eq, h]; done) | split

theorem kspPreempt_keeps {o s : State} (h : Keeps o s) : Keeps o (kspPreempt s) := by
  unfold kspPreempt; repeat' first | (simp (maxDischargeDepth := 60) only [kspEnd_keeps, flag_keeps, set_keeps, keeps_mk, implies_true, Keeps.refl, foldl_keeps, ite_keeps, foldl1_keeps, id_eq, h]; done) | split

theorem kspResetRelease_keeps {o s : State} (h : Keeps o s) : Keeps o (kspResetRelease s) := by
  unfold kspResetRelease; simp only [keeps_mk, implies_true, Keeps.refl, foldl_keeps, ite_keeps, foldl1_keeps, id_eq, h]

/-! Lantern. -/

theorem setLtn_keeps {o s : State} (l : LtnSt) (h : Keeps o s) : Keeps o (setLtn l s) := by
  unfold setLtn; simp only [keeps_mk, implies_true, Keeps.refl, foldl_keeps, ite_keeps, foldl1_keeps, id_eq, h]

theorem setLtnCore_keeps {o s : State} (c : Nat) (k : LtnCore) (h : Keeps o s) : Keeps o (setLtnCore c k s) := by
  unfold setLtnCore; simp only [setLtn_keeps, keeps_mk, implies_true, Keeps.refl, foldl_keeps, ite_keeps, foldl1_keeps, id_eq, h]

theorem ltnLose_keeps {o s : State} (n : Nat) (h : Keeps o s) : Keeps o (ltnLose n s) := by
  unfold ltnLose; simp (maxDischargeDepth := 60) only [setLtn_keeps, bump_keeps, record_keeps, flag_keeps, keeps_mk, implies_true, Keeps.refl, foldl_keeps, ite_keeps, foldl1_keeps, id_eq, h]

theorem ltnAdmit_keeps {o s : State} (b : List Byte) (k : Nat) (h : Keeps o s) : Keeps o (ltnAdmit b k s) := by
  unfold ltnAdmit; simp only [ltnLose_keeps, setLtn_keeps, keeps_mk, implies_true, Keeps.refl, foldl_keeps, ite_keeps, foldl1_keeps, id_eq, h]

theorem ltnPut_keeps {o s : State} (b : List Byte) (h : Keeps o s) : Keeps o (ltnPut b s) := by
  unfold ltnPut; split <;> simp only [ltnAdmit_keeps, ltnLose_keeps, setLtn_keeps, keeps_mk, implies_true, Keeps.refl, foldl_keeps, ite_keeps, foldl1_keeps, id_eq, h]

theorem ltnFlush_keeps {o s : State} (c : Nat) (h : Keeps o s) : Keeps o (ltnFlush c s) := by
  unfold ltnFlush; simp (maxDischargeDepth := 60) only [ltnPut_keeps, setLtnCore_keeps, keeps_mk, implies_true, Keeps.refl, foldl_keeps, ite_keeps, foldl1_keeps, id_eq, h]

theorem ltnSync_keeps {o s : State} (c pc reason : Nat) (h : Keeps o s) : Keeps o (ltnSync c pc reason s) := by
  unfold ltnSync; simp (maxDischargeDepth := 60) only [ltnFlush_keeps, ltnPut_keeps, setLtnCore_keeps, keeps_mk, implies_true, Keeps.refl, foldl_keeps, ite_keeps, foldl1_keeps, id_eq, h]

theorem ltnSyncAll_keeps {o s : State} (reason : Nat) (h : Keeps o s) : Keeps o (ltnSyncAll reason s) := by
  unfold ltnSyncAll; simp only [ltnSync_keeps, keeps_mk, implies_true, Keeps.refl, foldl_keeps, ite_keeps, foldl1_keeps, id_eq, h]

theorem ltnRecover_keeps {o s : State} (h : Keeps o s) : Keeps o (ltnRecover s) := by
  unfold ltnRecover; simp (maxDischargeDepth := 60) only [ltnFlush_keeps, ltnSyncAll_keeps, ltnPut_keeps, setLtn_keeps, keeps_mk, implies_true, Keeps.refl, foldl_keeps, ite_keeps, foldl1_keeps, id_eq, h]

theorem ltnPeriodic_keeps {o s : State} (h : Keeps o s) : Keeps o (ltnPeriodic s) := by
  unfold ltnPeriodic; simp (maxDischargeDepth := 60) only [setLtn_keeps, ltnSyncAll_keeps, ltnPut_keeps, keeps_mk, implies_true, Keeps.refl, foldl_keeps, ite_keeps, foldl1_keeps, id_eq, h]

theorem ltnHit_keeps {o s : State} (m : Nat) (h : Keeps o s) : Keeps o (ltnHit m s) := by
  unfold ltnHit; simp only [setLtn_keeps, keeps_mk, implies_true, Keeps.refl, foldl_keeps, ite_keeps, foldl1_keeps, id_eq, h]

theorem ltnGbk_keeps {o s : State} (code cls : Nat) (h : Keeps o s) : Keeps o (ltnGbk code cls s) := by
  unfold ltnGbk; simp only [ltnHit_keeps, keeps_mk, implies_true, Keeps.refl, foldl_keeps, ite_keeps, foldl1_keeps, id_eq, h]

theorem ltnEnter_keeps {o s : State} (n fired : Nat) (h : Keeps o s) : Keeps o (ltnEnter n fired s) := by
  unfold ltnEnter; simp (maxDischargeDepth := 60) only [ltnFlush_keeps, ltnPut_keeps, set_keeps, ltnAdmit_keeps, ltnLose_keeps, note_keeps, setLtn_keeps, keeps_mk, implies_true, Keeps.refl, foldl_keeps, ite_keeps, foldl1_keeps, id_eq, h]

theorem ltnResolve_keeps {o s : State} (hits : Nat) (h : Keeps o s) : Keeps o (ltnResolve hits s) := by
  unfold ltnResolve; simp (maxDischargeDepth := 60) only [setLtn_keeps, ltnEnter_keeps, keeps_mk, implies_true, Keeps.refl, foldl_keeps, ite_keeps, foldl1_keeps, id_eq, h]

theorem ltnCount_keeps {o s : State} (c pc len next : Nat) (trap : Bool) (h : Keeps o s) : Keeps o (ltnCount c pc len next trap s) := by
  unfold ltnCount; simp (maxDischargeDepth := 60) only [setLtnCore_keeps, ltnFlush_keeps, ltnPut_keeps, keeps_mk, implies_true, Keeps.refl, foldl_keeps, ite_keeps, foldl1_keeps, id_eq, h]

theorem ltnStep_keeps {o s : State} (c pc len next : Nat) (trap : Bool) (h : Keeps o s) : Keeps o (ltnStep c pc len next trap s) := by
  unfold ltnStep; repeat' first | (simp (maxDischargeDepth := 60) only [ltnResolve_keeps, setLtnCore_keeps, ltnPut_keeps, ltnFlush_keeps, ltnSync_keeps, ltnCount_keeps, ltnPeriodic_keeps, ltnRecover_keeps, keeps_mk, implies_true, Keeps.refl, foldl_keeps, ite_keeps, foldl1_keeps, id_eq, h]; done) | with_reducible (refine ite_keeps ?_ ?_) | with_reducible (refine foldl_keeps (fun _ _ => ?_) ?_) | split

theorem coreExecutes_keeps {o s : State} (c pc len next : Nat) (trap : Option (Word × Word)) (h : Keeps o s) : Keeps o (coreExecutes c pc len next trap s) := by
  unfold coreExecutes; simp (maxDischargeDepth := 60) only [ltnStep_keeps, keeps_mk, implies_true, Keeps.refl, foldl_keeps, ite_keeps, foldl1_keeps, id_eq, h]

theorem ltnSleep_keeps {o s : State} (mask : Nat) (h : Keeps o s) : Keeps o (ltnSleep mask s) := by
  unfold ltnSleep; simp (maxDischargeDepth := 60) only [ltnPut_keeps, ltnFlush_keeps, keeps_mk, implies_true, Keeps.refl, foldl_keeps, ite_keeps, foldl1_keeps, id_eq, h]

theorem ltnRelease_keeps {o s : State} (mask reason : Nat) (h : Keeps o s) : Keeps o (ltnRelease mask reason s) := by
  unfold ltnRelease; simp (maxDischargeDepth := 60) only [ltnFlush_keeps, setLtnCore_keeps, keeps_mk, implies_true, Keeps.refl, foldl_keeps, ite_keeps, foldl1_keeps, id_eq, h]

theorem runCores_keeps {o s : State} (mask : Nat) (h : Keeps o s) : Keeps o (runCores mask s) := by
  unfold runCores; split <;> simp only [set_keeps, keeps_mk, implies_true, Keeps.refl, foldl_keeps, ite_keeps, foldl1_keeps, id_eq, h]

theorem ltnSent_keeps {o s : State} (post : Nat) (rest : List (List Byte × Nat)) (h : Keeps o s) : Keeps o (ltnSent post rest s) := by
  unfold ltnSent; simp (maxDischargeDepth := 60) only [setLtn_keeps, note_keeps, set_keeps, ltnRecover_keeps, keeps_mk, implies_true, Keeps.refl, foldl_keeps, ite_keeps, foldl1_keeps, id_eq, h]

theorem ltnRing_keeps {o s : State} (h : Keeps o s) : Keeps o (ltnRing s) := by
  unfold ltnRing; repeat' first | (simp (maxDischargeDepth := 60) only [post_keeps, partPut_keeps, set_keeps, ltnSent_keeps, mark_keeps, keeps_mk, implies_true, Keeps.refl, foldl_keeps, ite_keeps, foldl1_keeps, id_eq, h]; done) | with_reducible (refine ite_keeps ?_ ?_) | with_reducible (refine foldl_keeps (fun _ _ => ?_) ?_) | split

theorem ltnParallel_keeps {o s : State} (h : Keeps o s) : Keeps o (ltnParallel s) := by
  unfold ltnParallel; simp only [post_keeps, ltnSent_keeps, emit_keeps, keeps_mk, implies_true, Keeps.refl, foldl_keeps, ite_keeps, foldl1_keeps, id_eq, h]

theorem ltnSerial_keeps {o s : State} (h : Keeps o s) : Keeps o (ltnSerial s) := by
  unfold ltnSerial; simp (maxDischargeDepth := 60) only [setLtn_keeps, emit_keeps, post_keeps, ltnSent_keeps, keeps_mk, implies_true, Keeps.refl, foldl_keeps, ite_keeps, foldl1_keeps, id_eq, h]

theorem ltnDrain_keeps {o s : State} (t : Nat) (h : Keeps o s) : Keeps o (ltnDrain t s) := by
  unfold ltnDrain; repeat' first | (simp only [emit_keeps, ltnParallel_keeps, ltnSerial_keeps, ltnRing_keeps, keeps_mk, implies_true, Keeps.refl, foldl_keeps, ite_keeps, foldl1_keeps, id_eq, h]; done) | split

theorem ltnArm_keeps {o s : State} (h : Keeps o s) : Keeps o (ltnArm s) := by
  unfold ltnArm; simp (maxDischargeDepth := 60) only [flag_keeps, ltnPut_keeps, ltnFlush_keeps, set_keeps, setLtn_keeps, keeps_mk, implies_true, Keeps.refl, foldl_keeps, ite_keeps, foldl1_keeps, id_eq, h]

theorem ltnWrite_keeps {o s : State} (a : Nat) (acc : Acc) (h : Keeps o s) : Keeps o (ltnWrite a acc s) := by
  unfold ltnWrite; repeat' first | (simp (maxDischargeDepth := 60) only [perform_keeps, ltnArm_keeps, setLtn_keeps, ltnHit_keeps, undefinedField_keeps, keeps_mk, implies_true, Keeps.refl, foldl_keeps, ite_keeps, foldl1_keeps, id_eq, h]; done) | split

theorem timeComparator_keeps {o s : State} (x : Nat) (h : Keeps o s) : Keeps o (timeComparator x s) := by
  unfold timeComparator; simp (maxDischargeDepth := 60) only [reachBase_keeps, ltnHit_keeps, setLtn_keeps, keeps_mk, implies_true, Keeps.refl, foldl_keeps, ite_keeps, foldl1_keeps, id_eq, h]

/-! Debug. -/

theorem setDbg_keeps {o s : State} (d : DbgSt) (h : Keeps o s) : Keeps o (setDbg d s) := by
  unfold setDbg; simp only [keeps_mk, implies_true, Keeps.refl, foldl_keeps, ite_keeps, foldl1_keeps, id_eq, h]

theorem authLapse_keeps {o s : State} (why : Nat) (h : Keeps o s) : Keeps o (authLapse why s) := by
  unfold authLapse; simp (maxDischargeDepth := 60) only [set_keeps, note_keeps, setDbg_keeps, keeps_mk, implies_true, Keeps.refl, foldl_keeps, ite_keeps, foldl1_keeps, id_eq, h]

theorem authBegin_keeps {o s : State} (h : Keeps o s) : Keeps o (authBegin s) := by
  unfold authBegin; simp only [set_keeps, setDbg_keeps, keeps_mk, implies_true, Keeps.refl, foldl_keeps, ite_keeps, foldl1_keeps, id_eq, h]

theorem authWord_keeps {o s : State} (w : Word) (h : Keeps o s) : Keeps o (authWord w s) := by
  unfold authWord; simp (maxDischargeDepth := 60) only [setDbg_keeps, set_keeps, keeps_mk, implies_true, Keeps.refl, foldl_keeps, ite_keeps, foldl1_keeps, id_eq, h]

theorem authDone_keeps {o s : State} (h : Keeps o s) : Keeps o (authDone s) := by
  unfold authDone; simp (maxDischargeDepth := 60) only [setDbg_keeps, note_keeps, set_keeps, keeps_mk, implies_true, Keeps.refl, foldl_keeps, ite_keeps, foldl1_keeps, id_eq, h]

theorem authTime_keeps {o s : State} (h : Keeps o s) : Keeps o (authTime s) := by
  unfold authTime; split <;> simp only [authLapse_keeps, reachTb0_keeps, keeps_mk, implies_true, Keeps.refl, foldl_keeps, ite_keeps, foldl1_keeps, id_eq, h]

theorem haltCore_keeps {o s : State} (c port : Nat) (h : Keeps o s) : Keeps o (haltCore c port s) := by
  unfold haltCore; simp (maxDischargeDepth := 60) only [setDbg_keeps, setBit_keeps, note_keeps, set_keeps, keeps_mk, implies_true, Keeps.refl, foldl_keeps, ite_keeps, foldl1_keeps, id_eq, h]

theorem haltsDue_keeps {o s : State} (h : Keeps o s) : Keeps o (haltsDue s) := by
  unfold haltsDue; simp (maxDischargeDepth := 60) only [haltCore_keeps, keeps_mk, implies_true, Keeps.refl, foldl_keeps, ite_keeps, foldl1_keeps, id_eq, h]

theorem haltOrder_keeps {o s : State} (acc : Acc) (h : Keeps o s) : Keeps o (haltOrder acc s) := by
  unfold haltOrder; simp (maxDischargeDepth := 60) only [haltsDue_keeps, set_keeps, setDbg_keeps, keeps_mk, implies_true, Keeps.refl, foldl_keeps, ite_keeps, foldl1_keeps, id_eq, h]

theorem resumeCore_keeps {o s : State} (h : Keeps o s) : Keeps o (resumeCore s) := by
  unfold resumeCore; simp (maxDischargeDepth := 60) only [ltnRelease_keeps, runCores_keeps, setBit_keeps, keeps_mk, implies_true, Keeps.refl, foldl_keeps, ite_keeps, foldl1_keeps, id_eq, h]

theorem stepCore_keeps {o s : State} (step : Option StepEffect) (h : Keeps o s) : Keeps o (stepCore step s) := by
  unfold stepCore; repeat' first | (simp (maxDischargeDepth := 60) only [coreExecutes_keeps, keeps_mk, implies_true, Keeps.refl, foldl_keeps, ite_keeps, foldl1_keeps, id_eq, h]; done) | split

theorem coreWrite_keeps {o s : State} (a : Nat) (acc : Acc) (h : Keeps o s) : Keeps o (coreWrite a acc s) := by
  unfold coreWrite; simp (maxDischargeDepth := 60) only [perform_keeps, wr_keeps, unreg_keeps, keeps_mk, implies_true, Keeps.refl, foldl_keeps, ite_keeps, foldl1_keeps, id_eq, h]

theorem dbgWrite_keeps {o s : State} (step : Option StepEffect) (a : Nat) (acc : Acc) (h : Keeps o s) : Keeps o (dbgWrite step a acc s) := by
  unfold dbgWrite; simp (maxDischargeDepth := 60) only [coreWrite_keeps, perform_keeps, authLapse_keeps, authBegin_keeps, authWord_keeps, set_keeps, haltOrder_keeps, stepCore_keeps, resumeCore_keeps, keeps_mk, implies_true, Keeps.refl, foldl_keeps, ite_keeps, foldl1_keeps, id_eq, h]

theorem instruction_keeps {o s : State} (c pc len next : Nat) (trap : Option (Word × Word)) (h : Keeps o s) : Keeps o (instruction c pc len next trap s) := by
  unfold instruction; split <;> simp only [haltsDue_keeps, coreExecutes_keeps, keeps_mk, implies_true, Keeps.refl, foldl_keeps, ite_keeps, foldl1_keeps, id_eq, h]

/-! Firmware. -/

theorem fwReject_keeps {o s : State} (slot status : Nat) (h : Keeps o s) : Keeps o (fwReject slot status s) := by
  unfold fwReject; simp only [note_keeps, set_keeps, keeps_mk, implies_true, Keeps.refl, foldl_keeps, ite_keeps, foldl1_keeps, id_eq, h]

theorem releaseCores_keeps {o s : State} (k : Nat) (img : List Byte) (a0 a1 : Nat) (h : Keeps o s) : Keeps o (releaseCores k img a0 a1 s) := by
  unfold releaseCores; simp (maxDischargeDepth := 60) only [setCtl_keeps, ltnRelease_keeps, set_keeps, runCores_keeps, keeps_mk, implies_true, Keeps.refl, foldl_keeps, ite_keeps, foldl1_keeps, id_eq, h]

theorem fwStart_keeps {o s : State} (slot : Nat) (img : List Byte) (h : Keeps o s) : Keeps o (fwStart slot img s) := by
  unfold fwStart; simp (maxDischargeDepth := 60) only [wr_keeps, fwPut_keeps, cwServe_keeps, releaseCores_keeps, keeps_mk, implies_true, Keeps.refl, foldl_keeps, ite_keeps, foldl1_keeps, id_eq, h]

theorem firmwareLoad_keeps {o s : State} (a b : Option (List Byte)) (h : Keeps o s) : Keeps o (firmwareLoad a b s) := by
  unfold firmwareLoad; repeat' first | (simp (maxDischargeDepth := 60) only [fwStart_keeps, fwReject_keeps, set_keeps, loaderFree_keeps, keeps_mk, implies_true, Keeps.refl, foldl_keeps, ite_keeps, foldl1_keeps, id_eq, h]; done) | split

theorem ctlPost_keeps {o s : State} (a seq status : Nat) (h : Keeps o s) : Keeps o (ctlPost a seq status s) := by
  unfold ctlPost; simp only [setCtl_keeps, post_keeps, keeps_mk, implies_true, Keeps.refl, foldl_keeps, ite_keeps, foldl1_keeps, id_eq, h]

theorem ctlConsume_keeps {o s : State} (a : Nat) (acc : Acc) (h : Keeps o s) : Keeps o (ctlConsume a acc s) := by
  unfold ctlConsume; repeat' first | (simp (maxDischargeDepth := 60) only [consume_keeps, ctlPost_keeps, setCtl_keeps, keeps_mk, implies_true, Keeps.refl, foldl_keeps, ite_keeps, foldl1_keeps, id_eq, h]; done) | with_reducible (refine ite_keeps ?_ ?_) | with_reducible (refine foldl_keeps (fun _ _ => ?_) ?_) | split

theorem fwPost_keeps {o s : State} (seq status : Nat) (h : Keeps o s) : Keeps o (fwPost seq status s) := by
  unfold fwPost; simp only [ctlPost_keeps, set_keeps, keeps_mk, implies_true, Keeps.refl, foldl_keeps, ite_keeps, foldl1_keeps, id_eq, h]

theorem fwStage_keeps {o s : State} (h : Keeps o s) : Keeps o (fwStage s) := by
  unfold fwStage; simp (maxDischargeDepth := 60) only [fwPost_keeps, setCtl_keeps, loaderTake_keeps, set_keeps, keeps_mk, implies_true, Keeps.refl, foldl_keeps, ite_keeps, foldl1_keeps, id_eq, h]

theorem fwRequest_keeps {o s : State} (h : Keeps o s) : Keeps o (fwRequest s) := by
  unfold fwRequest; split <;> simp only [set_keeps, setCtl_keeps, keeps_mk, implies_true, Keeps.refl, foldl_keeps, ite_keeps, foldl1_keeps, id_eq, h]

theorem fwFinish_keeps {o s : State} (h : Keeps o s) : Keeps o (fwFinish s) := by
  unfold fwFinish; repeat' first | (simp (maxDischargeDepth := 60) only [set_keeps, setCtl_keeps, releaseCores_keeps, fwPost_keeps, cwServe_keeps, note_keeps, keeps_mk, implies_true, Keeps.refl, foldl_keeps, ite_keeps, foldl1_keeps, id_eq, h]; done) | split

theorem fwSwitch_keeps {o s : State} (h : Keeps o s) : Keeps o (fwSwitch s) := by
  unfold fwSwitch; simp (maxDischargeDepth := 60) only [fwPost_keeps, setCtl_keeps, set_keeps, fwFinish_keeps, fwRequest_keeps, keeps_mk, implies_true, Keeps.refl, foldl_keeps, ite_keeps, foldl1_keeps, id_eq, h]

theorem fwCommand_keeps {o s : State} (h : Keeps o s) : Keeps o (fwCommand s) := by
  unfold fwCommand; repeat' first | (simp only [fwStage_keeps, fwSwitch_keeps, fwPost_keeps, undefinedField_keeps, keeps_mk, implies_true, Keeps.refl, foldl_keeps, ite_keeps, foldl1_keeps, id_eq, h]; done) | split

theorem stageDone_keeps {o s : State} (img : Option (List Byte)) (h : Keeps o s) : Keeps o (stageDone img s) := by
  unfold stageDone; repeat' first | (simp (maxDischargeDepth := 60) only [loaderFree_keeps, setCtl_keeps, fwPost_keeps, set_keeps, fwPut_keeps, note_keeps, keeps_mk, implies_true, Keeps.refl, foldl_keeps, ite_keeps, foldl1_keeps, id_eq, h]; done) | split

theorem switchReq_keeps {o s : State} (h : Keeps o s) : Keeps o (switchReq s) := by
  unfold switchReq; repeat' first | (simp (maxDischargeDepth := 60) only [fwFinish_keeps, fwRequest_keeps, reachBase_keeps, keeps_mk, implies_true, Keeps.refl, foldl_keeps, ite_keeps, foldl1_keeps, id_eq, h]; done) | split

theorem fwReady_keeps {o s : State} (acc : Acc) (h : Keeps o s) : Keeps o (fwReady acc s) := by
  unfold fwReady; repeat' first | (simp only [fwFinish_keeps, setCtl_keeps, keeps_mk, implies_true, Keeps.refl, foldl_keeps, ite_keeps, foldl1_keeps, id_eq, h]; done) | split

theorem switchTimeout_keeps {o s : State} (h : Keeps o s) : Keeps o (switchTimeout s) := by
  unfold switchTimeout; repeat' first | (simp (maxDischargeDepth := 60) only [reachBase_keeps, setCtl_keeps, set_keeps, cwServe_keeps, note_keeps, fwPost_keeps, keeps_mk, implies_true, Keeps.refl, foldl_keeps, ite_keeps, foldl1_keeps, id_eq, h]; done) | split

theorem coreHaltEcc_keeps {o s : State} (c : Nat) (h : Keeps o s) : Keeps o (coreHaltEcc c s) := by
  unfold coreHaltEcc; simp (maxDischargeDepth := 60) only [fwFinish_keeps, note_keeps, setBit_keeps, keeps_mk, implies_true, Keeps.refl, foldl_keeps, ite_keeps, foldl1_keeps, id_eq, h]

theorem modePost_keeps {o s : State} (seq status : Nat) (h : Keeps o s) : Keeps o (modePost seq status s) := by
  unfold modePost; simp only [ctlPost_keeps, set_keeps, keeps_mk, implies_true, Keeps.refl, foldl_keeps, ite_keeps, foldl1_keeps, id_eq, h]

theorem modeRefuse_keeps {o s : State} (seq func status : Nat) (h : Keeps o s) : Keeps o (modeRefuse seq func status s) := by
  unfold modeRefuse; simp only [modePost_keeps, note_keeps, keeps_mk, implies_true, Keeps.refl, foldl_keeps, ite_keeps, foldl1_keeps, id_eq, h]

theorem modeHand_keeps {o s : State} (h : Keeps o s) : Keeps o (modeHand s) := by
  unfold modeHand; repeat' first | (simp only [handOver_keeps, setCtl_keeps, keeps_mk, implies_true, Keeps.refl, foldl_keeps, ite_keeps, foldl1_keeps, id_eq, h]; done) | split

theorem modeCommand_keeps {o s : State} (acc : Acc) (h : Keeps o s) : Keeps o (modeCommand acc s) := by
  unfold modeCommand; simp (maxDischargeDepth := 60) only [modePost_keeps, undefinedField_keeps, modeRefuse_keeps, set_keeps, setCtl_keeps, modeHand_keeps, holdUnits_keeps, keeps_mk, implies_true, Keeps.refl, foldl_keeps, ite_keeps, foldl1_keeps, id_eq, h]

theorem modeFlip_keeps {o s0 : State} (buf : Option (List Byte)) (h : Keeps o s0) : Keeps o (modeFlip buf s0) := by
  unfold modeFlip; repeat' first | (simp (maxDischargeDepth := 60) only [modeHand_keeps, flipMode_keeps, setCtl_keeps, note_keeps, modePost_keeps, releaseUnits_keeps, keeps_mk, implies_true, Keeps.refl, foldl_keeps, ite_keeps, foldl1_keeps, id_eq, h]; done) | with_reducible (refine ite_keeps ?_ ?_) | with_reducible (refine foldl_keeps (fun _ _ => ?_) ?_) | split | (dsimp only; with_reducible (refine ite_keeps ?_ ?_)) | (dsimp only; split)

theorem modeTimeout_keeps {o s : State} (h : Keeps o s) : Keeps o (modeTimeout s) := by
  unfold modeTimeout; repeat' first | (simp (maxDischargeDepth := 60) only [reachBase_keeps, modeRefuse_keeps, releaseUnits_keeps, setCtl_keeps, keeps_mk, implies_true, Keeps.refl, foldl_keeps, ite_keeps, foldl1_keeps, id_eq, h]; done) | split

theorem ctlWrite_keeps {o s : State} (a : Nat) (acc : Acc) (h : Keeps o s) : Keeps o (ctlWrite a acc s) := by
  unfold ctlWrite; simp (maxDischargeDepth := 60) only [ctlConsume_keeps, fwReady_keeps, perform_keeps, fwCommand_keeps, modeCommand_keeps, keeps_mk, implies_true, Keeps.refl, foldl_keeps, ite_keeps, foldl1_keeps, id_eq, h]

/-! Guestbook. -/

theorem setGbk_keeps {o s : State} (g : GbkSt) (h : Keeps o s) : Keeps o (setGbk g s) := by
  unfold setGbk; simp only [keeps_mk, implies_true, Keeps.refl, foldl_keeps, ite_keeps, foldl1_keeps, id_eq, h]

theorem gbkMap_keeps {o s : State} (f : GRec → GRec) (h : Keeps o s) : Keeps o (gbkMap f s) := by
  unfold gbkMap; simp only [setGbk_keeps, keeps_mk, implies_true, Keeps.refl, foldl_keeps, ite_keeps, foldl1_keeps, id_eq, h]

theorem gbkFlush_keeps {o s : State} (h : Keeps o s) : Keeps o (gbkFlush s) := by
  unfold gbkFlush; simp only [gbkMap_keeps, keeps_mk, implies_true, Keeps.refl, foldl_keeps, ite_keeps, foldl1_keeps, id_eq, h]

theorem gbkMerge_keeps {o s : State} (n : Nat) (h : Keeps o s) : Keeps o (gbkMerge n s) := by
  unfold gbkMerge; simp (maxDischargeDepth := 60) only [flag_keeps, gbkMap_keeps, keeps_mk, implies_true, Keeps.refl, foldl_keeps, ite_keeps, foldl1_keeps, id_eq, h]

theorem gbkNew_keeps {o s : State} (r : Raised) (h : Keeps o s) : Keeps o (gbkNew r s) := by
  unfold gbkNew; simp only [setGbk_keeps, set_keeps, keeps_mk, implies_true, Keeps.refl, foldl_keeps, ite_keeps, foldl1_keeps, id_eq, h]

theorem gbkTable_keeps {o s : State} (r : Raised) (n : Nat) (h : Keeps o s) : Keeps o (gbkTable r n s) := by
  unfold gbkTable; simp only [setGbk_keeps, keeps_mk, implies_true, Keeps.refl, foldl_keeps, ite_keeps, foldl1_keeps, id_eq, h]

theorem gbkPlace_keeps {o s : State} (r : Raised) (h : Keeps o s) : Keeps o (gbkPlace r s) := by
  unfold gbkPlace; repeat' first | (simp only [gbkMerge_keeps, gbkNew_keeps, gbkTable_keeps, keeps_mk, implies_true, Keeps.refl, foldl_keeps, ite_keeps, foldl1_keeps, id_eq, h]; done) | split

theorem capture_keeps {o s : State} (r : Raised) (h : Keeps o s) : Keeps o (capture r s) := by
  unfold capture; simp (maxDischargeDepth := 60) only [keeps_mk, implies_true, Keeps.refl, foldl_keeps, ite_keeps, foldl1_keeps, id_eq, h]

theorem gbkTrigger_keeps {o s : State} (r : Raised) (h : Keeps o s) : Keeps o (gbkTrigger r s) := by
  unfold gbkTrigger; split <;> simp only [wbTrigger_keeps, keeps_mk, implies_true, Keeps.refl, foldl_keeps, ite_keeps, foldl1_keeps, id_eq, h]

theorem gbkAccept_keeps {o s : State} (h : Keeps o s) : Keeps o (gbkAccept s) := by
  unfold gbkAccept; repeat' first | (simp (maxDischargeDepth := 60) only [gbkFlush_keeps, set_keeps, setGbk_keeps, gbkPlace_keeps, ltnGbk_keeps, capture_keeps, gbkTrigger_keeps, keeps_mk, implies_true, Keeps.refl, foldl_keeps, ite_keeps, foldl1_keeps, id_eq, h]; done) | split

theorem gbkStart_keeps {o s : State} (h : Keeps o s) : Keeps o (gbkStart s) := by
  unfold gbkStart; simp (maxDischargeDepth := 60) only [set_keeps, setGbk_keeps, gbkNew_keeps, keeps_mk, implies_true, Keeps.refl, foldl_keeps, ite_keeps, foldl1_keeps, id_eq, h]

theorem ldgStart_keeps {o s : State} (h : Keeps o s) : Keeps o (ldgStart s) := by
  unfold ldgStart; simp (maxDischargeDepth := 60) only [set_keeps, keeps_mk, implies_true, Keeps.refl, foldl_keeps, ite_keeps, foldl1_keeps, id_eq, h]

theorem expGap_keeps {o s : State} (h : Keeps o s) : Keeps o (expGap s) := by
  unfold expGap; simp (maxDischargeDepth := 60) only [report_keeps, set_keeps, keeps_mk, implies_true, Keeps.refl, foldl_keeps, ite_keeps, foldl1_keeps, id_eq, h]

theorem gbkExport_keeps {o s0 : State} (h : Keeps o s0) : Keeps o (gbkExport s0) := by
  unfold gbkExport; repeat' first | (simp (maxDischargeDepth := 60) only [expGap_keeps, gbkFlush_keeps, memRequest_keeps, cmpChecked_keeps, setGbk_keeps, keeps_mk, implies_true, Keeps.refl, foldl_keeps, ite_keeps, foldl1_keeps, id_eq, h]; done) | with_reducible (refine ite_keeps ?_ ?_) | with_reducible (refine foldl_keeps (fun _ _ => ?_) ?_) | split | (dsimp only; with_reducible (refine ite_keeps ?_ ?_)) | (dsimp only; split)

theorem gbkExported_keeps {o s : State} (h : Keeps o s) : Keeps o (gbkExported s) := by
  unfold gbkExported; repeat' first | (simp (maxDischargeDepth := 60) only [memForget_keeps, set_keeps, setGbk_keeps, report_keeps, keeps_mk, implies_true, Keeps.refl, foldl_keeps, ite_keeps, foldl1_keeps, id_eq, h]; done) | split

theorem gbkWrite_keeps {o s : State} (a : Nat) (acc : Acc) (h : Keeps o s) : Keeps o (gbkWrite a acc s) := by
  unfold gbkWrite; simp (maxDischargeDepth := 60) only [perform_keeps, set_keeps, keeps_mk, implies_true, Keeps.refl, foldl_keeps, ite_keeps, foldl1_keeps, id_eq, h]

/-! Strongbox. -/

theorem setSbx_keeps {o s : State} (b : SbxSt) (h : Keeps o s) : Keeps o (setSbx b s) := by
  unfold setSbx; simp only [keeps_mk, implies_true, Keeps.refl, foldl_keeps, ite_keeps, foldl1_keeps, id_eq, h]

theorem verdictAck_keeps {o s : State} (q : Nat) (h : Keeps o s) : Keeps o (verdictAck q s) := by
  unfold verdictAck; simp only [set_keeps, setSbx_keeps, keeps_mk, implies_true, Keeps.refl, foldl_keeps, ite_keeps, foldl1_keeps, id_eq, h]

theorem sbxWrite_keeps {o s : State} (a : Nat) (acc : Acc) (h : Keeps o s) : Keeps o (sbxWrite a acc s) := by
  unfold sbxWrite; split <;> simp only [perform_keeps, verdictAck_keeps, keeps_mk, implies_true, Keeps.refl, foldl_keeps, ite_keeps, foldl1_keeps, id_eq, h]

theorem pfwLadder_keeps {o s : State} (h : Keeps o s) : Keeps o (pfwLadder s) := by
  unfold pfwLadder; split <;> simp only [note_keeps, tickFree_keeps, keeps_mk, implies_true, Keeps.refl, foldl_keeps, ite_keeps, foldl1_keeps, id_eq, h]

theorem drainQueues_keeps {o s : State} (n : Nat) (h : Keeps o s) : Keeps o (drainQueues n s) := by
  induction n generalizing s with
  | zero => exact h
  | succ n ih =>
    unfold drainQueues
    split
    · exact h
    · exact ih (ledgerPass_keeps (gbkAccept_keeps h))

theorem saveStart_keeps {o s : State} (a b : List Byte) (h : Keeps o s) : Keeps o (saveStart a b s) := by
  unfold saveStart; simp (maxDischargeDepth := 60) only [kspPreempt_keeps, set_keeps, drainQueues_keeps, setSbx_keeps, keeps_mk, implies_true, Keeps.refl, foldl_keeps, ite_keeps, foldl1_keeps, id_eq, h]

theorem dropEntry_keeps {o s : State} (h : Keeps o s) : Keeps o (dropEntry s) := by
  unfold dropEntry; simp only [set_keeps, keeps_mk, implies_true, Keeps.refl, foldl_keeps, ite_keeps, foldl1_keeps, id_eq, h]

theorem powerFail_keeps {o s : State} (a b : List Byte) (h : Keeps o s) : Keeps o (powerFail a b s) := by
  unfold powerFail; simp (maxDischargeDepth := 60) only [set_keeps, pfwLadder_keeps, saveStart_keeps, dropEntry_keeps, lastWake_keeps, keeps_mk, implies_true, Keeps.refl, foldl_keeps, ite_keeps, foldl1_keeps, id_eq, h]

theorem savePage_keeps {o s : State} (slot : Nat) (b : List Byte) (p : Nat) (h : Keeps o s) : Keeps o (savePage slot b s p) := by
  unfold savePage; simp only [emit_keeps, keeps_mk, implies_true, Keeps.refl, foldl_keeps, ite_keeps, foldl1_keeps, id_eq, h]

theorem saveDone_keeps {o s : State} (h : Keeps o s) : Keeps o (saveDone s) := by
  unfold saveDone; repeat' first | (simp (maxDischargeDepth := 60) only [set_keeps, savePage_keeps, setSbx_keeps, keeps_mk, implies_true, Keeps.refl, foldl_keeps, ite_keeps, foldl1_keeps, id_eq, h]; done) | split

theorem savePgFall_keeps {o s : State} (h : Keeps o s) : Keeps o (savePgFall s) := by
  unfold savePgFall; simp (maxDischargeDepth := 60) only [set_keeps, setSbx_keeps, keeps_mk, implies_true, Keeps.refl, foldl_keeps, ite_keeps, foldl1_keeps, id_eq, h]

theorem restoreStart_keeps {o s : State} (h : Keeps o s) : Keeps o (restoreStart s) := by
  unfold restoreStart; simp (maxDischargeDepth := 60) only [set_keeps, setSbx_keeps, keeps_mk, implies_true, Keeps.refl, foldl_keeps, ite_keeps, foldl1_keeps, id_eq, h]

theorem restoreDone_keeps {o s : State} (a b : List Byte) (h : Keeps o s) : Keeps o (restoreDone a b s) := by
  unfold restoreDone; repeat' first | (simp (maxDischargeDepth := 60) only [portRelease_keeps, note_keeps, report_keeps, set_keeps, setSbx_keeps, ledger_keeps, keeps_mk, implies_true, Keeps.refl, foldl_keeps, ite_keeps, foldl1_keeps, id_eq, h]; done) | with_reducible (refine ite_keeps ?_ ?_) | with_reducible (refine foldl_keeps (fun _ _ => ?_) ?_) | split

/-! Power. -/

theorem setPwr_keeps {o s : State} (p : PwrSt) (h : Keeps o s) : Keeps o (setPwr p s) := by
  unfold setPwr; simp only [keeps_mk, implies_true, Keeps.refl, foldl_keeps, ite_keeps, foldl1_keeps, id_eq, h]

theorem pwrPost_keeps {o s : State} (seq rest : Nat) (h : Keeps o s) : Keeps o (pwrPost seq rest s) := by
  unfold pwrPost; simp (maxDischargeDepth := 60) only [set_keeps, setPwr_keeps, post_keeps, keeps_mk, implies_true, Keeps.refl, foldl_keeps, ite_keeps, foldl1_keeps, id_eq, h]

theorem pwrConsume_keeps {o s : State} (acc : Acc) (h : Keeps o s) : Keeps o (pwrConsume acc s) := by
  unfold pwrConsume; repeat' first | (simp (maxDischargeDepth := 60) only [consume_keeps, pwrPost_keeps, setPwr_keeps, keeps_mk, implies_true, Keeps.refl, foldl_keeps, ite_keeps, foldl1_keeps, id_eq, h]; done) | with_reducible (refine ite_keeps ?_ ?_) | with_reducible (refine foldl_keeps (fun _ _ => ?_) ?_) | split | (dsimp only; with_reducible (refine ite_keeps ?_ ?_)) | (dsimp only; split)

theorem phase_keeps {o s : State} (n : Nat) (h : Keeps o s) : Keeps o (phase n s) := by
  unfold phase; simp only [set_keeps, keeps_mk, implies_true, Keeps.refl, foldl_keeps, ite_keeps, foldl1_keeps, id_eq, h]

theorem holdCores_keeps {o s : State} (h : Keeps o s) : Keeps o (holdCores s) := by
  unfold holdCores; simp (maxDischargeDepth := 60) only [set_keeps, setPwr_keeps, ltnSleep_keeps, keeps_mk, implies_true, Keeps.refl, foldl_keeps, ite_keeps, foldl1_keeps, id_eq, h]

theorem startCores_keeps {o s : State} (h : Keeps o s) : Keeps o (startCores s) := by
  unfold startCores; simp (maxDischargeDepth := 60) only [runCores_keeps, setPwr_keeps, ltnRelease_keeps, keeps_mk, implies_true, Keeps.refl, foldl_keeps, ite_keeps, foldl1_keeps, id_eq, h]

theorem entryEnd_keeps {o s : State} (h : Keeps o s) : Keeps o (entryEnd s) := by
  unfold entryEnd; simp (maxDischargeDepth := 60) only [releaseUnits_keeps, phase_keeps, setPwr_keeps, cwServe_keeps, startCores_keeps, keeps_mk, implies_true, Keeps.refl, foldl_keeps, ite_keeps, foldl1_keeps, id_eq, h]

theorem entryFail_keeps {o s : State} (f : Field) (status page reason : Nat) (e : PwrEntry) (h : Keeps o s) : Keeps o (entryFail f status page reason e s) := by
  unfold entryFail; simp (maxDischargeDepth := 60) only [report_keeps, entryEnd_keeps, pwrPost_keeps, keeps_mk, implies_true, Keeps.refl, foldl_keeps, ite_keeps, foldl1_keeps, id_eq, h]

theorem entryAbort_keeps {o s : State} (e : PwrEntry) (h : Keeps o s) : Keeps o (entryAbort e s) := by
  unfold entryAbort; repeat' first | (simp (maxDischargeDepth := 60) only [note_keeps, flag_keeps, lastWake_keeps, entryEnd_keeps, pwrPost_keeps, setPwr_keeps, keeps_mk, implies_true, Keeps.refl, foldl_keeps, ite_keeps, foldl1_keeps, id_eq, h]; done) | split

theorem gate_keeps {o s : State} (e : PwrEntry) (h : Keeps o s) : Keeps o (gate e s) := by
  unfold gate; simp (maxDischargeDepth := 60) only [saveStart_keeps, phase_keeps, setPwr_keeps, setCtl_keeps, set_keeps, bump_keeps, pwrPost_keeps, note_keeps, keeps_mk, implies_true, Keeps.refl, foldl_keeps, ite_keeps, foldl1_keeps, id_eq, h]

theorem holdDone_keeps {o s : State} (h : Keeps o s) : Keeps o (holdDone s) := by
  unfold holdDone; repeat' first | (simp only [entryAbort_keeps, gate_keeps, keeps_mk, implies_true, Keeps.refl, foldl_keeps, ite_keeps, foldl1_keeps, id_eq, h]; done) | split

theorem beginHold_keeps {o s : State} (e : PwrEntry) (h : Keeps o s) : Keeps o (beginHold e s) := by
  unfold beginHold; simp (maxDischargeDepth := 60) only [phase_keeps, holdUnits_keeps, holdCores_keeps, keeps_mk, implies_true, Keeps.refl, foldl_keeps, ite_keeps, foldl1_keeps, id_eq, h]

theorem ask_keeps {o s : State} (last : Bool) (h : Keeps o s) : Keeps o (ask last s) := by
  unfold ask; repeat' first | (simp (maxDischargeDepth := 60) only [entryFail_keeps, setPwr_keeps, entryAbort_keeps, beginHold_keeps, keeps_mk, implies_true, Keeps.refl, foldl_keeps, ite_keeps, foldl1_keeps, id_eq, h]; done) | split

theorem askCores_keeps {o s : State} (target : Nat) (h : Keeps o s) : Keeps o (askCores target s) := by
  unfold askCores; split <;> simp only [raiseIrq_keeps, setPwr_keeps, keeps_mk, implies_true, Keeps.refl, foldl_keeps, ite_keeps, foldl1_keeps, id_eq, h]

theorem pwrCommand_keeps {o s : State} (h : Keeps o s) : Keeps o (pwrCommand s) := by
  unfold pwrCommand; simp (maxDischargeDepth := 60) only [pwrPost_keeps, undefinedField_keeps, wake_keeps, set_keeps, setPwr_keeps, phase_keeps, ask_keeps, askCores_keeps, keeps_mk, implies_true, Keeps.refl, foldl_keeps, ite_keeps, foldl1_keeps, id_eq, h]

theorem askRetry_keeps {o s : State} (h : Keeps o s) : Keeps o (askRetry s) := by
  unfold askRetry; repeat' first | (simp only [ask_keeps, reachBase_keeps, keeps_mk, implies_true, Keeps.refl, foldl_keeps, ite_keeps, foldl1_keeps, id_eq, h]; done) | split

theorem entryTimeout_keeps {o s : State} (h : Keeps o s) : Keeps o (entryTimeout s) := by
  unfold entryTimeout; repeat' first | (simp only [ask_keeps, reachBase_keeps, keeps_mk, implies_true, Keeps.refl, foldl_keeps, ite_keeps, foldl1_keeps, id_eq, h]; done) | split

theorem coreAck_keeps {o s : State} (acc : Acc) (h : Keeps o s) : Keeps o (coreAck acc s) := by
  unfold coreAck; split <;> simp only [setPwr_keeps, keeps_mk, implies_true, Keeps.refl, foldl_keeps, ite_keeps, foldl1_keeps, id_eq, h]

theorem wakeTimer_keeps {o s : State} (h : Keeps o s) : Keeps o (wakeTimer s) := by
  unfold wakeTimer; simp (maxDischargeDepth := 60) only [wake_keeps, reachBase_keeps, keeps_mk, implies_true, Keeps.refl, foldl_keeps, ite_keeps, foldl1_keeps, id_eq, h]

theorem ltnResync_keeps {o s : State} (h : Keeps o s) : Keeps o (ltnResync s) := by
  unfold ltnResync; simp only [setLtn_keeps, keeps_mk, implies_true, Keeps.refl, foldl_keeps, ite_keeps, foldl1_keeps, id_eq, h]

theorem exitDone_keeps {o s : State} (h : Keeps o s) : Keeps o (exitDone s) := by
  unfold exitDone; repeat' first | (simp (maxDischargeDepth := 60) only [set_keeps, ltnResync_keeps, note_keeps, releaseUnits_keeps, setPwr_keeps, pwrPost_keeps, cwServe_keeps, startCores_keeps, keeps_mk, implies_true, Keeps.refl, foldl_keeps, ite_keeps, foldl1_keeps, id_eq, h]; done) | with_reducible (refine ite_keeps ?_ ?_) | with_reducible (refine foldl_keeps (fun _ _ => ?_) ?_) | split

theorem stepPost_keeps {o s : State} (ans reason : Nat) (h : Keeps o s) : Keeps o (stepPost ans reason s) := by
  unfold stepPost; simp only [post_keeps, set_keeps, keeps_mk, implies_true, Keeps.refl, foldl_keeps, ite_keeps, foldl1_keeps, id_eq, h]

theorem stepAsk_keeps {o s : State} (page t : Nat) (h : Keeps o s) : Keeps o (stepAsk page t s) := by
  unfold stepAsk; repeat' first | (simp (maxDischargeDepth := 60) only [setPwr_keeps, phase_keeps, askCores_keeps, stepPost_keeps, entryFail_keeps, keeps_mk, implies_true, Keeps.refl, foldl_keeps, ite_keeps, foldl1_keeps, id_eq, h]; done) | with_reducible (refine ite_keeps ?_ ?_) | with_reducible (refine foldl_keeps (fun _ _ => ?_) ?_) | split | (dsimp only; with_reducible (refine ite_keeps ?_ ?_)) | (dsimp only; split)

theorem stepHold_keeps {o s : State} (page t : Nat) (h : Keeps o s) : Keeps o (stepHold page t s) := by
  unfold stepHold; simp (maxDischargeDepth := 60) only [stepPost_keeps, entryAbort_keeps, phase_keeps, setPwr_keeps, holdUnits_keeps, holdCores_keeps, keeps_mk, implies_true, Keeps.refl, foldl_keeps, ite_keeps, foldl1_keeps, id_eq, h]

theorem stepGate_keeps {o s : State} (t : Nat) (h : Keeps o s) : Keeps o (stepGate t s) := by
  unfold stepGate; simp (maxDischargeDepth := 60) only [stepPost_keeps, entryAbort_keeps, gate_keeps, keeps_mk, implies_true, Keeps.refl, foldl_keeps, ite_keeps, foldl1_keeps, id_eq, h]

theorem stepRelease_keeps {o s : State} (page : Nat) (h : Keeps o s) : Keeps o (stepRelease page s) := by
  unfold stepRelease; simp (maxDischargeDepth := 60) only [cmpKick_keeps, setCtl_keeps, cwServe_keeps, startCores_keeps, phase_keeps, setPwr_keeps, stepPost_keeps, keeps_mk, implies_true, Keeps.refl, foldl_keeps, ite_keeps, foldl1_keeps, id_eq, h]

theorem pwrStep_keeps {o s : State} (h : Keeps o s) : Keeps o (pwrStep s) := by
  unfold pwrStep; repeat' first | (simp (maxDischargeDepth := 60) only [stepPost_keeps, undefinedField_keeps, stepAsk_keeps, stepHold_keeps, stepGate_keeps, stepRelease_keeps, keeps_mk, implies_true, Keeps.refl, foldl_keeps, ite_keeps, foldl1_keeps, id_eq, h]; done) | with_reducible (refine ite_keeps ?_ ?_) | with_reducible (refine foldl_keeps (fun _ _ => ?_) ?_) | split

theorem pwrWrite_keeps {o s : State} (a : Nat) (acc : Acc) (h : Keeps o s) : Keeps o (pwrWrite a acc s) := by
  unfold pwrWrite; simp (maxDischargeDepth := 60) only [pwrConsume_keeps, consume_keeps, coreAck_keeps, perform_keeps, pwrCommand_keeps, pwrStep_keeps, keeps_mk, implies_true, Keeps.refl, foldl_keeps, ite_keeps, foldl1_keeps, id_eq, h]

theorem stepWrite_keeps {o s : State} (act : Nat) (acc : Acc) (h : Keeps o s) : Keeps o (stepWrite act acc s) := by
  unfold stepWrite; simp only [portWrite_keeps, pwrWrite_keeps, keeps_mk, implies_true, Keeps.refl, foldl_keeps, ite_keeps, foldl1_keeps, id_eq, h]

/-! Itinerary. -/

theorem setItnState_keeps {o s : State} (n : Nat) (h : Keeps o s) : Keeps o (setItnState n s) := by
  unfold setItnState; simp only [set_keeps, keeps_mk, implies_true, Keeps.refl, foldl_keeps, ite_keeps, foldl1_keeps, id_eq, h]

theorem setOvlState_keeps {o s : State} (n : Nat) (h : Keeps o s) : Keeps o (setOvlState n s) := by
  unfold setOvlState; simp only [set_keeps, keeps_mk, implies_true, Keeps.refl, foldl_keeps, ite_keeps, foldl1_keeps, id_eq, h]

theorem itnReject_keeps {o s : State} (code : Nat) (h : Keeps o s) : Keeps o (itnReject code s) := by
  unfold itnReject; simp only [set_keeps, keeps_mk, implies_true, Keeps.refl, foldl_keeps, ite_keeps, foldl1_keeps, id_eq, h]

theorem waitPush_keeps {o s : State} (h : Keeps o s) : Keeps o (waitPush s) := by
  unfold waitPush; simp (maxDischargeDepth := 60) only [setItnState_keeps, setItn_keeps, loaderFree_keeps, keeps_mk, implies_true, Keeps.refl, foldl_keeps, ite_keeps, foldl1_keeps, id_eq, h]

theorem loadStart_keeps {o s : State} (present : Bool) (a b : Option (List Byte)) (h : Keeps o s) : Keeps o (loadStart present a b s) := by
  unfold loadStart; simp (maxDischargeDepth := 60) only [reachBase_keeps, set_keeps, report_keeps, waitPush_keeps, setItnState_keeps, setItn_keeps, loaderTake_keeps, keeps_mk, implies_true, Keeps.refl, foldl_keeps, ite_keeps, foldl1_keeps, id_eq, h]

theorem acceptBase_keeps {o s : State} (i : BaseImg) (h : Keeps o s) : Keeps o (acceptBase i s) := by
  unfold acceptBase; simp only [setItnState_keeps, setItn_keeps, keeps_mk, implies_true, Keeps.refl, foldl_keeps, ite_keeps, foldl1_keeps, id_eq, h]

theorem slotDone_keeps {o s : State} (img : Option (List Byte)) (h : Keeps o s) : Keeps o (slotDone img s) := by
  unfold slotDone; repeat' first | (simp (maxDischargeDepth := 60) only [acceptBase_keeps, setItn_keeps, noteLater_keeps, flag_keeps, itnReject_keeps, waitPush_keeps, keeps_mk, implies_true, Keeps.refl, foldl_keeps, ite_keeps, foldl1_keeps, id_eq, h]; done) | split

theorem showStore_keeps {o s : State} (h : Keeps o s) : Keeps o (showStore s) := by
  unfold showStore; simp only [set_keeps, keeps_mk, implies_true, Keeps.refl, foldl_keeps, ite_keeps, foldl1_keeps, id_eq, h]

theorem showImage_keeps {o s : State} (i : BaseImg) (h : Keeps o s) : Keeps o (showImage i s) := by
  unfold showImage; simp (maxDischargeDepth := 60) only [wr_keeps, set_keeps, keeps_mk, implies_true, Keeps.refl, foldl_keeps, ite_keeps, foldl1_keeps, id_eq, h]

theorem storeCheck_keeps {o s : State} (digest : List Byte) (h : Keeps o s) : Keeps o (storeCheck digest s) := by
  unfold storeCheck; split <;> simp only [noteLater_keeps, setItn_keeps, keeps_mk, implies_true, Keeps.refl, foldl_keeps, ite_keeps, foldl1_keeps, id_eq, h]

theorem applyAll_keeps {o s : State} (p : Nat) (cfg : List (Nat × List Byte)) (h : Keeps o s) : Keeps o (applyAll p cfg s) := by
  unfold applyAll; simp (maxDischargeDepth := 60) only [applyClock_keeps, applyStructure_keeps, setItn_keeps, gbkStart_keeps, ldgStart_keeps, unitDefaults_keeps, applyIdentity_keeps, applyInstance_keeps, applyDomains_keeps, fillBuckets_keeps, set_keeps, keeps_mk, implies_true, Keeps.refl, foldl_keeps, ite_keeps, foldl1_keeps, id_eq, h]

theorem applyDone_keeps {o s : State} (h : Keeps o s) : Keeps o (applyDone s) := by
  unfold applyDone; repeat' first | (simp (maxDischargeDepth := 60) only [storeCheck_keeps, setItn_keeps, showImage_keeps, applyAll_keeps, ledger_keeps, showStore_keeps, set_keeps, note_keeps, loaderTake_keeps, setItnState_keeps, keeps_mk, implies_true, Keeps.refl, foldl_keeps, ite_keeps, foldl1_keeps, id_eq, h]; done) | split

theorem ovlReject_keeps {o s : State} (code : Nat) (h : Keeps o s) : Keeps o (ovlReject code s) := by
  unfold ovlReject; simp only [report_keeps, itnReject_keeps, keeps_mk, implies_true, Keeps.refl, foldl_keeps, ite_keeps, foldl1_keeps, id_eq, h]

theorem pushRefuse_keeps {o s : State} (kind code : Nat) (h : Keeps o s) : Keeps o (pushRefuse kind code s) := by
  unfold pushRefuse; simp (maxDischargeDepth := 60) only [flag_keeps, startDone_keeps, ovlReject_keeps, noteLater_keeps, itnReject_keeps, keeps_mk, implies_true, Keeps.refl, foldl_keeps, ite_keeps, foldl1_keeps, id_eq, h]

theorem pushBegin_keeps {o s : State} (acc : Acc) (h : Keeps o s) : Keeps o (pushBegin acc s) := by
  unfold pushBegin; simp (maxDischargeDepth := 60) only [pushRefuse_keeps, set_keeps, setItn_keeps, setOvlState_keeps, setItnState_keeps, keeps_mk, implies_true, Keeps.refl, foldl_keeps, ite_keeps, foldl1_keeps, id_eq, h]

theorem pushDrop_keeps {o s : State} (h : Keeps o s) : Keeps o (pushDrop s) := by
  unfold pushDrop; repeat' first | (simp (maxDischargeDepth := 60) only [startDone_keeps, setItn_keeps, setOvlState_keeps, setItnState_keeps, keeps_mk, implies_true, Keeps.refl, foldl_keeps, ite_keeps, foldl1_keeps, id_eq, h]; done) | split

theorem pushWord_keeps {o s : State} (w : Word) (h : Keeps o s) : Keeps o (pushWord w s) := by
  unfold pushWord; repeat' first | (simp (maxDischargeDepth := 60) only [flag_keeps, setItn_keeps, startDone_keeps, setOvlState_keeps, setItnState_keeps, keeps_mk, implies_true, Keeps.refl, foldl_keeps, ite_keeps, foldl1_keeps, id_eq, h]; done) | split

theorem itnWrite_keeps {o s : State} (a : Nat) (acc : Acc) (h : Keeps o s) : Keeps o (itnWrite a acc s) := by
  unfold itnWrite; simp (maxDischargeDepth := 60) only [pushWord_keeps, perform_keeps, pushDrop_keeps, pushBegin_keeps, keeps_mk, implies_true, Keeps.refl, foldl_keeps, ite_keeps, foldl1_keeps, id_eq, h]

theorem storeOverlay_keeps {o s : State} (seq digest : Nat) (secs : List (Nat × List Byte)) (h : Keeps o s) : Keeps o (storeOverlay seq digest secs s) := by
  unfold storeOverlay; simp (maxDischargeDepth := 60) only [showStore_keeps, set_keeps, setItn_keeps, keeps_mk, implies_true, Keeps.refl, foldl_keeps, ite_keeps, foldl1_keeps, id_eq, h]

theorem pushVerified_keeps {o s : State} (h : Keeps o s) : Keeps o (pushVerified s) := by
  unfold pushVerified; repeat' first | (simp (maxDischargeDepth := 60) only [setItn_keeps, acceptBase_keeps, setItnState_keeps, noteLater_keeps, itnReject_keeps, setOvlState_keeps, ovlReject_keeps, set_keeps, storeOverlay_keeps, keeps_mk, implies_true, Keeps.refl, foldl_keeps, ite_keeps, foldl1_keeps, id_eq, h]; done) | split

theorem ovlAccept_keeps {o s : State} (v : Ovl) (h : Keeps o s) : Keeps o (ovlAccept v s) := by
  unfold ovlAccept; simp (maxDischargeDepth := 60) only [storeOverlay_keeps, ledger_keeps, setItn_keeps, keeps_mk, implies_true, Keeps.refl, foldl_keeps, ite_keeps, foldl1_keeps, id_eq, h]

theorem liveApply_keeps {o s : State} (h : Keeps o s) : Keeps o (liveApply s) := by
  unfold liveApply; repeat' first | (simp (maxDischargeDepth := 60) only [ovlAccept_keeps, applyInstance_keeps, applyDomains_keeps, setOvlState_keeps, setItn_keeps, keeps_mk, implies_true, Keeps.refl, foldl_keeps, ite_keeps, foldl1_keeps, id_eq, h]; done) | split

theorem quiesceStart_keeps {o s : State} (h : Keeps o s) : Keeps o (quiesceStart s) := by
  unfold quiesceStart; repeat' first | (simp (maxDischargeDepth := 60) only [setItn_keeps, holdUnits_keeps, setOvlState_keeps, keeps_mk, implies_true, Keeps.refl, foldl_keeps, ite_keeps, foldl1_keeps, id_eq, h]; done) | split

theorem quiesceEnd_keeps {o s : State} (h : Keeps o s) : Keeps o (quiesceEnd s) := by
  unfold quiesceEnd; simp (maxDischargeDepth := 60) only [releaseUnits_keeps, setOvlState_keeps, setItn_keeps, keeps_mk, implies_true, Keeps.refl, foldl_keeps, ite_keeps, foldl1_keeps, id_eq, h]

theorem quiesceWrite_keeps {o s : State} (buf : Option (List Byte)) (h : Keeps o s) : Keeps o (quiesceWrite buf s) := by
  unfold quiesceWrite; repeat' first | (simp (maxDischargeDepth := 60) only [ovlAccept_keeps, setOvlState_keeps, applyDomains_keeps, applyInstance_keeps, flipMode_keeps, handOver_keeps, quiesceEnd_keeps, keeps_mk, implies_true, Keeps.refl, foldl_keeps, ite_keeps, foldl1_keeps, id_eq, h]; done) | split

theorem quiesceTimeout_keeps {o s : State} (h : Keeps o s) : Keeps o (quiesceTimeout s) := by
  unfold quiesceTimeout; repeat' first | (simp (maxDischargeDepth := 60) only [quiesceEnd_keeps, ovlReject_keeps, reachBase_keeps, keeps_mk, implies_true, Keeps.refl, foldl_keeps, ite_keeps, foldl1_keeps, id_eq, h]; done) | split

theorem holdTimeout_keeps {o s : State} (h : Keeps o s) : Keeps o (holdTimeout s) := by
  unfold holdTimeout; repeat' first | (simp (maxDischargeDepth := 60) only [reachBase_keeps, setOvlState_keeps, ovlReject_keeps, setItn_keeps, keeps_mk, implies_true, Keeps.refl, foldl_keeps, ite_keeps, foldl1_keeps, id_eq, h]; done) | split

/-! FieldTest. -/

theorem spareTested_keeps {o s : State} (a b : Nat) (differ : Bool) (h : Keeps o s) : Keeps o (spareTested a b differ s) := by
  unfold spareTested; repeat' first | (simp (maxDischargeDepth := 60) only [retire_keeps, setFlt_keeps, setBit_keeps, showCapacity_keeps, note_keeps, keeps_mk, implies_true, Keeps.refl, foldl_keeps, ite_keeps, foldl1_keeps, id_eq, h]; done) | split

theorem testMarks_keeps {o s : State} (a b : Nat) (da db : Bool) (h : Keeps o s) : Keeps o (testMarks a b da db s) := by
  unfold testMarks; repeat' first | (simp (maxDischargeDepth := 60) only [mark_keeps, keeps_mk, implies_true, Keeps.refl, foldl_keeps, ite_keeps, foldl1_keeps, id_eq, h]; done) | split

theorem fieldTest_keeps {o s : State} (a b cycles : Nat) (differ da db : Bool) (residue : Option (Nat × Bool)) (ecc : Option (Nat × Nat)) (h : Keeps o s) : Keeps o (fieldTest a b cycles differ da db residue ecc s) := by
  unfold fieldTest; repeat' first | (simp (maxDischargeDepth := 60) only [serve_keeps, prod_keeps, set_keeps, residueError_keeps, eccError_keeps, testMarks_keeps, report_keeps, bump_keeps, showArr_keeps, retireCheck_keeps, spareTested_keeps, keeps_mk, implies_true, Keeps.refl, foldl_keeps, ite_keeps, foldl1_keeps, id_eq, h]; done) | split

theorem campaignEnd_keeps {o s : State} (status : Nat) (h : Keeps o s) : Keeps o (campaignEnd status s) := by
  unfold campaignEnd; repeat' first | (simp (maxDischargeDepth := 60) only [set_keeps, setFlt_keeps, note_keeps, post_keeps, keeps_mk, implies_true, Keeps.refl, foldl_keeps, ite_keeps, foldl1_keeps, id_eq, h]; done) | split

theorem probeOver_keeps {o s : State} (h : Keeps o s) : Keeps o (probeOver s) := by
  unfold probeOver; repeat' first | (simp (maxDischargeDepth := 60) only [setFlt_keeps, campaignEnd_keeps, keeps_mk, implies_true, Keeps.refl, foldl_keeps, ite_keeps, foldl1_keeps, id_eq, h]; done) | with_reducible (refine ite_keeps ?_ ?_) | with_reducible (refine foldl_keeps (fun _ _ => ?_) ?_) | split | (dsimp only; with_reducible (refine ite_keeps ?_ ?_)) | (dsimp only; split)

theorem probeStat_keeps {o s : State} (p : Probe) (f : Field) (h : Keeps o s) : Keeps o (probeStat p f s) := by
  unfold probeStat; simp only [bump_keeps, keeps_mk, implies_true, Keeps.refl, foldl_keeps, ite_keeps, foldl1_keeps, id_eq, h]

theorem probeStart_keeps {o s : State} (h : Keeps o s) : Keeps o (probeStart s) := by
  unfold probeStart; simp (maxDischargeDepth := 60) only [set_keeps, post_keeps, setFlt_keeps, wr_keeps, keeps_mk, implies_true, Keeps.refl, foldl_keeps, ite_keeps, foldl1_keeps, id_eq, h]

theorem probeAbort_keeps {o s : State} (h : Keeps o s) : Keeps o (probeAbort s) := by
  unfold probeAbort; repeat' first | (simp only [setFlt_keeps, campaignEnd_keeps, keeps_mk, implies_true, Keeps.refl, foldl_keeps, ite_keeps, foldl1_keeps, id_eq, h]; done) | split

theorem probeIssue_keeps {o s : State} (errs : List (Nat × Nat × Nat)) (h : Keeps o s) : Keeps o (probeIssue errs s) := by
  unfold probeIssue; repeat' first | (simp (maxDischargeDepth := 60) only [setFlt_keeps, emit_keeps, prod_keeps, keeps_mk, implies_true, Keeps.refl, foldl_keeps, ite_keeps, foldl1_keeps, id_eq, h]; done) | with_reducible (refine ite_keeps ?_ ?_) | with_reducible (refine foldl_keeps (fun _ _ => ?_) ?_) | split | (dsimp only; with_reducible (refine ite_keeps ?_ ?_)) | (dsimp only; split)

theorem engineFail_keeps {o s : State} (p : Probe) (t : Tile) (e : Nat) (h : Keeps o s) : Keeps o (engineFail p t s e) := by
  unfold engineFail; simp (maxDischargeDepth := 60) only [subjFail_keeps, probeStat_keeps, flag_keeps, prod_keeps, keeps_mk, implies_true, Keeps.refl, foldl_keeps, ite_keeps, foldl1_keeps, id_eq, h]

theorem probeJudge_keeps {o s : State} (p : Probe) (h : Keeps o s) : Keeps o (probeJudge p s) := by
  unfold probeJudge; simp (maxDischargeDepth := 60) only [probeOver_keeps, subjPass_keeps, probeStat_keeps, prod_keeps, setFlt_keeps, engineFail_keeps, keeps_mk, implies_true, Keeps.refl, foldl_keeps, ite_keeps, foldl1_keeps, id_eq, h]

theorem probeResult_keeps {o s : State} (engine : Nat) (b : List Byte) (h : Keeps o s) : Keeps o (probeResult engine b s) := by
  unfold probeResult; repeat' first | (simp (maxDischargeDepth := 60) only [verDiscard_keeps, setFlt_keeps, runOver_keeps, probeJudge_keeps, keeps_mk, implies_true, Keeps.refl, foldl_keeps, ite_keeps, foldl1_keeps, id_eq, h]; done) | split

theorem probeConfirm_keeps {o s : State} (errs : List (Nat × Nat × Nat)) (arrays : List Nat) (h : Keeps o s) : Keeps o (probeConfirm errs arrays s) := by
  unfold probeConfirm; repeat' first | (simp (maxDischargeDepth := 60) only [probeOver_keeps, retireCheck_keeps, ownError_keeps, mark_keeps, engineFail_keeps, keeps_mk, implies_true, Keeps.refl, foldl_keeps, ite_keeps, foldl1_keeps, id_eq, h]; done) | split

theorem probeTimeout_keeps {o s : State} (h : Keeps o s) : Keeps o (probeTimeout s) := by
  unfold probeTimeout; repeat' first | (simp (maxDischargeDepth := 60) only [reachBase_keeps, probeOver_keeps, report_keeps, probeStat_keeps, keeps_mk, implies_true, Keeps.refl, foldl_keeps, ite_keeps, foldl1_keeps, id_eq, h]; done) | split

theorem witnessRecord_keeps {o s : State} (engine : Nat) (beats : List (BitVec 512)) (cut : Bool) (h : Keeps o s) :
    Keeps o (witnessRecord engine beats cut s) := by
  unfold witnessRecord
  have k := witnessIn_keeps beats cut h
  split
  · next e => exact keeps_fst e k
  · next e =>
    split
    · exact probeResult_keeps _ _ (keeps_fst e k)
    · exact hostRecord_keeps _ _ (keeps_fst e k)

theorem fltWrite_keeps {o s : State} (a : Nat) (acc : Acc) (h : Keeps o s) : Keeps o (fltWrite a acc s) := by
  unfold fltWrite; simp (maxDischargeDepth := 60) only [consume_keeps, perform_keeps, probeStart_keeps, set_keeps, probeAbort_keeps, keeps_mk, implies_true, Keeps.refl, foldl_keeps, ite_keeps, foldl1_keeps, id_eq, h]

theorem verifierReset_keeps {o s : State} (h : Keeps o s) : Keeps o (verifierReset s) := by
  unfold verifierReset; simp (maxDischargeDepth := 60) only [setVer_keeps, campaignEnd_keeps, setFlt_keeps, note_keeps, keeps_mk, implies_true, Keeps.refl, foldl_keeps, ite_keeps, foldl1_keeps, id_eq, h]

end Sys2Proof.Machine
end

