-- ==== Sys2Proof/Laws/KeepsWhole.lean ====
section
/-!
SUPPORT. What fences, reset, the TGA, recovery, epochs, sync, interrupts, register writes and the tick keep: one lemma for each operation.
-/
namespace Sys2Proof.Machine
set_option linter.unusedSimpArgs false
set_option linter.unusedTactic false
set_option linter.unreachableTactic false

/-! Fence. -/

theorem setRcv_keeps {o s : State} (r : RcvSt) (h : Keeps o s) : Keeps o (setRcv r s) := by
  unfold setRcv; simp only [keeps_mk, implies_true, Keeps.refl, foldl_keeps, ite_keeps, foldl1_keeps, id_eq, h]

theorem setFence_keeps {o s : State} (t st : Nat) (forced : Bool) (h : Keeps o s) : Keeps o (setFence t st forced s) := by
  unfold setFence; simp only [set_keeps, keeps_mk, implies_true, Keeps.refl, foldl_keeps, ite_keeps, foldl1_keeps, id_eq, h]

theorem showOrders_keeps {o s : State} (h : Keeps o s) : Keeps o (showOrders s) := by
  unfold showOrders; simp only [set_keeps, keeps_mk, implies_true, Keeps.refl, foldl_keeps, ite_keeps, foldl1_keeps, id_eq, h]

theorem putOrd_keeps {o_ s : State} (k : Nat) (o : RcvOrd) (h : Keeps o_ s) : Keeps o_ (putOrd k o s) := by
  unfold putOrd; simp only [setRcv_keeps, keeps_mk, implies_true, Keeps.refl, foldl_keeps, ite_keeps, foldl1_keeps, id_eq, h]

theorem rcvPost_keeps {o s : State} (k seq status flags : Nat) (h : Keeps o s) : Keeps o (rcvPost k seq status flags s) := by
  unfold rcvPost; simp (maxDischargeDepth := 60) only [setRcv_keeps, post_keeps, set_keeps, keeps_mk, implies_true, Keeps.refl, foldl_keeps, ite_keeps, foldl1_keeps, id_eq, h]

theorem ordDone_keeps {o s : State} (k status : Nat) (h : Keeps o s) : Keeps o (ordDone k status s) := by
  unfold ordDone; repeat' first | (simp (maxDischargeDepth := 60) only [rcvPost_keeps, showOrders_keeps, setRcv_keeps, keeps_mk, implies_true, Keeps.refl, foldl_keeps, ite_keeps, foldl1_keeps, id_eq, h]; done) | split

/-! Reset. -/

theorem setClk_keeps {o s : State} (c : ClkSt) (h : Keeps o s) : Keeps o (setClk c s) := by
  unfold setClk; simp only [keeps_mk, implies_true, Keeps.refl, foldl_keeps, ite_keeps, foldl1_keeps, id_eq, h]

theorem setPhase_keeps {o s : State} (x n : Nat) (h : Keeps o s) : Keeps o (setPhase x n s) := by
  unfold setPhase; simp only [setBit_keeps, setClk_keeps, keeps_mk, implies_true, Keeps.refl, foldl_keeps, ite_keeps, foldl1_keeps, id_eq, h]

theorem closeCrossing_keeps {o s : State} (x : Nat) (h : Keeps o s) : Keeps o (closeCrossing s x) := by
  unfold closeCrossing; simp (maxDischargeDepth := 60) only [set_keeps, setPhase_keeps, wr_keeps, keeps_mk, implies_true, Keeps.refl, foldl_keeps, ite_keeps, foldl1_keeps, id_eq, h]

theorem dropUsers_keeps {o s : State} (us : List MemUser) (h : Keeps o s) : Keeps o (dropUsers us s) := by
  unfold dropUsers; simp only [keeps_mk, implies_true, Keeps.refl, foldl_keeps, ite_keeps, foldl1_keeps, id_eq, h]

theorem loseCtrl_keeps {o s : State} (h : Keeps o s) : Keeps o (loseCtrl s) := by
  unfold loseCtrl; simp (maxDischargeDepth := 60) only [loaderFree_keeps, dropUsers_keeps, resetRegs_keeps, wr_keeps, setOvlState_keeps, setItnState_keeps, keeps_mk, implies_true, Keeps.refl, foldl_keeps, ite_keeps, foldl1_keeps, id_eq, h]

theorem loseCalc_keeps {o s : State} (h : Keeps o s) : Keeps o (loseCalc s) := by
  unfold loseCalc; repeat' first | (simp (maxDischargeDepth := 60) only [dropUsers_keeps, verifierReset_keeps, resetRegs_keeps, post_keeps, note_keeps, treeAbort_keeps, arrayAbort_keeps, keeps_mk, implies_true, Keeps.refl, foldl_keeps, ite_keeps, foldl1_keeps, id_eq, h]; done) | with_reducible (refine ite_keeps ?_ ?_) | with_reducible (refine foldl_keeps (fun _ _ => ?_) ?_) | split | (dsimp only; with_reducible (refine ite_keeps ?_ ?_)) | (dsimp only; split)

theorem loseMove_keeps {o s : State} (h : Keeps o s) : Keeps o (loseMove s) := by
  unfold loseMove; simp (maxDischargeDepth := 60) only [curReset_keeps, linkReset_keeps, resetRegs_keeps, dropUsers_keeps, prtReset_keeps, cmpReset_keeps, keeps_mk, implies_true, Keeps.refl, foldl_keeps, ite_keeps, foldl1_keeps, id_eq, h]

theorem loseNet_keeps {o s : State} (h : Keeps o s) : Keeps o (loseNet s) := by
  unfold loseNet; repeat' first | (simp (maxDischargeDepth := 60) only [endReq_keeps, resetRegs_keeps, keepField_keeps, keeps_mk, implies_true, Keeps.refl, foldl_keeps, ite_keeps, foldl1_keeps, id_eq, h]; done) | with_reducible (refine ite_keeps ?_ ?_) | with_reducible (refine foldl_keeps (fun _ _ => ?_) ?_) | split | (dsimp only; with_reducible (refine ite_keeps ?_ ?_)) | (dsimp only; split) | ((try dsimp only); first | with_reducible (apply endReq_keeps) | with_reducible (apply resetRegs_keeps) | with_reducible (apply memFollow_keeps) | with_reducible (apply keepField_keeps) | with_reducible (apply keeps_mk))

theorem loseTime_keeps {o s : State} (h : Keeps o s) : Keeps o (loseTime s) := by
  unfold loseTime; simp (maxDischargeDepth := 60) only [resetRegs_keeps, keepField_keeps, keeps_mk, implies_true, Keeps.refl, foldl_keeps, ite_keeps, foldl1_keeps, id_eq, h]

theorem loseEop_keeps {o s : State} (h : Keeps o s) : Keeps o (loseEop s) := by
  unfold loseEop; simp only [resetRegs_keeps, keeps_mk, implies_true, Keeps.refl, foldl_keeps, ite_keeps, foldl1_keeps, id_eq, h]

theorem loseMmp_keeps {o s : State} (h : Keeps o s) : Keeps o (loseMmp s) := by
  unfold loseMmp; repeat' first | (simp (maxDischargeDepth := 60) only [resetRegs_keeps, memFollow_keeps, linkReset_keeps, curLinkLost_keeps, keeps_mk, implies_true, Keeps.refl, foldl_keeps, ite_keeps, foldl1_keeps, id_eq, h]; done) | split

theorem enterReset_keeps {o s : State} (d : Nat) (h : Keeps o s) : Keeps o (enterReset d s) := by
  unfold enterReset; repeat' first | (simp (maxDischargeDepth := 60) only [loseCtrl_keeps, loseCalc_keeps, loseMove_keeps, loseNet_keeps, loseTime_keeps, loseEop_keeps, loseMmp_keeps, setBit_keeps, closeCrossing_keeps, keeps_mk, implies_true, Keeps.refl, foldl_keeps, ite_keeps, foldl1_keeps, id_eq, h]; done) | split

theorem rstRefused_keeps {o s : State} (d : Nat) (h : Keeps o s) : Keeps o (rstRefused d s) := by
  unfold rstRefused; simp only [report_keeps, keeps_mk, implies_true, Keeps.refl, foldl_keeps, ite_keeps, foldl1_keeps, id_eq, h]

theorem serveReset_keeps {o s : State} (h : Keeps o s) : Keeps o (serveReset s) := by
  unfold serveReset; repeat' first | (simp only [enterReset_keeps, rstRefused_keeps, setBit_keeps, keeps_mk, implies_true, Keeps.refl, foldl_keeps, ite_keeps, foldl1_keeps, id_eq, h]; done) | split

theorem requestResets_keeps {o s : State} (mask : Nat) (h : Keeps o s) : Keeps o (requestResets mask s) := by
  unfold requestResets; simp (maxDischargeDepth := 60) only [serveReset_keeps, setBit_keeps, rstRefused_keeps, keeps_mk, implies_true, Keeps.refl, foldl_keeps, ite_keeps, foldl1_keeps, id_eq, h]

theorem rearmScheds_keeps {o s : State} (h : Keeps o s) : Keeps o (rearmScheds s) := by
  unfold rearmScheds; simp (maxDischargeDepth := 60) only [schedArm_keeps, wr_keeps, setTly_keeps, note_keeps, keeps_mk, implies_true, Keeps.refl, foldl_keeps, ite_keeps, foldl1_keeps, id_eq, h]

theorem netLost_keeps {o s : State} (h : Keeps o s) : Keeps o (netLost s) := by
  unfold netLost; simp only [noteLater_keeps, keeps_mk, implies_true, Keeps.refl, foldl_keeps, ite_keeps, foldl1_keeps, id_eq, h]

theorem baseAfterReset_keeps {o s : State} (n : Nat) (h : Keeps o s) : Keeps o (baseAfterReset s n) := by
  unfold baseAfterReset; simp (maxDischargeDepth := 60) only [set_keeps, prod_keeps, freezeF_keeps, tbEnter_keeps, noteLater_keeps, flag_keeps, keeps_mk, implies_true, Keeps.refl, foldl_keeps, ite_keeps, foldl1_keeps, id_eq, h]

theorem firmwareAgain_keeps {o s : State} (h : Keeps o s) : Keeps o (firmwareAgain s) := by
  unfold firmwareAgain; split <;> simp only [loaderTake_keeps, set_keeps, keeps_mk, implies_true, Keeps.refl, foldl_keeps, ite_keeps, foldl1_keeps, id_eq, h]

theorem leaveReset_keeps {o s : State} (d : Nat) (h : Keeps o s) : Keeps o (leaveReset d s) := by
  unfold leaveReset; repeat' first | (simp (maxDischargeDepth := 60) only [reapply_keeps, setBit_keeps, firmwareAgain_keeps, rearmScheds_keeps, grantAll_keeps, netLost_keeps, baseAfterReset_keeps, keeps_mk, implies_true, Keeps.refl, foldl_keeps, ite_keeps, foldl1_keeps, id_eq, h]; done) | split

theorem resetDone_keeps {o s : State} (d : Nat) (h : Keeps o s) : Keeps o (resetDone d s) := by
  unfold resetDone; repeat' first | (simp (maxDischargeDepth := 60) only [prod_keeps, leaveReset_keeps, setFence_keeps, serveReset_keeps, ordDone_keeps, keeps_mk, implies_true, Keeps.refl, foldl_keeps, ite_keeps, foldl1_keeps, id_eq, h]; done) | with_reducible (refine ite_keeps ?_ ?_) | with_reducible (refine foldl_keeps (fun _ _ => ?_) ?_) | split | (dsimp only; with_reducible (refine ite_keeps ?_ ?_)) | (dsimp only; split)

theorem domainRelease_keeps {o s : State} (d : Nat) (h : Keeps o s) : Keeps o (domainRelease d s) := by
  unfold domainRelease; simp only [resetDone_keeps, keeps_mk, implies_true, Keeps.refl, foldl_keeps, ite_keeps, foldl1_keeps, id_eq, h]

theorem hostReset_keeps {o s : State} (x : Nat) (h : Keeps o s) : Keeps o (hostReset x s) := by
  unfold hostReset; repeat' first | (simp (maxDischargeDepth := 60) only [closeCrossing_keeps, memFollow_keeps, linkReset_keeps, curLinkLost_keeps, keeps_mk, implies_true, Keeps.refl, foldl_keeps, ite_keeps, foldl1_keeps, id_eq, h]; done) | split

theorem ackSeen_keeps {o s : State} (x : Nat) (h : Keeps o s) : Keeps o (ackSeen x s) := by
  unfold ackSeen; simp only [setPhase_keeps, keeps_mk, implies_true, Keeps.refl, foldl_keeps, ite_keeps, foldl1_keeps, id_eq, h]

theorem handshakeDone_keeps {o s : State} (x : Nat) (h : Keeps o s) : Keeps o (handshakeDone x s) := by
  unfold handshakeDone; repeat' first | (simp (maxDischargeDepth := 60) only [noteLater_keeps, bump_keeps, set_keeps, setPhase_keeps, reapply_keeps, setBit_keeps, grantAll_keeps, keeps_mk, implies_true, Keeps.refl, foldl_keeps, ite_keeps, foldl1_keeps, id_eq, h]; done) | split

theorem rcvWarm_keeps {o s : State} (h : Keeps o s) : Keeps o (rcvWarm s) := by
  unfold rcvWarm; simp (maxDischargeDepth := 60) only [ordDone_keeps, set_keeps, noteLater_keeps, flag_keeps, setRcv_keeps, keeps_mk, implies_true, Keeps.refl, foldl_keeps, ite_keeps, foldl1_keeps, id_eq, h]

theorem absentWaiting_keeps {o s : State} (h : Keeps o s) : Keeps o (absentWaiting s) := by
  unfold absentWaiting; simp only [keeps_mk, implies_true, Keeps.refl, foldl_keeps, ite_keeps, foldl1_keeps, id_eq, h]

theorem warmUnits_keeps {o s : State} (h : Keeps o s) : Keeps o (warmUnits s) := by
  unfold warmUnits; simp only [loseTime_keeps, keeps_mk, implies_true, Keeps.refl, foldl_keeps, ite_keeps, foldl1_keeps, id_eq, h]

theorem warmRegs_keeps {o s : State} (h : Keeps o s) : Keeps o (warmRegs s) := by
  unfold warmRegs; simp (maxDischargeDepth := 60) only [resetRegs_keeps, keepField_keeps, set_keeps, keeps_mk, implies_true, Keeps.refl, foldl_keeps, ite_keeps, foldl1_keeps, id_eq, h]

theorem warmReset_keeps {o s : State} (why : Nat) (h : Keeps o s) : Keeps o (warmReset why s) := by
  unfold warmReset; simp (maxDischargeDepth := 60) only [loaderFree_keeps, absentWaiting_keeps, setClk_keeps, authLapse_keeps, linkReset_keeps, answerAll_keeps, rcvWarm_keeps, warmRegs_keeps, warmUnits_keeps, set_keeps, baseAfterReset_keeps, netLost_keeps, keeps_mk, implies_true, Keeps.refl, foldl_keeps, ite_keeps, foldl1_keeps, id_eq, h]

theorem coldRelease_keeps {o s : State} (chip : BitVec 128) (h : Keeps o s) : Keeps o (coldRelease chip s) := by
  unfold coldRelease; simp (maxDischargeDepth := 60) only [coldAssert_keeps, set_keeps, keeps_mk, implies_true, Keeps.refl, foldl_keeps, ite_keeps, foldl1_keeps, id_eq, h]

theorem clkWrite_keeps {o s : State} (a : Nat) (acc : Acc) (h : Keeps o s) : Keeps o (clkWrite a acc s) := by
  unfold clkWrite; simp (maxDischargeDepth := 60) only [perform_keeps, warmReset_keeps, requestResets_keeps, keeps_mk, implies_true, Keeps.refl, foldl_keeps, ite_keeps, foldl1_keeps, id_eq, h]

theorem monWindow_keeps {o s : State} (count : Nat) (h : Keeps o s) : Keeps o (monWindow count s) := by
  unfold monWindow; simp (maxDischargeDepth := 60) only [set_keeps, report_keeps, keeps_mk, implies_true, Keeps.refl, foldl_keeps, ite_keeps, foldl1_keeps, id_eq, h]

theorem branchGate_keeps {o s : State} (b : Nat) (h : Keeps o s) : Keeps o (branchGate b s) := by
  unfold branchGate; simp only [set_keeps, keeps_mk, implies_true, Keeps.refl, foldl_keeps, ite_keeps, foldl1_keeps, id_eq, h]

theorem branchRestart_keeps {o s : State} (b : Nat) (h : Keeps o s) : Keeps o (branchRestart b s) := by
  unfold branchRestart; simp only [set_keeps, keeps_mk, implies_true, Keeps.refl, foldl_keeps, ite_keeps, foldl1_keeps, id_eq, h]

/-! Tga. -/

theorem tgaWriteAt_keeps {o s : State} (unit : Nat → Acc → State → State) (a : Nat) (data : Word) (init src : Nat)
    (hunit : ∀ (x0 : Nat) (x1 : Acc) t, Keeps t (unit x0 x1 t)) (h : Keeps o s) : Keeps o (tgaWriteAt unit a data init src s).2 := by
  unfold tgaWriteAt
  repeat' first | exact h | exact portWrite_keeps unit _ _ hunit h | split | (dsimp only; split)

theorem showTga_keeps {o s : State} (h : Keeps o s) : Keeps o (showTga s) := by
  unfold showTga; simp only [set_keeps, keeps_mk, implies_true, Keeps.refl, foldl_keeps, ite_keeps, foldl1_keeps, id_eq, h]

theorem tgaDeliver_keeps {o_ s : State} (o : TgaFrom) (x : TgaAns) (h : Keeps o_ s) : Keeps o_ (tgaDeliver o x s) := by
  unfold tgaDeliver; repeat' first | (simp (maxDischargeDepth := 60) only [sendPkt_keeps, wr_keeps, post_keeps, keeps_mk, implies_true, Keeps.refl, foldl_keeps, ite_keeps, foldl1_keeps, id_eq, h]; done) | split

theorem tgaForward_keeps {o s : State} (r : TgaReq) (lvl idx bit : Nat) (child : Option Nat) (h : Keeps o s) : Keeps o (tgaForward r lvl idx bit child s) := by
  unfold tgaForward; simp (maxDischargeDepth := 60) only [showTga_keeps, setCrv_keeps, sendPkt_keeps, bump_keeps, keeps_mk, implies_true, Keeps.refl, foldl_keeps, ite_keeps, foldl1_keeps, id_eq, h]

theorem useCache_keeps {o s : State} (t : TgaCache) (h : Keeps o s) : Keeps o (useCache t s) := by
  unfold useCache; simp only [setCrv_keeps, keeps_mk, implies_true, Keeps.refl, foldl_keeps, ite_keeps, foldl1_keeps, id_eq, h]

theorem tgaHandle_keeps {o s : State} (unit : Nat → Acc → State → State) (r : TgaReq) (src : Nat) (hunit : ∀ x0 x1 t, Keeps t (unit x0 x1 t)) (h : Keeps o s) : Keeps o (tgaHandle unit r src s) := by
  have kunit {o t : State} (h : Keeps o t) (x0 : Nat) (x1 : Acc) : Keeps o (unit x0 x1 t) := h.trans (hunit _ _ _)
  unfold tgaHandle; repeat' first | (simp (maxDischargeDepth := 60) only [tgaDeliver_keeps, replyFull_keeps, tgaWriteAt_keeps, prod_keeps, bump_keeps, useCache_keeps, tgaForward_keeps, keeps_mk, implies_true, Keeps.refl, foldl_keeps, ite_keeps, foldl1_keeps, id_eq, h, kunit]; done) | split

theorem tgaReq_keeps {o s : State} (unit : Nat → Acc → State → State) (hunit : ∀ x0 x1 t, Keeps t (unit x0 x1 t)) (h : Keeps o s) : Keeps o (tgaReq unit s) := by
  have kunit {o t : State} (h : Keeps o t) (x0 : Nat) (x1 : Acc) : Keeps o (unit x0 x1 t) := h.trans (hunit _ _ _)
  unfold tgaReq; repeat' first | (rename_i heq; replace heq := takePkt_keeps h heq) | (simp (maxDischargeDepth := 60) only [tgaHandle_keeps, keeps_mk, implies_true, Keeps.refl, foldl_keeps, ite_keeps, foldl1_keeps, id_eq, h, kunit, *]; done) | with_reducible (refine ite_keeps ?_ ?_) | with_reducible (refine foldl_keeps (fun _ _ => ?_) ?_) | split

theorem tgaAns_keeps {o s : State} (h : Keeps o s) : Keeps o (tgaAns s) := by
  unfold tgaAns; repeat' first | (rename_i heq; replace heq := takePkt_keeps h heq) | (simp (maxDischargeDepth := 60) only [showTga_keeps, setCrv_keeps, tgaDeliver_keeps, useCache_keeps, keeps_mk, implies_true, Keeps.refl, foldl_keeps, ite_keeps, foldl1_keeps, id_eq, h, *]; done) | with_reducible (refine ite_keeps ?_ ?_) | with_reducible (refine foldl_keeps (fun _ _ => ?_) ?_) | split | (dsimp only; with_reducible (refine ite_keeps ?_ ?_)) | (dsimp only; split)

theorem tgaTmo_keeps {o s : State} (h : Keeps o s) : Keeps o (tgaTmo s) := by
  unfold tgaTmo; repeat' first | (simp (maxDischargeDepth := 60) only [reachBase_keeps, showTga_keeps, setCrv_keeps, tgaDeliver_keeps, report_keeps, keeps_mk, implies_true, Keeps.refl, foldl_keeps, ite_keeps, foldl1_keeps, id_eq, h]; done) | split

theorem tgaFence_keeps {o s : State} (h : Keeps o s) : Keeps o (tgaFence s) := by
  unfold tgaFence; simp (maxDischargeDepth := 60) only [tgaDeliver_keeps, showTga_keeps, setCrv_keeps, keeps_mk, implies_true, Keeps.refl, foldl_keeps, ite_keeps, foldl1_keeps, id_eq, h]

theorem tgaGo_keeps {o s : State} (unit : Nat → Acc → State → State) (k : Nat) (acc : Acc) (hunit : ∀ x0 x1 t, Keeps t (unit x0 x1 t)) (h : Keeps o s) : Keeps o (tgaGo unit k acc s) := by
  have kunit {o t : State} (h : Keeps o t) (x0 : Nat) (x1 : Acc) : Keeps o (unit x0 x1 t) := h.trans (hunit _ _ _)
  unfold tgaGo; split <;> simp only [flag_keeps, tgaHandle_keeps, keeps_mk, implies_true, Keeps.refl, foldl_keeps, ite_keeps, foldl1_keeps, id_eq, h, kunit]

theorem tgaWindow_keeps {o s : State} (unit : Nat → Acc → State → State) (a : Nat) (acc : Acc) (hunit : ∀ x0 x1 t, Keeps t (unit x0 x1 t)) (h : Keeps o s) : Keeps o (tgaWindow unit a acc s) := by
  have kunit {o t : State} (h : Keeps o t) (x0 : Nat) (x1 : Acc) : Keeps o (unit x0 x1 t) := h.trans (hunit _ _ _)
  unfold tgaWindow; simp (maxDischargeDepth := 60) only [consume_keeps, perform_keeps, tgaGo_keeps, keeps_mk, implies_true, Keeps.refl, foldl_keeps, ite_keeps, foldl1_keeps, id_eq, h, kunit]

theorem tgaRow_keeps {o s : State} (unit : Nat → Acc → State → State) (k w : Nat) (acc : Acc) (hunit : ∀ x0 x1 t, Keeps t (unit x0 x1 t)) (h : Keeps o s) : Keeps o (tgaRow unit k w acc s) := by
  have kunit {o t : State} (h : Keeps o t) (x0 : Nat) (x1 : Acc) : Keeps o (unit x0 x1 t) := h.trans (hunit _ _ _)
  unfold tgaRow; simp (maxDischargeDepth := 60) only [portWrite_keeps, tgaWindow_keeps, keeps_mk, implies_true, Keeps.refl, foldl_keeps, ite_keeps, foldl1_keeps, id_eq, h, kunit]

/-! Recovery. -/

theorem putFence_keeps {o s : State} (t : Nat) (v : FenceRec) (h : Keeps o s) : Keeps o (putFence t v s) := by
  unfold putFence; simp only [setRcv_keeps, keeps_mk, implies_true, Keeps.refl, foldl_keeps, ite_keeps, foldl1_keeps, id_eq, h]

theorem showNotices_keeps {o s : State} (h : Keeps o s) : Keeps o (showNotices s) := by
  unfold showNotices; simp only [set_keeps, keeps_mk, implies_true, Keeps.refl, foldl_keeps, ite_keeps, foldl1_keeps, id_eq, h]

theorem noticeQueue_keeps {o s : State} (t : Nat) (b : List Byte) (h : Keeps o s) : Keeps o (noticeQueue t b s) := by
  unfold noticeQueue; split <;> simp only [report_keeps, showNotices_keeps, setRcv_keeps, keeps_mk, implies_true, Keeps.refl, foldl_keeps, ite_keeps, foldl1_keeps, id_eq, h]

theorem noticeSend_keeps {o s : State} (h : Keeps o s) : Keeps o (noticeSend s) := by
  unfold noticeSend; repeat' first | (simp (maxDischargeDepth := 60) only [sendFm_keeps, showNotices_keeps, setRcv_keeps, keeps_mk, implies_true, Keeps.refl, foldl_keeps, ite_keeps, foldl1_keeps, id_eq, h]; done) | split

theorem fenceEnd_keeps {o s : State} (k status : Nat) (d : Option Dump) (held : Bool) (h : Keeps o s) : Keeps o (fenceEnd k status d held s) := by
  unfold fenceEnd; repeat' first | (simp (maxDischargeDepth := 60) only [noticeQueue_keeps, ordDone_keeps, putOrd_keeps, keeps_mk, implies_true, Keeps.refl, foldl_keeps, ite_keeps, foldl1_keeps, id_eq, h]; done) | split

theorem dumpNext_keeps {o s : State} (h : Keeps o s) : Keeps o (dumpNext s) := by
  unfold dumpNext; repeat' first | (simp (maxDischargeDepth := 60) only [putOrd_keeps, setRcv_keeps, set_keeps, keeps_mk, implies_true, Keeps.refl, foldl_keeps, ite_keeps, foldl1_keeps, id_eq, h]; done) | split

theorem dumpProbe_keeps {o s : State} (p : Nat) (shadow : Bool) (h : Keeps o s) : Keeps o (dumpProbe p shadow s) := by
  unfold dumpProbe; repeat' first | (simp only [report_keeps, setRcv_keeps, keeps_mk, implies_true, Keeps.refl, foldl_keeps, ite_keeps, foldl1_keeps, id_eq, h]; done) | split

theorem dumpWrite_keeps {o s : State} (d : Dump) (h : Keeps o s) : Keeps o (dumpWrite d s) := by
  unfold dumpWrite; simp only [memRequest_keeps, setRcv_keeps, keeps_mk, implies_true, Keeps.refl, foldl_keeps, ite_keeps, foldl1_keeps, id_eq, h]

theorem dumpHold_keeps {o s : State} (d : Dump) (h : Keeps o s) : Keeps o (dumpHold d s) := by
  unfold dumpHold; split <;> simp only [setRcv_keeps, fenceEnd_keeps, keeps_mk, implies_true, Keeps.refl, foldl_keeps, ite_keeps, foldl1_keeps, id_eq, h]

theorem dumpBuilt_keeps {o s : State} (h : Keeps o s) : Keeps o (dumpBuilt s) := by
  unfold dumpBuilt; repeat' first | (simp (maxDischargeDepth := 60) only [setRcv_keeps, set_keeps, report_keeps, dumpWrite_keeps, dumpHold_keeps, keeps_mk, implies_true, Keeps.refl, foldl_keeps, ite_keeps, foldl1_keeps, id_eq, h]; done) | split

theorem dumpWritten_keeps {o s : State} (h : Keeps o s) : Keeps o (dumpWritten s) := by
  unfold dumpWritten; repeat' first | (simp (maxDischargeDepth := 60) only [memForget_keeps, dumpHold_keeps, set_keeps, setRcv_keeps, note_keeps, dumpNext_keeps, fenceEnd_keeps, keeps_mk, implies_true, Keeps.refl, foldl_keeps, ite_keeps, foldl1_keeps, id_eq, h]; done) | split

theorem heldWrite_keeps {o s : State} (h : Keeps o s) : Keeps o (heldWrite s) := by
  unfold heldWrite; split <;> simp only [dumpWrite_keeps, keeps_mk, implies_true, Keeps.refl, foldl_keeps, ite_keeps, foldl1_keeps, id_eq, h]

theorem dumpDiscard_keeps {o s : State} (h : Keeps o s) : Keeps o (dumpDiscard s) := by
  unfold dumpDiscard; repeat' first | (simp (maxDischargeDepth := 60) only [dumpNext_keeps, set_keeps, setRcv_keeps, keeps_mk, implies_true, Keeps.refl, foldl_keeps, ite_keeps, foldl1_keeps, id_eq, h]; done) | split

theorem probeFenced_keeps {o s : State} (h : Keeps o s) : Keeps o (probeFenced s) := by
  unfold probeFenced; repeat' first | (simp (maxDischargeDepth := 60) only [probeOver_keeps, report_keeps, probeStat_keeps, keeps_mk, implies_true, Keeps.refl, foldl_keeps, ite_keeps, foldl1_keeps, id_eq, h]; done) | split

theorem fenceNow_keeps {o s : State} (t : Nat) (h : Keeps o s) : Keeps o (fenceNow t s) := by
  unfold fenceNow; repeat' first | (simp (maxDischargeDepth := 60) only [setRcv_keeps, cwFence_keeps, set_keeps, curAbort_keeps, tgaFence_keeps, snapEnd_keeps, probeFenced_keeps, setBit_keeps, keeps_mk, implies_true, Keeps.refl, foldl_keeps, ite_keeps, foldl1_keeps, id_eq, h]; done) | split

theorem fenceStart_keeps {o s : State} (t reason : Nat) (h : Keeps o s) : Keeps o (fenceStart t reason s) := by
  unfold fenceStart; simp (maxDischargeDepth := 60) only [prod_keeps, fenceNow_keeps, putFence_keeps, setFence_keeps, note_keeps, keeps_mk, implies_true, Keeps.refl, foldl_keeps, ite_keeps, foldl1_keeps, id_eq, h]

theorem drainFences_keeps {o s : State} (h : Keeps o s) : Keeps o (drainFences s) := by
  unfold drainFences; simp (maxDischargeDepth := 60) only [setFence_keeps, keeps_mk, implies_true, Keeps.refl, foldl_keeps, ite_keeps, foldl1_keeps, id_eq, h]

theorem fenceReached_keeps {o s : State} (t : Nat) (forced errResp : Bool) (h : Keeps o s) : Keeps o (fenceReached t forced errResp s) := by
  unfold fenceReached; repeat' first | (simp (maxDischargeDepth := 60) only [putFence_keeps, setFence_keeps, dumpNext_keeps, putOrd_keeps, fenceEnd_keeps, keeps_mk, implies_true, Keeps.refl, foldl_keeps, ite_keeps, foldl1_keeps, id_eq, h]; done) | with_reducible (refine ite_keeps ?_ ?_) | with_reducible (refine foldl_keeps (fun _ _ => ?_) ?_) | split | (dsimp only; with_reducible (refine ite_keeps ?_ ?_)) | (dsimp only; split)

theorem fenceDrained_keeps {o s : State} (t : Nat) (h : Keeps o s) : Keeps o (fenceDrained t s) := by
  unfold fenceDrained; simp only [fenceReached_keeps, keeps_mk, implies_true, Keeps.refl, foldl_keeps, ite_keeps, foldl1_keeps, id_eq, h]

theorem fenceForce_keeps {o s : State} (t units : Nat) (h : Keeps o s) : Keeps o (fenceForce t units s) := by
  unfold fenceForce; repeat' first | (simp (maxDischargeDepth := 60) only [jobPost_keeps, setTre_keeps, arrPost_keeps, memFollow_keeps, linkReset_keeps, keeps_mk, implies_true, Keeps.refl, foldl_keeps, ite_keeps, foldl1_keeps, id_eq, h]; done) | with_reducible (refine ite_keeps ?_ ?_) | with_reducible (refine foldl_keeps (fun _ _ => ?_) ?_) | split

theorem drainTmo_keeps {o s : State} (t stuck : Nat) (h : Keeps o s) : Keeps o (drainTmo t stuck s) := by
  unfold drainTmo; simp (maxDischargeDepth := 60) only [reachBase_keeps, fenceReached_keeps, report_keeps, fenceForce_keeps, keeps_mk, implies_true, Keeps.refl, foldl_keeps, ite_keeps, foldl1_keeps, id_eq, h]

theorem fenceOpen_keeps {o s : State} (t : Nat) (h : Keeps o s) : Keeps o (fenceOpen t s) := by
  unfold fenceOpen; repeat' first | (simp (maxDischargeDepth := 60) only [setRcv_keeps, setFence_keeps, note_keeps, runCores_keeps, cmpKick_keeps, keeps_mk, implies_true, Keeps.refl, foldl_keeps, ite_keeps, foldl1_keeps, id_eq, h]; done) | split

theorem ackHigh_keeps {o s : State} (d : Nat) (h : Keeps o s) : Keeps o (ackHigh d s) := by
  unfold ackHigh; simp (maxDischargeDepth := 60) only [setBit_keeps, setFence_keeps, putFence_keeps, keeps_mk, implies_true, Keeps.refl, foldl_keeps, ite_keeps, foldl1_keeps, id_eq, h]

theorem drainDone_keeps {o s : State} (d : Nat) (errResp : Bool) (h : Keeps o s) : Keeps o (drainDone d errResp s) := by
  unfold drainDone; simp (maxDischargeDepth := 60) only [setBit_keeps, fenceReached_keeps, keeps_mk, implies_true, Keeps.refl, foldl_keeps, ite_keeps, foldl1_keeps, id_eq, h]

theorem linesLow_keeps {o s : State} (d : Nat) (h : Keeps o s) : Keeps o (linesLow d s) := by
  unfold linesLow; repeat' first | (simp (maxDischargeDepth := 60) only [setBit_keeps, fenceOpen_keeps, ordDone_keeps, keeps_mk, implies_true, Keeps.refl, foldl_keeps, ite_keeps, foldl1_keeps, id_eq, h]; done) | with_reducible (refine ite_keeps ?_ ?_) | with_reducible (refine foldl_keeps (fun _ _ => ?_) ?_) | split | (dsimp only; with_reducible (refine ite_keeps ?_ ?_)) | (dsimp only; split)

theorem hostTimeout_keeps {o s : State} (t : Nat) (h : Keeps o s) : Keeps o (hostTimeout t s) := by
  unfold hostTimeout; repeat' first | (simp (maxDischargeDepth := 60) only [setFence_keeps, fenceEnd_keeps, keeps_mk, implies_true, Keeps.refl, foldl_keeps, ite_keeps, foldl1_keeps, id_eq, h]; done) | with_reducible (refine ite_keeps ?_ ?_) | with_reducible (refine foldl_keeps (fun _ _ => ?_) ?_) | split | (dsimp only; with_reducible (refine ite_keeps ?_ ?_)) | (dsimp only; split)

theorem ackTmo_keeps {o s : State} (d : Nat) (h : Keeps o s) : Keeps o (ackTmo d s) := by
  unfold ackTmo; simp (maxDischargeDepth := 60) only [reachBase_keeps, hostTimeout_keeps, report_keeps, keeps_mk, implies_true, Keeps.refl, foldl_keeps, ite_keeps, foldl1_keeps, id_eq, h]

theorem doneTmo_keeps {o s : State} (d : Nat) (h : Keeps o s) : Keeps o (doneTmo d s) := by
  unfold doneTmo; repeat' first | (simp (maxDischargeDepth := 60) only [reachBase_keeps, hostTimeout_keeps, report_keeps, keeps_mk, implies_true, Keeps.refl, foldl_keeps, ite_keeps, foldl1_keeps, id_eq, h]; done) | with_reducible (refine ite_keeps ?_ ?_) | with_reducible (refine foldl_keeps (fun _ _ => ?_) ?_) | split | (dsimp only; with_reducible (refine ite_keeps ?_ ?_)) | (dsimp only; split)

theorem fenceProto_keeps {o s : State} (d line : Nat) (h : Keeps o s) : Keeps o (fenceProto d line s) := by
  unfold fenceProto; split <;> simp only [report_keeps, keeps_mk, implies_true, Keeps.refl, foldl_keeps, ite_keeps, foldl1_keeps, id_eq, h]

theorem tearSched_keeps {o s : State} (k : Nat) (h : Keeps o s) : Keeps o (tearSched k s) := by
  unfold tearSched; simp (maxDischargeDepth := 60) only [schedIdle_keeps, setSchedState_keeps, set_keeps, keeps_mk, implies_true, Keeps.refl, foldl_keeps, ite_keeps, foldl1_keeps, id_eq, h]

theorem tearBegin_keeps {o_ s : State} (o : RcvOrd) (step : Nat) (h : Keeps o_ s) : Keeps o_ (tearBegin o step s) := by
  unfold tearBegin; repeat' first | (simp (maxDischargeDepth := 60) only [tearSched_keeps, fenceStart_keeps, drainDomain_keeps, keeps_mk, implies_true, Keeps.refl, foldl_keeps, ite_keeps, foldl1_keeps, id_eq, h]; done) | split

theorem tearNext_keeps {o s : State} (k : Nat) (h : Keeps o s) : Keeps o (tearNext k s) := by
  unfold tearNext; repeat' first | (simp only [ordDone_keeps, note_keeps, tearBegin_keeps, putOrd_keeps, keeps_mk, implies_true, Keeps.refl, foldl_keeps, ite_keeps, foldl1_keeps, id_eq, h]; done) | split

theorem tearTmo_keeps {o s : State} (k : Nat) (h : Keeps o s) : Keeps o (tearTmo k s) := by
  unfold tearTmo; repeat' first | (simp (maxDischargeDepth := 60) only [reachBase_keeps, ordDone_keeps, note_keeps, keeps_mk, implies_true, Keeps.refl, foldl_keeps, ite_keeps, foldl1_keeps, id_eq, h]; done) | split

theorem ordAdd_keeps {o_ s : State} (k : Nat) (o : RcvOrd) (h : Keeps o_ s) : Keeps o_ (ordAdd k o s) := by
  unfold ordAdd; simp (maxDischargeDepth := 60) only [showOrders_keeps, set_keeps, setRcv_keeps, keeps_mk, implies_true, Keeps.refl, foldl_keeps, ite_keeps, foldl1_keeps, id_eq, h]

theorem fenceOrd_keeps {o_ s : State} (k : Nat) (o : RcvOrd) (h : Keeps o_ s) : Keeps o_ (fenceOrd k o s) := by
  unfold fenceOrd; simp (maxDischargeDepth := 60) only [rcvPost_keeps, fenceStart_keeps, ordAdd_keeps, keeps_mk, implies_true, Keeps.refl, foldl_keeps, ite_keeps, foldl1_keeps, id_eq, h]

theorem dumpOrd_keeps {o_ s : State} (k : Nat) (o : RcvOrd) (h : Keeps o_ s) : Keeps o_ (dumpOrd k o s) := by
  unfold dumpOrd; simp (maxDischargeDepth := 60) only [rcvPost_keeps, fenceEnd_keeps, ordAdd_keeps, dumpNext_keeps, keeps_mk, implies_true, Keeps.refl, foldl_keeps, ite_keeps, foldl1_keeps, id_eq, h]

theorem resetOrd_keeps {o_ s : State} (k : Nat) (o : RcvOrd) (h : Keeps o_ s) : Keeps o_ (resetOrd k o s) := by
  unfold resetOrd; simp (maxDischargeDepth := 60) only [rcvPost_keeps, rstRefused_keeps, requestResets_keeps, setFence_keeps, ordAdd_keeps, keeps_mk, implies_true, Keeps.refl, foldl_keeps, ite_keeps, foldl1_keeps, id_eq, h]

theorem releaseOrd_keeps {o_ s : State} (k : Nat) (o : RcvOrd) (h : Keeps o_ s) : Keeps o_ (releaseOrd k o s) := by
  unfold releaseOrd; simp (maxDischargeDepth := 60) only [rcvPost_keeps, ordDone_keeps, fenceOpen_keeps, ordAdd_keeps, setBit_keeps, setFence_keeps, keeps_mk, implies_true, Keeps.refl, foldl_keeps, ite_keeps, foldl1_keeps, id_eq, h]

theorem forceOrd_keeps {o_ s : State} (k : Nat) (o : RcvOrd) (h : Keeps o_ s) : Keeps o_ (forceOrd k o s) := by
  unfold forceOrd; simp (maxDischargeDepth := 60) only [rcvPost_keeps, putFence_keeps, setFence_keeps, ordDone_keeps, ordAdd_keeps, keeps_mk, implies_true, Keeps.refl, foldl_keeps, ite_keeps, foldl1_keeps, id_eq, h]

theorem tearOrd_keeps {o_ s : State} (k : Nat) (o : RcvOrd) (h : Keeps o_ s) : Keeps o_ (tearOrd k o s) := by
  unfold tearOrd; split <;> simp only [rcvPost_keeps, tearBegin_keeps, ordAdd_keeps, keeps_mk, implies_true, Keeps.refl, foldl_keeps, ite_keeps, foldl1_keeps, id_eq, h]

theorem rcvStart_keeps {o s : State} (k : Nat) (h : Keeps o s) : Keeps o (rcvStart k s) := by
  unfold rcvStart; repeat' first | (simp (maxDischargeDepth := 60) only [rcvPost_keeps, undefinedField_keeps, tearOrd_keeps, fenceOrd_keeps, dumpOrd_keeps, resetOrd_keeps, releaseOrd_keeps, forceOrd_keeps, keeps_mk, implies_true, Keeps.refl, foldl_keeps, ite_keeps, foldl1_keeps, id_eq, h]; done) | with_reducible (refine ite_keeps ?_ ?_) | with_reducible (refine foldl_keeps (fun _ _ => ?_) ?_) | split

theorem releaseTmo_keeps {o s : State} (d : Nat) (h : Keeps o s) : Keeps o (releaseTmo d s) := by
  unfold releaseTmo; repeat' first | (simp only [ordDone_keeps, reachBase_keeps, keeps_mk, implies_true, Keeps.refl, foldl_keeps, ite_keeps, foldl1_keeps, id_eq, h]; done) | split

theorem holdEnter_keeps {o s : State} (cause : Nat) (h : Keeps o s) : Keeps o (holdEnter cause s) := by
  unfold holdEnter; simp (maxDischargeDepth := 60) only [note_keeps, set_keeps, keeps_mk, implies_true, Keeps.refl, foldl_keeps, ite_keeps, foldl1_keeps, id_eq, h]

theorem holdLink_keeps {o s : State} (h : Keeps o s) : Keeps o (holdLink s) := by
  unfold holdLink; split <;> simp only [holdEnter_keeps, reachBase_keeps, keeps_mk, implies_true, Keeps.refl, foldl_keeps, ite_keeps, foldl1_keeps, id_eq, h]

theorem holdExit_keeps {o s : State} (h : Keeps o s) : Keeps o (holdExit s) := by
  unfold holdExit; repeat' first | (simp (maxDischargeDepth := 60) only [set_keeps, setMode_keeps, tellParent_keeps, keeps_mk, implies_true, Keeps.refl, foldl_keeps, ite_keeps, foldl1_keeps, id_eq, h]; done) | split

theorem holdEnd_keeps {o s : State} (h : Keeps o s) : Keeps o (holdEnd s) := by
  unfold holdEnd; simp (maxDischargeDepth := 60) only [note_keeps, set_keeps, keeps_mk, implies_true, Keeps.refl, foldl_keeps, ite_keeps, foldl1_keeps, id_eq, h]

theorem holdDrain_keeps {o s : State} (h : Keeps o s) : Keeps o (holdDrain s) := by
  unfold holdDrain; repeat' first | (simp (maxDischargeDepth := 60) only [holdEnd_keeps, memRequest_keeps, memForget_keeps, set_keeps, sendPkt_keeps, bump_keeps, keeps_mk, implies_true, Keeps.refl, foldl_keeps, ite_keeps, foldl1_keeps, id_eq, h]; done) | with_reducible (refine ite_keeps ?_ ?_) | with_reducible (refine foldl_keeps (fun _ _ => ?_) ?_) | split

theorem drainReceive_keeps {o s : State} (h : Keeps o s) : Keeps o (drainReceive s) := by
  unfold drainReceive; repeat' first | (rename_i heq; replace heq := takePkt_keeps h heq) | (simp (maxDischargeDepth := 60) only [sendPkt_keeps, keeps_mk, implies_true, Keeps.refl, foldl_keeps, ite_keeps, foldl1_keeps, id_eq, h, *]; done) | with_reducible (refine ite_keeps ?_ ?_) | with_reducible (refine foldl_keeps (fun _ _ => ?_) ?_) | split

theorem coreBeat_keeps {o s : State} (c : Nat) (h : Keeps o s) : Keeps o (coreBeat c s) := by
  unfold coreBeat; simp only [set_keeps, keeps_mk, implies_true, Keeps.refl, foldl_keeps, ite_keeps, foldl1_keeps, id_eq, h]

theorem rcvConsume_keeps {o s : State} (k a : Nat) (acc : Acc) (h : Keeps o s) : Keeps o (rcvConsume k a acc s) := by
  unfold rcvConsume; repeat' first | (simp (maxDischargeDepth := 60) only [consume_keeps, rcvPost_keeps, setRcv_keeps, keeps_mk, implies_true, Keeps.refl, foldl_keeps, ite_keeps, foldl1_keeps, id_eq, h]; done) | with_reducible (refine ite_keeps ?_ ?_) | with_reducible (refine foldl_keeps (fun _ _ => ?_) ?_) | split | (dsimp only; with_reducible (refine ite_keeps ?_ ?_)) | (dsimp only; split)

theorem rcvWrite_keeps {o s : State} (a : Nat) (acc : Acc) (h : Keeps o s) : Keeps o (rcvWrite a acc s) := by
  unfold rcvWrite; repeat' first | (simp (maxDischargeDepth := 60) only [rcvConsume_keeps, perform_keeps, rcvStart_keeps, coreBeat_keeps, dumpDiscard_keeps, holdExit_keeps, holdEnter_keeps, keeps_mk, implies_true, Keeps.refl, foldl_keeps, ite_keeps, foldl1_keeps, id_eq, h]; done) | split

theorem ordRow_keeps {o s : State} (op k : Nat) (acc : Acc) (h : Keeps o s) : Keeps o (ordRow op k acc s) := by
  unfold ordRow; simp only [portWrite_keeps, rcvWrite_keeps, keeps_mk, implies_true, Keeps.refl, foldl_keeps, ite_keeps, foldl1_keeps, id_eq, h]

/-! Epochs. -/

theorem stepMarks_keeps {o s : State} (input n : Nat) (h : Keeps o s) : Keeps o (stepMarks input n s) := by
  unfold stepMarks; simp (maxDischargeDepth := 60) only [countInput_keeps, keeps_mk, implies_true, Keeps.refl, foldl_keeps, ite_keeps, foldl1_keeps, id_eq, h]

theorem eopEvent_keeps {o s : State} (input n : Nat) (h : Keeps o s) : Keeps o (eopEvent input n s) := by
  unfold eopEvent; simp (maxDischargeDepth := 60) only [stepMarks_keeps, countInput_keeps, hostBeat_keeps, keeps_mk, implies_true, Keeps.refl, foldl_keeps, ite_keeps, foldl1_keeps, id_eq, h]

theorem exportSketches_keeps {o s : State} (d : Nat) (h : Keeps o s) : Keeps o (exportSketches d s) := by
  unfold exportSketches; simp (maxDischargeDepth := 60) only [setCrv_keeps, keeps_mk, implies_true, Keeps.refl, foldl_keeps, ite_keeps, foldl1_keeps, id_eq, h]

theorem sketchBoundary_keeps {o s : State} (k n : Nat) (h : Keeps o s) : Keeps o (sketchBoundary k n s) := by
  unfold sketchBoundary; split <;> simp only [exportSketches_keeps, closeSketches_keeps, keeps_mk, implies_true, Keeps.refl, foldl_keeps, ite_keeps, foldl1_keeps, id_eq, h]

theorem epochBegins_keeps {o s : State} (k n : Nat) (h : Keeps o s) : Keeps o (epochBegins k n s) := by
  unfold epochBegins; simp (maxDischargeDepth := 60) only [seedBoundary_keeps, markBoundary_keeps, tellRoutes_keeps, takeRefs_keeps, beginEpoch_keeps, keeps_mk, implies_true, Keeps.refl, foldl_keeps, ite_keeps, foldl1_keeps, id_eq, h]

theorem epochCut_keeps {o s : State} (k : Nat) (h : Keeps o s) : Keeps o (epochCut k s) := by
  unfold epochCut; repeat' first | (rename_i heq; replace heq := boundaryReached_keeps h heq) | (simp (maxDischargeDepth := 60) only [epochBegins_keeps, sketchBoundary_keeps, strobe_keeps, keeps_mk, implies_true, Keeps.refl, foldl_keeps, ite_keeps, foldl1_keeps, id_eq, h, *]; done) | with_reducible (refine ite_keeps ?_ ?_) | with_reducible (refine foldl_keeps (fun _ _ => ?_) ?_) | split

theorem cutComplete_keeps {o s : State} (h : Keeps o s) : Keeps o (cutComplete s) := by
  unfold cutComplete; repeat' first | (simp (maxDischargeDepth := 60) only [wbCut_keeps, setTly_keeps, handSample_keeps, schedIdle_keeps, keeps_mk, implies_true, Keeps.refl, foldl_keeps, ite_keeps, foldl1_keeps, id_eq, h]; done) | split

theorem shadowPass_keeps {o s : State} (p : Nat) (answered : Bool) (h : Keeps o s) : Keeps o (shadowPass p answered s) := by
  unfold shadowPass; simp (maxDischargeDepth := 60) only [setTly_keeps, report_keeps, keeps_mk, implies_true, Keeps.refl, foldl_keeps, ite_keeps, foldl1_keeps, id_eq, h]

/-! Sync. -/

theorem setSyn_keeps {o s : State} (y : SynSt) (h : Keeps o s) : Keeps o (setSyn y s) := by
  unfold setSyn; simp only [keeps_mk, implies_true, Keeps.refl, foldl_keeps, ite_keeps, foldl1_keeps, id_eq, h]

theorem showWaiters_keeps {o_ s : State} (o : Nat) (h : Keeps o_ s) : Keeps o_ (showWaiters o s) := by
  unfold showWaiters; simp only [set_keeps, keeps_mk, implies_true, Keeps.refl, foldl_keeps, ite_keeps, foldl1_keeps, id_eq, h]

theorem signalWrite_keeps {o s : State} (acc : Acc) (h : Keeps o s) : Keeps o (signalWrite acc s) := by
  unfold signalWrite; split <;> simp only [syncSignal_keeps, report_keeps, keeps_mk, implies_true, Keeps.refl, foldl_keeps, ite_keeps, foldl1_keeps, id_eq, h]

theorem violationWrite_keeps {o s : State} (acc : Acc) (h : Keeps o s) : Keeps o (violationWrite acc s) := by
  unfold violationWrite; split <;> simp only [report_keeps, tickFree_keeps, keeps_mk, implies_true, Keeps.refl, foldl_keeps, ite_keeps, foldl1_keeps, id_eq, h]

theorem setWrite_keeps {o_ s : State} (o : Nat) (acc : Acc) (h : Keeps o_ s) : Keeps o_ (setWrite o acc s) := by
  unfold setWrite; simp (maxDischargeDepth := 60) only [set_keeps, perform_keeps, ledger_keeps, keeps_mk, implies_true, Keeps.refl, foldl_keeps, ite_keeps, foldl1_keeps, id_eq, h]

theorem synWrite_keeps {o s : State} (a : Nat) (acc : Acc) (h : Keeps o s) : Keeps o (synWrite a acc s) := by
  unfold synWrite; simp (maxDischargeDepth := 60) only [signalWrite_keeps, violationWrite_keeps, setWrite_keeps, perform_keeps, keeps_mk, implies_true, Keeps.refl, foldl_keeps, ite_keeps, foldl1_keeps, id_eq, h]

theorem synWait_keeps {o s : State} (c : Nat) (port : Port) (h : Keeps o s) : Keeps o (synWait c port s) := by
  unfold synWait; simp (maxDischargeDepth := 60) only [showWaiters_keeps, setSyn_keeps, keeps_mk, implies_true, Keeps.refl, foldl_keeps, ite_keeps, foldl1_keeps, id_eq, h]

theorem waitEnd_keeps {o s : State} (w : SynWait) (granted : Nat) (h : Keeps o s) : Keeps o (waitEnd w granted s) := by
  unfold waitEnd; simp (maxDischargeDepth := 60) only [set_keeps, showWaiters_keeps, setSyn_keeps, keeps_mk, implies_true, Keeps.refl, foldl_keeps, ite_keeps, foldl1_keeps, id_eq, h]

theorem synGrant_keeps {o_ s : State} (o : Nat) (h : Keeps o_ s) : Keeps o_ (synGrant o s) := by
  unfold synGrant; split <;> simp only [waitEnd_keeps, set_keeps, keeps_mk, implies_true, Keeps.refl, foldl_keeps, ite_keeps, foldl1_keeps, id_eq, h]

theorem synTimeout_keeps {o s : State} (c : Nat) (h : Keeps o s) : Keeps o (synTimeout c s) := by
  unfold synTimeout; repeat' first | (simp (maxDischargeDepth := 60) only [note_keeps, waitEnd_keeps, reachBase_keeps, keeps_mk, implies_true, Keeps.refl, foldl_keeps, ite_keeps, foldl1_keeps, id_eq, h]; done) | split

/-! Interrupt. -/

theorem setIrq_keeps {o s : State} (i : IrqSt) (h : Keeps o s) : Keeps o (setIrq i s) := by
  unfold setIrq; simp only [keeps_mk, implies_true, Keeps.refl, foldl_keeps, ite_keeps, foldl1_keeps, id_eq, h]

theorem updateSources_keeps {o s : State} (ns : List Nat) (h : Keeps o s) : Keeps o (updateSources ns s) := by
  unfold updateSources; simp only [groupUpdate_keeps, keeps_mk, implies_true, Keeps.refl, foldl_keeps, ite_keeps, foldl1_keeps, id_eq, h]

theorem pendWrite_keeps {o s : State} (w : Nat) (acc : Acc) (h : Keeps o s) : Keeps o (pendWrite w acc s) := by
  unfold pendWrite; simp (maxDischargeDepth := 60) only [perform_keeps, updateSources_keeps, wr_keeps, keeps_mk, implies_true, Keeps.refl, foldl_keeps, ite_keeps, foldl1_keeps, id_eq, h]

theorem doneWrite_keeps {o s : State} (n : Nat) (h : Keeps o s) : Keeps o (doneWrite n s) := by
  unfold doneWrite; simp (maxDischargeDepth := 60) only [setBit_keeps, groupUpdate_keeps, keeps_mk, implies_true, Keeps.refl, foldl_keeps, ite_keeps, foldl1_keeps, id_eq, h]

theorem swSet_keeps {o s : State} (n : Nat) (h : Keeps o s) : Keeps o (swSet n s) := by
  unfold swSet; simp only [raiseIrq_keeps, keeps_mk, implies_true, Keeps.refl, foldl_keeps, ite_keeps, foldl1_keeps, id_eq, h]

theorem settleMasks_keeps {o s : State} (h : Keeps o s) : Keeps o (settleMasks s) := by
  unfold settleMasks; simp (maxDischargeDepth := 60) only [setIrq_keeps, updateSources_keeps, keeps_mk, implies_true, Keeps.refl, foldl_keeps, ite_keeps, foldl1_keeps, id_eq, h]

theorem maskWrite_keeps {o s : State} (w : Nat) (acc : Acc) (h : Keeps o s) : Keeps o (maskWrite w acc s) := by
  unfold maskWrite; simp (maxDischargeDepth := 60) only [settleMasks_keeps, perform_keeps, setIrq_keeps, keeps_mk, implies_true, Keeps.refl, foldl_keeps, ite_keeps, foldl1_keeps, id_eq, h]

theorem irqWrite_keeps {o s : State} (a : Nat) (acc : Acc) (h : Keeps o s) : Keeps o (irqWrite a acc s) := by
  unfold irqWrite; simp (maxDischargeDepth := 60) only [swSet_keeps, doneWrite_keeps, pendWrite_keeps, maskWrite_keeps, perform_keeps, keeps_mk, implies_true, Keeps.refl, foldl_keeps, ite_keeps, foldl1_keeps, id_eq, h]

theorem holdoffExpire_keeps {o s : State} (g : Nat) (h : Keeps o s) : Keeps o (holdoffExpire g s) := by
  unfold holdoffExpire; repeat' first | (simp (maxDischargeDepth := 60) only [groupUpdate_keeps, settleMasks_keeps, reachBase_keeps, keeps_mk, implies_true, Keeps.refl, foldl_keeps, ite_keeps, foldl1_keeps, id_eq, h]; done) | split

/-! Registers. -/

theorem eopWrite_keeps {o s : State} (a : Nat) (acc : Acc) (h : Keeps o s) : Keeps o (eopWrite a acc s) := by
  unfold eopWrite; split <;> simp only [perform_keeps, keeps_mk, implies_true, Keeps.refl, foldl_keeps, ite_keeps, foldl1_keeps, id_eq, h]

theorem pageWrite_keeps {o s : State} (step : Option StepEffect) (a : Nat) (acc : Acc) (h : Keeps o s) : Keeps o (pageWrite step a acc s) := by
  unfold pageWrite; split <;> simp only [itnWrite_keeps, clkWrite_keeps, eopWrite_keeps, mmpWrite_keeps, fbpWrite_keeps, sepWrite_keeps, tpiWrite_keeps, tlyWrite_keeps, timWrite_keeps, crvWrite_keeps, inkWrite_keeps, treWrite_keeps, arrWrite_keeps, detWrite_keeps, verWrite_keeps, fltWrite_keeps, curWrite_keeps, cmpWrite_keeps, rcvWrite_keeps, gbkWrite_keeps, sbxWrite_keeps, ctlWrite_keeps, synWrite_keeps, irqWrite_keeps, pwrWrite_keeps, ltnWrite_keeps, dbgWrite_keeps, kspWrite_keeps, perform_keeps, keeps_mk, implies_true, Keeps.refl, foldl_keeps, ite_keeps, foldl1_keeps, id_eq, h]

theorem unitWrite_keeps {o s : State} (buf : Option (List Byte)) (step : Option StepEffect) (a : Nat) (acc : Acc) (h : Keeps o s) : Keeps o (unitWrite buf step a acc s) := by
  unfold unitWrite; simp (maxDischargeDepth := 60) only [pageWrite_keeps, tgaWindow_keeps, cwWrite_keeps, keeps_mk, implies_true, Keeps.refl, foldl_keeps, ite_keeps, foldl1_keeps, id_eq, h]

theorem regWrite_keeps {o s : State} (a : Nat) (acc : Acc) (buf : Option (List Byte)) (step : Option StepEffect) (h : Keeps o s) : Keeps o (regWrite a acc buf step s) := by
  unfold regWrite; simp (maxDischargeDepth := 60) only [bringing_keeps, portWrite_keeps, unitWrite_keeps, keeps_mk, implies_true, Keeps.refl, foldl_keeps, ite_keeps, foldl1_keeps, id_eq, h]

theorem ledgerAdmit_keeps {o s : State} (h : Keeps o s) : Keeps o (ledgerAdmit s) := by
  unfold ledgerAdmit; repeat' first | (simp (maxDischargeDepth := 60) only [ledgerPass_keeps, answer_keeps, unitWrite_keeps, refuseWrite_keeps, keeps_mk, implies_true, Keeps.refl, foldl_keeps, ite_keeps, foldl1_keeps, id_eq, h]; done) | with_reducible (refine ite_keeps ?_ ?_) | with_reducible (refine foldl_keeps (fun _ _ => ?_) ?_) | split | (dsimp only; with_reducible (refine ite_keeps ?_ ?_)) | (dsimp only; split) | ((try dsimp only); first | with_reducible (apply ledgerPass_keeps) | with_reducible (apply answer_keeps) | with_reducible (apply unitWrite_keeps) | with_reducible (apply refuseWrite_keeps) | with_reducible (apply keeps_mk))

theorem exitServe_keeps {o s : State} (h : Keeps o s) : Keeps o (exitServe s) := by
  unfold exitServe; simp (maxDischargeDepth := 60) only [exitDone_keeps, regWrite_keeps, keeps_mk, implies_true, Keeps.refl, foldl_keeps, ite_keeps, foldl1_keeps, id_eq, h]

theorem tapAccess_keeps {o s : State} (op a : Nat) (data : Word) (h : Keeps o s) : Keeps o (tapAccess op a data s) := by
  unfold tapAccess; simp (maxDischargeDepth := 60) only [flag_keeps, tickFree_keeps, regWrite_keeps, keeps_mk, implies_true, Keeps.refl, foldl_keeps, ite_keeps, foldl1_keeps, id_eq, h]

/-! Tick. -/

theorem tick_keeps {o s : State} (h : Keeps o s) : Keeps o (tick s) := by
  unfold tick; simp (maxDischargeDepth := 60) only [drainFences_keeps, modeHand_keeps, gbkFlush_keeps, settleMasks_keeps, elapse_keeps, ltnDrain_keeps, ledgerAdmit_keeps, keeps_mk, implies_true, Keeps.refl, foldl_keeps, ite_keeps, foldl1_keeps, id_eq, h]

end Sys2Proof.Machine
end

