-- ==== Sys2Proof/Laws/KeepsCommands.lean ====
section
/-!
SUPPORT. What every command keeps (`Keeps`, Safety.lean): one lemma for each meaning.
-/
namespace Sys2Proof.Machine
set_option Elab.async false
set_option linter.unusedSimpArgs false
set_option linter.unusedTactic false
set_option linter.unreachableTactic false

theorem execQueueRoomResume_keeps (q : Nat) {s s' : State} (e : execQueueRoomResume q s = .next s') : Keeps s s' := by
  unfold execQueueRoomResume at e; injection e with e; rw [← e]; repeat' first | (simp (maxDischargeDepth := 60) only [roomResume_keeps, keeps_mk, implies_true, Keeps.refl, foldl_keeps, ite_keeps, foldl1_keeps, id_eq]; done) | with_reducible (refine ite_keeps ?_ ?_) | split | (try dsimp only; first | with_reducible (apply roomResume_keeps) | with_reducible (apply keeps_mk))

theorem execLadderPause_keeps (q : Nat) (wr : Bool) {s s' : State} (e : execLadderPause q wr s = .next s') : Keeps s s' := by
  unfold execLadderPause at e; injection e with e; rw [← e]; repeat' first | (simp (maxDischargeDepth := 60) only [ladderPause_keeps, keeps_mk, implies_true, Keeps.refl, foldl_keeps, ite_keeps, foldl1_keeps, id_eq]; done) | with_reducible (refine ite_keeps ?_ ?_) | split | (try dsimp only; first | with_reducible (apply ladderPause_keeps) | with_reducible (apply keeps_mk))

theorem execShaperRefill_keeps {s s' : State} (e : execShaperRefill s = .next s') : Keeps s s' := by
  unfold execShaperRefill at e; injection e with e; rw [← e]; repeat' first | (simp (maxDischargeDepth := 60) only [refill_keeps, keeps_mk, implies_true, Keeps.refl, foldl_keeps, ite_keeps, foldl1_keeps, id_eq]; done) | with_reducible (refine ite_keeps ?_ ?_) | split | (try dsimp only; first | with_reducible (apply refill_keeps) | with_reducible (apply keeps_mk))

theorem execQueueCfgWrite_keeps (q : Nat) (acc : Acc) {s s' : State} (e : execQueueCfgWrite q acc s = .next s') : Keeps s s' := by
  unfold execQueueCfgWrite at e; injection e with e; rw [← e]; repeat' first | (simp (maxDischargeDepth := 60) only [portWrite_keeps, inkWrite_keeps, keeps_mk, implies_true, Keeps.refl, foldl_keeps, ite_keeps, foldl1_keeps, id_eq]; done) | with_reducible (refine ite_keeps ?_ ?_) | split | (try dsimp only; first | with_reducible (apply portWrite_keeps) | with_reducible (apply inkWrite_keeps) | with_reducible (apply keeps_mk))

theorem execInkSelect_keeps (kind : Nat) (n : Nat) {s s' : State} (e : execInkSelect kind n s = .next s') : Keeps s s' := by
  unfold execInkSelect at e; injection e with e; rw [← e]; repeat' first | (simp (maxDischargeDepth := 60) only [inkSelect_keeps, keeps_mk, implies_true, Keeps.refl, foldl_keeps, ite_keeps, foldl1_keeps, id_eq]; done) | with_reducible (refine ite_keeps ?_ ?_) | split | (try dsimp only; first | with_reducible (apply inkSelect_keeps) | with_reducible (apply keeps_mk))

theorem execTxCreditReturn_keeps (lane : Nat) (vc : Nat) (cnt : Nat) {s s' : State} (e : execTxCreditReturn lane vc cnt s = .next s') : Keeps s s' := by
  unfold execTxCreditReturn at e; injection e with e; rw [← e]; repeat' first | (simp (maxDischargeDepth := 60) only [txCreditReturn_keeps, keeps_mk, implies_true, Keeps.refl, foldl_keeps, ite_keeps, foldl1_keeps, id_eq]; done) | with_reducible (refine ite_keeps ?_ ?_) | split | (try dsimp only; first | with_reducible (apply txCreditReturn_keeps) | with_reducible (apply keeps_mk))

theorem execRxCreditReturn_keeps (lane : Nat) (vc : Nat) (beats : Nat) {s s' : State} (e : execRxCreditReturn lane vc beats s = .next s') : Keeps s s' := by
  unfold execRxCreditReturn at e; injection e with e; rw [← e]; repeat' first | (simp (maxDischargeDepth := 60) only [rxCreditReturn_keeps, keeps_mk, implies_true, Keeps.refl, foldl_keeps, ite_keeps, foldl1_keeps, id_eq]; done) | with_reducible (refine ite_keeps ?_ ?_) | split | (try dsimp only; first | with_reducible (apply rxCreditReturn_keeps) | with_reducible (apply keeps_mk))

theorem execLaneLinkUp_keeps (lane : Nat) {s s' : State} (e : execLaneLinkUp lane s = .next s') : Keeps s s' := by
  unfold execLaneLinkUp at e; injection e with e; rw [← e]; repeat' first | (simp (maxDischargeDepth := 60) only [laneLinkUp_keeps, keeps_mk, implies_true, Keeps.refl, foldl_keeps, ite_keeps, foldl1_keeps, id_eq]; done) | with_reducible (refine ite_keeps ?_ ?_) | split | (try dsimp only; first | with_reducible (apply laneLinkUp_keeps) | with_reducible (apply keeps_mk))

theorem execLaneLinkDown_keeps (lane : Nat) {s s' : State} (e : execLaneLinkDown lane s = .next s') : Keeps s s' := by
  unfold execLaneLinkDown at e; injection e with e; rw [← e]; repeat' first | (simp (maxDischargeDepth := 60) only [laneLinkDown_keeps, keeps_mk, implies_true, Keeps.refl, foldl_keeps, ite_keeps, foldl1_keeps, id_eq]; done) | with_reducible (refine ite_keeps ?_ ?_) | split | (try dsimp only; first | with_reducible (apply laneLinkDown_keeps) | with_reducible (apply keeps_mk))

theorem execFbpRxPartWrite_keeps (acc : Acc) {s s' : State} (e : execFbpRxPartWrite acc s = .next s') : Keeps s s' := by
  unfold execFbpRxPartWrite at e; injection e with e; rw [← e]; repeat' first | (simp (maxDischargeDepth := 60) only [portWrite_keeps, fbpWrite_keeps, keeps_mk, implies_true, Keeps.refl, foldl_keeps, ite_keeps, foldl1_keeps, id_eq]; done) | with_reducible (refine ite_keeps ?_ ?_) | split | (try dsimp only; first | with_reducible (apply portWrite_keeps) | with_reducible (apply fbpWrite_keeps) | with_reducible (apply keeps_mk))

theorem execFrpPacketReceive_keeps (lane : Nat) (p : Pkt) {s s' : State} (e : execFrpPacketReceive lane p s = .next s') : Keeps s s' := by
  unfold execFrpPacketReceive at e; injection e with e; rw [← e]; repeat' first | (simp (maxDischargeDepth := 60) only [receivePkt_keeps, keeps_mk, implies_true, Keeps.refl, foldl_keeps, ite_keeps, foldl1_keeps, id_eq]; done) | with_reducible (refine ite_keeps ?_ ?_) | split | (try dsimp only; first | with_reducible (apply receivePkt_keeps) | with_reducible (apply keeps_mk))

theorem execMmpWriteResponse_keeps (ch : Nat) (id : Nat) (st : MemStatus) {s s' : State} (e : execMmpWriteResponse ch id st s = .next s') : Keeps s s' := by
  unfold execMmpWriteResponse at e; injection e with e; rw [← e]; repeat' first | (simp (maxDischargeDepth := 60) only [writeResponse_keeps, haAdvance_keeps, keeps_mk, implies_true, Keeps.refl, foldl_keeps, ite_keeps, foldl1_keeps, id_eq]; done) | with_reducible (refine ite_keeps ?_ ?_) | split | (try dsimp only; first | with_reducible (apply writeResponse_keeps) | with_reducible (apply haAdvance_keeps) | with_reducible (apply keeps_mk))

theorem execWaybillRecordWrite_keeps {s s' : State} (e : execWaybillRecordWrite s = .next s') : Keeps s s' := by
  unfold execWaybillRecordWrite at e; injection e with e; rw [← e]; repeat' first | (simp (maxDischargeDepth := 60) only [waybillRecordWrite_keeps, keeps_mk, implies_true, Keeps.refl, foldl_keeps, ite_keeps, foldl1_keeps, id_eq]; done) | with_reducible (refine ite_keeps ?_ ?_) | split | (try dsimp only; first | with_reducible (apply waybillRecordWrite_keeps) | with_reducible (apply keeps_mk))

theorem execWaybillWriteComplete_keeps {s s' : State} (e : execWaybillWriteComplete s = .next s') : Keeps s s' := by
  unfold execWaybillWriteComplete at e; injection e with e; rw [← e]; repeat' first | (simp (maxDischargeDepth := 60) only [waybillWriteComplete_keeps, keeps_mk, implies_true, Keeps.refl, foldl_keeps, ite_keeps, foldl1_keeps, id_eq]; done) | with_reducible (refine ite_keeps ?_ ?_) | split | (try dsimp only; first | with_reducible (apply waybillWriteComplete_keeps) | with_reducible (apply keeps_mk))

theorem execTagTransfer_keeps (engine : Nat) (ctx : Nat) (layer : Nat) (op : Nat) {s s' : State} (e : execTagTransfer engine ctx layer op s = .next s') : Keeps s s' := by
  unfold execTagTransfer at e; injection e with e; rw [← e]; repeat' first | (simp (maxDischargeDepth := 60) only [tagTransfer_keeps, keeps_mk, implies_true, Keeps.refl, foldl_keeps, ite_keeps, foldl1_keeps, id_eq]; done) | with_reducible (refine ite_keeps ?_ ?_) | split | (try dsimp only; first | with_reducible (apply tagTransfer_keeps) | with_reducible (apply keeps_mk))

theorem execSnapshotRecord_keeps (engine : Nat) (beats : List (BitVec 256)) (cut : Bool) {s s' : State} (e : execSnapshotRecord engine beats cut s = .next s') : Keeps s s' := by
  unfold execSnapshotRecord at e; injection e with e; rw [← e]; repeat' first | (simp (maxDischargeDepth := 60) only [snapshotRecord_keeps, keeps_mk, implies_true, Keeps.refl, foldl_keeps, ite_keeps, foldl1_keeps, id_eq]; done) | with_reducible (refine ite_keeps ?_ ?_) | split | (try dsimp only; first | with_reducible (apply snapshotRecord_keeps) | with_reducible (apply keeps_mk))

theorem execScheduleEnable_keeps (k : Nat) (acc : Acc) {s s' : State} (e : execScheduleEnable k acc s = .next s') : Keeps s s' := by
  unfold execScheduleEnable at e; injection e with e; rw [← e]; repeat' first | (simp (maxDischargeDepth := 60) only [portWrite_keeps, tlyWrite_keeps, keeps_mk, implies_true, Keeps.refl, foldl_keeps, ite_keeps, foldl1_keeps, id_eq]; done) | with_reducible (refine ite_keeps ?_ ?_) | split | (try dsimp only; first | with_reducible (apply portWrite_keeps) | with_reducible (apply tlyWrite_keeps) | with_reducible (apply keeps_mk))

theorem execScheduleDisable_keeps (k : Nat) (acc : Acc) {s s' : State} (e : execScheduleDisable k acc s = .next s') : Keeps s s' := by
  unfold execScheduleDisable at e; injection e with e; rw [← e]; repeat' first | (simp (maxDischargeDepth := 60) only [portWrite_keeps, tlyWrite_keeps, keeps_mk, implies_true, Keeps.refl, foldl_keeps, ite_keeps, foldl1_keeps, id_eq]; done) | with_reducible (refine ite_keeps ?_ ?_) | split | (try dsimp only; first | with_reducible (apply portWrite_keeps) | with_reducible (apply tlyWrite_keeps) | with_reducible (apply keeps_mk))

theorem execScheduleRegisterWrite_keeps (k : Nat) (reg : Nat) (acc : Acc) {s s' : State} (e : execScheduleRegisterWrite k reg acc s = .next s') : Keeps s s' := by
  unfold execScheduleRegisterWrite at e; injection e with e; rw [← e]; repeat' first | (simp (maxDischargeDepth := 60) only [portWrite_keeps, tlyWrite_keeps, keeps_mk, implies_true, Keeps.refl, foldl_keeps, ite_keeps, foldl1_keeps, id_eq]; done) | with_reducible (refine ite_keeps ?_ ?_) | split | (try dsimp only; first | with_reducible (apply portWrite_keeps) | with_reducible (apply tlyWrite_keeps) | with_reducible (apply keeps_mk))

theorem execBinFlush_keeps (acc : Acc) {s s' : State} (e : execBinFlush acc s = .next s') : Keeps s s' := by
  unfold execBinFlush at e; injection e with e; rw [← e]; repeat' first | (simp (maxDischargeDepth := 60) only [portWrite_keeps, tlyWrite_keeps, keeps_mk, implies_true, Keeps.refl, foldl_keeps, ite_keeps, foldl1_keeps, id_eq]; done) | with_reducible (refine ite_keeps ?_ ?_) | split | (try dsimp only; first | with_reducible (apply portWrite_keeps) | with_reducible (apply tlyWrite_keeps) | with_reducible (apply keeps_mk))

theorem execWaybillTrigger_keeps (acc : Acc) {s s' : State} (e : execWaybillTrigger acc s = .next s') : Keeps s s' := by
  unfold execWaybillTrigger at e; injection e with e; rw [← e]; repeat' first | (simp (maxDischargeDepth := 60) only [portWrite_keeps, tlyWrite_keeps, keeps_mk, implies_true, Keeps.refl, foldl_keeps, ite_keeps, foldl1_keeps, id_eq]; done) | with_reducible (refine ite_keeps ?_ ?_) | split | (try dsimp only; first | with_reducible (apply portWrite_keeps) | with_reducible (apply tlyWrite_keeps) | with_reducible (apply keeps_mk))

theorem execWaybillArm_keeps (acc : Acc) {s s' : State} (e : execWaybillArm acc s = .next s') : Keeps s s' := by
  unfold execWaybillArm at e; injection e with e; rw [← e]; repeat' first | (simp (maxDischargeDepth := 60) only [portWrite_keeps, tlyWrite_keeps, keeps_mk, implies_true, Keeps.refl, foldl_keeps, ite_keeps, foldl1_keeps, id_eq]; done) | with_reducible (refine ite_keeps ?_ ?_) | split | (try dsimp only; first | with_reducible (apply portWrite_keeps) | with_reducible (apply tlyWrite_keeps) | with_reducible (apply keeps_mk))

theorem execLateCut_keeps {s s' : State} (e : execLateCut s = .next s') : Keeps s s' := by
  unfold execLateCut at e; injection e with e; rw [← e]; repeat' first | (simp (maxDischargeDepth := 60) only [lateCut_keeps, keeps_mk, implies_true, Keeps.refl, foldl_keeps, ite_keeps, foldl1_keeps, id_eq]; done) | with_reducible (refine ite_keeps ?_ ?_) | split | (try dsimp only; first | with_reducible (apply lateCut_keeps) | with_reducible (apply keeps_mk))

theorem execWaybillProdTick_keeps {s s' : State} (e : execWaybillProdTick s = .next s') : Keeps s s' := by
  unfold execWaybillProdTick at e; injection e with e; rw [← e]; repeat' first | (simp (maxDischargeDepth := 60) only [waybillProdTick_keeps, keeps_mk, implies_true, Keeps.refl, foldl_keeps, ite_keeps, foldl1_keeps, id_eq]; done) | with_reducible (refine ite_keeps ?_ ?_) | split | (try dsimp only; first | with_reducible (apply waybillProdTick_keeps) | with_reducible (apply keeps_mk))

theorem execDeltaReceive_keeps {s s' : State} (e : execDeltaReceive s = .next s') : Keeps s s' := by
  unfold execDeltaReceive at e; injection e with e; rw [← e]; repeat' first | (simp (maxDischargeDepth := 60) only [fromChild_keeps, dataPkt_keeps, keeps_mk, implies_true, Keeps.refl, foldl_keeps, ite_keeps, foldl1_keeps, id_eq]; done) | with_reducible (refine ite_keeps ?_ ?_) | split | (try dsimp only; first | with_reducible (apply fromChild_keeps) | with_reducible (apply dataPkt_keeps) | with_reducible (apply keeps_mk))

theorem execAggReceive_keeps {s s' : State} (e : execAggReceive s = .next s') : Keeps s s' := by
  unfold execAggReceive at e; injection e with e; rw [← e]; repeat' first | (simp (maxDischargeDepth := 60) only [fromChild_keeps, dataPkt_keeps, keeps_mk, implies_true, Keeps.refl, foldl_keeps, ite_keeps, foldl1_keeps, id_eq]; done) | with_reducible (refine ite_keeps ?_ ?_) | split | (try dsimp only; first | with_reducible (apply fromChild_keeps) | with_reducible (apply dataPkt_keeps) | with_reducible (apply keeps_mk))

theorem execSketchReceive_keeps {s s' : State} (e : execSketchReceive s = .next s') : Keeps s s' := by
  unfold execSketchReceive at e; injection e with e; rw [← e]; repeat' first | (simp (maxDischargeDepth := 60) only [fromChild_keeps, dataPkt_keeps, keeps_mk, implies_true, Keeps.refl, foldl_keeps, ite_keeps, foldl1_keeps, id_eq]; done) | with_reducible (refine ite_keeps ?_ ?_) | split | (try dsimp only; first | with_reducible (apply fromChild_keeps) | with_reducible (apply dataPkt_keeps) | with_reducible (apply keeps_mk))

theorem execVerdictReceive_keeps {s s' : State} (e : execVerdictReceive s = .next s') : Keeps s s' := by
  unfold execVerdictReceive at e; injection e with e; rw [← e]; repeat' first | (simp (maxDischargeDepth := 60) only [fromChild_keeps, dataPkt_keeps, keeps_mk, implies_true, Keeps.refl, foldl_keeps, ite_keeps, foldl1_keeps, id_eq]; done) | with_reducible (refine ite_keeps ?_ ?_) | split | (try dsimp only; first | with_reducible (apply fromChild_keeps) | with_reducible (apply dataPkt_keeps) | with_reducible (apply keeps_mk))

theorem execMissingReceive_keeps {s s' : State} (e : execMissingReceive s = .next s') : Keeps s s' := by
  unfold execMissingReceive at e; injection e with e; rw [← e]; repeat' first | (simp (maxDischargeDepth := 60) only [fromChild_keeps, dataPkt_keeps, keeps_mk, implies_true, Keeps.refl, foldl_keeps, ite_keeps, foldl1_keeps, id_eq]; done) | with_reducible (refine ite_keeps ?_ ?_) | split | (try dsimp only; first | with_reducible (apply fromChild_keeps) | with_reducible (apply dataPkt_keeps) | with_reducible (apply keeps_mk))

theorem execClosedReceive_keeps {s s' : State} (e : execClosedReceive s = .next s') : Keeps s s' := by
  unfold execClosedReceive at e; injection e with e; rw [← e]; repeat' first | (simp (maxDischargeDepth := 60) only [fromChild_keeps, closedPkt_keeps, keeps_mk, implies_true, Keeps.refl, foldl_keeps, ite_keeps, foldl1_keeps, id_eq]; done) | with_reducible (refine ite_keeps ?_ ?_) | split | (try dsimp only; first | with_reducible (apply fromChild_keeps) | with_reducible (apply closedPkt_keeps) | with_reducible (apply keeps_mk))

theorem execDetourReceive_keeps {s s' : State} (e : execDetourReceive s = .next s') : Keeps s s' := by
  unfold execDetourReceive at e; injection e with e; rw [← e]; repeat' first | (simp (maxDischargeDepth := 60) only [fromChild_keeps, detourPkt_keeps, keeps_mk, implies_true, Keeps.refl, foldl_keeps, ite_keeps, foldl1_keeps, id_eq]; done) | with_reducible (refine ite_keeps ?_ ?_) | split | (try dsimp only; first | with_reducible (apply fromChild_keeps) | with_reducible (apply detourPkt_keeps) | with_reducible (apply keeps_mk))

theorem execJoinReceive_keeps {s s' : State} (e : execJoinReceive s = .next s') : Keeps s s' := by
  unfold execJoinReceive at e; injection e with e; rw [← e]; repeat' first | (simp (maxDischargeDepth := 60) only [joinReceive_keeps, keeps_mk, implies_true, Keeps.refl, foldl_keeps, ite_keeps, foldl1_keeps, id_eq]; done) | with_reducible (refine ite_keeps ?_ ?_) | split | (try dsimp only; first | with_reducible (apply joinReceive_keeps) | with_reducible (apply keeps_mk))

theorem execEpochDeadline_keeps (k : Nat) (n : Nat) {s s' : State} (e : execEpochDeadline k n s = .next s') : Keeps s s' := by
  unfold execEpochDeadline at e; injection e with e; rw [← e]; repeat' first | (simp (maxDischargeDepth := 60) only [epochDeadline_keeps, keeps_mk, implies_true, Keeps.refl, foldl_keeps, ite_keeps, foldl1_keeps, id_eq]; done) | with_reducible (refine ite_keeps ?_ ?_) | split | (try dsimp only; first | with_reducible (apply epochDeadline_keeps) | with_reducible (apply keeps_mk))

theorem execEpochGraceEnd_keeps (k : Nat) (n : Nat) {s s' : State} (e : execEpochGraceEnd k n s = .next s') : Keeps s s' := by
  unfold execEpochGraceEnd at e; injection e with e; rw [← e]; repeat' first | (simp (maxDischargeDepth := 60) only [epochGrace_keeps, keeps_mk, implies_true, Keeps.refl, foldl_keeps, ite_keeps, foldl1_keeps, id_eq]; done) | with_reducible (refine ite_keeps ?_ ?_) | split | (try dsimp only; first | with_reducible (apply epochGrace_keeps) | with_reducible (apply keeps_mk))

theorem execCoarsenReceive_keeps {s s' : State} (e : execCoarsenReceive s = .next s') : Keeps s s' := by
  unfold execCoarsenReceive at e; injection e with e; rw [← e]; repeat' first | (simp (maxDischargeDepth := 60) only [coarsenReceive_keeps, keeps_mk, implies_true, Keeps.refl, foldl_keeps, ite_keeps, foldl1_keeps, id_eq]; done) | with_reducible (refine ite_keeps ?_ ?_) | split | (try dsimp only; first | with_reducible (apply coarsenReceive_keeps) | with_reducible (apply keeps_mk))

theorem execSaturatedEpochClose_keeps (k : Nat) (full : Nat) (delay : Nat) {s s' : State} (e : execSaturatedEpochClose k full delay s = .next s') : Keeps s s' := by
  unfold execSaturatedEpochClose at e; injection e with e; rw [← e]; repeat' first | (simp (maxDischargeDepth := 60) only [saturatedEpoch_keeps, keeps_mk, implies_true, Keeps.refl, foldl_keeps, ite_keeps, foldl1_keeps, id_eq]; done) | with_reducible (refine ite_keeps ?_ ?_) | split | (try dsimp only; first | with_reducible (apply saturatedEpoch_keeps) | with_reducible (apply keeps_mk))

theorem execSlotOpen_keeps (acc : Acc) {s s' : State} (e : execSlotOpen acc s = .next s') : Keeps s s' := by
  unfold execSlotOpen at e; injection e with e; rw [← e]; repeat' first | (simp (maxDischargeDepth := 60) only [slotRow_keeps, keeps_mk, implies_true, Keeps.refl, foldl_keeps, ite_keeps, foldl1_keeps, id_eq]; done) | with_reducible (refine ite_keeps ?_ ?_) | split | (try dsimp only; first | with_reducible (apply slotRow_keeps) | with_reducible (apply keeps_mk))

theorem execSlotDrain_keeps (acc : Acc) {s s' : State} (e : execSlotDrain acc s = .next s') : Keeps s s' := by
  unfold execSlotDrain at e; injection e with e; rw [← e]; repeat' first | (simp (maxDischargeDepth := 60) only [slotRow_keeps, keeps_mk, implies_true, Keeps.refl, foldl_keeps, ite_keeps, foldl1_keeps, id_eq]; done) | with_reducible (refine ite_keeps ?_ ?_) | split | (try dsimp only; first | with_reducible (apply slotRow_keeps) | with_reducible (apply keeps_mk))

theorem execSlotRetire_keeps (acc : Acc) {s s' : State} (e : execSlotRetire acc s = .next s') : Keeps s s' := by
  unfold execSlotRetire at e; injection e with e; rw [← e]; repeat' first | (simp (maxDischargeDepth := 60) only [slotRow_keeps, keeps_mk, implies_true, Keeps.refl, foldl_keeps, ite_keeps, foldl1_keeps, id_eq]; done) | with_reducible (refine ite_keeps ?_ ?_) | split | (try dsimp only; first | with_reducible (apply slotRow_keeps) | with_reducible (apply keeps_mk))

theorem execRouteModeWrite_keeps (acc : Acc) {s s' : State} (e : execRouteModeWrite acc s = .next s') : Keeps s s' := by
  unfold execRouteModeWrite at e; injection e with e; rw [← e]; repeat' first | (simp (maxDischargeDepth := 60) only [portWrite_keeps, crvWrite_keeps, keeps_mk, implies_true, Keeps.refl, foldl_keeps, ite_keeps, foldl1_keeps, id_eq]; done) | with_reducible (refine ite_keeps ?_ ?_) | split | (try dsimp only; first | with_reducible (apply portWrite_keeps) | with_reducible (apply crvWrite_keeps) | with_reducible (apply keeps_mk))

theorem execSepFrameReceive_keeps (port : Nat) (frame : List Byte) (phase : Nat) {s s' : State} (e : execSepFrameReceive port frame phase s = .next s') : Keeps s s' := by
  unfold execSepFrameReceive at e; injection e with e; rw [← e]; repeat' first | (simp (maxDischargeDepth := 60) only [receiveFrame_keeps, keeps_mk, implies_true, Keeps.refl, foldl_keeps, ite_keeps, foldl1_keeps, id_eq]; done) | with_reducible (refine ite_keeps ?_ ?_) | split | (try dsimp only; first | with_reducible (apply receiveFrame_keeps) | with_reducible (apply keeps_mk))

theorem execSepFrameTransmit_keeps (port : Nat) (placed : List (List Byte)) {s s' : State} (e : execSepFrameTransmit port placed s = .next s') : Keeps s s' := by
  unfold execSepFrameTransmit at e; injection e with e; rw [← e]; repeat' first | (simp (maxDischargeDepth := 60) only [transmitFrame_keeps, keeps_mk, implies_true, Keeps.refl, foldl_keeps, ite_keeps, foldl1_keeps, id_eq]; done) | with_reducible (refine ite_keeps ?_ ?_) | split | (try dsimp only; first | with_reducible (apply transmitFrame_keeps) | with_reducible (apply keeps_mk))

theorem execTcForward_keeps (phase : Nat) {s s' : State} (e : execTcForward phase s = .next s') : Keeps s s' := by
  unfold execTcForward at e; injection e with e; rw [← e]; repeat' first | (simp (maxDischargeDepth := 60) only [tcForward_keeps, keeps_mk, implies_true, Keeps.refl, foldl_keeps, ite_keeps, foldl1_keeps, id_eq]; done) | with_reducible (refine ite_keeps ?_ ?_) | split | (try dsimp only; first | with_reducible (apply tcForward_keeps) | with_reducible (apply keeps_mk))

theorem execSepPcsDown_keeps (port : Nat) (inRx : Bool) (stampLost : Bool) {s s' : State} (e : execSepPcsDown port inRx stampLost s = .next s') : Keeps s s' := by
  unfold execSepPcsDown at e; injection e with e; rw [← e]; repeat' first | (simp (maxDischargeDepth := 60) only [pcsDown_keeps, keeps_mk, implies_true, Keeps.refl, foldl_keeps, ite_keeps, foldl1_keeps, id_eq]; done) | with_reducible (refine ite_keeps ?_ ?_) | split | (try dsimp only; first | with_reducible (apply pcsDown_keeps) | with_reducible (apply keeps_mk))

theorem execSepPcsUp_keeps (port : Nat) {s s' : State} (e : execSepPcsUp port s = .next s') : Keeps s s' := by
  unfold execSepPcsUp at e; injection e with e; rw [← e]; repeat' first | (simp (maxDischargeDepth := 60) only [pcsUp_keeps, keeps_mk, implies_true, Keeps.refl, foldl_keeps, ite_keeps, foldl1_keeps, id_eq]; done) | with_reducible (refine ite_keeps ?_ ?_) | split | (try dsimp only; first | with_reducible (apply pcsUp_keeps) | with_reducible (apply keeps_mk))

theorem execPulseEdge_keeps (n : Nat) {s s' : State} (e : execPulseEdge n s = .next s') : Keeps s s' := by
  unfold execPulseEdge at e; injection e with e; rw [← e]; repeat' first | (simp (maxDischargeDepth := 60) only [pulseEdge_keeps, keeps_mk, implies_true, Keeps.refl, foldl_keeps, ite_keeps, foldl1_keeps, id_eq]; done) | with_reducible (refine ite_keeps ?_ ?_) | split | (try dsimp only; first | with_reducible (apply pulseEdge_keeps) | with_reducible (apply keeps_mk))

theorem execPulseFall_keeps (n : Nat) {s s' : State} (e : execPulseFall n s = .next s') : Keeps s s' := by
  unfold execPulseFall at e; injection e with e; rw [← e]; repeat' first | (simp (maxDischargeDepth := 60) only [pulseFall_keeps, keeps_mk, implies_true, Keeps.refl, foldl_keeps, ite_keeps, foldl1_keeps, id_eq]; done) | with_reducible (refine ite_keeps ?_ ?_) | split | (try dsimp only; first | with_reducible (apply pulseFall_keeps) | with_reducible (apply keeps_mk))

theorem execPpsOutRise_keeps {s s' : State} (e : execPpsOutRise s = .next s') : Keeps s s' := by
  unfold execPpsOutRise at e; injection e with e; rw [← e]; repeat' first | (simp (maxDischargeDepth := 60) only [ppsRise_keeps, keeps_mk, implies_true, Keeps.refl, foldl_keeps, ite_keeps, foldl1_keeps, id_eq]; done) | with_reducible (refine ite_keeps ?_ ?_) | split | (try dsimp only; first | with_reducible (apply ppsRise_keeps) | with_reducible (apply keeps_mk))

theorem execPpsOutFall_keeps {s s' : State} (e : execPpsOutFall s = .next s') : Keeps s s' := by
  unfold execPpsOutFall at e; injection e with e; rw [← e]; repeat' first | (simp (maxDischargeDepth := 60) only [ppsFall_keeps, keeps_mk, implies_true, Keeps.refl, foldl_keeps, ite_keeps, foldl1_keeps, id_eq]; done) | with_reducible (refine ite_keeps ?_ ?_) | split | (try dsimp only; first | with_reducible (apply ppsFall_keeps) | with_reducible (apply keeps_mk))

theorem execCaptureEdge_keeps (ch : Nat) (phase : Nat) {s s' : State} (e : execCaptureEdge ch phase s = .next s') : Keeps s s' := by
  unfold execCaptureEdge at e; injection e with e; rw [← e]; repeat' first | (simp (maxDischargeDepth := 60) only [captureEdge_keeps, keeps_mk, implies_true, Keeps.refl, foldl_keeps, ite_keeps, foldl1_keeps, id_eq]; done) | with_reducible (refine ite_keeps ?_ ?_) | split | (try dsimp only; first | with_reducible (apply captureEdge_keeps) | with_reducible (apply keeps_mk))

theorem execPulseEnable_keeps (n : Nat) (acc : Acc) {s s' : State} (e : execPulseEnable n acc s = .next s') : Keeps s s' := by
  unfold execPulseEnable at e; injection e with e; rw [← e]; repeat' first | (simp (maxDischargeDepth := 60) only [portWrite_keeps, tpiWrite_keeps, keeps_mk, implies_true, Keeps.refl, foldl_keeps, ite_keeps, foldl1_keeps, id_eq]; done) | with_reducible (refine ite_keeps ?_ ?_) | split | (try dsimp only; first | with_reducible (apply portWrite_keeps) | with_reducible (apply tpiWrite_keeps) | with_reducible (apply keeps_mk))

theorem execCaptureConsume_keeps (ch : Nat) (acc : Acc) {s s' : State} (e : execCaptureConsume ch acc s = .next s') : Keeps s s' := by
  unfold execCaptureConsume at e; injection e with e; rw [← e]; repeat' first | (simp (maxDischargeDepth := 60) only [portWrite_keeps, tpiWrite_keeps, keeps_mk, implies_true, Keeps.refl, foldl_keeps, ite_keeps, foldl1_keeps, id_eq]; done) | with_reducible (refine ite_keeps ?_ ?_) | split | (try dsimp only; first | with_reducible (apply portWrite_keeps) | with_reducible (apply tpiWrite_keeps) | with_reducible (apply keeps_mk))

theorem execServoTimeout_keeps (n : Nat) {s s' : State} (e : execServoTimeout n s = .next s') : Keeps s s' := by
  unfold execServoTimeout at e; injection e with e; rw [← e]; repeat' first | (simp (maxDischargeDepth := 60) only [servoTimeout_keeps, keeps_mk, implies_true, Keeps.refl, foldl_keeps, ite_keeps, foldl1_keeps, id_eq]; done) | with_reducible (refine ite_keeps ?_ ?_) | split | (try dsimp only; first | with_reducible (apply servoTimeout_keeps) | with_reducible (apply keeps_mk))

theorem execPtpSyncReceive_keeps (m : List Byte) (phase : Nat) {s s' : State} (e : execPtpSyncReceive m phase s = .next s') : Keeps s s' := by
  unfold execPtpSyncReceive at e; injection e with e; rw [← e]; repeat' first | (simp (maxDischargeDepth := 60) only [ptpSync_keeps, keeps_mk, implies_true, Keeps.refl, foldl_keeps, ite_keeps, foldl1_keeps, id_eq]; done) | with_reducible (refine ite_keeps ?_ ?_) | split | (try dsimp only; first | with_reducible (apply ptpSync_keeps) | with_reducible (apply keeps_mk))

theorem execPtpFollowUpReceive_keeps (m : List Byte) {s s' : State} (e : execPtpFollowUpReceive m s = .next s') : Keeps s s' := by
  unfold execPtpFollowUpReceive at e; injection e with e; rw [← e]; repeat' first | (simp (maxDischargeDepth := 60) only [ptpFollowUp_keeps, keeps_mk, implies_true, Keeps.refl, foldl_keeps, ite_keeps, foldl1_keeps, id_eq]; done) | with_reducible (refine ite_keeps ?_ ?_) | split | (try dsimp only; first | with_reducible (apply ptpFollowUp_keeps) | with_reducible (apply keeps_mk))

theorem execPtpDelayRespReceive_keeps (m : List Byte) {s s' : State} (e : execPtpDelayRespReceive m s = .next s') : Keeps s s' := by
  unfold execPtpDelayRespReceive at e; injection e with e; rw [← e]; repeat' first | (simp (maxDischargeDepth := 60) only [ptpDelayResp_keeps, keeps_mk, implies_true, Keeps.refl, foldl_keeps, ite_keeps, foldl1_keeps, id_eq]; done) | with_reducible (refine ite_keeps ?_ ?_) | split | (try dsimp only; first | with_reducible (apply ptpDelayResp_keeps) | with_reducible (apply keeps_mk))

theorem execDelayReqSend_keeps (phase : Nat) {s s' : State} (e : execDelayReqSend phase s = .next s') : Keeps s s' := by
  unfold execDelayReqSend at e; injection e with e; rw [← e]; repeat' first | (simp (maxDischargeDepth := 60) only [delayReqSend_keeps, keeps_mk, implies_true, Keeps.refl, foldl_keeps, ite_keeps, foldl1_keeps, id_eq]; done) | with_reducible (refine ite_keeps ?_ ?_) | split | (try dsimp only; first | with_reducible (apply delayReqSend_keeps) | with_reducible (apply keeps_mk))

theorem execPtpAnnounceReceive_keeps (f : List Byte) {s s' : State} (e : execPtpAnnounceReceive f s = .next s') : Keeps s s' := by
  unfold execPtpAnnounceReceive at e; injection e with e; rw [← e]; repeat' first | (simp (maxDischargeDepth := 60) only [ptpOther_keeps, keeps_mk, implies_true, Keeps.refl, foldl_keeps, ite_keeps, foldl1_keeps, id_eq]; done) | with_reducible (refine ite_keeps ?_ ?_) | split | (try dsimp only; first | with_reducible (apply ptpOther_keeps) | with_reducible (apply keeps_mk))

theorem execJumpAccept_keeps (n : Nat) (acc : Acc) {s s' : State} (e : execJumpAccept n acc s = .next s') : Keeps s s' := by
  unfold execJumpAccept at e; injection e with e; rw [← e]; repeat' first | (simp (maxDischargeDepth := 60) only [portWrite_keeps, timWrite_keeps, keeps_mk, implies_true, Keeps.refl, foldl_keeps, ite_keeps, foldl1_keeps, id_eq]; done) | with_reducible (refine ite_keeps ?_ ?_) | split | (try dsimp only; first | with_reducible (apply portWrite_keeps) | with_reducible (apply timWrite_keeps) | with_reducible (apply keeps_mk))

theorem execJumpDismiss_keeps (n : Nat) (acc : Acc) {s s' : State} (e : execJumpDismiss n acc s = .next s') : Keeps s s' := by
  unfold execJumpDismiss at e; injection e with e; rw [← e]; repeat' first | (simp (maxDischargeDepth := 60) only [portWrite_keeps, timWrite_keeps, keeps_mk, implies_true, Keeps.refl, foldl_keeps, ite_keeps, foldl1_keeps, id_eq]; done) | with_reducible (refine ite_keeps ?_ ?_) | split | (try dsimp only; first | with_reducible (apply portWrite_keeps) | with_reducible (apply timWrite_keeps) | with_reducible (apply keeps_mk))

theorem execTimeSnapshot_keeps (acc : Acc) {s s' : State} (e : execTimeSnapshot acc s = .next s') : Keeps s s' := by
  unfold execTimeSnapshot at e; injection e with e; rw [← e]; repeat' first | (simp (maxDischargeDepth := 60) only [portWrite_keeps, timWrite_keeps, keeps_mk, implies_true, Keeps.refl, foldl_keeps, ite_keeps, foldl1_keeps, id_eq]; done) | with_reducible (refine ite_keeps ?_ ?_) | split | (try dsimp only; first | with_reducible (apply portWrite_keeps) | with_reducible (apply timWrite_keeps) | with_reducible (apply keeps_mk))

theorem execFabricDreqSend_keeps {s s' : State} (e : execFabricDreqSend s = .next s') : Keeps s s' := by
  unfold execFabricDreqSend at e; injection e with e; rw [← e]; repeat' first | (simp (maxDischargeDepth := 60) only [fabricDreqSend_keeps, keeps_mk, implies_true, Keeps.refl, foldl_keeps, ite_keeps, foldl1_keeps, id_eq]; done) | with_reducible (refine ite_keeps ?_ ?_) | split | (try dsimp only; first | with_reducible (apply fabricDreqSend_keeps) | with_reducible (apply keeps_mk))

theorem execFabricDreqReceive_keeps {s s' : State} (e : execFabricDreqReceive s = .next s') : Keeps s s' := by
  unfold execFabricDreqReceive at e; injection e with e; rw [← e]; repeat' first | (simp (maxDischargeDepth := 60) only [fabricDreq_keeps, keeps_mk, implies_true, Keeps.refl, foldl_keeps, ite_keeps, foldl1_keeps, id_eq]; done) | with_reducible (refine ite_keeps ?_ ?_) | split | (try dsimp only; first | with_reducible (apply fabricDreq_keeps) | with_reducible (apply keeps_mk))

theorem execFabricDrespReceive_keeps {s s' : State} (e : execFabricDrespReceive s = .next s') : Keeps s s' := by
  unfold execFabricDrespReceive at e; injection e with e; rw [← e]; repeat' first | (simp (maxDischargeDepth := 60) only [fabricDresp_keeps, keeps_mk, implies_true, Keeps.refl, foldl_keeps, ite_keeps, foldl1_keeps, id_eq]; done) | with_reducible (refine ite_keeps ?_ ?_) | split | (try dsimp only; first | with_reducible (apply fabricDresp_keeps) | with_reducible (apply keeps_mk))

theorem execFabricDrespFupReceive_keeps {s s' : State} (e : execFabricDrespFupReceive s = .next s') : Keeps s s' := by
  unfold execFabricDrespFupReceive at e; injection e with e; rw [← e]; repeat' first | (simp (maxDischargeDepth := 60) only [fabricFup_keeps, keeps_mk, implies_true, Keeps.refl, foldl_keeps, ite_keeps, foldl1_keeps, id_eq]; done) | with_reducible (refine ite_keeps ?_ ?_) | split | (try dsimp only; first | with_reducible (apply fabricFup_keeps) | with_reducible (apply keeps_mk))

theorem execModelBindDone_keeps (ecc : Option Nat) {s s' : State} (e : execModelBindDone ecc s = .next s') : Keeps s s' := by
  unfold execModelBindDone at e; injection e with e; rw [← e]; repeat' first | (simp (maxDischargeDepth := 60) only [bindDone_keeps, keeps_mk, implies_true, Keeps.refl, foldl_keeps, ite_keeps, foldl1_keeps, id_eq]; done) | with_reducible (refine ite_keeps ?_ ?_) | split | (try dsimp only; first | with_reducible (apply bindDone_keeps) | with_reducible (apply keeps_mk))

theorem execTreeJobStart_keeps (e : Nat) {s s' : State} (e : execTreeJobStart e s = .next s') : Keeps s s' := by
  unfold execTreeJobStart at e; injection e with e; rw [← e]; repeat' first | (simp (maxDischargeDepth := 60) only [treeStart_keeps, keeps_mk, implies_true, Keeps.refl, foldl_keeps, ite_keeps, foldl1_keeps, id_eq]; done) | with_reducible (refine ite_keeps ?_ ?_) | split | (try dsimp only; first | with_reducible (apply treeStart_keeps) | with_reducible (apply keeps_mk))

theorem execTreeJobDone_keeps (e : Nat) (cycles : Nat) (ecc : Option (Nat × Bool × Nat)) {s s' : State} (e : execTreeJobDone e cycles ecc s = .next s') : Keeps s s' := by
  unfold execTreeJobDone at e; injection e with e; rw [← e]; repeat' first | (simp (maxDischargeDepth := 60) only [treeDone_keeps, keeps_mk, implies_true, Keeps.refl, foldl_keeps, ite_keeps, foldl1_keeps, id_eq]; done) | with_reducible (refine ite_keeps ?_ ?_) | split | (try dsimp only; first | with_reducible (apply treeDone_keeps) | with_reducible (apply keeps_mk))

theorem execModelBind_keeps (acc : Acc) {s s' : State} (e : execModelBind acc s = .next s') : Keeps s s' := by
  unfold execModelBind at e; injection e with e; rw [← e]; repeat' first | (simp (maxDischargeDepth := 60) only [portWrite_keeps, treWrite_keeps, keeps_mk, implies_true, Keeps.refl, foldl_keeps, ite_keeps, foldl1_keeps, id_eq]; done) | with_reducible (refine ite_keeps ?_ ?_) | split | (try dsimp only; first | with_reducible (apply portWrite_keeps) | with_reducible (apply treWrite_keeps) | with_reducible (apply keeps_mk))

theorem execModelUnbind_keeps (acc : Acc) {s s' : State} (e : execModelUnbind acc s = .next s') : Keeps s s' := by
  unfold execModelUnbind at e; injection e with e; rw [← e]; repeat' first | (simp (maxDischargeDepth := 60) only [portWrite_keeps, treWrite_keeps, keeps_mk, implies_true, Keeps.refl, foldl_keeps, ite_keeps, foldl1_keeps, id_eq]; done) | with_reducible (refine ite_keeps ?_ ?_) | split | (try dsimp only; first | with_reducible (apply portWrite_keeps) | with_reducible (apply treWrite_keeps) | with_reducible (apply keeps_mk))

theorem execTreeJobGo_keeps (i : Nat) (acc : Acc) {s s' : State} (e : execTreeJobGo i acc s = .next s') : Keeps s s' := by
  unfold execTreeJobGo at e; injection e with e; rw [← e]; repeat' first | (simp (maxDischargeDepth := 60) only [portWrite_keeps, treWrite_keeps, keeps_mk, implies_true, Keeps.refl, foldl_keeps, ite_keeps, foldl1_keeps, id_eq]; done) | with_reducible (refine ite_keeps ?_ ?_) | split | (try dsimp only; first | with_reducible (apply portWrite_keeps) | with_reducible (apply treWrite_keeps) | with_reducible (apply keeps_mk))

theorem execCommitRecordValidate_keeps {s s' : State} (e : execCommitRecordValidate s = .next s') : Keeps s s' := by
  unfold execCommitRecordValidate at e; injection e with e; rw [← e]; repeat' first | (simp (maxDischargeDepth := 60) only [rxStep_keeps, keeps_mk, implies_true, Keeps.refl, foldl_keeps, ite_keeps, foldl1_keeps, id_eq]; done) | with_reducible (refine ite_keeps ?_ ?_) | split | (try dsimp only; first | with_reducible (apply rxStep_keeps) | with_reducible (apply keeps_mk))

theorem execStripeSend_keeps {s s' : State} (e : execStripeSend s = .next s') : Keeps s s' := by
  unfold execStripeSend at e; injection e with e; rw [← e]; repeat' first | (simp (maxDischargeDepth := 60) only [stripeSend_keeps, keeps_mk, implies_true, Keeps.refl, foldl_keeps, ite_keeps, foldl1_keeps, id_eq]; done) | with_reducible (refine ite_keeps ?_ ?_) | split | (try dsimp only; first | with_reducible (apply stripeSend_keeps) | with_reducible (apply keeps_mk))

theorem execWriteIntent_keeps (granule : Nat) (tag : Nat) {s s' : State} (e : execWriteIntent granule tag s = .next s') : Keeps s s' := by
  unfold execWriteIntent at e; injection e with e; rw [← e]; repeat' first | (simp (maxDischargeDepth := 60) only [writeIntent_keeps, keeps_mk, implies_true, Keeps.refl, foldl_keeps, ite_keeps, foldl1_keeps, id_eq]; done) | with_reducible (refine ite_keeps ?_ ?_) | split | (try dsimp only; first | with_reducible (apply writeIntent_keeps) | with_reducible (apply keeps_mk))

theorem execIntentStallTimeout_keeps (tag : Nat) {s s' : State} (e : execIntentStallTimeout tag s = .next s') : Keeps s s' := by
  unfold execIntentStallTimeout at e; injection e with e; rw [← e]; repeat' first | (simp (maxDischargeDepth := 60) only [intentStall_keeps, keeps_mk, implies_true, Keeps.refl, foldl_keeps, ite_keeps, foldl1_keeps, id_eq]; done) | with_reducible (refine ite_keeps ?_ ?_) | split | (try dsimp only; first | with_reducible (apply intentStall_keeps) | with_reducible (apply keeps_mk))

theorem execGranuleCopied_keeps {s s' : State} (e : execGranuleCopied s = .next s') : Keeps s s' := by
  unfold execGranuleCopied at e; injection e with e; rw [← e]; repeat' first | (simp (maxDischargeDepth := 60) only [granuleCopied_keeps, keeps_mk, implies_true, Keeps.refl, foldl_keeps, ite_keeps, foldl1_keeps, id_eq]; done) | with_reducible (refine ite_keeps ?_ ?_) | split | (try dsimp only; first | with_reducible (apply granuleCopied_keeps) | with_reducible (apply keeps_mk))

theorem execCkptDataReceive_keeps {s s' : State} (e : execCkptDataReceive s = .next s') : Keeps s s' := by
  unfold execCkptDataReceive at e; injection e with e; rw [← e]; repeat' first | (rename_i heq; replace heq := takeCkpt_keeps (Keeps.refl s) heq) | (simp (maxDischargeDepth := 60) only [rxData_keeps, keeps_mk, implies_true, Keeps.refl, foldl_keeps, ite_keeps, foldl1_keeps, id_eq, *]; done) | with_reducible (refine ite_keeps ?_ ?_) | split | (try dsimp only; first | with_reducible (apply rxData_keeps) | with_reducible (apply keeps_mk))

theorem execCkptCommitReceive_keeps {s s' : State} (e : execCkptCommitReceive s = .next s') : Keeps s s' := by
  unfold execCkptCommitReceive at e; injection e with e; rw [← e]; repeat' first | (rename_i heq; replace heq := takeCkpt_keeps (Keeps.refl s) heq) | (simp (maxDischargeDepth := 60) only [rxCommit_keeps, keeps_mk, implies_true, Keeps.refl, foldl_keeps, ite_keeps, foldl1_keeps, id_eq, *]; done) | with_reducible (refine ite_keeps ?_ ?_) | split | (try dsimp only; first | with_reducible (apply rxCommit_keeps) | with_reducible (apply keeps_mk))

theorem execRestorePacketReceive_keeps {s s' : State} (e : execRestorePacketReceive s = .next s') : Keeps s s' := by
  unfold execRestorePacketReceive at e; injection e with e; rw [← e]; repeat' first | (rename_i heq; replace heq := takeCkpt_keeps (Keeps.refl s) heq) | (simp (maxDischargeDepth := 60) only [restTake_keeps, keeps_mk, implies_true, Keeps.refl, foldl_keeps, ite_keeps, foldl1_keeps, id_eq, *]; done) | with_reducible (refine ite_keeps ?_ ?_) | split | (try dsimp only; first | with_reducible (apply restTake_keeps) | with_reducible (apply keeps_mk))

theorem execCkptAckReceive_keeps {s s' : State} (e : execCkptAckReceive s = .next s') : Keeps s s' := by
  unfold execCkptAckReceive at e; injection e with e; rw [← e]; repeat' first | (rename_i heq; replace heq := takeCkpt_keeps (Keeps.refl s) heq) | (simp (maxDischargeDepth := 60) only [ackTake_keeps, keeps_mk, implies_true, Keeps.refl, foldl_keeps, ite_keeps, foldl1_keeps, id_eq, *]; done) | with_reducible (refine ite_keeps ?_ ?_) | split | (try dsimp only; first | with_reducible (apply ackTake_keeps) | with_reducible (apply keeps_mk))

theorem execSnapshotArm_keeps (acc : Acc) {s s' : State} (e : execSnapshotArm acc s = .next s') : Keeps s s' := by
  unfold execSnapshotArm at e; injection e with e; rw [← e]; repeat' first | (simp (maxDischargeDepth := 60) only [snapCmd_keeps, keeps_mk, implies_true, Keeps.refl, foldl_keeps, ite_keeps, foldl1_keeps, id_eq]; done) | with_reducible (refine ite_keeps ?_ ?_) | split | (try dsimp only; first | with_reducible (apply snapCmd_keeps) | with_reducible (apply keeps_mk))

theorem execSnapshotSeal_keeps (acc : Acc) {s s' : State} (e : execSnapshotSeal acc s = .next s') : Keeps s s' := by
  unfold execSnapshotSeal at e; injection e with e; rw [← e]; repeat' first | (simp (maxDischargeDepth := 60) only [snapCmd_keeps, keeps_mk, implies_true, Keeps.refl, foldl_keeps, ite_keeps, foldl1_keeps, id_eq]; done) | with_reducible (refine ite_keeps ?_ ?_) | split | (try dsimp only; first | with_reducible (apply snapCmd_keeps) | with_reducible (apply keeps_mk))

theorem execSnapshotAbort_keeps (acc : Acc) {s s' : State} (e : execSnapshotAbort acc s = .next s') : Keeps s s' := by
  unfold execSnapshotAbort at e; injection e with e; rw [← e]; repeat' first | (simp (maxDischargeDepth := 60) only [snapCmd_keeps, keeps_mk, implies_true, Keeps.refl, foldl_keeps, ite_keeps, foldl1_keeps, id_eq]; done) | with_reducible (refine ite_keeps ?_ ?_) | split | (try dsimp only; first | with_reducible (apply snapCmd_keeps) | with_reducible (apply keeps_mk))

theorem execCkptSend_keeps (acc : Acc) {s s' : State} (e : execCkptSend acc s = .next s') : Keeps s s' := by
  unfold execCkptSend at e; injection e with e; rw [← e]; repeat' first | (simp (maxDischargeDepth := 60) only [snapCmd_keeps, keeps_mk, implies_true, Keeps.refl, foldl_keeps, ite_keeps, foldl1_keeps, id_eq]; done) | with_reducible (refine ite_keeps ?_ ?_) | split | (try dsimp only; first | with_reducible (apply snapCmd_keeps) | with_reducible (apply keeps_mk))

theorem execCkptRestore_keeps (acc : Acc) {s s' : State} (e : execCkptRestore acc s = .next s') : Keeps s s' := by
  unfold execCkptRestore at e; injection e with e; rw [← e]; repeat' first | (simp (maxDischargeDepth := 60) only [snapCmd_keeps, keeps_mk, implies_true, Keeps.refl, foldl_keeps, ite_keeps, foldl1_keeps, id_eq]; done) | with_reducible (refine ite_keeps ?_ ?_) | split | (try dsimp only; first | with_reducible (apply snapCmd_keeps) | with_reducible (apply keeps_mk))

theorem execCommitTimeout_keeps {s s' : State} (e : execCommitTimeout s = .next s') : Keeps s s' := by
  unfold execCommitTimeout at e; injection e with e; rw [← e]; repeat' first | (simp (maxDischargeDepth := 60) only [snapFinish_keeps, reachBase_keeps, keeps_mk, implies_true, Keeps.refl, foldl_keeps, ite_keeps, foldl1_keeps, id_eq]; done) | with_reducible (refine ite_keeps ?_ ?_) | split | (try dsimp only; first | with_reducible (apply snapFinish_keeps) | with_reducible (apply reachBase_keeps) | with_reducible (apply keeps_mk))

theorem execCheckpointDeadline_keeps {s s' : State} (e : execCheckpointDeadline s = .next s') : Keeps s s' := by
  unfold execCheckpointDeadline at e; injection e with e; rw [← e]; repeat' first | (simp (maxDischargeDepth := 60) only [report_keeps, setSnap_keeps, reachBase_keeps, keeps_mk, implies_true, Keeps.refl, foldl_keeps, ite_keeps, foldl1_keeps, id_eq]; done) | with_reducible (refine ite_keeps ?_ ?_) | split | (try dsimp only; first | with_reducible (apply report_keeps) | with_reducible (apply setSnap_keeps) | with_reducible (apply reachBase_keeps) | with_reducible (apply keeps_mk))

theorem execRestoreTimeout_keeps {s s' : State} (e : execRestoreTimeout s = .next s') : Keeps s s' := by
  unfold execRestoreTimeout at e; injection e with e; rw [← e]; repeat' first | (simp (maxDischargeDepth := 60) only [restFinish_keeps, reachBase_keeps, keeps_mk, implies_true, Keeps.refl, foldl_keeps, ite_keeps, foldl1_keeps, id_eq]; done) | with_reducible (refine ite_keeps ?_ ?_) | split | (try dsimp only; first | with_reducible (apply restFinish_keeps) | with_reducible (apply reachBase_keeps) | with_reducible (apply keeps_mk))

theorem execEncodeBlockDone_keeps (ok : Bool) (ecc : Option Nat) {s s' : State} (e : execEncodeBlockDone ok ecc s = .next s') : Keeps s s' := by
  unfold execEncodeBlockDone at e; injection e with e; rw [← e]; repeat' first | (simp (maxDischargeDepth := 60) only [encodeBlock_keeps, keeps_mk, implies_true, Keeps.refl, foldl_keeps, ite_keeps, foldl1_keeps, id_eq]; done) | with_reducible (refine ite_keeps ?_ ?_) | split | (try dsimp only; first | with_reducible (apply encodeBlock_keeps) | with_reducible (apply keeps_mk))

theorem execDecodeBlockDone_keeps (ecc : Option Nat) {s s' : State} (e : execDecodeBlockDone ecc s = .next s') : Keeps s s' := by
  unfold execDecodeBlockDone at e; injection e with e; rw [← e]; repeat' first | (simp (maxDischargeDepth := 60) only [decodeBlock_keeps, keeps_mk, implies_true, Keeps.refl, foldl_keeps, ite_keeps, foldl1_keeps, id_eq]; done) | with_reducible (refine ite_keeps ?_ ?_) | split | (try dsimp only; first | with_reducible (apply decodeBlock_keeps) | with_reducible (apply keeps_mk))

theorem execCmpJobComplete_keeps (slot : Nat) {s s' : State} (e : execCmpJobComplete slot s = .next s') : Keeps s s' := by
  unfold execCmpJobComplete at e; injection e with e; rw [← e]; repeat' first | (simp (maxDischargeDepth := 60) only [cmpComplete_keeps, keeps_mk, implies_true, Keeps.refl, foldl_keeps, ite_keeps, foldl1_keeps, id_eq]; done) | with_reducible (refine ite_keeps ?_ ?_) | split | (try dsimp only; first | with_reducible (apply cmpComplete_keeps) | with_reducible (apply keeps_mk))

theorem execPorterDescriptorStart_keeps (c : Nat) (ecc : Bool) {s s' : State} (e : execPorterDescriptorStart c ecc s = .next s') : Keeps s s' := by
  unfold execPorterDescriptorStart at e; injection e with e; rw [← e]; repeat' first | (simp (maxDischargeDepth := 60) only [prtStart_keeps, keeps_mk, implies_true, Keeps.refl, foldl_keeps, ite_keeps, foldl1_keeps, id_eq]; done) | with_reducible (refine ite_keeps ?_ ?_) | split | (try dsimp only; first | with_reducible (apply prtStart_keeps) | with_reducible (apply keeps_mk))

theorem execMmpRequestIssue_keeps {s s' : State} (e : execMmpRequestIssue s = .next s') : Keeps s s' := by
  unfold execMmpRequestIssue at e; injection e with e; rw [← e]; repeat' first | (simp (maxDischargeDepth := 60) only [memFollow_keeps, requestIssue_keeps, keeps_mk, implies_true, Keeps.refl, foldl_keeps, ite_keeps, foldl1_keeps, id_eq]; done) | with_reducible (refine ite_keeps ?_ ?_) | split | (try dsimp only; first | with_reducible (apply memFollow_keeps) | with_reducible (apply requestIssue_keeps) | with_reducible (apply keeps_mk))

theorem execMmpReadData_keeps (ch : Nat) (id : Nat) (beats : List (MemStatus × BitVec 512)) {s s' : State} (e : execMmpReadData ch id beats s = .next s') : Keeps s s' := by
  unfold execMmpReadData at e; injection e with e; rw [← e]; repeat' first | (simp (maxDischargeDepth := 60) only [memFollow_keeps, readData_keeps, keeps_mk, implies_true, Keeps.refl, foldl_keeps, ite_keeps, foldl1_keeps, id_eq]; done) | with_reducible (refine ite_keeps ?_ ?_) | split | (try dsimp only; first | with_reducible (apply memFollow_keeps) | with_reducible (apply readData_keeps) | with_reducible (apply keeps_mk))

theorem execPorterDescriptorDone_keeps (c : Nat) {s s' : State} (e : execPorterDescriptorDone c s = .next s') : Keeps s s' := by
  unfold execPorterDescriptorDone at e; injection e with e; rw [← e]; repeat' first | (simp (maxDischargeDepth := 60) only [prtFinish_keeps, keeps_mk, implies_true, Keeps.refl, foldl_keeps, ite_keeps, foldl1_keeps, id_eq]; done) | with_reducible (refine ite_keeps ?_ ?_) | split | (try dsimp only; first | with_reducible (apply prtFinish_keeps) | with_reducible (apply keeps_mk))

theorem execEncodeJobGo_keeps (i : Nat) (acc : Acc) {s s' : State} (e : execEncodeJobGo i acc s = .next s') : Keeps s s' := by
  unfold execEncodeJobGo at e; injection e with e; rw [← e]; repeat' first | (simp (maxDischargeDepth := 60) only [cmpGoCmd_keeps, keeps_mk, implies_true, Keeps.refl, foldl_keeps, ite_keeps, foldl1_keeps, id_eq]; done) | with_reducible (refine ite_keeps ?_ ?_) | split | (try dsimp only; first | with_reducible (apply cmpGoCmd_keeps) | with_reducible (apply keeps_mk))

theorem execDecodeJobGo_keeps (i : Nat) (acc : Acc) {s s' : State} (e : execDecodeJobGo i acc s = .next s') : Keeps s s' := by
  unfold execDecodeJobGo at e; injection e with e; rw [← e]; repeat' first | (simp (maxDischargeDepth := 60) only [cmpGoCmd_keeps, keeps_mk, implies_true, Keeps.refl, foldl_keeps, ite_keeps, foldl1_keeps, id_eq]; done) | with_reducible (refine ite_keeps ?_ ?_) | split | (try dsimp only; first | with_reducible (apply cmpGoCmd_keeps) | with_reducible (apply keeps_mk))

theorem execPorterHeadWrite_keeps (c : Nat) (acc : Acc) {s s' : State} (e : execPorterHeadWrite c acc s = .next s') : Keeps s s' := by
  unfold execPorterHeadWrite at e; injection e with e; rw [← e]; repeat' first | (simp (maxDischargeDepth := 60) only [portWrite_keeps, cmpWrite_keeps, keeps_mk, implies_true, Keeps.refl, foldl_keeps, ite_keeps, foldl1_keeps, id_eq]; done) | with_reducible (refine ite_keeps ?_ ?_) | split | (try dsimp only; first | with_reducible (apply portWrite_keeps) | with_reducible (apply cmpWrite_keeps) | with_reducible (apply keeps_mk))

theorem execPorterChannelConfigWrite_keeps (c : Nat) (size : Bool) (acc : Acc) {s s' : State} (e : execPorterChannelConfigWrite c size acc s = .next s') : Keeps s s' := by
  unfold execPorterChannelConfigWrite at e; injection e with e; rw [← e]; repeat' first | (simp (maxDischargeDepth := 60) only [portWrite_keeps, cmpWrite_keeps, keeps_mk, implies_true, Keeps.refl, foldl_keeps, ite_keeps, foldl1_keeps, id_eq]; done) | with_reducible (refine ite_keeps ?_ ?_) | split | (try dsimp only; first | with_reducible (apply portWrite_keeps) | with_reducible (apply cmpWrite_keeps) | with_reducible (apply keeps_mk))

theorem execPorterResume_keeps (c : Nat) (acc : Acc) {s s' : State} (e : execPorterResume c acc s = .next s') : Keeps s s' := by
  unfold execPorterResume at e; injection e with e; rw [← e]; repeat' first | (simp (maxDischargeDepth := 60) only [portWrite_keeps, cmpWrite_keeps, keeps_mk, implies_true, Keeps.refl, foldl_keeps, ite_keeps, foldl1_keeps, id_eq]; done) | with_reducible (refine ite_keeps ?_ ?_) | split | (try dsimp only; first | with_reducible (apply portWrite_keeps) | with_reducible (apply cmpWrite_keeps) | with_reducible (apply keeps_mk))

theorem execFaultMarkExpire_keeps (a : Nat) {s s' : State} (e : execFaultMarkExpire a s = .next s') : Keeps s s' := by
  unfold execFaultMarkExpire at e; injection e with e; rw [← e]; repeat' first | (simp (maxDischargeDepth := 60) only [markExpire_keeps, keeps_mk, implies_true, Keeps.refl, foldl_keeps, ite_keeps, foldl1_keeps, id_eq]; done) | with_reducible (refine ite_keeps ?_ ?_) | split | (try dsimp only; first | with_reducible (apply markExpire_keeps) | with_reducible (apply keeps_mk))

theorem execDetectorEvaluate_keeps {s s' : State} (e : execDetectorEvaluate s = .next s') : Keeps s s' := by
  unfold execDetectorEvaluate at e; injection e with e; rw [← e]; repeat' first | (simp (maxDischargeDepth := 60) only [detEval_keeps, keeps_mk, implies_true, Keeps.refl, foldl_keeps, ite_keeps, foldl1_keeps, id_eq]; done) | with_reducible (refine ite_keeps ?_ ?_) | split | (try dsimp only; first | with_reducible (apply detEval_keeps) | with_reducible (apply keeps_mk))

theorem execBcastReceive_keeps {s s' : State} (e : execBcastReceive s = .next s') : Keeps s s' := by
  unfold execBcastReceive at e; injection e with e; rw [← e]; repeat' first | (simp (maxDischargeDepth := 60) only [bcastReceive_keeps, keeps_mk, implies_true, Keeps.refl, foldl_keeps, ite_keeps, foldl1_keeps, id_eq]; done) | with_reducible (refine ite_keeps ?_ ?_) | split | (try dsimp only; first | with_reducible (apply bcastReceive_keeps) | with_reducible (apply keeps_mk))

theorem execDetectorRefWrite_keeps (d : Nat) (acc : Acc) {s s' : State} (e : execDetectorRefWrite d acc s = .next s') : Keeps s s' := by
  unfold execDetectorRefWrite at e; injection e with e; rw [← e]; repeat' first | (simp (maxDischargeDepth := 60) only [portWrite_keeps, detWrite_keeps, keeps_mk, implies_true, Keeps.refl, foldl_keeps, ite_keeps, foldl1_keeps, id_eq]; done) | with_reducible (refine ite_keeps ?_ ?_) | split | (try dsimp only; first | with_reducible (apply portWrite_keeps) | with_reducible (apply detWrite_keeps) | with_reducible (apply keeps_mk))

theorem execArrayPassDone_keeps (a : Nat) (cycles : Nat) (residue : Option Bool) (ecc : Option Nat) {s s' : State} (e : execArrayPassDone a cycles residue ecc s = .next s') : Keeps s s' := by
  unfold execArrayPassDone at e; injection e with e; rw [← e]; repeat' first | (simp (maxDischargeDepth := 60) only [passDone_keeps, keeps_mk, implies_true, Keeps.refl, foldl_keeps, ite_keeps, foldl1_keeps, id_eq]; done) | with_reducible (refine ite_keeps ?_ ?_) | split | (try dsimp only; first | with_reducible (apply passDone_keeps) | with_reducible (apply keeps_mk))

theorem execArrayJobGo_keeps (i : Nat) (acc : Acc) {s s' : State} (e : execArrayJobGo i acc s = .next s') : Keeps s s' := by
  unfold execArrayJobGo at e; injection e with e; rw [← e]; repeat' first | (simp (maxDischargeDepth := 60) only [portWrite_keeps, arrWrite_keeps, keeps_mk, implies_true, Keeps.refl, foldl_keeps, ite_keeps, foldl1_keeps, id_eq]; done) | with_reducible (refine ite_keeps ?_ ?_) | split | (try dsimp only; first | with_reducible (apply portWrite_keeps) | with_reducible (apply arrWrite_keeps) | with_reducible (apply keeps_mk))

theorem execSeedBundleSend_keeps {s s' : State} (e : execSeedBundleSend s = .next s') : Keeps s s' := by
  unfold execSeedBundleSend at e; injection e with e; rw [← e]; repeat' first | (simp (maxDischargeDepth := 60) only [seedSend_keeps, keeps_mk, implies_true, Keeps.refl, foldl_keeps, ite_keeps, foldl1_keeps, id_eq]; done) | with_reducible (refine ite_keeps ?_ ?_) | split | (try dsimp only; first | with_reducible (apply seedSend_keeps) | with_reducible (apply keeps_mk))

theorem execSeedAck_keeps {s s' : State} (e : execSeedAck s = .next s') : Keeps s s' := by
  unfold execSeedAck at e; injection e with e; rw [← e]; repeat' first | (simp (maxDischargeDepth := 60) only [seedAck_keeps, keeps_mk, implies_true, Keeps.refl, foldl_keeps, ite_keeps, foldl1_keeps, id_eq]; done) | with_reducible (refine ite_keeps ?_ ?_) | split | (try dsimp only; first | with_reducible (apply seedAck_keeps) | with_reducible (apply keeps_mk))

theorem execSeedAckTimeout_keeps {s s' : State} (e : execSeedAckTimeout s = .next s') : Keeps s s' := by
  unfold execSeedAckTimeout at e; injection e with e; rw [← e]; repeat' first | (simp (maxDischargeDepth := 60) only [seedAckTimeout_keeps, keeps_mk, implies_true, Keeps.refl, foldl_keeps, ite_keeps, foldl1_keeps, id_eq]; done) | with_reducible (refine ite_keeps ?_ ?_) | split | (try dsimp only; first | with_reducible (apply seedAckTimeout_keeps) | with_reducible (apply keeps_mk))

theorem execVerifyReferenceDone_keeps (errs : List (Nat × Nat × Nat)) {s s' : State} (e : execVerifyReferenceDone errs s = .next s') : Keeps s s' := by
  unfold execVerifyReferenceDone at e; injection e with e; rw [← e]; repeat' first | (simp (maxDischargeDepth := 60) only [referenceDone_keeps, keeps_mk, implies_true, Keeps.refl, foldl_keeps, ite_keeps, foldl1_keeps, id_eq]; done) | with_reducible (refine ite_keeps ?_ ?_) | split | (try dsimp only; first | with_reducible (apply referenceDone_keeps) | with_reducible (apply keeps_mk))

theorem execWitnessAccountingClose_keeps {s s' : State} (e : execWitnessAccountingClose s = .next s') : Keeps s s' := by
  unfold execWitnessAccountingClose at e; injection e with e; rw [← e]; repeat' first | (simp (maxDischargeDepth := 60) only [accountClose_keeps, keeps_mk, implies_true, Keeps.refl, foldl_keeps, ite_keeps, foldl1_keeps, id_eq]; done) | with_reducible (refine ite_keeps ?_ ?_) | split | (try dsimp only; first | with_reducible (apply accountClose_keeps) | with_reducible (apply keeps_mk))

theorem execWitnessReceive_keeps {s s' : State} (e : execWitnessReceive s = .next s') : Keeps s s' := by
  unfold execWitnessReceive at e; injection e with e; rw [← e]; repeat' first | (simp (maxDischargeDepth := 60) only [witnessReceive_keeps, keeps_mk, implies_true, Keeps.refl, foldl_keeps, ite_keeps, foldl1_keeps, id_eq]; done) | with_reducible (refine ite_keeps ?_ ?_) | split | (try dsimp only; first | with_reducible (apply witnessReceive_keeps) | with_reducible (apply keeps_mk))

theorem execSubjectObserve_keeps (i : Nat) (acc : Acc) {s s' : State} (e : execSubjectObserve i acc s = .next s') : Keeps s s' := by
  unfold execSubjectObserve at e; injection e with e; rw [← e]; repeat' first | (simp (maxDischargeDepth := 60) only [portWrite_keeps, verWrite_keeps, keeps_mk, implies_true, Keeps.refl, foldl_keeps, ite_keeps, foldl1_keeps, id_eq]; done) | with_reducible (refine ite_keeps ?_ ?_) | split | (try dsimp only; first | with_reducible (apply portWrite_keeps) | with_reducible (apply verWrite_keeps) | with_reducible (apply keeps_mk))

theorem execSubjectClear_keeps (i : Nat) (acc : Acc) {s s' : State} (e : execSubjectClear i acc s = .next s') : Keeps s s' := by
  unfold execSubjectClear at e; injection e with e; rw [← e]; repeat' first | (simp (maxDischargeDepth := 60) only [portWrite_keeps, verWrite_keeps, keeps_mk, implies_true, Keeps.refl, foldl_keeps, ite_keeps, foldl1_keeps, id_eq]; done) | with_reducible (refine ite_keeps ?_ ?_) | split | (try dsimp only; first | with_reducible (apply portWrite_keeps) | with_reducible (apply verWrite_keeps) | with_reducible (apply keeps_mk))

theorem execAttentionPulse_keeps {s s' : State} (e : execAttentionPulse s = .next s') : Keeps s s' := by
  unfold execAttentionPulse at e; injection e with e; rw [← e]; repeat' first | (simp (maxDischargeDepth := 60) only [attention_keeps, wake_keeps, keeps_mk, implies_true, Keeps.refl, foldl_keeps, ite_keeps, foldl1_keeps, id_eq]; done) | with_reducible (refine ite_keeps ?_ ?_) | split | (try dsimp only; first | with_reducible (apply attention_keeps) | with_reducible (apply wake_keeps) | with_reducible (apply keeps_mk))

theorem execTallySample_keeps (slot : Nat) (acc : Acc) (buf : Option (List Byte)) {s s' : State} (e : execTallySample slot acc buf s = .next s') : Keeps s s' := by
  unfold execTallySample at e; injection e with e; rw [← e]; repeat' first | (simp (maxDischargeDepth := 60) only [cwRow_keeps, keeps_mk, implies_true, Keeps.refl, foldl_keeps, ite_keeps, foldl1_keeps, id_eq]; done) | with_reducible (refine ite_keeps ?_ ?_) | split | (try dsimp only; first | with_reducible (apply cwRow_keeps) | with_reducible (apply keeps_mk))

theorem execCaravanPayload_keeps (slot : Nat) (acc : Acc) (buf : Option (List Byte)) {s s' : State} (e : execCaravanPayload slot acc buf s = .next s') : Keeps s s' := by
  unfold execCaravanPayload at e; injection e with e; rw [← e]; repeat' first | (simp (maxDischargeDepth := 60) only [cwRow_keeps, keeps_mk, implies_true, Keeps.refl, foldl_keeps, ite_keeps, foldl1_keeps, id_eq]; done) | with_reducible (refine ite_keeps ?_ ?_) | split | (try dsimp only; first | with_reducible (apply cwRow_keeps) | with_reducible (apply keeps_mk))

theorem execPtpStamps_keeps (slot : Nat) (acc : Acc) {s s' : State} (e : execPtpStamps slot acc s = .next s') : Keeps s s' := by
  unfold execPtpStamps at e; injection e with e; rw [← e]; repeat' first | (simp (maxDischargeDepth := 60) only [cwRow_keeps, keeps_mk, implies_true, Keeps.refl, foldl_keeps, ite_keeps, foldl1_keeps, id_eq]; done) | with_reducible (refine ite_keeps ?_ ?_) | split | (try dsimp only; first | with_reducible (apply cwRow_keeps) | with_reducible (apply keeps_mk))

theorem execScores_keeps (slot : Nat) (acc : Acc) {s s' : State} (e : execScores slot acc s = .next s') : Keeps s s' := by
  unfold execScores at e; injection e with e; rw [← e]; repeat' first | (simp (maxDischargeDepth := 60) only [cwRow_keeps, keeps_mk, implies_true, Keeps.refl, foldl_keeps, ite_keeps, foldl1_keeps, id_eq]; done) | with_reducible (refine ite_keeps ?_ ?_) | split | (try dsimp only; first | with_reducible (apply cwRow_keeps) | with_reducible (apply keeps_mk))

theorem execVerifyOutcome_keeps (slot : Nat) (acc : Acc) {s s' : State} (e : execVerifyOutcome slot acc s = .next s') : Keeps s s' := by
  unfold execVerifyOutcome at e; injection e with e; rw [← e]; repeat' first | (simp (maxDischargeDepth := 60) only [cwRow_keeps, keeps_mk, implies_true, Keeps.refl, foldl_keeps, ite_keeps, foldl1_keeps, id_eq]; done) | with_reducible (refine ite_keeps ?_ ?_) | split | (try dsimp only; first | with_reducible (apply cwRow_keeps) | with_reducible (apply keeps_mk))

theorem execParityReady_keeps (slot : Nat) (acc : Acc) {s s' : State} (e : execParityReady slot acc s = .next s') : Keeps s s' := by
  unfold execParityReady at e; injection e with e; rw [← e]; repeat' first | (simp (maxDischargeDepth := 60) only [cwRow_keeps, keeps_mk, implies_true, Keeps.refl, foldl_keeps, ite_keeps, foldl1_keeps, id_eq]; done) | with_reducible (refine ite_keeps ?_ ?_) | split | (try dsimp only; first | with_reducible (apply cwRow_keeps) | with_reducible (apply keeps_mk))

theorem execCwBadOp_keeps (slot : Nat) (acc : Acc) {s s' : State} (e : execCwBadOp slot acc s = .next s') : Keeps s s' := by
  unfold execCwBadOp at e; injection e with e; rw [← e]; repeat' first | (simp (maxDischargeDepth := 60) only [cwRow_keeps, keeps_mk, implies_true, Keeps.refl, foldl_keeps, ite_keeps, foldl1_keeps, id_eq]; done) | with_reducible (refine ite_keeps ?_ ?_) | split | (try dsimp only; first | with_reducible (apply cwRow_keeps) | with_reducible (apply keeps_mk))

theorem execCwFirmwareOp_keeps (slot : Nat) (acc : Option Acc) (ans : Option (Nat × Word × Word × Word)) {s s' : State} (e : execCwFirmwareOp slot acc ans s = .next s') : Keeps s s' := by
  unfold execCwFirmwareOp at e; injection e with e; rw [← e]; repeat' first | (simp (maxDischargeDepth := 60) only [cwRow_keeps, cwAnswer_keeps, keeps_mk, implies_true, Keeps.refl, foldl_keeps, ite_keeps, foldl1_keeps, id_eq]; done) | with_reducible (refine ite_keeps ?_ ?_) | split | (try dsimp only; first | with_reducible (apply cwRow_keeps) | with_reducible (apply cwAnswer_keeps) | with_reducible (apply keeps_mk))

theorem execKspRead_keeps (acc : Acc) {s s' : State} (e : execKspRead acc s = .next s') : Keeps s s' := by
  unfold execKspRead at e; injection e with e; rw [← e]; repeat' first | (simp (maxDischargeDepth := 60) only [kspRow_keeps, keeps_mk, implies_true, Keeps.refl, foldl_keeps, ite_keeps, foldl1_keeps, id_eq]; done) | with_reducible (refine ite_keeps ?_ ?_) | split | (try dsimp only; first | with_reducible (apply kspRow_keeps) | with_reducible (apply keeps_mk))

theorem execKspPageProgram_keeps (acc : Acc) {s s' : State} (e : execKspPageProgram acc s = .next s') : Keeps s s' := by
  unfold execKspPageProgram at e; injection e with e; rw [← e]; repeat' first | (simp (maxDischargeDepth := 60) only [kspRow_keeps, keeps_mk, implies_true, Keeps.refl, foldl_keeps, ite_keeps, foldl1_keeps, id_eq]; done) | with_reducible (refine ite_keeps ?_ ?_) | split | (try dsimp only; first | with_reducible (apply kspRow_keeps) | with_reducible (apply keeps_mk))

theorem execKspSectorErase_keeps (acc : Acc) {s s' : State} (e : execKspSectorErase acc s = .next s') : Keeps s s' := by
  unfold execKspSectorErase at e; injection e with e; rw [← e]; repeat' first | (simp (maxDischargeDepth := 60) only [kspRow_keeps, keeps_mk, implies_true, Keeps.refl, foldl_keeps, ite_keeps, foldl1_keeps, id_eq]; done) | with_reducible (refine ite_keeps ?_ ?_) | split | (try dsimp only; first | with_reducible (apply kspRow_keeps) | with_reducible (apply keeps_mk))

theorem execKspReadStatus_keeps (acc : Acc) {s s' : State} (e : execKspReadStatus acc s = .next s') : Keeps s s' := by
  unfold execKspReadStatus at e; injection e with e; rw [← e]; repeat' first | (simp (maxDischargeDepth := 60) only [kspRow_keeps, keeps_mk, implies_true, Keeps.refl, foldl_keeps, ite_keeps, foldl1_keeps, id_eq]; done) | with_reducible (refine ite_keeps ?_ ?_) | split | (try dsimp only; first | with_reducible (apply kspRow_keeps) | with_reducible (apply keeps_mk))

theorem execKspCmdDone_keeps (present : Bool) (bytes : List Byte) {s s' : State} (e : execKspCmdDone present bytes s = .next s') : Keeps s s' := by
  unfold execKspCmdDone at e; injection e with e; rw [← e]; repeat' first | (simp (maxDischargeDepth := 60) only [kspDone_keeps, keeps_mk, implies_true, Keeps.refl, foldl_keeps, ite_keeps, foldl1_keeps, id_eq]; done) | with_reducible (refine ite_keeps ?_ ?_) | split | (try dsimp only; first | with_reducible (apply kspDone_keeps) | with_reducible (apply keeps_mk))

theorem execKspPollDone_keeps (err : Bool) {s s' : State} (e : execKspPollDone err s = .next s') : Keeps s s' := by
  unfold execKspPollDone at e; injection e with e; rw [← e]; repeat' first | (simp (maxDischargeDepth := 60) only [kspPoll_keeps, keeps_mk, implies_true, Keeps.refl, foldl_keeps, ite_keeps, foldl1_keeps, id_eq]; done) | with_reducible (refine ite_keeps ?_ ?_) | split | (try dsimp only; first | with_reducible (apply kspPoll_keeps) | with_reducible (apply keeps_mk))

theorem execKspPollTimeout_keeps {s s' : State} (e : execKspPollTimeout s = .next s') : Keeps s s' := by
  unfold execKspPollTimeout at e; injection e with e; rw [← e]; repeat' first | (simp (maxDischargeDepth := 60) only [kspPollTimeout_keeps, keeps_mk, implies_true, Keeps.refl, foldl_keeps, ite_keeps, foldl1_keeps, id_eq]; done) | with_reducible (refine ite_keeps ?_ ?_) | split | (try dsimp only; first | with_reducible (apply kspPollTimeout_keeps) | with_reducible (apply keeps_mk))

theorem execKspResetRelease_keeps {s s' : State} (e : execKspResetRelease s = .next s') : Keeps s s' := by
  unfold execKspResetRelease at e; injection e with e; rw [← e]; repeat' first | (simp (maxDischargeDepth := 60) only [kspResetRelease_keeps, keeps_mk, implies_true, Keeps.refl, foldl_keeps, ite_keeps, foldl1_keeps, id_eq]; done) | with_reducible (refine ite_keeps ?_ ?_) | split | (try dsimp only; first | with_reducible (apply kspResetRelease_keeps) | with_reducible (apply keeps_mk))

theorem execTraceArm_keeps (acc : Acc) {s s' : State} (e : execTraceArm acc s = .next s') : Keeps s s' := by
  unfold execTraceArm at e; injection e with e; rw [← e]; repeat' first | (simp (maxDischargeDepth := 60) only [portWrite_keeps, ltnWrite_keeps, keeps_mk, implies_true, Keeps.refl, foldl_keeps, ite_keeps, foldl1_keeps, id_eq]; done) | with_reducible (refine ite_keeps ?_ ?_) | split | (try dsimp only; first | with_reducible (apply portWrite_keeps) | with_reducible (apply ltnWrite_keeps) | with_reducible (apply keeps_mk))

theorem execTraceSoft_keeps (acc : Acc) {s s' : State} (e : execTraceSoft acc s = .next s') : Keeps s s' := by
  unfold execTraceSoft at e; injection e with e; rw [← e]; repeat' first | (simp (maxDischargeDepth := 60) only [portWrite_keeps, ltnWrite_keeps, keeps_mk, implies_true, Keeps.refl, foldl_keeps, ite_keeps, foldl1_keeps, id_eq]; done) | with_reducible (refine ite_keeps ?_ ?_) | split | (try dsimp only; first | with_reducible (apply portWrite_keeps) | with_reducible (apply ltnWrite_keeps) | with_reducible (apply keeps_mk))

theorem execTraceTimeComparator_keeps (x : Nat) {s s' : State} (e : execTraceTimeComparator x s = .next s') : Keeps s s' := by
  unfold execTraceTimeComparator at e; injection e with e; rw [← e]; repeat' first | (simp (maxDischargeDepth := 60) only [timeComparator_keeps, keeps_mk, implies_true, Keeps.refl, foldl_keeps, ite_keeps, foldl1_keeps, id_eq]; done) | with_reducible (refine ite_keeps ?_ ?_) | split | (try dsimp only; first | with_reducible (apply timeComparator_keeps) | with_reducible (apply keeps_mk))

theorem execAuthVerifyDone_keeps {s s' : State} (e : execAuthVerifyDone s = .next s') : Keeps s s' := by
  unfold execAuthVerifyDone at e; injection e with e; rw [← e]; repeat' first | (simp (maxDischargeDepth := 60) only [authDone_keeps, keeps_mk, implies_true, Keeps.refl, foldl_keeps, ite_keeps, foldl1_keeps, id_eq]; done) | with_reducible (refine ite_keeps ?_ ?_) | split | (try dsimp only; first | with_reducible (apply authDone_keeps) | with_reducible (apply keeps_mk))

theorem execAuthLapse_keeps {s s' : State} (e : execAuthLapse s = .next s') : Keeps s s' := by
  unfold execAuthLapse at e; injection e with e; rw [← e]; repeat' first | (simp (maxDischargeDepth := 60) only [authTime_keeps, keeps_mk, implies_true, Keeps.refl, foldl_keeps, ite_keeps, foldl1_keeps, id_eq]; done) | with_reducible (refine ite_keeps ?_ ?_) | split | (try dsimp only; first | with_reducible (apply authTime_keeps) | with_reducible (apply keeps_mk))

theorem execAuthInstallStart_keeps (acc : Acc) {s s' : State} (e : execAuthInstallStart acc s = .next s') : Keeps s s' := by
  unfold execAuthInstallStart at e; injection e with e; rw [← e]; repeat' first | (simp (maxDischargeDepth := 60) only [portWrite_keeps, dbgWrite_keeps, keeps_mk, implies_true, Keeps.refl, foldl_keeps, ite_keeps, foldl1_keeps, id_eq]; done) | with_reducible (refine ite_keeps ?_ ?_) | split | (try dsimp only; first | with_reducible (apply portWrite_keeps) | with_reducible (apply dbgWrite_keeps) | with_reducible (apply keeps_mk))

theorem execAuthData_keeps (acc : Acc) {s s' : State} (e : execAuthData acc s = .next s') : Keeps s s' := by
  unfold execAuthData at e; injection e with e; rw [← e]; repeat' first | (simp (maxDischargeDepth := 60) only [portWrite_keeps, dbgWrite_keeps, keeps_mk, implies_true, Keeps.refl, foldl_keeps, ite_keeps, foldl1_keeps, id_eq]; done) | with_reducible (refine ite_keeps ?_ ?_) | split | (try dsimp only; first | with_reducible (apply portWrite_keeps) | with_reducible (apply dbgWrite_keeps) | with_reducible (apply keeps_mk))

theorem execAuthRevoke_keeps (acc : Acc) {s s' : State} (e : execAuthRevoke acc s = .next s') : Keeps s s' := by
  unfold execAuthRevoke at e; injection e with e; rw [← e]; repeat' first | (simp (maxDischargeDepth := 60) only [portWrite_keeps, dbgWrite_keeps, keeps_mk, implies_true, Keeps.refl, foldl_keeps, ite_keeps, foldl1_keeps, id_eq]; done) | with_reducible (refine ite_keeps ?_ ?_) | split | (try dsimp only; first | with_reducible (apply portWrite_keeps) | with_reducible (apply dbgWrite_keeps) | with_reducible (apply keeps_mk))

theorem execCoreHalt_keeps (acc : Acc) {s s' : State} (e : execCoreHalt acc s = .next s') : Keeps s s' := by
  unfold execCoreHalt at e; injection e with e; rw [← e]; repeat' first | (simp (maxDischargeDepth := 60) only [portWrite_keeps, dbgWrite_keeps, keeps_mk, implies_true, Keeps.refl, foldl_keeps, ite_keeps, foldl1_keeps, id_eq]; done) | with_reducible (refine ite_keeps ?_ ?_) | split | (try dsimp only; first | with_reducible (apply portWrite_keeps) | with_reducible (apply dbgWrite_keeps) | with_reducible (apply keeps_mk))

theorem execCoreStep_keeps (acc : Acc) (len : Nat) (next : Nat) (trap : Option (Word × Word)) (xs : List (Nat × Word)) {s s' : State} (e : execCoreStep acc len next trap xs s = .next s') : Keeps s s' := by
  unfold execCoreStep at e; injection e with e; rw [← e]; repeat' first | (simp (maxDischargeDepth := 60) only [bringing_keeps, portWrite_keeps, dbgWrite_keeps, keeps_mk, implies_true, Keeps.refl, foldl_keeps, ite_keeps, foldl1_keeps, id_eq]; done) | with_reducible (refine ite_keeps ?_ ?_) | split | (try dsimp only; first | with_reducible (apply bringing_keeps) | with_reducible (apply portWrite_keeps) | with_reducible (apply dbgWrite_keeps) | with_reducible (apply keeps_mk))

theorem execCoreResume_keeps (acc : Acc) {s s' : State} (e : execCoreResume acc s = .next s') : Keeps s s' := by
  unfold execCoreResume at e; injection e with e; rw [← e]; repeat' first | (simp (maxDischargeDepth := 60) only [portWrite_keeps, dbgWrite_keeps, keeps_mk, implies_true, Keeps.refl, foldl_keeps, ite_keeps, foldl1_keeps, id_eq]; done) | with_reducible (refine ite_keeps ?_ ?_) | split | (try dsimp only; first | with_reducible (apply portWrite_keeps) | with_reducible (apply dbgWrite_keeps) | with_reducible (apply keeps_mk))

theorem execTraceInstruction_keeps (c : Nat) (pc : Nat) (len : Nat) (next : Nat) (trap : Option (Word × Word)) {s s' : State} (e : execTraceInstruction c pc len next trap s = .next s') : Keeps s s' := by
  unfold execTraceInstruction at e; injection e with e; rw [← e]; repeat' first | (simp (maxDischargeDepth := 60) only [instruction_keeps, keeps_mk, implies_true, Keeps.refl, foldl_keeps, ite_keeps, foldl1_keeps, id_eq]; done) | with_reducible (refine ite_keeps ?_ ?_) | split | (try dsimp only; first | with_reducible (apply instruction_keeps) | with_reducible (apply keeps_mk))

theorem execFirmwareLoad_keeps (slotA : Option (List Byte)) (slotB : Option (List Byte)) {s s' : State} (e : execFirmwareLoad slotA slotB s = .next s') : Keeps s s' := by
  unfold execFirmwareLoad at e; injection e with e; rw [← e]; repeat' first | (simp (maxDischargeDepth := 60) only [firmwareLoad_keeps, keeps_mk, implies_true, Keeps.refl, foldl_keeps, ite_keeps, foldl1_keeps, id_eq]; done) | with_reducible (refine ite_keeps ?_ ?_) | split | (try dsimp only; first | with_reducible (apply firmwareLoad_keeps) | with_reducible (apply keeps_mk))

theorem execFirmwareStageDone_keeps (img : Option (List Byte)) {s s' : State} (e : execFirmwareStageDone img s = .next s') : Keeps s s' := by
  unfold execFirmwareStageDone at e; injection e with e; rw [← e]; repeat' first | (simp (maxDischargeDepth := 60) only [stageDone_keeps, keeps_mk, implies_true, Keeps.refl, foldl_keeps, ite_keeps, foldl1_keeps, id_eq]; done) | with_reducible (refine ite_keeps ?_ ?_) | split | (try dsimp only; first | with_reducible (apply stageDone_keeps) | with_reducible (apply keeps_mk))

theorem execSwitchReq_keeps {s s' : State} (e : execSwitchReq s = .next s') : Keeps s s' := by
  unfold execSwitchReq at e; injection e with e; rw [← e]; repeat' first | (simp (maxDischargeDepth := 60) only [switchReq_keeps, keeps_mk, implies_true, Keeps.refl, foldl_keeps, ite_keeps, foldl1_keeps, id_eq]; done) | with_reducible (refine ite_keeps ?_ ?_) | split | (try dsimp only; first | with_reducible (apply switchReq_keeps) | with_reducible (apply keeps_mk))

theorem execFirmwareSwitchTimeout_keeps {s s' : State} (e : execFirmwareSwitchTimeout s = .next s') : Keeps s s' := by
  unfold execFirmwareSwitchTimeout at e; injection e with e; rw [← e]; repeat' first | (simp (maxDischargeDepth := 60) only [switchTimeout_keeps, keeps_mk, implies_true, Keeps.refl, foldl_keeps, ite_keeps, foldl1_keeps, id_eq]; done) | with_reducible (refine ite_keeps ?_ ?_) | split | (try dsimp only; first | with_reducible (apply switchTimeout_keeps) | with_reducible (apply keeps_mk))

theorem execCoreHaltEcc_keeps (c : Nat) {s s' : State} (e : execCoreHaltEcc c s = .next s') : Keeps s s' := by
  unfold execCoreHaltEcc at e; injection e with e; rw [← e]; repeat' first | (simp (maxDischargeDepth := 60) only [coreHaltEcc_keeps, keeps_mk, implies_true, Keeps.refl, foldl_keeps, ite_keeps, foldl1_keeps, id_eq]; done) | with_reducible (refine ite_keeps ?_ ?_) | split | (try dsimp only; first | with_reducible (apply coreHaltEcc_keeps) | with_reducible (apply keeps_mk))

theorem execModeSwitchFlip_keeps (buf : Option (List Byte)) {s s' : State} (e : execModeSwitchFlip buf s = .next s') : Keeps s s' := by
  unfold execModeSwitchFlip at e; injection e with e; rw [← e]; repeat' first | (simp (maxDischargeDepth := 60) only [modeFlip_keeps, keeps_mk, implies_true, Keeps.refl, foldl_keeps, ite_keeps, foldl1_keeps, id_eq]; done) | with_reducible (refine ite_keeps ?_ ?_) | split | (try dsimp only; first | with_reducible (apply modeFlip_keeps) | with_reducible (apply keeps_mk))

theorem execModeSwitchTimeout_keeps {s s' : State} (e : execModeSwitchTimeout s = .next s') : Keeps s s' := by
  unfold execModeSwitchTimeout at e; injection e with e; rw [← e]; repeat' first | (simp (maxDischargeDepth := 60) only [modeTimeout_keeps, keeps_mk, implies_true, Keeps.refl, foldl_keeps, ite_keeps, foldl1_keeps, id_eq]; done) | with_reducible (refine ite_keeps ?_ ?_) | split | (try dsimp only; first | with_reducible (apply modeTimeout_keeps) | with_reducible (apply keeps_mk))

theorem execFirmwareStage_keeps (acc : Acc) {s s' : State} (e : execFirmwareStage acc s = .next s') : Keeps s s' := by
  unfold execFirmwareStage at e; injection e with e; rw [← e]; repeat' first | (simp (maxDischargeDepth := 60) only [portWrite_keeps, ctlWrite_keeps, keeps_mk, implies_true, Keeps.refl, foldl_keeps, ite_keeps, foldl1_keeps, id_eq]; done) | with_reducible (refine ite_keeps ?_ ?_) | split | (try dsimp only; first | with_reducible (apply portWrite_keeps) | with_reducible (apply ctlWrite_keeps) | with_reducible (apply keeps_mk))

theorem execFirmwareSwitch_keeps (acc : Acc) {s s' : State} (e : execFirmwareSwitch acc s = .next s') : Keeps s s' := by
  unfold execFirmwareSwitch at e; injection e with e; rw [← e]; repeat' first | (simp (maxDischargeDepth := 60) only [portWrite_keeps, ctlWrite_keeps, keeps_mk, implies_true, Keeps.refl, foldl_keeps, ite_keeps, foldl1_keeps, id_eq]; done) | with_reducible (refine ite_keeps ?_ ?_) | split | (try dsimp only; first | with_reducible (apply portWrite_keeps) | with_reducible (apply ctlWrite_keeps) | with_reducible (apply keeps_mk))

theorem execFirmwareReady_keeps (acc : Acc) {s s' : State} (e : execFirmwareReady acc s = .next s') : Keeps s s' := by
  unfold execFirmwareReady at e; injection e with e; rw [← e]; repeat' first | (simp (maxDischargeDepth := 60) only [portWrite_keeps, ctlWrite_keeps, keeps_mk, implies_true, Keeps.refl, foldl_keeps, ite_keeps, foldl1_keeps, id_eq]; done) | with_reducible (refine ite_keeps ?_ ?_) | split | (try dsimp only; first | with_reducible (apply portWrite_keeps) | with_reducible (apply ctlWrite_keeps) | with_reducible (apply keeps_mk))

theorem execModeSwitch_keeps (acc : Acc) {s s' : State} (e : execModeSwitch acc s = .next s') : Keeps s s' := by
  unfold execModeSwitch at e; injection e with e; rw [← e]; repeat' first | (simp (maxDischargeDepth := 60) only [portWrite_keeps, ctlWrite_keeps, keeps_mk, implies_true, Keeps.refl, foldl_keeps, ite_keeps, foldl1_keeps, id_eq]; done) | with_reducible (refine ite_keeps ?_ ?_) | split | (try dsimp only; first | with_reducible (apply portWrite_keeps) | with_reducible (apply ctlWrite_keeps) | with_reducible (apply keeps_mk))

theorem execGuestbookExport_keeps {s s' : State} (e : execGuestbookExport s = .next s') : Keeps s s' := by
  unfold execGuestbookExport at e; injection e with e; rw [← e]; repeat' first | (simp (maxDischargeDepth := 60) only [gbkExport_keeps, keeps_mk, implies_true, Keeps.refl, foldl_keeps, ite_keeps, foldl1_keeps, id_eq]; done) | with_reducible (refine ite_keeps ?_ ?_) | split | (try dsimp only; first | with_reducible (apply gbkExport_keeps) | with_reducible (apply keeps_mk))

theorem execGuestbookExportDone_keeps {s s' : State} (e : execGuestbookExportDone s = .next s') : Keeps s s' := by
  unfold execGuestbookExportDone at e; injection e with e; rw [← e]; repeat' first | (simp (maxDischargeDepth := 60) only [gbkExported_keeps, keeps_mk, implies_true, Keeps.refl, foldl_keeps, ite_keeps, foldl1_keeps, id_eq]; done) | with_reducible (refine ite_keeps ?_ ?_) | split | (try dsimp only; first | with_reducible (apply gbkExported_keeps) | with_reducible (apply keeps_mk))

theorem execGuestbookFlush_keeps (acc : Acc) {s s' : State} (e : execGuestbookFlush acc s = .next s') : Keeps s s' := by
  unfold execGuestbookFlush at e; injection e with e; rw [← e]; repeat' first | (simp (maxDischargeDepth := 60) only [portWrite_keeps, gbkWrite_keeps, keeps_mk, implies_true, Keeps.refl, foldl_keeps, ite_keeps, foldl1_keeps, id_eq]; done) | with_reducible (refine ite_keeps ?_ ?_) | split | (try dsimp only; first | with_reducible (apply portWrite_keeps) | with_reducible (apply gbkWrite_keeps) | with_reducible (apply keeps_mk))

theorem execVerdictAck_keeps (acc : Acc) {s s' : State} (e : execVerdictAck acc s = .next s') : Keeps s s' := by
  unfold execVerdictAck at e; injection e with e; rw [← e]; repeat' first | (simp (maxDischargeDepth := 60) only [portWrite_keeps, sbxWrite_keeps, keeps_mk, implies_true, Keeps.refl, foldl_keeps, ite_keeps, foldl1_keeps, id_eq]; done) | with_reducible (refine ite_keeps ?_ ?_) | split | (try dsimp only; first | with_reducible (apply portWrite_keeps) | with_reducible (apply sbxWrite_keeps) | with_reducible (apply keeps_mk))

theorem execPowerFailWarning_keeps (slotA : List Byte) (slotB : List Byte) {s s' : State} (e : execPowerFailWarning slotA slotB s = .next s') : Keeps s s' := by
  unfold execPowerFailWarning at e; injection e with e; rw [← e]; repeat' first | (simp (maxDischargeDepth := 60) only [powerFail_keeps, keeps_mk, implies_true, Keeps.refl, foldl_keeps, ite_keeps, foldl1_keeps, id_eq]; done) | with_reducible (refine ite_keeps ?_ ?_) | split | (try dsimp only; first | with_reducible (apply powerFail_keeps) | with_reducible (apply keeps_mk))

theorem execStrongboxSaveDone_keeps {s s' : State} (e : execStrongboxSaveDone s = .next s') : Keeps s s' := by
  unfold execStrongboxSaveDone at e; injection e with e; rw [← e]; repeat' first | (simp (maxDischargeDepth := 60) only [saveDone_keeps, keeps_mk, implies_true, Keeps.refl, foldl_keeps, ite_keeps, foldl1_keeps, id_eq]; done) | with_reducible (refine ite_keeps ?_ ?_) | split | (try dsimp only; first | with_reducible (apply saveDone_keeps) | with_reducible (apply keeps_mk))

theorem execSavePgFall_keeps {s s' : State} (e : execSavePgFall s = .next s') : Keeps s s' := by
  unfold execSavePgFall at e; injection e with e; rw [← e]; repeat' first | (simp (maxDischargeDepth := 60) only [savePgFall_keeps, keeps_mk, implies_true, Keeps.refl, foldl_keeps, ite_keeps, foldl1_keeps, id_eq]; done) | with_reducible (refine ite_keeps ?_ ?_) | split | (try dsimp only; first | with_reducible (apply savePgFall_keeps) | with_reducible (apply keeps_mk))

theorem execStrongboxRestore_keeps {s s' : State} (e : execStrongboxRestore s = .next s') : Keeps s s' := by
  unfold execStrongboxRestore at e; injection e with e; rw [← e]; repeat' first | (simp (maxDischargeDepth := 60) only [restoreStart_keeps, keeps_mk, implies_true, Keeps.refl, foldl_keeps, ite_keeps, foldl1_keeps, id_eq]; done) | with_reducible (refine ite_keeps ?_ ?_) | split | (try dsimp only; first | with_reducible (apply restoreStart_keeps) | with_reducible (apply keeps_mk))

theorem execStrongboxRestoreDone_keeps (slotA : List Byte) (slotB : List Byte) {s s' : State} (e : execStrongboxRestoreDone slotA slotB s = .next s') : Keeps s s' := by
  unfold execStrongboxRestoreDone at e; injection e with e; rw [← e]; repeat' first | (simp (maxDischargeDepth := 60) only [restoreDone_keeps, keeps_mk, implies_true, Keeps.refl, foldl_keeps, ite_keeps, foldl1_keeps, id_eq]; done) | with_reducible (refine ite_keeps ?_ ?_) | split | (try dsimp only; first | with_reducible (apply restoreDone_keeps) | with_reducible (apply keeps_mk))

theorem execPowerHoldComplete_keeps {s s' : State} (e : execPowerHoldComplete s = .next s') : Keeps s s' := by
  unfold execPowerHoldComplete at e; injection e with e; rw [← e]; repeat' first | (simp (maxDischargeDepth := 60) only [holdDone_keeps, keeps_mk, implies_true, Keeps.refl, foldl_keeps, ite_keeps, foldl1_keeps, id_eq]; done) | with_reducible (refine ite_keeps ?_ ?_) | split | (try dsimp only; first | with_reducible (apply holdDone_keeps) | with_reducible (apply keeps_mk))

theorem execPowerAskRetry_keeps {s s' : State} (e : execPowerAskRetry s = .next s') : Keeps s s' := by
  unfold execPowerAskRetry at e; injection e with e; rw [← e]; repeat' first | (simp (maxDischargeDepth := 60) only [askRetry_keeps, keeps_mk, implies_true, Keeps.refl, foldl_keeps, ite_keeps, foldl1_keeps, id_eq]; done) | with_reducible (refine ite_keeps ?_ ?_) | split | (try dsimp only; first | with_reducible (apply askRetry_keeps) | with_reducible (apply keeps_mk))

theorem execPowerEntryTimeout_keeps {s s' : State} (e : execPowerEntryTimeout s = .next s') : Keeps s s' := by
  unfold execPowerEntryTimeout at e; injection e with e; rw [← e]; repeat' first | (simp (maxDischargeDepth := 60) only [entryTimeout_keeps, keeps_mk, implies_true, Keeps.refl, foldl_keeps, ite_keeps, foldl1_keeps, id_eq]; done) | with_reducible (refine ite_keeps ?_ ?_) | split | (try dsimp only; first | with_reducible (apply entryTimeout_keeps) | with_reducible (apply keeps_mk))

theorem execWakeEvent_keeps (src : Nat) {s s' : State} (e : execWakeEvent src s = .next s') : Keeps s s' := by
  unfold execWakeEvent at e; injection e with e; rw [← e]; repeat' first | (simp (maxDischargeDepth := 60) only [wake_keeps, keeps_mk, implies_true, Keeps.refl, foldl_keeps, ite_keeps, foldl1_keeps, id_eq]; done) | with_reducible (refine ite_keeps ?_ ?_) | split | (try dsimp only; first | with_reducible (apply wake_keeps) | with_reducible (apply keeps_mk))

theorem execWakeTimer_keeps {s s' : State} (e : execWakeTimer s = .next s') : Keeps s s' := by
  unfold execWakeTimer at e; injection e with e; rw [← e]; repeat' first | (simp (maxDischargeDepth := 60) only [wakeTimer_keeps, keeps_mk, implies_true, Keeps.refl, foldl_keeps, ite_keeps, foldl1_keeps, id_eq]; done) | with_reducible (refine ite_keeps ?_ ?_) | split | (try dsimp only; first | with_reducible (apply wakeTimer_keeps) | with_reducible (apply keeps_mk))

theorem execPowerStateRequest_keeps (acc : Acc) {s s' : State} (e : execPowerStateRequest acc s = .next s') : Keeps s s' := by
  unfold execPowerStateRequest at e; injection e with e; rw [← e]; repeat' first | (simp (maxDischargeDepth := 60) only [portWrite_keeps, pwrWrite_keeps, keeps_mk, implies_true, Keeps.refl, foldl_keeps, ite_keeps, foldl1_keeps, id_eq]; done) | with_reducible (refine ite_keeps ?_ ?_) | split | (try dsimp only; first | with_reducible (apply portWrite_keeps) | with_reducible (apply pwrWrite_keeps) | with_reducible (apply keeps_mk))

theorem execCoreAck_keeps (acc : Acc) {s s' : State} (e : execCoreAck acc s = .next s') : Keeps s s' := by
  unfold execCoreAck at e; injection e with e; rw [← e]; repeat' first | (simp (maxDischargeDepth := 60) only [portWrite_keeps, pwrWrite_keeps, keeps_mk, implies_true, Keeps.refl, foldl_keeps, ite_keeps, foldl1_keeps, id_eq]; done) | with_reducible (refine ite_keeps ?_ ?_) | split | (try dsimp only; first | with_reducible (apply portWrite_keeps) | with_reducible (apply pwrWrite_keeps) | with_reducible (apply keeps_mk))

theorem execStepAsk_keeps (acc : Acc) {s s' : State} (e : execStepAsk acc s = .next s') : Keeps s s' := by
  unfold execStepAsk at e; injection e with e; rw [← e]; repeat' first | (simp (maxDischargeDepth := 60) only [stepWrite_keeps, keeps_mk, implies_true, Keeps.refl, foldl_keeps, ite_keeps, foldl1_keeps, id_eq]; done) | with_reducible (refine ite_keeps ?_ ?_) | split | (try dsimp only; first | with_reducible (apply stepWrite_keeps) | with_reducible (apply keeps_mk))

theorem execStepHold_keeps (acc : Acc) {s s' : State} (e : execStepHold acc s = .next s') : Keeps s s' := by
  unfold execStepHold at e; injection e with e; rw [← e]; repeat' first | (simp (maxDischargeDepth := 60) only [stepWrite_keeps, keeps_mk, implies_true, Keeps.refl, foldl_keeps, ite_keeps, foldl1_keeps, id_eq]; done) | with_reducible (refine ite_keeps ?_ ?_) | split | (try dsimp only; first | with_reducible (apply stepWrite_keeps) | with_reducible (apply keeps_mk))

theorem execStepGate_keeps (acc : Acc) {s s' : State} (e : execStepGate acc s = .next s') : Keeps s s' := by
  unfold execStepGate at e; injection e with e; rw [← e]; repeat' first | (simp (maxDischargeDepth := 60) only [stepWrite_keeps, keeps_mk, implies_true, Keeps.refl, foldl_keeps, ite_keeps, foldl1_keeps, id_eq]; done) | with_reducible (refine ite_keeps ?_ ?_) | split | (try dsimp only; first | with_reducible (apply stepWrite_keeps) | with_reducible (apply keeps_mk))

theorem execStepRelease_keeps (acc : Acc) {s s' : State} (e : execStepRelease acc s = .next s') : Keeps s s' := by
  unfold execStepRelease at e; injection e with e; rw [← e]; repeat' first | (simp (maxDischargeDepth := 60) only [stepWrite_keeps, keeps_mk, implies_true, Keeps.refl, foldl_keeps, ite_keeps, foldl1_keeps, id_eq]; done) | with_reducible (refine ite_keeps ?_ ?_) | split | (try dsimp only; first | with_reducible (apply stepWrite_keeps) | with_reducible (apply keeps_mk))

theorem execItineraryLoadStart_keeps (present : Bool) (hdrA : Option (List Byte)) (hdrB : Option (List Byte)) {s s' : State} (e : execItineraryLoadStart present hdrA hdrB s = .next s') : Keeps s s' := by
  unfold execItineraryLoadStart at e; injection e with e; rw [← e]; repeat' first | (simp (maxDischargeDepth := 60) only [loadStart_keeps, keeps_mk, implies_true, Keeps.refl, foldl_keeps, ite_keeps, foldl1_keeps, id_eq]; done) | with_reducible (refine ite_keeps ?_ ?_) | split | (try dsimp only; first | with_reducible (apply loadStart_keeps) | with_reducible (apply keeps_mk))

theorem execSlotReadDone_keeps (img : Option (List Byte)) {s s' : State} (e : execSlotReadDone img s = .next s') : Keeps s s' := by
  unfold execSlotReadDone at e; injection e with e; rw [← e]; repeat' first | (simp (maxDischargeDepth := 60) only [slotDone_keeps, keeps_mk, implies_true, Keeps.refl, foldl_keeps, ite_keeps, foldl1_keeps, id_eq]; done) | with_reducible (refine ite_keeps ?_ ?_) | split | (try dsimp only; first | with_reducible (apply slotDone_keeps) | with_reducible (apply keeps_mk))

theorem execItineraryApplyDone_keeps {s s' : State} (e : execItineraryApplyDone s = .next s') : Keeps s s' := by
  unfold execItineraryApplyDone at e; injection e with e; rw [← e]; repeat' first | (simp (maxDischargeDepth := 60) only [applyDone_keeps, keeps_mk, implies_true, Keeps.refl, foldl_keeps, ite_keeps, foldl1_keeps, id_eq]; done) | with_reducible (refine ite_keeps ?_ ?_) | split | (try dsimp only; first | with_reducible (apply applyDone_keeps) | with_reducible (apply keeps_mk))

theorem execPushStart_keeps (acc : Acc) {s s' : State} (e : execPushStart acc s = .next s') : Keeps s s' := by
  unfold execPushStart at e; injection e with e; rw [← e]; repeat' first | (simp (maxDischargeDepth := 60) only [portWrite_keeps, itnWrite_keeps, keeps_mk, implies_true, Keeps.refl, foldl_keeps, ite_keeps, foldl1_keeps, id_eq]; done) | with_reducible (refine ite_keeps ?_ ?_) | split | (try dsimp only; first | with_reducible (apply portWrite_keeps) | with_reducible (apply itnWrite_keeps) | with_reducible (apply keeps_mk))

theorem execPushAbort_keeps (acc : Acc) {s s' : State} (e : execPushAbort acc s = .next s') : Keeps s s' := by
  unfold execPushAbort at e; injection e with e; rw [← e]; repeat' first | (simp (maxDischargeDepth := 60) only [portWrite_keeps, itnWrite_keeps, keeps_mk, implies_true, Keeps.refl, foldl_keeps, ite_keeps, foldl1_keeps, id_eq]; done) | with_reducible (refine ite_keeps ?_ ?_) | split | (try dsimp only; first | with_reducible (apply portWrite_keeps) | with_reducible (apply itnWrite_keeps) | with_reducible (apply keeps_mk))

theorem execPushData_keeps (acc : Acc) {s s' : State} (e : execPushData acc s = .next s') : Keeps s s' := by
  unfold execPushData at e; injection e with e; rw [← e]; repeat' first | (simp (maxDischargeDepth := 60) only [portWrite_keeps, itnWrite_keeps, keeps_mk, implies_true, Keeps.refl, foldl_keeps, ite_keeps, foldl1_keeps, id_eq]; done) | with_reducible (refine ite_keeps ?_ ?_) | split | (try dsimp only; first | with_reducible (apply portWrite_keeps) | with_reducible (apply itnWrite_keeps) | with_reducible (apply keeps_mk))

theorem execPushVerifyDone_keeps {s s' : State} (e : execPushVerifyDone s = .next s') : Keeps s s' := by
  unfold execPushVerifyDone at e; injection e with e; rw [← e]; repeat' first | (simp (maxDischargeDepth := 60) only [pushVerified_keeps, keeps_mk, implies_true, Keeps.refl, foldl_keeps, ite_keeps, foldl1_keeps, id_eq]; done) | with_reducible (refine ite_keeps ?_ ?_) | split | (try dsimp only; first | with_reducible (apply pushVerified_keeps) | with_reducible (apply keeps_mk))

theorem execLiveOverlayApply_keeps {s s' : State} (e : execLiveOverlayApply s = .next s') : Keeps s s' := by
  unfold execLiveOverlayApply at e; injection e with e; rw [← e]; repeat' first | (simp (maxDischargeDepth := 60) only [liveApply_keeps, keeps_mk, implies_true, Keeps.refl, foldl_keeps, ite_keeps, foldl1_keeps, id_eq]; done) | with_reducible (refine ite_keeps ?_ ?_) | split | (try dsimp only; first | with_reducible (apply liveApply_keeps) | with_reducible (apply keeps_mk))

theorem execQuiesceOverlayStart_keeps {s s' : State} (e : execQuiesceOverlayStart s = .next s') : Keeps s s' := by
  unfold execQuiesceOverlayStart at e; injection e with e; rw [← e]; repeat' first | (simp (maxDischargeDepth := 60) only [quiesceStart_keeps, keeps_mk, implies_true, Keeps.refl, foldl_keeps, ite_keeps, foldl1_keeps, id_eq]; done) | with_reducible (refine ite_keeps ?_ ?_) | split | (try dsimp only; first | with_reducible (apply quiesceStart_keeps) | with_reducible (apply keeps_mk))

theorem execQuiesceOverlayWrite_keeps (buf : Option (List Byte)) {s s' : State} (e : execQuiesceOverlayWrite buf s = .next s') : Keeps s s' := by
  unfold execQuiesceOverlayWrite at e; injection e with e; rw [← e]; repeat' first | (simp (maxDischargeDepth := 60) only [quiesceWrite_keeps, keeps_mk, implies_true, Keeps.refl, foldl_keeps, ite_keeps, foldl1_keeps, id_eq]; done) | with_reducible (refine ite_keeps ?_ ?_) | split | (try dsimp only; first | with_reducible (apply quiesceWrite_keeps) | with_reducible (apply keeps_mk))

theorem execQuiesceOverlayTimeout_keeps {s s' : State} (e : execQuiesceOverlayTimeout s = .next s') : Keeps s s' := by
  unfold execQuiesceOverlayTimeout at e; injection e with e; rw [← e]; repeat' first | (simp (maxDischargeDepth := 60) only [quiesceTimeout_keeps, keeps_mk, implies_true, Keeps.refl, foldl_keeps, ite_keeps, foldl1_keeps, id_eq]; done) | with_reducible (refine ite_keeps ?_ ?_) | split | (try dsimp only; first | with_reducible (apply quiesceTimeout_keeps) | with_reducible (apply keeps_mk))

theorem execOverlayHoldTimeout_keeps {s s' : State} (e : execOverlayHoldTimeout s = .next s') : Keeps s s' := by
  unfold execOverlayHoldTimeout at e; injection e with e; rw [← e]; repeat' first | (simp (maxDischargeDepth := 60) only [holdTimeout_keeps, keeps_mk, implies_true, Keeps.refl, foldl_keeps, ite_keeps, foldl1_keeps, id_eq]; done) | with_reducible (refine ite_keeps ?_ ?_) | split | (try dsimp only; first | with_reducible (apply holdTimeout_keeps) | with_reducible (apply keeps_mk))

theorem execFieldTestDone_keeps (a : Nat) (b : Nat) (cycles : Nat) (differ : Bool) (da : Bool) (db : Bool) (residue : Option (Nat × Bool)) (ecc : Option (Nat × Nat)) {s s' : State} (e : execFieldTestDone a b cycles differ da db residue ecc s = .next s') : Keeps s s' := by
  unfold execFieldTestDone at e; injection e with e; rw [← e]; repeat' first | (simp (maxDischargeDepth := 60) only [fieldTest_keeps, keeps_mk, implies_true, Keeps.refl, foldl_keeps, ite_keeps, foldl1_keeps, id_eq]; done) | with_reducible (refine ite_keeps ?_ ?_) | split | (try dsimp only; first | with_reducible (apply fieldTest_keeps) | with_reducible (apply keeps_mk))

theorem execProbeIssue_keeps (errs : List (Nat × Nat × Nat)) {s s' : State} (e : execProbeIssue errs s = .next s') : Keeps s s' := by
  unfold execProbeIssue at e; injection e with e; rw [← e]; repeat' first | (simp (maxDischargeDepth := 60) only [probeIssue_keeps, keeps_mk, implies_true, Keeps.refl, foldl_keeps, ite_keeps, foldl1_keeps, id_eq]; done) | with_reducible (refine ite_keeps ?_ ?_) | split | (try dsimp only; first | with_reducible (apply probeIssue_keeps) | with_reducible (apply keeps_mk))

theorem execVerifyConfirmDone_keeps (probe : Bool) (errs : List (Nat × Nat × Nat)) (arrays : List Nat) {s s' : State} (e : execVerifyConfirmDone probe errs arrays s = .next s') : Keeps s s' := by
  unfold execVerifyConfirmDone at e; injection e with e; rw [← e]; repeat' first | (simp (maxDischargeDepth := 60) only [probeConfirm_keeps, confirmDone_keeps, keeps_mk, implies_true, Keeps.refl, foldl_keeps, ite_keeps, foldl1_keeps, id_eq]; done) | with_reducible (refine ite_keeps ?_ ?_) | split | (try dsimp only; first | with_reducible (apply probeConfirm_keeps) | with_reducible (apply confirmDone_keeps) | with_reducible (apply keeps_mk))

theorem execProbeTimeout_keeps {s s' : State} (e : execProbeTimeout s = .next s') : Keeps s s' := by
  unfold execProbeTimeout at e; injection e with e; rw [← e]; repeat' first | (simp (maxDischargeDepth := 60) only [probeTimeout_keeps, keeps_mk, implies_true, Keeps.refl, foldl_keeps, ite_keeps, foldl1_keeps, id_eq]; done) | with_reducible (refine ite_keeps ?_ ?_) | split | (try dsimp only; first | with_reducible (apply probeTimeout_keeps) | with_reducible (apply keeps_mk))

theorem execWitnessRecord_keeps (engine : Nat) (beats : List (BitVec 512)) (cut : Bool) {s s' : State} (e : execWitnessRecord engine beats cut s = .next s') : Keeps s s' := by
  unfold execWitnessRecord at e; injection e with e; rw [← e]; repeat' first | (simp (maxDischargeDepth := 60) only [witnessRecord_keeps, keeps_mk, implies_true, Keeps.refl, foldl_keeps, ite_keeps, foldl1_keeps, id_eq]; done) | with_reducible (refine ite_keeps ?_ ?_) | split | (try dsimp only; first | with_reducible (apply witnessRecord_keeps) | with_reducible (apply keeps_mk))

theorem execProbeResultRecord_keeps (engine : Nat) (beats : List (BitVec 512)) (cut : Bool) {s s' : State} (e : execProbeResultRecord engine beats cut s = .next s') : Keeps s s' := by
  unfold execProbeResultRecord at e; injection e with e; rw [← e]; repeat' first | (simp (maxDischargeDepth := 60) only [witnessRecord_keeps, keeps_mk, implies_true, Keeps.refl, foldl_keeps, ite_keeps, foldl1_keeps, id_eq]; done) | with_reducible (refine ite_keeps ?_ ?_) | split | (try dsimp only; first | with_reducible (apply witnessRecord_keeps) | with_reducible (apply keeps_mk))

theorem execProbeCampaignStart_keeps (acc : Acc) {s s' : State} (e : execProbeCampaignStart acc s = .next s') : Keeps s s' := by
  unfold execProbeCampaignStart at e; injection e with e; rw [← e]; repeat' first | (simp (maxDischargeDepth := 60) only [portWrite_keeps, fltWrite_keeps, keeps_mk, implies_true, Keeps.refl, foldl_keeps, ite_keeps, foldl1_keeps, id_eq]; done) | with_reducible (refine ite_keeps ?_ ?_) | split | (try dsimp only; first | with_reducible (apply portWrite_keeps) | with_reducible (apply fltWrite_keeps) | with_reducible (apply keeps_mk))

theorem execProbeCampaignAbort_keeps (acc : Acc) {s s' : State} (e : execProbeCampaignAbort acc s = .next s') : Keeps s s' := by
  unfold execProbeCampaignAbort at e; injection e with e; rw [← e]; repeat' first | (simp (maxDischargeDepth := 60) only [portWrite_keeps, fltWrite_keeps, keeps_mk, implies_true, Keeps.refl, foldl_keeps, ite_keeps, foldl1_keeps, id_eq]; done) | with_reducible (refine ite_keeps ?_ ?_) | split | (try dsimp only; first | with_reducible (apply portWrite_keeps) | with_reducible (apply fltWrite_keeps) | with_reducible (apply keeps_mk))

theorem execDomainResetRelease_keeps (d : Nat) {s s' : State} (e : execDomainResetRelease d s = .next s') : Keeps s s' := by
  unfold execDomainResetRelease at e; injection e with e; rw [← e]; repeat' first | (simp (maxDischargeDepth := 60) only [domainRelease_keeps, keeps_mk, implies_true, Keeps.refl, foldl_keeps, ite_keeps, foldl1_keeps, id_eq]; done) | with_reducible (refine ite_keeps ?_ ?_) | split | (try dsimp only; first | with_reducible (apply domainRelease_keeps) | with_reducible (apply keeps_mk))

theorem execHostSideReset_keeps (x : Nat) {s s' : State} (e : execHostSideReset x s = .next s') : Keeps s s' := by
  unfold execHostSideReset at e; injection e with e; rw [← e]; repeat' first | (simp (maxDischargeDepth := 60) only [hostReset_keeps, keeps_mk, implies_true, Keeps.refl, foldl_keeps, ite_keeps, foldl1_keeps, id_eq]; done) | with_reducible (refine ite_keeps ?_ ?_) | split | (try dsimp only; first | with_reducible (apply hostReset_keeps) | with_reducible (apply keeps_mk))

theorem execXrstAckSeen_keeps (x : Nat) {s s' : State} (e : execXrstAckSeen x s = .next s') : Keeps s s' := by
  unfold execXrstAckSeen at e; injection e with e; rw [← e]; repeat' first | (simp (maxDischargeDepth := 60) only [ackSeen_keeps, keeps_mk, implies_true, Keeps.refl, foldl_keeps, ite_keeps, foldl1_keeps, id_eq]; done) | with_reducible (refine ite_keeps ?_ ?_) | split | (try dsimp only; first | with_reducible (apply ackSeen_keeps) | with_reducible (apply keeps_mk))

theorem execXrstHandshakeDone_keeps (x : Nat) {s s' : State} (e : execXrstHandshakeDone x s = .next s') : Keeps s s' := by
  unfold execXrstHandshakeDone at e; injection e with e; rw [← e]; repeat' first | (simp (maxDischargeDepth := 60) only [handshakeDone_keeps, keeps_mk, implies_true, Keeps.refl, foldl_keeps, ite_keeps, foldl1_keeps, id_eq]; done) | with_reducible (refine ite_keeps ?_ ?_) | split | (try dsimp only; first | with_reducible (apply handshakeDone_keeps) | with_reducible (apply keeps_mk))

theorem execWarmReset_keeps {s s' : State} (e : execWarmReset s = .next s') : Keeps s s' := by
  unfold execWarmReset at e; injection e with e; rw [← e]; repeat' first | (simp (maxDischargeDepth := 60) only [warmReset_keeps, keeps_mk, implies_true, Keeps.refl, foldl_keeps, ite_keeps, foldl1_keeps, id_eq]; done) | with_reducible (refine ite_keeps ?_ ?_) | split | (try dsimp only; first | with_reducible (apply warmReset_keeps) | with_reducible (apply keeps_mk))

theorem execColdResetAssert_keeps {s s' : State} (e : execColdResetAssert s = .next s') : Keeps s s' := by
  unfold execColdResetAssert at e; injection e with e; rw [← e]; repeat' first | (simp (maxDischargeDepth := 60) only [coldAssert_keeps, keeps_mk, implies_true, Keeps.refl, foldl_keeps, ite_keeps, foldl1_keeps, id_eq]; done) | with_reducible (refine ite_keeps ?_ ?_) | split | (try dsimp only; first | with_reducible (apply coldAssert_keeps) | with_reducible (apply keeps_mk))

theorem execColdReset_keeps (chipId : BitVec 128) {s s' : State} (e : execColdReset chipId s = .next s') : Keeps s s' := by
  unfold execColdReset at e; injection e with e; rw [← e]; repeat' first | (simp (maxDischargeDepth := 60) only [coldRelease_keeps, keeps_mk, implies_true, Keeps.refl, foldl_keeps, ite_keeps, foldl1_keeps, id_eq]; done) | with_reducible (refine ite_keeps ?_ ?_) | split | (try dsimp only; first | with_reducible (apply coldRelease_keeps) | with_reducible (apply keeps_mk))

theorem execClkRstWarm_keeps (acc : Acc) {s s' : State} (e : execClkRstWarm acc s = .next s') : Keeps s s' := by
  unfold execClkRstWarm at e; injection e with e; rw [← e]; repeat' first | (simp (maxDischargeDepth := 60) only [portWrite_keeps, clkWrite_keeps, keeps_mk, implies_true, Keeps.refl, foldl_keeps, ite_keeps, foldl1_keeps, id_eq]; done) | with_reducible (refine ite_keeps ?_ ?_) | split | (try dsimp only; first | with_reducible (apply portWrite_keeps) | with_reducible (apply clkWrite_keeps) | with_reducible (apply keeps_mk))

theorem execDomainResetRequest_keeps (acc : Acc) {s s' : State} (e : execDomainResetRequest acc s = .next s') : Keeps s s' := by
  unfold execDomainResetRequest at e; injection e with e; rw [← e]; repeat' first | (simp (maxDischargeDepth := 60) only [portWrite_keeps, clkWrite_keeps, keeps_mk, implies_true, Keeps.refl, foldl_keeps, ite_keeps, foldl1_keeps, id_eq]; done) | with_reducible (refine ite_keeps ?_ ?_) | split | (try dsimp only; first | with_reducible (apply portWrite_keeps) | with_reducible (apply clkWrite_keeps) | with_reducible (apply keeps_mk))

theorem execClkMonWindowEnd_keeps (count : Nat) {s s' : State} (e : execClkMonWindowEnd count s = .next s') : Keeps s s' := by
  unfold execClkMonWindowEnd at e; injection e with e; rw [← e]; repeat' first | (simp (maxDischargeDepth := 60) only [monWindow_keeps, keeps_mk, implies_true, Keeps.refl, foldl_keeps, ite_keeps, foldl1_keeps, id_eq]; done) | with_reducible (refine ite_keeps ?_ ?_) | split | (try dsimp only; first | with_reducible (apply monWindow_keeps) | with_reducible (apply keeps_mk))

theorem execClockBranchGate_keeps (b : Nat) {s s' : State} (e : execClockBranchGate b s = .next s') : Keeps s s' := by
  unfold execClockBranchGate at e; injection e with e; rw [← e]; repeat' first | (simp (maxDischargeDepth := 60) only [branchGate_keeps, keeps_mk, implies_true, Keeps.refl, foldl_keeps, ite_keeps, foldl1_keeps, id_eq]; done) | with_reducible (refine ite_keeps ?_ ?_) | split | (try dsimp only; first | with_reducible (apply branchGate_keeps) | with_reducible (apply keeps_mk))

theorem execClockBranchRestart_keeps (b : Nat) {s s' : State} (e : execClockBranchRestart b s = .next s') : Keeps s s' := by
  unfold execClockBranchRestart at e; injection e with e; rw [← e]; repeat' first | (simp (maxDischargeDepth := 60) only [branchRestart_keeps, keeps_mk, implies_true, Keeps.refl, foldl_keeps, ite_keeps, foldl1_keeps, id_eq]; done) | with_reducible (refine ite_keeps ?_ ?_) | split | (try dsimp only; first | with_reducible (apply branchRestart_keeps) | with_reducible (apply keeps_mk))

theorem execTgaAnsReceive_keeps {s s' : State} (e : execTgaAnsReceive s = .next s') : Keeps s s' := by
  unfold execTgaAnsReceive at e; injection e with e; rw [← e]; repeat' first | (simp (maxDischargeDepth := 60) only [tgaAns_keeps, keeps_mk, implies_true, Keeps.refl, foldl_keeps, ite_keeps, foldl1_keeps, id_eq]; done) | with_reducible (refine ite_keeps ?_ ?_) | split | (try dsimp only; first | with_reducible (apply tgaAns_keeps) | with_reducible (apply keeps_mk))

theorem execTgaTimeout_keeps {s s' : State} (e : execTgaTimeout s = .next s') : Keeps s s' := by
  unfold execTgaTimeout at e; injection e with e; rw [← e]; repeat' first | (simp (maxDischargeDepth := 60) only [tgaTmo_keeps, keeps_mk, implies_true, Keeps.refl, foldl_keeps, ite_keeps, foldl1_keeps, id_eq]; done) | with_reducible (refine ite_keeps ?_ ?_) | split | (try dsimp only; first | with_reducible (apply tgaTmo_keeps) | with_reducible (apply keeps_mk))

theorem execFaultNoticeSend_keeps {s s' : State} (e : execFaultNoticeSend s = .next s') : Keeps s s' := by
  unfold execFaultNoticeSend at e; injection e with e; rw [← e]; repeat' first | (simp (maxDischargeDepth := 60) only [noticeSend_keeps, keeps_mk, implies_true, Keeps.refl, foldl_keeps, ite_keeps, foldl1_keeps, id_eq]; done) | with_reducible (refine ite_keeps ?_ ?_) | split | (try dsimp only; first | with_reducible (apply noticeSend_keeps) | with_reducible (apply keeps_mk))

theorem execDumpProbeTimeout_keeps (page : Nat) (shadow : Bool) {s s' : State} (e : execDumpProbeTimeout page shadow s = .next s') : Keeps s s' := by
  unfold execDumpProbeTimeout at e; injection e with e; rw [← e]; repeat' first | (simp (maxDischargeDepth := 60) only [dumpProbe_keeps, keeps_mk, implies_true, Keeps.refl, foldl_keeps, ite_keeps, foldl1_keeps, id_eq]; done) | with_reducible (refine ite_keeps ?_ ?_) | split | (try dsimp only; first | with_reducible (apply dumpProbe_keeps) | with_reducible (apply keeps_mk))

theorem execDumpBuildDone_keeps {s s' : State} (e : execDumpBuildDone s = .next s') : Keeps s s' := by
  unfold execDumpBuildDone at e; injection e with e; rw [← e]; repeat' first | (simp (maxDischargeDepth := 60) only [dumpBuilt_keeps, keeps_mk, implies_true, Keeps.refl, foldl_keeps, ite_keeps, foldl1_keeps, id_eq]; done) | with_reducible (refine ite_keeps ?_ ?_) | split | (try dsimp only; first | with_reducible (apply dumpBuilt_keeps) | with_reducible (apply keeps_mk))

theorem execDumpWriteDone_keeps {s s' : State} (e : execDumpWriteDone s = .next s') : Keeps s s' := by
  unfold execDumpWriteDone at e; injection e with e; rw [← e]; repeat' first | (simp (maxDischargeDepth := 60) only [dumpWritten_keeps, keeps_mk, implies_true, Keeps.refl, foldl_keeps, ite_keeps, foldl1_keeps, id_eq]; done) | with_reducible (refine ite_keeps ?_ ?_) | split | (try dsimp only; first | with_reducible (apply dumpWritten_keeps) | with_reducible (apply keeps_mk))

theorem execHeldDumpWrite_keeps {s s' : State} (e : execHeldDumpWrite s = .next s') : Keeps s s' := by
  unfold execHeldDumpWrite at e; injection e with e; rw [← e]; repeat' first | (simp (maxDischargeDepth := 60) only [heldWrite_keeps, keeps_mk, implies_true, Keeps.refl, foldl_keeps, ite_keeps, foldl1_keeps, id_eq]; done) | with_reducible (refine ite_keeps ?_ ?_) | split | (try dsimp only; first | with_reducible (apply heldWrite_keeps) | with_reducible (apply keeps_mk))

theorem execFenceDrained_keeps (t : Nat) {s s' : State} (e : execFenceDrained t s = .next s') : Keeps s s' := by
  unfold execFenceDrained at e; injection e with e; rw [← e]; repeat' first | (simp (maxDischargeDepth := 60) only [fenceDrained_keeps, keeps_mk, implies_true, Keeps.refl, foldl_keeps, ite_keeps, foldl1_keeps, id_eq]; done) | with_reducible (refine ite_keeps ?_ ?_) | split | (try dsimp only; first | with_reducible (apply fenceDrained_keeps) | with_reducible (apply keeps_mk))

theorem execRcvDrainTmo_keeps (t : Nat) (stuck : Nat) {s s' : State} (e : execRcvDrainTmo t stuck s = .next s') : Keeps s s' := by
  unfold execRcvDrainTmo at e; injection e with e; rw [← e]; repeat' first | (simp (maxDischargeDepth := 60) only [drainTmo_keeps, keeps_mk, implies_true, Keeps.refl, foldl_keeps, ite_keeps, foldl1_keeps, id_eq]; done) | with_reducible (refine ite_keeps ?_ ?_) | split | (try dsimp only; first | with_reducible (apply drainTmo_keeps) | with_reducible (apply keeps_mk))

theorem execFenceAckSeen_keeps (d : Nat) {s s' : State} (e : execFenceAckSeen d s = .next s') : Keeps s s' := by
  unfold execFenceAckSeen at e; injection e with e; rw [← e]; repeat' first | (simp (maxDischargeDepth := 60) only [ackHigh_keeps, keeps_mk, implies_true, Keeps.refl, foldl_keeps, ite_keeps, foldl1_keeps, id_eq]; done) | with_reducible (refine ite_keeps ?_ ?_) | split | (try dsimp only; first | with_reducible (apply ackHigh_keeps) | with_reducible (apply keeps_mk))

theorem execFenceDrainDone_keeps (d : Nat) (errResp : Bool) {s s' : State} (e : execFenceDrainDone d errResp s = .next s') : Keeps s s' := by
  unfold execFenceDrainDone at e; injection e with e; rw [← e]; repeat' first | (simp (maxDischargeDepth := 60) only [drainDone_keeps, keeps_mk, implies_true, Keeps.refl, foldl_keeps, ite_keeps, foldl1_keeps, id_eq]; done) | with_reducible (refine ite_keeps ?_ ?_) | split | (try dsimp only; first | with_reducible (apply drainDone_keeps) | with_reducible (apply keeps_mk))

theorem execFenceLinesLow_keeps (d : Nat) {s s' : State} (e : execFenceLinesLow d s = .next s') : Keeps s s' := by
  unfold execFenceLinesLow at e; injection e with e; rw [← e]; repeat' first | (simp (maxDischargeDepth := 60) only [linesLow_keeps, keeps_mk, implies_true, Keeps.refl, foldl_keeps, ite_keeps, foldl1_keeps, id_eq]; done) | with_reducible (refine ite_keeps ?_ ?_) | split | (try dsimp only; first | with_reducible (apply linesLow_keeps) | with_reducible (apply keeps_mk))

theorem execFenceAckTmo_keeps (d : Nat) {s s' : State} (e : execFenceAckTmo d s = .next s') : Keeps s s' := by
  unfold execFenceAckTmo at e; injection e with e; rw [← e]; repeat' first | (simp (maxDischargeDepth := 60) only [ackTmo_keeps, keeps_mk, implies_true, Keeps.refl, foldl_keeps, ite_keeps, foldl1_keeps, id_eq]; done) | with_reducible (refine ite_keeps ?_ ?_) | split | (try dsimp only; first | with_reducible (apply ackTmo_keeps) | with_reducible (apply keeps_mk))

theorem execFenceDrainTmo_keeps (d : Nat) {s s' : State} (e : execFenceDrainTmo d s = .next s') : Keeps s s' := by
  unfold execFenceDrainTmo at e; injection e with e; rw [← e]; repeat' first | (simp (maxDischargeDepth := 60) only [doneTmo_keeps, keeps_mk, implies_true, Keeps.refl, foldl_keeps, ite_keeps, foldl1_keeps, id_eq]; done) | with_reducible (refine ite_keeps ?_ ?_) | split | (try dsimp only; first | with_reducible (apply doneTmo_keeps) | with_reducible (apply keeps_mk))

theorem execFenceProto_keeps (d : Nat) (line : Nat) {s s' : State} (e : execFenceProto d line s = .next s') : Keeps s s' := by
  unfold execFenceProto at e; injection e with e; rw [← e]; repeat' first | (simp (maxDischargeDepth := 60) only [fenceProto_keeps, keeps_mk, implies_true, Keeps.refl, foldl_keeps, ite_keeps, foldl1_keeps, id_eq]; done) | with_reducible (refine ite_keeps ?_ ?_) | split | (try dsimp only; first | with_reducible (apply fenceProto_keeps) | with_reducible (apply keeps_mk))

theorem execTeardownStepComplete_keeps (k : Nat) {s s' : State} (e : execTeardownStepComplete k s = .next s') : Keeps s s' := by
  unfold execTeardownStepComplete at e; injection e with e; rw [← e]; repeat' first | (simp (maxDischargeDepth := 60) only [tearNext_keeps, keeps_mk, implies_true, Keeps.refl, foldl_keeps, ite_keeps, foldl1_keeps, id_eq]; done) | with_reducible (refine ite_keeps ?_ ?_) | split | (try dsimp only; first | with_reducible (apply tearNext_keeps) | with_reducible (apply keeps_mk))

theorem execTeardownTimeout_keeps (k : Nat) {s s' : State} (e : execTeardownTimeout k s = .next s') : Keeps s s' := by
  unfold execTeardownTimeout at e; injection e with e; rw [← e]; repeat' first | (simp (maxDischargeDepth := 60) only [tearTmo_keeps, keeps_mk, implies_true, Keeps.refl, foldl_keeps, ite_keeps, foldl1_keeps, id_eq]; done) | with_reducible (refine ite_keeps ?_ ?_) | split | (try dsimp only; first | with_reducible (apply tearTmo_keeps) | with_reducible (apply keeps_mk))

theorem execReleaseTimeout_keeps (d : Nat) {s s' : State} (e : execReleaseTimeout d s = .next s') : Keeps s s' := by
  unfold execReleaseTimeout at e; injection e with e; rw [← e]; repeat' first | (simp (maxDischargeDepth := 60) only [releaseTmo_keeps, keeps_mk, implies_true, Keeps.refl, foldl_keeps, ite_keeps, foldl1_keeps, id_eq]; done) | with_reducible (refine ite_keeps ?_ ?_) | split | (try dsimp only; first | with_reducible (apply releaseTmo_keeps) | with_reducible (apply keeps_mk))

theorem execHoldoverLinkTimeout_keeps {s s' : State} (e : execHoldoverLinkTimeout s = .next s') : Keeps s s' := by
  unfold execHoldoverLinkTimeout at e; injection e with e; rw [← e]; repeat' first | (simp (maxDischargeDepth := 60) only [holdLink_keeps, keeps_mk, implies_true, Keeps.refl, foldl_keeps, ite_keeps, foldl1_keeps, id_eq]; done) | with_reducible (refine ite_keeps ?_ ?_) | split | (try dsimp only; first | with_reducible (apply holdLink_keeps) | with_reducible (apply keeps_mk))

theorem execHoldoverDrainSend_keeps {s s' : State} (e : execHoldoverDrainSend s = .next s') : Keeps s s' := by
  unfold execHoldoverDrainSend at e; injection e with e; rw [← e]; repeat' first | (simp (maxDischargeDepth := 60) only [holdDrain_keeps, keeps_mk, implies_true, Keeps.refl, foldl_keeps, ite_keeps, foldl1_keeps, id_eq]; done) | with_reducible (refine ite_keeps ?_ ?_) | split | (try dsimp only; first | with_reducible (apply holdDrain_keeps) | with_reducible (apply keeps_mk))

theorem execDrainReceive_keeps {s s' : State} (e : execDrainReceive s = .next s') : Keeps s s' := by
  unfold execDrainReceive at e; injection e with e; rw [← e]; repeat' first | (simp (maxDischargeDepth := 60) only [drainReceive_keeps, keeps_mk, implies_true, Keeps.refl, foldl_keeps, ite_keeps, foldl1_keeps, id_eq]; done) | with_reducible (refine ite_keeps ?_ ?_) | split | (try dsimp only; first | with_reducible (apply drainReceive_keeps) | with_reducible (apply keeps_mk))

theorem execFenceOrder_keeps (k : Nat) (acc : Acc) {s s' : State} (e : execFenceOrder k acc s = .next s') : Keeps s s' := by
  unfold execFenceOrder at e; injection e with e; rw [← e]; repeat' first | (simp (maxDischargeDepth := 60) only [ordRow_keeps, keeps_mk, implies_true, Keeps.refl, foldl_keeps, ite_keeps, foldl1_keeps, id_eq]; done) | with_reducible (refine ite_keeps ?_ ?_) | split | (try dsimp only; first | with_reducible (apply ordRow_keeps) | with_reducible (apply keeps_mk))

theorem execDumpOrder_keeps (k : Nat) (acc : Acc) {s s' : State} (e : execDumpOrder k acc s = .next s') : Keeps s s' := by
  unfold execDumpOrder at e; injection e with e; rw [← e]; repeat' first | (simp (maxDischargeDepth := 60) only [ordRow_keeps, keeps_mk, implies_true, Keeps.refl, foldl_keeps, ite_keeps, foldl1_keeps, id_eq]; done) | with_reducible (refine ite_keeps ?_ ?_) | split | (try dsimp only; first | with_reducible (apply ordRow_keeps) | with_reducible (apply keeps_mk))

theorem execResetOrder_keeps (k : Nat) (acc : Acc) {s s' : State} (e : execResetOrder k acc s = .next s') : Keeps s s' := by
  unfold execResetOrder at e; injection e with e; rw [← e]; repeat' first | (simp (maxDischargeDepth := 60) only [ordRow_keeps, keeps_mk, implies_true, Keeps.refl, foldl_keeps, ite_keeps, foldl1_keeps, id_eq]; done) | with_reducible (refine ite_keeps ?_ ?_) | split | (try dsimp only; first | with_reducible (apply ordRow_keeps) | with_reducible (apply keeps_mk))

theorem execReleaseOrder_keeps (k : Nat) (acc : Acc) {s s' : State} (e : execReleaseOrder k acc s = .next s') : Keeps s s' := by
  unfold execReleaseOrder at e; injection e with e; rw [← e]; repeat' first | (simp (maxDischargeDepth := 60) only [ordRow_keeps, keeps_mk, implies_true, Keeps.refl, foldl_keeps, ite_keeps, foldl1_keeps, id_eq]; done) | with_reducible (refine ite_keeps ?_ ?_) | split | (try dsimp only; first | with_reducible (apply ordRow_keeps) | with_reducible (apply keeps_mk))

theorem execForceOrder_keeps (k : Nat) (acc : Acc) {s s' : State} (e : execForceOrder k acc s = .next s') : Keeps s s' := by
  unfold execForceOrder at e; injection e with e; rw [← e]; repeat' first | (simp (maxDischargeDepth := 60) only [ordRow_keeps, keeps_mk, implies_true, Keeps.refl, foldl_keeps, ite_keeps, foldl1_keeps, id_eq]; done) | with_reducible (refine ite_keeps ?_ ?_) | split | (try dsimp only; first | with_reducible (apply ordRow_keeps) | with_reducible (apply keeps_mk))

theorem execTeardownOrder_keeps (k : Nat) (acc : Acc) {s s' : State} (e : execTeardownOrder k acc s = .next s') : Keeps s s' := by
  unfold execTeardownOrder at e; injection e with e; rw [← e]; repeat' first | (simp (maxDischargeDepth := 60) only [ordRow_keeps, keeps_mk, implies_true, Keeps.refl, foldl_keeps, ite_keeps, foldl1_keeps, id_eq]; done) | with_reducible (refine ite_keeps ?_ ?_) | split | (try dsimp only; first | with_reducible (apply ordRow_keeps) | with_reducible (apply keeps_mk))

theorem execDumpDiscard_keeps (acc : Acc) {s s' : State} (e : execDumpDiscard acc s = .next s') : Keeps s s' := by
  unfold execDumpDiscard at e; injection e with e; rw [← e]; repeat' first | (simp (maxDischargeDepth := 60) only [portWrite_keeps, rcvWrite_keeps, keeps_mk, implies_true, Keeps.refl, foldl_keeps, ite_keeps, foldl1_keeps, id_eq]; done) | with_reducible (refine ite_keeps ?_ ?_) | split | (try dsimp only; first | with_reducible (apply portWrite_keeps) | with_reducible (apply rcvWrite_keeps) | with_reducible (apply keeps_mk))

theorem execHeartbeatPulse_keeps (c : Nat) (acc : Acc) {s s' : State} (e : execHeartbeatPulse c acc s = .next s') : Keeps s s' := by
  unfold execHeartbeatPulse at e; injection e with e; rw [← e]; repeat' first | (simp (maxDischargeDepth := 60) only [portWrite_keeps, rcvWrite_keeps, keeps_mk, implies_true, Keeps.refl, foldl_keeps, ite_keeps, foldl1_keeps, id_eq]; done) | with_reducible (refine ite_keeps ?_ ?_) | split | (try dsimp only; first | with_reducible (apply portWrite_keeps) | with_reducible (apply rcvWrite_keeps) | with_reducible (apply keeps_mk))

theorem execHoldoverEnter_keeps (acc : Acc) {s s' : State} (e : execHoldoverEnter acc s = .next s') : Keeps s s' := by
  unfold execHoldoverEnter at e; injection e with e; rw [← e]; repeat' first | (simp (maxDischargeDepth := 60) only [portWrite_keeps, rcvWrite_keeps, keeps_mk, implies_true, Keeps.refl, foldl_keeps, ite_keeps, foldl1_keeps, id_eq]; done) | with_reducible (refine ite_keeps ?_ ?_) | split | (try dsimp only; first | with_reducible (apply portWrite_keeps) | with_reducible (apply rcvWrite_keeps) | with_reducible (apply keeps_mk))

theorem execHoldoverExit_keeps (acc : Acc) {s s' : State} (e : execHoldoverExit acc s = .next s') : Keeps s s' := by
  unfold execHoldoverExit at e; injection e with e; rw [← e]; repeat' first | (simp (maxDischargeDepth := 60) only [portWrite_keeps, rcvWrite_keeps, keeps_mk, implies_true, Keeps.refl, foldl_keeps, ite_keeps, foldl1_keeps, id_eq]; done) | with_reducible (refine ite_keeps ?_ ?_) | split | (try dsimp only; first | with_reducible (apply portWrite_keeps) | with_reducible (apply rcvWrite_keeps) | with_reducible (apply keeps_mk))

theorem execEopEvent_keeps (input : Nat) (n : Nat) {s s' : State} (e : execEopEvent input n s = .next s') : Keeps s s' := by
  unfold execEopEvent at e; injection e with e; rw [← e]; repeat' first | (simp (maxDischargeDepth := 60) only [eopEvent_keeps, keeps_mk, implies_true, Keeps.refl, foldl_keeps, ite_keeps, foldl1_keeps, id_eq]; done) | with_reducible (refine ite_keeps ?_ ?_) | split | (try dsimp only; first | with_reducible (apply eopEvent_keeps) | with_reducible (apply keeps_mk))

theorem execEpochCut_keeps (k : Nat) {s s' : State} (e : execEpochCut k s = .next s') : Keeps s s' := by
  unfold execEpochCut at e; injection e with e; rw [← e]; repeat' first | (simp (maxDischargeDepth := 60) only [epochCut_keeps, keeps_mk, implies_true, Keeps.refl, foldl_keeps, ite_keeps, foldl1_keeps, id_eq]; done) | with_reducible (refine ite_keeps ?_ ?_) | split | (try dsimp only; first | with_reducible (apply epochCut_keeps) | with_reducible (apply keeps_mk))

theorem execCutComplete_keeps {s s' : State} (e : execCutComplete s = .next s') : Keeps s s' := by
  unfold execCutComplete at e; injection e with e; rw [← e]; repeat' first | (simp (maxDischargeDepth := 60) only [cutComplete_keeps, keeps_mk, implies_true, Keeps.refl, foldl_keeps, ite_keeps, foldl1_keeps, id_eq]; done) | with_reducible (refine ite_keeps ?_ ?_) | split | (try dsimp only; first | with_reducible (apply cutComplete_keeps) | with_reducible (apply keeps_mk))

theorem execShadowPass_keeps (page : Nat) (answered : Bool) {s s' : State} (e : execShadowPass page answered s = .next s') : Keeps s s' := by
  unfold execShadowPass at e; injection e with e; rw [← e]; repeat' first | (simp (maxDischargeDepth := 60) only [shadowPass_keeps, keeps_mk, implies_true, Keeps.refl, foldl_keeps, ite_keeps, foldl1_keeps, id_eq]; done) | with_reducible (refine ite_keeps ?_ ?_) | split | (try dsimp only; first | with_reducible (apply shadowPass_keeps) | with_reducible (apply keeps_mk))

theorem execSyncSignal_keeps (acc : Acc) {s s' : State} (e : execSyncSignal acc s = .next s') : Keeps s s' := by
  unfold execSyncSignal at e; injection e with e; rw [← e]; repeat' first | (simp (maxDischargeDepth := 60) only [portWrite_keeps, synWrite_keeps, keeps_mk, implies_true, Keeps.refl, foldl_keeps, ite_keeps, foldl1_keeps, id_eq]; done) | with_reducible (refine ite_keeps ?_ ?_) | split | (try dsimp only; first | with_reducible (apply portWrite_keeps) | with_reducible (apply synWrite_keeps) | with_reducible (apply keeps_mk))

theorem execSyncSet_keeps (o : Nat) (acc : Acc) {s s' : State} (e : execSyncSet o acc s = .next s') : Keeps s s' := by
  unfold execSyncSet at e; injection e with e; rw [← e]; repeat' first | (simp (maxDischargeDepth := 60) only [portWrite_keeps, synWrite_keeps, keeps_mk, implies_true, Keeps.refl, foldl_keeps, ite_keeps, foldl1_keeps, id_eq]; done) | with_reducible (refine ite_keeps ?_ ?_) | split | (try dsimp only; first | with_reducible (apply portWrite_keeps) | with_reducible (apply synWrite_keeps) | with_reducible (apply keeps_mk))

theorem execSyncViolation_keeps (acc : Acc) {s s' : State} (e : execSyncViolation acc s = .next s') : Keeps s s' := by
  unfold execSyncViolation at e; injection e with e; rw [← e]; repeat' first | (simp (maxDischargeDepth := 60) only [portWrite_keeps, synWrite_keeps, keeps_mk, implies_true, Keeps.refl, foldl_keeps, ite_keeps, foldl1_keeps, id_eq]; done) | with_reducible (refine ite_keeps ?_ ?_) | split | (try dsimp only; first | with_reducible (apply portWrite_keeps) | with_reducible (apply synWrite_keeps) | with_reducible (apply keeps_mk))

theorem execSyncWait_keeps (c : Nat) (port : Port) {s s' : State} (e : execSyncWait c port s = .next s') : Keeps s s' := by
  unfold execSyncWait at e; injection e with e; rw [← e]; repeat' first | (simp (maxDischargeDepth := 60) only [synWait_keeps, keeps_mk, implies_true, Keeps.refl, foldl_keeps, ite_keeps, foldl1_keeps, id_eq]; done) | with_reducible (refine ite_keeps ?_ ?_) | split | (try dsimp only; first | with_reducible (apply synWait_keeps) | with_reducible (apply keeps_mk))

theorem execSyncWaitGrant_keeps (o : Nat) {s s' : State} (e : execSyncWaitGrant o s = .next s') : Keeps s s' := by
  unfold execSyncWaitGrant at e; injection e with e; rw [← e]; repeat' first | (simp (maxDischargeDepth := 60) only [synGrant_keeps, keeps_mk, implies_true, Keeps.refl, foldl_keeps, ite_keeps, foldl1_keeps, id_eq]; done) | with_reducible (refine ite_keeps ?_ ?_) | split | (try dsimp only; first | with_reducible (apply synGrant_keeps) | with_reducible (apply keeps_mk))

theorem execSyncWaitTimeout_keeps (c : Nat) {s s' : State} (e : execSyncWaitTimeout c s = .next s') : Keeps s s' := by
  unfold execSyncWaitTimeout at e; injection e with e; rw [← e]; repeat' first | (simp (maxDischargeDepth := 60) only [synTimeout_keeps, keeps_mk, implies_true, Keeps.refl, foldl_keeps, ite_keeps, foldl1_keeps, id_eq]; done) | with_reducible (refine ite_keeps ?_ ?_) | split | (try dsimp only; first | with_reducible (apply synTimeout_keeps) | with_reducible (apply keeps_mk))

theorem execIrqPendAck_keeps (w : Nat) (acc : Acc) {s s' : State} (e : execIrqPendAck w acc s = .next s') : Keeps s s' := by
  unfold execIrqPendAck at e; injection e with e; rw [← e]; repeat' first | (simp (maxDischargeDepth := 60) only [portWrite_keeps, irqWrite_keeps, keeps_mk, implies_true, Keeps.refl, foldl_keeps, ite_keeps, foldl1_keeps, id_eq]; done) | with_reducible (refine ite_keeps ?_ ?_) | split | (try dsimp only; first | with_reducible (apply portWrite_keeps) | with_reducible (apply irqWrite_keeps) | with_reducible (apply keeps_mk))

theorem execIrqDone_keeps (acc : Acc) {s s' : State} (e : execIrqDone acc s = .next s') : Keeps s s' := by
  unfold execIrqDone at e; injection e with e; rw [← e]; repeat' first | (simp (maxDischargeDepth := 60) only [portWrite_keeps, irqWrite_keeps, keeps_mk, implies_true, Keeps.refl, foldl_keeps, ite_keeps, foldl1_keeps, id_eq]; done) | with_reducible (refine ite_keeps ?_ ?_) | split | (try dsimp only; first | with_reducible (apply portWrite_keeps) | with_reducible (apply irqWrite_keeps) | with_reducible (apply keeps_mk))

theorem execIrqSwSet_keeps (acc : Acc) {s s' : State} (e : execIrqSwSet acc s = .next s') : Keeps s s' := by
  unfold execIrqSwSet at e; injection e with e; rw [← e]; repeat' first | (simp (maxDischargeDepth := 60) only [portWrite_keeps, irqWrite_keeps, keeps_mk, implies_true, Keeps.refl, foldl_keeps, ite_keeps, foldl1_keeps, id_eq]; done) | with_reducible (refine ite_keeps ?_ ?_) | split | (try dsimp only; first | with_reducible (apply portWrite_keeps) | with_reducible (apply irqWrite_keeps) | with_reducible (apply keeps_mk))

theorem execIrqMaskWrite_keeps (w : Nat) (acc : Acc) {s s' : State} (e : execIrqMaskWrite w acc s = .next s') : Keeps s s' := by
  unfold execIrqMaskWrite at e; injection e with e; rw [← e]; repeat' first | (simp (maxDischargeDepth := 60) only [portWrite_keeps, irqWrite_keeps, keeps_mk, implies_true, Keeps.refl, foldl_keeps, ite_keeps, foldl1_keeps, id_eq]; done) | with_reducible (refine ite_keeps ?_ ?_) | split | (try dsimp only; first | with_reducible (apply portWrite_keeps) | with_reducible (apply irqWrite_keeps) | with_reducible (apply keeps_mk))

theorem execIrqHoldoffExpire_keeps (g : Nat) {s s' : State} (e : execIrqHoldoffExpire g s = .next s') : Keeps s s' := by
  unfold execIrqHoldoffExpire at e; injection e with e; rw [← e]; repeat' first | (simp (maxDischargeDepth := 60) only [holdoffExpire_keeps, keeps_mk, implies_true, Keeps.refl, foldl_keeps, ite_keeps, foldl1_keeps, id_eq]; done) | with_reducible (refine ite_keeps ?_ ?_) | split | (try dsimp only; first | with_reducible (apply holdoffExpire_keeps) | with_reducible (apply keeps_mk))

theorem execRegisterWrite_keeps (addr : Nat) (acc : Acc) (buf : Option (List Byte)) (step : Option StepEffect) {s s' : State} (e : execRegisterWrite addr acc buf step s = .next s') : Keeps s s' := by
  unfold execRegisterWrite at e; injection e with e; rw [← e]; repeat' first | (simp (maxDischargeDepth := 60) only [regWrite_keeps, keeps_mk, implies_true, Keeps.refl, foldl_keeps, ite_keeps, foldl1_keeps, id_eq]; done) | with_reducible (refine ite_keeps ?_ ?_) | split | (try dsimp only; first | with_reducible (apply regWrite_keeps) | with_reducible (apply keeps_mk))

theorem execResultConsume_keeps (addr : Nat) (acc : Acc) {s s' : State} (e : execResultConsume addr acc s = .next s') : Keeps s s' := by
  unfold execResultConsume at e; injection e with e; rw [← e]; repeat' first | (simp (maxDischargeDepth := 60) only [regWrite_keeps, keeps_mk, implies_true, Keeps.refl, foldl_keeps, ite_keeps, foldl1_keeps, id_eq]; done) | with_reducible (refine ite_keeps ?_ ?_) | split | (try dsimp only; first | with_reducible (apply regWrite_keeps) | with_reducible (apply keeps_mk))

theorem execLedgerQueueAdmit_keeps {s s' : State} (e : execLedgerQueueAdmit s = .next s') : Keeps s s' := by
  unfold execLedgerQueueAdmit at e; injection e with e; rw [← e]; repeat' first | (simp (maxDischargeDepth := 60) only [ledgerAdmit_keeps, keeps_mk, implies_true, Keeps.refl, foldl_keeps, ite_keeps, foldl1_keeps, id_eq]; done) | with_reducible (refine ite_keeps ?_ ?_) | split | (try dsimp only; first | with_reducible (apply ledgerAdmit_keeps) | with_reducible (apply keeps_mk))

theorem execTgaReadGo_keeps (slot : Nat) (acc : Acc) {s s' : State} (e : execTgaReadGo slot acc s = .next s') : Keeps s s' := by
  unfold execTgaReadGo at e; injection e with e; rw [← e]; repeat' first | (simp (maxDischargeDepth := 60) only [tgaRow_keeps, pageWrite_keeps, keeps_mk, implies_true, Keeps.refl, foldl_keeps, ite_keeps, foldl1_keeps, id_eq]; done) | with_reducible (refine ite_keeps ?_ ?_) | split | (try dsimp only; first | with_reducible (apply tgaRow_keeps) | with_reducible (apply pageWrite_keeps) | with_reducible (apply keeps_mk))

theorem execTgaWriteGo_keeps (slot : Nat) (acc : Acc) {s s' : State} (e : execTgaWriteGo slot acc s = .next s') : Keeps s s' := by
  unfold execTgaWriteGo at e; injection e with e; rw [← e]; repeat' first | (simp (maxDischargeDepth := 60) only [tgaRow_keeps, pageWrite_keeps, keeps_mk, implies_true, Keeps.refl, foldl_keeps, ite_keeps, foldl1_keeps, id_eq]; done) | with_reducible (refine ite_keeps ?_ ?_) | split | (try dsimp only; first | with_reducible (apply tgaRow_keeps) | with_reducible (apply pageWrite_keeps) | with_reducible (apply keeps_mk))

theorem execTgaReqReceive_keeps {s s' : State} (e : execTgaReqReceive s = .next s') : Keeps s s' := by
  unfold execTgaReqReceive at e; injection e with e; rw [← e]; repeat' first | (simp (maxDischargeDepth := 60) only [tgaReq_keeps, pageWrite_keeps, keeps_mk, implies_true, Keeps.refl, foldl_keeps, ite_keeps, foldl1_keeps, id_eq]; done) | with_reducible (refine ite_keeps ?_ ?_) | split | (try dsimp only; first | with_reducible (apply tgaReq_keeps) | with_reducible (apply pageWrite_keeps) | with_reducible (apply keeps_mk))

theorem execGuestbookAccept_keeps {s s' : State} (e : execGuestbookAccept s = .next s') : Keeps s s' := by
  unfold execGuestbookAccept at e; injection e with e; rw [← e]; repeat' first | (simp (maxDischargeDepth := 60) only [gbkAccept_keeps, keeps_mk, implies_true, Keeps.refl, foldl_keeps, ite_keeps, foldl1_keeps, id_eq]; done) | with_reducible (refine ite_keeps ?_ ?_) | split | (try dsimp only; first | with_reducible (apply gbkAccept_keeps) | with_reducible (apply keeps_mk))

theorem execPowerExitDone_keeps {s s' : State} (e : execPowerExitDone s = .next s') : Keeps s s' := by
  unfold execPowerExitDone at e; injection e with e; rw [← e]; repeat' first | (simp (maxDischargeDepth := 60) only [exitServe_keeps, keeps_mk, implies_true, Keeps.refl, foldl_keeps, ite_keeps, foldl1_keeps, id_eq]; done) | with_reducible (refine ite_keeps ?_ ?_) | split | (try dsimp only; first | with_reducible (apply exitServe_keeps) | with_reducible (apply keeps_mk))

theorem execDbgacc_keeps (op : Nat) (addr : Nat) (data : Word) {s s' : State} (e : execDbgacc op addr data s = .next s') : Keeps s s' := by
  unfold execDbgacc at e; injection e with e; rw [← e]; repeat' first | (simp (maxDischargeDepth := 60) only [tapAccess_keeps, keeps_mk, implies_true, Keeps.refl, foldl_keeps, ite_keeps, foldl1_keeps, id_eq]; done) | with_reducible (refine ite_keeps ?_ ?_) | split | (try dsimp only; first | with_reducible (apply tapAccess_keeps) | with_reducible (apply keeps_mk))

end Sys2Proof.Machine
end

