-- ==== Sys2Proof/Laws/Leaves.lean ====
section
/-!
SUPPORT. What the larger operations leave alone, as equations: a field of a register of another page, and each other part of the state. Each follows from
the operation's `touch` lemma.
-/
namespace Sys2Proof.Machine
set_option Elab.async false

/-! answerAll. -/

theorem rd_answerAll (s : State) (code : Nat) (b_ : Nat) (h_ : b_ / 65536 ∉ [4]) : rd (answerAll code s) b_ = rd s b_ :=
  (answerAll_touch _ (Touch.refl 0x100000000000001004 s)).regs b_ (bit_page h_ (bits_in (by decide) (by decide)))
theorem get_answerAll (s : State) (code : Nat) (g_ : Field) (h_ : g_.addr / 65536 ∉ [4]) : get (answerAll code s) g_ = get s g_ := by
  unfold get; rw [rd_answerAll _ _ _ h_]

/-! authLapse. -/

theorem rd_authLapse (s : State) (why : Nat) (b_ : Nat) (h_ : b_ / 65536 ∉ [20, 25, 26, 28]) : rd (authLapse why s) b_ = rd s b_ :=
  (authLapse_touch _ (Touch.refl 0x161000000000014000000480 s)).regs b_ (bit_page h_ (bits_in (by decide) (by decide)))
theorem get_authLapse (s : State) (why : Nat) (g_ : Field) (h_ : g_.addr / 65536 ∉ [20, 25, 26, 28]) : get (authLapse why s) g_ = get s g_ := by
  unfold get; rw [rd_authLapse _ _ _ h_]

/-! baseAfterReset. -/

theorem rd_baseAfterReset (s : State) (n : Nat) (b_ : Nat) (h_ : b_ / 65536 ∉ [9, 20, 25, 26]) : rd (baseAfterReset s n) b_ = rd s b_ :=
  (baseAfterReset_touch _ (Touch.refl 0x61002000000004000820480 s)).regs b_ (bit_page h_ (bits_in (by decide) (by decide)))
theorem get_baseAfterReset (s : State) (n : Nat) (g_ : Field) (h_ : g_.addr / 65536 ∉ [9, 20, 25, 26]) : get (baseAfterReset s n) g_ = get s g_ := by
  unfold get; rw [rd_baseAfterReset _ _ _ h_]

/-! curLinkLost. -/

theorem rd_curLinkLost (s : State) (hostSide : Bool) (b_ : Nat) (h_ : b_ / 65536 ∉ [4, 17, 20, 24, 25, 26]) : rd (curLinkLost hostSide s) b_ = rd s b_ :=
  (curLinkLost_touch _ (Touch.refl 0x71200100000004100081484 s)).regs b_ (bit_page h_ (bits_in (by decide) (by decide)))
theorem get_curLinkLost (s : State) (hostSide : Bool) (g_ : Field) (h_ : g_.addr / 65536 ∉ [4, 17, 20, 24, 25, 26]) : get (curLinkLost hostSide s) g_ = get s g_ := by
  unfold get; rw [rd_curLinkLost _ _ _ h_]
@[simp] theorem curLinkLost_clk (s : State) (hostSide : Bool) : (curLinkLost hostSide s).clk = s.clk := (curLinkLost_touch _ (Touch.refl 0x71200100000004100081484 s)).clk rfl

/-! elapse. -/

@[simp] theorem rd_elapse (s : State) (c : Nat) (b_ : Nat) : rd (elapse c s) b_ = rd s b_ :=
  (elapse_touch _ (Touch.refl 0x30000 s)).regs b_ (bit_page (l := []) (by simp) (bits_in (by decide) (by decide)))
@[simp] theorem get_elapse (s : State) (c : Nat) (g_ : Field) : get (elapse c s) g_ = get s g_ := by
  unfold get; rw [rd_elapse]

/-! firmwareAgain. -/

theorem rd_firmwareAgain (s : State)  (b_ : Nat) (h_ : b_ / 65536 ∉ [23, 29]) : rd (firmwareAgain s) b_ = rd s b_ :=
  (firmwareAgain_touch (Touch.refl 0x208000000000000000000000 s)).regs b_ (bit_page h_ (bits_in (by decide) (by decide)))
theorem get_firmwareAgain (s : State)  (g_ : Field) (h_ : g_.addr / 65536 ∉ [23, 29]) : get (firmwareAgain s) g_ = get s g_ := by
  unfold get; rw [rd_firmwareAgain _ _ h_]

/-! grantAll. -/

@[simp] theorem rd_grantAll (s : State)  (b_ : Nat) : rd (grantAll s) b_ = rd s b_ :=
  (grantAll_touch (Touch.refl 0x2004 s)).regs b_ (bit_page (l := []) (by simp) (bits_in (by decide) (by decide)))
@[simp] theorem get_grantAll (s : State)  (g_ : Field) : get (grantAll s) g_ = get s g_ := by
  unfold get; rw [rd_grantAll]
@[simp] theorem grantAll_clk (s : State)  : (grantAll s).clk = s.clk := (grantAll_touch (Touch.refl 0x2004 s)).clk rfl

/-! leaveReset. -/

theorem rd_leaveReset (s : State) (d : Nat) (b_ : Nat) (h_ : b_ / 65536 ∉ [2, 4, 5, 6, 8, 9, 11, 12, 13, 15, 18, 19, 20, 23, 25, 26, 29]) : rd (leaveReset d s) b_ = rd s b_ :=
  (leaveReset_touch _ (Touch.refl 0x269cbb7400000040029a3484 s)).regs b_ (bit_page h_ (bits_in (by decide) (by decide)))
theorem get_leaveReset (s : State) (d : Nat) (g_ : Field) (h_ : g_.addr / 65536 ∉ [2, 4, 5, 6, 8, 9, 11, 12, 13, 15, 18, 19, 20, 23, 25, 26, 29]) : get (leaveReset d s) g_ = get s g_ := by
  unfold get; rw [rd_leaveReset _ _ _ h_]

/-! linkReset. -/

theorem rd_linkReset (s : State)  (b_ : Nat) (h_ : b_ / 65536 ∉ [4, 20, 25, 26]) : rd (linkReset s) b_ = rd s b_ :=
  (linkReset_touch (Touch.refl 0x61000100000004000001480 s)).regs b_ (bit_page h_ (bits_in (by decide) (by decide)))
theorem get_linkReset (s : State)  (g_ : Field) (h_ : g_.addr / 65536 ∉ [4, 20, 25, 26]) : get (linkReset s) g_ = get s g_ := by
  unfold get; rw [rd_linkReset _ _ h_]
@[simp] theorem linkReset_clk (s : State)  : (linkReset s).clk = s.clk := (linkReset_touch (Touch.refl 0x61000100000004000001480 s)).clk rfl

/-! loaderFree. -/

theorem rd_loaderFree (s : State)  (b_ : Nat) (h_ : b_ / 65536 ∉ [29]) : rd (loaderFree s) b_ = rd s b_ :=
  (loaderFree_touch (Touch.refl 0x200000000000000000000004 s)).regs b_ (bit_page h_ (bits_in (by decide) (by decide)))
theorem get_loaderFree (s : State)  (g_ : Field) (h_ : g_.addr / 65536 ∉ [29]) : get (loaderFree s) g_ = get s g_ := by
  unfold get; rw [rd_loaderFree _ _ h_]

/-! memFollow. -/

theorem rd_memFollow (s : State)  (b_ : Nat) (h_ : b_ / 65536 ∉ [11, 12, 17, 18, 20, 24, 25, 26]) : rd (memFollow s) b_ = rd s b_ :=
  (memFollow_touch (Touch.refl 0x716180000000045086a1480 s)).regs b_ (bit_page h_ (bits_in (by decide) (by decide)))
theorem get_memFollow (s : State)  (g_ : Field) (h_ : g_.addr / 65536 ∉ [11, 12, 17, 18, 20, 24, 25, 26]) : get (memFollow s) g_ = get s g_ := by
  unfold get; rw [rd_memFollow _ _ h_]
@[simp] theorem memFollow_clk (s : State)  : (memFollow s).clk = s.clk := (memFollow_touch (Touch.refl 0x716180000000045086a1480 s)).clk rfl

/-! netLost. -/

theorem rd_netLost (s : State)  (b_ : Nat) (h_ : b_ / 65536 ∉ [20, 25, 26]) : rd (netLost s) b_ = rd s b_ :=
  (netLost_touch (Touch.refl 0x61000000000004000880480 s)).regs b_ (bit_page h_ (bits_in (by decide) (by decide)))
theorem get_netLost (s : State)  (g_ : Field) (h_ : g_.addr / 65536 ∉ [20, 25, 26]) : get (netLost s) g_ = get s g_ := by
  unfold get; rw [rd_netLost _ _ h_]

/-! ordDone. -/

theorem rd_ordDone (s : State) (k status : Nat) (b_ : Nat) (h_ : b_ / 65536 ∉ [19, 25, 26]) : rd (ordDone k status s) b_ = rd s b_ :=
  (ordDone_touch _ _ (Touch.refl 0x60800000000004800000400 s)).regs b_ (bit_page h_ (bits_in (by decide) (by decide)))
theorem get_ordDone (s : State) (k status : Nat) (g_ : Field) (h_ : g_.addr / 65536 ∉ [19, 25, 26]) : get (ordDone k status s) g_ = get s g_ := by
  unfold get; rw [rd_ordDone _ _ _ _ h_]

/-! rcvPost. -/

theorem rd_rcvPost (s : State) (k seq status flags : Nat) (b_ : Nat) (h_ : b_ / 65536 ∉ [19, 25, 26]) : rd (rcvPost k seq status flags s) b_ = rd s b_ :=
  (rcvPost_touch _ _ _ _ (Touch.refl 0x60800000000004800000400 s)).regs b_ (bit_page h_ (bits_in (by decide) (by decide)))
theorem get_rcvPost (s : State) (k seq status flags : Nat) (g_ : Field) (h_ : g_.addr / 65536 ∉ [19, 25, 26]) : get (rcvPost k seq status flags s) g_ = get s g_ := by
  unfold get; rw [rd_rcvPost _ _ _ _ _ _ h_]

/-! rcvWarm. -/

theorem rd_rcvWarm (s : State)  (b_ : Nat) (h_ : b_ / 65536 ∉ [19, 20, 25, 26]) : rd (rcvWarm s) b_ = rd s b_ :=
  (rcvWarm_touch (Touch.refl 0x61800000000004800800480 s)).regs b_ (bit_page h_ (bits_in (by decide) (by decide)))
theorem get_rcvWarm (s : State)  (g_ : Field) (h_ : g_.addr / 65536 ∉ [19, 20, 25, 26]) : get (rcvWarm s) g_ = get s g_ := by
  unfold get; rw [rd_rcvWarm _ _ h_]

/-! reachBase. -/

@[simp] theorem rd_reachBase (s : State) (n t : Nat) (b_ : Nat) : rd (reachBase n t s) b_ = rd s b_ :=
  (reachBase_touch _ _ (Touch.refl 0x30000 s)).regs b_ (bit_page (l := []) (by simp) (bits_in (by decide) (by decide)))
@[simp] theorem get_reachBase (s : State) (n t : Nat) (g_ : Field) : get (reachBase n t s) g_ = get s g_ := by
  unfold get; rw [rd_reachBase]
@[simp] theorem reachBase_clk (s : State) (n t : Nat) : (reachBase n t s).clk = s.clk := (reachBase_touch _ _ (Touch.refl 0x30000 s)).clk rfl
@[simp] theorem reachBase_gbk (s : State) (n t : Nat) : (reachBase n t s).gbk = s.gbk := (reachBase_touch _ _ (Touch.refl 0x30000 s)).gbk rfl
@[simp] theorem reachBase_irq (s : State) (n t : Nat) : (reachBase n t s).irq = s.irq := (reachBase_touch _ _ (Touch.refl 0x30000 s)).irq rfl
@[simp] theorem reachBase_eop (s : State) (n t : Nat) : (reachBase n t s).eop = s.eop := (reachBase_touch _ _ (Touch.refl 0x30000 s)).eop rfl
@[simp] theorem reachBase_mmp (s : State) (n t : Nat) : (reachBase n t s).mmp = s.mmp := (reachBase_touch _ _ (Touch.refl 0x30000 s)).mmp rfl
@[simp] theorem reachBase_ink (s : State) (n t : Nat) : (reachBase n t s).ink = s.ink := (reachBase_touch _ _ (Touch.refl 0x30000 s)).ink rfl
@[simp] theorem reachBase_crv (s : State) (n t : Nat) : (reachBase n t s).crv = s.crv := (reachBase_touch _ _ (Touch.refl 0x30000 s)).crv rfl
@[simp] theorem reachBase_ver (s : State) (n t : Nat) : (reachBase n t s).ver = s.ver := (reachBase_touch _ _ (Touch.refl 0x30000 s)).ver rfl
@[simp] theorem reachBase_cur (s : State) (n t : Nat) : (reachBase n t s).cur = s.cur := (reachBase_touch _ _ (Touch.refl 0x30000 s)).cur rfl
@[simp] theorem reachBase_rcv (s : State) (n t : Nat) : (reachBase n t s).rcv = s.rcv := (reachBase_touch _ _ (Touch.refl 0x30000 s)).rcv rfl
@[simp] theorem reachBase_syn (s : State) (n t : Nat) : (reachBase n t s).syn = s.syn := (reachBase_touch _ _ (Touch.refl 0x30000 s)).syn rfl
@[simp] theorem reachBase_pwr (s : State) (n t : Nat) : (reachBase n t s).pwr = s.pwr := (reachBase_touch _ _ (Touch.refl 0x30000 s)).pwr rfl

/-! reapply. -/

theorem rd_reapply (s : State) (d : Nat) (b_ : Nat) (h_ : b_ / 65536 ∉ [4, 5, 6, 8, 11, 12, 13, 15, 18, 19, 20, 25, 26]) : rd (reapply d s) b_ = rd s b_ :=
  (reapply_touch _ (Touch.refl 0x61cb97000000040021a1480 s)).regs b_ (bit_page h_ (bits_in (by decide) (by decide)))
theorem get_reapply (s : State) (d : Nat) (g_ : Field) (h_ : g_.addr / 65536 ∉ [4, 5, 6, 8, 11, 12, 13, 15, 18, 19, 20, 25, 26]) : get (reapply d s) g_ = get s g_ := by
  unfold get; rw [rd_reapply _ _ _ h_]
@[simp] theorem reapply_clk (s : State) (d : Nat) : (reapply d s).clk = s.clk := (reapply_touch _ (Touch.refl 0x61cb97000000040021a1480 s)).clk rfl

/-! rearmScheds. -/

theorem rd_rearmScheds (s : State)  (b_ : Nat) (h_ : b_ / 65536 ∉ [8, 20, 25, 26]) : rd (rearmScheds s) b_ = rd s b_ :=
  (rearmScheds_touch (Touch.refl 0x61001000000004000020480 s)).regs b_ (bit_page h_ (bits_in (by decide) (by decide)))
theorem get_rearmScheds (s : State)  (g_ : Field) (h_ : g_.addr / 65536 ∉ [8, 20, 25, 26]) : get (rearmScheds s) g_ = get s g_ := by
  unfold get; rw [rd_rearmScheds _ _ h_]

/-! resetDone. -/

theorem rd_resetDone (s : State) (d : Nat) (b_ : Nat) (h_ : b_ / 65536 ∉ [1, 2, 3, 4, 5, 6, 7, 8, 9, 10, 11, 12, 13, 14, 15, 16, 17, 18, 19, 20, 23, 24, 25, 26, 27, 29, 72, 73, 74, 75, 76, 77, 78, 79, 80, 88, 96, 97, 98, 99, 100, 101, 102, 103, 104, 105, 106, 107, 108, 109, 110, 111, 112, 113, 114, 115, 116, 117, 118, 119, 120, 121, 122, 123, 124, 125, 126, 127]) : rd (resetDone d s) b_ = rd s b_ :=
  (resetDone_touch _ (Touch.refl 0xffffffff0101ff00000000002f9ffffe000001ffffff7cc4 s)).regs b_ (bit_page h_ (bits_in (by decide) (by decide)))
theorem get_resetDone (s : State) (d : Nat) (g_ : Field) (h_ : g_.addr / 65536 ∉ [1, 2, 3, 4, 5, 6, 7, 8, 9, 10, 11, 12, 13, 14, 15, 16, 17, 18, 19, 20, 23, 24, 25, 26, 27, 29, 72, 73, 74, 75, 76, 77, 78, 79, 80, 88, 96, 97, 98, 99, 100, 101, 102, 103, 104, 105, 106, 107, 108, 109, 110, 111, 112, 113, 114, 115, 116, 117, 118, 119, 120, 121, 122, 123, 124, 125, 126, 127]) : get (resetDone d s) g_ = get s g_ := by
  unfold get; rw [rd_resetDone _ _ _ h_]

/-! setFence. -/

theorem rd_setFence (s : State) (t st : Nat) (forced : Bool) (b_ : Nat) (h_ : b_ / 65536 ∉ [19]) : rd (setFence t st forced s) b_ = rd s b_ :=
  (setFence_touch _ _ _ (Touch.refl 0x800000000000000000000 s)).regs b_ (bit_page h_ (bits_in (by decide) (by decide)))
theorem get_setFence (s : State) (t st : Nat) (forced : Bool) (g_ : Field) (h_ : g_.addr / 65536 ∉ [19]) : get (setFence t st forced s) g_ = get s g_ := by
  unfold get; rw [rd_setFence _ _ _ _ _ h_]

/-! setSyn. -/

@[simp] theorem rd_setSyn (s : State) (y : SynSt) (b_ : Nat) : rd (setSyn y s) b_ = rd s b_ :=
  (setSyn_touch _ (Touch.refl 0x1000000000 s)).regs b_ (bit_page (l := []) (by simp) (bits_in (by decide) (by decide)))
@[simp] theorem get_setSyn (s : State) (y : SynSt) (g_ : Field) : get (setSyn y s) g_ = get s g_ := by
  unfold get; rw [rd_setSyn]
@[simp] theorem setSyn_gbk (s : State) (y : SynSt) : (setSyn y s).gbk = s.gbk := (setSyn_touch _ (Touch.refl 0x1000000000 s)).gbk rfl
@[simp] theorem setSyn_tim (s : State) (y : SynSt) : (setSyn y s).tim = s.tim := (setSyn_touch _ (Touch.refl 0x1000000000 s)).tim rfl

/-! settleMasks. -/

theorem rd_settleMasks (s : State)  (b_ : Nat) (h_ : b_ / 65536 ∉ [25, 26]) : rd (settleMasks s) b_ = rd s b_ :=
  (settleMasks_touch (Touch.refl 0x60000000000004000000400 s)).regs b_ (bit_page h_ (bits_in (by decide) (by decide)))
theorem get_settleMasks (s : State)  (g_ : Field) (h_ : g_.addr / 65536 ∉ [25, 26]) : get (settleMasks s) g_ = get s g_ := by
  unfold get; rw [rd_settleMasks _ _ h_]
@[simp] theorem settleMasks_tim (s : State)  : (settleMasks s).tim = s.tim := (settleMasks_touch (Touch.refl 0x60000000000004000000400 s)).tim rfl

/-! showWaiters. -/

theorem rd_showWaiters (s : State) (o : Nat) (b_ : Nat) (h_ : b_ / 65536 ∉ [24]) : rd (showWaiters o s) b_ = rd s b_ :=
  (showWaiters_touch _ (Touch.refl 0x10000000000000000000000 s)).regs b_ (bit_page h_ (bits_in (by decide) (by decide)))
theorem get_showWaiters (s : State) (o : Nat) (g_ : Field) (h_ : g_.addr / 65536 ∉ [24]) : get (showWaiters o s) g_ = get s g_ := by
  unfold get; rw [rd_showWaiters _ _ _ h_]
@[simp] theorem showWaiters_gbk (s : State) (o : Nat) : (showWaiters o s).gbk = s.gbk := (showWaiters_touch _ (Touch.refl 0x10000000000000000000000 s)).gbk rfl
@[simp] theorem showWaiters_tim (s : State) (o : Nat) : (showWaiters o s).tim = s.tim := (showWaiters_touch _ (Touch.refl 0x10000000000000000000000 s)).tim rfl
@[simp] theorem showWaiters_syn (s : State) (o : Nat) : (showWaiters o s).syn = s.syn := (showWaiters_touch _ (Touch.refl 0x10000000000000000000000 s)).syn rfl

/-! unitDefaults. -/

theorem rd_unitDefaults (s : State) (d : Nat) (b_ : Nat) (h_ : b_ / 65536 ∉ [4, 5, 6, 12, 13, 15, 18]) : rd (unitDefaults d s) b_ = rd s b_ :=
  (unitDefaults_touch _ (Touch.refl 0x4b0700000000000000000 s)).regs b_ (bit_page h_ (bits_in (by decide) (by decide)))
theorem get_unitDefaults (s : State) (d : Nat) (g_ : Field) (h_ : g_.addr / 65536 ∉ [4, 5, 6, 12, 13, 15, 18]) : get (unitDefaults d s) g_ = get s g_ := by
  unfold get; rw [rd_unitDefaults _ _ _ h_]

end Sys2Proof.Machine
end

