-- ==== Sys2Proof/WellFormed.lean ====
section
/-!
DEFINITION. Which commands are well-formed: each operand lies in the range that the spec gives it.
-/
namespace Sys2Proof

/-- A control core's number (R626). -/
def coreOk (c : Nat) : Bool := decide (c < 8)

/-- An access (R115, R613): a 16-bit initiator, a 27-bit TGA requester, a 3-bit tag, 32 bits of data for a half, and one of 8 cores. -/
def Acc.wf (x : Acc) : Bool :=
  decide (x.init < 2 ^ 16) && decide (x.tgaFrom < 2 ^ 27) && decide (x.tag < 8)
    && (x.half == .full || decide (x.data.toNat < 2 ^ 32))
    && (match x.port with | .core c => coreOk c | _ => true)

/-- An FRP packet (R295): every header field fits its width, and the payload and the byte count fit a packet of the fabric. -/
def Pkt.wf (p : Pkt) : Bool :=
  decide (p.version < 16) && decide (p.level < 8) && decide (p.flags < 256) && decide (p.domain < 256) && decide (p.type < 256)
    && decide (p.vc < 4) && decide (p.source < 2 ^ 24) && decide (p.epoch < 2 ^ 48) && decide (p.seq < 2 ^ 16)
    && decide (p.announced < 2 ^ 16) && decide (p.length < 2 ^ 16) && decide (p.childBit < 2 ^ 16) && decide (p.crc < 2 ^ 32)
    && decide (p.payload.length < 2 ^ 16) && decide (p.bytes < 2 ^ 17)

/-- What a stepped instruction does (R711): 2 or 4 bytes long, and it writes x1 to x31. -/
def StepEffect.wf (e : StepEffect) : Bool :=
  (e.len == 2 || e.len == 4) && decide (e.next < 2 ^ 64) && e.xs.all fun x => decide (1 ≤ x.1) && decide (x.1 < 32)

/-- A part of a TCLK cycle, in units of 2^-16 ns (R239). -/
def phaseOk (p : Nat) : Bool := decide (p < 2 ^ 16)

/-- A lane and a virtual channel of the Fabric Port (R145, R146). -/
def laneOk (l : Nat) : Bool := decide (l < 20)
def vcOk (v : Nat) : Bool := decide (v < 4)

/-- A slot of the Command Window (R641), and of an order (R570). -/
def cwOk (n : Nat) : Bool := decide (n < 16)
def ordOk (k : Nat) : Bool := decide (k < 4)

/-- Every operand of a command lies in its range. -/
def Instr.wf : Instr → Bool
  | .registerWrite a acc _ step => decide (a < 2 ^ 24) && acc.wf && (match step with | some e => e.wf | none => true)
  | .resultConsume a acc => decide (a < 2 ^ 24) && acc.wf
  | .domainResetRelease d => decide (d < 7)
  | .clkMonWindowEnd n => decide (n < 2 ^ 32)
  | .clockBranchGate b | .clockBranchRestart b => decide (b < 3)
  | .hostSideReset x | .xrstAckSeen x | .xrstHandshakeDone x => decide (x < 4)
  | .eopEvent i _ => decide (i < 8192)
  | .tagTransfer e c l o => decide (e < 64) && decide (c < 2 ^ 32) && decide (l < 2 ^ 20) && decide (o < 2 ^ 12)
  | .snapshotRecord e b _ => decide (e < 64) && !b.isEmpty
  | .witnessRecord e b _ | .probeResultRecord e b _ => decide (e < 64) && !b.isEmpty
  | .fenceAckSeen d | .fenceDrainDone d _ | .fenceLinesLow d | .fenceAckTmo d | .fenceDrainTmo d | .releaseTimeout d => decide (d < 32)
  | .fenceProto d l => decide (d < 32) && decide (l < 4)
  | .mmpReadData ch id b => decide (ch < 8) && decide (id < 256) && !b.isEmpty
  | .mmpWriteResponse ch id _ => decide (ch < 8) && decide (id < 64)
  | .writeIntent g t => decide (g < 2 ^ 40) && decide (t < 64)
  | .intentStallTimeout t => decide (t < 64)
  | .txCreditReturn l v n => laneOk l && vcOk v && decide (n < 64)
  | .frpPacketReceive l p => laneOk l && p.wf
  | .rxCreditReturn l v _ => laneOk l && vcOk v
  | .laneLinkUp l | .laneLinkDown l => laneOk l
  | .sepFrameReceive p f ph => decide (p < 17) && decide (f.length < 2 ^ 14) && phaseOk ph
  | .sepFrameTransmit p _ => decide (p < 17)
  | .tcForward ph | .delayReqSend ph => phaseOk ph
  | .sepPcsDown p _ _ | .sepPcsUp p => decide (p < 17)
  | .scheduleEnable k acc | .scheduleDisable k acc => decide (k < 64) && acc.wf
  | .scheduleRegisterWrite k r acc => decide (k < 64) && decide (r < 3) && acc.wf
  | .epochCut k => decide (k < 64)
  | .tallySample n acc _ | .caravanPayload n acc _ => cwOk n && acc.wf
  | .ptpStamps n acc | .scores n acc | .verifyOutcome n acc | .parityReady n acc | .cwBadOp n acc => cwOk n && acc.wf
  | .cwFirmwareOp n acc ans =>
    cwOk n && (match acc with | some x => x.wf | none => true) && (match ans with | some x => decide (x.1 < 256) | none => true)
  | .shadowPass p _ => decide (p < 0x1E)
  | .ptpSyncReceive m ph => decide (m.length < 2 ^ 14) && phaseOk ph
  | .ptpFollowUpReceive m | .ptpDelayRespReceive m | .ptpAnnounceReceive m => decide (m.length < 2 ^ 14)
  | .jumpAccept n acc | .jumpDismiss n acc => decide (n < 2) && acc.wf
  | .servoTimeout n => decide (n < 2)
  | .pulseEnable n acc => decide (n < 4) && acc.wf
  | .pulseEdge n | .pulseFall n => decide (n < 4)
  | .captureEdge ch ph => decide (ch < 5) && phaseOk ph
  | .captureConsume ch acc => decide (ch < 5) && acc.wf
  | .epochDeadline k n | .epochGraceEnd k n => decide (k < 4096) && decide (n < 2 ^ 48)
  | .saturatedEpochClose k _ _ => decide (k < 4096)
  | .tgaReadGo n acc | .tgaWriteGo n acc => decide (n < 16) && acc.wf
  | .inkSelect k n => decide (k < 3) && decide (n < 32)
  | .queueRoomResume q | .ladderPause q _ => decide (q < 512)
  | .queueCfgWrite q acc => decide (q < 512) && acc.wf
  | .treeJobGo i acc | .arrayJobGo i acc => decide (i < 16) && acc.wf
  | .treeJobStart e | .treeJobDone e _ _ => decide (e < 4)
  | .arrayPassDone a _ _ _ | .faultMarkExpire a => decide (a < 48)
  | .fieldTestDone a b _ _ _ _ _ _ => decide (a < 48) && decide (b < 48)
  | .detectorRefWrite d acc => decide (d < 64) && acc.wf
  | .subjectObserve i acc | .subjectClear i acc => decide (i < 64) && acc.wf
  | .encodeJobGo i acc | .decodeJobGo i acc => decide (i < 8) && acc.wf
  | .cmpJobComplete i => decide (i < 8)
  | .porterHeadWrite c acc | .porterChannelConfigWrite c _ acc | .porterResume c acc => decide (c < 4) && acc.wf
  | .porterDescriptorStart c _ | .porterDescriptorDone c => decide (c < 4)
  | .heartbeatPulse c acc => coreOk c && acc.wf
  | .fenceOrder k acc | .dumpOrder k acc | .resetOrder k acc | .releaseOrder k acc | .forceOrder k acc | .teardownOrder k acc => ordOk k && acc.wf
  | .teardownStepComplete k | .teardownTimeout k => ordOk k
  | .fenceDrained t => decide (t < 7)
  | .rcvDrainTmo t stuck => decide (t < 7) && decide (stuck < 2 ^ 30)
  | .dumpProbeTimeout p _ => decide (p < 0x1E)
  | .coreHaltEcc c | .syncWait c _ | .syncWaitTimeout c => coreOk c
  | .syncWaitGrant o => decide (o < 256)
  | .syncSet o acc => decide (o < 256) && acc.wf
  | .irqPendAck w acc | .irqMaskWrite w acc => decide (w < 16) && acc.wf
  | .irqHoldoffExpire g => decide (g < 64)
  | .wakeEvent x => decide (x < 9)
  | .traceInstruction c pc len next _ => coreOk c && decide (pc < 2 ^ 64) && (len == 2 || len == 4) && decide (next < 2 ^ 64)
  | .traceTimeComparator x => decide (x < 8)
  | .dbgacc op a _ => decide (op < 4) && decide (a < 2 ^ 24)
  | .coreStep acc len next t xs => acc.wf && StepEffect.wf { len, next, trap := t, xs }
  | .clkRstWarm acc | .domainResetRequest acc | .fbpRxPartWrite acc | .kspRead acc | .kspPageProgram acc | .kspSectorErase acc
  | .kspReadStatus acc | .pushStart acc | .pushAbort acc | .pushData acc | .binFlush acc | .waybillTrigger acc | .waybillArm acc
  | .timeSnapshot acc | .slotOpen acc | .slotDrain acc | .slotRetire acc | .routeModeWrite acc | .modelBind acc | .modelUnbind acc
  | .probeCampaignStart acc | .probeCampaignAbort acc | .snapshotArm acc | .snapshotSeal acc | .snapshotAbort acc | .ckptSend acc
  | .ckptRestore acc | .dumpDiscard acc | .holdoverEnter acc | .holdoverExit acc | .guestbookFlush acc | .verdictAck acc
  | .firmwareStage acc | .firmwareSwitch acc | .firmwareReady acc | .modeSwitch acc | .syncSignal acc | .syncViolation acc
  | .irqDone acc | .irqSwSet acc | .powerStateRequest acc | .coreAck acc | .stepAsk acc | .stepHold acc | .stepGate acc
  | .stepRelease acc | .traceArm acc | .traceSoft acc | .authInstallStart acc | .authData acc | .authRevoke acc | .coreHalt acc
  | .coreResume acc => acc.wf
  | .coldReset _ | .probeIssue _ | .kspCmdDone _ _ | .kspPollDone _ | .powerFailWarning _ _ | .itineraryLoadStart _ _ _
  | .slotReadDone _ | .quiesceOverlayWrite _ | .modelBindDone _ | .verifyReferenceDone _ | .verifyConfirmDone _ _ _
  | .encodeBlockDone _ _ | .decodeBlockDone _ | .strongboxRestoreDone _ _ | .firmwareLoad _ _ | .firmwareStageDone _
  | .modeSwitchFlip _ => true
  | .ledgerQueueAdmit | .warmReset | .attentionPulse | .seedBundleSend | .seedAck | .seedAckTimeout | .mmpRequestIssue | .kspPollTimeout
  | .strongboxSaveDone | .savePgFall | .itineraryApplyDone | .pushVerifyDone | .liveOverlayApply | .quiesceOverlayStart
  | .quiesceOverlayTimeout | .overlayHoldTimeout | .lateCut | .cutComplete | .waybillRecordWrite | .waybillWriteComplete
  | .waybillProdTick | .fabricDreqSend | .fabricDreqReceive | .fabricDrespReceive | .fabricDrespFupReceive | .ppsOutRise | .ppsOutFall
  | .deltaReceive | .aggReceive | .sketchReceive | .verdictReceive | .closedReceive | .joinReceive | .detourReceive | .missingReceive
  | .coarsenReceive | .bcastReceive | .tgaReqReceive | .tgaAnsReceive | .tgaTimeout | .shaperRefill | .detectorEvaluate
  | .witnessAccountingClose | .witnessReceive | .probeTimeout | .granuleCopied | .stripeSend | .ckptDataReceive | .ckptCommitReceive
  | .commitRecordValidate | .ckptAckReceive | .commitTimeout | .checkpointDeadline | .restoreTimeout | .dumpBuildDone | .dumpWriteDone
  | .heldDumpWrite | .faultNoticeSend | .holdoverLinkTimeout | .holdoverDrainSend | .drainReceive | .guestbookAccept | .guestbookExport
  | .guestbookExportDone | .strongboxRestore | .switchReq | .firmwareSwitchTimeout | .modeSwitchTimeout | .powerAskRetry
  | .powerEntryTimeout | .powerHoldComplete | .wakeTimer | .powerExitDone | .authVerifyDone | .authLapse | .restorePacketReceive
  | .coldResetAssert | .kspResetRelease => true

end Sys2Proof
end

