-- ==== Sys2Proof/Tests/Slice0.lean ====
section
/-!
SUPPORT. Small tests, the smoke test of well-formedness, and the witnesses of the statements' hypotheses.
-/
namespace Sys2Proof.Tests
open Sys2Proof Sys2Proof.Machine

/-- The block with its clocks running, the crossing of the Register Port up, no domain in reset, and no register written beyond that. -/
def lit : State := set (set { State.reset with clk := { State.reset.clk with pwron := true } } F.EOP_STATUS_LINK_UP 1) F.CLK_DOMAIN_STATUS_IN_RESET 0

/-- A full write at the Register Port with Secure privilege. -/
def wacc (v : Word) : Acc :=
  { port := .rgp, priv := .S, init := 0, half := .full, data := v, tgaFrom := 0, hwMask := 0, hwVal := 0, sameCycle := true }

/-! Witnesses of StepTakesFront. -/

theorem witness_idle : State.reset.pending = [] := by decide

/-! Witnesses of QueueAndOutboxKept. -/

theorem witness_queue : ∃ t, exec .attentionPulse lit = .next t := ⟨_, rfl⟩

/-! Witnesses of StepKeepsCanonical. -/

theorem witness_canonical : Canonical State.reset ∧ ∃ t, step State.reset = .next t := ⟨⟨by simp [keysRise, State.reset], by decide, by decide⟩, _, rfl⟩

/-! Witnesses of CommandsStayInFootprint. -/

theorem witness_footprint : footprint (.wakeEvent 4) = some ⟨[0x1A], [.pwr]⟩ ∧ ∃ t, exec (.wakeEvent 4) lit = .next t := ⟨by decide, _, rfl⟩

/-! Witnesses of RefusedWriteHasNoOtherEffect. -/

/-- A Register Port write with Driver privilege. -/
def dacc (v : Word) : Acc := { wacc v with priv := .D }

theorem witness_refused : lit.clk.stopped = false ∧ lit.clk.pwron = true ∧ presented lit (dacc 0) = some (dacc 0) ∧ pwState lit ≠ 3
    ∧ writeCheck (atEdge lit (dacc 0)) (offset 0x0F0000) (dacc 0) = 3 ∧ writeCheck (atEdge lit (wacc 0)) (offset 0x00FF00) (wacc 0) = 2
    ∧ writeCheck (atEdge lit { wacc 0 with half := .lo }) (offset F.CLK_ERR_MON_ALARM.addr) { wacc 0 with half := .lo } = 4
    ∧ writeCheck (atEdge lit (wacc 1)) (offset F.EOP_CTL_SEED_EN.addr) (wacc 1) = 5
    ∧ writeCheck (atEdge State.reset (wacc 1)) (offset F.EOP_CTL_SEED_EN.addr) (wacc 1) = 1 := by decide

/-! Witnesses of SameEdgeRules. -/

theorem witness_edges : let r := (findRow F.FLT_ERR_PROBE_FAIL.addr).getD ⟨0, 0, 0, 0, 0, none, .D, false, []⟩
    let q := (findRow F.FLT_CTL_EN.addr).getD ⟨0, 0, 0, 0, 0, none, .D, false, []⟩
    let u := (findRow F.FLT_PROBE_CMD_START.addr).getD ⟨0, 0, 0, 0, 0, none, .D, false, []⟩
    (r.fields.any fun f => f.acc == .w1c && decide (0 < f.w)) = true ∧ (q.fields.any fun f => f.acc == .rw && decide (0 < f.w)) = true
    ∧ (u.fields.any fun f => f.acc == .w1s && decide (0 < f.w)) = true ∧ pageOf F.FLT_CTL_EN.addr = 0x10
    ∧ F.FLT_CTL_EN.addr ≠ (overrunField 0x10).addr ∧ (maskAt 0 1).getLsbD 0 = true := by decide

/-! Witnesses of ResultConsumption. -/

/-- TIM_SNAP_RESULT shows result 5. -/
def shown : State := wr lit F.TIM_SNAP_RESULT_SEQ.addr 0x0005000100000000
theorem witness_consume : isResult F.TIM_SNAP_RESULT_SEQ.addr = true ∧ valid shown F.TIM_SNAP_RESULT_SEQ.addr = true
    ∧ (wacc 0x0005000000000000).half ≠ .lo ∧ bitsAt (wdata (wacc 0x0005000000000000)) 48 16 = bitsAt (rd shown F.TIM_SNAP_RESULT_SEQ.addr) 48 16
    ∧ bitsAt (wdata (wacc 0x0006000000000000)) 48 16 ≠ bitsAt (rd shown F.TIM_SNAP_RESULT_SEQ.addr) 48 16
    ∧ valid lit F.TIM_SNAP_RESULT_SEQ.addr = false := by decide
theorem witness_resultConsume : Admitted shown F.TIM_SNAP_RESULT_SEQ.addr (wacc 0x0005000000000000) (wacc 0x0005000000000000) := by unfold Admitted; decide

/-! Witnesses of ResetLevelsComplete. -/

theorem witness_cold : State.reset.clk.pwron = false := rfl
theorem witness_warm : lit.clk.pwron = true ∧ lit.ksp.saveBusy = false := by decide
theorem witness_clkRstWarm : Admitted lit F.CLK_RST_CTL_WARM.addr (force F.CLK_RST_CTL_WARM 1 (wacc 0)) (force F.CLK_RST_CTL_WARM 1 (wacc 0)) := by
  unfold Admitted; decide

/-! Witnesses of ClockAndCrossingCommandsComplete. -/

/-- A state in which domain 1 is FENCED and in no reset. -/
def fenced1 : State := setFence 1 3 false lit

theorem witness_domainResetRequest : Admitted fenced1 F.CLK_RST_CTL_WARM.addr (force F.CLK_RST_CTL_WARM 0 (wacc 2)) (force F.CLK_RST_CTL_WARM 0 (wacc 2))
    ∧ (wdata (force F.CLK_RST_CTL_WARM 0 (wacc 2))).toNat % 128 = 2 ^ 1 ∧ fenceState fenced1 1 = 3 ∧ get fenced1 rstBits = 0
    ∧ get fenced1 F.CLK_DOMAIN_STATUS_IN_RESET % 2 ^ 7 = 0 := by unfold Admitted; decide
theorem witness_domainResetRelease :
    let s := set (set lit F.CLK_DOMAIN_STATUS_IN_RESET 2) rstBits 2
    s.clk.stopped = false ∧ bitOn s F.CLK_DOMAIN_STATUS_IN_RESET 1 = true ∧ get s rstBits = 2 ^ 1 ∧ ∀ x ∈ crossingsOf 1, crossPhase s x = 0 := by decide
theorem witness_clkMon : let s := set lit F.CLK_STATUS_MON_EN 1
    on s F.CLK_STATUS_MON_EN = true ∧ s.clk.pwron = true ∧ get s F.CLK_MON_LIMIT < max 134353 134218 - min 134353 134218 := by decide
theorem witness_gate : let s := { lit with clk := { lit.clk with idleGate := 7 } }
    s.clk.idleGate.testBit 2 = true ∧ branchIdle s 2 = true ∧ pwState s = 0 ∧ s.clk.pwron = true := by decide
theorem witness_restart : let s := { lit with tre := { jobs := [⟨0, 0, 0, 1, false, 1, 0, 0, 0, false⟩] } }
    branchIdle s 1 = false ∧ pwState s = 0 := by decide
theorem witness_crossings : lit.clk.xphase.length = 4 ∧ lit.clk.pwron = true ∧ crossPhase lit 3 = 1 ∧ lit.clk.stopped = false
    ∧ crossPhase { lit with clk := { lit.clk with xphase := [2, 2, 2, 2] } } 3 = 2 := by decide

/-! Witnesses of InterruptCommandsComplete. -/

/-- Source 240 is mapped to group 1, pending, unmasked, and of a die. -/
def pended : State :=
  { set (set (set lit (F.IRQ_SRC_CFG_MAPPED 240) 1) (F.IRQ_SRC_CFG_GROUP 240) 1) (F.IRQ_PEND_PEND 3) (2 ^ 48) with
    irq := { effMask := [(3, 0)], lastRise := [(1, 0)] } }
theorem witness_pendAck : Admitted lit (F.IRQ_PEND_PEND 15).addr (wacc 1) (wacc 1) ∧ (wacc 1).half = .full ∧ (wacc 1).hwMask = 0 := by unfold Admitted; decide
theorem witness_done : let s := set lit (F.IRQ_ACTIVE_ACTIVE 3) (2 ^ 48)
    Admitted s F.IRQ_DONE_SOURCE.addr (wacc 240) (wacc 240) ∧ bitsAt (wdata (wacc 240)) 0 10 = 240 ∧ 240 < nSources (atEdge s (wacc 240))
    ∧ irqActive (atEdge s (wacc 240)) 240 = true := by unfold Admitted; decide
theorem witness_swSet : Admitted lit F.IRQ_SW_SET_SOURCE.addr (wacc 255) (wacc 255) ∧ bitsAt (wdata (wacc 255)) 0 10 = 255 ∧ 255 < nSources lit
    ∧ Admitted lit F.IRQ_SW_SET_SOURCE.addr (wacc 1023) (wacc 1023) ∧ bitsAt (wdata (wacc 1023)) 0 10 = 1023 ∧ pers lit ≠ 1 ∧ 1023 < nSources lit := by unfold Admitted; decide
theorem witness_mask : Admitted lit (F.IRQ_MASK_MASK 15).addr (wacc 7) (wacc 7) ∧ (wacc 7).half = .full ∧ (wacc 7).hwMask = 0 := by unfold Admitted; decide
theorem witness_holdoff : look 1 pended.irq.lastRise = some 0 ∧ inReset pended 0 = false ∧ 1 < nGroups pended ∧ pended.irq.maskDue = [] := by decide
theorem witness_driven : groupDriven pended 1 = true := by
  refine List.any_eq_true.2 ⟨3, by decide, ?_⟩
  rw [Bool.and_eq_true]
  refine ⟨by decide, List.any_eq_true.2 ⟨48, by decide, by decide⟩⟩

/-! Witnesses of SyncCommandsComplete. -/

/-- The block with core 0 running. -/
def cored : State := set lit F.CTL_STATUS_RUNNING 1
/-- A full write by core 0. -/
def cacc (v : Word) : Acc := { wacc v with port := .core 0, priv := .D }

theorem witness_signal : Admitted cored F.SYN_SIGNAL_OBJECT.addr (cacc 0x1FF) (cacc 0x1FF) ∧ bitsAt (wdata (cacc 0x1FF)) 0 8 = 255
    ∧ get cored (F.SYN_OBJ_VIEW0_VALUE 255) + bitsAt (wdata (cacc 0x1FF)) 8 32 < 2 ^ 32
    ∧ 2 ^ 32 ≤ get (set cored (F.SYN_OBJ_VIEW0_VALUE 255) 0xFFFFFFFF) (F.SYN_OBJ_VIEW0_VALUE 255) + bitsAt (wdata (cacc 0x1FF)) 8 32 := by
  unfold Admitted; decide
theorem witness_extSignal : Admitted lit F.SYN_SIGNAL_OBJECT.addr (wacc 1) (wacc 1) ∧ (wacc 1).port = .rgp := by unfold Admitted; decide
theorem witness_wait : inReset lit 0 = false ∧ 7 < nCores lit ∧ ∀ w ∈ lit.syn.waits, w.core ≠ 7 := by decide
/-- Core 3 waits for two of object 255. -/
def waiting : State := { lit with syn := { waits := [⟨3, 255, 2, 0, 10⟩] } }
theorem witness_grant : headReady (set waiting (F.SYN_OBJ_VIEW0_VALUE 255) 2) 255 = some ⟨3, 255, 2, 0, 10⟩ := by decide
theorem witness_timeout : waiting.syn.waits.find? (fun w => w.core == 3) = some ⟨3, 255, 2, 0, 10⟩ ∧ headReady waiting 255 ≠ some ⟨3, 255, 2, 0, 10⟩ := by decide
theorem witness_set : Admitted lit (F.SYN_OBJ_VIEW2_SET 255).addr (wacc 9) (wacc 9) ∧ (wacc 9).half = .full := by unfold Admitted; decide
theorem witness_violation : Admitted cored F.SYN_VIOLATION_OBJECT.addr (cacc 5) (cacc 5) ∧ (cacc 5).port = .core 0 := by unfold Admitted; decide

/-! The smoke test of well-formedness: for each check a command that it refuses, and two that it admits. -/

/-- An access with a 17-bit initiator, which no port can present. -/
def badAcc : Acc := { wacc 0 with init := 65536 }

theorem test_wf_admits : Instr.wf (.registerWrite 0xFFFFF8 (wacc 0) none none) = true ∧ Instr.wf .warmReset = true := by decide
theorem test_wf_access : (Instr.wf (.clkRstWarm badAcc) || Instr.wf (.clkRstWarm { wacc 0 with tgaFrom := 2 ^ 27 }) || Instr.wf (.clkRstWarm { wacc 0 with tag := 8 })
    || Instr.wf (.clkRstWarm { wacc (2 ^ 32) with half := .lo }) || Instr.wf (.clkRstWarm { wacc 0 with port := .core 8 })) = false := by decide
theorem test_wf_address : (Instr.wf (.registerWrite 0x1000000 (wacc 0) none none) || Instr.wf (.resultConsume 0x1000000 (wacc 0))
    || Instr.wf (.dbgacc 1 0x1000000 0) || Instr.wf (.dbgacc 4 0 0)) = false := by decide
theorem test_wf_step : (Instr.wf (.coreStep (wacc 0) 3 0 none []) || Instr.wf (.coreStep (wacc 0) 4 (2 ^ 64) none [])
    || Instr.wf (.coreStep (wacc 0) 4 0 none [(0, 1)]) || Instr.wf (.traceInstruction 0 0 3 0 none) || Instr.wf (.traceInstruction 8 0 4 0 none)) = false := by decide
theorem test_wf_clocks : (Instr.wf (.domainResetRelease 7) || Instr.wf (.clkMonWindowEnd (2 ^ 32)) || Instr.wf (.clockBranchGate 3)
    || Instr.wf (.clockBranchRestart 3) || Instr.wf (.hostSideReset 4) || Instr.wf (.xrstAckSeen 4) || Instr.wf (.xrstHandshakeDone 4)) = false := by decide
theorem test_wf_observation : (Instr.wf (.eopEvent 8192 1) || Instr.wf (.tagTransfer 64 0 0 0) || Instr.wf (.tagTransfer 0 (2 ^ 32) 0 0)
    || Instr.wf (.tagTransfer 0 0 (2 ^ 20) 0) || Instr.wf (.tagTransfer 0 0 0 (2 ^ 12)) || Instr.wf (.snapshotRecord 64 [0] false)
    || Instr.wf (.snapshotRecord 0 [] false) || Instr.wf (.witnessRecord 0 [] false) || Instr.wf (.probeResultRecord 64 [0] false)) = false := by decide
theorem test_wf_fences : (Instr.wf (.fenceAckSeen 32) || Instr.wf (.fenceDrainDone 32 false) || Instr.wf (.fenceLinesLow 32) || Instr.wf (.fenceAckTmo 32)
    || Instr.wf (.fenceDrainTmo 32) || Instr.wf (.releaseTimeout 32) || Instr.wf (.fenceProto 0 4) || Instr.wf (.fenceDrained 7)
    || Instr.wf (.rcvDrainTmo 0 (2 ^ 30)) || Instr.wf (.fenceOrder 4 (wacc 0)) || Instr.wf (.teardownTimeout 4) || Instr.wf (.dumpProbeTimeout 0x1E false)) = false := by decide
theorem test_wf_memory_port : (Instr.wf (.mmpReadData 8 0 [(.ok, 0)]) || Instr.wf (.mmpReadData 0 256 [(.ok, 0)]) || Instr.wf (.mmpReadData 0 0 [])
    || Instr.wf (.mmpWriteResponse 0 64 .ok) || Instr.wf (.writeIntent (2 ^ 40) 0) || Instr.wf (.intentStallTimeout 64)) = false := by decide
theorem test_wf_ports : (Instr.wf (.txCreditReturn 20 0 1) || Instr.wf (.txCreditReturn 0 4 1) || Instr.wf (.txCreditReturn 0 0 64) || Instr.wf (.laneLinkUp 20)
    || Instr.wf (.sepFrameReceive 17 [] 0) || Instr.wf (.sepFrameReceive 0 [] 65536) || Instr.wf (.sepPcsUp 17)) = false := by decide
theorem test_wf_tally : (Instr.wf (.scheduleEnable 64 (wacc 0)) || Instr.wf (.scheduleRegisterWrite 0 3 (wacc 0)) || Instr.wf (.epochCut 64)
    || Instr.wf (.tallySample 16 (wacc 0) none) || Instr.wf (.shadowPass 0x1E true) || Instr.wf (.jumpAccept 2 (wacc 0)) || Instr.wf (.servoTimeout 2)
    || Instr.wf (.pulseEdge 4) || Instr.wf (.captureEdge 5 0)) = false := by decide
theorem test_wf_fabric_memory : (Instr.wf (.epochDeadline 4096 0) || Instr.wf (.epochGraceEnd 0 (2 ^ 48)) || Instr.wf (.saturatedEpochClose 4096 0 0)
    || Instr.wf (.tgaReadGo 16 (wacc 0)) || Instr.wf (.inkSelect 3 0) || Instr.wf (.inkSelect 0 32) || Instr.wf (.ladderPause 512 false)) = false := by decide
theorem test_wf_engines : (Instr.wf (.treeJobGo 16 (wacc 0)) || Instr.wf (.treeJobStart 4) || Instr.wf (.faultMarkExpire 48) || Instr.wf (.detectorRefWrite 64 (wacc 0))
    || Instr.wf (.subjectObserve 64 (wacc 0)) || Instr.wf (.encodeJobGo 8 (wacc 0)) || Instr.wf (.cmpJobComplete 8) || Instr.wf (.porterResume 4 (wacc 0))) = false := by decide
theorem test_wf_control : (Instr.wf (.cwBadOp 16 (wacc 0)) || Instr.wf (.cwFirmwareOp 0 none (some (256, 0, 0, 0))) || Instr.wf (.coreHaltEcc 8) || Instr.wf (.syncWaitGrant 256)
    || Instr.wf (.irqMaskWrite 16 (wacc 0)) || Instr.wf (.irqHoldoffExpire 64) || Instr.wf (.wakeEvent 9) || Instr.wf (.traceTimeComparator 8)) = false := by decide

end Sys2Proof.Tests
end

section
/-!
PROOF. The statements of 00_scope.md: every command answers a next state (R729, R21, log 2), the canonical form of State.reset (R20, R82, log 5) and that every
step keeps it, and what the reset levels leave (R9, R82, R84, R576, logs 49 to 52).
-/
namespace Sys2Proof.Machine

/-! Every command. -/

/-- Each arm of `exec` is `.next` of a total function of the state. -/
theorem exec_next (c : Instr) (s : State) : ∃ t, exec c s = .next t := by
  cases c <;> exact ⟨_, rfl⟩

/-- What every command keeps: each arm of `exec` cites the lemma of its meaning. -/
theorem exec_keeps {c : Instr} {s t : State} (e : exec c s = .next t) : Keeps s t := by
  cases c with
  | registerWrite => exact execRegisterWrite_keeps _ _ _ _ e
  | ledgerQueueAdmit => exact execLedgerQueueAdmit_keeps e
  | resultConsume => exact execResultConsume_keeps _ _ e
  | coldReset => exact execColdReset_keeps _ e
  | warmReset => exact execWarmReset_keeps e
  | clkRstWarm => exact execClkRstWarm_keeps _ e
  | domainResetRequest => exact execDomainResetRequest_keeps _ e
  | domainResetRelease => exact execDomainResetRelease_keeps _ e
  | clkMonWindowEnd => exact execClkMonWindowEnd_keeps _ e
  | clockBranchGate => exact execClockBranchGate_keeps _ e
  | clockBranchRestart => exact execClockBranchRestart_keeps _ e
  | hostSideReset => exact execHostSideReset_keeps _ e
  | xrstAckSeen => exact execXrstAckSeen_keeps _ e
  | xrstHandshakeDone => exact execXrstHandshakeDone_keeps _ e
  | eopEvent => exact execEopEvent_keeps _ _ e
  | attentionPulse => exact execAttentionPulse_keeps e
  | tagTransfer => exact execTagTransfer_keeps _ _ _ _ e
  | snapshotRecord => exact execSnapshotRecord_keeps _ _ _ e
  | witnessRecord => exact execWitnessRecord_keeps _ _ _ e
  | probeResultRecord => exact execProbeResultRecord_keeps _ _ _ e
  | probeIssue => exact execProbeIssue_keeps _ e
  | seedBundleSend => exact execSeedBundleSend_keeps e
  | seedAck => exact execSeedAck_keeps e
  | seedAckTimeout => exact execSeedAckTimeout_keeps e
  | fenceAckSeen => exact execFenceAckSeen_keeps _ e
  | fenceDrainDone => exact execFenceDrainDone_keeps _ _ e
  | fenceLinesLow => exact execFenceLinesLow_keeps _ e
  | fenceAckTmo => exact execFenceAckTmo_keeps _ e
  | fenceDrainTmo => exact execFenceDrainTmo_keeps _ e
  | fenceProto => exact execFenceProto_keeps _ _ e
  | mmpRequestIssue => exact execMmpRequestIssue_keeps e
  | mmpReadData => exact execMmpReadData_keeps _ _ _ e
  | mmpWriteResponse => exact execMmpWriteResponse_keeps _ _ _ e
  | writeIntent => exact execWriteIntent_keeps _ _ e
  | intentStallTimeout => exact execIntentStallTimeout_keeps _ e
  | txCreditReturn => exact execTxCreditReturn_keeps _ _ _ e
  | frpPacketReceive => exact execFrpPacketReceive_keeps _ _ e
  | rxCreditReturn => exact execRxCreditReturn_keeps _ _ _ e
  | laneLinkUp => exact execLaneLinkUp_keeps _ e
  | laneLinkDown => exact execLaneLinkDown_keeps _ e
  | fbpRxPartWrite => exact execFbpRxPartWrite_keeps _ e
  | sepFrameReceive => exact execSepFrameReceive_keeps _ _ _ e
  | sepFrameTransmit => exact execSepFrameTransmit_keeps _ _ e
  | tcForward => exact execTcForward_keeps _ e
  | sepPcsDown => exact execSepPcsDown_keeps _ _ _ e
  | kspRead => exact execKspRead_keeps _ e
  | kspPageProgram => exact execKspPageProgram_keeps _ e
  | kspSectorErase => exact execKspSectorErase_keeps _ e
  | kspReadStatus => exact execKspReadStatus_keeps _ e
  | kspCmdDone => exact execKspCmdDone_keeps _ _ e
  | kspPollDone => exact execKspPollDone_keeps _ e
  | kspPollTimeout => exact execKspPollTimeout_keeps e
  | powerFailWarning => exact execPowerFailWarning_keeps _ _ e
  | strongboxSaveDone => exact execStrongboxSaveDone_keeps e
  | savePgFall => exact execSavePgFall_keeps e
  | itineraryLoadStart => exact execItineraryLoadStart_keeps _ _ _ e
  | slotReadDone => exact execSlotReadDone_keeps _ e
  | itineraryApplyDone => exact execItineraryApplyDone_keeps e
  | pushStart => exact execPushStart_keeps _ e
  | pushAbort => exact execPushAbort_keeps _ e
  | pushData => exact execPushData_keeps _ e
  | pushVerifyDone => exact execPushVerifyDone_keeps e
  | liveOverlayApply => exact execLiveOverlayApply_keeps e
  | quiesceOverlayStart => exact execQuiesceOverlayStart_keeps e
  | quiesceOverlayWrite => exact execQuiesceOverlayWrite_keeps _ e
  | quiesceOverlayTimeout => exact execQuiesceOverlayTimeout_keeps e
  | overlayHoldTimeout => exact execOverlayHoldTimeout_keeps e
  | scheduleEnable => exact execScheduleEnable_keeps _ _ e
  | scheduleDisable => exact execScheduleDisable_keeps _ _ e
  | scheduleRegisterWrite => exact execScheduleRegisterWrite_keeps _ _ _ e
  | epochCut => exact execEpochCut_keeps _ e
  | lateCut => exact execLateCut_keeps e
  | cutComplete => exact execCutComplete_keeps e
  | binFlush => exact execBinFlush_keeps _ e
  | tallySample => exact execTallySample_keeps _ _ _ e
  | shadowPass => exact execShadowPass_keeps _ _ e
  | waybillRecordWrite => exact execWaybillRecordWrite_keeps e
  | waybillWriteComplete => exact execWaybillWriteComplete_keeps e
  | waybillProdTick => exact execWaybillProdTick_keeps e
  | waybillTrigger => exact execWaybillTrigger_keeps _ e
  | waybillArm => exact execWaybillArm_keeps _ e
  | ptpSyncReceive => exact execPtpSyncReceive_keeps _ _ e
  | ptpFollowUpReceive => exact execPtpFollowUpReceive_keeps _ e
  | ptpDelayRespReceive => exact execPtpDelayRespReceive_keeps _ e
  | delayReqSend => exact execDelayReqSend_keeps _ e
  | jumpAccept => exact execJumpAccept_keeps _ _ e
  | jumpDismiss => exact execJumpDismiss_keeps _ _ e
  | servoTimeout => exact execServoTimeout_keeps _ e
  | timeSnapshot => exact execTimeSnapshot_keeps _ e
  | fabricDreqSend => exact execFabricDreqSend_keeps e
  | fabricDreqReceive => exact execFabricDreqReceive_keeps e
  | fabricDrespReceive => exact execFabricDrespReceive_keeps e
  | fabricDrespFupReceive => exact execFabricDrespFupReceive_keeps e
  | pulseEnable => exact execPulseEnable_keeps _ _ e
  | pulseEdge => exact execPulseEdge_keeps _ e
  | pulseFall => exact execPulseFall_keeps _ e
  | ppsOutRise => exact execPpsOutRise_keeps e
  | ppsOutFall => exact execPpsOutFall_keeps e
  | captureEdge => exact execCaptureEdge_keeps _ _ e
  | captureConsume => exact execCaptureConsume_keeps _ _ e
  | deltaReceive => exact execDeltaReceive_keeps e
  | aggReceive => exact execAggReceive_keeps e
  | sketchReceive => exact execSketchReceive_keeps e
  | verdictReceive => exact execVerdictReceive_keeps e
  | closedReceive => exact execClosedReceive_keeps e
  | epochDeadline => exact execEpochDeadline_keeps _ _ e
  | epochGraceEnd => exact execEpochGraceEnd_keeps _ _ e
  | joinReceive => exact execJoinReceive_keeps e
  | detourReceive => exact execDetourReceive_keeps e
  | missingReceive => exact execMissingReceive_keeps e
  | coarsenReceive => exact execCoarsenReceive_keeps e
  | bcastReceive => exact execBcastReceive_keeps e
  | saturatedEpochClose => exact execSaturatedEpochClose_keeps _ _ _ e
  | slotOpen => exact execSlotOpen_keeps _ e
  | slotDrain => exact execSlotDrain_keeps _ e
  | slotRetire => exact execSlotRetire_keeps _ e
  | routeModeWrite => exact execRouteModeWrite_keeps _ e
  | tgaReadGo => exact execTgaReadGo_keeps _ _ e
  | tgaWriteGo => exact execTgaWriteGo_keeps _ _ e
  | tgaReqReceive => exact execTgaReqReceive_keeps e
  | tgaAnsReceive => exact execTgaAnsReceive_keeps e
  | tgaTimeout => exact execTgaTimeout_keeps e
  | inkSelect => exact execInkSelect_keeps _ _ e
  | queueRoomResume => exact execQueueRoomResume_keeps _ e
  | shaperRefill => exact execShaperRefill_keeps e
  | ladderPause => exact execLadderPause_keeps _ _ e
  | queueCfgWrite => exact execQueueCfgWrite_keeps _ _ e
  | modelBind => exact execModelBind_keeps _ e
  | modelBindDone => exact execModelBindDone_keeps _ e
  | modelUnbind => exact execModelUnbind_keeps _ e
  | treeJobGo => exact execTreeJobGo_keeps _ _ e
  | treeJobStart => exact execTreeJobStart_keeps _ e
  | treeJobDone => exact execTreeJobDone_keeps _ _ _ e
  | arrayJobGo => exact execArrayJobGo_keeps _ _ e
  | arrayPassDone => exact execArrayPassDone_keeps _ _ _ _ e
  | detectorEvaluate => exact execDetectorEvaluate_keeps e
  | detectorRefWrite => exact execDetectorRefWrite_keeps _ _ e
  | scores => exact execScores_keeps _ _ e
  | verifyReferenceDone => exact execVerifyReferenceDone_keeps _ e
  | verifyConfirmDone => exact execVerifyConfirmDone_keeps _ _ _ e
  | witnessAccountingClose => exact execWitnessAccountingClose_keeps e
  | witnessReceive => exact execWitnessReceive_keeps e
  | subjectObserve => exact execSubjectObserve_keeps _ _ e
  | subjectClear => exact execSubjectClear_keeps _ _ e
  | verifyOutcome => exact execVerifyOutcome_keeps _ _ e
  | fieldTestDone => exact execFieldTestDone_keeps _ _ _ _ _ _ _ _ e
  | faultMarkExpire => exact execFaultMarkExpire_keeps _ e
  | probeCampaignStart => exact execProbeCampaignStart_keeps _ e
  | probeCampaignAbort => exact execProbeCampaignAbort_keeps _ e
  | probeTimeout => exact execProbeTimeout_keeps e
  | snapshotArm => exact execSnapshotArm_keeps _ e
  | snapshotSeal => exact execSnapshotSeal_keeps _ e
  | snapshotAbort => exact execSnapshotAbort_keeps _ e
  | ckptSend => exact execCkptSend_keeps _ e
  | ckptRestore => exact execCkptRestore_keeps _ e
  | granuleCopied => exact execGranuleCopied_keeps e
  | stripeSend => exact execStripeSend_keeps e
  | parityReady => exact execParityReady_keeps _ _ e
  | ckptDataReceive => exact execCkptDataReceive_keeps e
  | ckptCommitReceive => exact execCkptCommitReceive_keeps e
  | commitRecordValidate => exact execCommitRecordValidate_keeps e
  | ckptAckReceive => exact execCkptAckReceive_keeps e
  | commitTimeout => exact execCommitTimeout_keeps e
  | checkpointDeadline => exact execCheckpointDeadline_keeps e
  | restoreTimeout => exact execRestoreTimeout_keeps e
  | encodeJobGo => exact execEncodeJobGo_keeps _ _ e
  | decodeJobGo => exact execDecodeJobGo_keeps _ _ e
  | encodeBlockDone => exact execEncodeBlockDone_keeps _ _ e
  | decodeBlockDone => exact execDecodeBlockDone_keeps _ e
  | cmpJobComplete => exact execCmpJobComplete_keeps _ e
  | porterHeadWrite => exact execPorterHeadWrite_keeps _ _ e
  | porterChannelConfigWrite => exact execPorterChannelConfigWrite_keeps _ _ _ e
  | porterDescriptorStart => exact execPorterDescriptorStart_keeps _ _ e
  | porterDescriptorDone => exact execPorterDescriptorDone_keeps _ e
  | porterResume => exact execPorterResume_keeps _ _ e
  | heartbeatPulse => exact execHeartbeatPulse_keeps _ _ e
  | fenceOrder => exact execFenceOrder_keeps _ _ e
  | dumpOrder => exact execDumpOrder_keeps _ _ e
  | resetOrder => exact execResetOrder_keeps _ _ e
  | releaseOrder => exact execReleaseOrder_keeps _ _ e
  | forceOrder => exact execForceOrder_keeps _ _ e
  | teardownOrder => exact execTeardownOrder_keeps _ _ e
  | teardownStepComplete => exact execTeardownStepComplete_keeps _ e
  | teardownTimeout => exact execTeardownTimeout_keeps _ e
  | fenceDrained => exact execFenceDrained_keeps _ e
  | rcvDrainTmo => exact execRcvDrainTmo_keeps _ _ e
  | releaseTimeout => exact execReleaseTimeout_keeps _ e
  | dumpProbeTimeout => exact execDumpProbeTimeout_keeps _ _ e
  | dumpBuildDone => exact execDumpBuildDone_keeps e
  | dumpWriteDone => exact execDumpWriteDone_keeps e
  | heldDumpWrite => exact execHeldDumpWrite_keeps e
  | dumpDiscard => exact execDumpDiscard_keeps _ e
  | faultNoticeSend => exact execFaultNoticeSend_keeps e
  | holdoverEnter => exact execHoldoverEnter_keeps _ e
  | holdoverLinkTimeout => exact execHoldoverLinkTimeout_keeps e
  | holdoverExit => exact execHoldoverExit_keeps _ e
  | holdoverDrainSend => exact execHoldoverDrainSend_keeps e
  | drainReceive => exact execDrainReceive_keeps e
  | guestbookAccept => exact execGuestbookAccept_keeps e
  | guestbookExport => exact execGuestbookExport_keeps e
  | guestbookFlush => exact execGuestbookFlush_keeps _ e
  | guestbookExportDone => exact execGuestbookExportDone_keeps e
  | verdictAck => exact execVerdictAck_keeps _ e
  | strongboxRestore => exact execStrongboxRestore_keeps e
  | strongboxRestoreDone => exact execStrongboxRestoreDone_keeps _ _ e
  | coreHaltEcc => exact execCoreHaltEcc_keeps _ e
  | firmwareLoad => exact execFirmwareLoad_keeps _ _ e
  | firmwareStage => exact execFirmwareStage_keeps _ e
  | firmwareStageDone => exact execFirmwareStageDone_keeps _ e
  | firmwareSwitch => exact execFirmwareSwitch_keeps _ e
  | switchReq => exact execSwitchReq_keeps e
  | firmwareReady => exact execFirmwareReady_keeps _ e
  | firmwareSwitchTimeout => exact execFirmwareSwitchTimeout_keeps e
  | caravanPayload => exact execCaravanPayload_keeps _ _ _ e
  | ptpStamps => exact execPtpStamps_keeps _ _ e
  | cwFirmwareOp => exact execCwFirmwareOp_keeps _ _ _ e
  | cwBadOp => exact execCwBadOp_keeps _ _ e
  | modeSwitch => exact execModeSwitch_keeps _ e
  | modeSwitchFlip => exact execModeSwitchFlip_keeps _ e
  | modeSwitchTimeout => exact execModeSwitchTimeout_keeps e
  | syncSignal => exact execSyncSignal_keeps _ e
  | syncWait => exact execSyncWait_keeps _ _ e
  | syncWaitGrant => exact execSyncWaitGrant_keeps _ e
  | syncWaitTimeout => exact execSyncWaitTimeout_keeps _ e
  | syncSet => exact execSyncSet_keeps _ _ e
  | syncViolation => exact execSyncViolation_keeps _ e
  | irqPendAck => exact execIrqPendAck_keeps _ _ e
  | irqDone => exact execIrqDone_keeps _ e
  | irqSwSet => exact execIrqSwSet_keeps _ e
  | irqMaskWrite => exact execIrqMaskWrite_keeps _ _ e
  | irqHoldoffExpire => exact execIrqHoldoffExpire_keeps _ e
  | powerStateRequest => exact execPowerStateRequest_keeps _ e
  | powerAskRetry => exact execPowerAskRetry_keeps e
  | powerEntryTimeout => exact execPowerEntryTimeout_keeps e
  | powerHoldComplete => exact execPowerHoldComplete_keeps e
  | coreAck => exact execCoreAck_keeps _ e
  | wakeEvent => exact execWakeEvent_keeps _ e
  | wakeTimer => exact execWakeTimer_keeps e
  | powerExitDone => exact execPowerExitDone_keeps e
  | stepAsk => exact execStepAsk_keeps _ e
  | stepHold => exact execStepHold_keeps _ e
  | stepGate => exact execStepGate_keeps _ e
  | stepRelease => exact execStepRelease_keeps _ e
  | traceInstruction => exact execTraceInstruction_keeps _ _ _ _ _ e
  | traceArm => exact execTraceArm_keeps _ e
  | traceSoft => exact execTraceSoft_keeps _ e
  | traceTimeComparator => exact execTraceTimeComparator_keeps _ e
  | authInstallStart => exact execAuthInstallStart_keeps _ e
  | authData => exact execAuthData_keeps _ e
  | authVerifyDone => exact execAuthVerifyDone_keeps e
  | authRevoke => exact execAuthRevoke_keeps _ e
  | authLapse => exact execAuthLapse_keeps e
  | dbgacc => exact execDbgacc_keeps _ _ _ e
  | coreHalt => exact execCoreHalt_keeps _ e
  | coreStep => exact execCoreStep_keeps _ _ _ _ _ e
  | coreResume => exact execCoreResume_keeps _ e
  | ptpAnnounceReceive => exact execPtpAnnounceReceive_keeps _ e
  | restorePacketReceive => exact execRestorePacketReceive_keeps e
  | coldResetAssert => exact execColdResetAssert_keeps e
  | kspResetRelease => exact execKspResetRelease_keeps e
  | sepPcsUp => exact execSepPcsUp_keeps _ e

/-! The canonical form. -/

/-- The canonical form says nothing of the queue of commands. -/
theorem canonical_pending (q : List Instr) (s : State) : Canonical { s with pending := q } ↔ Canonical s := Iff.rfl

theorem exec_canonical {c : Instr} {s t : State} (e : exec c s = .next t) (h : Canonical s) : Canonical t := by
  obtain ⟨-, -, -, canon⟩ := exec_keeps e
  exact canon h

theorem tick_canonical {s : State} (h : Canonical s) : Canonical (tick s) := by
  obtain ⟨-, -, -, canon⟩ := tick_keeps (Keeps.refl s)
  exact canon h

/-- A step carries out the command at the front of the queue, or is a tick when none waits. -/
theorem step_cases {s t : State} (e : step s = .next t) :
    (∃ c q, s.pending = c :: q ∧ exec c { s with pending := q } = .next t) ∨ (s.pending = [] ∧ t = tick s) := by
  unfold step at e
  split at e
  case h_1 c q hq => exact .inl ⟨c, q, hq, e⟩
  case h_2 hq => exact .inr ⟨hq, by injection e with e; exact e.symm⟩

theorem reset_canonical : Canonical State.reset := ⟨List.Pairwise.nil, rfl, rfl⟩

/-- No register is listed at reset, so that each reads its default. -/
theorem rd_reset (a : Nat) : rd State.reset a = regDefault a := rfl

/-! Cold reset. -/

/-- What PWRON_RST_N leaves when it rises: the block as under cold reset, with the clocks running and a Strongbox restore due (R84, R623). -/
def coldStart (s : State) : State :=
  { coldAssert s with clk := { (coldAssert s).clk with pwron := true }, sbx := { (coldAssert s).sbx with restoring := true, coldRestore := true } }

theorem coldRelease_eq (chip : BitVec 128) {s : State} (h : s.clk.pwron = false) :
    coldRelease chip s = set (set (set (set (coldStart s) F.GLB_CHIP_ID_LO_CHIP_ID chip.toNat) F.GLB_CHIP_ID_HI_CHIP_ID (chip.toNat / 2 ^ 64))
      F.CLK_STATUS_LOCKED 1) F.CLK_DOMAIN_STATUS_IN_RESET 0x60 := by
  unfold coldRelease
  rw [h]
  rfl

theorem coldRelease_chipIdLo (chip : BitVec 128) {s : State} (h : s.clk.pwron = false) :
    get (coldRelease chip s) F.GLB_CHIP_ID_LO_CHIP_ID = chip.toNat % 2 ^ 64 := by
  rw [coldRelease_eq chip h, get_set_other _ _ (by decide) (by decide), get_set_other _ _ (by decide) (by decide),
    get_set_other _ _ (by decide) (by decide), get_set_same _ _ _ (by decide)]
  rfl

theorem coldRelease_chipIdHi (chip : BitVec 128) {s : State} (h : s.clk.pwron = false) :
    get (coldRelease chip s) F.GLB_CHIP_ID_HI_CHIP_ID = chip.toNat / 2 ^ 64 := by
  have fits : chip.toNat / 2 ^ 64 < 2 ^ 64 := Nat.div_lt_of_lt_mul chip.isLt
  rw [coldRelease_eq chip h, get_set_other _ _ (by decide) (by decide), get_set_other _ _ (by decide) (by decide),
    get_set_same _ _ _ (by decide)]
  exact Nat.mod_eq_of_lt fits

theorem coldRelease_locked (chip : BitVec 128) {s : State} (h : s.clk.pwron = false) : get (coldRelease chip s) F.CLK_STATUS_LOCKED = 1 := by
  rw [coldRelease_eq chip h, get_set_other _ _ (by decide) (by decide), get_set_same _ _ _ (by decide)]
  rfl

theorem coldRelease_inReset (chip : BitVec 128) {s : State} (h : s.clk.pwron = false) :
    get (coldRelease chip s) F.CLK_DOMAIN_STATUS_IN_RESET = 0x60 := by
  rw [coldRelease_eq chip h, get_set_same _ _ _ (by decide)]
  rfl

/-! Warm reset. -/

theorem get_ite {c : Prop} [Decidable c] {a b : State} {f : Field} {x : Nat} (ha : get a f = x) (hb : get b f = x) :
    get (if c then a else b) f = x := by
  split
  · exact ha
  · exact hb

/-- The three registers of the fence states (R565). -/
def fenceRegs : List Field := [F.RCV_FENCE_BLK_STATE, F.RCV_FENCE_HOST0_STATE, F.RCV_FENCE_HOST1_STATE]

/-- What both warm resets leave, but for the value of LAST_RESET: the shells in reset, every handshake open, and every fence OPEN. -/
def WarmLeft (why : Nat) (t : State) : Prop :=
  get t F.CLK_STATUS_LAST_RESET = why ∧ get t F.CLK_DOMAIN_STATUS_IN_RESET = 0x60 ∧ get t F.CLK_DOMAIN_STATUS_XRST_BUSY = 0xF
    ∧ get t F.RCV_FENCE_BLK_STATE = 0 ∧ get t F.RCV_FENCE_HOST0_STATE = 0 ∧ get t F.RCV_FENCE_HOST1_STATE = 0

/-- The fence registers lie in the RCV page and are neither its STATUS nor its ERR register. -/
theorem fenceRegs_place {f : Field} (h : f ∈ fenceRegs) :
    f.addr / 65536 = 0x13 ∧ f.addr ≠ F.RCV_ERR_DUMP_ABANDONED.addr ∧ f.addr ≠ F.RCV_STATUS_DUMP_BUSY.addr
      ∧ f.addr ≠ F.RCV_STATUS_DBUF_HELD.addr ∧ f.lo + f.w ≤ 64 := by
  revert f; decide

/-- With every fence register set to 0, each of them reads 0. -/
theorem get_fencesOpened (s : State) {f : Field} (h : f ∈ fenceRegs) :
    get (set (set (set s F.RCV_FENCE_BLK_STATE 0) F.RCV_FENCE_HOST0_STATE 0) F.RCV_FENCE_HOST1_STATE 0) f = 0 := by
  simp only [fenceRegs, List.mem_cons, List.not_mem_nil, or_false] at h
  rcases h with rfl | rfl | rfl
  · rw [get_set_other _ _ (by decide) (by decide), get_set_other _ _ (by decide) (by decide), get_set_same _ _ _ (by decide)]; rfl
  · rw [get_set_other _ _ (by decide) (by decide), get_set_same _ _ _ (by decide)]; rfl
  · rw [get_set_same _ _ _ (by decide)]; rfl

/-- The recovery unit's part of a warm reset opens every fence (R576); an abandoned dump and the records that follow touch no fence register. -/
theorem get_rcvWarm_fence (s : State) {f : Field} (h : f ∈ fenceRegs) : get (rcvWarm s) f = 0 := by
  obtain ⟨page, notErr, notBusy, notHeld, fits⟩ := fenceRegs_place h
  have off : f.addr / 65536 ∉ [20, 25, 26] := by rw [page]; decide
  have offIrq : f.addr / 65536 ∉ [25, 26] := by rw [page]; decide
  unfold rcvWarm
  dsimp only
  rw [get_noteLater _ _ _ _ _ off, setRcv, get_mk]
  refine get_ite ?_ (get_fencesOpened _ h)
  rw [get_noteLater _ _ _ _ _ off, get_flag _ _ _ offIrq (.inl notErr) fits, get_set_other _ _ (.inl notHeld) fits,
    get_set_other _ _ (.inl notBusy) fits, setRcv, get_mk]
  exact get_fencesOpened _ h

/-- The end of a warm reset in the CLK page. -/
def warmClk (why : Nat) (s : State) : State :=
  set (set (set s F.CLK_STATUS_LAST_RESET why) F.CLK_DOMAIN_STATUS_IN_RESET 0x60) F.CLK_DOMAIN_STATUS_XRST_BUSY 0xF

/-- The block that a warm reset hands to the recovery unit: its clocks run, what waited is answered ABSENT (R124), the units and registers outside
AON are reset (R82). -/
def warmBlock (s : State) : State :=
  let s0 := loaderFree (absentWaiting (setClk { s.clk with stopped := false, saveDone := false, cause := 2, xphase := [1, 1, 1, 1] } s))
  let s1 := authLapse 2 (linkReset (if s0.mmp.intents.isEmpty then s0 else answerAll 3 s0))
  warmRegs (warmUnits (set s1 F.GBK_STATUS_RUNNING 0))

/-- Outside a power-fail save a warm reset goes from there to the recovery unit's part, the records of what was lost, the time bases and the CLK page.
After a power-fail warning a Strongbox restore is due too (R184), of which the other registers show nothing. -/
theorem get_warmReset (why : Nat) {s : State} (hp : s.clk.pwron = true) (hs : s.ksp.saveBusy = false) {f : Field}
    (hf : f.addr ≠ F.SBX_STATUS_RESTORE.addr) (h64 : f.lo + f.w ≤ 64) :
    get (warmReset why s) f = get (warmClk why ([0, 1].foldl baseAfterReset (netLost (rcvWarm (warmBlock s))))) f := by
  unfold warmReset
  rw [if_neg (by simp [hp, hs])]
  exact get_ite (get_set_other _ _ (.inl hf) h64) rfl

theorem get_warmClk_other (why : Nat) (s : State) {f : Field} (h : f.addr / 65536 ≠ 2) (h64 : f.lo + f.w ≤ 64) : get (warmClk why s) f = get s f := by
  have other {g : Field} (hg : g.addr / 65536 = 2) : f.addr ≠ g.addr := fun c => h (c ▸ hg)
  unfold warmClk
  rw [get_set_other _ _ (.inl (other (by decide))) h64, get_set_other _ _ (.inl (other (by decide))) h64,
    get_set_other _ _ (.inl (other (by decide))) h64]

theorem get_warmReset_fence (why : Nat) {s : State} (hp : s.clk.pwron = true) (hs : s.ksp.saveBusy = false) {f : Field} (hf : f ∈ fenceRegs) :
    get (warmReset why s) f = 0 := by
  obtain ⟨page, -, -, -, fits⟩ := fenceRegs_place hf
  have notSbx : f.addr ≠ F.SBX_STATUS_RESTORE.addr := fun c => by rw [c] at page; revert page; decide
  have notTime : f.addr / 65536 ∉ [9, 20, 25, 26] := by rw [page]; decide
  have notNet : f.addr / 65536 ∉ [20, 25, 26] := by rw [page]; decide
  rw [get_warmReset _ hp hs notSbx fits, get_warmClk_other _ _ (by rw [page]; decide) fits, List.foldl_cons, List.foldl_cons, List.foldl_nil,
    get_baseAfterReset _ _ _ notTime, get_baseAfterReset _ _ _ notTime, get_netLost _ _ notNet]
  exact get_rcvWarm_fence _ hf

theorem warmReset_left {why : Nat} (hw : why < 16) {s : State} (hp : s.clk.pwron = true) (hs : s.ksp.saveBusy = false) :
    WarmLeft why (warmReset why s) := by
  have fence {f : Field} : f ∈ fenceRegs → get (warmReset why s) f = 0 := get_warmReset_fence why hp hs
  refine ⟨?_, ?_, ?_, fence (by decide), fence (by decide), fence (by decide)⟩
  · rw [get_warmReset _ hp hs (by decide) (by decide), warmClk, get_set_other _ _ (by decide) (by decide),
      get_set_other _ _ (by decide) (by decide), get_set_same _ _ _ (by decide)]
    exact Nat.mod_eq_of_lt hw
  · rw [get_warmReset _ hp hs (by decide) (by decide), warmClk, get_set_other _ _ (by decide) (by decide), get_set_same _ _ _ (by decide)]
    rfl
  · rw [get_warmReset _ hp hs (by decide) (by decide), warmClk, get_set_same _ _ _ (by decide)]
    rfl

theorem Admitted.pwron {s : State} {a : Nat} {acc p : Acc} (h : Admitted s a acc p) : s.clk.pwron = true := by
  obtain ⟨-, hp, -⟩ := h
  exact hp

/-- An admitted write of 1 to CLK_RST_CTL.WARM is performed and then is a warm reset (R82). -/
theorem clkRstWarm_admitted {acc p : Acc} {s : State} (h : Admitted s F.CLK_RST_CTL_WARM.addr (force F.CLK_RST_CTL_WARM 1 acc) p) :
    exec (.clkRstWarm acc) s = .next (warmReset 2 (perform F.CLK_RST_CTL_WARM.addr p (answer 0 p (atEdge s p)))) := by
  have one : wrote1 p F.CLK_RST_CTL_WARM = true := h.wrote1 (by decide) (by decide)
  have write : portWrite clkWrite F.CLK_RST_CTL_WARM.addr (force F.CLK_RST_CTL_WARM 1 acc) s
      = warmReset 2 (perform F.CLK_RST_CTL_WARM.addr p (answer 0 p (atEdge s p))) := by
    rw [portWrite_page h (by decide) (by decide) (by decide), clkWrite, if_neg (not_not_intro rfl)]
    dsimp only
    rw [if_pos one]
  exact congrArg Host.Outcome.next write

/-! The statements. -/

/-- Settles O3: each of the commands' meanings is a total function of the state (log 2). -/
theorem everyCommandAnswersNext : Obligations.EveryCommandAnswersNext := exec_next

/-- Settles O2: at reset no register and no byte is listed and every unit is empty (logs 3, 5, 49 to 51). -/
theorem resetIsCanonical : Obligations.ResetIsCanonical :=
  ⟨reset_canonical, rfl, rd_reset, rfl, rfl, fun _ => ⟨rfl, rfl⟩, rfl, rfl, rfl, rfl⟩

/-- Settles O5: a step is a command without the queue it was taken from, or a tick; both keep the canonical form. -/
theorem stepKeepsCanonical : Obligations.StepKeepsCanonical := by
  intro s t e h
  rcases step_cases e with ⟨c, q, -, he⟩ | ⟨-, rfl⟩
  · exact exec_canonical he ((canonical_pending q s).2 h)
  · exact tick_canonical h

/-- Settles O10: COLD_RESET releases the state of COLD_RESET_ASSERT, and the two warm levels share `warmReset` (logs 5, 49, 51, 52, 87, 101). -/
theorem resetLevelsComplete : Obligations.ResetLevelsComplete := by
  refine ⟨fun chip s h => ⟨_, rfl, ?_⟩, fun s => ⟨_, rfl, rfl⟩, fun s hp hs => ⟨_, rfl, ?_⟩, fun acc p s h hs => ⟨_, clkRstWarm_admitted h, ?_⟩⟩
  case refine_1 =>
    refine ⟨?_, coldRelease_chipIdLo chip h, coldRelease_chipIdHi chip h, coldRelease_locked chip h, coldRelease_inReset chip h, ?_⟩
    · rw [coldRelease_eq chip h]; rfl
    · rw [coldRelease_eq chip h]; rfl
  case refine_2 => exact warmReset_left (by decide) hp hs
  case refine_3 =>
    refine warmReset_left (by decide) ?_ ?_
    · rw [perform_clk]; exact (congrArg ClkSt.pwron (atEdge_clk s p)).trans h.pwron
    · rw [perform_ksp]; exact (congrArg KspSt.saveBusy (atEdge_ksp s p)).trans hs

end Sys2Proof.Machine
end

section
/-!
PROOF. The statement of 02_clocks_resets_crossings.md: domain resets (R82, R85, R86, R89), the clock monitor (R70), gated branches (R68, R69) and the
handshakes of the crossings (R77, R79, R87).
-/
namespace Sys2Proof.Machine

/-- Two fields lie in different registers, or beside one another in one: what `get_set_other` asks. -/
abbrev Beside (g f : Field) : Prop := g.addr ≠ f.addr ∨ g.lo + g.w ≤ f.lo ∨ f.lo + f.w ≤ g.lo

/-! The phase of a crossing and its bit of XRST_BUSY (R77). -/

theorem crossPhase_congr {s t : State} (h : t.clk = s.clk) (x : Nat) : crossPhase t x = crossPhase s x := by
  unfold crossPhase; rw [h]

/-- A crossing that is not at rest is one whose phase the clock unit lists. -/
theorem lt_length_of_crossPhase {s : State} {x : Nat} (h : crossPhase s x ≠ 0) : x < s.clk.xphase.length := by
  by_contra c
  exact h (List.getD_eq_default _ _ (not_lt.1 c))

theorem crossPhase_setPhase {s : State} {x : Nat} (n : Nat) (h : x < s.clk.xphase.length) : crossPhase (setPhase x n s) x = n := by
  simp [crossPhase, setPhase, h]

theorem bitOn_setPhase_busy {x : Nat} (n : Nat) (s : State) (h : x < 4) : bitOn (setPhase x n s) F.CLK_DOMAIN_STATUS_XRST_BUSY x = (n != 0) := by
  rw [setPhase, bitOn_setBit _ _ _ _ _ h (by decide), if_pos rfl]

theorem get_setPhase (x n : Nat) (s : State) {g : Field}
    (h : Beside g F.CLK_DOMAIN_STATUS_XRST_BUSY) (h64 : g.lo + g.w ≤ 64) : get (setPhase x n s) g = get s g :=
  get_setBit_other _ _ _ _ _ h h64

/-! The registers of a crossing. -/

theorem linkField_w (x : Nat) : (linkField x).w = 1 := by unfold linkField; split <;> rfl

/-- LINK_UP lies in its shell's or port's page, in neither a credit register nor MMP_CTL. -/
theorem linkField_place {x : Nat} (h : x < 4) :
    (linkField x).addr / 65536 ∉ [2, 20, 25, 26] ∧ (linkField x).addr ≠ F.MMP_CTL_CHANNELS.addr
      ∧ (∀ l < 20, (linkField x).addr ≠ (F.FBP_TX_CREDIT_VC0 l).addr) ∧ (linkField x).lo + (linkField x).w ≤ 64 := by
  revert x; decide

theorem resyncField_addr (x : Nat) : (resyncField x).addr = F.CLK_XING_RESYNC_EOP.addr := by unfold resyncField; split <;> rfl
theorem resyncField_w (x : Nat) : (resyncField x).w = 16 := by unfold resyncField; split <;> rfl
theorem resyncField_fits (x : Nat) : (resyncField x).lo + (resyncField x).w ≤ 64 := by unfold resyncField; split <;> decide

/-! Closing a crossing (R77, R87). -/

/-- Closing a crossing also discards what the crossing held: no part of that is a register, but for the transmit credits of the Fabric Port, and none the
clock unit's. -/
theorem closeCrossing_leaves (s : State) (x : Nat) :
    (∀ g : Field, (∀ l < 20, g.addr ≠ (F.FBP_TX_CREDIT_VC0 l).addr) → get (closeCrossing s x) g = get (set (setPhase x 1 s) (linkField x) 0) g)
      ∧ (closeCrossing s x).clk = (setPhase x 1 s).clk := by
  unfold closeCrossing
  dsimp only
  split
  · exact ⟨fun g h => get_foldl _ _ fun t l hl => get_wr_other _ _ (h l (List.mem_range.1 hl)), part_foldl (π := State.clk) _ _ fun _ _ _ => rfl⟩
  · split
    · exact ⟨fun _ _ => rfl, rfl⟩
    · split <;> exact ⟨fun _ _ => rfl, rfl⟩

/-- The CLK page shows the closing of a crossing in XRST_BUSY alone. -/
theorem get_closeCrossing_clk (s : State) {x : Nat} (hx : x < 4) {g : Field} (page : g.addr / 65536 = 2)
    (h : Beside g F.CLK_DOMAIN_STATUS_XRST_BUSY) (h64 : g.lo + g.w ≤ 64) : get (closeCrossing s x) g = get s g := by
  obtain ⟨linkPage, -, -, -⟩ := linkField_place hx
  have offLink : g.addr ≠ (linkField x).addr := fun c => linkPage (by rw [← c, page]; decide)
  have offCredit : ∀ l < 20, g.addr ≠ (F.FBP_TX_CREDIT_VC0 l).addr := fun l _ c => by
    simp only [F.FBP_TX_CREDIT_VC0] at c; omega
  obtain ⟨regs, -⟩ := closeCrossing_leaves s x
  rw [regs g offCredit, get_set_other _ _ (.inl offLink) h64, get_setPhase _ _ _ h h64]

/-- The crossing is closed: its link is down and its handshake is in phase 1 (R77). -/
theorem closeCrossing_opens {s : State} {x : Nat} (hx : x < 4) (hl : x < s.clk.xphase.length) :
    crossPhase (closeCrossing s x) x = 1 ∧ get (closeCrossing s x) (linkField x) = 0 ∧ bitOn (closeCrossing s x) F.CLK_DOMAIN_STATUS_XRST_BUSY x = true := by
  obtain ⟨linkPage, -, offCredit, fits⟩ := linkField_place hx
  have busyLink : F.CLK_DOMAIN_STATUS_XRST_BUSY.addr ≠ (linkField x).addr := fun c => linkPage (by rw [← c]; decide)
  obtain ⟨regs, clock⟩ := closeCrossing_leaves s x
  refine ⟨?_, ?_, ?_⟩
  · rw [crossPhase_congr clock, crossPhase_setPhase 1 hl]
  · rw [regs _ offCredit, get_set_same _ _ _ fits, Nat.zero_mod]
  · have shown : get (closeCrossing s x) F.CLK_DOMAIN_STATUS_XRST_BUSY = get (setPhase x 1 s) F.CLK_DOMAIN_STATUS_XRST_BUSY := by
      rw [regs _ (by decide), get_set_other _ _ (.inl busyLink) (by decide)]
    rw [bitOn_congr shown, bitOn_setPhase_busy _ _ hx]
    rfl

/-- A host-side reset closes its crossing; that of the Memory Port first fails what is outstanding, which leaves the clock unit alone (R87, R141). -/
theorem hostReset_opens {s : State} {x : Nat} (hx : x < 4) (hl : s.clk.xphase.length = 4) (hp : s.clk.pwron = true) :
    crossPhase (hostReset x s) x = 1 ∧ get (hostReset x s) (linkField x) = 0 ∧ bitOn (hostReset x s) F.CLK_DOMAIN_STATUS_XRST_BUSY x = true := by
  unfold hostReset
  rw [if_neg (by simp [hp, hx])]
  refine closeCrossing_opens hx ?_
  split <;> simp [hl, hx]

/-- XRST_ACK seen high moves the handshake to its second phase (R77). -/
theorem ackSeen_advances {s : State} {x : Nat} (hx : x < 4) (h1 : crossPhase s x = 1) (hp : s.clk.pwron = true) (hs : s.clk.stopped = false) :
    crossPhase (ackSeen x s) x = 2 ∧ bitOn (ackSeen x s) F.CLK_DOMAIN_STATUS_XRST_BUSY x = true := by
  unfold ackSeen
  rw [if_pos (by simp [h1, hp, hs])]
  exact ⟨crossPhase_setPhase 2 (lt_length_of_crossPhase (by simp [h1])), bitOn_setPhase_busy 2 s hx⟩

/-! A completed handshake (R79). -/

/-- The clock unit's part of a completed handshake: the crossing is at rest with its link up, and the resynchronisation is counted and recorded. -/
def resynced (x : Nat) (s : State) : State :=
  noteLater 0x0201 INFO x (bump (set (setPhase x 0 s) (linkField x) 1) (resyncField x) 1)

/-- A shell that a cold or warm reset holds then leaves reset (R84). -/
def shellReleased (x : Nat) (s : State) : State :=
  if crossDomain x ≠ 3 ∧ bitOn s F.CLK_DOMAIN_STATUS_IN_RESET (crossDomain x) ∧ !bitOn s rstBits (crossDomain x) then
    reapply (crossDomain x) (setBit (resynced x s) F.CLK_DOMAIN_STATUS_IN_RESET (crossDomain x) false)
  else resynced x s

/-- What the EOP crossing owes and the credits that the FBP crossing grants are neither registers nor parts of the clock unit. -/
theorem handshakeDone_leaves {s : State} {x : Nat} (hx : x < 4) (h2 : crossPhase s x = 2) :
    (∀ g, get (handshakeDone x s) g = get (shellReleased x s) g) ∧ (handshakeDone x s).clk = (shellReleased x s).clk := by
  unfold handshakeDone
  rw [if_neg (by simp [h2, hx])]
  split
  · exact ⟨fun _ => rfl, rfl⟩
  · exact ⟨get_grantAll _, grantAll_clk _⟩
  · exact ⟨fun _ => rfl, rfl⟩

theorem crossDomain_shell {x : Nat} (h : crossDomain x ≠ 3) : crossDomain x = 5 ∨ crossDomain x = 6 := by
  revert h; unfold crossDomain; split <;> decide

/-- The configuration of a shell is MMP_CTL.CHANNELS. -/
theorem get_reapply_shell {d : Nat} (h : d = 5 ∨ d = 6) (s : State) {g : Field} (hg : g.addr ≠ F.MMP_CTL_CHANNELS.addr) (h64 : g.lo + g.w ≤ 64) :
    get (reapply d s) g = get s g := by
  unfold reapply
  split
  · rfl
  · rcases h with rfl | rfl
    · rfl
    · exact get_set_other _ _ (.inl hg) h64

/-- The release of a shell shows in IN_RESET and MMP_CTL alone. -/
theorem get_shellReleased (x : Nat) (s : State) {g : Field} (hg : g.addr ≠ F.MMP_CTL_CHANNELS.addr)
    (hr : Beside g F.CLK_DOMAIN_STATUS_IN_RESET) (h64 : g.lo + g.w ≤ 64) :
    get (shellReleased x s) g = get (resynced x s) g := by
  unfold shellReleased
  split
  case isTrue h =>
    obtain ⟨shell, -, -⟩ := h
    rw [get_reapply_shell (crossDomain_shell shell) _ hg h64, get_setBit_other _ _ _ _ _ hr h64]
  case isFalse => rfl

theorem shellReleased_clk (x : Nat) (s : State) : (shellReleased x s).clk = (setPhase x 0 s).clk := by
  have rest : (resynced x s).clk = (setPhase x 0 s).clk := noteLater_clk _ _ _ _
  unfold shellReleased
  split
  · rw [reapply_clk, setBit_clk, rest]
  · exact rest

/-- The record of a resynchronisation leaves the other registers alone. -/
theorem get_resynced (x : Nat) (s : State) {g : Field} (h : g.addr / 65536 ∉ [20, 25, 26]) :
    get (resynced x s) g = get (bump (set (setPhase x 0 s) (linkField x) 1) (resyncField x) 1) g :=
  get_noteLater _ _ _ _ _ h

theorem resynced_link {x : Nat} (hx : x < 4) (s : State) : get (resynced x s) (linkField x) = 1 := by
  obtain ⟨page, -, -, fits⟩ := linkField_place hx
  have offCount : (linkField x).addr ≠ (resyncField x).addr := fun c => page (by rw [c, resyncField_addr]; decide)
  rw [get_resynced _ _ (fun c => page (List.mem_cons_of_mem _ c)), bump, get_set_other _ _ (.inl offCount) fits, get_set_same _ _ _ fits, linkField_w]
  rfl

theorem resynced_busy {x : Nat} (hx : x < 4) (s : State) : bitOn (resynced x s) F.CLK_DOMAIN_STATUS_XRST_BUSY x = false := by
  obtain ⟨page, -, -, -⟩ := linkField_place hx
  have offLink : F.CLK_DOMAIN_STATUS_XRST_BUSY.addr ≠ (linkField x).addr := fun c => page (by rw [← c]; decide)
  have offCount : F.CLK_DOMAIN_STATUS_XRST_BUSY.addr ≠ (resyncField x).addr := by rw [resyncField_addr]; decide
  have shown : get (resynced x s) F.CLK_DOMAIN_STATUS_XRST_BUSY = get (setPhase x 0 s) F.CLK_DOMAIN_STATUS_XRST_BUSY := by
    rw [get_resynced _ _ (by decide), bump, get_set_other _ _ (.inl offCount) (by decide), get_set_other _ _ (.inl offLink) (by decide)]
  rw [bitOn_congr shown, bitOn_setPhase_busy _ _ hx]
  rfl

/-- The count of resynchronisations saturates at 65535. -/
theorem resynced_count {x : Nat} (hx : x < 4) (s : State) : get (resynced x s) (resyncField x) = min (get s (resyncField x) + 1) 65535 := by
  obtain ⟨page, -, -, -⟩ := linkField_place hx
  have fits := resyncField_fits x
  have offLink : (resyncField x).addr ≠ (linkField x).addr := fun c => page (by rw [← c, resyncField_addr]; decide)
  have offBusy : (resyncField x).addr ≠ F.CLK_DOMAIN_STATUS_XRST_BUSY.addr := by rw [resyncField_addr]; decide
  rw [get_resynced _ _ (by rw [resyncField_addr]; decide), bump, get_set_same _ _ _ fits, get_set_other _ _ (.inl offLink) fits,
    get_setPhase _ _ _ (.inl offBusy) fits, resyncField_w, satAdd]
  omega

/-- A completed handshake brings the link up and counts the resynchronisation (R79). -/
theorem handshakeDone_completes {s : State} {x : Nat} (hx : x < 4) (h2 : crossPhase s x = 2) :
    crossPhase (handshakeDone x s) x = 0 ∧ get (handshakeDone x s) (linkField x) = 1
      ∧ bitOn (handshakeDone x s) F.CLK_DOMAIN_STATUS_XRST_BUSY x = false
      ∧ get (handshakeDone x s) (resyncField x) = min (get s (resyncField x) + 1) 65535 := by
  obtain ⟨page, offCtl, -, fits⟩ := linkField_place hx
  have offReset : (linkField x).addr ≠ F.CLK_DOMAIN_STATUS_IN_RESET.addr := fun c => page (by rw [c]; decide)
  have countCtl : (resyncField x).addr ≠ F.MMP_CTL_CHANNELS.addr := by rw [resyncField_addr]; decide
  have countReset : (resyncField x).addr ≠ F.CLK_DOMAIN_STATUS_IN_RESET.addr := by rw [resyncField_addr]; decide
  obtain ⟨regs, clock⟩ := handshakeDone_leaves hx h2
  have busy : get (handshakeDone x s) F.CLK_DOMAIN_STATUS_XRST_BUSY = get (resynced x s) F.CLK_DOMAIN_STATUS_XRST_BUSY := by
    rw [regs, get_shellReleased _ _ (by decide) (by decide) (by decide)]
  refine ⟨?_, ?_, ?_, ?_⟩
  · rw [crossPhase_congr (clock.trans (shellReleased_clk x s)), crossPhase_setPhase 0 (lt_length_of_crossPhase (by simp [h2]))]
  · rw [regs, get_shellReleased _ _ offCtl (.inl offReset) fits, resynced_link hx]
  · rw [bitOn_congr busy, resynced_busy hx]
  · rw [regs, get_shellReleased _ _ countCtl (.inl countReset) (resyncField_fits x), resynced_count hx]

/-! The clock monitor (R70) and the gated branches (R68, R69). -/

/-- A window that ends while the monitor runs loads the count, and reports one that the limit does not allow. -/
theorem monWindow_on {s : State} (n : Nat) (he : on s F.CLK_STATUS_MON_EN = true) (hp : s.clk.pwron = true) :
    monWindow n s = if get s F.CLK_MON_LIMIT < max n 134218 - min n 134218 then report F.CLK_ERR_MON_ALARM 0x0202 FAULT 0 (set s F.CLK_MON_COUNT n)
      else set s F.CLK_MON_COUNT n := by
  unfold monWindow
  rw [if_neg (by simp [he, hp])]

theorem monWindow_count {s : State} {n : Nat} (he : on s F.CLK_STATUS_MON_EN = true) (hp : s.clk.pwron = true) (hn : n < 2 ^ 32) :
    get (monWindow n s) F.CLK_MON_COUNT = n := by
  have loaded : get (set s F.CLK_MON_COUNT n) F.CLK_MON_COUNT = n := by
    rw [get_set_same _ _ _ (by decide)]; exact Nat.mod_eq_of_lt hn
  rw [monWindow_on n he hp]
  exact get_ite (by rw [get_report _ _ _ _ _ _ (by decide) (by decide) (by decide), loaded]) loaded

theorem monWindow_alarm {s : State} {n : Nat} (he : on s F.CLK_STATUS_MON_EN = true) (hp : s.clk.pwron = true)
    (hl : get s F.CLK_MON_LIMIT < max n 134218 - min n 134218) :
    get (monWindow n s) F.CLK_ERR_MON_ALARM = 1 ∧ Records s (monWindow n s) 0x0202 FAULT 0 := by
  rw [monWindow_on n he hp, if_pos hl]
  refine ⟨get_report_same _ _ _ _ _ (by decide) (by decide), ?_⟩
  exact (report_records _ _ _ _ _ (by decide)).of (get_set_other _ _ (by decide) (by decide)) rfl

theorem branchGate_gates {s : State} {b : Nat} (hb : b < 3) (he : s.clk.idleGate.testBit b = true) (hi : branchIdle s b = true) (h0 : pwState s = 0)
    (hp : s.clk.pwron = true) : branchGate b s = set s (gateField b) 1 := if_pos ⟨hb, he, hi, h0, hp⟩

theorem branchRestart_restarts {s : State} {b : Nat} (hb : b < 3) (hi : branchIdle s b = false) (h0 : pwState s = 0) :
    branchRestart b s = set s (gateField b) 0 := if_pos ⟨hb, by simp [hi], h0⟩

/-! A domain enters its reset (R82, R85). -/

/-- The domain's bits of CLK_DOMAIN_STATUS and CLK_RST_CTL. -/
def setReset (d : Nat) (b : Bool) (s : State) : State := setBit (setBit s F.CLK_DOMAIN_STATUS_IN_RESET d b) rstBits d b

theorem bitOn_setReset {d : Nat} (hd : d < 7) (b : Bool) (s : State) :
    bitOn (setReset d b s) F.CLK_DOMAIN_STATUS_IN_RESET d = b ∧ bitOn (setReset d b s) rstBits d = b := by
  have shown : get (setReset d b s) F.CLK_DOMAIN_STATUS_IN_RESET = get (setBit s F.CLK_DOMAIN_STATUS_IN_RESET d b) F.CLK_DOMAIN_STATUS_IN_RESET :=
    get_setBit_other _ _ _ _ _ (by decide) (by decide)
  constructor
  · rw [bitOn_congr shown, bitOn_setBit _ _ _ _ _ hd (by decide), if_pos rfl]
  · rw [setReset, bitOn_setBit _ _ _ _ _ hd (by decide), if_pos rfl]

/-- Whatever the domain loses is lost before its bits are set; its crossings close after that. -/
theorem enterReset_sets_then_closes (d : Nat) (s : State) : ∃ lost, enterReset d s = (crossingsOf d).foldl closeCrossing (setReset d true lost) := ⟨_, rfl⟩

theorem enterReset_shows {d : Nat} (hd : d < 7) (s : State) :
    bitOn (enterReset d s) F.CLK_DOMAIN_STATUS_IN_RESET d = true ∧ bitOn (enterReset d s) rstBits d = true := by
  obtain ⟨lost, e⟩ := enterReset_sets_then_closes d s
  have kept {g : Field} (page : g.addr / 65536 = 2) (h : Beside g F.CLK_DOMAIN_STATUS_XRST_BUSY) (h64 : g.lo + g.w ≤ 64) :
      get (enterReset d s) g = get (setReset d true lost) g := by
    rw [e]
    exact get_foldl _ _ fun t x hx => get_closeCrossing_clk t (List.mem_range.1 (List.mem_of_mem_filter hx)) page h h64
  rw [bitOn_congr (kept (by decide) (by decide) (by decide)), bitOn_congr (kept (by decide) (by decide) (by decide))]
  exact bitOn_setReset hd true lost

/-! Serving the requests (R85, R89). -/

theorem serveReset_idle {s : State} (h : ∀ i < 7, bitOn s rstBits i = false) : serveReset s = s := by
  have busy : ((List.range 7).any fun d => bitOn s rstBits d && bitOn s F.CLK_DOMAIN_STATUS_IN_RESET d) = false :=
    List.any_eq_false.2 fun i hi => by simp [h i (List.mem_range.1 hi)]
  have lowest : ((List.range 7).find? fun d => bitOn s rstBits d) = none :=
    List.find?_eq_none.2 fun i hi => by simp [h i (List.mem_range.1 hi)]
  unfold serveReset
  rw [busy, lowest]
  rfl

/-- The only request, of a fenced domain, is served while no domain is in reset. -/
theorem serveReset_enters {s : State} {d : Nat} (hd : d < 7) (free : ∀ i < 7, bitOn s F.CLK_DOMAIN_STATUS_IN_RESET i = false)
    (only : ∀ i < 7, bitOn s rstBits i = decide (i = d)) (hf : rstFenced s d = true) : serveReset s = enterReset d s := by
  have busy : ((List.range 7).any fun d => bitOn s rstBits d && bitOn s F.CLK_DOMAIN_STATUS_IN_RESET d) = false :=
    List.any_eq_false.2 fun i hi => by simp [free i (List.mem_range.1 hi)]
  have lowest : ((List.range 7).find? fun d => bitOn s rstBits d) = some d :=
    List.find?_range_eq_some.2 ⟨by simp [only d hd], List.mem_range.2 hd, fun i hi => by simp [only i (hi.trans hd), hi.ne]⟩
  unfold serveReset
  rw [busy, lowest]
  dsimp only
  rw [if_neg Bool.false_ne_true, if_pos hf]

theorem filter_testBit_two_pow {d : Nat} : d < 7 → (List.range 7).filter (2 ^ d).testBit = [d] := by
  revert d; decide

/-- A request of one fenced domain joins the requests that wait. -/
theorem requestResets_one {s : State} {d : Nat} (hd : d < 7) (hf : rstFenced s d = true) :
    requestResets (2 ^ d) s = serveReset (setBit s rstBits d true) := by
  unfold requestResets
  rw [filter_testBit_two_pow hd, List.foldl_cons, List.foldl_nil, if_pos hf]

theorem fenceState_congr {s t : State} (h : get t F.RCV_FENCE_BLK_STATE = get s F.RCV_FENCE_BLK_STATE) {d : Nat} (hd : d < 7) :
    fenceState t d = fenceState s d := by
  unfold fenceState fenceBits
  rw [if_pos hd, if_pos hd, h]

theorem bitOn_of_get_zero {s : State} {f : Field} {n : Nat} (h : get s f % 2 ^ n = 0) {i : Nat} (hi : i < n) : bitOn s f i = false := by
  have bit : (get s f % 2 ^ n).testBit i = false := by rw [h, Nat.zero_testBit]
  rwa [Nat.testBit_mod_two_pow, decide_eq_true hi, Bool.true_and] at bit

/-- With no request waiting and no domain in reset, a request of one FENCED domain puts it in reset (R85). -/
theorem requestResets_shows {s : State} {d : Nat} (hd : d < 7) (hf : fenceState s d = 3) (h0 : get s rstBits = 0)
    (free : get s F.CLK_DOMAIN_STATUS_IN_RESET % 2 ^ 7 = 0) :
    bitOn (requestResets (2 ^ d) s) F.CLK_DOMAIN_STATUS_IN_RESET d = true ∧ bitOn (requestResets (2 ^ d) s) rstBits d = true := by
  have other {g : Field} (h : g.addr ≠ rstBits.addr) (h64 : g.lo + g.w ≤ 64) : get (setBit s rstBits d true) g = get s g :=
    get_setBit_other _ _ _ _ _ (.inl h) h64
  have noneWaits : ∀ i < 7, bitOn s rstBits i = false := fun i hi => bitOn_of_get_zero (n := 7) (by rw [h0, Nat.zero_mod]) hi
  have asked : serveReset (setBit s rstBits d true) = enterReset d (setBit s rstBits d true) := by
    refine serveReset_enters hd (fun i hi => ?_) (fun i hi => ?_) ?_
    · rw [bitOn_congr (other (by decide) (by decide)), bitOn_of_get_zero free hi]
    · rw [bitOn_setBit _ _ _ _ _ hi (by decide), noneWaits i hi]
      by_cases c : i = d <;> simp [c]
    · simp [rstFenced, fenceState_congr (other (by decide) (by decide)) hd, hf]
  rw [requestResets_one hd (by simp [rstFenced, hf]), asked]
  exact enterReset_shows hd _

/-! The write of CLK_RST_CTL (R85). -/

/-- A write without WARM that asks for one fenced domain is performed, and then its request is made. -/
theorem clkWrite_request {s : State} {p : Acc} {d : Nat} (hd : d < 7) (hw : wrote1 p F.CLK_RST_CTL_WARM = false)
    (hm : (wdata p).toNat % 128 = 2 ^ d) (hf : rstFenced s d = true) :
    clkWrite F.CLK_RST_CTL_WARM.addr p s = requestResets (2 ^ d) (perform F.CLK_RST_CTL_WARM.addr p s) := by
  have oneFenced : ((List.range 7).any fun i => (2 ^ d).testBit i && rstFenced s i) = true :=
    List.any_eq_true.2 ⟨d, List.mem_range.2 hd, by simp [hf]⟩
  unfold clkWrite
  rw [if_neg (not_not_intro rfl)]
  dsimp only
  rw [hm, oneFenced, hw, if_neg Bool.false_ne_true, if_neg (by simp)]

/-- CLK_RST_CTL holds a request of each domain as a W1S bit. -/
theorem findRow_rstCtl : ∃ r, findRow F.CLK_RST_CTL_WARM.addr = some r ∧ Apart r.fields ∧ ∀ i < 7, (⟨i, 1, .w1s, 0⟩ : RegField) ∈ r.fields :=
  ⟨_, rfl, ⟨by decide, by decide⟩, by decide⟩

/-- Performing a write leaves a W1S field to its unit (R728). -/
theorem bitsAt_regAfter_w1s {r : RegRow} (old : Word) {acc : Acc} (hw : acc.hwMask = 0) (ha : Apart r.fields) {f : RegField} (hf : f ∈ r.fields)
    (hk : f.acc = .w1s) : bitsAt (regAfter old acc r) f.lo f.w = bitsAt old f.lo f.w := by
  rw [bitsAt_regAfter old acc ha hf, fieldAfter_soft old acc f hw (ha.2 f hf), fieldWritten, hk]

theorem get_perform_rstBits {p : Acc} (hw : p.hwMask = 0) (s : State) : get (perform F.CLK_RST_CTL_WARM.addr p s) rstBits = get s rstBits := by
  obtain ⟨r, row, apart, bits⟩ := findRow_rstCtl
  have written : rd (perform F.CLK_RST_CTL_WARM.addr p s) rstBits.addr = regAfter (rd s rstBits.addr) p r := rd_perform row (by decide) (by decide)
  have bit (v : Word) (i : Nat) : (bitsAt v i 1).testBit 0 = v.getLsbD i := (bitsAt_testBit v i 1 0).trans (by simp)
  apply Nat.eq_of_testBit_eq
  intro i
  unfold get
  rw [written, bitsAt_testBit, bitsAt_testBit]
  by_cases hi : i < rstBits.w
  · have kept := bitsAt_regAfter_w1s (rd s rstBits.addr) hw apart (bits i hi) rfl
    rw [show rstBits.lo + i = i from Nat.zero_add i, ← bit, ← bit, kept]
  · simp [hi]

/-- An admitted request of one FENCED domain puts it in reset: the write changes neither the fences nor the domains in reset, and leaves the requests to
the unit (R85). -/
theorem domainResetRequest_shows {acc p : Acc} {s : State} {d : Nat} (hd : d < 7)
    (h : Admitted s F.CLK_RST_CTL_WARM.addr (force F.CLK_RST_CTL_WARM 0 acc) p) (hw : acc.hwMask = 0) (hm : (wdata p).toNat % 128 = 2 ^ d)
    (hf : fenceState s d = 3) (h0 : get s rstBits = 0) (free : get s F.CLK_DOMAIN_STATUS_IN_RESET % 2 ^ 7 = 0) :
    Does (.domainResetRequest acc) s fun t => bitOn t F.CLK_DOMAIN_STATUS_IN_RESET d = true ∧ bitOn t rstBits d = true := by
  have notWarm : wrote1 p F.CLK_RST_CTL_WARM = false := h.wrote1 (by decide) (by decide)
  have soft : p.hwMask = 0 := by rw [h.eq]; exact hw
  have edge {g : Field} (page : g.addr / 65536 ∉ [20, 21, 25, 26]) : get (answer 0 p (atEdge s p)) g = get s g := get_atEdge _ _ _ page
  have fence : fenceState (answer 0 p (atEdge s p)) d = 3 := (fenceState_congr (edge (by decide)) hd).trans hf
  refine ⟨_, rfl, ?_⟩
  rw [portWrite_page h (by decide) (by decide) (by decide), clkWrite_request hd notWarm hm (by simp [rstFenced, fence])]
  refine requestResets_shows hd ?_ ?_ ?_
  · rw [fenceState_congr (get_perform_other _ _ _ (by decide) (by decide) (by decide)) hd, fence]
  · rw [get_perform_rstBits soft, edge (by decide), h0]
  · rw [get_perform_other _ _ _ (by decide) (by decide) (by decide), edge (by decide), free]

/-! The end of a domain reset (R86, R89). -/

/-- A domain that leaves reset gets its configuration back and resumes its work; of the CLK page it writes its own bits alone. -/
theorem get_leaveReset_clk (d : Nat) (s : State) {g : Field} (page : g.addr / 65536 = 2) : get (leaveReset d s) g = get (setReset d false s) g := by
  have configured : get (reapply d (setReset d false s)) g = get (setReset d false s) g := get_reapply _ _ _ (by rw [page]; decide)
  unfold leaveReset
  dsimp only
  split
  · rw [get_firmwareAgain _ _ (by rw [page]; decide), get_rearmScheds _ _ (by rw [page]; decide)]
    exact configured
  · rw [get_grantAll, get_netLost _ _ (by rw [page]; decide)]
    exact configured
  · rw [get_foldl _ _ fun t n _ => get_baseAfterReset _ _ _ (by rw [page]; decide)]
    exact configured
  · exact configured

/-- A reset that is complete is counted and its order posts before the next request is served; the CLK page shows neither. -/
theorem resetDone_posts_then_serves (d : Nat) (s : State) :
    ∃ posted, resetDone d s = serveReset posted ∧ ∀ g : Field, g.addr / 65536 = 2 → get posted g = get (setReset d false s) g := by
  refine ⟨_, rfl, fun g page => ?_⟩
  have counted : get (prod (112 + d) 1 (leaveReset d s)) g = get (setReset d false s) g := by rw [get_prod, get_leaveReset_clk d s page]
  have fenced (n st : Nat) (b : Bool) (t : State) : get (setFence n st b t) g = get t g := get_setFence _ _ _ _ _ (by rw [page]; decide)
  have ended (k n : Nat) (t : State) : get (ordDone k n t) g = get t g := get_ordDone _ _ _ _ (by rw [page]; decide)
  split
  · rw [ended]
    exact get_ite (by rw [fenced, counted]) counted
  · exact get_ite (by rw [fenced, counted]) counted

theorem domainRelease_clears {s : State} {d : Nat} (hd : d < 7) (hr : bitOn s F.CLK_DOMAIN_STATUS_IN_RESET d = true) (hb : get s rstBits = 2 ^ d)
    (hx : ∀ x ∈ crossingsOf d, crossPhase s x = 0) :
    bitOn (domainRelease d s) F.CLK_DOMAIN_STATUS_IN_RESET d = false ∧ bitOn (domainRelease d s) rstBits d = false := by
  obtain ⟨posted, e, shown⟩ := resetDone_posts_then_serves d s
  have asked (i : Nat) : bitOn s rstBits i = decide (i = d) := by
    rw [bitOn, hb, Nat.testBit_two_pow, decide_eq_decide.2 eq_comm]
  have noneWaits : ∀ i < 7, bitOn posted rstBits i = false := fun i hi => by
    rw [bitOn_congr (shown rstBits (by decide)), setReset, bitOn_setBit _ _ _ _ _ hi (by decide),
      bitOn_congr (get_setBit_other _ _ _ _ _ (by decide) (by decide)), asked]
    by_cases c : i = d <;> simp [c]
  have released : domainRelease d s = posted := by
    unfold domainRelease
    rw [if_neg (by simpa [hd, hr, asked] using hx), e, serveReset_idle noneWaits]
  rw [released, bitOn_congr (shown _ (by decide)), bitOn_congr (shown _ (by decide))]
  exact bitOn_setReset hd false s

/-! The statement. -/

/-- Settles O11: each command's meaning is one operation of the clock unit, and what the operation does beyond the CLK page and the links leaves both as
they are. -/
theorem clockAndCrossingCommandsComplete : Obligations.ClockAndCrossingCommandsComplete := by
  refine ⟨?request, ?release, ?window, ?gate, ?restart, ?hostSide, ?ackSeen, ?handshake⟩
  case request => exact fun _ _ _ _ => domainResetRequest_shows
  case release =>
    intro d s hs hd hr hb hx
    refine ⟨_, rfl, ?_⟩
    rw [hs]
    exact domainRelease_clears hd hr hb hx
  case window =>
    intro n s he hp hn
    refine ⟨_, rfl, ?_⟩
    rw [Nat.mod_eq_of_lt hn]
    exact ⟨monWindow_count he hp hn, monWindow_alarm he hp⟩
  case gate => exact fun b s hb he hi h0 hp => ⟨_, rfl, branchGate_gates hb he hi h0 hp⟩
  case restart => exact fun b s hb hi h0 => ⟨_, rfl, branchRestart_restarts hb hi h0⟩
  case hostSide => exact fun x s hx hl hp => ⟨_, rfl, hostReset_opens hx hl hp⟩
  case ackSeen => exact fun x s hx h1 hp hs _ => ⟨_, rfl, ackSeen_advances hx h1 hp hs⟩
  case handshake => exact fun x s hx h2 => ⟨_, rfl, handshakeDone_completes hx h2⟩

end Sys2Proof.Machine
end

section
/-!
PROOF. A statement of 16_control_complex.md: how the write-back of a SEQ consumes a result (R637).
-/
namespace Sys2Proof.Machine

/-! What a raised source and a record leave alone in page 0x1A: every register but PWR_LAST_WAKE (R680). -/

theorem rd_wake_off {b : Nat} (hw : b ≠ F.PWR_LAST_WAKE_SOURCE.addr) (n : Nat) (s : State) : rd (wake n s) b = rd s b := by
  unfold wake lastWake
  repeat' split
  all_goals simp [rd_wr_other hw]

theorem rd_groupRise_off {b : Nat} (hi : b / 65536 ≠ 25) (hw : b ≠ F.PWR_LAST_WAKE_SOURCE.addr) (s : State) (g : Nat) :
    rd (groupRise s g) b = rd s b := by
  have offOut : b ≠ F.IRQ_GRP_OUT_OUT.addr := fun c => hi (by rw [c]; decide)
  unfold groupRise
  split
  · rfl
  · dsimp only
    split
    · rw [rd_wake_off hw, rd_mk, rd_setBit_other _ _ _ _ _ offOut]
    · rw [rd_mk, rd_setBit_other _ _ _ _ _ offOut]

theorem rd_raiseIrq_off {b : Nat} (hi : b / 65536 ≠ 25) (hw : b ≠ F.PWR_LAST_WAKE_SOURCE.addr) (n : Nat) (s : State) : rd (raiseIrq n s) b = rd s b := by
  have offPend : b ≠ (F.IRQ_PEND_PEND (n / 64)).addr := fun c => hi (by rw [c]; exact (pend_addr _).1)
  unfold raiseIrq
  split
  · rfl
  · dsimp only
    split
    · rw [rd_groupRise_off hi hw, rd_setBit_other _ _ _ _ _ offPend]
    · rw [rd_setBit_other _ _ _ _ _ offPend]

/-- A record changes no register outside the Guestbook and interrupt pages but PWR_LAST_WAKE, and that only when it is lost. -/
theorem rd_record_off {b : Nat} (hg : b / 65536 ≠ 20) (hi : b / 65536 ≠ 25) (hw : b ≠ F.PWR_LAST_WAKE_SOURCE.addr) (r : Raised) (s : State) :
    rd (record r s) b = rd s b := by
  have off {f : Field} (page : f.addr / 65536 = 20) : b ≠ f.addr := fun c => hg (c ▸ page)
  have lost (t : State) : rd (flag F.GBK_ERR_LOST t) b = rd t b := by
    unfold flag
    split
    · rfl
    · rw [rd_raiseIrq_off hi hw, rd_set_other (off (by decide))]
  unfold record
  split
  · rfl
  · dsimp only
    split
    · rw [lost, bump, rd_set_other (off (by decide)), rd_mk]
    · rw [rd_set_other (off (by decide)), rd_mk]

/-- A record enters the queue while the ring runs and the queue has room for every class (R600). -/
theorem record_queue {s : State} (r : Raised) (hr : on s F.GBK_STATUS_RUNNING = true) (hq : s.gbk.queue.length ≤ 192) :
    (record r s).gbk.queue = s.gbk.queue ++ [{ r with drops := s.gbk.dropRun, dropCode := s.gbk.dropCode }] := by
  have room : ¬ 256 ≤ s.gbk.queue.length ∧ ¬ 192 < s.gbk.queue.length := by omega
  unfold record
  simp [hr, room]

/-! Where result registers lie (R636). -/

/-- A row with SEQ in 63:48 and VALID in bit 32. -/
def resultRow (r : RegRow) : Bool :=
  r.fields.any (fun f => f.lo == 48 && f.w == 16 && f.acc == .rw) && r.fields.any fun f => f.lo == 32 && f.w == 1 && f.acc == .roV

theorem isResult_row {a : Nat} (h : isResult a = true) : ∃ r ∈ regPage (a / 65536), resultRow r = true := by
  unfold isResult at h
  split at h
  case h_1 r row => exact ⟨r, List.mem_of_find?_eq_some row, h⟩
  case h_2 => cases h

theorem resultRow_pages : ∀ k ∈ [20, 21, 25], ∀ r ∈ regPage k, resultRow r = false := by decide

/-- No result register lies in the pages of the Guestbook, the Ledger or the interrupt controller, and PWR_LAST_WAKE is none. -/
theorem isResult_place {a : Nat} (h : isResult a = true) :
    a / 65536 ≠ 20 ∧ a / 65536 ≠ 21 ∧ a / 65536 ≠ 25 ∧ a ≠ F.PWR_LAST_WAKE_SOURCE.addr ∧ a < 2 ^ 64 := by
  obtain ⟨r, hr, result⟩ := isResult_row h
  have off {k : Nat} (hk : k ∈ [20, 21, 25]) : a / 65536 ≠ k := fun c => by
    rw [resultRow_pages k hk r (c ▸ hr)] at result; cases result
  have low : a / 65536 < 89 := by
    by_contra c
    rw [regPage_high _ (not_lt.1 c)] at hr; cases hr
  refine ⟨off (by decide), off (by decide), off (by decide), fun c => ?_, by omega⟩
  rw [c] at h
  exact absurd h (by decide)

/-! The write-back (R637). -/

theorem consume_idle {s : State} {a : Nat} {acc : Acc} (h : acc.half = .lo ∨ valid s a = false) : consume a acc s = s := by
  unfold consume
  rcases h with h | h <;> simp [h]

/-- The shown SEQ clears VALID and nothing else of the register; a result register of configuration class enters the Ledger. -/
theorem consume_shown {s : State} {a : Nat} {acc : Acc} (hh : acc.half ≠ .lo) (hv : valid s a = true)
    (hs : bitsAt (wdata acc) 48 16 = bitsAt (rd s a) 48 16) :
    consume a acc s = if ledgered a then ledgerReg a acc (rd s a) (wr s a (putAt (rd s a) 32 1 0)) else wr s a (putAt (rd s a) 32 1 0) := by
  unfold consume
  simp [hh, hv, hs]

theorem consume_other {s : State} {a : Nat} {acc : Acc} (hh : acc.half ≠ .lo) (hv : valid s a = true)
    (hs : bitsAt (wdata acc) 48 16 ≠ bitsAt (rd s a) 48 16) : consume a acc s = wrongSeq a s := by
  unfold consume
  simp [hh, hv, hs]

theorem rd_consume_shown {s : State} {a : Nat} {acc : Acc} (hp : a / 65536 ≠ 21) (hh : acc.half ≠ .lo) (hv : valid s a = true)
    (hs : bitsAt (wdata acc) 48 16 = bitsAt (rd s a) 48 16) : rd (consume a acc s) a = putAt (rd s a) 32 1 0 := by
  rw [consume_shown hh hv hs]
  split
  · rw [rd_ledgerReg _ _ _ _ _ (by simpa using hp), rd_wr_same]
  · rw [rd_wr_same]

theorem ledgerReg_gbk (a : Nat) (acc : Acc) (old : Word) (s : State) : (ledgerReg a acc old s).gbk = s.gbk := rfl
theorem ledgerReg_pwr (a : Nat) (acc : Acc) (old : Word) (s : State) : (ledgerReg a acc old s).pwr = s.pwr := rfl

theorem consume_shown_gbk {s : State} {a : Nat} {acc : Acc} (hh : acc.half ≠ .lo) (hv : valid s a = true)
    (hs : bitsAt (wdata acc) 48 16 = bitsAt (rd s a) 48 16) : (consume a acc s).gbk = s.gbk := by
  rw [consume_shown hh hv hs]
  split
  · rw [ledgerReg_gbk, wr_gbk]
  · rw [wr_gbk]

theorem valid_of_rd {t : State} {a : Nat} {v : Word} (h : rd t a = putAt v 32 1 0) : valid t a = false := by
  rw [valid, h, bitsAt_putAt_same _ _ _ _ (by decide)]; rfl

theorem wrongSeq_queue {s : State} {a : Nat} (ha : a < 2 ^ 64) (hr : on s F.GBK_STATUS_RUNNING = true) (hq : s.gbk.queue.length ≤ 192) :
    ∃ r, (wrongSeq a s).gbk.queue = s.gbk.queue ++ [r] ∧ r.code = 6 ∧ r.cls = ADVISE ∧ r.source = pageOf a ∧ r.payload = a :=
  ⟨_, record_queue _ hr hq, rfl, rfl, rfl, Nat.mod_eq_of_lt ha⟩

/-! RESULT_CONSUME. -/

/-- No write-back leaves a request that waits for SCLK. -/
theorem consume_waiting (a : Nat) (acc : Acc) (s : State) : (consume a acc s).pwr.waiting = s.pwr.waiting := by
  unfold consume
  split
  · rfl
  · dsimp only
    split
    · split
      · rw [ledgerReg_pwr, wr_pwr]
      · rw [wr_pwr]
    · exact record_waiting _ _

/-- A write that leaves no request waiting takes nothing along. -/
theorem bringing_of_waiting {buf : Option (List Byte)} {step : Option StepEffect} {f : State → State} {s : State}
    (h : (f s).pwr.waiting = s.pwr.waiting) : bringing buf step f s = f s := by
  unfold bringing
  simp [h]

/-- An admitted write-back to a register whose unit does nothing but consume, and posts no work, is the consumption of its result. -/
theorem regWrite_consumes {s : State} {a : Nat} {acc p : Acc} (h : Admitted s a acc p) (ho : offset a = a) (hw : postsWork a p = false)
    (hu : ∀ t, unitWrite none none a p t = consume a p t) : regWrite a acc none none s = consume a p (answer 0 p (atEdge s p)) := by
  have write : portWrite (unitWrite none none) a acc s = consume a p (answer 0 p (atEdge s p)) := by rw [portWrite_at h ho hw, hu]
  have nothing : (portWrite (unitWrite none none) a acc s).pwr.waiting = s.pwr.waiting := by
    rw [write, consume_waiting]; exact atEdge_waiting s p
  rw [regWrite, bringing_of_waiting nothing, write]

/-- The result registers of whose units RESULT_CONSUME asks no more. -/
def plainResults : List Nat :=
  [F.CRV_SLOT_RESULT_SEQ.addr, F.CUR_OUT_SEQ.addr, F.FLT_PROBE_RESULT_SEQ.addr, F.KSP_CMD_RESULT_SEQ.addr, F.TIM_SNAP_RESULT_SEQ.addr,
    F.TRE_MODEL_RESULT_SEQ.addr]

theorem plainResults_place : ∀ a ∈ plainResults, isResult a = true ∧ offset a = a := by decide

theorem plainResults_unit {a : Nat} (h : a ∈ plainResults) (p : Acc) : postsWork a p = false ∧ ∀ t, unitWrite none none a p t = consume a p t := by
  simp only [plainResults, List.mem_cons, List.not_mem_nil, or_false] at h
  rcases h with rfl | rfl | rfl | rfl | rfl | rfl <;> exact ⟨rfl, fun _ => rfl⟩

theorem resultConsume_does {a : Nat} (ha : a ∈ plainResults) {acc p : Acc} {s : State} (h : Admitted s a acc p) :
    exec (.resultConsume a acc) s = .next (consume a p (answer 0 p (atEdge s p))) := by
  obtain ⟨result, ho⟩ := plainResults_place a ha
  obtain ⟨idle, unit⟩ := plainResults_unit ha p
  have write : execResultConsume a acc s = .next (regWrite a acc none none s) := by
    unfold execResultConsume; rw [ho, if_pos result]
  exact write.trans (congrArg Host.Outcome.next (regWrite_consumes h ho idle unit))

/-- Settles O9: a write-back changes VALID or adds a record, and no result register is one that a record or the Ledger touches. -/
theorem resultConsumption : Obligations.ResultConsumption := by
  refine ⟨fun s a acc h => ?consume, fun a ha => ⟨(plainResults_place a ha).1, fun acc p s h => ⟨_, resultConsume_does ha h, rfl⟩⟩⟩
  obtain ⟨offGbk, offLdg, offIrq, offWake, fits⟩ := isResult_place h
  refine ⟨fun hh hv hs => ?shown, fun hh hv hs => ?other, consume_idle⟩
  case shown =>
    have left := rd_consume_shown offLdg hh hv hs
    refine ⟨valid_of_rd left, fun i hi ne => ?_, consume_shown_gbk hh hv hs⟩
    rw [left, putAt_bit _ _ _ _ _ hi, if_neg (by omega)]
  case other =>
    rw [consume_other hh hv hs]
    exact ⟨rd_record_off offGbk offIrq offWake _ _, wrongSeq_queue fits⟩

end Sys2Proof.Machine
end

section
/-!
PROOF. A statement of 16_control_complex.md: acknowledgement, end of service, software sources, masks and hold-off of the interrupt controller (R657 to R662).
-/
namespace Sys2Proof.Machine

/-! What the output of a group leaves alone. -/

/-- The registers that neither the outputs of the groups nor a wake event change. -/
def OffOutputs (b : Nat) : Prop := b / 65536 ≠ 26 ∧ b ≠ F.IRQ_GRP_OUT_OUT.addr

theorem offOutputs_pend (w : Nat) : OffOutputs (F.IRQ_PEND_PEND w).addr := by
  simp only [OffOutputs, F.IRQ_PEND_PEND, F.IRQ_GRP_OUT_OUT]; omega
theorem offOutputs_active (w : Nat) : OffOutputs (F.IRQ_ACTIVE_ACTIVE w).addr := by
  simp only [OffOutputs, F.IRQ_ACTIVE_ACTIVE, F.IRQ_GRP_OUT_OUT]; omega
theorem offOutputs_mask (w : Nat) : OffOutputs (F.IRQ_MASK_MASK w).addr := by
  simp only [OffOutputs, F.IRQ_MASK_MASK, F.IRQ_GRP_OUT_OUT]; omega

theorem rd_groupUpdate {b : Nat} (h : OffOutputs b) (free : Bool) (g : Nat) (s : State) : rd (groupUpdate free g s) b = rd s b := by
  obtain ⟨page, offOut⟩ := h
  unfold groupUpdate
  split
  · split
    · exact rd_groupRise _ _ _ page offOut
    · rfl
  · exact rd_setBit_other _ _ _ _ _ offOut

theorem rd_updateSources {b : Nat} (h : OffOutputs b) (ns : List Nat) (s : State) : rd (updateSources ns s) b = rd s b :=
  part_foldl (π := fun t => rd t b) _ _ fun t g _ => rd_groupUpdate h false g t

theorem rd_settleMasks_off {b : Nat} (h : OffOutputs b) (s : State) : rd (settleMasks s) b = rd s b := by
  unfold settleMasks
  dsimp only
  split
  · rfl
  · rw [rd_updateSources h, setIrq, rd_mk]

/-! The pending and active bits of a word of sources. -/

theorem irqPend_word (s : State) (w : Nat) {i : Nat} (hi : i < 64) : irqPend s (64 * w + i) = (rd s (F.IRQ_PEND_PEND w).addr).getLsbD i := by
  have place : (64 * w + i) / 64 = w ∧ (64 * w + i) % 64 = i := by omega
  obtain ⟨word, bit⟩ := place
  unfold irqPend get
  rw [word, bit, bitsAt_testBit]
  simp [F.IRQ_PEND_PEND, hi]

theorem irqActive_word (s : State) (w : Nat) {i : Nat} (hi : i < 64) : irqActive s (64 * w + i) = (rd s (F.IRQ_ACTIVE_ACTIVE w).addr).getLsbD i := by
  have place : (64 * w + i) / 64 = w ∧ (64 * w + i) % 64 = i := by omega
  obtain ⟨word, bit⟩ := place
  unfold irqActive get
  rw [word, bit, bitsAt_testBit]
  simp [F.IRQ_ACTIVE_ACTIVE, hi]

theorem irqPend_congr {s t : State} {n : Nat} (h : rd t (F.IRQ_PEND_PEND (n / 64)).addr = rd s (F.IRQ_PEND_PEND (n / 64)).addr) :
    irqPend t n = irqPend s n := by unfold irqPend get; rw [h]

theorem irqActive_congr {s t : State} {n : Nat} (h : rd t (F.IRQ_ACTIVE_ACTIVE (n / 64)).addr = rd s (F.IRQ_ACTIVE_ACTIVE (n / 64)).addr) :
    irqActive t n = irqActive s n := by unfold irqActive get; rw [h]

/-! A software write performed on a register of one field. -/

theorem wfull_full (old : Word) {acc : Acc} (h : acc.half = .full) : wfull old acc = wdata acc := by
  unfold wfull wmask wdata
  rw [h]
  simp

theorem ofNat_bitsAt_word (v : Word) : BitVec.ofNat 64 (bitsAt v 0 64) = v := by
  rw [bitsAt, Nat.pow_zero, Nat.div_one, Nat.mod_eq_of_lt v.isLt, BitVec.ofNat_toNat, BitVec.setWidth_eq]

theorem putAt_word (v : Word) (x : Nat) : putAt v 0 64 x = BitVec.ofNat 64 x := by
  apply BitVec.eq_of_getLsbD_eq
  intro i hi
  rw [putAt_bit _ _ _ _ _ hi, if_pos (by omega), BitVec.getLsbD_ofNat]
  simp [hi]

theorem regAfter_word {r : RegRow} {f : RegField} (old : Word) {acc : Acc} (hw : acc.hwMask = 0) (hr : r.fields = [f]) (hl : f.lo = 0) (h64 : f.w = 64) :
    regAfter old acc r = BitVec.ofNat 64 (fieldWritten old acc f) := by
  unfold regAfter
  rw [hr, List.foldl_cons, List.foldl_nil, fieldAfter_soft old acc f hw (by omega), hl, h64, putAt_word]

theorem fieldOverruns_soft {acc : Acc} (hw : acc.hwMask = 0) (f : RegField) : fieldOverruns acc f = 0 := by
  unfold fieldOverruns
  rw [hw]
  split <;> simp [bitsAt]

/-- A write that meets no hardware update, of an interrupt register outside the configuration class, changes that register alone. -/
theorem perform_irqPage {a : Nat} {r : RegRow} (row : findRow a = some r) (page : pageOf a = 0x19) (cls : ledgered a = false) {acc : Acc}
    (hw : acc.hwMask = 0) (s : State) : perform a acc s = wr s a (regAfter (rd s a) acc r) := by
  have quiet : (r.fields.map (fieldOverruns acc)).sum = 0 := List.sum_eq_zero fun n hn => by
    obtain ⟨f, -, rfl⟩ := List.mem_map.1 hn
    exact fieldOverruns_soft hw f
  unfold perform
  rw [row]
  dsimp only
  rw [page, cls, quiet]
  rfl

/-- The rows of IRQ_PEND and IRQ_MASK. -/
def pendRow : RegRow := ⟨0x191000, 0x8, 4, 16, 16, some .D, .D, false, [⟨0, 64, .w1c, 0⟩]⟩
def maskRow : RegRow := ⟨0x191100, 0x8, 4, 16, 16, some .D, .D, false, [⟨0, 64, .rw, 0xffffffffffffffff⟩]⟩

theorem findRow_pend : ∀ w < 16, findRow (F.IRQ_PEND_PEND w).addr = some pendRow ∧ pageOf (F.IRQ_PEND_PEND w).addr = 0x19
    ∧ ledgered (F.IRQ_PEND_PEND w).addr = false := by decide
theorem findRow_mask : ∀ w < 16, findRow (F.IRQ_MASK_MASK w).addr = some maskRow ∧ pageOf (F.IRQ_MASK_MASK w).addr = 0x19
    ∧ ledgered (F.IRQ_MASK_MASK w).addr = false := by decide

theorem perform_pend {w : Nat} (h : w < 16) {acc : Acc} (hw : acc.hwMask = 0) (s : State) :
    perform (F.IRQ_PEND_PEND w).addr acc s = wr s (F.IRQ_PEND_PEND w).addr (rd s (F.IRQ_PEND_PEND w).addr &&& ~~~ wdata acc) := by
  obtain ⟨row, page, cls⟩ := findRow_pend w h
  rw [perform_irqPage row page cls hw, regAfter_word _ hw rfl rfl rfl]
  exact congrArg _ (ofNat_bitsAt_word _)

theorem perform_mask {w : Nat} (h : w < 16) {acc : Acc} (hw : acc.hwMask = 0) (hf : acc.half = .full) (s : State) :
    perform (F.IRQ_MASK_MASK w).addr acc s = wr s (F.IRQ_MASK_MASK w).addr (wdata acc) := by
  obtain ⟨row, page, cls⟩ := findRow_mask w h
  rw [perform_irqPage row page cls hw, regAfter_word _ hw rfl rfl rfl, ← wfull_full (rd s (F.IRQ_MASK_MASK w).addr) hf]
  exact congrArg _ (ofNat_bitsAt_word _)

/-! Which treatment the unit gives a register. -/

theorem irqWrite_swSet (acc : Acc) (s : State) : irqWrite F.IRQ_SW_SET_SOURCE.addr acc s = swSet (bitsAt (wdata acc) 0 10) s := if_pos rfl
theorem irqWrite_done (acc : Acc) (s : State) : irqWrite F.IRQ_DONE_SOURCE.addr acc s = doneWrite (bitsAt (wdata acc) 0 10) s :=
  (if_neg (by decide)).trans (if_pos rfl)

theorem irqWrite_pend {w : Nat} (h : w < 16) (acc : Acc) (s : State) : irqWrite (F.IRQ_PEND_PEND w).addr acc s = pendWrite w acc s := by
  have place : (F.IRQ_PEND_PEND w).addr = 0x191000 + 8 * w := by simp only [F.IRQ_PEND_PEND]; omega
  have word : (0x191000 + 8 * w - 0x191000) / 8 = w := by omega
  unfold irqWrite
  rw [place, if_neg (by simp only [F.IRQ_SW_SET_SOURCE]; omega), if_neg (by simp only [F.IRQ_DONE_SOURCE]; omega), if_pos (by omega), word]

theorem irqWrite_mask {w : Nat} (h : w < 16) (acc : Acc) (s : State) : irqWrite (F.IRQ_MASK_MASK w).addr acc s = maskWrite w acc s := by
  have place : (F.IRQ_MASK_MASK w).addr = 0x191100 + 8 * w := by simp only [F.IRQ_MASK_MASK]; omega
  have word : (0x191100 + 8 * w - 0x191100) / 8 = w := by omega
  unfold irqWrite
  rw [place, if_neg (by simp only [F.IRQ_SW_SET_SOURCE]; omega), if_neg (by simp only [F.IRQ_DONE_SOURCE]; omega), if_neg (by omega),
    if_pos (by omega), word]

/-- An admitted write to the IRQ page. -/
theorem irqPort_admitted {s : State} {a : Nat} {acc p : Acc} (h : Admitted s a acc p) (h8 : a % 8 = 0) (page : a / 65536 = 25) :
    portWrite irqWrite a acc s = irqWrite a p (answer 0 p (atEdge s p)) :=
  portWrite_page h h8 (by omega) (by rw [page]; decide)

/-- The interrupt controller runs where a write to its page is admitted: it belongs to CTRL. -/
theorem irqPage_runs {s : State} {a : Nat} {acc p : Acc} (h : Admitted s a acc p) (ho : offset a = a) (page : a / 65536 = 25) (haon : aonReg a = false) :
    inReset (atEdge s p) 0 = false := by
  have runs := h.runs (by rw [ho, page]; decide) (by rw [ho, page]; decide) (by rw [ho, haon])
  have unit : pageOf a = 25 := by unfold pageOf; rw [page]; rfl
  rwa [ho, unit] at runs

/-! Acknowledgement (R659). -/

/-- The bits written as 1 leave PEND and join ACTIVE. -/
theorem pendWrite_words {w : Nat} (h : w < 16) {acc : Acc} (hw : acc.hwMask = 0) (s : State) :
    rd (pendWrite w acc s) (F.IRQ_PEND_PEND w).addr = rd s (F.IRQ_PEND_PEND w).addr &&& ~~~ wdata acc
      ∧ rd (pendWrite w acc s) (F.IRQ_ACTIVE_ACTIVE w).addr
        = rd s (F.IRQ_ACTIVE_ACTIVE w).addr
          ||| (rd s (F.IRQ_PEND_PEND w).addr &&& wdata acc &&& ~~~ (rd s (F.IRQ_PEND_PEND w).addr &&& ~~~ wdata acc)) := by
  have apart : (F.IRQ_PEND_PEND w).addr ≠ (F.IRQ_ACTIVE_ACTIVE w).addr := by simp only [F.IRQ_PEND_PEND, F.IRQ_ACTIVE_ACTIVE]; omega
  unfold pendWrite
  dsimp only
  rw [rd_updateSources (offOutputs_pend w), rd_updateSources (offOutputs_active w), rd_wr_other apart, rd_wr_same, perform_pend h hw, rd_wr_same]
  exact ⟨rfl, rfl⟩

theorem pendWrite_moves {w : Nat} (h : w < 16) {acc : Acc} (hw : acc.hwMask = 0) (s : State) {i : Nat} (hi : i < 64) :
    irqPend (pendWrite w acc s) (64 * w + i) = (irqPend s (64 * w + i) && !(wdata acc).getLsbD i)
      ∧ irqActive (pendWrite w acc s) (64 * w + i)
        = (irqActive s (64 * w + i) || (irqPend s (64 * w + i) && (wdata acc).getLsbD i)) := by
  obtain ⟨pend, active⟩ := pendWrite_words h hw s
  rw [irqPend_word _ _ hi, irqPend_word _ _ hi, irqActive_word _ _ hi, irqActive_word _ _ hi, pend, active]
  simp only [BitVec.getLsbD_and, BitVec.getLsbD_or, BitVec.getLsbD_not, hi, decide_true, Bool.true_and]
  refine ⟨trivial, ?_⟩
  cases (wdata acc).getLsbD i <;> simp

theorem irqActive_fits (w : Nat) : (F.IRQ_ACTIVE_ACTIVE w).lo + (F.IRQ_ACTIVE_ACTIVE w).w ≤ 64 := Nat.le_refl 64

/-! End of service (R659, R661). -/

theorem doneWrite_ends {n : Nat} {s : State} (hn : n < nSources s) (ha : irqActive s n = true) :
    irqActive (doneWrite n s) n = false ∧ irqPend (doneWrite n s) n = irqPend s n := by
  have apart : (F.IRQ_PEND_PEND (n / 64)).addr ≠ (F.IRQ_ACTIVE_ACTIVE (n / 64)).addr := by
    simp only [F.IRQ_PEND_PEND, F.IRQ_ACTIVE_ACTIVE]; omega
  have left {b : Nat} (hb : OffOutputs b) : rd (doneWrite n s) b = rd (setBit s (F.IRQ_ACTIVE_ACTIVE (n / 64)) (n % 64) false) b := by
    unfold doneWrite
    rw [if_neg (by simp [ha, hn])]
    dsimp only
    split
    · exact rd_groupUpdate hb _ _ _
    · rfl
  constructor
  · rw [irqActive_congr (left (offOutputs_active _))]
    have cleared := bitOn_setBit s (F.IRQ_ACTIVE_ACTIVE (n / 64)) (n % 64) (n % 64) false (Nat.mod_lt _ (by decide)) (irqActive_fits _)
    rwa [if_pos rfl] at cleared
  · rw [irqPend_congr (left (offOutputs_pend _)), irqPend_congr (rd_setBit_other _ _ _ _ _ apart)]

/-! Software sources (R657). -/

theorem swSet_raises {n : Nat} {s : State} (hr : inReset s 0 = false) (h240 : 240 ≤ n) (hp : n < 256 ∨ pers s ≠ 1) (hn : n < nSources s) :
    irqPend (swSet n s) n = true ∧ ∀ m < 1024, m ≠ n → irqPend (swSet n s) m = irqPend s m := by
  have raised : swSet n s = raiseIrq n s := if_pos ⟨h240, hp, hn⟩
  have fits : n < 1024 := hn.trans_le (nSources_le s)
  rw [raised]
  refine ⟨?_, fun m hm ne => ?_⟩
  · rw [irqPend_raiseIrq _ _ _ hr hn fits]; simp
  · rw [irqPend_raiseIrq _ _ _ hr hn hm]; simp [ne]

/-! Masks (R662). -/

/-- The written mask is due four SCLK edges, 20 ns, after the write. -/
theorem maskWrite_schedules {w : Nat} (h : w < 16) {acc : Acc} (hw : acc.hwMask = 0) (hf : acc.half = .full) (s : State) :
    (maskWrite w acc s).irq.maskDue.getLast? = some (s.tim.tb2 + 20 * 2 ^ 48, w, wdata acc) := by
  unfold maskWrite
  dsimp only [setIrq]
  rw [List.getLast?_concat, settleMasks_tim, perform_tim, rd_settleMasks_off (offOutputs_mask w), perform_mask h hw hf, rd_wr_same]

/-! Hold-off (R660). -/

theorem settleMasks_idle {s : State} (h : s.irq.maskDue = []) : settleMasks s = s := by
  unfold settleMasks
  simp [h]

theorem elapse_tb2 (c : Nat) (s : State) : (elapse c s).tim.tb2 = s.tim.tb2 + c * cycle := by
  unfold elapse
  dsimp only
  rw [part_foldl (π := fun t => t.tim.tb2) _ _ fun t e _ => congrArg TimSt.tb2 (prod_tim t e.1 _)]

/-- Time passes until TB2 has reached the time given. -/
theorem le_reachBase_tb2 (x : Nat) (s : State) : x ≤ (reachBase 2 x s).tim.tb2 := by
  change x ≤ (elapse ((x - s.tim.tb2 + (cycle - 1)) / cycle) s).tim.tb2
  rw [elapse_tb2]
  simp only [cycle]
  omega

/-- While no mask write is due, time alone changes no mask. -/
theorem effMask_congr {s t : State} (hi : t.irq = s.irq) (hd : s.irq.maskDue = []) (w : Nat) : effMask t w = effMask s w := by
  unfold effMask
  rw [hi, hd]
  rfl

/-- Whether a source drives its group rests on the registers and the masks. -/
theorem groupDriven_congr {s t : State} (hg : ∀ f, get t f = get s f) (hi : t.irq = s.irq) (hd : s.irq.maskDue = []) (g : Nat) :
    groupDriven t g = groupDriven s g := by
  unfold groupDriven irqDrives irqPend irqActive irqMasked irqMapped irqGroup nSources pers on
  simp only [hg, effMask_congr hi hd]

theorem groupRise_up {g : Nat} (hg : g < 64) (s : State) : bitOn (groupRise s g) F.IRQ_GRP_OUT_OUT g = true := by
  have up : bitOn (setBit s F.IRQ_GRP_OUT_OUT g true) F.IRQ_GRP_OUT_OUT g = true := by
    rw [bitOn_setBit _ _ _ _ _ hg (by decide), if_pos rfl]
  unfold groupRise
  split
  · assumption
  · dsimp only
    split
    · rw [bitOn_congr (get_wake _ _ _ (by decide))]
      exact up
    · exact up

theorem holdoffExpire_raises {s : State} {g at0 : Nat} (hg : g < 64) (hl : look g s.irq.lastRise = some at0) (hr : inReset s 0 = false)
    (hn : g < nGroups s) (hd : s.irq.maskDue = []) (hdr : groupDriven s g = true) : bitOn (holdoffExpire g s) F.IRQ_GRP_OUT_OUT g = true := by
  generalize ht : reachBase 2 (at0 + usec (get s (F.IRQ_GRP_CTL_HOLDOFF g))) s = t
  have regs (f : Field) : get t f = get s f := by rw [← ht, get_reachBase]
  have irq : t.irq = s.irq := by rw [← ht, reachBase_irq]
  have passed : holdoffPassed t g = true := by
    have late := le_reachBase_tb2 (at0 + usec (get s (F.IRQ_GRP_CTL_HOLDOFF g))) s
    rw [ht] at late
    unfold holdoffPassed
    rw [irq, hl, regs]
    exact decide_eq_true late
  have rises : holdoffExpire g s = groupRise t g := by
    unfold holdoffExpire
    rw [hl]
    dsimp only
    rw [if_neg (by simp [hr, hn]), ht, settleMasks_idle (by rw [irq, hd]), groupUpdate, if_pos (by rw [groupDriven_congr regs irq hd, hdr]),
      if_pos (by rw [passed]; rfl)]
  rw [rises]
  exact groupRise_up hg t

/-- Settles O12: each row is one operation of the interrupt controller on the state that the access finds (logs 1, 3, 4). -/
theorem interruptCommandsComplete : Obligations.InterruptCommandsComplete := by
  have pendPage (w : Nat) : (F.IRQ_PEND_PEND w).addr % 8 = 0 ∧ (F.IRQ_PEND_PEND w).addr / 65536 = 25 := by
    simp only [F.IRQ_PEND_PEND]; omega
  have maskPage (w : Nat) : (F.IRQ_MASK_MASK w).addr % 8 = 0 ∧ (F.IRQ_MASK_MASK w).addr / 65536 = 25 := by
    simp only [F.IRQ_MASK_MASK]; omega
  refine ⟨?ack, ?done, ?swSet, ?mask, ?holdoff⟩
  case ack =>
    intro w acc p s hw h _ soft
    obtain ⟨aligned, page⟩ := pendPage w
    refine ⟨_, congrArg Host.Outcome.next (irqPort_admitted h aligned page), fun i hi => ?_⟩
    rw [irqWrite_pend hw]
    exact pendWrite_moves hw soft _ hi
  case done =>
    intro acc p n s h e hn ha
    refine ⟨_, congrArg Host.Outcome.next (irqPort_admitted h (by decide) (by decide)), ?_⟩
    rw [irqWrite_done, e]
    exact doneWrite_ends (s := answer 0 p (atEdge s p)) hn ha
  case swSet =>
    intro acc p n s h e h240 hp hn
    have runs : inReset (atEdge s p) 0 = false := irqPage_runs h (by decide) (by decide) (by decide)
    have same : pers (atEdge s p) = pers s := get_atEdge _ _ _ (by decide)
    refine ⟨_, congrArg Host.Outcome.next (irqPort_admitted h (by decide) (by decide)), ?_⟩
    rw [irqWrite_swSet, e]
    refine swSet_raises (s := answer 0 p (atEdge s p)) runs h240 ?_ ?_
    · exact same ▸ hp
    · have count : nSources (atEdge s p) = nSources s := by unfold nSources; rw [same]
      exact count ▸ hn
  case mask =>
    intro w acc p s hw h full soft
    obtain ⟨aligned, page⟩ := maskPage w
    refine ⟨_, congrArg Host.Outcome.next (irqPort_admitted h aligned page), ?_⟩
    have time : (answer 0 p (atEdge s p)).tim = s.tim := atEdge_tim s p
    rw [irqWrite_mask hw, ← time]
    exact maskWrite_schedules hw soft full _
  case holdoff => exact fun g at0 s hg hl hr hn hd hdr => ⟨_, rfl, holdoffExpire_raises hg hl hr hn hd hdr⟩

end Sys2Proof.Machine
end

section
/-!
PROOF. A statement of 16_control_complex.md: signals, waits, values set by hand and violations of the sync objects (R649 to R655).
-/
namespace Sys2Proof.Machine

/-! The registers of the sync objects. -/

theorem synValue_place (o : Nat) : (F.SYN_OBJ_VIEW0_VALUE o).addr / 65536 = 24 ∧ (F.SYN_OBJ_VIEW0_VALUE o).addr ≠ F.SYN_ERR_OVERFLOW.addr := by
  simp only [F.SYN_OBJ_VIEW0_VALUE, F.SYN_ERR_OVERFLOW]; omega

theorem synValue_fits (o : Nat) : (F.SYN_OBJ_VIEW0_VALUE o).lo + (F.SYN_OBJ_VIEW0_VALUE o).w ≤ 64 := by simp [F.SYN_OBJ_VIEW0_VALUE]

/-- VALUE and VIEW1 of any two objects lie in different registers. -/
theorem synValue_ne_view1 (o q : Nat) : (F.SYN_OBJ_VIEW0_VALUE o).addr ≠ (F.SYN_OBJ_VIEW1_LAST_AGENT q).addr
    ∧ (F.SYN_OBJ_VIEW0_VALUE o).addr ≠ (F.SYN_OBJ_VIEW1_LAST_TIME q).addr := by
  simp only [F.SYN_OBJ_VIEW0_VALUE, F.SYN_OBJ_VIEW1_LAST_AGENT, F.SYN_OBJ_VIEW1_LAST_TIME]; omega

theorem synValue_ne_go (o c : Nat) : (F.SYN_OBJ_VIEW0_VALUE o).addr ≠ (F.SYN_WAIT_GO_GRANTED c).addr := by
  simp only [F.SYN_OBJ_VIEW0_VALUE, F.SYN_WAIT_GO_GRANTED]; omega

/-- An access finds every VALUE as it stands: the record that the Ledger queue passes first is seen in no sync object. -/
theorem get_synValue_atEdge (s : State) (p : Acc) (o : Nat) :
    get (answer 0 p (atEdge s p)) (F.SYN_OBJ_VIEW0_VALUE o) = get s (F.SYN_OBJ_VIEW0_VALUE o) := by
  obtain ⟨page, -⟩ := synValue_place o
  rw [get_answer, get_atEdge _ _ _ (by rw [page]; decide)]

/-! Which treatment the unit gives a register. -/

theorem synWrite_signal (acc : Acc) (s : State) : synWrite F.SYN_SIGNAL_OBJECT.addr acc s = signalWrite acc s := if_pos rfl
theorem synWrite_violation (acc : Acc) (s : State) : synWrite F.SYN_VIOLATION_OBJECT.addr acc s = violationWrite acc s :=
  (if_neg (by decide)).trans (if_pos rfl)

theorem synWrite_set {o : Nat} (h : o < 256) (acc : Acc) (s : State) : synWrite (F.SYN_OBJ_VIEW2_SET o).addr acc s = setWrite o acc s := by
  have place : (F.SYN_OBJ_VIEW2_SET o).addr = 0x181010 + 0x20 * o := by simp only [F.SYN_OBJ_VIEW2_SET]; omega
  have object : (0x181010 + 0x20 * o - 0x181000) / 0x20 = o := by omega
  unfold synWrite
  rw [place, if_neg (by simp only [F.SYN_SIGNAL_OBJECT]; omega), if_neg (by simp only [F.SYN_VIOLATION_OBJECT]; omega), if_pos (by omega), object]

/-- An admitted write to the SYN page. -/
theorem synPort_admitted {s : State} {a : Nat} {acc p : Acc} (h : Admitted s a acc p) (h8 : a % 8 = 0) (page : a / 65536 = 24) :
    portWrite synWrite a acc s = synWrite a p (answer 0 p (atEdge s p)) :=
  portWrite_page h h8 (by omega) (by rw [page]; decide)

/-! Signals (R649, R651). -/

/-- The last agent and time of an object, which every change of VALUE writes. -/
def changedBy (o agent time : Nat) (s : State) : State :=
  set (set s (F.SYN_OBJ_VIEW1_LAST_AGENT o) agent) (F.SYN_OBJ_VIEW1_LAST_TIME o) time

theorem changedBy_agent {agent : Nat} (h : agent < 256) (o time : Nat) (s : State) :
    get (changedBy o agent time s) (F.SYN_OBJ_VIEW1_LAST_AGENT o) = agent := by
  have beside : Beside (F.SYN_OBJ_VIEW1_LAST_AGENT o) (F.SYN_OBJ_VIEW1_LAST_TIME o) := by
    simp [Beside, F.SYN_OBJ_VIEW1_LAST_AGENT, F.SYN_OBJ_VIEW1_LAST_TIME]
  have fits : (F.SYN_OBJ_VIEW1_LAST_AGENT o).lo + (F.SYN_OBJ_VIEW1_LAST_AGENT o).w ≤ 64 := by simp [F.SYN_OBJ_VIEW1_LAST_AGENT]
  rw [changedBy, get_set_other _ _ beside fits, get_set_same _ _ _ fits]
  exact Nat.mod_eq_of_lt h

theorem changedBy_value (o q agent time : Nat) (s : State) : get (changedBy o agent time s) (F.SYN_OBJ_VIEW0_VALUE q) = get s (F.SYN_OBJ_VIEW0_VALUE q) := by
  obtain ⟨offAgent, offTime⟩ := synValue_ne_view1 q o
  rw [changedBy, get_set_other _ _ (.inl offTime) (synValue_fits q), get_set_other _ _ (.inl offAgent) (synValue_fits q)]

theorem get_setValue {o v : Nat} (h : v < 2 ^ 32) (s : State) : get (set s (F.SYN_OBJ_VIEW0_VALUE o) v) (F.SYN_OBJ_VIEW0_VALUE o) = v := by
  rw [get_set_same _ _ _ (synValue_fits o)]
  exact Nat.mod_eq_of_lt h

theorem syncSignal_adds {o amount agent : Nat} {s : State} (h : get s (F.SYN_OBJ_VIEW0_VALUE o) + amount < 2 ^ 32) (ha : agent < 256) :
    get (syncSignal o amount agent s) (F.SYN_OBJ_VIEW0_VALUE o) = get s (F.SYN_OBJ_VIEW0_VALUE o) + amount
      ∧ get (syncSignal o amount agent s) (F.SYN_OBJ_VIEW1_LAST_AGENT o) = agent := by
  have added : syncSignal o amount agent s
      = changedBy o agent (ns2 s) (set s (F.SYN_OBJ_VIEW0_VALUE o) (get s (F.SYN_OBJ_VIEW0_VALUE o) + amount)) := if_neg (not_le.2 h)
  rw [added]
  exact ⟨(changedBy_value ..).trans (get_setValue h s), changedBy_agent ha ..⟩

theorem syncSignal_overflows {o amount agent : Nat} {s : State} (h : 2 ^ 32 ≤ get s (F.SYN_OBJ_VIEW0_VALUE o) + amount) :
    syncSignal o amount agent s = report F.SYN_ERR_OVERFLOW 0x1801 FAULT (o + 256 * agent) s := if_pos h

theorem signalWrite_core {acc : Acc} {c : Nat} (h : acc.port = .core c) (s : State) :
    signalWrite acc s = syncSignal (bitsAt (wdata acc) 0 8) (bitsAt (wdata acc) 8 32) c s := by
  unfold signalWrite; rw [h]

theorem signalWrite_other {acc : Acc} (h : acc.port = .rgp ∨ acc.port = .tap) (s : State) :
    signalWrite acc s = report F.SYN_ERR_EXT_SIGNAL 0x1803 ADVISE (bitsAt (wdata acc) 0 8) s := by
  unfold signalWrite
  rcases h with h | h <;> rw [h]

theorem violationWrite_core {acc : Acc} {c : Nat} (h : acc.port = .core c) (s : State) :
    violationWrite acc s = report F.SYN_ERR_TASK_END 0x1802 FAULT (bitsAt (wdata acc) 0 8 + 256 * c) s := by
  unfold violationWrite; rw [h]

/-- The reports of SYN_ERR leave every VALUE. -/
theorem get_synReport_value {f : Field} (hf : f.addr = F.SYN_ERR_OVERFLOW.addr) (code cls payload : Nat) (s : State) (o : Nat) :
    get (report f code cls payload s) (F.SYN_OBJ_VIEW0_VALUE o) = get s (F.SYN_OBJ_VIEW0_VALUE o) := by
  obtain ⟨page, ne⟩ := synValue_place o
  exact get_report _ _ _ _ _ _ (by rw [page]; decide) (.inl (hf ▸ ne)) (synValue_fits o)

/-- What a report leaves: its flag and its record, in the Guestbook that the access finds. -/
theorem report_atEdge {f : Field} (page : f.addr / 65536 = 24) (h64 : f.lo + f.w ≤ 64) (code cls payload : Nat) (s : State) (p : Acc) :
    get (report f code cls payload (answer 0 p (atEdge s p))) f = 2 ^ f.w - 1
      ∧ Records (atEdge s p) (report f code cls payload (answer 0 p (atEdge s p))) code cls payload := by
  have offGbk : f.addr ≠ F.GBK_STATUS_RUNNING.addr := fun c => by rw [c] at page; revert page; decide
  exact ⟨get_report_same _ _ _ _ _ (by rw [page]; decide) h64, (report_records f code cls payload _ offGbk).of (get_answer ..) rfl⟩

/-! Waits (R652). -/

theorem setSyn_syn (y : SynSt) (s : State) : (setSyn y s).syn = y := rfl

theorem synWait_queues {c : Nat} {s : State} (hr : inReset s 0 = false) (hc : c < nCores s) (idle : ∀ w ∈ s.syn.waits, w.core ≠ c) :
    (synWait c (.core c) s).syn.waits = s.syn.waits ++
      [{ core := c, obj := get s (F.SYN_WAIT_ARG_OBJECT c), amount := get s (F.SYN_WAIT_ARG_AMOUNT c), start := s.tim.tb2,
         tmo := get s (F.SYN_WAIT_ARG_TIMEOUT c) }] := by
  have free : (s.syn.waits.any fun w => w.core == c) = false := List.any_eq_false.2 fun w hw => by simp [idle w hw]
  unfold synWait
  rw [hr, if_neg Bool.false_ne_true, if_neg (by simp [hc]), free, if_neg Bool.false_ne_true]
  dsimp only
  rw [showWaiters_syn, setSyn_syn]

/-- VIEW0 shows the waiters of an object beside its VALUE. -/
theorem get_showWaiters_value (o q : Nat) (s : State) : get (showWaiters o s) (F.SYN_OBJ_VIEW0_VALUE q) = get s (F.SYN_OBJ_VIEW0_VALUE q) := by
  have waiters : Beside (F.SYN_OBJ_VIEW0_VALUE q) (F.SYN_OBJ_VIEW0_WAITERS o) := by simp [Beside, F.SYN_OBJ_VIEW0_VALUE, F.SYN_OBJ_VIEW0_WAITERS]
  have head : Beside (F.SYN_OBJ_VIEW0_VALUE q) (F.SYN_OBJ_VIEW0_HEAD o) := by simp [Beside, F.SYN_OBJ_VIEW0_VALUE, F.SYN_OBJ_VIEW0_HEAD]
  unfold showWaiters
  dsimp only
  rw [get_set_other _ _ head (synValue_fits q), get_set_other _ _ waiters (synValue_fits q)]

theorem waitEnd_granted (w : SynWait) {granted : Nat} (h : granted < 2) (s : State) : get (waitEnd w granted s) (F.SYN_WAIT_GO_GRANTED w.core) = granted := by
  have fits : (F.SYN_WAIT_GO_GRANTED w.core).lo + (F.SYN_WAIT_GO_GRANTED w.core).w ≤ 64 := by simp [F.SYN_WAIT_GO_GRANTED]
  unfold waitEnd
  dsimp only
  rw [get_mk, get_set_same _ _ _ fits]
  exact Nat.mod_eq_of_lt h

theorem waitEnd_value (w : SynWait) (granted o : Nat) (s : State) :
    get (waitEnd w granted s) (F.SYN_OBJ_VIEW0_VALUE o) = get s (F.SYN_OBJ_VIEW0_VALUE o) := by
  unfold waitEnd
  dsimp only
  rw [get_mk, get_set_other _ _ (.inl (synValue_ne_go o _)) (synValue_fits o), get_showWaiters_value, get_setSyn]

theorem waitEnd_waits (w : SynWait) (granted : Nat) (s : State) : (waitEnd w granted s).syn.waits = s.syn.waits.erase w := rfl
theorem waitEnd_rsp (w : SynWait) (granted : Nat) (s : State) : (waitEnd w granted s).rsp = (0, BitVec.ofNat 64 granted) := rfl
theorem waitEnd_gbk (w : SynWait) (granted : Nat) (s : State) : (waitEnd w granted s).gbk = s.gbk := rfl

/-- The end of a wait is seen in the SYN page alone. -/
theorem get_waitEnd_other (w : SynWait) (granted : Nat) (s : State) {g : Field} (page : g.addr / 65536 ≠ 24) (h64 : g.lo + g.w ≤ 64) :
    get (waitEnd w granted s) g = get s g := by
  have offGo : g.addr ≠ (F.SYN_WAIT_GO_GRANTED w.core).addr := fun c => page (by rw [c]; simp only [F.SYN_WAIT_GO_GRANTED]; omega)
  unfold waitEnd
  dsimp only
  rw [get_mk, get_set_other _ _ (.inl offGo) h64, get_showWaiters _ _ _ (by simpa using page), get_setSyn]

theorem synGrant_grants {o : Nat} {w : SynWait} {s : State} (h : headReady s o = some w) :
    get (synGrant o s) (F.SYN_OBJ_VIEW0_VALUE o) = get s (F.SYN_OBJ_VIEW0_VALUE o) - w.amount ∧ get (synGrant o s) (F.SYN_WAIT_GO_GRANTED w.core) = 1
      ∧ (synGrant o s).syn.waits = s.syn.waits.erase w ∧ (synGrant o s).rsp = (0, 1) := by
  have taken : synGrant o s = waitEnd w 1 (set s (F.SYN_OBJ_VIEW0_VALUE o) (get s (F.SYN_OBJ_VIEW0_VALUE o) - w.amount)) := by
    unfold synGrant; rw [h]
  have fits : get s (F.SYN_OBJ_VIEW0_VALUE o) - w.amount < 2 ^ 32 := (Nat.sub_le _ _).trans_lt (get_lt s (F.SYN_OBJ_VIEW0_VALUE o))
  rw [taken]
  refine ⟨?_, waitEnd_granted w (by decide) _, ?_, waitEnd_rsp w 1 _⟩
  · rw [waitEnd_value, get_setValue fits]
  · rw [waitEnd_waits, set_syn]

theorem synTimeout_ends {c : Nat} {w : SynWait} {s : State} (hw : s.syn.waits.find? (fun w => w.core == c) = some w) (hh : headReady s w.obj ≠ some w) :
    get (synTimeout c s) (F.SYN_WAIT_GO_GRANTED w.core) = 0 ∧ (synTimeout c s).syn.waits = s.syn.waits.erase w ∧ (synTimeout c s).rsp = (0, 0)
      ∧ Records s (synTimeout c s) 0x1804 ADVISE (w.obj + 256 * c) := by
  have page : (F.SYN_WAIT_GO_GRANTED w.core).addr / 65536 = 24 := by simp only [F.SYN_WAIT_GO_GRANTED]; omega
  have ended : synTimeout c s = note 0x1804 ADVISE (w.obj + 256 * c) (waitEnd w 0 (reachBase 2 (w.start + usec w.tmo) s)) := by
    unfold synTimeout
    rw [hw]
    exact if_neg hh
  rw [ended]
  refine ⟨?_, ?_, ?_, (note_records _ _ _ _).of ?_ ?_⟩
  · rw [get_note _ _ _ _ _ (by rw [page]; decide), waitEnd_granted w (by decide)]
  · rw [note_syn, waitEnd_waits, reachBase_syn]
  · rw [note_rsp]; exact waitEnd_rsp w 0 _
  · rw [get_waitEnd_other _ _ _ (by decide) (by decide), get_reachBase]
  · rw [waitEnd_gbk, reachBase_gbk]

/-! Values set by hand (R653, R654). -/

/-- A value set by hand is the last change of its object, by agent 0xFE, and enters the Ledger with the value before it. -/
theorem setWrite_sets {o : Nat} {acc : Acc} (hf : acc.half = .full) (s : State) :
    get (setWrite o acc s) (F.SYN_OBJ_VIEW0_VALUE o) = bitsAt (wdata acc) 0 32 ∧ get (setWrite o acc s) (F.SYN_OBJ_VIEW1_LAST_AGENT o) = 0xFE
      ∧ ∃ r, (setWrite o acc s).ldg.queue.getLast? = some r ∧ r.kind = 5 ∧ r.target = o
        ∧ r.old = BitVec.ofNat 64 (get s (F.SYN_OBJ_VIEW0_VALUE o)) := by
  obtain ⟨valuePage, -⟩ := synValue_place o
  have agentPage : (F.SYN_OBJ_VIEW1_LAST_AGENT o).addr / 65536 = 24 := by simp only [F.SYN_OBJ_VIEW1_LAST_AGENT]; omega
  unfold setWrite
  dsimp only
  rw [wfull_full _ hf, get_ledger _ _ _ _ _ _ _ _ _ _ _ (by rw [valuePage]; decide), get_ledger _ _ _ _ _ _ _ _ _ _ _ (by rw [agentPage]; decide)]
  refine ⟨(changedBy_value ..).trans (get_setValue (bitsAt_lt _ _ _) _), changedBy_agent (by decide) .., ?_⟩
  obtain ⟨r, queue, kind, -, -, -, -, target, -, old, -⟩ := ledger_queue 5 (portCode acc.port) (privRank acc.priv) (accFlags acc) (accInit acc) o _ _ _ _
  exact ⟨r, by rw [queue, List.getLast?_concat], kind, target, old⟩

/-- Settles O13: each row is one operation of the sync unit on the state that the access finds; the payloads are log 14's, and the timeout is log 4's. -/
theorem syncCommandsComplete : Obligations.SyncCommandsComplete := by
  have setPage (o : Nat) : (F.SYN_OBJ_VIEW2_SET o).addr % 8 = 0 ∧ (F.SYN_OBJ_VIEW2_SET o).addr / 65536 = 24 := by
    simp only [F.SYN_OBJ_VIEW2_SET]; omega
  refine ⟨?signal, ?other, ?wait, ?grant, ?timeout, ?set, ?violation⟩
  case signal =>
    intro acc p c s h hp hc
    refine ⟨_, congrArg Host.Outcome.next (synPort_admitted h (by decide) (by decide)), ?_⟩
    rw [synWrite_signal, signalWrite_core hp, ← get_synValue_atEdge s p]
    refine ⟨fun fits => syncSignal_adds fits (hc.trans (by decide)), fun passes => ?_⟩
    rw [syncSignal_overflows passes]
    exact ⟨get_synReport_value (f := F.SYN_ERR_OVERFLOW) rfl .., report_atEdge (by decide) (by decide) ..⟩
  case other =>
    intro acc p s h hp
    refine ⟨_, congrArg Host.Outcome.next (synPort_admitted h (by decide) (by decide)), ?_⟩
    rw [synWrite_signal, signalWrite_other hp]
    exact ⟨fun o => (get_synReport_value (f := F.SYN_ERR_EXT_SIGNAL) rfl ..).trans (get_synValue_atEdge s p o), report_atEdge (by decide) (by decide) ..⟩
  case wait => exact fun c s hr hc idle => ⟨_, rfl, synWait_queues hr hc idle⟩
  case grant => exact fun o w s h => ⟨_, rfl, synGrant_grants h⟩
  case timeout => exact fun c w s hw hh => ⟨_, rfl, synTimeout_ends hw hh⟩
  case set =>
    intro o acc p s ho h full
    obtain ⟨aligned, page⟩ := setPage o
    have write : execSyncSet o acc s = .next (setWrite o p (answer 0 p (atEdge s p))) := by
      unfold execSyncSet
      rw [Nat.mod_eq_of_lt ho, synPort_admitted h aligned page, synWrite_set ho]
    refine ⟨_, write, ?_⟩
    rw [← get_synValue_atEdge s p]
    exact setWrite_sets full _
  case violation =>
    intro acc p c s h hp
    refine ⟨_, congrArg Host.Outcome.next (synPort_admitted h (by decide) (by decide)), ?_⟩
    rw [synWrite_violation, violationWrite_core hp]
    exact report_atEdge (by decide) (by decide) ..

end Sys2Proof.Machine
end

section
/-!
PROOF. The statements of 00_scope.md about one step: which command it carries out (log 1), and what no command does to the queue, the outbox and the
count of free values, which are the model's own fields (log 51).
-/
namespace Sys2Proof.Machine

/-- With commands waiting, a step carries out the front one on the state with the rest of the queue. -/
theorem step_pending_cons (c : Instr) (q : List Instr) (s : State) :
    step { s with pending := c :: q } = exec c { s with pending := q } := rfl

/-- With no command waiting, a step is one TCLK cycle. -/
theorem step_pending_nil {s : State} (idle : s.pending = []) : step s = .next (tick s) := by
  unfold step
  rw [idle]

/-- Settles O1: the two arms of `step`; that an idle step is a tick is log 1's. -/
theorem stepTakesFront : Obligations.StepTakesFront := ⟨step_pending_cons, fun _ => step_pending_nil⟩

/-- Settles O4: the part of `Keeps` on the model's own fields (log 51), which each command's meaning keeps (`exec_keeps`). -/
theorem queueAndOutboxKept : Obligations.QueueAndOutboxKept := by
  intro c s t e
  obtain ⟨queue, outbox, free, -⟩ := exec_keeps e
  exact ⟨queue, outbox, free⟩

end Sys2Proof.Machine
end
